-- ==== Sys2Proof/Word.lean ====
section
/-! DEFINITION. The word types of the SH2 and the index types of its units (00, "Names used throughout"). -/

namespace Sys2Proof

/-- One byte of memory, of a register or of a payload. -/
abbrev Byte := BitVec 8

/-- A byte string, lowest address first (R13: every multi-byte structure is little-endian). -/
abbrev Bytes := List (BitVec 8)

/-- A logical tile, 0 to 191 (R6). -/
abbrev TileIx := Fin 192

/-- A region g = 8 d + r, 0 to 15 (R40). -/
abbrev RegionIx := Fin 16

/-- A physical slot within a region, 0 to 12 (R5). -/
abbrev SlotIx := Fin 13

/-- A compute die, 0 or 1. -/
abbrev DieIx := Fin 2

/-- An HBM stack n, 0 to 5 (R374). -/
abbrev StackIx := Fin 6

/-- An HBM channel m = 16 n + k, 0 to 95 (R423). -/
abbrev ChanIx := Fin 96

/-- A port index p, 0 to 17 (R527). -/
abbrev PortIx := Fin 18

/-- A device number of the hall, 0 to 262,143 (R467). -/
abbrev DevNo := Nat

end Sys2Proof
end

