-- ==== Sys2Proof/Syntax.lean ====
section
/-! DEFINITION. The commands of the SH2 and the types of their operands. -/

namespace Sys2Proof

/-- How a command finds the SRAM words that it reads (R743, R744): none with an error, or one whose stored word of 32 data and 3
check symbols has the given symbols changed, read after so many rows of the command. -/
inductive Sram where
  | clean
  | word (errs : List (Fin 35 × Byte)) (after : Nat)
  deriving DecidableEq, Repr

/-- What befalls a chunk sum of the array (R198, R199): in run `run` of row `row` over band `band` of an MM, the sum of the
band's chunk `chunk` in physical column `col` comes out `dev` off, in units of its last place. -/
structure ColErr where
  band : Nat
  row : Nat
  run : Fin 3
  col : Fin 130
  chunk : Nat
  dev : Int
  deriving DecidableEq, Repr

/-- The payload of a REDUCE or LEDGER request (R342, R346, R355, R476): a GX record, a final record with the next code, an END
record, a ledger message by its numbers. The record's bytes are the packet's data. -/
inductive Msg where
  | reduce
  | result (code : Nat)
  | endRec (src sum blocks idx flags : Nat)
  | ledger (args : List Nat)
  deriving DecidableEq, Repr

/-- An addition of the reduction whose residue does not match (R339): the block; whether it is the addition of the device's
total at the node, not that of a contribution in the holding area; whether the second attempt mismatches too. -/
structure AddErr where
  block : Nat
  node : Bool := false
  twice : Bool := false
  deriving DecidableEq, Repr

/-- A Tarilama packet's header fields and payload (R475), kind 1 a request and 2 a response. -/
structure Pkt where
  version : Nat := 1
  kind : Nat := 1
  op : Nat
  status : Nat := 0
  src : Nat
  path : Nat := 0
  srcEpoch : Nat := 0
  dst : Nat := 0
  /-- DST[23:18], reserved. -/
  dstRsv : Nat := 0
  dstEpoch : Nat := 0
  wseq : Nat := 0
  rseq : Nat := 0
  reqId : Nat := 0
  /-- LEN where it differs from the bytes of `data`. -/
  len : Option Nat := none
  key : Nat := 0
  step : Nat := 0
  attempt : Nat := 0
  flags : Nat := 0
  addr : Nat := 0
  aux : Nat := 0
  aux2 : Nat := 0
  /-- The age token that a request presents where TOKEN is set: the spec gives it no place among the fields. -/
  token : Nat := 0
  /-- Of a packet received: its port, and whether it came over IPv6. -/
  port : Nat := 0
  v6 : Bool := false
  /-- Of a packet received: bytes of its class that the port's receive buffer has passed on since the class's last frame
  (R552). -/
  freed : Nat := 0
  /-- Of a packet received: whether the CRC-32C of its trailer holds (R473). Of one sent: what its path mixes into the
  UDP source port (R474, R537). -/
  crcOk : Bool := true
  entropy : Nat := 0
  data : Bytes := []
  /-- Of a REDUCE or LEDGER request: what its payload is. -/
  msg : Option Msg := none
  deriving DecidableEq, Repr

/-- Errors that an HBM read meets in one unit (R387, R390): the unit's number within the range read; the symbols
changed, each by a value XORed into it; the unit that a decoder fault returns in its place, as an HBM offset; and the
same for the second read of R390. -/
structure UnitErr where
  unit : Nat
  flips : List (Nat × Nat) := []
  wrong : Option Nat := none
  flips2 : List (Nat × Nat) := []
  wrong2 : Option Nat := none
  deriving DecidableEq, Repr

/-- An exponent patch of a repeat order (R348): a block's new code, or, with no block, every code of the tag raised by
OVF_BUMP. -/
structure Patch where
  tag : Nat
  block : Option Nat
  code : Nat
  deriving DecidableEq, Repr

/-- A decision of a lead (R365, R366): to commit a step, or to repeat it as a new attempt. -/
structure Order where
  commit : Bool
  step : Nat
  attempt : Nat := 0
  cause : Nat := 0
  patches : List Patch := []
  deriving DecidableEq, Repr

/-- What a device or a node tells its lead of an attempt (R66, R344, R348, R355, R357). -/
inductive LedgerMsg where
  /-- So many devices have reported complete. -/
  | complete (count : Nat)
  /-- A device has confirmed a tag's result. -/
  | confirmed (tag : Nat)
  /-- A tag's root has sent an END with its checks passed. -/
  | checked (tag : Nat)
  /-- A final block overflowed under a code. -/
  | overflow (tag block code : Nat)
  /-- A final block is NaN. -/
  | nan (tag block : Nat)
  deriving DecidableEq, Repr

/-- What the top lead carries to every device of the job (R367, R580). -/
inductive JobOrder where
  | start
  | stop
  | retry
  | failed
  deriving DecidableEq, Repr

/-- The IP header of a received frame (R529, R530): version 6 or 4, addresses in network order, fragmented, options or
extension headers. -/
structure IpHdr where
  v6 : Bool
  src : Bytes
  dst : Bytes
  frag : Bool := false
  opts : Bool := false
  deriving DecidableEq, Repr

/-- A frame received at a port (R530): whether its FCS is correct, its length from destination address to FCS, addresses,
the priority and VLAN ID of its tag, its IP header, its UDP destination port; a TCP segment; a global PAUSE frame; a
frame of a lossless class that arrives beyond the headroom (R553). -/
structure Frame where
  fcsOk : Bool := true
  len : Nat
  dst : Bytes
  src : Bytes
  tag : Option (Nat × Nat) := none
  ip : Option IpHdr := none
  udp : Option Nat := none
  tcp : Bool := false
  pause : Bool := false
  beyond : Bool := false
  deriving DecidableEq, Repr

/-- A PTP message as IEEE 1588-2019 has it (R718): the data set of an Announce in the order of its comparison; sequence
numbers; times in ns; whether a Sync or an answer is two-step; a one-step answer's turnaround. -/
inductive PtpMsg where
  | announce (dataset : List Nat)
  | sync (seq origin : Nat) (twoStep : Bool)
  | followUp (seq origin : Nat)
  | delayReq (seq : Nat)
  | delayResp (seq recv : Nat)
  | pdelayReq (seq : Nat)
  | pdelayResp (seq recv : Nat) (twoStep : Bool) (turn : Nat)
  | pdelayFollowUp (seq sent : Nat)
  deriving DecidableEq, Repr

/-- The intervals of a PTP port (R718). -/
inductive PtpTimer where
  | sync
  | announce
  | delayReq
  | receipt
  deriving DecidableEq, Repr

/-- The header of a Halter command as Dorlen takes it (R571), and where it came from: port, and source addresses as one
number, odd for IPv6. -/
structure Hdr where
  session : Nat
  seq : Nat
  mailbox : Nat
  decision : Nat := 0
  port : Nat := 0
  addr : Nat := 0
  /-- Bytes of the frame that brought the message (R562). -/
  len : Nat := 64
  deriving DecidableEq, Repr

/-- The choices of REPAIR_DECIDE (R595). -/
inductive Repair where
  | shadow
  | retire
  | leave
  | mapOut
  deriving DecidableEq, Repr

/-- A source of the event controller (R604): a shared one, or one of a core's private bank, cores 0 to 3 DC0 to DC3 and 4
GC. -/
inductive EvcSource where
  | shared (s : Fin 512)
  | priv (core : Fin 5) (i : Fin 64)
  deriving DecidableEq, Repr

/-- The data that a load command names (R583): its source, its length and the sum of its words. -/
structure Load where
  src : Nat
  len : Nat
  check : Nat
  deriving DecidableEq, Repr

/-- A team as TEAM_LOAD gives it to one device (R349, R350, R370): the parameters, the team's devices, the lower leads,
the lead, the lead above it, the lead's standby, and this device's place in each tree: number, parent, children. -/
structure Team where
  treesN : Nat := 32
  fanin : Nat := 32
  credits : Nat := 64
  headroom : Nat := 4
  ovfBump : Nat := 8
  beatTimeout : Nat := 50
  hardLimit : Nat := 60
  repeatLimit : Nat := 8
  team : List Nat
  subLeads : List Nat := []
  leadDev : Nat
  leadAbove : Option Nat := none
  standbyDev : Option Nat := none
  trees : List (Nat × Option Nat × List Nat)
  deriving DecidableEq, Repr

/-- A command: an operation that a sequencer, an instruction, a Halter message or a packet asks for, or an event of
the hardware. One constructor for each row of the table of operations and events. -/
inductive Instr where
  /-- R146. Tile t's sequencer issues the MM record at local-store offset a. -/
  | mm (t : TileIx) (a : BitVec 22)
  /-- R178. Tile t's sequencer issues the DRAIN record at local-store offset a. -/
  | drain (t : TileIx) (a : BitVec 22)
  /-- R186. Tile t's sequencer issues the TOPK record at local-store offset a. -/
  | topk (t : TileIx) (a : BitVec 22)
  /-- R191. Tile t's sequencer issues the TOPK_MERGE record at local-store offset a. -/
  | topkMerge (t : TileIx) (a : BitVec 22)
  /-- R860. Tile t's sequencer issues the ZERO record at local-store offset a. -/
  | zero (t : TileIx) (a : BitVec 22)
  /-- R142. Tile t's sequencer issues the BARRIER record at local-store offset a. -/
  | barrier (t : TileIx) (a : BitVec 22)
  /-- R144. The next MM or ZERO of tile t's queue begins. cols are the column errors of its rows, accBad the groups
  in whose accumulators an uncorrectable word is met, sram what the local store's code finds. -/
  | arrayCmdStart (t : TileIx) (cols : List ColErr) (accBad : BitVec 8) (sram : Sram)
  /-- R144. The next DRAIN, TOPK or TOPK_MERGE of tile t's queue begins. stop is the output row at which the mesh
  holds it back, if it does; accBad the groups in whose accumulators an uncorrectable word is met; sram what the
  local store's code finds; adds the additions of its GX records whose residues mismatch. -/
  | drainUnitStart (t : TileIx) (stop : Option Nat) (accBad : BitVec 8) (sram : Sram) (adds : List AddErr)
  /-- R145. The MM or ZERO that tile t's array executes completes with its groups holding the final values. -/
  | arrayCmdDone (t : TileIx)
  /-- R862. The oldest drain-unit command of tile t that has finished completes once every write it made has a final
  status. sumBad says that what the fabric engine received of a drain to the reduction differs from its part
  checksum (R343). -/
  | drainUnitDone (t : TileIx) (sumBad : Bool)
  /-- R142. The BARRIER at the head of tile t's queue completes. -/
  | barrierDone (t : TileIx)
  /-- R185. The drain that tile t's drain unit holds back resumes. stop is the output row at which the mesh holds it
  back again, if it does. adds is as for DRAIN_UNIT_START. -/
  | drainResume (t : TileIx) (stop : Option Nat) (sram : Sram) (adds : List AddErr)
  /-- R143. Tile t's sequencer, stalled on a full queue, issues its record when an entry is free. -/
  | sequencerResume (t : TileIx)
  /-- R43. The Carousel move in progress in region g finishes. -/
  | carouselMoveDone (g : RegionIx)
  /-- R692. The array self-test of region g's new spare slot, in which the columns cols fail. -/
  | spareSelfTest (g : RegionIx) (cols : List (Fin 130))
  /-- R745. A flit on a plane of die d arrives uncorrectable and is resent; failed says that this was its fourth
  resend and fails too. -/
  | meshFlitResend (d : DieIx) (plane : Fin 8) (failed : Bool)
  /-- R745. UCIe link n makes a link-level retry charged to a lane; repair says whether the link has a repair lane
  left. -/
  | ucieLinkRetry (n : Fin 3) (lane : Fin 64) (repair : Bool)
  /-- R30. The retrain of UCIe link n ends; ok says whether the link runs at the width tried. -/
  | ucieRetrainDone (n : Fin 3) (ok : Bool)
  /-- R126. A write of FMT_CNT_CLEAR with COUNTS set, naming counter set k. -/
  | fmtCntClearCounts (k : Fin 256)
  /-- R126. A write of FMT_CNT_CLEAR with ALLOC set, naming counter set k. -/
  | fmtCntClearAlloc (k : Fin 256)
  /-- R215. Tile t's sequencer issues the PUSH record at local-store offset a. -/
  | push (t : TileIx) (a : BitVec 22)
  /-- R215. Tile t's sequencer issues the POP record at local-store offset a. -/
  | pop (t : TileIx) (a : BitVec 22)
  /-- R215. Tile t's sequencer issues the PEEK record at local-store offset a. -/
  | peek (t : TileIx) (a : BitVec 22)
  /-- R215. Tile t's sequencer issues the RESET record at local-store offset a. -/
  | reset (t : TileIx) (a : BitVec 22)
  /-- R216. The oldest command of tile t's Pannier queue begins to execute; sram is what the local store's code
  finds in a PUSH's payload. -/
  | pannierCmdStart (t : TileIx) (sram : Sram)
  /-- R215. The PUSH that executes in tile t completes, its record written in HBM. -/
  | pushDone (t : TileIx)
  /-- R215. The POP or PEEK that executes in tile t completes. -/
  | popDone (t : TileIx)
  /-- R224. The spill in progress in tile t's ring completes. -/
  | spillDone (t : TileIx)
  /-- R227. The restore in progress in tile t's ring ends, ok if it brought the record; far is what the homes of
  REMOTE pages sent of it. -/
  | restoreDone (t : TileIx) (ok : Bool) (far : List Byte)
  /-- R228. GRACE_US passes for the POP or PEEK of tile t that waits for its record. -/
  | popGraceExpiry (t : TileIx)
  /-- R249. Tile t writes MB_DONE with an index, 0xFF when it has finished the step. -/
  | mbDone (t : TileIx) (index : BitVec 8)
  /-- R252. The commit of a step arrives from a lead: the header and the step. -/
  | commit (p : Pkt) (step : Nat)
  /-- R253. The swap of an actionable commit begins. -/
  | tandemSwap
  /-- R253. The swap in progress ends. -/
  | swapComplete
  /-- R255. A repeat order arrives from a lead: the header, and the order with its exponent patches. -/
  | repeatOrder (p : Pkt) (step attempt cause : Nat) (patches : List Patch)
  /-- R255. 10 us after the arrival of a repeat order, what has not landed is discarded. -/
  | repeatDrained
  /-- R255. The boundary's changes are made and the attempt may start. -/
  | repeatRestart
  /-- R268. The snapshot copy in progress ends. -/
  | snapshotCopyDone
  /-- R267. 1 s has passed since the commit after the one shipped became actionable. -/
  | snapshotTimeout
  /-- R282. Tile t's sequencer issues VADD; w is bits [63:8] of the instruction. -/
  | vadd (t : TileIx) (w : BitVec 56)
  /-- R282. Tile t's sequencer issues VSUB; w is bits [63:8] of the instruction. -/
  | vsub (t : TileIx) (w : BitVec 56)
  /-- R282. Tile t's sequencer issues VMUL; w is bits [63:8] of the instruction. -/
  | vmul (t : TileIx) (w : BitVec 56)
  /-- R282. Tile t's sequencer issues VFMA; w is bits [63:8] of the instruction. -/
  | vfma (t : TileIx) (w : BitVec 56)
  /-- R283. Tile t's sequencer issues VMAX; w is bits [63:8] of the instruction. -/
  | vmax (t : TileIx) (w : BitVec 56)
  /-- R283. Tile t's sequencer issues VMIN; w is bits [63:8] of the instruction. -/
  | vmin (t : TileIx) (w : BitVec 56)
  /-- R282. Tile t's sequencer issues VABS; w is bits [63:8] of the instruction. -/
  | vabs (t : TileIx) (w : BitVec 56)
  /-- R282. Tile t's sequencer issues VNEG; w is bits [63:8] of the instruction. -/
  | vneg (t : TileIx) (w : BitVec 56)
  /-- R285. Tile t's sequencer issues VRCP; w is bits [63:8] of the instruction. -/
  | vrcp (t : TileIx) (w : BitVec 56)
  /-- R285. Tile t's sequencer issues VRSQRT; w is bits [63:8] of the instruction. -/
  | vrsqrt (t : TileIx) (w : BitVec 56)
  /-- R285. Tile t's sequencer issues VSQRT; w is bits [63:8] of the instruction. -/
  | vsqrt (t : TileIx) (w : BitVec 56)
  /-- R285. Tile t's sequencer issues VEXP; w is bits [63:8] of the instruction. -/
  | vexp (t : TileIx) (w : BitVec 56)
  /-- R285. Tile t's sequencer issues VLOG; w is bits [63:8] of the instruction. -/
  | vlog (t : TileIx) (w : BitVec 56)
  /-- R285. Tile t's sequencer issues VTANH; w is bits [63:8] of the instruction. -/
  | vtanh (t : TileIx) (w : BitVec 56)
  /-- R285. Tile t's sequencer issues VSIGM; w is bits [63:8] of the instruction. -/
  | vsigm (t : TileIx) (w : BitVec 56)
  /-- R284. Tile t's sequencer issues VCMPGT; w is bits [63:8] of the instruction. -/
  | vcmpgt (t : TileIx) (w : BitVec 56)
  /-- R284. Tile t's sequencer issues VCMPGE; w is bits [63:8] of the instruction. -/
  | vcmpge (t : TileIx) (w : BitVec 56)
  /-- R284. Tile t's sequencer issues VCMPEQ; w is bits [63:8] of the instruction. -/
  | vcmpeq (t : TileIx) (w : BitVec 56)
  /-- R282. Tile t's sequencer issues VSEL; w is bits [63:8] of the instruction. -/
  | vsel (t : TileIx) (w : BitVec 56)
  /-- R282. Tile t's sequencer issues VIADD; w is bits [63:8] of the instruction. -/
  | viadd (t : TileIx) (w : BitVec 56)
  /-- R282. Tile t's sequencer issues VISUB; w is bits [63:8] of the instruction. -/
  | visub (t : TileIx) (w : BitVec 56)
  /-- R282. Tile t's sequencer issues VAND; w is bits [63:8] of the instruction. -/
  | vand (t : TileIx) (w : BitVec 56)
  /-- R282. Tile t's sequencer issues VOR; w is bits [63:8] of the instruction. -/
  | vor (t : TileIx) (w : BitVec 56)
  /-- R282. Tile t's sequencer issues VXOR; w is bits [63:8] of the instruction. -/
  | vxor (t : TileIx) (w : BitVec 56)
  /-- R282. Tile t's sequencer issues VSHL; w is bits [63:8] of the instruction. -/
  | vshl (t : TileIx) (w : BitVec 56)
  /-- R282. Tile t's sequencer issues VSHR; w is bits [63:8] of the instruction. -/
  | vshr (t : TileIx) (w : BitVec 56)
  /-- R282. Tile t's sequencer issues VIMUL; w is bits [63:8] of the instruction. -/
  | vimul (t : TileIx) (w : BitVec 56)
  /-- R282. Tile t's sequencer issues VMOV; w is bits [63:8] of the instruction. -/
  | vmov (t : TileIx) (w : BitVec 56)
  /-- R282. Tile t's sequencer issues VLANE; w is bits [63:8] of the instruction. -/
  | vlane (t : TileIx) (w : BitVec 56)
  /-- R287. Tile t's sequencer issues VCVT; w is bits [63:8] of the instruction. -/
  | vcvt (t : TileIx) (w : BitVec 56)
  /-- R288. Tile t's sequencer issues VPACK; w is bits [63:8] of the instruction. -/
  | vpack (t : TileIx) (w : BitVec 56)
  /-- R290. Tile t's sequencer issues VUNPK; w is bits [63:8] of the instruction. -/
  | vunpk (t : TileIx) (w : BitVec 56)
  /-- R286. Tile t's sequencer issues VRSUM; w is bits [63:8] of the instruction. -/
  | vrsum (t : TileIx) (w : BitVec 56)
  /-- R286. Tile t's sequencer issues VRMAX; w is bits [63:8] of the instruction. -/
  | vrmax (t : TileIx) (w : BitVec 56)
  /-- R291. Tile t's sequencer issues VRAND; w is bits [63:8] of the instruction. -/
  | vrand (t : TileIx) (w : BitVec 56)
  /-- R292. Tile t's sequencer issues VDMASK; w is bits [63:8] of the instruction. -/
  | vdmask (t : TileIx) (w : BitVec 56)
  /-- R293. Tile t's sequencer issues VMSEL; w is bits [63:8] of the instruction. -/
  | vmsel (t : TileIx) (w : BitVec 56)
  /-- R294. Tile t's sequencer issues VLD; w is bits [63:8] of the instruction, sram what the local store's code
  finds. -/
  | vld (t : TileIx) (w : BitVec 56) (sram : Sram)
  /-- R294. Tile t's sequencer issues VST; w is bits [63:8] of the instruction. -/
  | vst (t : TileIx) (w : BitVec 56)
  /-- R294. Tile t's sequencer issues VLDBC; w is bits [63:8] of the instruction, sram what the local store's code
  finds. -/
  | vldbc (t : TileIx) (w : BitVec 56) (sram : Sram)
  /-- R305. Tile t's sequencer issues VLDQ; w is bits [63:8] of the instruction. -/
  | vldq (t : TileIx) (w : BitVec 56)
  /-- R305. Tile t's waiting VLDQ looks at the finished-tile queue again. -/
  | vldqResume (t : TileIx)
  /-- R296. Tile t's sequencer issues VFENCE; w is bits [63:8] of the instruction. -/
  | vfence (t : TileIx) (w : BitVec 56)
  /-- R296. Every earlier store of tile t's vector engine is written. -/
  | vfenceDone (t : TileIx)
  /-- R298. Tile t's sequencer issues VFMT; w is bits [63:8] of the instruction, sram what the local store's code
  finds. -/
  | vfmt (t : TileIx) (w : BitVec 56) (sram : Sram)
  /-- R300. Tile t's sequencer issues VENC; w is bits [63:8] of the instruction. -/
  | venc (t : TileIx) (w : BitVec 56)
  /-- R301. Tile t's sequencer issues VDEC; w is bits [63:8] of the instruction, sram what the local store's code
  finds. -/
  | vdec (t : TileIx) (w : BitVec 56) (sram : Sram)
  /-- R238. Tile t's sequencer issues ROWF; w is bits [63:8] of the instruction, sram what the local store's code
  finds. -/
  | rowf (t : TileIx) (w : BitVec 56) (sram : Sram)
  /-- R238. Tile t's sequencer issues ROWR; w is bits [63:8] of the instruction, sram what the local store's code
  finds. -/
  | rowr (t : TileIx) (w : BitVec 56) (sram : Sram)
  /-- R313. The row instruction that occupies tile t's vector engine ends. -/
  | rowInstrDone (t : TileIx)
  /-- R315. Tile t's sequencer issues HINT; w is bits [63:8] of the instruction. -/
  | hint (t : TileIx) (w : BitVec 56)
  /-- R637. The region whose notice falls due. -/
  | noticeDue (g : RegionIx)
  /-- R643. Region g's regulator group starts the boost of a pending notice. -/
  | boostStart (g : RegionIx)
  /-- R643. Region g's regulator group ramps its boost away. -/
  | boostEnd (g : RegionIx)
  /-- R333. A node receives from a child a GX record: the request, its AUX the tag, its data the record. retry says
  that the adder's residue mismatches once, fail that it mismatches twice. -/
  | reduce (p : Pkt) (retry fail : Bool)
  /-- R344. A node receives an END record from a child, or the parent with the root's final one: the header, its AUX
  the tag, and the record's fields. -/
  | reduceEnd (p : Pkt) (sum blocks idx flags : Nat)
  /-- R355. A device receives a final block: the request, its AUX the tag, its data the GX record, and the block's
  code for the next step. -/
  | reduceResult (p : Pkt) (code : Nat)
  /-- R351. The parent in a tree returns one data credit, or one control credit. -/
  | creditReturn (tree : Nat) (ctl : Bool)
  /-- R361. A lead, or a node of tree 0, receives a report about an attempt of a step. -/
  | ledgerReport (p : Pkt) (step attempt : Nat) (m : LedgerMsg)
  /-- R363. The lead receives a cause of repeat for an attempt of a step, by its code of R363. -/
  | ledgerRepeatRequest (p : Pkt) (step attempt cause : Nat)
  /-- R356. The lead receives RESULT_BAD for a tag. -/
  | resultBad (p : Pkt) (step attempt tag : Nat)
  /-- R362. Every 10 ms a node sends its parent a beat with its subtree's live count. -/
  | beatTimer
  /-- R362. A node receives a child's beat: the live devices of its subtree, and the subtree's size. -/
  | ledgerBeat (p : Pkt) (live size : Nat)
  /-- R362. A subtree stays short of live devices past BEAT_TIMEOUT, and the attempt is repeated as LATE. -/
  | beatTimeout
  /-- R362. An attempt stays open past HARD_LIMIT and is repeated as LATE. -/
  | hardLimitExpiry
  /-- R371. The standby receives a decision from the lead. -/
  | standbyDecision (p : Pkt) (o : Order)
  /-- R371. The lead receives the acknowledgement of a decision from a standby. -/
  | standbyAck (p : Pkt) (o : Order)
  /-- R371. Every 1 ms a lead sends its standby a heartbeat. -/
  | heartbeatTimer
  /-- R371. The standby receives a heartbeat. -/
  | heartbeat (p : Pkt)
  /-- R372. After 5 ms without heartbeat the standby takes over, or raises LEAD_SILENT in host-assisted mode. -/
  | standbyTakeover
  /-- R404. The page copy in progress in channel m ends and the remap takes effect; the top may fall. -/
  | pageRetireDone (m : ChanIx)
  /-- R415. The map-out relayout of stack n ends. -/
  | relayoutDone (n : StackIx)
  /-- R400. An access of channel m meets a parity error; cleared says that the next retry succeeds. -/
  | hbmInterfaceError (m : ChanIx) (cleared : Bool)
  /-- R400. The retraining of channel m's interface ends, ok if the interface runs. -/
  | channelRetrainDone (m : ChanIx) (ok : Bool)
  /-- R396. Channel m's scrub reads its next chunk, whose units meet the errors errs. -/
  | scrubRead (m : ChanIx) (errs : List UnitErr)
  /-- R419. The controllers of stack n read its temperature, in whole degrees Celsius, two's complement. -/
  | hbmTempRead (n : StackIx) (temp : BitVec 8)
  /-- R420. Channel m's controller issues a refresh of one bank. lost is the units of the channel, by their number
  in its own offsets, whose cells have lost their charge before it, with the symbols changed. -/
  | hbmRefresh (m : ChanIx) (lost : List UnitErr)
  /-- R437. An epoch of EPOCH_MS ends. -/
  | heatEpoch
  /-- R432. The tiering engine looks for a page to promote into a free frame. -/
  | promote
  /-- R432. Every part of the next granule of page p has come from its home. -/
  | promoteGranule (p : BitVec 21)
  /-- R433. The promotion of page p has not finished within 10 ms. -/
  | promoteAbandon (p : BitVec 21)
  /-- R434. The tiering engine looks for a page to evict for the hottest candidate. -/
  | evict
  /-- R434. A pass of the eviction of page p finds nothing dirty and everything acknowledged. -/
  | evictDone (p : BitVec 21)
  /-- R435. The eviction of page p has met four dirty passes, or a run unacknowledged for 10 ms. -/
  | evictAbandon (p : BitVec 21)
  /-- R445. Granule g of page p has stayed dirty for WB_MS. -/
  | writebackAge (p : BitVec 21) (g : Fin 32)
  /-- R443. The home acknowledges the write-back run of request num. -/
  | writebackAck (num : Nat)
  /-- R448. The buddy acknowledges the forwarded write of request num. -/
  | buddyForwardAck (num : Nat)
  /-- R451. The buddy has not acknowledged a write within BUDDY_TIMEOUT. -/
  | buddyTimeout
  /-- R453. Device src reports that the unit at its local offset off, part of this device's buddy copy, is poisoned.
  -/
  | buddyPoison (src : Nat) (off : BitVec 44)
  /-- R452. The copy to the new buddy ends. -/
  | reseedDone
  /-- R454. Tile t's sequencer issues the STREAM record at local-store offset a. -/
  | stream (t : TileIx) (a : BitVec 22)
  /-- R459. The fetch of the stream in place i of tile t's fabric queue ends. -/
  | streamDataDone (t : TileIx) (i : Fin 16)
  /-- R459. The deadline of the stream in place i of tile t's fabric queue passes. -/
  | streamDeadline (t : TileIx) (i : Fin 16)
  /-- R460. The stale copy of the stream in place i of tile t's fabric queue has landed. -/
  | streamStaleCopyDone (t : TileIx) (i : Fin 16)
  /-- R492. A READ arrives. busy says that its line is still being changed, errs what its HBM access meets. -/
  | tlRead (p : Pkt) (busy : Bool) (errs : List UnitErr)
  /-- R493. A WRITE arrives. busy says that its line is still being changed, errs what its HBM access meets. -/
  | tlWrite (p : Pkt) (busy : Bool) (errs : List UnitErr)
  /-- R505. An ADD arrives. busy says that its line is still being changed. -/
  | tlAdd (p : Pkt) (busy : Bool)
  /-- R505. A MIN arrives. busy says that its line is still being changed. -/
  | tlMin (p : Pkt) (busy : Bool)
  /-- R505. A MAX arrives. busy says that its line is still being changed. -/
  | tlMax (p : Pkt) (busy : Bool)
  /-- R476. A CAS arrives. busy says that its line is still being changed. -/
  | tlCas (p : Pkt) (busy : Bool)
  /-- R520. An INVAL arrives. -/
  | tlInval (p : Pkt)
  /-- R484. A response arrives. -/
  | tlResponse (p : Pkt)
  /-- R484. No response to request num has arrived within its wait. -/
  | rtoExpiry (num : Nat)
  /-- R486. No response to request num has arrived within REACH_MS. -/
  | reachTimeout (num : Nat)
  /-- R502. The retry-after time of request num passes. -/
  | retryAfterExpiry (num : Nat)
  /-- R504. An age token has not been presented in time. -/
  | tokenExpiry (token : BitVec 16)
  /-- R506. The oldest combining entry has been open for 64 fabric-engine cycles. -/
  | combineFlush
  /-- R513. Tile t's sequencer issues the COPY record at local-store offset a. -/
  | copy (t : TileIx) (a : BitVec 22)
  /-- R516. Tile t's sequencer issues the CTR_WAIT record at local-store offset a. -/
  | ctrWait (t : TileIx) (a : BitVec 22)
  /-- R510. Tile t's sequencer issues the FENCE record at local-store offset a. -/
  | fence (t : TileIx) (a : BitVec 22)
  /-- R480. Tile t's sequencer issues the REMOTE record at local-store offset a. -/
  | remote (t : TileIx) (a : BitVec 22)
  /-- R482. The next command of tile t's fabric queue starts. sram is what the local store's code finds. -/
  | fabricCmdStart (t : TileIx) (sram : Sram)
  /-- R514. The COPY in place i of tile t's fabric queue completes; the copy engines on which a transfer of it
  failed its check twice; whether a buffer word was uncorrectable twice. -/
  | copyDone (t : TileIx) (i : Fin 16) (engines : List (Fin 16)) (spoiled : Bool)
  /-- R516. The counter of the CTR_WAIT in place i of tile t's fabric queue reaches its target. -/
  | ctrWaitDone (t : TileIx) (i : Fin 16)
  /-- R516. The time of the CTR_WAIT in place i of tile t's fabric queue passes. -/
  | ctrWaitTimeout (t : TileIx) (i : Fin 16)
  /-- R512. The FENCE in place i of tile t's fabric queue completes. -/
  | fenceDone (t : TileIx) (i : Fin 16)
  /-- R481. The REMOTE in place i of tile t's fabric queue completes. -/
  | remoteDone (t : TileIx) (i : Fin 16)
  /-- R530. Frame f arrives at port p. -/
  | frameDiscard (p : PortIx) (f : Frame)
  /-- R531. An ARP request of a sender's IPv4 address for a target address arrives in frame f. -/
  | arpRequest (p : PortIx) (f : Frame) (sender target : List Byte)
  /-- R531. A neighbour solicitation for a target address arrives in frame f. -/
  | neighborSolicitation (p : PortIx) (f : Frame) (target : List Byte)
  /-- R531. An echo request arrives in frame f; body is its identifier, sequence number and data. -/
  | icmpEchoRequest (p : PortIx) (f : Frame) (body : List Byte)
  /-- R529. The classes that the PFC frame names, with their pause times in quanta of 512 bit times; and what the
  port's receive buffer has passed on of each class since its last frame. -/
  | pfcReceive (p : PortIx) (times : List (Fin 8 × BitVec 16)) (freed : List (Fin 8 × Nat))
  /-- R556. The six bytes of the LLDPDU's Crelliol TLV, none where it has none; the length of its frame. -/
  | lldpReceive (p : PortIx) (tlv : Option (List Byte)) (len : Nat)
  /-- R555. A port sends an LLDPDU every 5 s or after a change. -/
  | lldpTransmit (p : PortIx)
  /-- R556. A neighbour entry expires after 20 s without an LLDPDU. -/
  | lldpNeighborExpiry (p : PortIx)
  /-- R539. Port p starts an attempt; the partner is an SH2 or not. -/
  | linkBringUp (p : PortIx) (sh2 : Bool)
  /-- R540. The attempt trains; the link's one-way delay in ns. -/
  | linkTrained (p : PortIx) (delay : Nat)
  /-- R542. The attempt of port p fails. -/
  | linkTrainFail (p : PortIx)
  /-- R543. Lane l of port p loses lock. -/
  | laneLossOfLock (p : PortIx) (l : Fin 4)
  /-- R543. A 10 s window of lane l: corrected symbols, symbols, codewords with corrected symbols. -/
  | laneSerWindow (p : PortIx) (l : Fin 4) (errs symbols words : Nat)
  /-- R549. The receiver asks for a replay from frame seq. -/
  | directReplay (p : PortIx) (seq : Fin 4096)
  /-- R557. Message m of a domain arrives at port p; sub is the time stamp's place within the tick, in ns; the
  source addresses of a unicast message; the length of its frame. -/
  | ptpEventMessage (p : PortIx) (m : PtpMsg) (domain sub : Nat) (unicast : Option Nat) (len : Nat)
  /-- R722. The time source is silent for 3 s and the state becomes HOLDOVER. -/
  | timeSourceSilence
  /-- R788. The HELLO of exchange exch arrives whole at a port from source addresses addr. -/
  | hello (port addr exch flags : Nat) (body : List Byte)
  /-- R786. The identity signature over TH1 completes and Dorlen sends the OFFER. -/
  | offerSigned
  /-- R791. The CONFIRM of exchange exch arrives whole. -/
  | confirm (port addr exch flags : Nat) (body : List Byte)
  /-- R793. An exchange without a valid CONFIRM within 5 s of its OFFER is discarded. -/
  | exchangeTimeout (exch : Nat)
  /-- R599. The acknowledgement's header; its SEQ is the highest event number received with no gap. -/
  | eventAck (h : Hdr)
  /-- R599. Event num of a session. -/
  | eventRetransmit (session num : Nat)
  /-- R570. A session closes after SESSION_IDLE_S without a valid message. -/
  | sessionIdle (session : Nat)
  /-- R593. The decision request of this number. -/
  | decisionDeadline (num : Nat)
  /-- R588. Halter NOP replies OK. -/
  | nop (h : Hdr)
  /-- R570. Halter SESSION_CLOSE replies OK and closes the session. -/
  | sessionClose (h : Hdr)
  /-- R598. The classes that the session subscribes to. -/
  | eventSubscribe (h : Hdr) (warning info : Bool)
  /-- R594. Function f goes to host-assisted or to hardware mode. -/
  | modeSet (h : Hdr) (f : Nat) (assisted : Bool)
  /-- R409. Halter REPAIR_DECIDE decides a row or channel repair request. -/
  | repairDecide (h : Hdr) (choice : Repair)
  /-- R440. The page is to be promoted or evicted. -/
  | tierMove (h : Hdr) (page : BitVec 21) (evict : Bool)
  /-- R751. SUBSTITUTE or UNBACK. -/
  | spareDecide (h : Hdr) (unback : Bool)
  /-- R642. The weights of the regions. -/
  | splitDecide (h : Hdr) (weights : List (BitVec 8))
  /-- R485. A home and a path to it. -/
  | routeSet (h : Hdr) (dev path : Nat)
  /-- R373. TAKEOVER or WAIT. -/
  | leadDecide (h : Hdr) (takeover : Bool)
  /-- R595. PUSH or PULL. -/
  | logDrainDecide (h : Hdr) (push : Bool)
  /-- R609. The owner's code and the resources of the group. -/
  | resAcquire (h : Hdr) (owner : BitVec 8) (res : List Nat)
  /-- R612. The resource. -/
  | resRelease (h : Hdr) (r : Nat)
  /-- R612. A released share's buffered data has drained and the release completes. -/
  | resReleaseDone (r : Fin 20)
  /-- R588. Halter RES_QUERY returns the owner of each resource. -/
  | resQuery (h : Hdr)
  /-- R842. Halter GPIO_SET sets direction and level of owned GP pins. -/
  | gpioSet (h : Hdr) (pay : List Byte)
  /-- R842. The levels outside drives on the pins. -/
  | gpioGet (h : Hdr) (inputs : BitVec 8)
  /-- R588. Groom timer GT0 to GT7 and the time after which it expires, 0 to stop it. -/
  | timerSet (h : Hdr) (timer : Nat) (ns : Nat)
  /-- R631. Halter CAP_SET sets the peak and sustained power limits. -/
  | capSet (h : Hdr) (pay : List Byte)
  /-- R632. Halter SITE_BUDGET sets or withdraws the Halter site budget. -/
  | siteBudget (h : Hdr) (pay : List Byte)
  /-- R756. The command's header and payload. -/
  | funcReinit (h : Hdr) (pay : List Byte)
  /-- R756. The pending command; for a tile, the columns that its slot's self-test finds failing. -/
  | funcReinitDone (session seq : Nat) (cols : List (Fin 130))
  /-- R757. The command's header; the level of BOOT_SEL as the start begins. -/
  | devReset (h : Hdr) (sel : BitVec 2)
  /-- R758. The command's header. -/
  | trayPowerCycle (h : Hdr)
  /-- R758. VAUX has not fallen within 10 s of the power-cycle request and report 0x0243 is recorded. -/
  | powerCycleTimeout
  /-- R582. The local offset and the number of bytes; the errors that the read meets in HBM. -/
  | memRead (h : Hdr) (a n : Nat) (errs : List UnitErr)
  /-- R582. The local offset and the bytes. -/
  | memWrite (h : Hdr) (a : Nat) (data : List Byte)
  /-- R584. An offset of the control area and the number of bytes. -/
  | ctlRead (h : Hdr) (o n : Nat)
  /-- R581. The program image, its tile set and MB_COUNT. -/
  | programLoad (h : Hdr) (load : Load) (tiles : List TileIx) (mb : Nat)
  /-- R241. The payload, and what it says: VIEW_A, VIEW_U and UNITS. -/
  | tandemSet (h : Hdr) (pay : List Byte) (a u units : Nat)
  /-- R328. The table. -/
  | tagTableLoad (h : Hdr) (load : Load)
  /-- R426. The table and the frame list; TABLE_BASE, TABLE_MIRROR, FRAME_LIST and BUDDY_DEV. -/
  | pageTableLoad (h : Hdr) (table frames : Load) (base mirror list buddy : Nat)
  /-- R427. The page and its new entry. -/
  | pageSet (h : Hdr) (page : BitVec 21) (entry : BitVec 128)
  /-- R580. Halter JOB_START at the top lead starts the job on every device. -/
  | jobStart (h : Hdr)
  /-- R580. Halter JOB_STOP stops the job at the next commit. -/
  | jobStop (h : Hdr)
  /-- R580. Halter JOB_RETRY orders one further repeat of a failed step. -/
  | jobRetry (h : Hdr)
  /-- R579. Halter JOB_UNLOAD unloads the job and returns JOB_STATE to NONE. -/
  | jobUnload (h : Hdr)
  /-- R440. The pages to pin in their frames, or to unpin. -/
  | tierPin (h : Hdr) (pages : List (BitVec 21)) (pin : Bool)
  /-- R445. The first page and the number of pages. -/
  | tierFlush (h : Hdr) (first count : Nat)
  /-- R452. The new buddy; page, HOME and KEY of each buddied page. -/
  | tierBuddy (h : Hdr) (dev : Nat) (pages : List (BitVec 21 × BitVec 64 × BitVec 32))
  /-- R266. The range's local offset and length, the destination, its key, and AT. -/
  | snapshotShip (h : Hdr) (off len dst key step : Nat)
  /-- R585. The command's header and payload. -/
  | paramSet (h : Hdr) (pay : List Byte)
  /-- R742. Halter LOG_READ returns error records from FROM_SEQ onward. -/
  | logRead (h : Hdr) (pay : List Byte)
  /-- R742. Halter LOG_ACK frees delivered error records up to a SEQ. -/
  | logAck (h : Hdr) (pay : List Byte)
  /-- R588. Halter INFO returns ordering code, serial, firmware versions, device number and epoch. -/
  | info (h : Hdr)
  /-- R815. The command's header and payload. -/
  | periscopeSet (h : Hdr) (pay : List Byte)
  /-- R827. The command's header and payload. -/
  | loupeReport (h : Hdr) (pay : List Byte)
  /-- R827. The command whose second pass is due. -/
  | loupePass2 (session seq : Nat)
  /-- R795. The command's header and payload. -/
  | quote (h : Hdr) (pay : List Byte)
  /-- R795. The attestation signature of a quote completes and part 0 is sent. -/
  | quoteSigned
  /-- R798. The command's header and payload. -/
  | fwStage (h : Hdr) (pay : List Byte)
  /-- R798. Whether the slot reads back as written. -/
  | fwStageDone (written : Bool)
  /-- R800. The command's header and payload; the level of BOOT_SEL as the start begins. -/
  | fwActivate (h : Hdr) (pay : List Byte) (sel : BitVec 2)
  /-- R467. The payload and the number that it gives. -/
  | devNumberSet (h : Hdr) (pay : List Byte) (n : Nat)
  /-- R349. The data and the team that it describes. -/
  | teamLoad (h : Hdr) (load : Load) (t : Team)
  /-- R371. The standby's device number. -/
  | standbySet (h : Hdr) (dev : Nat)
  /-- R496. The payload and the table that it names. -/
  | regionTableLoad (h : Hdr) (pay : List Byte) (load : Load)
  /-- R499. The entry's number and its 32 bytes. -/
  | regionSet (h : Hdr) (i : Nat) (entry : List Byte)
  /-- R536. The payload, and what it names: the table and the place it is to have. -/
  | pathTableLoad (h : Hdr) (pay : List Byte) (load : Load) (offset : Nat)
  /-- R472. The payload, and the tree that it gives: group, root, parent and children. -/
  | groupLoad (h : Hdr) (pay : List Byte) (group root parent : Nat) (children : List Nat)
  /-- R560. The command's header and payload. -/
  | portSet (h : Hdr) (pay : List Byte)
  /-- R542. The command's header; the port. -/
  | portReset (h : Hdr) (p : Nat)
  /-- R605. A hardware source asserts, sets its pending bit and interrupts or wakes its target core. -/
  | evcSourceAssert (x : EvcSource)
  /-- R607. EVC_ROUTE_n is written with v. -/
  | evcRouteWrite (n : Fin 512) (v : BitVec 32)
  /-- R608. Groom saves an idle Dorlen core's state to retention and powers it down. -/
  | corePowerDown (core : Fin 5)
  /-- R608. Whether the retention check passes. -/
  | coreWake (core : Fin 5) (ok : Bool)
  /-- R619. VIN at the package in mV. -/
  | vinSample (mv : Nat)
  /-- R628. The samples of 1 us: VIN and VAUX power in 0.1 W, and for each region in turn its power in 0.1 W and the
  lowest VLOGIC of its detectors in 2.5 mV. -/
  | powerSample (vin vaux : Nat) (regions : List (Nat × Nat))
  /-- R622. Region g's regulator group checks its phases and finds these faulted. -/
  | phaseCheck (g : RegionIx) (faulted : List (Fin 24))
  /-- R622. Phase k of region g's regulator group is re-enabled. -/
  | phaseReenable (g : RegionIx) (k : Fin 24)
  /-- R639. Every 100 µs Rein sets the budget, chooses a P-state and shares allowances among regions. -/
  | reinInterval
  /-- R641. The fast limiter compares the 1 ms average, and the VIN current of the last 1 us in 0.1 A. -/
  | fastLimiter (amps : Nat)
  /-- R626. Region g's regulator group reports reaching its new VLOGIC. -/
  | vlogicReport (g : RegionIx)
  /-- R710. At the announced count both dies change core frequency, and VLOGIC then ramps down if slower. -/
  | clockChange
  /-- R646. The droop detector at slot k of region g trips. -/
  | droopTrip (g : RegionIx) (k : SlotIx)
  /-- R647. The droop detector at slot k of region g clears. -/
  | droopClear (g : RegionIx) (k : SlotIx)
  /-- R647. The count of cycles of die d's stretch expires. -/
  | stretchReturn (d : DieIx)
  /-- R649. The first word of VMIN_g is read. -/
  | vminRead (g : RegionIx)
  /-- R651. The waiting power-on of region g is tested for admission. -/
  | regionAdmitTest (g : RegionIx)
  /-- R652. Region g's power-on sequence ends. -/
  | regionPowerOnDone (g : RegionIx)
  /-- R653. Region g's power-on has not been admitted within 50 us. -/
  | regionDefer (g : RegionIx)
  /-- R650. Rein switches region g off. -/
  | regionPowerOff (g : RegionIx)
  /-- R655. VR_ALERT_N falls and every region is forced to P5. -/
  | vrAlertFall
  /-- R654. The auxiliary regulator alert on GP3 goes active and P5 is forced. -/
  | regAlert
  /-- R655. The alert of VR_ALERT_N, or of GP3, has been high for 10 ms. -/
  | alertForceEnd (gp3 : Bool)
  /-- R633. A tray budget not refreshed for BUDGET_STALE_MS keeps its value and SITE_STALE is raised. -/
  | budgetStale
  /-- R669. The sensors A and B of site q convert, in 0.25 degrees C. -/
  | sensorConversion (q : Fin 214) (a b : Int)
  /-- R676. Groom reads the tray report, none where the tray does not answer. -/
  | trayReport (rep : Option (List Byte))
  /-- R675. Groom writes its flow request to the tray again every 1 s. -/
  | trayRequestRefresh
  /-- R679. Every 10 ms Groom computes W_flow and W_junc and passes the coolant limit to Rein. -/
  | coolantLimitUpdate
  /-- R677. A flow meter pulse arrives on GP0 or GP1 and is counted. -/
  | flowPulse
  /-- R678. The pump-fail input on GP2 changes level. -/
  | pumpFailInput (active : Bool)
  /-- R685. Flow and outlet rise have been clear for 1 s, the force is removed and the held attempt starts. -/
  | coolantRestore
  /-- R687. The privileged sensor's site. -/
  | thermalTrip (q : Fin 214)
  /-- R693. Every 1 s Groom lowers or raises its flow request or starts idle activity by the warm reading. -/
  | warmFloorCheck
  /-- R694. Every 1 s Groom adds or removes 5 W of idle activity. -/
  | idleActivityAdjust
  /-- R705. REFCLK is lost for over 10 µs: ports go down, P5 is forced and REFCLK_LOST raised. -/
  | refclkLoss
  /-- R723. TIMECLK is lost for over 10 µs and the time PLL moves to REFCLK. -/
  | timeclkLoss
  /-- R723. After 1 s of valid TIMECLK the time PLL returns to it. -/
  | timeclkReturn
  /-- R724. The edge's place within the tick in ns. -/
  | ppsInEdge (sub : Nat)
  /-- R725. At each whole second GP7 rises for 100 ms while PPS_OUT owns it. -/
  | ppsOutEdge
  /-- R737. Every 100 ns Dorlen moves the oldest queued report into the error-log ring. -/
  | logMove
  /-- R747. The session and number of the command that the core was executing. -/
  | dorlenWatchdog (core : Fin 4) (running : Option (Nat × Nat))
  /-- R745. GC's 10 ms watchdog expires and GC restarts. -/
  | groomWatchdog
  /-- R777. VAUX comes into tolerance, GC starts from ROM and the time counter starts at 0. -/
  | vauxUp
  /-- R846. VAUX falls and every VIN-fed regulator turns off. -/
  | vauxFall
  /-- R780. RST_N held low resets everything outside the VAUX domain. -/
  | rstNAssert
  /-- R769. The level of BOOT_SEL at the edge. -/
  | rstNDeassert (sel : BitVec 2)
  /-- R776. PWRGD rises, allowing the main rails to rise once an image has passed. -/
  | pwrgdRise
  /-- R781. PWRGD falls with the main rails up and Groom turns them off and records a power loss. -/
  | pwrgdFall
  /-- R772. Groom finishes reading and checking a slot's image, ramps the main rails or tries the other slot. -/
  | imageCheckDone
  /-- R777. Pending rows whose bank has no spare row left; slots and columns that fail the array self-test. -/
  | hbmTrainingDone (full : List (ChanIx × Nat)) (cols : List (Fin 208 × Fin 130))
  /-- R785. The attestation key is derived and certified and AK_READY becomes 1. -/
  | akReady
  /-- R777. The start reaches READY, a trial image becomes the boot slot and sessions are accepted. -/
  | ready
  /-- R802. A trial image misses READY within 30 s and Groom falls back to the previous boot slot. -/
  | trialTimeout
  /-- R810. A write of OPS_CLEAR with TILES set clears every TILE_OPS_t at one tick. -/
  | opsClearTiles
  /-- R810. A write of OPS_CLEAR with DEVICE set clears DEV_OPS at one tick. -/
  | opsClearDevice
  /-- R813. Periscope's owned timer expires and a sample is taken. -/
  | periscopeTimer
  /-- R813. The edge. -/
  | periscopePin (rising : Bool)
  /-- R17. The register word at offset o of the control area is written with v. -/
  | registerWrite (o : BitVec 28) (v : BitVec 64)
  /-- R769. The level of BOOT_SEL. -/
  | bootSelSample (sel : BitVec 2)
  /-- R705. REFCLK returns after a loss and the time PLL leaves its own oscillator. -/
  | refclkReturn
  /-- R655. VR_ALERT_N, or GP3 under REG_ALERT, returns high; status is what Groom reads of the board regulators. -/
  | vrAlertRise (gp3 : Bool) (status : Nat)
  /-- R725. GP7 falls 100 ms after each whole-second rise while PPS_OUT owns it. -/
  | ppsOutFall
  /-- R588. A pending PROGRAM_LOAD finishes applying the program to the sequencers and gives its final reply,
  extending MEASURE_4. -/
  | programLoadDone
  /-- R426. A pending PAGE_TABLE_LOAD finishes copying the table and frame list and gives its final reply. -/
  | pageTableLoadDone
  /-- R372. A standby announces itself as lead in the place of old. -/
  | leadAnnounce (p : Pkt) (old : Nat)
  /-- R580. The request of the lead that sends it, and the order. -/
  | jobOrderReceived (p : Pkt) (o : JobOrder)
  /-- R597. In PULL mode the ring stays over three quarters full with no LOG_READ for 1 s, and LOG_DRAIN_REQUEST is
  raised. -/
  | logDrainRequest
  /-- R572. A message that fails its check arrives at a port, in a frame of so many bytes. -/
  | halterMessageDiscard (port len : Nat)
  /-- R588. A command of a reserved code. -/
  | halterUnknownCode (h : Hdr) (code : BitVec 16)
  /-- R318. Tile t's sequencer issues a record at local-store offset a, or a vector instruction of opcode op, whose
  opcode is reserved. -/
  | reservedOpcode (t : TileIx) (vec : Bool) (op : BitVec 8) (a : BitVec 22)
  /-- R402. The copy of the oldest failing row of channel m into its shadow entry ends, and the row is served from
  the shadow. -/
  | rowShadowDone (m : ChanIx)
  /-- R495. The turn comes of the request in place i of the home queue. -/
  | homeQueueRelease (i : Fin 256)
  /-- R543. Lane l carries the codeword's symbol errors. -/
  | uncorrectableCodeword (p : PortIx) (l : Fin 4)
  /-- R548. The highest sequence number received in order. -/
  | directModeAck (p : PortIx) (seq : Fin 4096)
  /-- R529. The pause of class c runs out at port p. -/
  | pfcPauseExpiry (p : PortIx) (c : Fin 8)
  /-- R718. The interval w of port p expires. -/
  | ptpIntervalTimer (p : PortIx) (w : PtpTimer)
  /-- R843. A record finishes its 5.2 µs on the trace pins and frees its place in the four-record buffer. -/
  | traceRecordSent
  deriving DecidableEq, Repr

end Sys2Proof
end

