-- ==== Sys2Proof/Machine/Tbl.lean ====
section
/-! DEFINITION. Sparse tables in one canonical form: keys strictly rising, no entry equal to what an unlisted key
reads as. Memory bytes, accumulator elements, unit metadata and the per-tile state are tables of this kind. -/

namespace Sys2Proof.Machine

/-- A sparse table: pairs of key and value, keys strictly rising. -/
abbrev Tbl (α : Type) := List (Nat × α)

variable {α : Type}

/-- The value at a key; an unlisted key reads as `d`. -/
def Tbl.get (d : α) : Tbl α → Nat → α
  | [], _ => d
  | (k, v) :: t, i => if k = i then v else Tbl.get d t i

/-- The table without a key's entry. -/
def Tbl.erase (t : Tbl α) (i : Nat) : Tbl α := t.filter fun e => e.1 ≠ i

/-- The table with an entry put at its place in the order. -/
def Tbl.insert (i : Nat) (v : α) : Tbl α → Tbl α
  | [] => [(i, v)]
  | (k, w) :: t => if i < k then (i, v) :: (k, w) :: t else (k, w) :: Tbl.insert i v t

/-- The table with the value at a key replaced; writing `d` removes the entry. -/
def Tbl.set [DecidableEq α] (d : α) (t : Tbl α) (i : Nat) (v : α) : Tbl α :=
  if v = d then Tbl.erase t i else Tbl.insert i v (Tbl.erase t i)

/-- The canonical form above `lo`: keys strictly rising from `lo` on and no entry equal to `d`. -/
def Tbl.wfFrom [DecidableEq α] (d : α) : Nat → Tbl α → Bool
  | _, [] => true
  | lo, (k, v) :: t => decide (lo ≤ k) && decide (v ≠ d) && Tbl.wfFrom d (k + 1) t

/-- The canonical form of a table whose unlisted keys read as `d`. -/
def Tbl.wf [DecidableEq α] (d : α) (t : Tbl α) : Bool := Tbl.wfFrom d 0 t

/-- Writes a list of values at consecutive keys from `i` on. -/
def Tbl.setList [DecidableEq α] (d : α) : Tbl α → Nat → List α → Tbl α
  | t, _, [] => t
  | t, i, v :: vs => Tbl.setList d (Tbl.set d t i v) (i + 1) vs

/-- Reads `n` consecutive values from key `i` on. -/
def Tbl.getList (d : α) (t : Tbl α) (i : Nat) : Nat → List α
  | 0 => []
  | n + 1 => Tbl.get d t i :: Tbl.getList d t (i + 1) n

/-- The table with every entry of keys `lo` to `hi - 1` removed. -/
def Tbl.clear (t : Tbl α) (lo hi : Nat) : Tbl α := t.filter fun e => e.1 < lo || hi ≤ e.1

/-- Copies the entries of `n` keys from `src` on to `dst` on, replacing all that was there. -/
def Tbl.copy [DecidableEq α] (d : α) (t : Tbl α) (src dst n : Nat) : Tbl α :=
  (t.filter fun e => src ≤ e.1 && e.1 < src + n).foldl
    (fun acc e => Tbl.set d acc (dst + (e.1 - src)) e.2) (Tbl.clear t dst (dst + n))

/-- Changes the value at one key. -/
def Tbl.upd [DecidableEq α] (d : α) (t : Tbl α) (i : Nat) (f : α → α) : Tbl α := Tbl.set d t i (f (Tbl.get d t i))

end Sys2Proof.Machine
end

