-- ==== Sys2Proof/Machine/Bits.lean ====
section
/-! DEFINITION. Bit fields, byte strings and counters that stop at their largest value. -/

namespace Sys2Proof.Machine

/-- Bits `[hi:lo]` of a number (R12). -/
def bits (x hi lo : Nat) : Nat := (x >>> lo) % 2 ^ (hi + 1 - lo)

/-- Bit `i` of a number. -/
def bit (x i : Nat) : Bool := x.testBit i

/-- A Boolean as a bit. -/
def b2n (b : Bool) : Nat := if b then 1 else 0

/-- A number as `n` little-endian bytes (R13). -/
def toBytes : Nat → Nat → Bytes
  | 0, _ => []
  | n + 1, x => BitVec.ofNat 8 x :: toBytes n (x / 256)

/-- The little-endian number of a byte string (R13). -/
def fromBytes : Bytes → Nat
  | [] => 0
  | b :: bs => b.toNat + 256 * fromBytes bs

/-- A number as `n` big-endian bytes, as network headers and SHA-256 have them. -/
def toBytesBE (n x : Nat) : Bytes := (toBytes n x).reverse

/-- The big-endian number of a byte string. -/
def fromBytesBE (b : Bytes) : Nat := fromBytes b.reverse

/-- `n` bytes of a string from byte `i` on, zero beyond its end. -/
def slice (b : Bytes) (i n : Nat) : Bytes := ((b.drop i).take n) ++ List.replicate (n - ((b.drop i).take n).length) 0

/-- The little-endian number in bytes `i` to `i + n - 1` of a string. -/
def field (b : Bytes) (i n : Nat) : Nat := fromBytes (slice b i n)

/-- Two's complement reading of the low `w` bits. -/
def signed (w x : Nat) : Int := if x % 2 ^ w < 2 ^ (w - 1) then (x % 2 ^ w : Nat) else (x % 2 ^ w : Nat) - (2 ^ w : Nat)

/-- The `w`-bit two's complement code of an integer. -/
def unsigned (w : Nat) (i : Int) : Nat := (i % (2 ^ w : Nat)).toNat

/-- A counter of `w` bits that stops at its largest value. -/
def satAdd (w x n : Nat) : Nat := min (2 ^ w - 1) (x + n)

/-- Rounds up to a multiple of `m`. -/
def roundUp (x m : Nat) : Nat := (x + m - 1) / m * m

/-- Ceiling division. -/
def ceilDiv (x m : Nat) : Nat := (x + m - 1) / m

/-- The sum modulo 2^64 of a string's 64-bit words, the last filled with zero bytes (R212, R268, R583): `fuel` at
least the number of words. -/
def checkSum : Nat → Bytes → Nat
  | 0, _ => 0
  | f + 1, b => if b.isEmpty then 0 else (field b 0 8 + checkSum f (b.drop 8)) % 2 ^ 64

/-- The sum modulo 2^64 of a whole string (R212, R583). -/
def checkOf (b : Bytes) : Nat := checkSum (b.length / 8 + 1) b

/-- An update of one element of a list. -/
def setAt {α : Type} (l : List α) (i : Nat) (f : α → α) : List α := l.modify i f

/-- The element of a list, or the given one beyond its end. -/
def nth {α : Type} (l : List α) (i : Nat) (d : α) : α := l.getD i d

/-- Whether an alignment holds. -/
def aligned (x m : Nat) : Bool := x % m == 0

/-- CRC-32C of a string (R473, R734), reflected polynomial 0x82F63B78, one byte at a time. -/
def crc32cByte (c : Nat) (b : Byte) : Nat :=
  (List.range 8).foldl (fun c _ => if c % 2 = 1 then (c / 2) ^^^ 0x82F63B78 else c / 2) (c ^^^ b.toNat)

/-- CRC-32C of a string, with its initial value and final complement. PRESUMED the Castagnoli CRC, log 8. -/
def crc32c (b : Bytes) : Nat := (b.foldl crc32cByte 0xFFFFFFFF) ^^^ 0xFFFFFFFF

/-- CRC-8 of R674: polynomial 0x07, initial value 0, most significant bit first, no final XOR. -/
def crc8 (b : Bytes) : Nat :=
  b.foldl (fun c x => (List.range 8).foldl
    (fun c _ => if 128 ≤ c then ((2 * c) % 256) ^^^ 7 else 2 * c) (c ^^^ x.toNat)) 0

end Sys2Proof.Machine
end

