-- ==== Sys2Proof/Machine/StBase.lean ====
section
/-! DEFINITION. State of the package as a whole: flash and its retirement record, the tile map and the links (01),
shared time (14), the error log (15), Halter, its events, decisions and resources (11), and the start (16). -/

namespace Sys2Proof.Machine

/-! ### The error log (15) -/

/-- A report, and the record made of it (R734). `seq` is 0 until the record enters the ring; `delivered` and
`carried` say whether a LOG_READ reply or a LOG event has carried it (R742). -/
structure ErrRec where
  first : Nat
  last : Nat
  count : Nat := 1
  cls : Nat
  unit : Nat
  code : Nat
  inst : Nat
  step : Nat
  attempt : Nat
  flags : Nat := 0
  addr : Nat := 0
  detail : Nat := 0
  seq : Nat := 0
  delivered : Bool := false
  carried : Bool := false
  resv : Bool := false
  deriving DecidableEq, Repr

/-- Counters of the physical slot 13 g + k (R765) and the times of its SRAM events (R745). -/
structure SlotErr where
  corr : Nat := 0
  uncorr : Nat := 0
  faults : Nat := 0
  corrTimes : List Nat := []
  uncorrTimes : List Nat := []
  colErrors : Nat := 0
  colTimes : Tbl (List Nat) := []
  /-- Columns with a third error within 1 s, to be retired at the next band load (R200). -/
  colDue : List Nat := []
  deriving DecidableEq, Repr

/-- The error log (R737 to R742, R764) and the counters of R765 and R766. -/
structure ErrLog where
  queue : List ErrRec := []
  held : List ErrRec := []
  ring : List ErrRec := []
  nextSeq : Nat := 1
  queuePeak : Nat := 0
  lost : Nat := 0
  written : Nat := 0
  coalesced : Nat := 0
  lastRead : Nat := 0
  /-- When the last record moved to the ring (R737). -/
  movedAt : Option Nat := none
  slots : Tbl SlotErr := []
  linkRetries : Tbl Nat := []
  linkRetrains : Tbl Nat := []
  linkRetryTimes : Tbl (List Nat) := []
  linkRetrainTimes : Tbl (List Nat) := []
  linkLaneRetries : Tbl Nat := []
  linkHeld : List Nat := []
  meshResends : Tbl Nat := []
  meshTimes : Tbl (List Nat) := []
  adderTimes : Tbl (List Nat) := []
  engineTimes : Tbl (List Nat) := []
  watchdogs : Nat := 0
  /-- Records that wait for the trace pins, at most 4, and when the first of them began (R843). -/
  trace : List ErrRec := []
  traceAt : Nat := 0
  deriving DecidableEq, Repr

/-! ### Flash (16 R768) and the retirement record -/

/-- The state of a UCIe link in the retirement record: lanes repaired, and 0 FULL, 1 HALF, 2 RETIRED (R766). -/
structure LinkRec where
  lanes : Nat := 0
  st : Nat := 0
  deriving DecidableEq, Repr

/-- What the retirement record holds of an HBM channel (R402 to R406, R410, R422, R423). -/
structure ChanRec where
  /-- Rows shadowed and pending repair, and rows repaired: row numbers of the channel (R379). -/
  shadows : List Nat := []
  repaired : List Nat := []
  /-- Retired pages: channel page and the target page it is remapped to. -/
  remap : List (Nat × Nat) := []
  retired : Nat := 0
  mappedOut : Bool := false
  deriving DecidableEq, Repr

/-- An image slot (R770): the image's bytes, and whether it was staged by R798. -/
structure Image where
  bytes : Bytes := []
  staged : Bool := false
  deriving DecidableEq, Repr

/-- A record of a loss of VIN (R781: lowest VIN, stage of the start) or of a trip (R689: site, privileged readings). -/
structure TripRec where
  time : Nat
  a : Nat
  b : List Nat
  deriving DecidableEq, Repr

/-- On-package flash and fuses: what neither reset nor power-off clears. DESIGN CHOICE, log 89. -/
structure Flash where
  slots : List Nat := []
  cols : List (Nat × Nat) := []
  links : List LinkRec := [{}, {}, {}]
  mesh : List Nat := [0, 0]
  lanes : Tbl Nat := []
  phases : Tbl Nat := []
  chans : Tbl ChanRec := []
  adders : Nat := 0xFF
  engines : Nat := 0xFFFF
  cores : Nat := 0xF
  bootEpoch : Nat := 0
  safety : List (Nat × Nat) := []
  owner : Option (Bytes × Bytes) := none
  trips : List TripRec := []
  powerLoss : List TripRec := []
  fatal : List ErrRec := []
  /-- Causes of R772 of the last start that found no image (R774), slot and cause. -/
  causes : List (Nat × Nat) := []
  /-- Whether the last trip and the last power loss have yet to be told (R689, R781). -/
  newTrip : Bool := false
  newLoss : Bool := false
  slotA : Image := {}
  slotB : Image := {}
  bootSlot : Nat := 0
  /-- A slot on trial and whether COMMIT was set (R800, R801). -/
  trial : Option (Nat × Bool) := none
  svnFloor : Nat := 0
  deriving DecidableEq, Repr

/-! ### The package (01) -/

/-- A tile-map entry (R55): the bound slot (15 when none), 0 ACTIVE, 1 MOVING, 2 UNBACKED, and its count of changes. -/
structure MapEntry where
  slot : Nat
  st : Nat := 0
  epoch : Nat := 0
  deriving DecidableEq, Repr

/-- A region's spare (15 when none), rebindings (R56), and a move in progress: tile, source and destination. -/
structure RegionSlots where
  spare : Nat
  moves : Nat := 0
  move : Option (Nat × Nat × Nat) := none
  /-- Time counter when the move ends at the latest (R44). -/
  due : Nat := 0
  /-- Slots failed and waiting for the boundary (R50, R750), with 0 while the host decides, 1 to substitute, 2 to leave
  the tile UNBACKED (R595). -/
  failed : List (Nat × Nat) := []
  /-- Time at which the last move ended (R690). -/
  moveEnd : Nat := 0
  selfTest : Option Nat := none
  deriving DecidableEq, Repr

/-- The tile map and the regions' slots. -/
structure Package where
  map : List MapEntry
  regions : List RegionSlots
  deriving DecidableEq, Repr

/-! ### Shared time (14) -/

/-- The time counter and its discipline (R714 to R728). `frac` counts 2^-32 ns; `rate` is in 0.001 ppm. -/
structure Time where
  ns : Nat := 0
  frac : Nat := 0
  rate : Int := 0
  src : Nat := 1
  st : Nat := 0
  timeclkOk : Bool := false
  slavePort : Nat := 31
  offset : Int := 0
  capture : Nat := 0
  steps : Nat := 0
  holdovers : Nat := 0
  rejects : Nat := 0
  /-- Consecutive offsets within 100 ns (R720). -/
  good : Nat := 0
  timeclkEn : Bool := false
  ptpPorts : Nat := 3
  ptpDomain : Nat := 0
  ptpDelay : Nat := 0
  slaveOnly : Bool := true
  /-- Whether seconds were taken from PTP under source 3 (R719). -/
  seconds : Bool := false
  lastPps : Option Nat := none
  /-- When the source was last heard (R722), and when GP7 last rose (R725). -/
  heard : Nat := 0
  ppsOut : Option Nat := none
  timeclkSince : Nat := 0
  refclk : Bool := true
  /-- Core cycles of the two dies since reset, in thousandths. -/
  cyc : List Nat := [0, 0]
  deriving DecidableEq, Repr

/-! ### Halter (11) -/

/-- The action a decision request would take in hardware mode (R590): what the request is about. -/
inductive Request where
  | row (chan off : Nat)
  | channel (chan : Nat)
  | tier (page victim : Nat)
  | spare (region slot : Nat)
  | split (weights : List Nat)
  | route (home failed proposed : Nat)
  | logDrain
  | lead (old : Nat)
  deriving DecidableEq, Repr

/-- The function number of a request (R590). -/
def Request.func : Request → Nat
  | .row _ _ => 0 | .channel _ => 0 | .tier _ _ => 1 | .spare _ _ => 2 | .split _ => 3
  | .route _ _ _ => 4 | .logDrain => 5 | .lead _ => 6

/-- A pending decision request (R591). -/
structure Decision where
  num : Nat
  req : Request
  created : Nat
  deriving DecidableEq, Repr

/-- An event (R603): code, payload fields, records of a LOG event, decision number. -/
structure Event where
  code : Nat
  payload : List Nat := []
  recs : List ErrRec := []
  decision : Nat := 0
  deriving DecidableEq, Repr

/-- An event in a session's queue, unacknowledged: its number, when it was last sent and the wait (R599); whether it
takes a reserved entry (R600). -/
structure QEvent where
  num : Nat
  ev : Event
  sentAt : Nat
  wait : Nat := 10000000
  reserved : Bool := false
  deriving DecidableEq, Repr

/-- A kept reply (R573): status and payload; 1 PENDING while the command runs. -/
structure Reply where
  seq : Nat
  code : Nat
  status : Nat
  payload : Bytes := []
  deriving DecidableEq, Repr

/-- A quote or a hang report that a session keeps: its number and bytes. -/
structure Doc where
  id : Nat
  bytes : Bytes
  deriving DecidableEq, Repr

/-- A session (R565 to R573). -/
structure Session where
  num : Nat
  slot : Nat := 0
  control : Bool
  h2d : Bytes := []
  d2h : Bytes := []
  msgMax : Nat := 8192
  port : Nat := 0
  addr : Nat := 0
  high : Nat := 0
  replies : List Reply := []
  warn : Bool := false
  info : Bool := false
  events : List QEvent := []
  waiting : List Event := []
  nextEvent : Nat := 1
  lost : Nat := 0
  lastMsg : Nat := 0
  /-- HALTER_PORT as the session opened (R587). -/
  udp : Nat := 47370
  quote : Option Doc := none
  nextQuote : Nat := 1
  report : Option Doc := none
  nextReport : Nat := 1
  deriving DecidableEq, Repr

/-- A Halter command still pending (R574): session, sequence number, code, mailbox, and its operands as numbers. -/
structure PendCmd where
  session : Nat
  seq : Nat
  code : Nat
  args : List Nat := []
  data : Bytes := []
  arrived : Nat := 0
  port : Nat := 0
  addr : Nat := 0
  /-- The requests of this device that a MEM_READ or MEM_WRITE awaits (R429, R448, R582). -/
  waits : List Nat := []
  /-- A MEM_READ or MEM_WRITE that the memory holds (R253, R400, R402, R404, R432). -/
  held : Bool := false
  deriving DecidableEq, Repr

/-- An owner-table entry (R617), and whether a release waits for its buffered data to drain (R612). -/
structure ResOwn where
  owner : Nat := 0
  session : Nat := 0
  grants : Nat := 0
  preempts : Nat := 0
  draining : Bool := false
  deriving DecidableEq, Repr

/-- An event-controller route (R607). -/
structure EvcRoute where
  target : Nat
  enable : Bool
  pending : Bool := false
  deriving DecidableEq, Repr

/-- A core of the IOD: 0 running, 1 asleep, 2 powered down (R608); its pending private sources; starts at its firmware
entry; the times of its watchdog's expiries (R745). -/
structure CoreSt where
  st : Nat := 0
  priv : List Nat := []
  starts : Nat := 0
  dogs : List Nat := []
  deriving DecidableEq, Repr

/-- The Halter interface, the event controller and the owner table. -/
structure Halter where
  sessions : List Session := []
  nextSession : Nat := 1
  job : Nat := 0
  /-- When the job state last changed. -/
  jobSince : Nat := 0
  mode : Nat := 0
  authFails : Nat := 0
  eventsLost : Nat := 0
  decisions : List Decision := []
  nextDecision : Nat := 1
  heldEvents : List Event := []
  cmds : List PendCmd := []
  pull : Bool := false
  port : Nat := 47370
  idleS : Nat := 60
  res : List ResOwn := []
  /-- Directions of GP0 to GP7 (bit i: an output) and the levels driven. -/
  gpOut : Nat := 0
  gpLevel : Nat := 0
  /-- Groom timers that run: 1 + the time at which each expires. -/
  timers : Tbl Nat := []
  evc : List EvcRoute := []
  cores : List CoreSt := []
  deriving DecidableEq, Repr

/-! ### The start (16) -/

/-- The stage of a start (R777). -/
inductive Stage where
  | off
  | waitSel
  | reading (slot : Nat) (second : Bool)
  | checked
  | ramped
  | trained
  | ready
  | noImage
  | boardTest
  deriving DecidableEq, Repr

/-- The states of the TAP controller (R839, IEEE 1149.1). -/
inductive Tap where
  | testLogicReset | runTestIdle
  | selectDr | captureDr | shiftDr | exit1Dr | pauseDr | exit2Dr | updateDr
  | selectIr | captureIr | shiftIr | exit1Ir | pauseIr | exit2Ir | updateIr
  deriving DecidableEq, Repr

/-- The JTAG port (R839): the TAP controller's state, and the boundary-scan cells, one for each VIO sideband pin in the order
of `scanLands`, whose values are not stated (log 104). -/
structure Jtag where
  tap : Tap := .testLogicReset
  cells : List Bool := List.replicate 19 false
  /-- The instruction register, whose length is not stated. -/
  ir : List Bool := []
  deriving DecidableEq, Repr

/-- An exchange in progress (R787, R793). -/
structure Exchange where
  num : Nat
  flags : Nat
  hello : Bytes
  offer : Bytes := []
  session : Nat := 0
  msgMax : Nat := 0
  ss : Bytes := []
  port : Nat := 0
  addr : Nat := 0
  offered : Option Nat := none
  deriving DecidableEq, Repr

/-- The start, its pins and its measurements. -/
structure Boot where
  stage : Stage := .waitSel
  bootSel : Nat := 0
  slot : Nat := 0
  fallback : Bool := false
  akReady : Bool := false
  svn : Nat := 0
  build : Nat := 0
  readyMs : Nat := 0
  repairs : Nat := 0
  rampAt : Nat := 0
  measure : List Bytes := List.replicate 8 (List.replicate 32 0)
  /-- The slots whose images failed in this start, and a trial that missed READY, with their causes (R772, R803). -/
  failCauses : List (Nat × Nat) := []
  vaux : Bool := true
  rstN : Bool := false
  pwrgd : Bool := false
  rails : Bool := false
  thermtrip : Bool := false
  alertN : Bool := true
  gp3 : Bool := true
  /-- Since when VIN has been below 1.60 V (R781). -/
  vinLossAt : Option Nat := none
  exchanges : List Exchange := []
  /-- The security block's queue (R786): exchange numbers and quotes waiting for a signature. -/
  signing : List (Nat × Nat) := []
  powerCycleAt : Option Nat := none
  /-- A cold start: MEASURE_0 is still to be extended (R777, R782). -/
  cold : Bool := true
  jtag : Jtag := {}
  deriving DecidableEq, Repr

end Sys2Proof.Machine
end

