-- ==== Sys2Proof/Config.lean ====
section
/-! DEFINITION. What one device fixes for good, and the free values: constants without a body, which stand for the
values that the spec leaves open. Nothing can be proved about a free value but what the function that uses it
imposes on it. -/

namespace Sys2Proof

/-- The ordering code of the device: false SH2-288, true SH2-216 (R1). DESIGN CHOICE, log 2. -/
def Config.sh2_216 : Bool := false

/-- A free value for each use: the argument is the State's counter of free values drawn so far (log 3). -/
opaque Config.free : Nat → Nat

/-- The choice among the representable values within 2 units in the last place of the exact one (R181, R235, R237, R285):
a number for the function and its operands' bits (log 4). -/
opaque Config.ulpPick : Nat → Nat → Nat → Nat

/-- The element bit of an outlier that a slot holds, in a record of width 1: readers ignore it, and the spec does not say
how it is written (R90, R102, log 52). The arguments are the block's FP32 codes and the element's index. -/
opaque Config.slotBit : List Nat → Nat → Bool

/-- Whether the bank of a row of channel m still has a spare row beside those that the rows listed take (R399), which the
spec gives no count of (log 97). -/
opaque Config.bankSpare : Nat → Nat → List Nat → Bool

/-- The partner, if any, whose buddy copy an HBM address of this device belongs to (R453), which the spec keeps in no
register or message of the holder (log 98). -/
opaque Config.buddyOf : BitVec 44 → Option (BitVec 18)

/-- The entropy source's draw for a lane's generator: seeding number, slot of the package (13 g + k), lane. The seed
is the draw plus 1, since a zero is replaced by another draw (R259, log 5). -/
opaque Config.seed : Nat → Nat → Nat → Fin 18446744073709551615

/-- The signature that the security block makes with the identity key, SLH-DSA-SHA2-192s, over a message (R786,
log 6). -/
opaque Config.idSign : List (BitVec 8) → List (BitVec 8)

/-- The signature made with the attestation key of the 48 seed bytes, SLH-DSA-SHA2-128f (R785, R794, log 6). -/
opaque Config.akSign : List (BitVec 8) → List (BitVec 8) → List (BitVec 8)

/-- The attestation public key of the 48 seed bytes (R785, log 6). -/
opaque Config.akPub : List (BitVec 8) → List (BitVec 8)

/-- ML-KEM-768 encapsulation to a key with fresh randomness: ciphertext and shared secret (R788, log 6). -/
opaque Config.encaps : List (BitVec 8) → Nat → List (BitVec 8) × List (BitVec 8)

/-- Whether an SLH-DSA-SHA2-192s signature verifies: public key, message, signature (R772, log 6). -/
opaque Config.slhVerify : List (BitVec 8) → List (BitVec 8) → List (BitVec 8) → Bool

/-- The vendor key hash in fuses (R772), 32 bytes. -/
opaque Config.vendorKeyHash : List (BitVec 8)

/-- The serial number, 16 bytes (R784), the identity public key, 48 bytes, and its certificate (R784). -/
opaque Config.serial : List (BitVec 8)

/-- The identity public key, 48 bytes (R784). -/
opaque Config.idPub : List (BitVec 8)

/-- The identity certificate, 16,224 bytes (R784, R788). -/
opaque Config.idCert : List (BitVec 8)

/-- The device secret fused at test (R785). -/
opaque Config.deviceSecret : List (BitVec 8)

/-- SHA-256 of Groom's mask ROM (R782). -/
opaque Config.romDigest : List (BitVec 8)

/-- The code with which MEASURE_0 to MEASURE_3 are extended, which the spec does not state (R782, log 40). -/
opaque Config.bootCode : Nat → Nat

/-- Bytes that a port's receive buffer holds for a lossless class beside its 192 KiB of headroom (R552), which the spec does
not state (log 75). -/
opaque Config.rxRoom : Nat

/-- The base of the 18 fused MAC addresses, 48 bits whose lowest five are 0 (R533). -/
opaque Config.macBase : BitVec 43

/-- The fused table: VLOGIC of a region at a P-state in 2.5 mV, which each part has its own values of (R624, R663). Nothing
constrains them (log 7). -/
opaque Config.fusedVlogic : Nat → Nat → BitVec 9

/-- VTABLE_g (R663): the six P-states of the table; one beyond reads as P5. -/
def Config.vtable (region pstate : Nat) : Nat := (Config.fusedVlogic region (min 5 pstate)).toNat

/-- The core clock of a P-state in MHz (R624). -/
def Config.coreMHz (pstate : Nat) : Nat :=
  match pstate with
  | 0 => 940 | 1 => 800 | 2 => 640 | 3 => 480 | 4 => 320 | _ => 160

end Sys2Proof
end

