-- ==== Sys2Proof/Machine/Fp.lean ====
section
/-! DEFINITION. Floating-point values and their rounding (R73 to R80), and the transcendental functions that the
spec states to within 2 units in the last place (R181, R235, R237, R285). -/

namespace Sys2Proof.Machine

/-- A value: NaN, a signed infinity, or the exact dyadic (-1)^neg * m * 2^e. A zero keeps its sign. -/
inductive Num where
  | nan
  | inf (neg : Bool)
  | fin (neg : Bool) (m : Nat) (e : Int)
  deriving DecidableEq, Repr

/-- How a conversion rounds (R78): to nearest even, or stochastically with the lane's 16-bit draw. -/
inductive Rnd where
  | rne
  | sto (u : Nat)
  deriving DecidableEq, Repr

/-- The result of a conversion: the magnitude's code, whether it overflowed, and its sign. -/
structure FpRes where
  code : Nat
  ovf : Bool
  deriving DecidableEq, Repr

/-- `num / den` rounded to an integer (R79, R80): `u` the draw of stochastic rounding. -/
def rndDiv (r : Rnd) (num den : Nat) : Nat :=
  let q := num / den
  let rem := num % den
  match r with
  | .rne => if den < 2 * rem then q + 1 else if 2 * rem = den then q + q % 2 else q
  | .sto u => if u < rem * 65536 / den then q + 1 else q

/-- The largest l with 2^l at most num / den, for num and den above 0. -/
def floorLog2 (num den : Nat) : Int :=
  let a : Int := Nat.log2 num
  let b : Int := Nat.log2 den
  let l := a - b
  if 0 ≤ l then (if den <<< l.toNat ≤ num then l else l - 1)
  else (if den ≤ num <<< (-l).toNat then l else l - 1)

/-- The magnitude code of num / den * 2^e in a format of `eb` exponent and `mb` fraction bits, subnormals kept (R73),
without a largest exponent. `num` is above 0. -/
def magCode (eb mb : Nat) (r : Rnd) (num den : Nat) (e : Int) : Nat :=
  let bias : Int := 2 ^ (eb - 1) - 1
  let emin : Int := 1 - bias - mb
  let u : Int := max (floorLog2 num den + e - mb) emin
  let sh := e - u
  let q := if 0 ≤ sh then rndDiv r (num <<< sh.toNat) den else rndDiv r num (den <<< (-sh).toNat)
  if q < 2 ^ mb then q else ((u - emin).toNat + 1) * 2 ^ mb + (q - 2 ^ mb)

/-- The magnitude code, with overflow to the format's infinity. -/
def roundMag (eb mb : Nat) (r : Rnd) (num den : Nat) (e : Int) : FpRes :=
  let code := magCode eb mb r num den e
  let infCode := (2 ^ eb - 1) * 2 ^ mb
  if infCode ≤ code then ⟨infCode, true⟩ else ⟨code, false⟩

/-- The value of a code of a format with `eb` exponent and `mb` fraction bits (R73). -/
def decodeFp (eb mb : Nat) (x : Nat) : Num :=
  let neg := bit x (eb + mb)
  let ex := bits x (eb + mb - 1) mb
  let fr := x % 2 ^ mb
  let bias : Int := 2 ^ (eb - 1) - 1
  if ex = 2 ^ eb - 1 then (if fr = 0 then .inf neg else .nan)
  else if ex = 0 then .fin neg fr (1 - bias - mb)
  else .fin neg (2 ^ mb + fr) ((ex : Int) - bias - mb)

/-- The canonical NaN of a format (R74). -/
def canonNan (eb mb : Nat) : Nat := (2 ^ eb - 1) * 2 ^ mb + 2 ^ (mb - 1)

/-- The code of a value, overflow going to infinity, or to the largest finite value under SATFP (R76). -/
def encodeFp (eb mb : Nat) (r : Rnd) (satfp : Bool) (v : Num) : FpRes :=
  let sb (neg : Bool) := b2n neg * 2 ^ (eb + mb)
  match v with
  | .nan => ⟨canonNan eb mb, false⟩
  | .inf neg => ⟨sb neg + (2 ^ eb - 1) * 2 ^ mb, false⟩
  | .fin neg 0 _ => ⟨sb neg, false⟩
  | .fin neg m e =>
    let c := roundMag eb mb r m 1 e
    if c.ovf && satfp then ⟨sb neg + c.code - 1, true⟩ else ⟨sb neg + c.code, c.ovf⟩

/-- FP32 bits as a value. -/
def f32 (x : Nat) : Num := decodeFp 8 23 x
/-- A value rounded to FP32 with RNE. -/
def toF32 (v : Num) : Nat := (encodeFp 8 23 .rne false v).code
/-- BF16 bits as a value (R73). -/
def bf16 (x : Nat) : Num := decodeFp 8 7 x
/-- FP16 bits as a value. -/
def fp16 (x : Nat) : Num := decodeFp 5 10 x

/-- The canonical FP32 NaN (R74). -/
def nan32 : Nat := 0x7FC00000

def Num.isNan : Num → Bool | .nan => true | _ => false
def Num.isInf : Num → Bool | .inf _ => true | _ => false
def Num.isZero : Num → Bool | .fin _ 0 _ => true | _ => false
def Num.isFin : Num → Bool | .fin _ _ _ => true | _ => false
def Num.neg : Num → Num | .nan => .nan | .inf s => .inf (!s) | .fin s m e => .fin (!s) m e
def Num.abs : Num → Num | .nan => .nan | .inf _ => .inf false | .fin _ m e => .fin false m e
def Num.sign : Num → Bool | .nan => false | .inf s => s | .fin s _ _ => s

/-- The signed mantissa of a finite value at exponent `e0`, at most its own. -/
def Num.scaled (v : Num) (e0 : Int) : Int :=
  match v with
  | .fin s m e => let k : Int := (m <<< (e - e0).toNat : Nat); if s then -k else k
  | _ => 0

/-- The exponent of a finite value. -/
def Num.exp : Num → Int | .fin _ _ e => e | _ => 0

/-- The exact sum of two values, with IEEE 754 signs of zero under RNE (R163). -/
def Num.add (a b : Num) : Num :=
  match a, b with
  | .nan, _ => .nan
  | _, .nan => .nan
  | .inf s, .inf t => if s = t then .inf s else .nan
  | .inf s, _ => .inf s
  | _, .inf t => .inf t
  | .fin s m e, .fin t n f =>
    let e0 := min e f
    let x := (Num.fin s m e).scaled e0 + (Num.fin t n f).scaled e0
    if x = 0 then .fin (s && t) 0 e0 else .fin (decide (x < 0)) x.natAbs e0

/-- The exact product of two values; infinity times zero is NaN (R164). -/
def Num.mul (a b : Num) : Num :=
  match a, b with
  | .nan, _ => .nan
  | _, .nan => .nan
  | .inf s, .inf t => .inf (s != t)
  | .inf s, .fin t n _ => if n = 0 then .nan else .inf (s != t)
  | .fin s m _, .inf t => if m = 0 then .nan else .inf (s != t)
  | .fin s m e, .fin t n f => .fin (s != t) (m * n) (e + f)

/-- Whether `a` is below `b`, for values that are not NaN; zeros are equal. -/
def Num.lt (a b : Num) : Bool :=
  match a, b with
  | .nan, _ => false
  | _, .nan => false
  | .inf s, .inf t => s && !t
  | .inf s, .fin _ _ _ => s
  | .fin _ _ _, .inf t => !t
  | .fin s m e, .fin t n f => let e0 := min e f; decide ((Num.fin s m e).scaled e0 < (Num.fin t n f).scaled e0)

/-- Equality of values that are not NaN; zeros are equal. -/
def Num.eqv (a b : Num) : Bool := !a.isNan && !b.isNan && !a.lt b && !b.lt a

/-- FP32 addition, one rounding (R273). -/
def f32add (a b : Nat) : Nat := toF32 ((f32 a).add (f32 b))
/-- FP32 multiplication, one rounding (R273). -/
def f32mul (a b : Nat) : Nat := toF32 ((f32 a).mul (f32 b))
/-- FP32 negation. -/
def f32neg (a : Nat) : Nat := toF32 (f32 a).neg
/-- FP32 fused multiply-add, one rounding (R273). -/
def f32fma (a b c : Nat) : Nat := toF32 (((f32 a).mul (f32 b)).add (f32 c))

/-- The quotient of two FP32 values with one RNE rounding, as y = x / T of R98. -/
def numDiv (a b : Num) : Nat :=
  match a, b with
  | .nan, _ => nan32
  | _, .nan => nan32
  | .inf s, .inf _ => if s then nan32 else nan32
  | .inf s, b => b2n (s != b.sign) * 2 ^ 31 + 0x7F800000
  | .fin s _ _, .inf t => b2n (s != t) * 2 ^ 31
  | .fin s m e, .fin t n f =>
    if n = 0 then (if m = 0 then nan32 else b2n (s != t) * 2 ^ 31 + 0x7F800000)
    else if m = 0 then b2n (s != t) * 2 ^ 31
    else b2n (s != t) * 2 ^ 31 + (roundMag 8 23 .rne m n (e - f)).code

/-! ### Functions within 2 units in the last place

The exact value comes from integer arithmetic with `fxBits` fraction bits; `Config.ulpPick` then chooses one of the FP32
values that lie within 2 units in the last place of it. -/

/-- Fraction bits of the fixed-point evaluation. -/
def fxBits : Nat := 448

/-- One in fixed point. -/
def fxOne : Int := (2 ^ fxBits : Nat)

/-- The fixed-point value of a finite number, rounded toward minus infinity. -/
def toFx (v : Num) : Int :=
  match v with
  | .fin s m e =>
    let k : Int := if 0 ≤ e + fxBits then (m <<< (e + fxBits).toNat : Nat) else (m >>> (-(e + fxBits)).toNat : Nat)
    if s then -k else k
  | _ => 0

/-- Fixed-point product. -/
def fxMul (a b : Int) : Int := (a * b) / fxOne
/-- Fixed-point quotient, 0 for a divisor of 0. -/
def fxDiv (a b : Int) : Int := (a * fxOne) / b

/-- The Taylor sum of e^r from term `n` on: `t` is the term reached. -/
def fxExpSum (r : Int) : Nat → Nat → Int → Int
  | 0, _, _ => 0
  | fuel + 1, n, t => t + fxExpSum r fuel (n + 1) (fxMul t r / (n + 1 : Nat))

/-- The odd powers z^n / n from `n` on: `t` is z^n. -/
def fxAtanhSum (z2 : Int) : Nat → Nat → Int → Int
  | 0, _, _ => 0
  | fuel + 1, n, t => t / (n : Int) + fxAtanhSum z2 fuel (n + 2) (fxMul t z2)

/-- ln 2 in fixed point, as 2 atanh(1/3). -/
def fxLn2 : Int := 2 * fxAtanhSum (fxOne / 9) 150 1 (fxOne / 3)

/-- e^x as a mantissa in [0.5, 2) or so and a power of two: x in fixed point. -/
def fxExp (x : Int) : Int × Int :=
  let k := (2 * x + fxLn2) / (2 * fxLn2)
  (fxExpSum (x - k * fxLn2) 100 0 fxOne, k)

/-- ln of m * 2^e, m above 0. -/
def fxLn (m : Nat) (e : Int) : Int :=
  let l := Nat.log2 m
  let a : Int := (m <<< fxBits : Nat) / (2 ^ l : Nat)
  let z := fxDiv (a - fxOne) (a + fxOne)
  2 * fxAtanhSum (fxMul z z) 280 1 z + (e + l) * fxLn2

/-- The pair of numerator and denominator of the sigmoid 1 / (1 + e^(-x)). -/
def fxSigmoid (x : Int) : Int :=
  let p := fxExp (-(if x < 0 then -x else x))
  let t := p.1 / (2 ^ (-p.2).toNat : Nat)
  if x < 0 then fxDiv t (fxOne + t) else fxDiv fxOne (fxOne + t)

/-- The largest FP32 magnitude code whose value is at most n / d * 2^e. -/
def codeBelow (n d : Nat) (e : Int) : Nat := if n = 0 then 0 else magCode 8 23 (.sto 65535) n d e

/-- The smallest FP32 magnitude code whose value is at least n / d * 2^e. -/
def codeAbove (n d : Nat) (e : Int) : Nat :=
  let c := codeBelow n d e
  match f32 c with
  | .fin _ m k => if (Num.fin false (m * d) k).eqv (.fin false n e) then c else c + 1
  | _ => c

/-- The magnitude code of a value within 2 units in the last place of num / den * 2^e, num and den above 0, chosen by the free
value among all of its sign or zero. Infinity is among them only where the value rounds to it, and is the only one where
no finite value is near enough (R181, R235, R237, R285; log 4). -/
def nearUlp (fn x y num den : Nat) (e : Int) : Nat :=
  let ue := max (floorLog2 num den + e - 23) (-149)
  let sh := e - ue
  let n := if 0 ≤ sh then num <<< sh.toNat else num
  let d := if 0 ≤ sh then den else den <<< (-sh).toNat
  let hi := if (roundMag 8 23 .rne num den e).ovf then 0x7F800000 else min 0x7F7FFFFF (codeBelow (n + 2 * d) d ue)
  let lo := min hi (codeAbove (n - 2 * d) d ue)
  lo + Config.ulpPick fn x y % (hi - lo + 1)

/-- The same for a fixed-point value above 0 times 2^k. -/
def nearFx (fn x y : Nat) (a : Int) (k : Int) : Nat := nearUlp fn x y a.toNat 1 (k - fxBits)

/-- The same for a value above 0 that is nearer to 0 than any FP32 value but 0. -/
def nearTiny (fn x y : Nat) : Nat := nearUlp fn x y 1 1 (-1000)

/-- The same for a value just below m * 2^e, or just above it. -/
def nearBelow (fn x y m : Nat) (e : Int) : Nat := nearUlp fn x y (m * (2 ^ 400 - 1)) 1 (e - 400)
/-- The same for a value just above m * 2^e. -/
def nearAbove (fn x y m : Nat) (e : Int) : Nat := nearUlp fn x y (m * (2 ^ 400 + 1)) 1 (e - 400)

/-- The functions of R285, R180 and R234 by their numbers in `Config.ulpPick`. -/
def fnRcp : Nat := 9
def fnRsqrt : Nat := 10
def fnSqrt : Nat := 11
def fnExp : Nat := 12
def fnLog : Nat := 13
def fnTanh : Nat := 14
def fnSigm : Nat := 15
def fnGelu : Nat := 0x102
def fnSilu : Nat := 0x103
def fnGeluD : Nat := 0x111
def fnSiluD : Nat := 0x112

/-- 1 / a (R285). The reciprocal of a zero is the infinity of its sign, of an infinity the zero of its sign. -/
def f32rcp (a : Nat) : Nat :=
  match f32 a with
  | .nan => nan32
  | .inf s => b2n s * 2 ^ 31
  | .fin s 0 _ => b2n s * 2 ^ 31 + 0x7F800000
  | .fin s m e => b2n s * 2 ^ 31 + nearUlp fnRcp a 0 1 m (-e)

/-- The square root of m * 2^e with 128 bits beyond the integer root, as mantissa and exponent. -/
def sqrtParts (m : Nat) (e : Int) : Nat × Int :=
  let m2 := if e % 2 = 0 then m else 2 * m
  let e2 := if e % 2 = 0 then e else e - 1
  let r := Nat.sqrt (m2 <<< 256)
  (if r * r = m2 <<< 256 then 2 * r else 2 * r + 1, e2 / 2 - 129)

/-- The square root (R285); of a negative value, NaN; of a zero, the zero. -/
def f32sqrt (a : Nat) : Nat :=
  match f32 a with
  | .nan => nan32
  | .inf s => if s then nan32 else 0x7F800000
  | .fin s 0 _ => b2n s * 2 ^ 31
  | .fin s m e =>
    if s then nan32 else let p := sqrtParts m e; nearUlp fnSqrt a 0 p.1 1 p.2

/-- 1 / the square root (R285). -/
def f32rsqrt (a : Nat) : Nat :=
  match f32 a with
  | .nan => nan32
  | .inf s => if s then nan32 else 0
  | .fin s 0 _ => b2n s * 2 ^ 31 + 0x7F800000
  | .fin s m e =>
    if s then nan32 else let p := sqrtParts m e; nearUlp fnRsqrt a 0 1 p.1 (-p.2)

/-- Whether the magnitude of a finite value is above 256, where e^x leaves FP32 for good. -/
def Num.huge : Num → Bool
  | .fin _ m e => decide (0 < m) && decide (8 ≤ (Nat.log2 m : Int) + e)
  | _ => false

/-- e^a (R285). -/
def f32exp (a : Nat) : Nat :=
  match f32 a with
  | .nan => nan32
  | .inf s => if s then 0 else 0x7F800000
  | .fin _ 0 _ => 0x3F800000
  | v => if v.huge then (if v.sign then nearTiny fnExp a 0 else 0x7F800000)
    else let p := fxExp (toFx v); nearFx fnExp a 0 p.1 p.2

/-- ln a (R285); of a zero, minus infinity; of a negative value, NaN. -/
def f32log (a : Nat) : Nat :=
  match f32 a with
  | .nan => nan32
  | .inf s => if s then nan32 else 0x7F800000
  | .fin _ 0 _ => 0xFF800000
  | .fin s m e =>
    if s then nan32
    else
      let l := fxLn m e
      if l = 0 then 0
      else b2n (decide (l < 0)) * 2 ^ 31 + nearFx fnLog a 0 l.natAbs 0

/-- 1 / (1 + e^(-a)) (R285). -/
def f32sigm (a : Nat) : Nat :=
  match f32 a with
  | .nan => nan32
  | .inf s => if s then 0 else 0x3F800000
  | v => if v.huge then (if v.sign then nearTiny fnSigm a 0 else nearBelow fnSigm a 0 1 0)
    else nearFx fnSigm a 0 (fxSigmoid (toFx v)) 0

/-- tanh a (R285), as 2 sigmoid(2a) - 1. -/
def f32tanh (a : Nat) : Nat :=
  match f32 a with
  | .nan => nan32
  | .inf s => b2n s * 2 ^ 31 + 0x3F800000
  | .fin s 0 _ => b2n s * 2 ^ 31
  | v => b2n v.sign * 2 ^ 31 +
    (if v.huge then nearBelow fnTanh a 0 1 0 else nearFx fnTanh a 0 (2 * fxSigmoid (2 * toFx v.abs) - fxOne) 0)

/-- 0.7978846 and 0.044715 in fixed point (R180). -/
def fxK : Int := 7978846 * fxOne / 10000000
def fxC : Int := 44715 * fxOne / 1000000

/-- A fixed-point value, not 0, times the signed magnitude m * 2^e: a zero stays a zero. -/
def fxTimes (fn x y : Nat) (neg : Bool) (m : Nat) (e : Int) (f : Int) : Nat :=
  let neg' := neg != decide (f < 0)
  b2n neg' * 2 ^ 31 + (if m = 0 then 0 else nearUlp fn x y (m * f.natAbs) 1 (e - fxBits))

/-- GELU, tanh form (R180, R181): v * sigmoid(2 k (v + 0.044715 v^3)). -/
def f32gelu (a : Nat) : Nat :=
  match f32 a with
  | .nan => nan32
  | .inf s => if s then 0x80000000 else 0x7F800000
  | .fin s 0 _ => b2n s * 2 ^ 31
  | .fin s m e =>
    let v := Num.fin s m e
    if v.huge then (if s then 0x80000000 + nearTiny fnGelu a 0 else nearBelow fnGelu a 0 m e)
    else
      let x := toFx v
      fxTimes fnGelu a 0 s m e (max 1 (min (fxOne - 1) (fxSigmoid (2 * fxMul fxK (x + fxMul fxC (fxMul x (fxMul x x)))))))

/-- SiLU (R180, R181): v * sigmoid(v). -/
def f32silu (a : Nat) : Nat :=
  match f32 a with
  | .nan => nan32
  | .inf s => if s then 0x80000000 else 0x7F800000
  | .fin s 0 _ => b2n s * 2 ^ 31
  | .fin s m e =>
    let v := Num.fin s m e
    if v.huge then (if s then 0x80000000 + nearTiny fnSilu a 0 else nearBelow fnSilu a 0 m e)
    else fxTimes fnSilu a 0 s m e (fxSigmoid (toFx v))

/-- v times the limit of a derivative factor at an infinite argument (R235). -/
def derivLimit (v : Nat) (negInf : Bool) : Nat :=
  match f32 v with
  | .nan => nan32
  | .inf s => if negInf then nan32 else b2n s * 2 ^ 31 + 0x7F800000
  | .fin s _ _ => if negInf then b2n s * 2 ^ 31 else v

/-- v times a derivative factor in fixed point. A factor that is 0 there is below 0 and nearer to it than fixed point tells
(GELU' below about -16). -/
def derivTimes (fn v a : Nat) (f : Int) : Nat :=
  let f := if f = 0 then -1 else f
  match f32 v with
  | .nan => nan32
  | .inf s => b2n (s != decide (f < 0)) * 2 ^ 31 + 0x7F800000
  | .fin s m e => fxTimes fn v a s m e f

/-- v times a derivative factor at a finite argument beyond 256 in magnitude: just above 1 above, and below just under 0. -/
def derivFar (fn v a : Nat) (neg : Bool) : Nat :=
  match f32 v with
  | .fin s m e =>
    if neg then derivTimes fn v a (-1) else b2n s * 2 ^ 31 + (if m = 0 then 0 else nearAbove fn v a m e)
  | _ => derivTimes fn v a (if neg then -1 else 1)

/-- GELU' of R234: s + 2 a s (1 - s) k (1 + 0.134145 a^2), with s = sigmoid(2 k (a + 0.044715 a^3)). -/
def f32geluD (v a : Nat) : Nat :=
  if (f32 v).isNan || (f32 a).isNan then nan32
  else match f32 a with
  | .inf s => derivLimit v s
  | w =>
    if w.huge then derivFar fnGeluD v a w.sign
    else
      let x := toFx w
      let s := fxSigmoid (2 * fxMul fxK (x + fxMul fxC (fxMul x (fxMul x x))))
      let g := fxMul fxK (fxOne + fxMul (134145 * fxOne / 1000000) (fxMul x x))
      let f := s + 2 * fxMul (fxMul x g) (fxMul s (fxOne - s))
      derivTimes fnGeluD v a (if f = fxOne then fxOne + 1 else f)

/-- SiLU' of R234: s (1 + a (1 - s)). -/
def f32siluD (v a : Nat) : Nat :=
  if (f32 v).isNan || (f32 a).isNan then nan32
  else match f32 a with
  | .inf s => derivLimit v s
  | w =>
    if w.huge then derivFar fnSiluD v a w.sign
    else
      let x := toFx w
      let s := fxSigmoid x
      derivTimes fnSiluD v a (fxMul s (fxOne + fxMul x (fxOne - s)))

/-- VMAX and VMIN of R283 in one format: the canonical NaN if either is NaN, and -0 below +0. -/
def numMax (a b : Num) (ca cb : Nat) (nan : Nat) : Nat :=
  if a.isNan || b.isNan then nan
  else if a.lt b then cb else if b.lt a then ca else if a.sign then cb else ca

/-- VMIN of R283. -/
def numMin (a b : Num) (ca cb : Nat) (nan : Nat) : Nat :=
  if a.isNan || b.isNan then nan
  else if a.lt b then ca else if b.lt a then cb else if a.sign then ca else cb

end Sys2Proof.Machine
end

