-- ==== Sys2Proof/Machine/Formats.lean ====
section
/-! DEFINITION. The number formats of "Number Formats from One Bit to FP32": the format descriptor (R95, R96), the
decoding of SB and MX blocks (R83 to R93, R115 to R118) and their encoding with its counters (R98 to R123). -/

namespace Sys2Proof.Machine

/-- A format descriptor (R95). -/
structure Desc where
  format : Nat := 1
  width : Nat := 0
  slots : Nat := 0
  widen : Bool := false
  delayed : Bool := false
  sto : Bool := false
  satfp : Bool := false
  stats : Bool := false
  tscaleEn : Bool := false
  qexp : Nat := 0
  cset : Nat := 0
  tscale : Nat := 0
  scaleAddr : Nat := 0
  widenAddr : Nat := 0
  statsAddr : Nat := 0
  widenCap : Nat := 0
  rsv : Nat := 0
  deriving DecidableEq, Repr

/-- The descriptor in 48 bytes (R95). -/
def Desc.parse (b : Bytes) : Desc :=
  let x := fromBytes b
  { format := bits x 7 0, width := bits x 11 8, slots := bits x 13 12, widen := bit x 14, delayed := bit x 15
    sto := bit x 16, satfp := bit x 17, stats := bit x 18, tscaleEn := bit x 19, qexp := bits x 23 20
    cset := bits x 31 24, tscale := bits x 63 32, scaleAddr := bits x 127 64, widenAddr := bits x 191 128
    statsAddr := bits x 255 192, widenCap := bits x 287 256, rsv := bits x 383 288 }

/-- The format codes of R70. -/
def formatCodes : List Nat := [1, 2, 3, 0x10, 0x11, 0x12, 0x13, 0x14, 0x15, 0x20, 0x30, 0x31]

/-- Whether an address is of scope 0b00 and 64-byte aligned, as a widening area must be (R93, R96). -/
def widenAddrOk (a : Nat) : Bool := a / 2 ^ 62 == 0 && aligned a 64

/-- Whether a descriptor passes R96. -/
def Desc.ok (d : Desc) : Bool :=
  formatCodes.contains d.format
  && !(d.format == 0x20 && (d.width == 0 || 8 < d.width))
  && !(d.format != 0x20 && (d.width != 0 || d.slots != 0 || d.widen || d.tscaleEn))
  && !(d.tscaleEn && (!(f32 d.tscale).isFin || (f32 d.tscale).isZero))
  && !(d.widen && !widenAddrOk d.widenAddr)
  && d.rsv == 0

/-- Whether a format is a block format with 32-element records (R70). -/
def Desc.block (d : Desc) : Bool := d.format == 0x20 || (0x10 ≤ d.format && d.format ≤ 0x15)

/-- The number of Prism slots that a SLOTS code means (R88). -/
def slotCount (c : Nat) : Nat := match c with | 0 => 0 | 1 => 1 | 2 => 2 | _ => 4

/-- The element width of an MX format (R70). -/
def mxWidth (f : Nat) : Nat := match f with | 0x12 => 6 | 0x13 => 6 | 0x14 => 4 | _ => 8

/-- The bytes of an SB record of width `w` with the slots of code `sl` (R86). -/
def sbSize (w sl : Nat) : Nat := 2 + 4 * w + slotCount sl * (if w = 1 then 3 else 2)

/-- The bytes of a block record (R86, R117), or of one element of an unblocked format. -/
def Desc.recSize (d : Desc) : Nat :=
  if d.format = 0x20 then sbSize d.width d.slots
  else if d.block then 1 + 4 * mxWidth d.format
  else if d.format = 1 then 4 else 2

/-- The matrix rate of a format, four times its value: 32, 16, 8, 4 or 1 (R70, R134). -/
def Desc.rate4 (d : Desc) : Nat :=
  match d.format with
  | 0x14 => 8
  | 0x20 => match d.width with | 1 => 32 | 2 => 16 | 3 => 8 | 4 => 8 | _ => 4
  | 2 => 1
  | 3 => 1
  | _ => 4

/-- 32 decoded values of a block, whether it was malformed (R93), and the width at which it was stored. -/
structure Block where
  vals : List Num
  malformed : Bool := false
  width : Nat
  /-- A zero block, whose elements gate their products (R141). -/
  zero : Bool := false
  deriving DecidableEq, Repr

/-- The block whose every element is one value. -/
def Block.const (v : Num) (w : Nat) (bad : Bool := false) (zero : Bool := false) : Block :=
  ⟨List.replicate 32 v, bad, w, zero⟩

/-- Element `i` of an element array of width `w` (R87). -/
def elemCode (arr : Nat) (w i : Nat) : Nat := bits arr (w * i + w - 1) (w * i)

/-- The exact value T * s * v rounded once to FP32 (R85). -/
def scaled (t : Num) (code : Nat) (v : Num) : Num :=
  f32 (toF32 ((t.mul (.fin false 1 ((code : Int) - 127))).mul v))

/-- The tensor scale T of a descriptor (R85). -/
def Desc.t (d : Desc) : Num := if d.tscaleEn then f32 d.tscale else .fin false 1 0

/-- The elements of an SB record of width above 1: codes with their slot numbers (R83, R89). -/
def sbElems (t : Num) (code w : Nat) (slots : List Nat) : List Nat → Nat → List Num
  | [], _ => []
  | c :: cs, j =>
    if c = 2 ^ (w - 1) then scaled t code (bf16 (nth slots j 0)) :: sbElems t code w slots cs (j + 1)
    else scaled t code (.fin (bit c (w - 1)) (c % 2 ^ (w - 1)) 0) :: sbElems t code w slots cs j

/-- The content of an SB record, its header already checked: width `w`, slots code `sl` (R85 to R92). -/
def sbContent (t : Num) (main : Bytes) (w sl : Nat) : Block :=
  let code := field main 0 1
  let arr := field main 2 (4 * w)
  let p := slotCount sl
  let cs := (List.range 32).map (elemCode arr w)
  if w = 1 then
    let sl := (List.range p).map fun j => field main (6 + 3 * j) 3
    let valid := sl.filter fun x => bit x 7
    let idx := valid.map fun x => bits x 4 0
    if idx.eraseDups.length ≠ idx.length then .const .nan w true
    else
      ⟨(List.range 32).map fun i =>
        match valid.find? (fun x => bits x 4 0 == i) with
        | some x => scaled t code (bf16 (bits x 23 8))
        | none => scaled t code (.fin (nth cs i 0 == 1) 1 0), false, w, false⟩
  else
    let slots := (List.range p).map fun j => field main (2 + 4 * w + 2 * j) 2
    if p < (cs.filter (· == 2 ^ (w - 1))).length then .const .nan w true
    else ⟨sbElems t code w slots cs 0, false, w, false⟩

/-- The widths that a descriptor's WIDTH reaches by widening (R93, R105). -/
def widthsReached (w : Nat) : List Nat := match w with | 4 => [6, 8] | 6 => [8] | _ => []

/-- Decodes an SB record through a descriptor; `wide` gives a widening-area record by its index (R84 to R93, R107).
The scale codes 0xFE and 0xFF are read before the header, since zero and NaN blocks are written with a header of 0
(R98, R113; DEDUCED, log 9). In a widened block the widening record's scale byte counts (DESIGN CHOICE, log 90). -/
def decodeSb (d : Desc) (main : Bytes) (wide : Nat → Bytes) : Block :=
  let code := field main 0 1
  if code = 0xFE then .const (.fin false 0 0) d.width false true
  else if code = 0xFF then .const .nan d.width
  else
    let h := field main 1 1
    let bad := Block.const .nan d.width true
    if bit h 7 || bits h 5 4 ≠ d.slots then bad
    else if !bit h 6 then (if bits h 3 0 ≠ d.width then bad else sbContent d.t main d.width d.slots)
    else
      let i := field main 2 4
      if d.widenCap ≤ i || !widenAddrOk d.widenAddr then bad
      else
        let r := wide i
        let wh := field r 1 1
        let w := bits wh 3 0
        if bit wh 7 || bit wh 6 || bits wh 5 4 ≠ d.slots || w ≠ bits h 3 0 || !(widthsReached d.width).contains w
        then bad
        else if field r 0 1 = 0xFE then .const (.fin false 0 0) w false true
        else if field r 0 1 = 0xFF then .const .nan w
        else sbContent d.t r w d.slots

/-- The value of an MX element code (R116). -/
def mxElem (f c : Nat) : Num :=
  match f with
  | 0x10 => if c % 128 = 127 then .nan
    else let ex := bits c 6 3
      if ex = 0 then .fin (bit c 7) (c % 8) (-9) else .fin (bit c 7) (8 + c % 8) ((ex : Int) - 10)
  | 0x11 => decodeFp 5 2 c
  | 0x12 => let ex := bits c 4 2
      if ex = 0 then .fin (bit c 5) (c % 4) (-4) else .fin (bit c 5) (4 + c % 4) ((ex : Int) - 5)
  | 0x13 => let ex := bits c 4 3
      if ex = 0 then .fin (bit c 5) (c % 8) (-3) else .fin (bit c 5) (8 + c % 8) ((ex : Int) - 4)
  | 0x14 => let ex := bits c 2 1
      if ex = 0 then .fin (bit c 3) (c % 2) (-1) else .fin (bit c 3) (2 + c % 2) ((ex : Int) - 2)
  | _ => .fin (bit c 7) (signed 8 c).natAbs (-6)

/-- Decodes an MX record (R118). -/
def decodeMx (d : Desc) (main : Bytes) : Block :=
  let w := mxWidth d.format
  let code := field main 0 1
  if code = 0xFF then .const .nan w
  else
    let arr := field main 1 (4 * w)
    ⟨(List.range 32).map fun i =>
      (mxElem d.format (elemCode arr w i)).mul (.fin false 1 ((code : Int) - 127)), false, w, false⟩

/-- Decodes a block record of either kind. -/
def decodeBlock (d : Desc) (main : Bytes) (wide : Nat → Bytes) : Block :=
  if d.format = 0x20 then decodeSb d main wide else decodeMx d main

/-- Decodes one element of FP32, BF16 or FP16 (R73). -/
def decodeElem (format x : Nat) : Num := match format with | 1 => f32 x | 2 => bf16 x | _ => fp16 x

/-! ### Encoding -/

/-- What encoding adds to a counter set (R124) and to the statistics (R130). -/
structure EncCounts where
  zeroBlocks : Nat := 0
  zeroed : Nat := 0
  sat : Nat := 0
  satBlocks : Nat := 0
  widen46 : Nat := 0
  widen68 : Nat := 0
  widenFull : Nat := 0
  nanBlocks : Nat := 0
  malformed : Nat := 0
  blocks : Nat := 0
  widenTaken : Nat := 0
  deriving DecidableEq, Repr

/-- Adds two sets of counts. -/
def EncCounts.add (a b : EncCounts) : EncCounts :=
  ⟨a.zeroBlocks + b.zeroBlocks, a.zeroed + b.zeroed, a.sat + b.sat, a.satBlocks + b.satBlocks, a.widen46 + b.widen46,
   a.widen68 + b.widen68, a.widenFull + b.widenFull, a.nanBlocks + b.nanBlocks, a.malformed + b.malformed,
   a.blocks + b.blocks, a.widenTaken + b.widenTaken⟩

/-- An encoded block: the record's bytes, a widening-area record if it widened, its counts and statistics entry. -/
structure Enc where
  main : Bytes
  wide : Option Bytes := none
  cnt : EncCounts := {}
  stat : Nat := 0
  deriving DecidableEq, Repr

/-- The statistics entry of a block (R130). -/
def statEntry (zeroed sat widen : Nat) (zero nan : Bool) : Nat :=
  min zeroed 63 + 64 * min sat 63 + 4096 * widen + 16384 * b2n zero + 32768 * b2n nan

/-- A record of one scale code with every other byte 0 (R98, R113). -/
def plainRec (code size : Nat) : Bytes := BitVec.ofNat 8 code :: List.replicate (size - 1) 0

/-- The draw that rounds element `j`: `us` holds one 16-bit value per element. -/
def rndOf (sto : Bool) (us : List Nat) (j : Nat) : Rnd := if sto then .sto (nth us j 0) else .rne

/-- The magnitude of an FP32 value divided by 2^e, rounded to an integer. -/
def quantMag (r : Rnd) (v : Num) (e : Int) : Nat :=
  match v with
  | .fin _ m k =>
    if 0 ≤ k - e then m <<< (k - e).toNat else rndDiv r m (1 <<< (e - k).toNat)
  | _ => 0

/-- The smallest e with v / 2^e at most M (R101). -/
def ceilExp (v : Num) (mx : Nat) : Int :=
  match v with
  | .fin _ m k =>
    if m = 0 then -127
    else
      let l := floorLog2 m mx
      let exact := if 0 ≤ l then m == mx <<< l.toNat else m <<< (-l).toNat == mx
      if exact then l + k else l + k + 1
  | _ => 0

/-- log2 of the mean of magnitudes, to the nearest integer, a half upward (R101, width 1). -/
def meanLog (vs : List Num) : Int :=
  let e0 := vs.foldl (fun a v => min a v.exp) 0
  let s := vs.foldl (fun a v => a + (v.abs.scaled e0).toNat) 0
  if s = 0 then -127 else (floorLog2 (2 * s * s) (vs.length * vs.length) + 2 * e0) / 2

/-- Clamps a scale exponent (R101). -/
def clampExp (e : Int) : Int := max (-127) (min 126 e)

/-- The largest magnitude of a width (R83). -/
def maxMag (w : Nat) : Nat := if w = 1 then 1 else 2 ^ (w - 1) - 1

/-- Inserts an index into a list ranked by descending key, equal keys by ascending index. -/
def rankInsert (key : Nat → Nat) (i : Nat) : List Nat → List Nat
  | [] => [i]
  | j :: t => if key j < key i then i :: j :: t else j :: rankInsert key i t

/-- Indices ranked by descending key, ties to the lower index. -/
def rankDesc (key : Nat → Nat) (is : List Nat) : List Nat := is.foldl (fun acc i => rankInsert key i acc) []

/-- The BF16 code of an outlier's slot, x / (s * T), kept finite, and whether it was clamped (R91). -/
def slotValue (r : Rnd) (x t : Num) (e : Int) : Nat × Bool :=
  match x, t with
  | .fin sx m k, .fin st n f =>
    if m = 0 || n = 0 then (b2n (sx != st) * 2 ^ 15, false)
    else
      let c := roundMag 8 7 r m n (k - f - e)
      (b2n (sx != st) * 2 ^ 15 + (if c.ovf then 0x7F7F else c.code), c.ovf)
  | _, _ => (0, false)

/-- The bytes of an SB record: scale code, header, elements of width `w`, slot bytes. -/
def sbRecord (code w sl : Nat) (elems : List Nat) (slotBytes : Bytes) : Bytes :=
  let arr := (elems.zipIdx.map fun p => p.1 <<< (w * p.2)).foldl (· + ·) 0
  BitVec.ofNat 8 code :: BitVec.ofNat 8 (w + 16 * sl) :: toBytes (4 * w) arr ++ slotBytes

/-- The outliers of a block at width `w` (R100, R103). `ys` are the values y, `a` the reference magnitude. -/
def outliers (d : Desc) (ys : List Num) (a : Num) (code w : Nat) : List Nat :=
  (List.range 32).filter fun i =>
    let y := (nth ys i .nan).abs
    if d.delayed && w ≠ 1 then (Num.fin false (maxMag w) ((code : Int) - 127)).lt y
    else (a.mul (.fin false 1 (max 1 ((d.qexp : Int) + w - 4)))).lt y

/-- The reference magnitude of R99: the ceil(n/2)-th largest nonzero |y|, as its FP32 code. -/
def refMag (codes : List Nat) : Nat :=
  let nz := codes.filter (· ≠ 0)
  let sorted := (rankDesc (fun i => nth nz i 0) (List.range nz.length)).map fun i => nth nz i 0
  nth sorted ((nz.length + 1) / 2 - 1) 0

/-- The width at which a block is encoded and the steps taken (R105, R106, R109): `fuel` 2. -/
def chooseWidth (d : Desc) (ys : List Num) (a : Num) (code : Nat) (full : Bool) : Nat → Nat → Nat
  | 0, w => w
  | fuel + 1, w =>
    if (outliers d ys a code w).length ≤ slotCount d.slots then w
    else if d.widen && (d.width == 4 || d.width == 6) && w < 8 && !full
    then chooseWidth d ys a code full fuel (w + 2) else w

/-- Encodes the 32 FP32 values of an SB block (R98 to R114). `us` are the elements' draws, `supplied` the delayed scale
code, `next` the set's WIDEN_NEXT. At width 1 the slots are in ascending element order; a block that widens and then rounds
wholly to zero counts its steps and takes no index (DESIGN CHOICE, log 90). -/
def encodeSb (d : Desc) (xs us : List Nat) (supplied next : Nat) : Enc :=
  let size := d.recSize
  let xv := xs.map f32
  let yc := xs.map fun x => numDiv (f32 x) d.t
  let ys := yc.map f32
  let nz := (xv.filter fun v => !v.isZero).length
  if xv.any (fun v => !v.isFin) || ys.any (fun v => !v.isFin) || (d.delayed && supplied == 0xFF) then
    { main := plainRec 0xFF size, cnt := { nanBlocks := 1, blocks := 1 }, stat := statEntry 0 0 0 false true }
  else
    let zero : Enc := { main := plainRec 0xFE size, cnt := { zeroBlocks := 1, zeroed := nz, blocks := 1 },
                        stat := statEntry nz 0 0 true false }
    let mags := yc.map (· % 2 ^ 31)
    let a := f32 (refMag mags)
    if (d.delayed && supplied == 0xFE) || ((!d.delayed || d.width == 1) && a.isZero) then zero
    else
      let p := slotCount d.slots
      let full := d.widenCap ≤ next
      let w := chooseWidth d ys a supplied full 2 d.width
      let outs := outliers d ys a supplied w
      let refused := d.widen && (d.width == 4 || d.width == 6) && w < 8 && p < outs.length && full
      let inSlots := (rankDesc (fun i => nth mags i 0) outs).take p
      let inliers := (List.range 32).filter fun i => !outs.contains i
      let e : Int :=
        if d.delayed then (supplied : Int) - 127
        else clampExp (if w = 1 then meanLog (inliers.map fun i => (nth ys i .nan).abs)
          else ceilExp (f32 ((inliers.map fun i => nth mags i 0).foldl max 0)) (maxMag w))
      let code := (e + 127).toNat
      let q := (List.range 32).map fun i => quantMag (rndOf d.sto us i) (nth ys i .nan) e
      let sv := inSlots.map fun i => (i, slotValue (rndOf d.sto us i) (nth xv i .nan) d.t e)
      let sgn (i : Nat) : Nat := b2n (nth ys i .nan).sign
      let elems := (List.range 32).map fun i =>
        if w = 1 then (if (nth ys i .nan).isZero then 0
          else if inSlots.contains i then b2n (Config.slotBit xs i) else sgn i)
        else if inSlots.contains i then 2 ^ (w - 1)
        else if outs.contains i then sgn i * 2 ^ (w - 1) + maxMag w
        else let m := min (nth q i 0) (maxMag w); if m = 0 then 0 else sgn i * 2 ^ (w - 1) + m
      let satIn := if w = 1 then 0 else (inliers.filter fun i => maxMag w < nth q i 0).length
      let sat := satIn + (outs.length - inSlots.length) + (sv.filter fun s => s.2.2).length
      let zeroed := if w = 1 then 0 else (inliers.filter fun i => nth q i 0 == 0 && !(nth xv i .nan).isZero).length
      let satBlk := d.delayed && 0 < nz && (List.range 32).all fun i =>
        (nth xv i .nan).isZero || (outliers d ys a supplied d.width).contains i
      if w ≠ 1 && outs.isEmpty && (List.range 32).all (fun i => nth q i 0 == 0) then
        { zero with cnt := { zero.cnt with
            satBlocks := b2n satBlk, widen46 := b2n (d.width == 4 && 6 ≤ w), widen68 := b2n (d.width < w && w == 8) } }
      else
        let slotOrder := (List.range 32).filter inSlots.contains
        let slotBytes := slotOrder.flatMap fun i =>
          match sv.find? (fun s => s.1 == i) with
          | some s => if w = 1 then BitVec.ofNat 8 (128 + i) :: toBytes 2 s.2.1 else toBytes 2 s.2.1
          | none => []
        let body := sbRecord code w d.slots elems (slice slotBytes 0 (p * (if w = 1 then 3 else 2)))
        let cnt : EncCounts :=
          { zeroed := zeroed, sat := sat, satBlocks := b2n satBlk, blocks := 1
            widen46 := b2n (d.width == 4 && 6 ≤ w), widen68 := b2n (d.width < w && w == 8)
            widenFull := b2n refused, widenTaken := b2n (d.width < w) }
        let wcode := if refused then 3 else if d.width < w then (if w = 6 then 1 else 2) else 0
        let stat := statEntry zeroed sat wcode false false
        if d.width < w then
          { main := slice (BitVec.ofNat 8 code :: BitVec.ofNat 8 (w + 16 * d.slots + 64) :: toBytes 4 next) 0 size
            wide := some (slice body 0 48), cnt := cnt, stat := stat }
        else { main := body, cnt := cnt, stat := stat }

/-- The largest exponent of an MX element (R119). -/
def mxEmax (f : Nat) : Nat := match f with | 0x10 => 8 | 0x11 => 15 | 0x12 => 4 | 0x13 => 2 | 0x14 => 2 | _ => 0

/-- The largest finite magnitude code of an MX element (R116, R121). -/
def mxMax (f : Nat) : Nat :=
  match f with | 0x10 => 0x7E | 0x11 => 0x7B | 0x12 => 0x1F | 0x13 => 0x1F | 0x14 => 7 | _ => 127

/-- The magnitude code of |v| / 2^e in an MX element type, before saturation. -/
def mxMag (f : Nat) (r : Rnd) (v : Num) (e : Int) : Nat :=
  match v with
  | .fin _ 0 _ => 0
  | .fin _ m k =>
    match f with
    | 0x10 => magCode 4 3 r m 1 (k - e)
    | 0x11 => magCode 5 2 r m 1 (k - e)
    | 0x12 => magCode 3 2 r m 1 (k - e)
    | 0x13 => magCode 2 3 r m 1 (k - e)
    | 0x14 => magCode 2 1 r m 1 (k - e)
    | _ => quantMag r v (e - 6)
  | _ => 0

/-- Encodes the 32 FP32 values of an MX block (R119 to R123). A floating-point element that encodes as zero keeps its sign
(DESIGN CHOICE, log 90). -/
def encodeMx (d : Desc) (xs us : List Nat) (supplied : Nat) : Enc :=
  let xv := xs.map f32
  let w := mxWidth d.format
  let size := d.recSize
  if xv.any (fun v => !v.isFin) || (d.delayed && supplied == 0xFF) then
    { main := plainRec 0xFF size, cnt := { nanBlocks := 1, blocks := 1 }, stat := statEntry 0 0 0 false true }
  else
    let amax := f32 ((xs.map (· % 2 ^ 31)).foldl max 0)
    if amax.isZero then
      { main := plainRec (if d.delayed then supplied else 0) size, cnt := { zeroBlocks := 1, blocks := 1 },
        stat := statEntry 0 0 0 true false }
    else
      let lg : Int := match amax with | .fin _ m k => floorLog2 m 1 + k | _ => 0
      let code := if d.delayed then supplied else (max 0 (min 254 (127 + lg - mxEmax d.format))).toNat
      let mags := (List.range 32).map fun i => mxMag d.format (rndOf d.sto us i) (nth xv i .nan) ((code : Int) - 127)
      let sat := (mags.filter fun m => mxMax d.format < m).length
      let codes := (List.range 32).map fun i =>
        let m := min (nth mags i 0) (mxMax d.format)
        let s := (nth xv i .nan).sign
        if d.format = 0x15 then (if s then (256 - m) % 256 else m) else b2n s * 2 ^ (w - 1) + m
      let zeroed := ((List.range 32).filter fun i => nth mags i 0 == 0 && !(nth xv i .nan).isZero).length
      let arr := (codes.zipIdx.map fun p => p.1 <<< (w * p.2)).foldl (· + ·) 0
      { main := BitVec.ofNat 8 code :: toBytes (4 * w) arr, cnt := { sat := sat, zeroed := zeroed, blocks := 1 },
        stat := statEntry zeroed sat 0 false false }

/-- Encodes a block in a block format. -/
def encodeBlock (d : Desc) (xs us : List Nat) (supplied next : Nat) : Enc :=
  if d.format = 0x20 then encodeSb d xs us supplied next else encodeMx d xs us supplied

/-- Converts one FP32 value to FP32, BF16 or FP16, with its counts (R76, R77). -/
def encodeElem (format : Nat) (r : Rnd) (satfp : Bool) (x : Nat) : Nat × EncCounts :=
  if format = 1 then (if (f32 x).isNan then nan32 else x, {})
  else
    let v := f32 x
    let c := if format = 2 then encodeFp 8 7 r satfp v else encodeFp 5 10 r satfp v
    let z := (if format = 2 then bf16 c.code else fp16 c.code).isZero && !v.isZero
    (c.code, { sat := b2n c.ovf, zeroed := b2n z })

end Sys2Proof.Machine
end

