-- ==== Sys2Proof/Machine/StTile.lean ====
section
/-! DEFINITION. State of a logical tile: its stores and queues (03), its Pannier stack (04), its vector engine (05), its
fabric commands and streams (08, 09), its counters (17). -/

namespace Sys2Proof.Machine

/-- A command in the matrix queue (R143): its record as read at issue, its descriptors, whether it is waiting (0),
executing (1) or finished but for the statuses of its writes (2), the next output row, why it waits (R825 code, or 1
for the mesh), the mask as read when it began, and the part checksum of a drain to the reduction (R343). -/
structure MxCmd where
  id : Nat
  op : Nat
  main : Bytes
  addr : Nat
  da : Desc := {}
  db : Desc := {}
  st : Nat := 0
  row : Nat := 0
  wait : Nat := 0
  since : Nat := 0
  mask : List Nat := []
  aux : Desc := {}
  adata : Nat := 0
  astride : Nat := 0
  part : Nat := 0
  /-- Requests sent on its behalf whose acknowledgement it awaits (R145, R448). -/
  waits : List Nat := []
  deriving DecidableEq, Repr

/-- A record of a Pannier stack (R212), with its logical offset; place 0 resident, 1 being spilled, 2 spilled, 3 being
restored. -/
structure PnRec where
  off : Nat
  tag : Nat
  mb : Nat
  fmt : Nat
  len : Nat
  seg : Nat
  step : Nat
  check : Nat
  ckpt : Bool := false
  place : Nat := 0
  deriving DecidableEq, Repr

/-- A command in the Pannier queue (R216): waiting (0) or executing (1); what it waits for (0, 0x20 or 0x21), the
deadline of a POP's grace (R228). -/
structure PnCmd where
  id : Nat
  op : Nat
  main : Bytes
  addr : Nat
  st : Nat := 0
  wait : Nat := 0
  since : Nat := 0
  due : Nat := 0
  /-- The record that a PUSH is writing. -/
  rcd : Option PnRec := none
  deriving DecidableEq, Repr

/-- PN_t (R209), but for what follows from the stacks. -/
structure Pannier where
  mainBase : Nat := 0
  mainPages : Nat := 0
  ckptPages : Nat := 0
  ckptBase : Nat := 0
  spillBase : Nat := 0
  spillPages : Nat := 0
  high : Nat := 0xE0
  low : Nat := 0x80
  graceUs : Nat := 20
  recomputes : Nat := 0
  last : Nat := 0
  missTag : Nat := 0
  /-- The main stack and the checkpoint stack, top record first. -/
  main : List PnRec := []
  ckpt : List PnRec := []
  deriving DecidableEq, Repr

/-- A format slot (R298). -/
structure FmtSlot where
  loaded : Bool := false
  desc : Desc := {}
  block : Nat := 0
  ptr : Nat := 0
  deriving DecidableEq, Repr

/-- An entry of the finished-tile queue: 64 FP32 values and the poison mark (R303, R859). -/
structure FtEntry where
  vals : List Nat
  poison : Bool := false
  deriving DecidableEq, Repr

/-- A command of the fabric queue (R454 to R461, R479 to R482): waiting (0), running (1), or a stream whose stale copy
runs (2); the first bad status, or the stream's ERROR; its issue, or the arrival of a stream's last byte; its deadline,
and whether a stream has missed it; whether a refused read has ended a COPY. -/
structure FabCmd where
  id : Nat
  op : Nat
  main : Bytes
  addr : Nat
  st : Nat := 0
  status : Nat := 0
  since : Nat := 0
  due : Nat := 0
  late : Bool := false
  ended : Bool := false
  /-- For a FENCE: the number of the next request at its issue, and the commands in its scope that had not completed. -/
  mark : Nat := 0
  old : List (Nat × Nat) := []
  /-- Of a COPY: what it has read from this device's own memory and not yet written: units by their offset in the copy, with
  poison and FMT. -/
  parts : List (Nat × Bytes × Bool × Nat) := []
  /-- A poisoned unit of HBM has gone into a local store (R392). -/
  spoiled : Bool := false
  deriving DecidableEq, Repr

/-- TILE_OPS_t (R806). -/
structure TileOps where
  mac8 : Nat := 0
  mac4 : Nat := 0
  mac2 : Nat := 0
  mac1 : Nat := 0
  macQ : Nat := 0
  rowCycles : Nat := 0
  wideRows : Nat := 0
  maskedRows : Nat := 0
  loadStalls : Nat := 0
  vecInstr : Nat := 0
  vecFlop : Nat := 0
  drainBytes : Nat := 0
  drainWaits : Nat := 0
  pnBytes : Nat := 0
  fabBytes : Nat := 0
  paced : Nat := 0
  /-- The part of a cycle that pacing has withheld from issue, in 720,720ths: the model's own. -/
  pacedPart : Nat := 0
  deriving DecidableEq, Repr

/-- What a sequencer does: it runs; it has stopped with a fault; it is stopped by a repeat, a swap or a halt; it is held
by a Carousel move; it stalls on a full queue with the record it would issue. -/
inductive Seq where
  | run
  | fault (code : Nat)
  | stopped
  | stall (op addr : Nat)
  | vldq (vd : Nat)
  | vfence
  deriving DecidableEq, Repr

/-- A vector instruction that waits while a row instruction occupies the engine (R313). -/
structure VecWait where
  op : Nat
  w : BitVec 56 := 0
  sram : Sram := .clean
  deriving DecidableEq, Repr

/-- A logical tile. -/
structure Tile where
  store : Tbl Byte := []
  marks : Tbl Bool := []
  /-- FP32 codes of the eight groups: key 16384 g + 128 i + j. -/
  acc : Tbl Nat := []
  chunks : List Nat := List.replicate 8 0
  ovf : Nat := 0
  poison : Nat := 0
  mxq : List MxCmd := []
  nextId : Nat := 1
  /-- Lanes of 32 bits: key 64 r + j. -/
  vreg : Tbl Nat := []
  slots : List FmtSlot := List.replicate 4 {}
  ftq : List FtEntry := []
  pn : Pannier := {}
  panq : List PnCmd := []
  fabq : List FabCmd := []
  seq : Seq := .stopped
  held : Bool := false
  since : Nat := 0
  rowBusy : Bool := false
  /-- Vector instructions that wait behind the row instruction, oldest first (R276, R313). -/
  vwait : List VecWait := []
  unfenced : Bool := false
  vcyc : Nat := 0
  ops : TileOps := {}
  hintDrops : Nat := 0
  comp : Nat := 0
  /-- The tile's last MB_DONE index of the step, and all it posted (R249, R250). -/
  posts : List Nat := []
  deriving DecidableEq, Repr

end Sys2Proof.Machine
end

