-- ==== Sys2Proof/Machine/StMem.lean ====
section
/-! DEFINITION. State of the memory (07), of the tiers (08), of the fabric (09), of the step (04), of the reduction and
the ledger (06), and of the observers (17). -/

namespace Sys2Proof.Machine

/-- The metadata of a 64-byte unit (R388) but for its tag, which R389 computes. -/
structure UnitMeta where
  poison : Bool := false
  dirty : Bool := false
  fmt : Nat := 0
  deriving DecidableEq, Repr

/-- A channel's controller (R399 to R405, R423): times of corrected errors by row in the last 24 h, times of row
failures, the retirement in progress and those queued, rows being copied to their shadows, the retries of an access. -/
structure Chan where
  corrected : Nat := 0
  uncorr : Nat := 0
  tagErrs : Nat := 0
  failing : Bool := false
  rowErrs : Tbl (List Nat) := []
  rowFails : List Nat := []
  retiring : List Nat := []
  shadowing : List Nat := []
  retries : Nat := 0
  retrain : Option Nat := none
  scrub : Nat := 0
  deriving DecidableEq, Repr

/-- A stack's controller state (R419, R422). -/
structure Stack where
  temp : Int := 0
  level : Nat := 8
  reports : List Int := []
  throttleMs : Nat := 0
  relayout : Bool := false
  /-- While frames are moved out of the part that a shrink removes (R407, R441): the top that is to hold. -/
  clearing : Option Nat := none
  /-- Pages without a home that the shrink has made ABSENT (R441). -/
  gone : List Nat := []
  deriving DecidableEq, Repr

/-- A channel mapped out whose lost units have not been reported (R393): stack, channel, its service index, the channels
that were in service, the old TOP. -/
structure MapOut where
  stack : Nat
  chan : Nat
  idx : Nat
  count : Nat
  top : Nat
  deriving DecidableEq, Repr

/-- The HBM: bytes and unit metadata by local offset. -/
structure Hbm where
  bytes : Tbl Byte := []
  unitMeta : Tbl UnitMeta := []
  /-- Symbols that have changed in a unit's cells since it was written: symbol and the bits that differ (R385, R387). -/
  flips : Tbl (List (Nat × Nat)) := []
  chans : Tbl Chan := []
  stk : List Stack := List.replicate 6 {}
  scrubHours : Nat := 24
  tThrot : Nat := 85
  /-- Poisoned units that HBM_DATA_LOST has reported (R393). -/
  reported : List Nat := []
  /-- Whether poisoned units are being fetched again before a repeat, and the map-outs not yet reported (R393, R415). -/
  restoring : Bool := false
  mapped : List MapOut := []
  deriving DecidableEq, Repr

/-- A page-table entry (R426): state 0 ABSENT, 1 REMOTE, 2 LOCAL, 3 FILLING, 4 EVICTING. -/
structure Page where
  st : Nat := 0
  pin : Bool := false
  stay : Bool := false
  buddy : Bool := false
  frame : Nat := 0
  key : Nat := 0
  home : Nat := 0
  deriving DecidableEq, Repr

/-- A page move in progress: granules arrived or acknowledged, when it began, passes that found a dirty granule, what a
TIER_MOVE waits for. -/
structure Move where
  page : Nat
  evict : Bool := false
  arrived : Nat := 0
  began : Nat := 0
  passes : Nat := 0
  /-- Writes that wait for their granule: storage address, bytes, poison, FMT (R432). -/
  writes : List (Nat × Bytes × Bool × Nat) := []
  /-- Whether the home has refused a part of it. -/
  bad : Bool := false
  /-- Whether a shrink takes its frame (R441). -/
  forced : Bool := false
  /-- Page to be promoted into the frame that this eviction frees. -/
  next : Option Nat := none
  deriving DecidableEq, Repr

/-- The tiering engine. -/
structure Tier where
  pages : Tbl Page := []
  frames : List Nat := []
  tableBase : Nat := 0
  tableMirror : Nat := 0
  frameList : Nat := 0
  buddyEn : Bool := false
  buddyDev : Nat := 0
  buddySt : Nat := 0
  /-- Granules marked dirty, key 32 page + granule: 1 + the time of the first write since it was clean. -/
  dirty : Tbl Nat := []
  heat : Tbl Nat := []
  /-- Pages of the heat table of pages without a frame, least recently touched first. -/
  heatOrder : List Nat := []
  moves : List Move := []
  proposals : List (Nat × Nat) := []
  promoted : Nat := 0
  evicted : Nat := 0
  wbGranules : Nat := 0
  waited : Nat := 0
  stale : Nat := 0
  recompute : Nat := 0
  failed : Nat := 0
  epochMs : Nat := 10
  /-- When the last epoch ended (R437). -/
  epochAt : Nat := 0
  promoteHeat : Nat := 512
  coldDiv : Nat := 4
  maxMigrations : Nat := 8
  wbMs : Nat := 100
  buddyTimeout : Nat := 20
  /-- The next page that a re-seed copies (R452). -/
  reseed : Nat := 0
  /-- Buddied pages without a frame that still live at their old home: page, home, key (R452). -/
  farOld : List (Nat × Nat × Nat) := []
  /-- Granules being written back: page and granule (R443). -/
  wbs : List (Nat × Nat) := []
  deriving DecidableEq, Repr

/-- What a request of this device's own is for: whom its response serves. -/
inductive Purpose where
  | remote (tile id off : Nat)
  | copyRead (tile id off : Nat)
  | copyWrite (tile id : Nat)
  | drain (tile id : Nat)
  | stream (tile id off : Nat)
  | promote (page gran : Nat)
  | writeBack (page gran : Nat)
  | buddy (page : Nat)
  | reseed (page gran : Nat)
  /-- Part of a page that a re-seed fetches from its old home, at an offset in the page (R452). -/
  | reseedRead (page off : Nat)
  /-- A poisoned unit fetched again before a repeat, by its HBM address (R393). -/
  | restore (a : Nat)
  | snapshot
  /-- A message of the reduction or the ledger. -/
  | msg
  /-- Part of an owed response, at a payload offset. -/
  | forward (owed off : Nat)
  | mcast (owed : Nat)
  | mem (session seq off : Nat)
  | nobody
  deriving DecidableEq, Repr

/-- An outstanding request (R484 to R486, R502): the packet, whom it is for, when it was made, when it was first sent with
no response since, when last, the wait, a hold after RETRY, BUSY or while a route is chosen. -/
structure Req where
  num : Nat
  pkt : Pkt
  why : Purpose
  born : Nat := 0
  first : Option Nat := none
  sentAt : Nat
  wait : Nat
  retries : Nat := 0
  hold : Option Nat := none
  routeHold : Bool := false
  /-- The retry-after time of a BUSY that holds it, in ns. -/
  busy : Nat := 0
  /-- When the refusal that holds it came. -/
  heldAt : Nat := 0
  /-- Times sent. -/
  tries : Nat := 0
  /-- A write to the buddy that was refused: it is never acknowledged (R451). -/
  dead : Bool := false
  deriving DecidableEq, Repr

/-- What this device keeps as sender toward a home: the next WSEQ, the epoch known, the path and whether one is in use, its
consecutive timeouts, the last fetching result received. -/
structure Peer where
  nextW : Nat := 1
  /-- Whether the numbers have wrapped. -/
  wrapped : Bool := false
  epoch : Nat := 0
  path : Nat := 0
  chosen : Bool := false
  timeouts : Nat := 0
  rseq : Nat := 0
  deriving DecidableEq, Repr

/-- What this device keeps as home of a sender: NEXT, the epoch, retained values (R489, R490); the numbers of requests that
it has forwarded to a home that cannot be reached, which it never answers (R478). -/
structure Sender where
  next : Nat := 1
  epoch : Nat := 0
  retained : List (Nat × Nat) := []
  mute : List Nat := []
  deriving DecidableEq, Repr

/-- Why a request is held at the home: behind its line (R495), behind an earlier request of its sender (R492), by a tile
move (R47), by a swap (R253), by a granule on its way to a frame (R432), by a channel that retrains (R400), by the copy
of a row or page (R402, R404), or by what answers BUSY to requests not yet admitted (R157, R245, R416). -/
inductive Hold where
  | line
  | order
  | tile (t : Nat)
  | swap
  | granule (page gran : Nat)
  | chan (m : Nat)
  | copy (m page : Nat)
  | busy
  deriving DecidableEq, Repr

/-- A response that this device owes once requests of its own have completed (R429, R448, R472): the request, the status
and payload so far, and the requests that it waits for. -/
structure Owed where
  key : Nat
  req : Pkt
  status : Nat
  data : Bytes
  waits : List Nat
  deriving DecidableEq, Repr

/-- A request in the home queue (R500). -/
structure Held where
  pkt : Pkt
  why : Hold
  reserved : Bool := false
  /-- A duplicate, whose answer waits for the original (R489, R511). -/
  dup : Bool := false
  /-- The status with which it was refused as it was admitted, 0 for none (R494, R498, R499). -/
  refuse : Nat := 0
  /-- Of a request held by a granule: the writes of this device that were held there before it (R432). -/
  after : Nat := 0
  deriving DecidableEq, Repr

/-- A combining-buffer entry (R505): the operation, type, element's local offset, the combined operand, when it
opened. -/
structure Combine where
  op : Nat
  ty : Nat
  addr : Nat
  val : Nat
  opened : Nat
  deriving DecidableEq, Repr

/-- A region-table entry (R496). -/
structure RegionEnt where
  base : Nat := 0
  size : Nat := 0
  key : Nat := 0
  perm : Nat := 0
  deriving DecidableEq, Repr

/-- A multicast group's tree on this device (R472). -/
structure Group where
  root : Nat
  parent : Nat
  children : List Nat
  deriving DecidableEq, Repr

/-- The fabric engine. -/
structure Fabric where
  device : Nat := 0
  numbered : Bool := false
  keyFaults : Nat := 0
  retries : Nat := 0
  dups : Nat := 0
  stale : Nat := 0
  pathsDown : Nat := 0
  tokensExpired : Nat := 0
  combined : Nat := 0
  queuePeak : Nat := 0
  drainKey : Nat := 0
  port : Nat := 47371
  max4k : Bool := false
  pathFail : Nat := 3
  seqTable : Nat := 0
  pathTable : Nat := 0
  rtoUs : Nat := 50
  reachMs : Nat := 40
  tokenLifeUs : Nat := 100
  arrive : Tbl Nat := []
  regions : Tbl RegionEnt := []
  groups : Tbl (Option Group) := []
  peers : Tbl Peer := []
  /-- Senders whose contexts are on the IOD, 4,096 at most, and those whose NEXT lies in the sequence table (R491). -/
  senders : Tbl Sender := []
  saved : List Nat := []
  reqs : List Req := []
  nextReq : Nat := 0
  queue : List Held := []
  owed : List Owed := []
  nextOwed : Nat := 0
  /-- Age tokens outstanding, oldest first, each with the end of its life (R504). -/
  tokens : List (Nat × Nat) := []
  nextToken : Nat := 0
  combining : List Combine := []
  downPaths : List (Nat × Nat) := []
  cache : List (Nat × Bytes) := []
  reinit : Bool := false
  /-- Numbered operations of tiles that ended with a status other than OK or DUP and that no FENCE has reported (R512,
  R862): tile, command, request number, status. -/
  refused : List (Nat × Nat × Nat × Nat) := []
  deriving DecidableEq, Repr

/-- A SNAPSHOT_SHIP in progress (R266 to R269): its command, the range of the active view, destination and key, the step
AT (0 the next); once the copy runs, the step shipped and the sum of its words; whether the destination has refused. -/
structure Ship where
  cmd : PendCmd
  off : Nat
  len : Nat
  dst : Nat
  key : Nat
  at_ : Nat
  copying : Bool := false
  step : Nat := 0
  sum : Nat := 0
  bad : Bool := false
  deriving DecidableEq, Repr

/-- The Tandem area and the step (04). State 0 IDLE, 1 RUNNING, 2 REPORTED, 3 SWAPPING, 4 REPEATING. -/
structure Step where
  viewA : Nat := 0
  viewU : Nat := 0
  units : Nat := 0
  enabled : Bool := false
  active : Tbl Bool := []
  written : Tbl Bool := []
  mbCount : Nat := 0
  drainCount : Nat := 0
  st : Nat := 0
  /-- Since when `st` has been 1 or 2: the model's own, for Loupe (R829). -/
  since : Nat := 0
  ended : Bool := false
  committed : Nat := 0
  firstCopies : Nat := 0
  repeats : Nat := 0
  tileSet : List Nat := []
  counted : List Nat := []
  held : Option Nat := none
  actionable : Option Nat := none
  attempt : Nat := 0
  /-- The repeat order being acted on: attempt, cause, patches. -/
  repeating : Option (Nat × Nat × List Patch) := none
  repeatAt : Nat := 0
  drained : Bool := false
  /-- A JOB_STOP takes effect at the swap that follows (R580). -/
  stopping : Bool := false
  /-- A repeat this device has requested and that has not arrived. -/
  requested : Bool := false
  /-- A repeat to be requested once the swap in progress completes (R753). -/
  afterSwap : Bool := false
  withheld : Bool := false
  ship : Option Ship := none
  program : Bytes := []
  deriving DecidableEq, Repr

/-- A tag-table entry (R328). -/
structure TagEnt where
  blocks : Nat := 0
  rowBlocks : Nat := 0
  width : Nat := 0
  tree : Nat := 0
  expAddr : Nat := 0
  holdAddr : Nat := 0
  resultAddr : Nat := 0
  doneCtr : Nat := 0
  deriving DecidableEq, Repr

/-- A GX record (R324). -/
structure Gx where
  elems : List Int
  res : List Nat
  x : Nat
  flags : Nat := 0
  peak : Nat := 0
  block : Nat := 0
  deriving DecidableEq, Repr

/-- An END record (R342): source, checksum, blocks, index sum, flags. -/
structure EndRec where
  src : Nat
  sum : Nat
  blocks : Nat
  idx : Nat
  flags : Nat
  deriving DecidableEq, Repr

/-- A block at a node: the records in, by source, and the running sum. -/
structure NodeBlock where
  srcs : List Nat
  gx : Gx
  deriving DecidableEq, Repr

/-- A tag in the attempt in progress (R333 to R344, R355). -/
structure TagSt where
  part : Nat := 0
  sum : Nat := 0
  blocks : Nat := 0
  idx : Nat := 0
  flags : Nat := 0
  counts : Tbl Nat := []
  endSent : Bool := false
  node : Tbl NodeBlock := []
  outSum : Nat := 0
  outBlocks : Nat := 0
  outIdx : Nat := 0
  outFlags : Nat := 0
  ends : List EndRec := []
  checked : Bool := false
  gotSum : Nat := 0
  gotBlocks : Nat := 0
  bad : Bool := false
  done : Bool := false
  deriving DecidableEq, Repr

/-- The reduction of a device and its ledger (06). -/
structure Red where
  tags : Tbl TagEnt := []
  tagCount : Nat := 0
  st : Tbl TagSt := []
  redDone : Tbl Nat := []
  /-- Trees: number, parent (none at the root), children. -/
  trees : List (Nat × Option Nat × List Nat) := []
  treesN : Nat := 32
  fanin : Nat := 32
  credits : Nat := 64
  headroom : Nat := 4
  ovfBump : Nat := 8
  beatTimeout : Nat := 50
  hardLimit : Nat := 60
  repeatLimit : Nat := 8
  team : List Nat := []
  /-- Lower leads that this lead of leads manages (R370). -/
  subLeads : List Nat := []
  lead : Bool := false
  standby : Bool := false
  leadDev : Nat := 0
  oldLeads : List Nat := []
  standbyDev : Option Nat := none
  leadAbove : Option Nat := none
  staleDrops : Nat := 0
  residueRetries : Nat := 0
  /-- Data credits in use toward the parent, by tree, and records held for want of one. -/
  creditsUsed : Tbl Nat := []
  waiting : List (Nat × Gx) := []
  /-- Control credits in use toward the parent, by tree, and what waits for one: tree, operation, AUX, payload, whether
  stamped (R351). -/
  ctlUsed : Tbl Nat := []
  ctlWait : List (Nat × Nat × Nat × Msg × Bool) := []
  /-- Additions of the drain in progress whose residues do not match (R339). -/
  upsets : List AddErr := []
  /-- What each child in tree 0 has last reported complete: step, attempt, devices of its subtree. Whether this device has
  reported, and its subtree's count has gone on (R360). -/
  subDone : Tbl (Nat × Nat × Nat) := []
  selfDone : Bool := false
  sentDone : Bool := false
  step : Nat := 0
  attempt : Nat := 0
  ledger : Nat := 0
  cause : Nat := 0
  /-- Devices that have reported complete, by the sender of the count (R360, R369, R370). -/
  reported : Tbl Nat := []
  confirmed : List (Nat × Nat) := []
  tagsChecked : List Nat := []
  /-- The overflowed blocks of the attempt with the codes they were reduced under. -/
  ovfBlocks : List Patch := []
  repeatsRow : Nat := 0
  openedAt : Nat := 0
  /-- A JOB_STOP takes effect at the next commit (R580). -/
  stopping : Bool := false
  /-- The decision at the standby. -/
  deciding : Option Order := none
  /-- The standby's copy of the last decision, and the last heartbeat. -/
  heldDecision : Option Order := none
  lastHeart : Nat := 0
  silent : Bool := false
  beats : Tbl (Nat × Nat × Nat) := []
  /-- Since when a child's subtree has reported fewer live devices than its size, plus 1 (R362). -/
  lateSince : Tbl Nat := []
  deriving DecidableEq, Repr

/-- DEV_OPS, Periscope and Loupe (17). -/
structure Observe where
  hbmRd : List Nat := List.replicate 6 0
  hbmWr : List Nat := List.replicate 6 0
  fabTx : Nat := 0
  fabRx : Nat := 0
  fabReqs : Nat := 0
  homeReqs : Nat := 0
  pst : Nat := 0
  timerLost : Bool := false
  pinLost : Bool := false
  triggers : Nat := 0
  timer : Option Nat := none
  pin : Option Nat := none
  edge : Nat := 0
  phaseTag : Nat := 0
  mode : Nat := 0
  sels : List Nat := []
  next : Nat := 0
  seq : Nat := 0
  ringBase : Nat := 0
  ringRecords : Nat := 0
  periodUs : Nat := 0
  samples : Nat := 0
  dropped : Nat := 0
  droppedSince : Nat := 0
  lastSample : Option Nat := none
  gapMs : Nat := 10
  edges : Nat := 4096
  /-- Loupe reports waiting for their second pass: session, sequence number, time, attempt and step of the first pass,
  and its edges. -/
  loupe : List (List Nat × List (List Nat)) := []
  /-- The last clear of TILE_OPS and of DEV_OPS: its tick, and the counters before it (R811). -/
  tilesWas : Option (Nat × List TileOps) := none
  devWas : Option (Nat × List Nat) := none
  deriving DecidableEq, Repr

end Sys2Proof.Machine
end

