-- ==== Sys2Proof/Machine/StPow.lean ====
section
/-! DEFINITION. State of the power delivery (12), of heat and coolant (13), and of the ports (10). -/

namespace Sys2Proof.Machine

/-! ### Power (12). Powers are in 0.1 W, learned entries in micro-watts, voltages in 2.5 mV. -/

/-- A pending notice (R316, R317): the tile that gave it, tag, due time, and the boost decided for it in microvolts with
the time it starts (R643). -/
structure Notice where
  tile : Nat
  tag : Nat
  due : Nat
  boost : Nat := 0
  boostAt : Nat := 0
  boosting : Bool := false
  deriving DecidableEq, Repr

/-- The minimum-voltage record of a region (R649): time, minimum, P-state, and the captured second word. -/
structure Vmin where
  time : Nat := 0
  min : Nat := 0x1FF
  pst : Nat := 0
  captured : Nat := 0x1FF
  deriving DecidableEq, Repr

/-- A region's power state (R637 to R653, R660). -/
structure PwrRegion where
  on : Bool := false
  ramping : Bool := false
  deferred : Bool := false
  phase : Nat := 0
  weight : Nat := 0
  pace : Nat := 16
  /-- The pace that R640 allows, to which the fast limiter returns. -/
  paceTop : Nat := 16
  /-- The last 100 samples in 0.1 W, newest first, and the same scaled to pace 16. -/
  window : List Nat := []
  scaled : List Nat := []
  allow : Nat := 0
  vset : Nat := 0
  /-- The boost in microvolts, and when it ends (R643). -/
  boost : Nat := 0
  boostEnd : Option Nat := none
  allPhases : Bool := false
  hints : Nat := 0
  droopTrips : Nat := 0
  /-- Sum and number of the phase's scaled samples (R638). -/
  phaseSum : Nat := 0
  phaseN : Nat := 0
  notices : List Notice := []
  vmin : Vmin := {}
  /-- When a power-on was requested, and whether for idle activity. -/
  wanted : Option Nat := none
  activity : Bool := false
  rampAt : Nat := 0
  /-- Phases switched off, with the time they fall due again, and the times of each phase's faults. -/
  off : Tbl Nat := []
  faults : Tbl (List Nat) := []
  deriving DecidableEq, Repr

/-- A die's clock stretch (R646 to R648): detectors tripped (13 r + k), 0 normal, 1 doubled, 2 at 1.5, 3 at 1.25; the
time of the present stage and of the stretch's start. -/
structure PwrDie where
  tripped : List Nat := []
  stage : Nat := 0
  counting : Bool := false
  since : Nat := 0
  began : Nat := 0
  stretchNs : Nat := 0
  stretches : Nat := 0
  deriving DecidableEq, Repr

/-- A P-state change decided and not yet made (R626, R710): the new P-state, when it was decided, its announced count,
and the groups that have not reported their new value. -/
structure PChange where
  dest : Nat
  decided : Nat
  at_ : Nat
  waiting : List Nat := []
  deriving DecidableEq, Repr

/-- An alert input (R655): active or not, since when, and the last alert's duration. -/
structure Alert where
  low : Bool := false
  began : Nat := 0
  high : Nat := 0
  last : Nat := 0
  deriving DecidableEq, Repr

/-- The power controller Rein and the measurement. -/
structure Power where
  pstate : Nat := 5
  choice : Nat := 5
  force : Nat := 0
  change : Option PChange := none
  lastUp : Option Nat := none
  /-- Package samples of 1 us, newest first, at most 1,000; sums of whole milliseconds, newest first, at most 1,000. -/
  us : List Nat := []
  ms : List Nat := []
  msSum : Nat := 0
  msN : Nat := 0
  /-- The same outside the compute regions, 1 us samples. -/
  outside : List Nat := []
  /-- In 0.1 uJ. -/
  energy : Nat := 0
  changes : Nat := 0
  limits : Nat := 0
  engaged : Bool := false
  clearUs : Nat := 0
  peak : Nat := 1200
  sust : Nat := 950
  halBudget : Nat := 0
  trayBudget : Option Nat := none
  trayAt : Nat := 0
  stale : Bool := false
  coolant : Option Nat := none
  peakCut : Bool := false
  pstateTop : Nat := 0
  learnEn : Nat := 1
  budgetSrc : Nat := 3
  staleMs : Nat := 1000
  offMs : Nat := 100
  learn : Tbl Nat := []
  regions : List PwrRegion := List.replicate 16 {}
  dies : List PwrDie := [{}, {}]
  vr : Alert := {}
  gp3 : Alert := {}
  alerts : List Nat := []
  vinLowAt : Option Nat := none
  vinOkAt : Option Nat := none
  vinMin : Nat := 0
  hostWeights : Option (List Nat) := none
  splitAt : Option Nat := none
  lastCap : Nat := 950
  deriving DecidableEq, Repr

/-! ### Heat (13). Temperatures are in 0.25 degrees C, or 0.01 degrees C for the coolant. -/

/-- A thermal site (R667 to R672, R701). -/
structure Site where
  ctrl : Int := 0
  ta : Int := 0
  tb : Int := 0
  /-- Whether the sensor's reading has been accepted at least once. -/
  seenA : Bool := false
  seenB : Bool := false
  st : Nat := 0
  rejA : Nat := 0
  rejB : Nat := 0
  failA : Bool := false
  failB : Bool := false
  suspect : Bool := false
  diffAt : Option Nat := none
  okAt : Option Nat := none
  peak : Int := 0
  rejects : Nat := 0
  sum : Int := 0
  n : Nat := 0
  /-- Consecutive conversions of sensor B at or above 105 degrees C. -/
  hotRun : Nat := 0
  deriving DecidableEq, Repr

/-- Groom's control of heat. -/
structure Heat where
  sites : List Site := List.replicate 214 {}
  tHot : Nat := 95
  tOutMax : Nat := 53
  warmFloor : Nat := 45
  warmW : Nat := 40
  flowMinWarm : Nat := 400
  carouselS : Nat := 60
  flowK : Nat := 4000
  wfLost : Nat := 600
  lastSeq : Option Nat := none
  missRun : Nat := 0
  goodRun : Nat := 0
  lost : Bool := false
  misses : Nat := 0
  inlet : Int := 0
  outlet : Int := 0
  trayFlow : Option Nat := none
  status : Nat := 0
  /-- Times of the pulses of the last 100 ms, and of the last one. -/
  pulses : List Nat := []
  lastPulse : Nat := 0
  pumpFail : Bool := false
  /-- Controlling flow of the last 100 ms: time and mL/min, newest first. -/
  flows : List (Nat × Nat) := []
  wFlow : Option Nat := none
  wJunc : Option Nat := none
  coolAt : Option Nat := none
  /-- A higher coolant limit, and since when it has held. -/
  rise : Option (Nat × Nat) := none
  coolLow : Bool := false
  okSince : Option Nat := none
  stop : Option Nat := none
  lowSince : Option Nat := none
  /-- Excess outlet temperature of the last 500 ms in 0.01 degrees C: time and value, newest first. -/
  excess : List (Nat × Int) := []
  clearSince : Option Nat := none
  stops : Nat := 0
  tripAlarm : Bool := false
  flowReq : Nat := 0
  reason : Nat := 0
  warmAct : Bool := false
  warmNow : Nat := 0
  belowSince : Option Nat := none
  /-- Reports that Groom keeps until Dorlen runs, oldest first, at most 256 (R697). -/
  groomLog : List ErrRec := []
  deriving DecidableEq, Repr

/-! ### The ports (10) -/

/-- A port's settings (R559, R560). An absent address is none. -/
structure PortCfg where
  type : Nat := 0
  c2mWidth : Nat := 4
  mtu : Nat := 9216
  vlan : Nat := 0
  mac : Option (List (BitVec 8)) := none
  ipv4 : Option (List (BitVec 8) × Nat) := none
  ipv6 : Option (List (BitVec 8) × Nat) := none
  direct : Nat := 0
  dscp : List Nat := [0, 8, 16, 24, 32, 40, 48, 56]
  share : List Nat := [5, 0, 5, 40, 25, 25, 0, 0]
  deriving DecidableEq, Repr

/-- A neighbour (R556): device, port, CAPS, and when its last LLDPDU came. -/
structure Nbr where
  device : Nat
  numbered : Bool
  epoch : Nat
  port : Nat
  caps : Nat
  at_ : Nat
  deriving DecidableEq, Repr

/-- A port's counters (R562). -/
structure PortCnt where
  txFrames : Nat := 0
  rxFrames : Nat := 0
  txBytes : Nat := 0
  rxBytes : Nat := 0
  fcsErrors : Nat := 0
  rxDiscards : Nat := 0
  fecCorrected : Nat := 0
  fecUncorr : Nat := 0
  replays : Nat := 0
  pfcTx : Nat := 0
  pfcRx : Nat := 0
  deriving DecidableEq, Repr

/-- A lane (R563): symbol errors, losses of lock, and successive bring-ups in which every set with it failed. -/
structure Lane where
  symErr : Nat := 0
  lockLoss : Nat := 0
  badUps : Nat := 0
  deriving DecidableEq, Repr

/-- A port's PTP instance (R718): state 0 listening, 1 master, 2 slave, 3 passive; the number of its next Sync and of
its next delay request; the best master heard and when its last Announce came; the sequence number and receive time of a
two-step Sync; the times of the present exchange; the mean path delay in ns. -/
structure PtpPort where
  st : Nat := 0
  syncSeq : Nat := 0
  reqSeq : Nat := 0
  best : Option (List Nat) := none
  heard : Nat := 0
  sync : Option (Nat × Nat) := none
  t1 : Int := 0
  t2 : Int := 0
  t3 : Option (Nat × Int) := none
  /-- Receive and answer times of a two-step peer delay exchange. -/
  pd : Option (Nat × Int × Int) := none
  delay : Int := 0
  deriving DecidableEq, Repr

/-- A port: link 0 DOWN, 1 TRAINING, 2 UP, 3 FAILED. -/
structure Port where
  cfg : PortCfg := {}
  /-- TYPE and DIRECT as the present bring-up took them (R559). -/
  typeNow : Nat := 0
  directEn : Bool := false
  link : Nat := 0
  inUse : List Nat := []
  direct : Bool := false
  retrains : Nat := 0
  retrainTimes : List Nat := []
  /-- The place in the order of R540 of the next attempt's set, and passes made. -/
  setIx : Nat := 0
  passes : Nat := 0
  /-- The set of the attempt in progress. -/
  trying : Option (List Nat) := none
  /-- Sets that failed in this bring-up, and whether the attempt is a retrain on the present set (R543). -/
  failed : List (List Nat) := []
  retraining : Bool := false
  /-- Whether the partner is an SH2 (R540, R541), and whether the link has trained before (R539). -/
  peerSh2 : Bool := true
  trained : Bool := false
  /-- Direct mode has fallen back and waits for the host to enable it again (R550). -/
  fell : Bool := false
  nbr : Option Nbr := none
  cnt : PortCnt := {}
  lanes : List Lane := List.replicate 4 {}
  uncorrTimes : List Nat := []
  /-- Direct mode (R548 to R550): next sequence number; unacknowledged frames with bytes and replays, oldest first; the
  times of replays and of frames in the last 1 s. -/
  txSeq : Nat := 0
  unacked : List (Nat × Nat × Nat) := []
  replayTimes : List Nat := []
  frameTimes : List Nat := []
  /-- Classes paused by the partner: class and the end of the pause. -/
  paused : List (Nat × Nat) := []
  /-- The receive buffer (R552): bytes that each lossless class has in it, and the classes paused at the partner. -/
  rxHeld : Tbl Nat := []
  rxPaused : List Nat := []
  /-- When the next LLDPDU is due (R555). -/
  lldpDue : Nat := 0
  ptp : PtpPort := {}
  deriving DecidableEq, Repr

end Sys2Proof.Machine
end

