-- ==== Sys2Proof/Machine/State.lean ====
section
/-! DEFINITION. The state of one SH2: plain data, all that the spec gives the machine; and the state after reset. -/

namespace Sys2Proof.Machine

/-- Why the machine stops with a fault. -/
inductive Fault where
  /-- Raised by RESERVED_OPCODE for a vector opcode that the tables list: the row carries no word of that instruction, so
  there is nothing to run (log 53). Safe: the hardware has no such event, and the machine stops. -/
  | otherOpcode
  deriving DecidableEq, Repr

/-- Why a command has no meaning. -/
inductive Refusal where
  /-- Raised by `exec` alone, for a command not modelled. Safe: nothing follows it. -/
  | notModelled (mnemonic : String)
  deriving DecidableEq, Repr

/-- A counter set (R124): the counts of encoding and decoding, and WIDEN_NEXT. -/
structure FmtCnt where
  cnt : EncCounts := {}
  next : Nat := 0
  deriving DecidableEq, Repr

/-- What the device sends: the model's own record of its outputs, oldest first. -/
inductive Sent where
  | reply (port addr session seq code status time : Nat) (payload : Bytes)
  | event (port addr session num : Nat) (ev : Event) (retx : Bool)
  | openMsg (port addr exch step flags : Nat) (body : Bytes)
  | pkt (p : Pkt)
  /-- A message of the reduction or the ledger to this device itself (R469): operation, AUX, payload, stamp. -/
  | own (op aux : Nat) (m : Msg) (data : Bytes) (step attempt : Nat)
  /-- A credit goes back to a child (R351): a data credit or a control credit. -/
  | credit (dst tree : Nat) (ctl : Bool)
  | frame (port kind : Nat) (args : List Nat) (data : Bytes)
  | buddyPoison (dst off : Nat)
  | tray (bytes : Bytes)
  | trace (r : ErrRec)
  deriving DecidableEq, Repr

/-- The state of the device. -/
structure State where
  /-- The commands that wait, first in, first out. -/
  pending : List Instr := []
  flash : Flash := {}
  pkg : Package
  time : Time := {}
  err : ErrLog := {}
  hal : Halter
  boot : Boot := {}
  fmt : Tbl FmtCnt := []
  tiles : Tbl Tile := []
  hbm : Hbm := {}
  tier : Tier := {}
  fab : Fabric := {}
  step : Step := {}
  red : Red := {}
  obs : Observe := {}
  pwr : Power := {}
  heat : Heat := {}
  ports : List Port := List.replicate 18 {}
  sent : List Sent := []
  /-- Frames that wait at a port for a paused class or a full replay buffer (R529, R549): port, class, length. -/
  txWait : List (Nat × Nat × Nat × Sent) := []
  /-- Free values drawn so far: the model's own counter. -/
  freeIx : Nat := 0
  /-- Seedings of the generators so far, and each physical slot's last one with its cycle (R259). -/
  seeds : Nat := 0
  gens : Tbl (Nat × Nat) := []
  deriving DecidableEq, Repr

/-- The lowest slots of a region that are not retired (R41). -/
def goodSlots (retired : List Nat) (g : Nat) : List Nat :=
  (List.range 13).filter fun k => !retired.contains (13 * g + k)

/-- The tile map that Dorlen builds at reset from the retirement record (R41). -/
def mapAtReset (retired : List Nat) : Package where
  map := (List.range 192).map fun t =>
    match (goodSlots retired (t / 12))[t % 12]? with
    | some k => { slot := k }
    | none => { slot := 15, st := 2 }
  regions := (List.range 16).map fun g => { spare := (goodSlots retired g).getD 12 15 }

/-- The default target of a shared event source (R606). -/
def evcTarget (s : Nat) : Nat :=
  if s < 192 then 1 else if s < 288 then 2 else if s < 306 then 3 else if s < 312 then 2 else if s < 328 then 4
  else if s < 360 then 3 else if s < 376 then 2 else if s < 392 then 1 else 0

/-- The event controller's routes at reset (R606, R607). -/
def evcAtReset : List EvcRoute := (List.range 512).map fun s => { target := evcTarget s, enable := s < 440 }

/-- The owner table at reset: R612, and the SAFETY assignments kept in flash (R614). -/
def resAtReset (safety : List (Nat × Nat)) : List ResOwn :=
  (List.range 20).map fun r =>
    match safety.find? (fun p => p.1 == r) with
    | some p => { owner := p.2 }
    | none => { owner := if r = 16 || r = 17 then 0x21 else if r = 18 then 0x20 else 0 }

/-- Halter's state after a device reset. -/
def halterAtReset (f : Flash) : Halter where
  res := resAtReset f.safety
  evc := evcAtReset
  cores := List.replicate 5 {}

/-- The machine right after reset: VAUX has come into tolerance, the time counter stands at 0, the main rails are off
and the start waits for its straps (R715, R769, R777); every register at its reset value; flash as it left the factory.
DESIGN CHOICE, log 88. -/
def State.reset : State where
  pkg := mapAtReset []
  hal := halterAtReset {}

end Sys2Proof.Machine
end

