-- ==== Sys2Proof/Machine/Ops.lean ====
section
/-! DEFINITION. Shared operations: free values, what the device sends, the error log (R737 to R742), events (R598 to
R602), job and sequencer stops (R151, R748), a request for a repeat (R363), the completion board (R358). -/

namespace Sys2Proof.Machine

/-- What a command's meaning answers. -/
abbrev Out := Host.Outcome State Fault Refusal

/-- Draws a free value of `w` bits (log 3). -/
def State.draw (s : State) (w : Nat) : Nat × State :=
  (Config.free s.freeIx % 2 ^ w, { s with freeIx := s.freeIx + 1 })

/-- Draws `n` free values of `w` bits. -/
def State.draws (s : State) (w n : Nat) : List Nat × State :=
  ((List.range n).map fun i => Config.free (s.freeIx + i) % 2 ^ w, { s with freeIx := s.freeIx + n })

/-- Records something sent. -/
def State.send (s : State) (x : Sent) : State := { s with sent := s.sent ++ [x] }

/-- The time counter (R714). -/
def State.now (s : State) : Nat := s.time.ns

/-! ### Frames at a port (R529, R546, R548, R549, R551) -/

/-- Changes port p. -/
def State.onPort (s : State) (p : Nat) (f : Port → Port) : State := { s with ports := setAt s.ports p f }

/-- Port p. -/
def State.port (s : State) (p : Nat) : Port := nth s.ports p {}

/-- Bytes of a UDP frame with its VLAN tag, destination address to FCS (R529). -/
def udpFrame (v6 : Bool) (n : Nat) : Nat := (if v6 then 70 else 50) + n

/-- Whether the replay buffer of a port in direct mode has no room (R549). -/
def Port.replayFull (x : Port) (len : Nat) : Bool :=
  x.direct && (4095 ≤ x.unacked.length || 65536 < x.unacked.foldl (fun a u => a + u.2.1) len)

/-- A frame leaves a port: it is counted, and in direct mode kept in the replay buffer (R549, R562). -/
def Port.put (x : Port) (now len : Nat) : Port :=
  let x := { x with cnt := { x.cnt with txFrames := satAdd 64 x.cnt.txFrames 1, txBytes := satAdd 64 x.cnt.txBytes len } }
  if x.direct then
    { x with unacked := x.unacked ++ [(x.txSeq, len, 0)], txSeq := (x.txSeq + 1) % 4096
             frameTimes := x.frameTimes.filter (now < · + 1000000000) ++ [now] }
  else x

/-- Whether a frame of a class must wait at a port: the class is paused, frames of it wait already, or the replay buffer
is full (R529, R549). -/
def State.txBlocked (s : State) (p cls len : Nat) : Bool :=
  let x := s.port p
  (x.paused.any fun e => e.1 == cls && s.now < e.2) || x.replayFull len ||
    s.txWait.any fun w => w.1 == p && (w.2.1 == cls || x.direct)

/-- Gives a frame to a port (R529, R546): it is discarded while the link is not UP. -/
def State.sendOn (s : State) (p cls len : Nat) (x : Sent) : State :=
  if (s.port p).link ≠ 2 then s
  else if s.txBlocked p cls len then { s with txWait := s.txWait ++ [(p, cls, len, x)] }
  else (s.onPort p fun q => q.put s.now len).send x

/-- The 802.1Q tag and the DSCP of a frame that port p sends in a class (R529, R551): VLAN ID, priority, DSCP. -/
def State.wireTag (s : State) (p cls : Nat) : Nat × Nat × Nat :=
  let c := (s.port p).cfg
  (c.vlan, cls, nth c.dscp cls 0)

/-- Sends the frames that wait at port p and need wait no longer, in order. -/
def State.txDrain (s : State) (p : Nat) : State :=
  let ws := s.txWait.filter (·.1 == p)
  ws.foldl (fun s w => s.sendOn w.1 w.2.1 w.2.2.1 w.2.2.2) { s with txWait := s.txWait.filter (·.1 ≠ p) }

/-- Discards the frames that wait at port p (R546). -/
def State.txDiscard (s : State) (p : Nat) : State := { s with txWait := s.txWait.filter (·.1 ≠ p) }

/-- A frame is accepted at port p (R530, R562). -/
def State.rxCount (s : State) (p len : Nat) : State :=
  s.onPort p fun x => { x with cnt := { x.cnt with
    rxFrames := satAdd 64 x.cnt.rxFrames 1, rxBytes := satAdd 64 x.cnt.rxBytes len } }

/-- Bytes of PFC headroom that a port's receive buffer holds for each lossless class (R552). -/
def pfcHeadroom : Nat := 196608

/-- Whether a frame of a lossless class arrives at port p beyond its headroom (R553). -/
def State.rxBeyond (s : State) (p cls len freed : Nat) : Bool :=
  Config.rxRoom + pfcHeadroom < Tbl.get 0 (s.port p).rxHeld cls - freed + len

/-- The receive buffer of port p passes on `freed` bytes of a lossless class and takes in `len` (R552, R562): PFC is sent for
the class as what is in it leaves less than its headroom, and again, to resume it, as that falls below half the threshold.
Frame kind 6: the class, and 1 for a pause; its time is not stated (log 75). -/
def State.rxClass (s : State) (p cls len freed : Nat) : State :=
  let x := s.port p
  let occ := Tbl.get 0 x.rxHeld cls - freed + len
  let was := x.rxPaused.contains cls
  let stop := !was && Config.rxRoom < occ
  let go := was && 2 * occ < Config.rxRoom
  let s := s.onPort p fun x => { x with
    rxHeld := Tbl.set 0 x.rxHeld cls occ
    rxPaused := (if go then x.rxPaused.filter (· ≠ cls) else x.rxPaused) ++ (if stop then [cls] else [])
    cnt := { x.cnt with pfcTx := satAdd 32 x.cnt.pfcTx (b2n (stop || go)) } }
  { s with sent := s.sent ++ (if stop then [.frame p 6 [cls, 1] []] else if go then [.frame p 6 [cls, 0] []] else []) }

/-- A frame is discarded at port p (R530, R553, R562). -/
def State.rxDiscard (s : State) (p : Nat) : State :=
  s.onPort p fun x => { x with cnt := { x.cnt with rxDiscards := satAdd 32 x.cnt.rxDiscards 1 } }

/-- Sends a message of Halter (R565, R571) in class 2. An address is one number, odd for IPv6. The length of an event's
payload is free (log 30). -/
def State.sendMsg (s : State) (x : Sent) : State :=
  match x with
  | .reply p a _ _ _ _ _ pay => s.sendOn p 2 (udpFrame (a % 2 = 1) (48 + pay.length)) x
  | .openMsg p a _ _ _ b => s.sendOn p 2 (udpFrame (a % 2 = 1) (48 + b.length)) x
  | .event p a _ _ _ _ => let d := s.draw 13; d.2.sendOn p 2 (udpFrame (a % 2 = 1) (48 + d.1)) x
  | _ => s.send x

/-! ### Paths (R536, R537) -/

/-- What is kept toward a home. -/
def State.peer (s : State) (d : Nat) : Peer := Tbl.get {} s.fab.peers d
/-- Path record k mod 4 of a device's entry of the path table (R536, R537). -/
def State.pathRec (s : State) (d k : Nat) : Bytes :=
  Tbl.getList 0 s.hbm.bytes (s.fab.pathTable + 128 * d + 32 * (k % 4)) 32

/-- Whether a path may be selected (R537): its record is VALID and its port neither DOWN nor FAILED. -/
def State.pathOk (s : State) (d k : Nat) : Bool :=
  let r := s.pathRec d k
  let l := (nth s.ports (field r 0 1) {}).link
  bit (field r 1 1) 0 && field r 0 1 < 18 && (l == 1 || l == 2)

/-- The path that route selection proposes to a home after path `k`: the next that may be selected and is not down
(DESIGN CHOICE, log 25). -/
def State.proposePath (s : State) (d k : Nat) : Option Nat :=
  ((List.range 64).map fun i => (k + 1 + i) % 64).find? fun q => s.pathOk d q && !s.fab.downPaths.contains (d, q)

/-- The path to a home (R474, R485, R537): the one in use, which only route selection changes; before any is in use, the
first that may be selected. -/
def State.pathTo (s : State) (d : Nat) : Option Nat :=
  let p := s.peer d
  if s.pathOk d p.path then some p.path else if p.chosen then none else s.proposePath d p.path

/-- Changes what is kept toward a home. -/
def State.onPeer (s : State) (d : Nat) (f : Peer → Peer) : State :=
  { s with fab := { s.fab with peers := Tbl.upd {} s.fab.peers d f } }

/-- The traffic class of a packet (R551). -/
def pktClass (p : Pkt) : Nat :=
  if p.kind = 2 then 5
  else if p.op = 0x41 then 6
  else if p.op = 0x40 then (match p.msg with | some (.endRec _ _ _ _ _) => 6 | _ => 3)
  else 4

/-- The frame length of a Tarilama packet received (R473, R529). -/
def pktLen (p : Pkt) : Nat := udpFrame p.v6 (52 + p.data.length)

/-- A Tarilama packet arrives at its port (R530, R551 to R553, R562), and `f` is done with it unless it is discarded for want
of buffer space. Its class is its sender's (DESIGN CHOICE, log 75). -/
def State.rxPacket (s : State) (p : Pkt) (f : State → Out) : Out :=
  if s.rxBeyond p.port (pktClass p) (pktLen p) p.freed then .next (s.rxDiscard p.port)
  else f ((s.rxCount p.port (pktLen p)).rxClass p.port (pktClass p) (pktLen p) p.freed)

/-- Sends a packet to its receiving device (R473, R474, R537, R551), on the path in use toward it; it is lost where that
path may not be selected. -/
def State.sendPkt (s : State) (p : Pkt) : State :=
  match s.pathTo p.dst with
  | some k =>
    let r := s.pathRec p.dst k
    let s := s.onPeer p.dst fun q => { q with path := k, chosen := true }
    s.sendOn (field r 0 1) (pktClass p) (udpFrame (bit (field r 1 1) 1) (52 + p.data.length))
      (.pkt { p with path := k, entropy := k / 4 })
  | none => s

/-- Tile `t`. -/
def State.tile (s : State) (t : Nat) : Tile := Tbl.get {} s.tiles t

/-- Changes tile `t`. -/
def State.onTile (s : State) (t : Nat) (f : Tile → Tile) : State := { s with tiles := Tbl.upd {} s.tiles t f }

/-- The physical slot 13 g + k of a logical tile, none while it is UNBACKED. -/
def State.slotOf (s : State) (t : Nat) : Option Nat :=
  match s.pkg.map[t]? with
  | some e => if e.slot < 13 then some (13 * (t / 12) + e.slot) else none
  | none => none

/-- Changes a slot's error counters. -/
def State.onSlot (s : State) (sl : Nat) (f : SlotErr → SlotErr) : State :=
  { s with err := { s.err with slots := Tbl.upd {} s.err.slots sl f } }

/-- The step in progress, STEP_NUMBER + 1. -/
def State.stepNo (s : State) : Nat := s.step.committed + 1

/-! ### Events -/

/-- The class of an event (R603, R658, R699, R727, R803): 0 FATAL, 1 DECISION, 2 WARNING, 3 INFO. -/
def evClass (code : Nat) : Nat :=
  if [0x10, 0x11, 0x12, 0x13, 0x20, 0x68, 0x74].contains code then 0
  else if 0x80 ≤ code && code ≤ 0x86 then 1
  else if [0x1, 0x3, 0x4, 0x15, 0x32, 0x50, 0x61, 0x63, 0x64, 0x65, 0x70, 0x73, 0x90, 0x92].contains code then 3
  else 2

/-- Entries of a session's event queue in use, general or reserved (R600). -/
def Session.used (x : Session) (resv : Bool) : Nat := (x.events.filter fun e => e.reserved == resv).length

/-- Puts an event into the queue with the next number, and sends it (R599). -/
def Session.push (x : Session) (ev : Event) (now : Nat) (resv : Bool) : Session × Sent :=
  ({ x with events := x.events ++ [{ num := x.nextEvent, ev := ev, sentAt := now, reserved := resv }],
            nextEvent := x.nextEvent + 1 },
   .event x.port x.addr x.num x.nextEvent ev false)

/-- Queues an event of a session by its class (R600 to R602): the session, what is sent, and whether it was lost. A
FATAL or DECISION event takes a general entry while one is free (DESIGN CHOICE, log 10). -/
def Session.queue (x : Session) (ev : Event) (now : Nat) : Session × List Sent × Bool :=
  if evClass ev.code ≤ 1 then
    if x.used false < 960 then let p := x.push ev now false; (p.1, [p.2], false)
    else if x.used true < 64 then let p := x.push ev now true; (p.1, [p.2], false)
    else ({ x with waiting := x.waiting ++ [ev] }, [], false)
  else if x.used false < 960 then let p := x.push ev now false; (p.1, [p.2], false)
  else ({ x with lost := x.lost + 1 }, [], true)

/-- Whether a session is to receive an event (R598). -/
def Session.takes (x : Session) (code : Nat) : Bool :=
  match evClass code with
  | 0 => x.control
  | 1 => x.control
  | 2 => x.warn
  | _ => if code = 4 then x.control else x.info

/-- Delivers an event to each session in turn. -/
def deliver (ev : Event) (now : Nat) : List Session → List Session × List Sent × Nat
  | [] => ([], [], 0)
  | x :: xs =>
    let r := deliver ev now xs
    if x.takes ev.code then
      let q := x.queue ev now
      (q.1 :: r.1, q.2.1 ++ r.2.1, b2n q.2.2 + r.2.2)
    else (x :: r.1, r.2)

/-- Whether a CONTROL session is open (R566). -/
def State.controlOpen (s : State) : Bool := s.hal.sessions.any (·.control)

/-- Raises an event (R598): FATAL and DECISION events are held while no CONTROL session is open. -/
def State.raise (s : State) (ev : Event) : State :=
  if evClass ev.code ≤ 1 && !s.controlOpen then
    { s with hal := { s.hal with heldEvents := s.hal.heldEvents ++ [ev] } }
  else
    let r := deliver ev s.now s.hal.sessions
    let h := { s.hal with sessions := r.1, eventsLost := satAdd 16 s.hal.eventsLost r.2.2 }
    r.2.1.foldl State.sendMsg { s with hal := h }

/-- Raises an event, held for the first CONTROL session where none is open (R689, R803). -/
def State.raiseHeld (s : State) (ev : Event) : State :=
  if !s.controlOpen then { s with hal := { s.hal with heldEvents := s.hal.heldEvents ++ [ev] } } else s.raise ev

/-- Creates a decision request and raises its event (R591). -/
def State.request (s : State) (req : Request) (code : Nat) (payload : List Nat) : State :=
  let n := s.hal.nextDecision
  let h := { s.hal with
    decisions := s.hal.decisions ++ [{ num := n, req := req, created := s.now }], nextDecision := n + 1 }
  State.raise { s with hal := h } { code := code, payload := payload, decision := n }

/-- Whether function `f` is in host-assisted mode (R590). -/
def State.assisted (s : State) (f : Nat) : Bool := bit s.hal.mode f

/-! ### The error log -/

/-- Whether a record may take a further occurrence of a report (R738). -/
def ErrRec.same (a b : ErrRec) : Bool :=
  a.unit == b.unit && a.inst == b.inst && a.code == b.code && a.cls == b.cls && !a.delivered

/-- Adds an occurrence to the first record that may take it: the list and whether one did. -/
def mergeRec (r : ErrRec) : List ErrRec → List ErrRec × Bool
  | [] => ([], false)
  | a :: t =>
    if a.same r then ({ a with count := min 0xFFFFFFFF (a.count + 1), last := r.first } :: t, true)
    else let q := mergeRec r t; (a :: q.1, q.2)

/-- Entries of the error queue in use (R737). -/
def ErrLog.used (e : ErrLog) (resv : Bool) : Nat := (e.queue.filter fun r => r.resv == resv).length

/-- Puts a report into the queue where an entry is free. DESIGN CHOICE, log 10. -/
def ErrLog.enqueue (e : ErrLog) (r : ErrRec) (resv : Bool) : ErrLog :=
  { e with queue := e.queue ++ [{ r with resv := resv }], queuePeak := max e.queuePeak (e.queue.length + 1) }

/-- Records a report (R737 to R740): merged, queued, held or lost. -/
def ErrLog.report (e : ErrLog) (r : ErrRec) : ErrLog :=
  let q := mergeRec r e.queue
  if q.2 then { e with queue := q.1, coalesced := satAdd 32 e.coalesced 1 }
  else
    let old := e.ring.length - 256
    let m := mergeRec r (e.ring.drop old)
    if m.2 then { e with ring := e.ring.take old ++ m.1, coalesced := satAdd 32 e.coalesced 1 }
    else if e.used false < 48 then e.enqueue r false
    else if r.cls = 5 then
      (if e.used true < 16 then e.enqueue r true else { e with held := e.held ++ [r] })
    else { e with lost := satAdd 32 e.lost 1 }

/-- Makes a report of a condition (R733 to R736). Those of power, heat and clocks are Groom's, which keeps up to 256 of
them while Dorlen does not run (R697). -/
def State.report (s : State) (cls unit code inst : Nat) (addr : Nat := 0) (detail : Nat := 0) (flags : Nat := 0) :
    State :=
  let groom := 9 ≤ unit && unit ≤ 0xB
  let r : ErrRec :=
    { first := s.now, last := s.now, cls := cls, unit := unit, code := code, inst := inst, step := s.stepNo % 65536
      attempt := s.step.attempt, addr := addr, detail := detail, flags := if groom then flags ||| 1 else flags }
  if groom && !s.boot.rails then
    if s.heat.groomLog.length < 256 then { s with heat := { s.heat with groomLog := s.heat.groomLog ++ [r] } } else s
  else { s with err := s.err.report r }

/-- INSTANCE of a logical tile (R735). -/
def State.tileInst (s : State) (t : Nat) : Nat :=
  match s.pkg.map[t]? with
  | some e => t + 256 * e.slot + 65536 * (t / 12)
  | none => t

/-- INSTANCE of a slot that holds no logical tile (R735). -/
def slotInst (sl : Nat) : Nat := 0xFF + 256 * (sl % 13) + 65536 * (sl / 13)

/-- The logical tile bound to a physical slot. -/
def State.tileOfSlot (s : State) (sl : Nat) : Option Nat :=
  (List.range 12).map (12 * (sl / 13) + ·) |>.find? fun t => s.slotOf t == some sl

/-- INSTANCE of a physical slot (R735). -/
def State.slotInst (s : State) (sl : Nat) : Nat :=
  match s.tileOfSlot sl with
  | some t => s.tileInst t
  | none => Sys2Proof.Machine.slotInst sl

/-! ### Requests of Tarilama -/

/-- A 64-bit counter that stops at its largest value. -/
def sat64 (a b : Nat) : Nat := satAdd 64 a b

/-- The next number of a series that skips 0 (R488). -/
def nextWseq (w : Nat) : Nat := if w = 2 ^ 32 - 1 then 1 else w + 1

/-- The last number of a series before the next one, 0 when none has been given. -/
def prevWseq (next : Nat) (wrapped : Bool) : Nat := if next = 1 then (if wrapped then 2 ^ 32 - 1 else 0) else next - 1

/-- Whether an operation is numbered (R476). -/
def numberedOp (op : Nat) : Bool := op ≠ 1

/-- The numbered requests outstanding at a home (R488). -/
def State.outstanding (s : State) (d : Nat) : Nat :=
  (s.fab.reqs.filter fun r => r.pkt.dst == d && r.pkt.wseq ≠ 0 && r.hold ≠ some 0).length

/-- Sends a request once more, or for the first time (R484), with the count of retries made (R475, R502): it goes nowhere
while this device has no number (R467) or the path to the home may not be selected (R537). -/
def State.transmit (s : State) (r : Req) : State :=
  let flags := if r.tries = 0 then r.pkt.flags else r.pkt.flags ||| 2
  let pkt := { r.pkt with flags := flags, aux2 := r.pkt.aux2 % 65536 + 65536 * min 255 r.retries }
  let upd (s : State) (path t : Nat) : State := { s with fab := { s.fab with reqs := s.fab.reqs.map fun q =>
    if q.num = r.num then
      { q with pkt := { pkt with path := path }, hold := none, sentAt := s.now, tries := q.tries + t
               first := some (q.first.getD s.now) }
    else q } }
  match s.pathTo r.pkt.dst with
  | some k =>
    if !s.fab.numbered then upd s r.pkt.path 0
    else
      let s := upd s k 1
      let s := s.sendPkt pkt
      { s with obs := { s.obs with
          fabReqs := sat64 s.obs.fabReqs (if r.tries = 0 then 1 else 0)
          fabTx := sat64 s.obs.fabTx r.pkt.data.length } }
  | none => upd s r.pkt.path 0

/-- Makes a request to a home and sends it, unless the window of 1,024 is full or an earlier numbered request to that
home is held (R488, R502): it then waits with hold 0. All requests to a home wait while a path to it is chosen (R485). A
forwarded request keeps its stamp (R472). -/
def State.sendReq (s : State) (dst op addr : Nat) (data : Bytes) (key aux flags aux2 : Nat) (why : Purpose)
    (stamp : Option (Nat × Nat) := none) (msg : Option Msg := none) : State :=
  let p := s.peer dst
  let num := numberedOp op
  let st := stamp.getD (s.stepNo % 65536, s.step.attempt)
  let pkt : Pkt :=
    { op := op, src := s.fab.device, path := p.path, srcEpoch := s.flash.bootEpoch, dst := dst, dstEpoch := p.epoch
      wseq := if num then p.nextW else 0
      rseq := if num then p.rseq else prevWseq p.nextW p.wrapped
      reqId := s.fab.nextReq % 65536, key := key, step := st.1, attempt := st.2
      flags := flags, addr := addr, aux := aux, aux2 := aux2, data := data, msg := msg }
  let blocked := num && (1024 ≤ s.outstanding dst ||
    s.fab.reqs.any fun r => r.pkt.dst == dst && r.pkt.wseq ≠ 0 && (r.hold.isSome || r.routeHold))
  let route := s.fab.reqs.any fun r => r.pkt.dst == dst && r.routeHold
  let r : Req := { num := s.fab.nextReq, pkt := pkt, why := why, born := s.now, sentAt := s.now, wait := 1000 * s.fab.rtoUs
                   hold := if blocked then some 0 else none, routeHold := route }
  let s := if num then s.onPeer dst fun p =>
    { p with nextW := nextWseq p.nextW, wrapped := p.wrapped || p.nextW = 2 ^ 32 - 1 } else s
  let s := { s with fab := { s.fab with reqs := s.fab.reqs ++ [r], nextReq := s.fab.nextReq + 1 } }
  if blocked || route then s else s.transmit r

/-- Sends a REDUCE or LEDGER request (R353, R467, R476, R484): a numbered one, with the key of the drain's writes, to the
device's own offset 0 (DESIGN CHOICE, log 65). A message to this device itself is no packet (R469, log 20). -/
def State.say (s : State) (dst op aux : Nat) (m : Msg) (data : Bytes := []) (stamped : Bool := true) : State :=
  if dst = s.fab.device then s.send (.own op aux m data (s.stepNo % 65536) s.step.attempt)
  else s.sendReq dst op (2 ^ 62 + 2 ^ 44 * dst) data s.fab.drainKey aux (b2n stamped) 0 .msg none (some m)

/-! ### Stops and repeats -/

/-- The device asks its lead for a repeat with cause DEVICE (R363): once for each attempt (R753), while a step runs.
A fault met while SWAPPING is for the next step. Ledger message kind 1 asks for a repeat. -/
def State.requestRepeat (s : State) (cause : Nat := 8) : State :=
  if s.hal.job = 2 && s.step.st = 3 then { s with step := { s.step with afterSwap := true } }
  else if s.hal.job = 2 && !s.step.requested then
    State.say { s with step := { s.step with requested := true } } s.red.leadDev 0x41 1
      (.ledger [s.fab.device, s.stepNo, s.step.attempt, cause])
  else s

/-- The job state changes (R579). -/
def State.setJob (s : State) (job : Nat) : State := { s with hal := { s.hal with job := job, jobSince := s.now } }

/-- A running job halts (R579). -/
def State.halt (s : State) : State := if s.hal.job = 2 then s.setJob 3 else s

/-- The group of a sequencer fault (R748): true for A, whose faults halt the job. -/
def faultHalts (code : Nat) : Bool := code = 0x10D || code = 0x10E || code = 0x10F

/-- Drops the commands that have not begun (R151). -/
def Tile.discard (x : Tile) : Tile :=
  { x with mxq := x.mxq.filter (·.st ≠ 0), panq := x.panq.filter (·.st ≠ 0), fabq := x.fabq.filter (·.st ≠ 0)
           vwait := [] }

/-- A command or instruction of tile `t` faults (R151, R748): the sequencer stops, what had not begun is discarded,
and Dorlen acts by the fault's group. `addr` is the command record's local-store offset, `op` its opcode. -/
def State.fault (s : State) (t code : Nat) (addr : Nat := 0) (op : Nat := 0) : State :=
  let s := s.onTile t fun x => { x.discard with seq := .fault code, since := s.now }
  let s := match s.slotOf t with
    | some sl => s.onSlot sl fun e => { e with faults := satAdd 16 e.faults 1 }
    | none => s
  let s := s.report (if faultHalts code then 5 else 4) 1 code (s.tileInst t) 0 (addr + 2 ^ 32 * op)
  if faultHalts code then
    let s := s.raise { code := 0x11, payload := [t, code, addr] }
    State.halt { s with step := { s.step with withheld := true } }
  else s.requestRepeat

/-- Whether a tile's sequencer may issue: it runs and is not held (R43, R151). -/
def State.mayIssue (s : State) (t : Nat) : Bool := (s.tile t).seq == .run && !(s.tile t).held

/-- A completion post of tile `t` (R145, R358). -/
def State.post (s : State) (t : Nat) : State := s.onTile t fun x => { x with comp := (x.comp + 1) % 2 ^ 32 }

/-- Posts where a record's DONE bit is set (R145). -/
def State.postIf (s : State) (t : Nat) (rcd : Bytes) : State := if bit (field rcd 0 2) 15 then s.post t else s

/-! ### Counter sets -/

/-- Adds counts to a counter set, each stopping at its largest value (R124, R125). -/
def satCounts (a b : EncCounts) : EncCounts :=
  let m := 2 ^ 64 - 1
  let c := a.add b
  { zeroBlocks := min m c.zeroBlocks, zeroed := min m c.zeroed, sat := min m c.sat, satBlocks := min m c.satBlocks
    widen46 := min m c.widen46, widen68 := min m c.widen68, widenFull := min m c.widenFull
    nanBlocks := min m c.nanBlocks, malformed := min m c.malformed, blocks := min m c.blocks }

/-- Adds counts to counter set `k`; a widened block takes an index (R107, R110). -/
def State.count (s : State) (k : Nat) (c : EncCounts) : State :=
  { s with fmt := Tbl.upd {} s.fmt k fun f =>
      { cnt := satCounts f.cnt c, next := (f.next + c.widenTaken) % 2 ^ 32 } }

/-- WIDEN_NEXT of counter set `k`. -/
def State.widenNext (s : State) (k : Nat) : Nat := (Tbl.get {} s.fmt k).next

/-! ### Operation counters -/

/-- Adds to the operation counters of tile `t`, each stopping at its largest value (R808). -/
def State.onOps (s : State) (t : Nat) (f : TileOps → TileOps) : State := s.onTile t fun x => { x with ops := f x.ops }

end Sys2Proof.Machine
end

