-- ==== Sys2Proof/Machine/Counters.lean ====
section
/-! DEFINITION. Writes of the clearing registers: FMT_CNT_CLEAR (R126, R127) and OPS_CLEAR (R810, R811). -/

namespace Sys2Proof.Machine

/-- FMT_CNT_CLEAR_COUNTS (R126, R127). -/
def execFmtCntClearCounts (k : Fin 256) (s : State) : Out :=
  .next { s with fmt := Tbl.upd {} s.fmt k.val fun f => { f with cnt := {} } }

/-- FMT_CNT_CLEAR_ALLOC (R112, R126). -/
def execFmtCntClearAlloc (k : Fin 256) (s : State) : Out :=
  .next { s with fmt := Tbl.upd {} s.fmt k.val fun f => { f with next := 0 } }

/-- Clears TILE_OPS of every tile (R810, R811): a Periscope latch in the same tick still finds what they held. What the tick
counted before the clear counts as before it (DESIGN CHOICE, log 109). -/
def State.clearTileOps (s : State) : State :=
  let was := (List.range 192).map fun t => (s.tile t).ops
  (List.range 192).foldl (fun s t => s.onOps t fun _ => {}) { s with obs := { s.obs with tilesWas := some (s.now, was) } }

/-- Clears DEV_OPS (R810, R811), likewise. -/
def State.clearDevOps (s : State) : State :=
  { s with obs := { s.obs with
    devWas := some (s.now, s.obs.hbmRd ++ s.obs.hbmWr ++ [s.obs.fabTx, s.obs.fabRx, s.obs.fabReqs, s.obs.homeReqs])
    hbmRd := List.replicate 6 0, hbmWr := List.replicate 6 0, fabTx := 0, fabRx := 0, fabReqs := 0, homeReqs := 0 } }

/-- OPS_CLEAR_TILES (R810, R811). -/
def execOpsClearTiles (s : State) : Out := .next s.clearTileOps

/-- OPS_CLEAR_DEVICE (R810, R811). -/
def execOpsClearDevice (s : State) : Out := .next s.clearDevOps

end Sys2Proof.Machine
end

