-- ==== Sys2Proof/Machine/MemCode.lean ====
section
/-! DEFINITION. The memory code of the HBM (R385 to R391): 72 symbols over GF(2^8), four check symbols, the address
tag, and what a read makes of a codeword with symbols in error; the code of the SRAM words (R743). -/

namespace Sys2Proof.Machine

/-- Multiplication by alpha in GF(2^8) with polynomial 0x11D (R386). -/
def gfX (a : Nat) : Nat := if 128 ≤ a then (2 * a) ^^^ 0x11D else 2 * a

/-- Multiplication in GF(2^8): `n` bits of `b` still to take. -/
def gfMulN : Nat → Nat → Nat → Nat
  | 0, _, _ => 0
  | n + 1, a, b => (if b % 2 = 1 then a else 0) ^^^ gfMulN n (gfX a) (b / 2)

/-- Multiplication in GF(2^8). -/
def gfMul (a b : Nat) : Nat := gfMulN 8 a b

/-- alpha^n. -/
def gfPow : Nat → Nat
  | 0 => 1
  | n + 1 => gfX (gfPow n)

/-- The value at alpha^j of the polynomial whose coefficients are given highest first (R386). -/
def gfEval (j : Nat) (c : List Nat) : Nat := c.foldl (fun a s => gfMul a (gfPow j) ^^^ s) 0

/-- One step of the division by g(x) = (x+1)(x+a)(x+a^2)(x+a^3): the remainder after one more symbol. The generator's
coefficients below x^4 are 15, 54, 120, 64. -/
def rsStep (r : List Nat) (s : Nat) : List Nat :=
  match r with
  | [a, b, c, d] =>
    let f := a ^^^ s
    [b ^^^ gfMul f 15, c ^^^ gfMul f 54, d ^^^ gfMul f 120, gfMul f 64]
  | r => r

/-- The four check symbols of 68 symbols (R385, R386). -/
def rsCheck (d : List Nat) : List Nat := d.foldl rsStep [0, 0, 0, 0]

/-- What the decoder makes of a codeword (R387). -/
inductive CodeOutcome where
  | clean
  | corrected (symbol value : Nat)
  | uncorrectable
  deriving DecidableEq, Repr

/-- Decodes 72 symbols: no error, one symbol corrected, or uncorrectable (R387). -/
def rsDecode (c : List Nat) : CodeOutcome :=
  let s0 := gfEval 0 c
  let s1 := gfEval 1 c
  let s2 := gfEval 2 c
  let s3 := gfEval 3 c
  if s0 = 0 ∧ s1 = 0 ∧ s2 = 0 ∧ s3 = 0 then .clean
  else match (List.range 72).find? fun i =>
      let x := gfPow (71 - i)
      s0 ≠ 0 && s1 == gfMul s0 x && s2 == gfMul s1 x && s3 == gfMul s2 x with
    | some i => .corrected i ((nth c i 0) ^^^ s0)
    | none => .uncorrectable

/-- The address tag of the unit at offset `o` of stack `n` (R389). -/
def atag (n o : Nat) : Nat :=
  let u := n * 2 ^ 30 + o / 64
  (u % 2 ^ 16) ^^^ (bits u 31 16) ^^^ (if bit u 32 then 0x8000 else 0)

/-- The metadata bytes of a unit (R388): tag, POISON and DIRTY, FMT. -/
def metaBytes (tag : Nat) (poison dirty : Bool) (fmt : Nat) : List Nat :=
  [tag % 256, tag / 256 % 256, b2n poison + 2 * b2n dirty, fmt % 256]

/-- The codeword of a unit: 64 data bytes, metadata, check symbols (R385). -/
def codeword (data : Bytes) (md : List Nat) : List Nat :=
  let d := data.map BitVec.toNat ++ md
  d ++ rsCheck d

/-- A codeword with an error pattern of symbols applied. -/
def withErrors (c : List Nat) (errs : List (Nat × Nat)) : List Nat :=
  errs.foldl (fun c e => setAt c e.1 (fun x => (x ^^^ e.2) % 256)) c

/-! ### SRAM words (R743): 32 data and 3 check symbols, generator (x+1)(x+a)(x+a^2) -/

/-- The syndrome at alpha^j of a word with symbols in error: the code is linear, so the errors alone give it. -/
def sramSyn (l : List (Fin 35 × Byte)) (j : Nat) : Nat :=
  l.foldl (fun a e => a ^^^ gfMul e.2.toNat (gfPow (j * (34 - e.1.val)))) 0

/-- What the code finds (R743): 0 no error, 1 one symbol, which is corrected, 2 an uncorrectable word. -/
def sramFinds (l : List (Fin 35 × Byte)) : Nat :=
  let s0 := sramSyn l 0
  let s1 := sramSyn l 1
  let s2 := sramSyn l 2
  if s0 = 0 ∧ s1 = 0 ∧ s2 = 0 then 0
  else if (List.range 35).any fun k => s0 ≠ 0 && s1 == gfMul s0 (gfPow k) && s2 == gfMul s1 (gfPow k) then 1
  else 2

/-- Whether a command meets an uncorrectable word after `n` rows (R744). -/
def sramStops (x : Sram) (n : Nat) : Bool :=
  match x with
  | .clean => false
  | .word l k => sramFinds l == 2 && k == n

end Sys2Proof.Machine
end

