-- ==== Sys2Proof/Machine/Cells.lean ====
section
/-! DEFINITION. The HBM's cells (07): where a unit lies in its channel (R377 to R379, R404, R412), its metadata, the
classes of fault (R399 to R405, R411), and reads under the memory code (R385 to R391, R397). -/

namespace Sys2Proof.Machine

/-! ### Places in a channel -/

/-- Capacity of a channel (R374). -/
def chanCap : Nat := if Config.sh2_216 then 9 * 2 ^ 28 else 3 * 2 ^ 30

/-- The retirement record's entry of channel m. -/
def State.chanRec (s : State) (m : Nat) : ChanRec := Tbl.get {} s.flash.chans m
/-- Channel m's controller. -/
def State.chan (s : State) (m : Nat) : Chan := Tbl.get {} s.hbm.chans m
/-- Changes channel m's controller. -/
def State.onChan (s : State) (m : Nat) (f : Chan → Chan) : State :=
  { s with hbm := { s.hbm with chans := Tbl.upd {} s.hbm.chans m f } }
/-- Changes channel m's retirement record. -/
def State.onChanRec (s : State) (m : Nat) (f : ChanRec → ChanRec) : State :=
  { s with flash := { s.flash with chans := Tbl.upd {} s.flash.chans m f } }

/-- The channels of stack n in service, ascending (R412). -/
def State.service (s : State) (n : Nat) : List Nat :=
  (List.range 16).filter fun k => !(s.chanRec (16 * n + k)).mappedOut

/-- HBM_STACK_n.TOP (R406, R413, R417, R422). -/
def State.top (s : State) (n : Nat) : Nat :=
  let sv := s.service n
  let j := sv.length
  if j < 8 then 0
  else j * chanCap - (sv.map fun k => (s.chanRec (16 * n + k)).retired).foldl max 0 * 2 * j * 2048

/-- The channel m that holds the byte at an HBM offset (R377, R412). -/
def State.chanAt (s : State) (a : Nat) : Nat :=
  let n := a / 2 ^ 36
  let sv := s.service n
  16 * n + nth sv (a % 2 ^ 36 / 2048 % sv.length) 0

/-- The byte's offset within its channel (R378, R412). -/
def State.chanOff (s : State) (a : Nat) : Nat :=
  a % 2 ^ 36 / 2048 / (s.service (a / 2 ^ 36)).length * 2048 + a % 2048

/-- The row of a channel offset: chunk and pseudo-channel (R379). -/
def rowOf (off : Nat) : Nat := off / 2048 * 2 + off / 256 % 2

/-- The unit metadata at an HBM address. -/
def State.unitAt (s : State) (a : Nat) : UnitMeta := Tbl.get {} s.hbm.unitMeta (a / 64)

/-- Changes the metadata of the unit at an HBM address. -/
def State.onUnit (s : State) (a : Nat) (f : UnitMeta → UnitMeta) : State :=
  { s with hbm := { s.hbm with unitMeta := Tbl.upd {} s.hbm.unitMeta (a / 64) f } }

/-- The physical channel offset of a channel offset, through the remap table (R404). -/
def State.physOff (s : State) (m off : Nat) : Nat :=
  match (s.chanRec m).remap.find? fun r => r.1 == off / 4096 with
  | some r => r.2 * 4096 + off % 4096
  | none => off

/-- The page of a channel's own offsets that a page of its cells holds: the inverse of the remap table (R404). -/
def State.logicalPage (s : State) (m pg : Nat) : Nat :=
  match (s.chanRec m).remap.find? fun r => r.2 == pg with
  | some r => r.1
  | none => pg

/-- The HBM address of a channel offset of a channel in service: the inverse of R412. -/
def State.chanAddr (s : State) (m off : Nat) : Nat :=
  let sv := s.service (m / 16)
  m / 16 * 2 ^ 36 + (off / 2048 * sv.length + sv.idxOf (m % 16)) * 2048 + off % 2048

/-- Whether a row is served from its shadow (R402). -/
def State.shadowed (s : State) (m row : Nat) : Bool :=
  (s.chanRec m).shadows.contains row || (s.chan m).shadowing.contains row

/-! ### Failures -/

/-- A channel is to be mapped out (R411): it is FAILING, and a repeat is requested; with no step running the map-out has
begun (DEDUCED, log 15). -/
def State.failChannel (s : State) (m : Nat) : State :=
  if (s.chan m).failing || (s.chanRec m).mappedOut then s
  else
    let s := (s.onChan m fun c => { c with failing := true }).report 4 4 0x30A m
    s.requestRepeat

/-- A channel failure (R399, R409): the host is asked in host-assisted mode. REPAIR_REQUEST carries the channel, kind 1,
0 and the allowed decisions. -/
def State.channelFailure (s : State) (m : Nat) : State :=
  if (s.chan m).failing || (s.chanRec m).mappedOut then s
  else if s.assisted 0 then s.request (.channel m) 0x80 [m, 1, 0, 0xC]
  else s.failChannel m

/-- A page retirement begins or is queued (R404, R405); a 65th fails the channel (R399). -/
def State.pageRetire (s : State) (m pg : Nat) : State :=
  let c := s.chan m
  if c.retiring.contains pg then s
  else if 64 ≤ (s.chanRec m).retired + c.retiring.length then s.channelFailure m
  else if 17 ≤ c.retiring.length then s.report 0 4 0x307 m (s.chanAddr m (4096 * pg))
  else s.onChan m fun c => { c with retiring := c.retiring ++ [pg] }

/-- A row is shadowed (R402), or its page retired where the failure is permanent (R399). -/
def State.shadowRow (s : State) (m off : Nat) : State :=
  let row := rowOf (s.physOff m off)
  let r := s.chanRec m
  if s.shadowed m row then s
  else if r.repaired.contains row || 16 ≤ r.shadows.length + (s.chan m).shadowing.length ||
      !Config.bankSpare m row (r.repaired ++ r.shadows ++ (s.chan m).shadowing) then s.pageRetire m (off / 4096)
  else
    (s.report 3 4 0x304 m (s.chanAddr m off)).onChan m fun c => { c with shadowing := c.shadowing ++ [row] }

/-- A row failure (R399, R402, R409): more than 16 within 1 s fail the channel. -/
def State.rowFailure (s : State) (m off : Nat) : State :=
  let now := s.now
  let s := s.onChan m fun c =>
    { c with rowFails := (c.rowFails.filter fun x => now - x ≤ 1000000000) ++ [now] }
  let s := if s.assisted 0 then s.request (.row m off) 0x80 [m, 0, off, 7] else s.shadowRow m off
  if 16 < (s.chan m).rowFails.length then s.channelFailure m else s

/-- What the host or the deadline decides of a row: 0 SHADOW, 1 RETIRE, 2 LEAVE (R409). -/
def State.rowDecision (s : State) (m off d : Nat) : State :=
  if d = 0 then s.shadowRow m off else if d = 1 then s.pageRetire m (off / 4096) else s

/-! ### Reads under the memory code -/

/-- The codeword that a read of the unit at HBM address `a` returns, from another unit where a decoder fault sends it
there, with symbols changed. -/
def State.readCode (s : State) (a : Nat) (wrong : Option Nat) (flips : List (Nat × Nat)) : List Nat :=
  let b := wrong.getD a / 64 * 64
  let u := s.unitAt b
  withErrors (codeword (Tbl.getList 0 s.hbm.bytes b 64) (metaBytes (atag (b / 2 ^ 36) (b % 2 ^ 36)) u.poison u.dirty u.fmt))
    flips

/-- A unit written back from a codeword's data and metadata. -/
def State.putCode (s : State) (a : Nat) (c : List Nat) (poison : Bool) : State :=
  let f := nth c 66 0
  let s := { s with hbm := { s.hbm with bytes := Tbl.setList 0 s.hbm.bytes a ((c.take 64).map (BitVec.ofNat 8)) } }
  s.onUnit a fun _ => { poison := poison || bit f 0, dirty := bit f 1, fmt := nth c 67 0 }

/-- A unit is found uncorrectable: it is poisoned and its row fails (R391, R399, R861); the partner whose buddy copy holds
it, if any, is told (R453). -/
def State.unitLost (s : State) (m off a : Nat) (c : List Nat) : State :=
  let s := (s.putCode a c true).onChan m fun x => { x with uncorr := satAdd 16 x.uncorr 1 }
  let s := match Config.buddyOf (BitVec.ofNat 44 a) with
    | some d => if s.fab.numbered then s.send (.buddyPoison d.toNat a) else s
    | none => s
  (s.report 3 4 0x303 m a off).rowFailure m off

/-- A unit is corrected and written back; a second corrected error of its row within 24 h is a row failure (R397, R399).
DETAIL is the channel offset and the symbol. -/
def State.unitFixed (s : State) (m off a sym : Nat) (c : List Nat) : State :=
  let now := s.now
  let row := rowOf (s.physOff m off)
  let old := (Tbl.get [] (s.chan m).rowErrs row).filter fun x => now - x ≤ 86400000000000
  let s := (s.putCode a c false).onChan m fun x =>
    { x with corrected := satAdd 32 x.corrected 1, rowErrs := Tbl.set [] x.rowErrs row (old ++ [now]) }
  let s := s.report 1 4 0x301 m a (off + 2 ^ 64 * sym)
  if old.isEmpty then s else s.rowFailure m off

/-- A codeword decoded (R387): data and metadata with the symbol corrected, if any; none when uncorrectable. -/
def decodeCode (c : List Nat) : Option (List Nat × Option Nat) :=
  match rsDecode c with
  | .clean => some (c, none)
  | .corrected i v => some (setAt c i fun _ => v, some i)
  | .uncorrectable => none

/-- Whether a codeword's tag is that of its address (R389, R390). -/
def tagOk (a : Nat) (c : List Nat) : Bool := nth c 64 0 + 256 * nth c 65 0 == atag (a / 2 ^ 36) (a % 2 ^ 36)

/-- What a read finds in the unit at HBM address `a` (R387, R390, R391, R397). A row in its shadow and a channel that
fails meet no errors of the stack. -/
def State.readUnit (s : State) (a : Nat) (e : UnitErr) : State :=
  let m := s.chanAt a
  let off := s.chanOff a
  if (s.chan m).failing || s.shadowed m (rowOf (s.physOff m off)) then s
  else
    let c1 := s.readCode a e.wrong e.flips
    match decodeCode c1 with
    | none => s.unitLost m off a c1
    | some (d, fix) =>
      if tagOk a d then match fix with
        | none => s
        | some i => s.unitFixed m off a i d
      else
        let c2 := s.readCode a e.wrong2 e.flips2
        match decodeCode c2 with
        | none => s.unitLost m off a c2
        | some (d2, fix2) =>
          if tagOk a d2 then
            let s := (s.onChan m fun x => { x with tagErrs := satAdd 16 x.tagErrs 1 }).report 2 4 0x302 m a
            match fix2 with
            | none => s
            | some i => s.unitFixed m off a i d2
          else s.unitLost m off a d2

/-- A read of `n` bytes of HBM at `a` meets the errors given. -/
def State.readErrs (s : State) (a n : Nat) (errs : List UnitErr) : State :=
  errs.foldl (fun s e =>
    if 64 * e.unit < n + a % 64 then s.readUnit (a / 64 * 64 + 64 * e.unit) e else s) s

/-! ### Symbols changed in the cells (R385, R387) -/

/-- Makes the symbols of the unit at an HBM address those that were written. -/
def State.cleanCell (s : State) (a : Nat) : State :=
  { s with hbm := { s.hbm with flips := Tbl.set [] s.hbm.flips (a / 64) [] } }

/-- Symbols of the unit at an HBM address change. -/
def State.disturb (s : State) (a : Nat) (flips : List (Nat × Nat)) : State :=
  { s with hbm := { s.hbm with flips := Tbl.upd [] s.hbm.flips (a / 64) (· ++ flips) } }

/-- The read of one unit whose cells hold changed symbols: what the memory code makes of it stands in the unit from then
on (R391, R397). A codeword changed into another codeword of the same tag reads as that. -/
def State.meetCell (s : State) (a : Nat) (flips : List (Nat × Nat)) : State :=
  let m := s.chanAt a
  if (s.chan m).failing || s.shadowed m (rowOf (s.physOff m (s.chanOff a))) then s
  else
    let c := s.readCode a none flips
    let s := s.cleanCell a
    if rsDecode c = .clean ∧ tagOk a c then s.putCode a c false
    else s.readUnit a { unit := 0, flips := flips, flips2 := flips }

/-- A read or a merge decodes every unit of the `n` bytes of HBM at `a` (R382, R387). -/
def State.decodeAt (s : State) (a n : Nat) : State :=
  (s.hbm.flips.filter fun e => a / 64 ≤ e.1 && 64 * e.1 < a + n).foldl (fun s e => s.meetCell (64 * e.1) e.2) s

end Sys2Proof.Machine
end

