-- ==== Sys2Proof/Machine/Mem.lean ====
section
/-! DEFINITION. The local offset space (R58), the HBM with its channels (R377, R412) and unit metadata (R388 to R395),
the tiered range (R425 to R429), the Tandem views (R241 to R245), local stores and accumulator windows, and the
sending of a Tarilama request. -/

namespace Sys2Proof.Machine

/-! ### The map (R58) -/

/-- Base of the unified tiered range, of the local-store windows, of the accumulator windows, of the control area. -/
def tierBase : Nat := 0x040000000000
/-- Base of the local-store windows. -/
def lsBase : Nat := 0x080000000000
/-- Base of the accumulator windows. -/
def accBase : Nat := 0x090000000000
/-- Base of the control area. -/
def ctlBase : Nat := 0x0A0000000000
/-- Bytes of a populated local store. -/
def lsSize : Nat := 0x300000

/-- Whether a range lies in the populated part of an HBM window. -/
def State.inHbm (s : State) (a n : Nat) : Bool :=
  a < 6 * 2 ^ 36 && (a + n - 1) / 2 ^ 36 == a / 2 ^ 36 && a % 2 ^ 36 + n ≤ s.top (a / 2 ^ 36)

/-- Whether a range lies in populated HBM outside the movable band, the top sixteenth of its stack (R59, R407). -/
def State.fixedHbm (s : State) (a n : Nat) : Bool := 0 < n && s.inHbm a n && a % 2 ^ 36 + n ≤ 15 * chanCap

/-- Whether a range lies in the tiered range, wherever its pages live. -/
def inTier (a n : Nat) : Bool := tierBase ≤ a && a + n ≤ lsBase

/-- The page-table entry of a page. -/
def State.page (s : State) (p : Nat) : Page := Tbl.get {} s.tier.pages p
/-- A page-table entry in 16 bytes (R426). -/
def pageBytes (e : Page) : Bytes :=
  toBytes 4 (e.st + 8 * b2n e.pin + 16 * b2n e.stay + 32 * b2n e.buddy + 256 * e.frame) ++ toBytes 4 e.key ++
    toBytes 8 e.home

/-- The page of a tiered offset (R425). -/
def pageOf (a : Nat) : Nat := (a - tierBase) >>> 21
/-- The granule of a tiered offset within its page (R425). -/
def granOf (a : Nat) : Nat := a / 65536 % 32

/-- Whether no page of a tiered range is ABSENT (R429). -/
def State.tierMapped (s : State) (a n : Nat) : Bool :=
  inTier a n && (List.range (pageOf (a + n - 1) + 1 - pageOf a)).all fun i => (s.page (pageOf a + i)).st ≠ 0

/-- Whether a range lies in a populated local-store window, and of which tile (R60). -/
def lsAt (a n : Nat) : Option (Nat × Nat) :=
  if lsBase ≤ a && a < lsBase + 192 * 0x400000 && (a - lsBase) % 0x400000 + n ≤ lsSize
  then some ((a - lsBase) / 0x400000, (a - lsBase) % 0x400000) else none

/-- Whether a range lies in a populated accumulator window, and of which tile (R61). -/
def accAt (a n : Nat) : Option (Nat × Nat) :=
  if accBase ≤ a && a < accBase + 192 * 0x100000 && (a - accBase) % 0x100000 + n ≤ 0x80000
  then some ((a - accBase) / 0x100000, (a - accBase) % 0x100000) else none

/-- Whether a window's tile is backed by a slot: an UNBACKED tile's windows are refused (R53; DEDUCED, log 13). -/
def State.backed (s : State) (w : Option (Nat × Nat)) : Bool :=
  match w with
  | some p => (s.slotOf p.1).isSome
  | none => false

/-- Whether an access to a range is not refused by R62. -/
def State.mapped (s : State) (a n : Nat) : Bool :=
  s.inHbm a n || s.tierMapped a n || s.backed (lsAt a n) || s.backed (accAt a n)

/-! ### Tandem views (R241 to R245) -/

/-- Whether a range meets a view. -/
def overlaps (a n b m : Nat) : Bool := a < b + m && b < a + n && 0 < n && 0 < m

/-- Whether a range meets the active or the update view. -/
def State.meetsActive (s : State) (a n : Nat) : Bool :=
  s.step.enabled && overlaps a n s.step.viewA (65536 * s.step.units)
/-- Whether a range meets the update view. -/
def State.meetsUpdate (s : State) (a n : Nat) : Bool :=
  s.step.enabled && overlaps a n s.step.viewU (65536 * s.step.units)
/-- Whether a range meets either view. -/
def State.meetsViews (s : State) (a n : Nat) : Bool := s.meetsActive a n || s.meetsUpdate a n

/-- Whether a write is refused by R245. -/
def State.tandemRefuses (s : State) (a n : Nat) : Bool :=
  if s.step.st = 0 then s.meetsUpdate a n else s.meetsActive a n

/-- The storage that a byte of either view reaches (R243), a write to the update view reaching its own copy. -/
def State.storage (s : State) (a : Nat) (write : Bool) : Nat :=
  let st := s.step
  if !st.enabled then a
  else
    let w := 65536 * st.units
    let pick (act : Bool) (off : Nat) : Nat := (if act then st.viewU else st.viewA) + off
    if st.viewA ≤ a && a < st.viewA + w then
      let o := a - st.viewA
      pick (Tbl.get false st.active (o / 65536)) o
    else if st.viewU ≤ a && a < st.viewU + w then
      let o := a - st.viewU
      let act := Tbl.get false st.active (o / 65536)
      if (write && st.st ≠ 0) || Tbl.get false st.written (o / 65536) then pick (!act) o else pick act o
    else a

/-! ### Where a unit lives -/

/-- Where the storage of an address lives. -/
inductive Phys where
  | hbm (a : Nat)
  | ls (t o : Nat)
  | acc (t o : Nat)
  | far (page home key : Nat)
  | fill (page : Nat)
  | off
  | none
  deriving DecidableEq, Repr

/-- The page move that fills a page, if any. -/
def State.moveOf (s : State) (p : Nat) : Option Move := s.tier.moves.find? fun m => m.page == p

/-- Whether the region of tile t is powered; a region that is not has lost its SRAM (R620, R650). -/
def State.powered (s : State) (t : Nat) : Bool := (nth s.pwr.regions (t / 12) {}).on

/-- Where a storage address lives, to a write or a read (R429, R432): a granule on its way to a frame holds writes, and
reads behind them. A page that a re-seed has yet to copy lives at its old home (R452; DEDUCED, log 99). -/
def State.phys (s : State) (a : Nat) (write : Bool := false) : Phys :=
  if s.inHbm a 1 then .hbm a
  else if inTier a 1 then
    let p := pageOf a
    let e := s.page p
    let here := Phys.hbm (nth s.tier.frames e.frame 0 + a % 2 ^ 21)
    let there := match s.tier.farOld.find? fun f => f.1 == p with
      | some f => Phys.far p (f.2.1 % 2 ^ 62 + a % 2 ^ 21) f.2.2
      | none => Phys.far p (e.home % 2 ^ 62 + a % 2 ^ 21) e.key
    match e.st with
    | 0 => .none
    | 1 => there
    | 3 => match s.moveOf p with
      | some m => if granOf a < m.arrived then here
        else if write || (m.writes.any fun w => granOf w.1 == granOf a) ||
            s.fab.queue.any (fun h => h.why == .granule p (granOf a)) then .fill p
        else there
      | none => there
    | _ => here
  else match lsAt a 1 with
    | some (t, o) => if s.powered t then .ls t o else .off
    | none => match accAt a 1 with
      | some (t, o) => if s.powered t then .acc t o else .off
      | none => .none

/-! ### Sending a Tarilama request -/

/-- The requests made from number `n` on that a write to a REMOTE page has caused serve a purpose (R429). -/
def State.claim (s : State) (n : Nat) (w : Purpose) : State :=
  { s with fab := { s.fab with reqs := s.fab.reqs.map fun r => if n ≤ r.num && r.why == .nobody && numberedOp r.pkt.op then
    { r with why := w } else r } }

/-- A string cut into parts of at most `n` bytes, with their offsets: `fuel` at least the length. -/
def cut (n : Nat) : Nat → Nat → Bytes → List (Nat × Bytes)
  | 0, _, _ => []
  | f + 1, o, b => if b.isEmpty then [] else (o, b.take n) :: cut n f (o + n) (b.drop n)

/-- MAX_PAYLOAD (R523). -/
def State.maxPayload (s : State) : Nat := if s.fab.max4k then 4096 else 1024

/-- The device of a global address and its local offset (R23). -/
def addrDev (a : Nat) : Nat := bits a 61 44
/-- The local offset of an address. -/
def addrOff (a : Nat) : Nat := a % 2 ^ 44
/-- The scope of an address. -/
def addrScope (a : Nat) : Nat := a / 2 ^ 62 % 4

/-- Whether an address is this device's own (R23, R469). In scope 0b00 the device bits are ignored (DESIGN CHOICE, log 91). -/
def State.isOwn (s : State) (a : Nat) : Bool :=
  addrScope a == 0 || (addrScope a == 1 && s.fab.numbered && addrDev a == s.fab.device)

/-- The granules of an HBM access move on the stack's channels (R809). -/
def State.countHbm (s : State) (a : Nat) (wr rd : Nat) : State :=
  let n := a / 2 ^ 36
  { s with obs := { s.obs with hbmWr := setAt s.obs.hbmWr n (sat64 · (256 * wr))
                               hbmRd := setAt s.obs.hbmRd n (sat64 · (256 * rd)) } }

/-! ### Reading and writing -/

/-- The parts of a string that lie within one `m`-aligned block each, from address `a`: `fuel` at least the length. -/
def blockCut (m : Nat) : Nat → Nat → Bytes → List (Nat × Bytes)
  | 0, _, _ => []
  | f + 1, a, b =>
    if b.isEmpty then [] else (a, b.take (m - a % m)) :: blockCut m f (a + (m - a % m)) (b.drop (m - a % m))

/-- The parts of a string that lie within one 64-byte unit each. -/
def unitCut (fuel a : Nat) (b : Bytes) : List (Nat × Bytes) := blockCut 64 fuel a b

/-- Granules of 256 bytes that a range meets. -/
def granules (a n : Nat) : Nat := if n = 0 then 0 else (a + n - 1) / 256 + 1 - a / 256

/-- A unit as a mover reads it: offset from the start of the run, bytes, poison, FMT. -/
abbrev MoveUnit := Nat × Bytes × Bool × Nat

/-- Joins the units of a run into packets of at most `lim` bytes: a poisoned unit travels alone, and a packet holds one
FMT (R395, R477). The packet under construction comes first. -/
def groupUnits (lim : Nat) (cur : Option MoveUnit) : List MoveUnit → List MoveUnit
  | [] => cur.toList
  | (o, b, p, f) :: t =>
    match cur with
    | some (o', b', p', f') =>
      if p || p' || f ≠ f' || o' + b'.length ≠ o || lim < b'.length + b.length then
        (o', b', p', f') :: groupUnits lim (some (o, b, p, f)) t
      else groupUnits lim (some (o', b' ++ b, p', f')) t
    | none => groupUnits lim (some (o, b, p, f)) t

/-- Sends the units of a run to another device as numbered writes (R444, R477, R480). -/
def State.sendUnits (s : State) (addr : Nat) (us : List MoveUnit) (lim key flags aux2 : Nat) (why : Purpose) : State :=
  (groupUnits lim none us).foldl (fun (s : State) (u : MoveUnit) =>
    s.sendReq (addrDev addr) 2 (addr + u.1) u.2.1 key u.2.2.2 (if u.2.2.1 then flags ||| 32 else flags) aux2 why) s

/-- Sends a write to another device: packets of at most `lim` bytes in ascending order (R480), or, poisoned, each unit
alone with POISON set (R160, R477). -/
def State.sendRun (s : State) (addr : Nat) (b : Bytes) (lim key fmt flags aux2 : Nat) (pois : Bool) (why : Purpose) :
    State :=
  let parts := if pois then (unitCut b.length addr b).map fun p => (p.1 - addr, p.2) else cut lim b.length 0 b
  parts.foldl (fun s p => s.sendReq (addrDev addr) 2 (addr + p.1) p.2 key fmt (if pois then flags ||| 32 else flags)
    aux2 why) s

/-- A write to another device in packets of at most MAX_PAYLOAD. -/
def State.sendWrite (s : State) (addr : Nat) (b : Bytes) (key fmt flags aux2 : Nat) (pois : Bool) (why : Purpose) :
    State := s.sendRun addr b s.maxPayload key fmt flags aux2 pois why

/-- Stores bytes within one HBM unit (R391, R394, R395): a write of part of a unit reads and corrects the rest (R382). A
FAILING channel discards the write (R411). `first` says that the access begins here, which costs its granule a transfer
(R380, R809). -/
def State.putHbm (s : State) (a : Nat) (b : Bytes) (fmt : Nat) (pois first : Bool) : State :=
  let m := s.chanAt a
  let whole := b.length == 64
  let s := if whole then s else s.decodeAt a b.length
  if (s.chan m).failing then s.onChan m fun c => { c with uncorr := satAdd 16 c.uncorr 1 }
  else
    let s := s.cleanCell a
    let h := { s.hbm with bytes := Tbl.setList 0 s.hbm.bytes a b }
    let s := State.onUnit { s with hbm := h } a fun u =>
      { poison := pois || (u.poison && !whole), dirty := true, fmt := fmt }
    s.countHbm a (b2n (first || a % 256 < 64)) (b2n (!whole))

/-! ### The tiers' books -/

/-- Changes a page-table entry, in both copies of the table (R426). -/
def State.onPage (s : State) (p : Nat) (f : Page → Page) : State :=
  let e := f (s.page p)
  let s := { s with tier := { s.tier with pages := Tbl.upd {} s.tier.pages p f } }
  if s.tier.tableBase = s.tier.tableMirror then s
  else (s.putHbm (s.tier.tableBase + 16 * p) (pageBytes e) 0 false true).putHbm (s.tier.tableMirror + 16 * p) (pageBytes e) 0
    false true

/-- Rewrites the unit of HBM at `a` from that at `b` where the first reads as poisoned and the second does not. -/
def State.mendUnit (s : State) (a b : Nat) : State :=
  let s := (s.decodeAt a 64).decodeAt b 64
  let bad (x : Nat) : Bool := (s.chan (s.chanAt x)).failing || (s.unitAt x).poison
  if bad a && !bad b then s.putHbm a (Tbl.getList 0 s.hbm.bytes b 64) (s.unitAt b).fmt false true else s

/-- The tiering engine reads a page's entry: a poisoned copy of it is rewritten from the other (R426). -/
def State.readEntry (s : State) (p : Nat) : State :=
  let a := s.tier.tableBase + 16 * p / 64 * 64
  let b := s.tier.tableMirror + 16 * p / 64 * 64
  if s.tier.tableBase = s.tier.tableMirror then s else (s.mendUnit a b).mendUnit b a

/-- A page without a frame takes its place in the heat table as the one last touched (R437): the table holds 16,384 entries,
and the page touched least recently gives way. -/
def State.heatEntry (s : State) (p : Nat) : State :=
  let o := (s.tier.heatOrder.filter fun q => q ≠ p && decide ((s.page q).st < 2)) ++ [p]
  if 16384 < o.length then
    { s with tier := { s.tier with heatOrder := o.drop 1, heat := Tbl.set 0 s.tier.heat (nth o 0 0) 0 } }
  else { s with tier := { s.tier with heatOrder := o } }

/-- Adds to a page's heat (R437). -/
def State.warm (s : State) (p n : Nat) : State :=
  let s := { s with tier := { s.tier with heat := Tbl.upd 0 s.tier.heat p (· + n) } }
  if 2 ≤ (s.page p).st then s else s.heatEntry p

/-- An access to a page reads its entry and adds to its heat (R426, R437). -/
def State.touch (s : State) (p n : Nat) : State := (s.readEntry p).warm p n

/-- Marks a granule of a resident page dirty (R442), keeping the time since which it has been dirty. -/
def State.markDirty (s : State) (p g : Nat) : State :=
  { s with tier := { s.tier with dirty := Tbl.upd 0 s.tier.dirty (32 * p + g) fun d => if d = 0 then s.now + 1 else d } }

/-- Stores bytes in a local store with the poison marks of R859. -/
def Tile.put (x : Tile) (o : Nat) (b : Bytes) (pois : Bool) : Tile :=
  let w0 := o / 32
  let n := (o + b.length + 31) / 32 - w0
  let marks := (List.range n).foldl (fun m i =>
    let w := w0 + i
    if pois then Tbl.set false m w true
    else if o ≤ 32 * w && 32 * w + 32 ≤ o + b.length then Tbl.set false m w false else m) x.marks
  { x with store := Tbl.setList 0 x.store o b, marks := if b.isEmpty then x.marks else marks }

/-- Reads a local store. -/
def Tile.get (x : Tile) (o n : Nat) : Bytes := Tbl.getList 0 x.store o n

/-- Whether a word of a range of a local store carries the poison mark. -/
def Tile.marked (x : Tile) (o n : Nat) : Bool :=
  n ≠ 0 && (List.range ((o + n + 31) / 32 - o / 32)).any fun i => Tbl.get false x.marks (o / 32 + i)

/-- Writes bytes of an accumulator window, elements of 4 bytes each. -/
def accPut (acc : Tbl Nat) : Nat → Nat → Bytes → Tbl Nat
  | 0, _, _ => acc
  | f + 1, o, b =>
    if b.isEmpty then acc
    else
      let k := o / 4
      let sh := 8 * (o % 4)
      let old := Tbl.get 0 acc k
      let v := old - old / 2 ^ sh % 256 * 2 ^ sh + (nth b 0 0).toNat * 2 ^ sh
      accPut (Tbl.set 0 acc k v) f (o + 1) (b.drop 1)

/-- Reads bytes of an accumulator window (R61). -/
def Tile.accGet (x : Tile) (o n : Nat) : Bytes :=
  (List.range n).map fun i => BitVec.ofNat 8 (Tbl.get 0 x.acc ((o + i) / 4) / 2 ^ (8 * ((o + i) % 4)))

/-- Whether a page's writes go on to the buddy (R448, R451, R452): its copy is kept, or already re-seeded. -/
def State.buddied (s : State) (p : Nat) : Bool :=
  (s.page p).buddy && (s.tier.buddySt == 1 || (s.tier.buddySt == 3 && p < s.tier.reseed))

/-- Stores within one 64 KiB block of storage, wherever it lives. A resident page's granule becomes dirty (R442) and a
buddied page's write goes on to the home in runs of up to 2 KiB (R448); a REMOTE page's goes there alone (R429); a
write to a granule of a FILLING page that has not arrived waits for it (R432). -/
def State.putSpan (s : State) (sp : Nat) (b : Bytes) (fmt : Nat) (pois : Bool := false) : State :=
  let s := if inTier sp 1 then s.touch (pageOf sp) (granules sp b.length) else s
  match s.phys sp true with
  | .hbm a =>
    let s := (unitCut b.length a b).foldl (fun s p => s.putHbm p.1 p.2 fmt pois (p.1 == a)) s
    if inTier sp 1 then
      let p := pageOf sp
      let e := s.page p
      let s := s.markDirty p (granOf sp)
      if s.buddied p then
        s.sendRun (e.home + sp % 2 ^ 21) b (min 2048 s.maxPayload) e.key fmt 0 0 pois (.buddy p)
      else s
    else s
  | .ls t o => s.onTile t fun x => x.put o b pois
  | .acc t o => s.onTile t fun x =>
      { x with acc := accPut x.acc b.length o b, poison := if pois then x.poison ||| 2 ^ (o / 65536) else x.poison }
  | .far p home key =>
    let s := s.sendWrite (2 ^ 62 + home) b key fmt 0 0 pois .nobody
    let e := s.page p
    if s.tier.farOld.any (fun f => f.1 == p) && s.buddied p then
      s.sendRun (e.home + sp % 2 ^ 21) b (min 2048 s.maxPayload) e.key fmt 0 0 pois (.buddy p)
    else s
  | .fill p => { s with tier := { s.tier with moves := s.tier.moves.map fun m =>
      if m.page = p then { m with writes := m.writes ++ [(sp, b, pois, fmt)] } else m } }
  | .off => s
  | .none => s

/-- The bytes of `n` at `a` with those of a later write laid over them. -/
def overlay (a : Nat) (b : Bytes) (w : MoveUnit) : Bytes :=
  b.zipIdx.map fun p => if w.1 ≤ a + p.2 && a + p.2 < w.1 + w.2.1.length then nth w.2.1 (a + p.2 - w.1) 0 else p.1

/-- Reads `n` bytes that live at another home, in whole words (R429, R476): READs with the page's key are sent, and what
they bring and whether it is poisoned are free values (log 11). -/
def State.farRead (s : State) (home key n : Nat) : Bytes × Bool × State :=
  let lo := home / 4 * 4
  let len := roundUp (home + n) 4 - lo
  let s := (cut s.maxPayload len 0 (List.replicate len 0)).foldl (fun (s : State) c =>
    s.sendReq (addrDev home) 1 (2 ^ 62 + lo + c.1) [] key c.2.length 0 0 .nobody) s
  let d := s.draws 8 n
  let p := d.2.draw 1
  (d.1.map (BitVec.ofNat 8), p.1 == 1, p.2)

/-- Reads within one 64 KiB block of storage: the bytes and whether a unit is poisoned. What another device's memory holds
is not this device's state: it is asked for with the page's key, and its bytes and its refusal are free values (log 11),
under the writes that wait for them. -/
def State.getSpan (s : State) (sp n : Nat) : Bytes × Bool × State :=
  let s := if inTier sp 1 then s.touch (pageOf sp) (granules sp n) else s
  match s.phys sp with
  | .hbm a =>
    let us := unitCut n a (List.replicate n 0)
    let s := s.decodeAt a n
    (Tbl.getList 0 s.hbm.bytes a n, us.any fun u => (s.chan (s.chanAt u.1)).failing || (s.unitAt u.1).poison,
     us.foldl (fun s u => s.countHbm u.1 0 (b2n (u.1 == a || u.1 % 256 < 64))) s)
  | .ls t o => ((s.tile t).get o n, (s.tile t).marked o n, s)
  | .acc t o => ((s.tile t).accGet o n, false, s)
  | .far _ home key => s.farRead home key n
  | .off => let d := s.draws 8 n; (d.1.map (BitVec.ofNat 8), false, d.2)
  | .fill p =>
    let e := s.page p
    let ws := match s.moveOf p with | some m => m.writes | none => []
    let q := s.farRead (e.home % 2 ^ 62 + sp % 2 ^ 21) e.key n
    (ws.foldl (fun b w => overlay sp b w) q.1, q.2.1, q.2.2)
  | .none => (List.replicate n 0, false, s)

/-- Reads `n` bytes of storage as a mover does, unit by unit (R392, R395). -/
def State.readUnits (s : State) (sp n : Nat) : List MoveUnit × State :=
  let q := s.getSpan sp n
  let s := q.2.2
  ((unitCut n sp q.1).map fun u =>
    let m : Bool × Nat := match s.phys u.1 with
      | .hbm a => ((s.chan (s.chanAt a)).failing || (s.unitAt a).poison, (s.unitAt a).fmt)
      | .ls t o => ((s.tile t).marked o u.2.length, 0)
      | .far _ _ _ => (q.2.1, 0)
      | _ => (false, 0)
    (u.1 - sp, u.2, m.1, m.2), s)

/-- Copies `n` bytes of storage, poison and FMT with them (R392, R395, R430). -/
def State.copyRange (s : State) (src dst n : Nat) : State :=
  let r := s.readUnits src n
  (groupUnits 2048 none r.1).foldl (fun s u => s.putSpan (dst + u.1) u.2.1 u.2.2.2 u.2.2.1) r.2

/-- The first write of a step to each unit of the update view that a range meets (R244). -/
def State.firstCopies (s : State) (a n : Nat) : State :=
  if s.step.st = 0 || !s.meetsUpdate a n then s
  else
    let lo := max a s.step.viewU - s.step.viewU
    let hi := min (a + n) (s.step.viewU + 65536 * s.step.units) - s.step.viewU
    (List.range ((hi + 65535) / 65536 - lo / 65536)).foldl (fun s i =>
      let u := lo / 65536 + i
      if Tbl.get false s.step.written u then s
      else
        let act := Tbl.get false s.step.active u
        let s1 := { s with step := { s.step with written := Tbl.set false s.step.written u true } }
        if lo ≤ 65536 * u && 65536 * (u + 1) ≤ hi then s1
        else
          let o := 65536 * u
          let s2 := s1.copyRange ((if act then s.step.viewU else s.step.viewA) + o)
            ((if act then s.step.viewA else s.step.viewU) + o) 65536
          { s2 with step := { s2.step with firstCopies := (s2.step.firstCopies + 1) % 2 ^ 32 } }) s

/-- Writes a range of this device's memory that R62 and R245 allow, what the combining buffer holds apart. -/
def State.rawWrite (s : State) (a : Nat) (b : Bytes) (fmt : Nat) (pois : Bool := false) : State :=
  (blockCut 65536 b.length a b).foldl (fun s p => s.putSpan (s.storage p.1 true) p.2 fmt pois)
    (s.firstCopies a b.length)

/-- Reads a range of this device's memory, what the combining buffer holds apart. -/
def State.rawRead (s : State) (a n : Nat) : Bytes × Bool × State :=
  (blockCut 65536 n a (List.replicate n 0)).foldl (fun (r : Bytes × Bool × State) p =>
    let q := r.2.2.getSpan (r.2.2.storage p.1 false) p.2.length
    (r.1 ++ q.1, r.2.1 || q.2.1, q.2.2)) ([], false, s)

/-! ### The combining buffer (R505 to R509) -/

/-- Bytes of an atomic's element (R476). -/
def atomSize (ty : Nat) : Nat := if ty = 1 then 8 else 4

/-- ADD, MIN or MAX of two elements (R476, R508); FP32 MIN and MAX as in R283 (DEDUCED, log 26). -/
def atomOp (op ty a b : Nat) : Nat :=
  if ty = 2 then
    if op = 0x10 then f32add a b else if op = 0x11 then numMin (f32 a) (f32 b) a b nan32 else numMax (f32 a) (f32 b) a b nan32
  else
    let w := 8 * atomSize ty
    if op = 0x10 then (a + b) % 2 ^ w
    else if op = 0x11 then (if signed w a ≤ signed w b then a else b)
    else if signed w a ≤ signed w b then b else a

/-- Writes a combining entry to memory by one read-modify-write; a unit poisoned since stays as it is (R506, R509). -/
def State.combineOut (s : State) (e : Combine) : State :=
  let s := { s with fab := { s.fab with combining := s.fab.combining.filter (· ≠ e) } }
  let n := atomSize e.ty
  let r := s.rawRead e.addr n
  if r.2.1 then r.2.2 else r.2.2.rawWrite e.addr (toBytes n (atomOp e.op e.ty (field r.1 0 n) e.val)) 0

/-- Writes out the entries of the lines that a range meets (R506, R507). -/
def State.combineAt (s : State) (a n : Nat) : State :=
  if s.fab.combining.isEmpty then s
  else (s.fab.combining.filter fun e => overlaps (e.addr / 64 * 64) 64 a n).foldl (fun (s : State) e => s.combineOut e) s

/-- Writes out every entry. -/
def State.combineAll (s : State) : State := s.fab.combining.foldl (fun (s : State) e => s.combineOut e) s

/-- Writes a range of this device's memory that R62 and R245 allow. -/
def State.memWrite (s : State) (a : Nat) (b : Bytes) (fmt : Nat) (pois : Bool := false) : State :=
  (s.combineAt a b.length).rawWrite a b fmt pois

/-- Reads a range of this device's memory: bytes, whether a unit or word is poisoned, and the state after. -/
def State.memRead (s : State) (a n : Nat) : Bytes × Bool × State := (s.combineAt a n).rawRead a n

/-- Reads a range of this device's memory as a mover does: its units, offsets from the start of the range. -/
def State.moveRead (s : State) (a n : Nat) : List MoveUnit × State :=
  let s := s.combineAt a n
  (blockCut 65536 n a (List.replicate n 0)).foldl (fun (r : List MoveUnit × State) p =>
    let q := r.2.readUnits (r.2.storage p.1 false) p.2.length
    (r.1 ++ q.1.map fun u => (p.1 - a + u.1, u.2), q.2)) ([], s)

/-- Writes the units of a move into this device's memory. -/
def State.moveWrite (s : State) (a : Nat) (us : List MoveUnit) : State :=
  (groupUnits 2048 none us).foldl (fun s u => s.memWrite (a + u.1) u.2.1 u.2.2.2 u.2.2.1) s

/-! ### Holding (R47, R253, R400, R402, R404, R432) -/

/-- The parts of a range that lie in one place each, with their offsets in it. -/
def State.places (s : State) (a n : Nat) (write : Bool) : List (Nat × Nat × Nat × Phys) :=
  (blockCut 65536 n a (List.replicate n 0)).map fun p =>
    let sp := s.storage p.1 write
    (p.1 - a, sp, p.2.length, s.phys sp write)

/-- What holds an access to the granule of HBM at `h`: its channel retrains (R400), or its page or row is being copied
(R402, R404). -/
def State.cellHold (s : State) (h : Nat) : Option Hold :=
  let m := s.chanAt h
  let o := s.chanOff h
  if (s.chan m).retrain.isSome then some (.chan m)
  else if (s.chan m).retiring.contains (o / 4096) || (s.chan m).shadowing.contains (rowOf (s.physOff m o)) then
    some (.copy m (o / 4096))
  else none

/-- What holds an access to a range of this device's memory. -/
def State.memHoldAt (s : State) (off n : Nat) (write : Bool) : Option Hold :=
  match (lsAt off n).orElse fun _ => accAt off n with
  | some (t, _) => if (nth s.pkg.map t { slot := 15 }).st = 1 then some (.tile t) else none
  | none =>
    if s.step.st = 3 && s.meetsViews off n then some .swap
    else
      let ps := s.places off n write
      match ps.findSome? fun x => match x.2.2.2 with
        | .fill q => some (Hold.granule q (granOf x.2.1))
        | _ => none with
      | some w => some w
      | none => ps.findSome? fun x => match x.2.2.2 with
        | .hbm h => (blockCut 256 x.2.2.1 h (List.replicate x.2.2.1 0)).findSome? fun g => s.cellHold g.1
        | _ => none

/-- Whether an access to a range of this device's memory that a tile makes must wait (R253, R400, R402, R404). Writes to a
granule on its way to a frame wait where they are (R432). -/
def State.mustWait (s : State) (off n : Nat) (write : Bool) : Bool :=
  match s.memHoldAt off n write with
  | some (.granule _ _) => !write
  | some (.tile _) => false
  | some _ => true
  | none => false

/-- FMT of the unit at an address (R395): 0 outside HBM and resident pages. -/
def State.fmtAt (s : State) (a : Nat) : Nat :=
  match s.phys (s.storage a false) with
  | .hbm h => (s.unitAt h).fmt
  | _ => 0

end Sys2Proof.Machine
end

