-- ==== Sys2Proof/Machine/Encode.lean ====
section
/-! DEFINITION. The per-lane generators (R257 to R260), and the encoding of a run of FP32 values through a format
descriptor with its counters, supplied scales, statistics and widening area (R98 to R130). -/

namespace Sys2Proof.Machine

/-! ### Generators -/

/-- One advance of a generator (R257). -/
def xorshift (x : Nat) : Nat :=
  let a := x ^^^ (x <<< 13) % 2 ^ 64
  let b := a ^^^ (a >>> 7)
  b ^^^ (b <<< 17) % 2 ^ 64

/-- A generator advanced `n` times. -/
def xorshiftN : Nat → Nat → Nat
  | 0, x => x
  | n + 1, x => xorshiftN n (xorshift x)

/-- Core cycles of a die since reset. -/
def State.dieCyc (s : State) (d : Nat) : Nat := nth s.time.cyc d 0 / 1000

/-- The next cycle in which the vector engine or the drain of tile `t` works: later than its last one, and not before
the die's present cycle (log 12). -/
def State.nextCyc (s : State) (t : Nat) : Nat := max ((s.tile t).vcyc + 1) (s.dieCyc (t / 96))

/-- A cycle of tile `t` passes for an instruction or an output row. -/
def State.tickTile (s : State) (t : Nat) : State := let c := s.nextCyc t; s.onTile t fun x => { x with vcyc := c }

/-- The state of generator `lane` of a physical slot in cycle `c` (R257, R259, R260). -/
def State.gen (s : State) (sl lane c : Nat) : Nat :=
  let g := Tbl.get (0, 0) s.gens sl
  xorshiftN (c - g.2) ((Config.seed g.1 sl lane).val + 1)

/-- The draws of the tile's 64 generators in its current cycle: bits [63:48] of each, then bits [47:32] of each. -/
def State.drawsOf (s : State) (t : Nat) : List Nat :=
  let sl := (s.slotOf t).getD 0
  let c := (s.tile t).vcyc
  let g := (List.range 64).map fun l => s.gen sl l c
  g.map (bits · 63 48) ++ g.map (bits · 47 32)

/-- Seeds the generators of a slot anew (R259). -/
def State.seedSlot (s : State) (sl : Nat) : State :=
  { s with seeds := s.seeds + 1, gens := Tbl.set (0, 0) s.gens sl (s.seeds + 1, s.dieCyc (sl / 104)) }

/-! ### Encoding -/

/-- The local offset of an address of this device, or the address as it stands. -/
def State.local (s : State) (a : Nat) : Nat := if s.isOwn a then addrOff a else a

/-- State of a group (R158): 0 IDLE, 1 ACCUM, 2 DRAIN. Bit `g` of the groups a command names. -/
def MxCmd.groups (c : MxCmd) : Nat :=
  let x := field c.main 0 8
  let g := bits x 10 8
  let n := if c.op = 1 then (bits x 25 16 + 128) / 128 else if c.op = 4 || c.op = 6 then 0 else bits x 13 11 + 1
  (2 ^ n - 1) * 2 ^ g % 256

/-- The state of group `g` by the earliest command that names it (R158). -/
def Tile.gstate (x : Tile) (g : Nat) : Nat :=
  match x.mxq.find? fun c => bit c.groups g with
  | some c => if c.op = 1 || c.op = 5 then 1 else 2
  | none => 0

/-- The groups that a range of an accumulator window meets are all IDLE (R157). -/
def Tile.idle (x : Tile) (o n : Nat) : Bool :=
  (List.range 8).all fun g => !(overlaps o n (65536 * g) 65536) || x.gstate g == 0

/-- Why a local write is refused, as a fault code: ADDR_UNMAPPED (R62), ACC_BUSY (R157) or TANDEM_WRITE (R245); 0 when it
is not. -/
def State.writeFault (s : State) (a n : Nat) : Nat :=
  if !s.mapped a n then 0x107
  else match accAt a n with
    | some (t, o) => if (s.tile t).idle o n then 0 else 0x105
    | none => if s.tandemRefuses a n then 0x109 else 0

/-- The widening record `i` of a descriptor, read from this device's memory (R108). -/
def State.wideRec (s : State) (d : Desc) (i : Nat) : Bytes :=
  if s.mapped (s.local (d.widenAddr + 48 * i)) 48 then (s.memRead (s.local (d.widenAddr + 48 * i)) 48).1
  else List.replicate 48 0

/-- Why the widening record that a main record names, where decoding reads one, cannot be read (R93, R107): it lies at no
mapped offset (R62), or is poisoned (R392, R859); 0 where it can. -/
def State.wideFault (s : State) (d : Desc) (b : Bytes) : Nat :=
  let h := field b 1 1
  let i := field b 2 4
  let a := s.local (d.widenAddr + 48 * i)
  if d.format = 0x20 && field b 0 1 < 0xFE && !bit h 7 && bits h 5 4 = d.slots && bit h 6 && i < d.widenCap &&
      widenAddrOk d.widenAddr then
    (if !s.mapped a 48 then 0x107 else if (s.memRead a 48).2.1 then 0x111 else 0)
  else 0

/-- Why a run of stored records cannot be decoded: the first record whose widening record cannot be read; 0 where it can. -/
def State.runFault (s : State) (d : Desc) (b : Bytes) : Nat :=
  if d.block then
    (List.range (b.length / d.recSize)).foldl (fun f i => if f ≠ 0 then f else s.wideFault d (b.drop (i * d.recSize))) 0
  else 0

/-- A place that an encode writes or reads beside its records: refused as a fault code, 0 when not. One of another device is
refused as unmapped (DESIGN CHOICE, log 91). -/
def State.sideFault (s : State) (d : Desc) (k n : Nat) : Nat :=
  let sc := if d.delayed && !s.mapped (s.local (d.scaleAddr + k)) n then 0x107 else 0
  if sc ≠ 0 then sc
  else if d.stats then s.writeFault (s.local (d.statsAddr + 2 * k)) (2 * n) else 0

/-- Encodes one block `k` of 32 FP32 values (R98 to R123): the record's bytes and the state with counters, widening
area and statistics, or a fault code. `pois` marks what is written beside the record poisoned too (R160). -/
def State.encBlock (s : State) (d : Desc) (xs us : List Nat) (k : Nat) (pois : Bool) : Bytes × State × Nat :=
  let f := s.sideFault d k 1
  if f ≠ 0 then ([], s, f)
  else
    let sup := if d.delayed then fromBytes (s.memRead (s.local (d.scaleAddr + k)) 1).1 else 0
    let next := s.widenNext d.cset
    let e := encodeBlock d xs us sup next
    let wa := s.local (d.widenAddr + 48 * next)
    let st (s : State) : State :=
      if d.stats then s.memWrite (s.local (d.statsAddr + 2 * k)) (toBytes 2 e.stat) 0 pois else s
    match e.wide with
    | some w =>
      let f := s.writeFault wa 48
      if f ≠ 0 then ([], s, f) else (e.main, st ((s.memWrite wa w d.format pois).count d.cset e.cnt), 0)
    | none => (e.main, st (s.count d.cset e.cnt), 0)

/-- Encodes blocks `k` onward of a row of FP32 values: `n` blocks. -/
def State.encBlocks (d : Desc) (pois : Bool) : Nat → State → List Nat → List Nat → Nat → Bytes × State × Nat
  | 0, s, _, _, _ => ([], s, 0)
  | n + 1, s, xs, us, k =>
    let r := s.encBlock d (xs.take 32) (us.take 32) k pois
    if r.2.2 ≠ 0 then r
    else
      let q := State.encBlocks d pois n r.2.1 (xs.drop 32) (us.drop 32) (k + 1)
      (r.1 ++ q.1, q.2)

/-- Converts values to an unblocked format (R76, R77). -/
def State.encElems (s : State) (d : Desc) (xs us : List Nat) : Bytes × State :=
  let r := xs.zipIdx.map fun p => encodeElem d.format (rndOf d.sto us p.2) d.satfp p.1
  let c := r.foldl (fun a q => a.add q.2) {}
  (r.flatMap fun q => toBytes d.recSize q.1, s.count d.cset c)

/-- Encodes a row of FP32 values through a descriptor, block `k` first: bytes, state, fault code. -/
def State.encRow (s : State) (d : Desc) (xs us : List Nat) (k : Nat) (pois : Bool := false) : Bytes × State × Nat :=
  if d.block then State.encBlocks d pois (xs.length / 32) s xs us k
  else let r := s.encElems d xs us; (r.1, r.2, 0)

/-- The bytes that `n` values take in a format. -/
def Desc.rowBytes (d : Desc) (n : Nat) : Nat := if d.block then n / 32 * d.recSize else n * d.recSize

/-- Bytes of `n` values from element `c` on within a stored row (R148). -/
def Desc.runAt (d : Desc) (c n : Nat) : Nat × Nat :=
  if d.block then (c / 32 * d.recSize, ((c + n + 31) / 32 - c / 32) * d.recSize) else (c * d.recSize, n * d.recSize)

/-- Decodes the blocks of a run of a stored row: the blocks' values and how many are malformed. -/
def State.decBlocks (s : State) (d : Desc) (size : Nat) : Nat → Bytes → List Num × Nat
  | 0, _ => ([], 0)
  | n + 1, b =>
    let k := decodeBlock d (b.take size) (s.wideRec d)
    let r := s.decBlocks d size n (b.drop size)
    (k.vals ++ r.1, b2n k.malformed + r.2)

/-- Decodes the bytes of a run of `n` elements from element `c` of its first block (R148, R139). -/
def State.decRun (s : State) (d : Desc) (b : Bytes) (c n : Nat) : List Num × Nat :=
  if d.block then
    let r := s.decBlocks d d.recSize (b.length / d.recSize) b
    ((r.1.drop (c % 32)).take n, r.2)
  else ((List.range n).map fun i => decodeElem d.format (field b (i * d.recSize) d.recSize), 0)

end Sys2Proof.Machine
end

