-- ==== Sys2Proof/Machine/Learn.lean ====
section
/-! DEFINITION. The regulator groups' ratings (R621, R622), the phases of a region and what Rein learns of them (R637,
R638). -/

namespace Sys2Proof.Machine

/-- Region g's power state. -/
def State.pr (s : State) (g : Nat) : PwrRegion := nth s.pwr.regions g {}
/-- Changes region g's power state. -/
def State.onPr (s : State) (g : Nat) (f : PwrRegion → PwrRegion) : State :=
  { s with pwr := { s.pwr with regions := setAt s.pwr.regions g f } }

/-- Whether region g's VLOGIC ramps: the first 4 us of its power-on (R652, R660). -/
def State.ramps (s : State) (g : Nat) : Bool := (s.pr g).ramping && s.now < (s.pr g).rampAt + 4000

/-- The phases of region g's regulator group in service (R622). -/
def State.phasesIn (s : State) (g : Nat) : Nat :=
  24 - ((List.range 24).filter fun k => bit (Tbl.get 0 s.flash.phases g) k).length

/-- The full rating of a region at a P-state's voltage, in micro-watts (R621, R638). -/
def State.fullRating (s : State) (g p : Nat) : Nat := 4 * s.phasesIn g * Config.vtable g p * 2500

/-- The place of an entry of the learning table. -/
def learnKey (g tag p : Nat) : Nat := (64 * g + tag) * 6 + p

/-- An entry of the learning table in micro-watts: the full rating until it has been updated (R638). The table keeps the
value plus 1. -/
def State.learned (s : State) (g tag p : Nat) : Nat :=
  let e := Tbl.get 0 s.pwr.learn (learnKey g tag p)
  if e = 0 then s.fullRating g p else e - 1

/-- The end of a region's phase: its entry moves an eighth of the way to the phase's mean scaled power (R638). Samples
are in 0.1 W. -/
def State.endPhase (s : State) (g : Nat) : State :=
  let r := s.pr g
  let s :=
    if s.pwr.learnEn = 1 && r.phaseN ≠ 0 then
      let e : Int := s.learned g r.phase s.pwr.pstate
      let p : Int := r.phaseSum / r.phaseN
      let v : Int := e + (p - e) / 8
      { s with pwr := { s.pwr with learn := Tbl.set 0 s.pwr.learn (learnKey g r.phase s.pwr.pstate) (v.toNat + 1) } }
    else s
  s.onPr g fun r => { r with phaseSum := 0, phaseN := 0 }

/-- Region g enters a phase (R637). -/
def State.enterPhase (s : State) (g tag : Nat) : State := (s.endPhase g).onPr g fun r => { r with phase := tag }

/-- After a swap or a repeat every region is in phase 0 (R637). -/
def State.phasesZero (s : State) : State := (List.range 16).foldl (fun s g => s.enterPhase g 0) s

/-- A phase boundary of a die: its deferred power-ons are tried again with a fresh wait (R653). -/
def State.retryDeferred (s : State) (d : Nat) : State :=
  (List.range 8).foldl (fun s r => s.onPr (8 * d + r) fun x =>
    if x.deferred then { x with deferred := false, wanted := some s.now } else x) s

/-! ### Notices (R316, R317, R643) -/

/-- The boost for a notice of a phase in microvolts, and the time it starts (R643): none unless the learned power of the
phase asks for more than 8 A beyond the region's present current. Currents are in mA. -/
def State.boostFor (s : State) (g tag due : Nat) : Nat × Nat :=
  let v := Config.vtable g s.pwr.pstate
  let want := s.learned g tag s.pwr.pstate * 1000 / (v * 2500)
  let have_ := (nth (s.pr g).window 0 0) * 100000 * 1000 / (v * 2500)
  if want ≤ have_ + 8000 then (0, 0)
  else
    let b := min 25000 (min ((want - have_) / 4) (700000 - v * 2500))
    (b, max s.now (due - b / 5))

/-- The place of the latest due time in a list of notices. -/
def latestDue (l : List Notice) : Nat :=
  l.zipIdx.foldl (fun b q => if (nth l b { tile := 0, tag := 0, due := 0 }).due < q.1.due then q.2 else b) 0

/-- Counts a dropped or replaced notice of tile t (R317). -/
def State.dropHint (s : State) (t : Nat) : State :=
  s.onTile t fun x => { x with hintDrops := satAdd 16 x.hintDrops 1 }

/-- A notice reaches region g: at most 4 are pending (R317). -/
def State.notice (s : State) (g t tag due : Nat) : State :=
  let b := s.boostFor g tag due
  let n : Notice := { tile := t, tag := tag, due := due, boost := b.1, boostAt := b.2 }
  let l := (s.pr g).notices
  if l.length < 4 then s.onPr g fun r => { r with notices := r.notices ++ [n] }
  else
    let i := latestDue l
    let old := nth l i n
    if due < old.due then (s.onPr g fun r => { r with notices := setAt r.notices i fun _ => n }).dropHint old.tile
    else s.dropHint t

end Sys2Proof.Machine
end

