-- ==== Sys2Proof/Machine/Package.lean ====
section
/-! DEFINITION. The package (01, 15): the tile map and its changes, slot failure and substitution (R750 to R753), the
Carousel (R43 to R49, R690 to R692), multiply columns (R198 to R202), SRAM codes (R744, R745), the mesh planes (R36)
and the UCIe links (R30, R745, R746). -/

namespace Sys2Proof.Machine

/-- Whether no step runs: JOB_STATE is not RUNNING (R42). -/
def State.noStep (s : State) : Bool := s.hal.job ≠ 2

/-- Region g's slots. -/
def State.region (s : State) (g : Nat) : RegionSlots := nth s.pkg.regions g { spare := 15 }
/-- Changes region g's slots. -/
def State.onRegion (s : State) (g : Nat) (f : RegionSlots → RegionSlots) : State :=
  { s with pkg := { s.pkg with regions := setAt s.pkg.regions g f } }
/-- Changes the map entry of tile t. -/
def State.onEntry (s : State) (t : Nat) (f : MapEntry → MapEntry) : State :=
  { s with pkg := { s.pkg with map := setAt s.pkg.map t f } }

/-- Writes a slot into the retirement record. -/
def State.retireSlot (s : State) (sl : Nat) : State :=
  if s.flash.slots.contains sl then s else { s with flash := { s.flash with slots := s.flash.slots ++ [sl] } }

/-- The contents of R51, R155 and R275: SRAM, registers, queue and format slots read as zero. -/
def Tile.cleared (x : Tile) : Tile :=
  { x with store := [], marks := [], acc := [], chunks := List.replicate 8 0, ovf := 0, poison := 0, vreg := [],
           slots := List.replicate 4 {}, ftq := [] }

/-- R275 for a move, which keeps the local store and the accumulators. -/
def Tile.moved (x : Tile) : Tile := { x with vreg := [], slots := List.replicate 4 {}, ftq := [] }

/-- Binds a tile to a slot: EPOCH and MOVES count the change (R43, R55, R56). -/
def State.bind (s : State) (t k spare : Nat) : State :=
  let g := t / 12
  let s := s.onEntry t fun e => { slot := k, st := 0, epoch := (e.epoch + 1) % 65536 }
  s.onRegion g fun r =>
    { r with spare := spare, moves := (r.moves + 1) % 65536, move := none, moveEnd := s.now }

/-- A logical tile left without a slot becomes UNBACKED: TILE_LOSS is reported and raised, and a running job halts
(R53, R579). -/
def State.unback (s : State) (t : Nat) : State :=
  let inst := s.tileInst t
  let s := s.onEntry t fun e => { slot := 15, st := 2, epoch := (e.epoch + 1) % 65536 }
  let s := s.onTile t fun x => { x.discard with seq := .stopped }
  let s := s.report 5 1 0x10 inst
  (s.raise { code := 0x10, payload := [t, t / 12] }).halt

/-- Takes a failed slot of region g out of the list of those that wait. -/
def State.settled (s : State) (g k : Nat) : State :=
  s.onRegion g fun r => { r with failed := r.failed.filter (·.1 ≠ k) }

/-- Substitutes the spare for a failed slot, or leaves its tile UNBACKED where there is no spare or the host chose so
(R51, R53, R595, R750). -/
def State.substitute (s : State) (g k : Nat) (unback : Bool) : State :=
  let sl := 13 * g + k
  match s.tileOfSlot sl with
  | none => (s.retireSlot sl).settled g k
  | some t =>
    let sp := (s.region g).spare
    let s := (s.retireSlot sl).settled g k
    if unback || 13 ≤ sp then s.unback t
    else (s.bind t sp 15).onTile t fun x => { x.cleared with seq := .stopped }

/-- The changes that wait for a boundary, but for those that the host has yet to decide, and those of a region whose spare
is the destination of a move in progress (R45, R50, R753; DESIGN CHOICE, log 95). -/
def State.settleSlots (s : State) : State :=
  s.pkg.regions.zipIdx.foldl (fun s r => r.1.failed.foldl (fun s f =>
    if f.2 = 0 || r.1.move.isSome then s else s.substitute r.2 f.1 (f.2 = 2)) s) s

/-- Whether a substitution still waits for the host (R596) or for a move in its region. -/
def State.slotsWait (s : State) : Bool :=
  s.pkg.regions.any fun r => r.failed.any fun f => f.2 == 0 || r.move.isSome

/-- A tile's sequencer starts at the program's step entry point (R253, R255). -/
def State.startSeq (s : State) (t : Nat) : State := s.onTile t fun x => { x with seq := .run }

/-- Whether the sequencers of region g may start: it is on, no move is in progress and no slot waits (R46, R652). -/
def State.regionMayStart (s : State) (g : Nat) : Bool :=
  (nth s.pwr.regions g {}).on && (s.region g).move.isNone

/-- Starts the sequencers of the tile set's tiles in a region that may start. -/
def State.startRegion (s : State) (g : Nat) : State :=
  if s.regionMayStart g then
    (s.step.tileSet.filter fun t => t / 12 == g && (s.slotOf t).isSome).foldl (fun s t =>
      if (s.tile t).seq == .stopped then s.startSeq t else s) s
  else s

/-- A move of region g has ended, however it ended (R42, R46): the substitutions that waited for it are made where no step
runs or the boundary before a repeat is there, and a forward pass that waited begins. -/
def State.moveEnded (s : State) (g : Nat) : State :=
  let s := if s.noStep || (s.step.st = 4 && s.step.drained) then s.settleSlots else s
  if s.step.st = 1 && s.hal.job = 2 then s.startRegion g else s

/-- A slot fails (R750 to R753): 0x0203 and 0x0204 report REPEAT, 0x0205 reports DEGRADED. -/
def State.slotFail (s : State) (sl code : Nat) : State :=
  let g := sl / 13
  let k := sl % 13
  let r := s.region g
  if s.flash.slots.contains sl || r.failed.any (fun f => f.1 == k) then s
  else
    let s := s.report (if code = 0x205 then 3 else 4) 1 code (s.slotInst sl)
    match r.move with
    | some (t, src, dst) =>
      if k = dst then
        let s := s.retireSlot sl
        let s := s.onEntry t fun e => { e with st := 0 }
        ((s.onRegion g fun r => { r with move := none, spare := 15 }).onTile t fun x => { x with held := false }).moveEnded g
      else if k = src then
        (((s.retireSlot sl).bind t dst 15).onTile t fun x => { x.cleared with held := false }).moveEnded g
      else slotOther s sl g k
    | none => slotOther s sl g k
where
  /-- A failed slot that is no end of a Carousel move. -/
  slotOther (s : State) (sl g k : Nat) : State :=
    match s.tileOfSlot sl with
    | none =>
      let s := s.retireSlot sl
      if (s.region g).spare = k then s.onRegion g fun r => { r with spare := 15 } else s
    | some t =>
      let s := s.onTile t fun x => { x.discard with seq := .stopped }
      if 13 ≤ (s.region g).spare || !(s.region g).failed.isEmpty then (s.retireSlot sl).unback t
      else
        let work := s.hal.job = 2 && s.step.tileSet.contains t
        if s.assisted 2 then
          let s := s.onRegion g fun r => { r with failed := r.failed ++ [(k, 0)] }
          let s := s.request (.spare g k) 0x82 [g, k, (s.region g).spare]
          if work then s.requestRepeat else s
        else if s.noStep && (s.region g).move.isNone then s.substitute g k false
        else
          let s := s.onRegion g fun r => { r with failed := r.failed ++ [(k, 1)] }
          if work then s.requestRepeat else s

/-! ### Columns -/

/-- The retired columns of a slot. -/
def State.retiredCols (s : State) (sl : Nat) : List Nat := (s.flash.cols.filter fun c => c.1 == sl).map (·.2)

/-- Retires a column; a third one fails the slot (R200 to R202). -/
def State.retireCol (s : State) (sl c code : Nat) : State :=
  if (s.retiredCols sl).contains c then s
  else
    let s := s.report 3 1 0x251 (s.slotInst sl) 0 c
    let s := { s with flash := { s.flash with cols := s.flash.cols ++ [(sl, c)] } }
    if 3 ≤ (s.retiredCols sl).length then s.slotFail sl code else s

/-- The columns of a slot in the order of the logical ones (R197). -/
def State.physCols (s : State) (sl : Nat) : List Nat := (List.range 130).filter fun c => !(s.retiredCols sl).contains c

/-- A column error (R199, R200): a third within 1 s retires the column at the next band load. `cleared` says that a retry
cleared it, which is a record of its own (R745). -/
def State.colError (s : State) (sl c : Nat) (cleared : Bool) : State :=
  let now := s.now
  let s := s.onSlot sl fun e =>
    let ts := (Tbl.get [] e.colTimes c).filter (fun x => now - x ≤ 1000000000) ++ [now]
    { e with colErrors := satAdd 16 e.colErrors 1, colTimes := Tbl.set [] e.colTimes c ts
             colDue := if 3 ≤ ts.length && !e.colDue.contains c then e.colDue ++ [c] else e.colDue }
  if cleared then s.report 2 1 0x250 (s.slotInst sl) 0 c else s

/-- What the failed runs of a row do (R199, R200): every failing column has its error, and the columns that fail a third run are
retired at once. -/
def State.rowErrors (s : State) (sl : Nat) (fs : List (List Nat)) : State :=
  let last := if fs.length = 3 then nth fs 2 [] else []
  let s := fs.foldl (fun (s : State) l => l.foldl (fun (s : State) c => s.colError sl c (!last.contains c)) s) s
  last.foldl (fun (s : State) c => s.retireCol sl c 0x204) s

/-- A band load of a slot: the columns with a third error within 1 s are retired (R200). -/
def State.loadCols (s : State) (sl : Nat) : State :=
  let due := (Tbl.get {} s.err.slots sl).colDue
  if due.isEmpty then s
  else due.foldl (fun (s : State) c => s.retireCol sl c 0x204) (s.onSlot sl fun e => { e with colDue := [] })

/-! ### SRAM -/

/-- A corrected SRAM word of a slot (R744, R745): more than 1,024 within 1 s fail the slot. -/
def State.sramCorrected (s : State) (sl : Nat) : State :=
  let now := s.now
  let s := s.onSlot sl fun e =>
    { e with corr := satAdd 32 e.corr 1
             corrTimes := (e.corrTimes.filter fun x => now - x ≤ 1000000000) ++ [now] }
  let s := s.report 1 1 0x201 (s.slotInst sl)
  if 1024 < (Tbl.get {} s.err.slots sl).corrTimes.length then s.slotFail sl 0x203 else s

/-- An uncorrectable SRAM word of a slot (R744, R745): a second within 24 h fails the slot. -/
def State.sramUncorrectable (s : State) (sl : Nat) : State :=
  let now := s.now
  let s := s.onSlot sl fun e =>
    { e with uncorr := satAdd 16 e.uncorr 1
             uncorrTimes := (e.uncorrTimes.filter fun x => now - x ≤ 86400000000000) ++ [now] }
  let s := s.report 4 1 0x202 (s.slotInst sl)
  if 2 ≤ (Tbl.get {} s.err.slots sl).uncorrTimes.length then s.slotFail sl 0x203 else s

/-- What the code of a tile's SRAM finds, counted; true when the reading command faults with SRAM_UNCORR (R743, R744). A word
with three or more symbols in error that the code takes for another is used as it was (DESIGN CHOICE, log 108). -/
def State.sramRead (s : State) (t : Nat) (x : Sram) : State × Bool :=
  match x with
  | .clean => (s, false)
  | .word l _ =>
    let n := sramFinds l
    match s.slotOf t with
    | some sl => if n = 1 then (s.sramCorrected sl, false) else if n = 2 then (s.sramUncorrectable sl, true) else (s, false)
    | none => (s, n = 2)

/-! ### The Carousel -/

/-- The working slot of region g with the highest mean control value since the region's last move (R691): logical tile
and slot. -/
def State.hottest (s : State) (g : Nat) : Option (Nat × Nat) :=
  let mean (k : Nat) : Int × Int :=
    let q := nth s.heat.sites (13 * g + k) {}
    if q.n = 0 then (q.ctrl, 1) else (q.sum, q.n)
  (List.range 13).foldl (fun best k =>
    match s.tileOfSlot (13 * g + k) with
    | none => best
    | some t => match best with
      | none => some (t, k)
      | some b => if (mean b.2).1 * (mean k).2 < (mean k).1 * (mean b.2).2 then some (t, k) else best) none

/-- Whether region g is due for a rotation (R48, R49, R690). -/
def State.carouselDue (s : State) (g : Nat) : Bool :=
  let r := s.region g
  s.hal.job == 2 && s.heat.carouselS ≠ 0 && r.spare < 13 && r.failed.isEmpty && r.move.isNone &&
    s.heat.carouselS * 1000000000 ≤ s.now - r.moveEnd

/-- Begins the moves that are due at a swap (R43 to R46): the hottest tile is held and copied. -/
def State.carousel (s : State) : State :=
  (List.range 16).foldl (fun s g =>
    if !s.carouselDue g then s
    else match s.hottest g with
      | none => s
      | some (t, k) =>
        let s := s.onEntry t fun e => { e with st := 1 }
        let s := s.onRegion g fun r =>
          { r with move := some (t, k, r.spare)
                   due := s.now + 12000 * 940 / Config.coreMHz s.pwr.pstate }
        s.onTile t fun x => { x with held := true }) s

/-- The sites of region g start a new mean (R691). -/
def State.newMeans (s : State) (g : Nat) : State :=
  { s with heat := { s.heat with sites := s.heat.sites.zipIdx.map fun q =>
      if q.2 < 208 && q.2 / 13 == g then { q.1 with sum := 0, n := 0 } else q.1 } }

/-- CAROUSEL_MOVE_DONE (R43, R46, R275, R691, R692): the tile is bound to the destination, the emptied slot is the new
spare and is to be tested; what waited for the move goes on. Accesses held for the tile are for
HOME_QUEUE_RELEASE (R47). -/
def execCarouselMoveDone (g : RegionIx) (s : State) : Out :=
  match (s.region g.val).move with
  | none => .next s
  | some (t, src, dst) =>
    let s := s.bind t dst src
    let s := s.onRegion g.val fun r => { r with selfTest := some src }
    let s := (s.newMeans g.val).onTile t fun x => { x.moved with held := false }
    .next (s.moveEnded g.val)

/-- SPARE_SELF_TEST (R200, R201, R692, R752). -/
def execSpareSelfTest (g : RegionIx) (cols : List (Fin 130)) (s : State) : Out :=
  match (s.region g.val).selfTest with
  | none => .next s
  | some k =>
    let s := s.onRegion g.val fun r => { r with selfTest := none }
    .next (cols.foldl (fun s c => s.retireCol (13 * g.val + k) c.val 0x205) s)

/-! ### Mesh and links -/

/-- MESH_FLIT_RESEND (R36, R745). -/
def execMeshFlitResend (d : DieIx) (plane : Fin 8) (failed : Bool) (s : State) : Out :=
  let off := nth s.flash.mesh d.val 0
  if bit off plane.val then .next s
  else
    let key := 8 * d.val + plane.val
    let now := s.now
    let s := s.report 2 2 0x210 key
    let s := { s with err := { s.err with
      meshResends := Tbl.upd 0 s.err.meshResends d.val (satAdd 32 · 1)
      meshTimes := Tbl.upd [] s.err.meshTimes key fun ts =>
        (ts.filter fun x => now - x ≤ 1000000000) ++ [now] } }
    if failed || 1000 < (Tbl.get [] s.err.meshTimes key).length then
      let s := s.report 3 2 0x211 key
      .next { s with flash := { s.flash with mesh := setAt s.flash.mesh d.val (· + 2 ^ plane.val) } }
    else .next s

/-- The plane that a transfer of a die takes (R33, R36). -/
def State.planeOf (s : State) (d o : Nat) : Nat :=
  let on := (List.range 8).filter fun k => !bit (nth s.flash.mesh d 0) k
  nth on ((o >>> 8) % on.length) 0

/-- Changes the record of a UCIe link. -/
def State.onLink (s : State) (n : Nat) (f : LinkRec → LinkRec) : State :=
  { s with flash := { s.flash with links := setAt s.flash.links n f } }

/-- A lane of a link that has been charged with most retries. -/
def State.worstLane (s : State) (n : Nat) : Nat :=
  (List.range 64).foldl (fun b l =>
    if Tbl.get 0 s.err.linkLaneRetries (64 * n + b) < Tbl.get 0 s.err.linkLaneRetries (64 * n + l) then l else b) 0

/-- A link's third retrain within 60 s (R745): the worst lane is repaired, the link halves its width, or is retired. -/
def State.linkThird (s : State) (n : Nat) (repair : Bool) : State :=
  let l := nth s.flash.links n {}
  if l.st = 0 then
    let w := s.worstLane n
    let s := s.report 3 3 0x221 n 0 w
    if repair then
      let s := s.onLink n fun l => { l with lanes := l.lanes + 1 }
      { s with err := { s.err with linkLaneRetries := Tbl.set 0 s.err.linkLaneRetries (64 * n + w) 0 } }
    else s.onLink n fun l => { l with st := 1 }
  else (s.report 3 3 0x222 n).onLink n fun l => { l with st := 2 }

/-- UCIE_LINK_RETRY (R745): more than 16 retries within 1 ms make the link retrain with its traffic held. -/
def execUcieLinkRetry (n : Fin 3) (lane : Fin 64) (repair : Bool) (s : State) : Out :=
  if (nth s.flash.links n.val {}).st = 2 then .next s
  else
    let now := s.now
    let s := { s with err := { s.err with
      linkRetries := Tbl.upd 0 s.err.linkRetries n.val (satAdd 32 · 1)
      linkLaneRetries := Tbl.upd 0 s.err.linkLaneRetries (64 * n.val + lane.val) (· + 1)
      linkRetryTimes := Tbl.upd [] s.err.linkRetryTimes n.val fun ts =>
        (ts.filter fun x => now - x ≤ 1000000) ++ [now] } }
    if 16 < (Tbl.get [] s.err.linkRetryTimes n.val).length && !s.err.linkHeld.contains n.val then
      let s := s.report 2 3 0x220 n.val
      let s := { s with err := { s.err with
        linkRetrains := Tbl.upd 0 s.err.linkRetrains n.val (satAdd 16 · 1)
        linkRetryTimes := Tbl.set [] s.err.linkRetryTimes n.val []
        linkHeld := s.err.linkHeld ++ [n.val]
        linkRetrainTimes := Tbl.upd [] s.err.linkRetrainTimes n.val fun ts =>
          (ts.filter fun x => now - x ≤ 60000000000) ++ [now] } }
      if 3 ≤ (Tbl.get [] s.err.linkRetrainTimes n.val).length then
        let s := { s with err := { s.err with
          linkRetrainTimes := Tbl.set [] s.err.linkRetrainTimes n.val [] } }
        .next (s.linkThird n.val repair)
      else .next s
    else .next s

/-- UCIE_RETRAIN_DONE (R30, R746): held traffic resumes, on the link or on the relay path of a retired one. A link that
cannot run at full width runs at half, and one that cannot run at half is retired. -/
def execUcieRetrainDone (n : Fin 3) (ok : Bool) (s : State) : Out :=
  if !s.err.linkHeld.contains n.val then .next s
  else
    let s := { s with err := { s.err with linkHeld := s.err.linkHeld.filter (· ≠ n.val) } }
    .next (if ok then s else s.onLink n.val fun l => { l with st := min 2 (l.st + 1) })

end Sys2Proof.Machine
end

