-- ==== Sys2Proof/Machine/Power.lean ====
section
/-! DEFINITION. Power delivery (12): measurement (R628, R629), caps (R630 to R636), P-states (R624 to R627, R710 to R713),
Rein's interval and pacing (R639 to R642), the fast limiter (R641), boosts (R643 to R645), the clock stretch (R646 to
R648), phases (R622, R623), power-on and power-off of regions (R650 to R653), and forced P5 (R654 to R656). -/

namespace Sys2Proof.Machine

/-- Changes the power state. -/
def State.onPwr (s : State) (f : Power → Power) : State := { s with pwr := f s.pwr }

/-- The sum of a list. -/
def sumOf (l : List Nat) : Nat := l.foldl (· + ·) 0

/-- The mean of a list, rounded down; 0 of an empty one. -/
def meanOf (l : List Nat) : Nat := sumOf l / max 1 l.length

/-! ### Averages (R628 to R630), in 0.1 W, over the samples there are -/

/-- The 1 ms average of package power. -/
def Power.avg1ms (p : Power) : Nat := meanOf p.us

/-- The average over the last `n` whole milliseconds, or over the samples of the present one before the first has
passed. -/
def Power.avgMs (p : Power) (n : Nat) : Nat :=
  let l := p.ms.take n
  if l.isEmpty then p.avg1ms else sumOf l / (1000 * l.length)

/-! ### Caps (R630 to R634, R656) -/

/-- The site budget in use, 0 when none (R632). -/
def Power.site (p : Power) : Nat :=
  let h := if bit p.budgetSrc 0 then p.halBudget else 0
  let t := if bit p.budgetSrc 1 then p.trayBudget.getD 0 else 0
  if h = 0 then t else if t = 0 then h else min h t

/-- The effective peak cap in watts (R634, R656). -/
def Power.peakEff (p : Power) : Nat := if p.peakCut then p.peak * 85 / 100 else p.peak

/-- The effective sustained cap in watts (R634, R656). -/
def Power.sustEff (p : Power) : Nat :=
  let a := if p.site = 0 then p.sust else min p.sust p.site
  let a := match p.coolant with | some c => min a c | none => a
  if p.peakCut then min a p.peakEff else a

/-- Clamps a budget to its range, with SITE_CLAMPED where it lies outside (R633): source 0 Halter, 1 the tray. -/
def State.clampBudget (s : State) (w source : Nat) : Nat × State :=
  let c := max 300 (min 1050 w)
  (c, if c = w then s else s.raise { code := 0x55, payload := [w, source] })

/-! ### The P-state (R625 to R627, R710 to R712) -/

/-- The slowest of the candidates (R625). -/
def Power.target (p : Power) : Nat := if p.force ≠ 0 then 5 else max p.pstateTop p.choice

/-- Sets the setpoint of every powered region to a P-state's voltage (R624, R626). -/
def State.setVolts (s : State) (ps : Nat) : State :=
  (List.range 16).foldl (fun s g => s.onPr g fun r =>
    if r.on || r.ramping then { r with vset := Config.vtable g ps } else r) s

/-- Announces a change of P-state after `wait` ns (R626, R711, R712): with an earlier change pending, the slower target at
the earlier count, be it within 64 ticks of a force (DEDUCED, log 107). -/
def State.announce (s : State) (ps wait : Nat) : State :=
  let up := ps < s.pwr.pstate
  let groups := if up then (List.range 16).filter fun g => (s.pr g).on else []
  let c : PChange := match s.pwr.change with
    | none => { dest := ps, decided := s.now, at_ := s.now + wait, waiting := groups }
    | some c =>
      if c.dest ≤ ps then { dest := ps, decided := s.now, at_ := min c.at_ (s.now + wait), waiting := groups }
      else { c with at_ := min c.at_ (s.now + wait) }
  let s := s.onPwr fun p => { p with change := some c }
  if up then s.setVolts ps else s

/-- Brings the P-state to its target: 10 us after the decision unforced (R626), at least 64 ticks after it forced (R711).
At most one upward change is made in 1 ms (R627); of a pending upward change and a slower target the slower is used (R712). -/
def State.retarget (s : State) (forced : Bool := false) : State :=
  let t := s.pwr.target
  let cur := s.pwr.pstate
  let pending := match s.pwr.change with | some c => c.dest | none => cur
  let soon := match s.pwr.lastUp with | some u => s.now < u + 1000000 | none => false
  if t = pending then s
  else if t = cur then (if pending < t then (s.onPwr fun p => { p with change := none }).setVolts cur else s)
  else if t < cur && (if pending = cur then soon else t < pending) then s
  else s.announce t (if forced then 256 else 10000)

/-- VLOGIC_REPORT (R626): the last group's report lets the change be made. -/
def execVlogicReport (g : RegionIx) (s : State) : Out :=
  .next (s.onPwr fun p => { p with change := p.change.map fun c =>
    { c with waiting := c.waiting.filter (· ≠ g.val) } })

/-- CLOCK_CHANGE (R626, R627, R710, R713): at or after the announced count; a stretch goes on over the new period. -/
def execClockChange (s : State) : Out :=
  match s.pwr.change with
  | none => .next s
  | some c =>
    if !c.waiting.isEmpty || s.now < c.at_ then .next s
    else
      let up := c.dest < s.pwr.pstate
      let s := s.onPwr fun p => { p with pstate := c.dest, change := none, changes := satAdd 32 p.changes 1
                                         lastUp := if up then some s.now else p.lastUp }
      .next (s.setVolts c.dest).retarget

/-! ### Forced P5 (R654 to R656) -/

/-- A source forces P5: bit 0 VR_ALERT_N, 1 GP3, 2 VIN_LOW, 3 the coolant stop, 4 the reference clock. -/
def State.forceOn (s : State) (src : Nat) : State :=
  State.retarget (s.onPwr fun p => { p with force := p.force ||| 2 ^ src }) true

/-- A source's force ends; Rein's choice applies again. -/
def State.forceOff (s : State) (src : Nat) : State :=
  State.retarget (s.onPwr fun p => { p with force := if bit p.force src then p.force - 2 ^ src else p.force })

/-- An alert begins (R655, R656): its source, and the duration of that source's last one. The third within 1 s lowers the
peak cap. -/
def State.alert (s : State) (src : Nat) (a : Alert) : State :=
  let s := (s.forceOn src).raise { code := 0x51, payload := [src, a.last] }
  let l := (s.pwr.alerts.filter fun t => s.now - t ≤ 1000000000) ++ [s.now]
  let s := s.onPwr fun p => { p with alerts := l }
  if 3 ≤ l.length && !s.pwr.peakCut then
    let s := s.onPwr fun p => { p with peakCut := true }
    s.raise { code := 0x52, payload := [s.pwr.peakEff] }
  else s

/-- VR_ALERT_FALL (R654 to R656, R711, R712). -/
def execVrAlertFall (s : State) : Out :=
  if s.pwr.vr.low then .next s
  else
    let a := s.pwr.vr
    let s := s.onPwr fun p => { p with vr := { p.vr with low := true, began := s.now } }
    .next (State.alert { s with boot := { s.boot with alertN := false } } 0 a)

/-- REG_ALERT (R654 to R656): GP3, while REG_ALERT owns it. -/
def execRegAlert (s : State) : Out :=
  if s.pwr.gp3.low || (nth s.hal.res 3 {}).owner ≠ 0x31 then .next s
  else
    let a := s.pwr.gp3
    let s := s.onPwr fun p => { p with gp3 := { p.gp3 with low := true, began := s.now } }
    .next (State.alert { s with boot := { s.boot with gp3 := false } } 1 a)

/-- An alert input returns high. -/
def Alert.rise (a : Alert) (now : Nat) : Alert := { a with low := false, high := now, last := now - a.began }

/-- VR_ALERT_RISE (R655, R849): the board regulators' status, read over PMBus, goes to the error log as a NOTE. -/
def execVrAlertRise (gp3 : Bool) (status : Nat) (s : State) : Out :=
  let a := if gp3 then s.pwr.gp3 else s.pwr.vr
  if !a.low then .next s
  else
    let b := a.rise s.now
    let s := s.onPwr fun p => if gp3 then { p with gp3 := b } else { p with vr := b }
    let s := { s with boot := if gp3 then { s.boot with gp3 := true } else { s.boot with alertN := true } }
    .next (s.report 0 9 0x51 0x10 0 status)

/-- ALERT_FORCE_END (R655): the alert has been high for 10 ms. -/
def execAlertForceEnd (gp3 : Bool) (s : State) : Out :=
  let a := if gp3 then s.pwr.gp3 else s.pwr.vr
  let src := if gp3 then 1 else 0
  if a.low || s.now < a.high + 10000000 || !bit s.pwr.force src then .next s else .next (s.forceOff src)

/-! ### Measurement (R628, R629, R649) -/

/-- A region's sample of 1 us: its power in 0.1 W and the lowest VLOGIC of its detectors in 2.5 mV. -/
def State.regionSample (s : State) (g w v : Nat) : State :=
  let ps := s.pwr.pstate
  s.onPr g fun r =>
    let sc := w * 16 / max 1 r.pace
    { r with
      window := (w :: r.window).take 100
      scaled := (sc :: r.scaled).take 100
      phaseSum := r.phaseSum + w * 100000 * 16 / max 1 r.pace
      phaseN := r.phaseN + 1
      vmin := if v < r.vmin.min then { r.vmin with time := s.now, min := v, pst := ps } else r.vmin }

/-- POWER_SAMPLE (R628, R629, R638, R649). Powers in 0.1 W. -/
def execPowerSample (vin vaux : Nat) (regions : List (Nat × Nat)) (s : State) : Out :=
  let w := vin + vaux
  let inside := sumOf (regions.map (·.1))
  let s := s.onPwr fun p =>
    let full := p.msN + 1 = 1000
    { p with
      us := (w :: p.us).take 1000
      outside := ((w - inside) :: p.outside).take 1000
      energy := p.energy + w
      ms := if full then ((p.msSum + w) :: p.ms).take 1000 else p.ms
      msSum := if full then 0 else p.msSum + w
      msN := if full then 0 else p.msN + 1 }
  .next ((regions.take 16).zipIdx.foldl (fun s r => s.regionSample r.2 r.1.1 r.1.2) s)

/-! ### Rein's interval (R639, R640, R642) -/

/-- The region budget in micro-watts (R639). -/
def Power.budget (p : Power) : Nat :=
  let cap := p.sustEff
  let above := sumOf p.outside * 100000 / max 1 p.outside.length
  cap * 980000 - above - (p.avgMs 1000 - cap * 10) * 100000

/-- The learned power of every region's current phase at a P-state, in micro-watts. -/
def State.demand (s : State) (ps : Nat) : List Nat := (List.range 16).map fun g => s.learned g (s.pr g).phase ps

/-- The fastest P-state that fits a budget, P5 if none does (R639). DEDUCED, log 58. -/
def State.choose (s : State) (b : Nat) : Nat :=
  ((List.range 6).find? fun ps => s.pwr.pstateTop ≤ ps && sumOf (s.demand ps) ≤ b).getD 5

/-- The learned weights at a P-state (R639). -/
def State.weights (s : State) (ps : Nat) : List Nat :=
  let d := s.demand ps
  let m := max 1 (d.foldl max 0)
  d.zipIdx.map fun p => if (s.pr p.2).on then (510 * p.1 + m) / (2 * m) else 0

/-- The largest pace at which a power fits an allowance (R640). -/
def paceFor (power allow : Nat) : Nat :=
  ((List.range 16).filter fun k => power * (k + 1) ≤ 16 * allow).foldl (fun a k => max a (k + 1)) 1

/-- Paces a region by a power and its allowance (R640); 1 during a coolant stop (R684). A pace that the fast limiter has
lowered rises by the limiter alone (R641). -/
def State.paceBy (s : State) (g power : Nat) : State :=
  let k := if bit s.pwr.force 3 then 1 else paceFor power (s.pr g).allow
  s.onPr g fun r => { r with paceTop := k, pace := if s.pwr.engaged || r.pace < r.paceTop then min r.pace k else k }

/-- The pace of a region by its power of the last 100 us (R640). -/
def State.pace (s : State) (g : Nat) : State := s.paceBy g (meanOf (s.pr g).scaled)

/-- Gives the regions their weights and allowances and paces them (R639, R640); regions that run idle activity share its
allowance (R694). Allowances are in 0.1 W. -/
def State.allot (s : State) (ws : List Nat) (b : Nat) : State :=
  let t := max 1 (sumOf ws)
  let idle := (s.pwr.regions.filter (·.activity)).length
  (List.range 16).foldl (fun s g =>
    let s := s.onPr g fun r =>
      { r with weight := nth ws g 0
               allow := if r.activity && s.hal.job ≠ 2 then s.heat.warmNow * 10 / max 1 idle
                 else b * nth ws g 0 / t / 100000 }
    if (s.pr g).on then s.pace g else s) s

/-- Whether a decision on the split is pending. -/
def State.splitPending (s : State) : Bool := s.hal.decisions.any fun d => d.req.func == 3

/-- REIN_INTERVAL (R625 to R627, R634, R635, R639, R640, R642, R711, R712). -/
def execReinInterval (s : State) : Out :=
  let b := s.pwr.budget
  let ps := s.choose b
  let ws := s.weights (max ps s.pwr.pstateTop)
  let now := (List.range 16).map fun g => (s.pr g).weight
  let cap := s.pwr.sustEff
  let moved := (ws.zip now).any fun p => p.1 + 32 < p.2 || p.2 + 32 < p.1
  let free := match s.pwr.splitAt with | some t => t + 10000000 ≤ s.now | none => true
  let asks := s.assisted 3 && (cap ≠ s.pwr.lastCap || moved) && free && !s.splitPending
  let s := s.onPwr fun p => { p with choice := ps }
  let s := if asks then
      State.request (s.onPwr fun p => { p with splitAt := some s.now, lastCap := cap }) (.split ws) 0x83 (cap :: ws)
    else if s.assisted 3 then s else s.onPwr fun p => { p with lastCap := cap, hostWeights := none }
  let use := if s.splitPending then now else s.pwr.hostWeights.getD (if s.assisted 3 && moved then now else ws)
  .next (s.allot use b).retarget

/-- FAST_LIMITER (R641): `amps` is the VIN current of the last 1 us in 0.1 A. -/
def execFastLimiter (amps : Nat) (s : State) : Out :=
  let p := s.pwr
  let n := p.us.length
  let high := 99 * p.peakEff * 10 * n < 100 * sumOf p.us || 7400 < amps
  if high then
    let s := s.onPwr fun p =>
      { p with limits := if p.engaged then p.limits else satAdd 16 p.limits 1, engaged := true, clearUs := 0 }
    .next (s.onPwr fun p => { p with regions := p.regions.map fun r =>
      if r.on then { r with pace := max 1 (r.pace - 1) } else r })
  else
    let c := p.clearUs + 1
    let s := s.onPwr fun p => { p with clearUs := c % 10, engaged := p.engaged && c < 10 }
    if c < 10 then .next s
    else .next (s.onPwr fun p => { p with regions := p.regions.map fun r =>
      if r.pace < r.paceTop then { r with pace := r.pace + 1 } else r })

/-! ### Notices and boosts (R637, R643 to R645) -/

/-- The earliest pending notice of a region that is due. -/
def State.dueNotice (s : State) (g : Nat) : Option Notice :=
  ((s.pr g).notices.filter fun n => n.due ≤ s.now).foldl (fun b n =>
    match b with | none => some n | some m => if n.due < m.due then some n else b) none

/-- A notice falls due (R317, R637, R638, R644, R653): the region enters the phase, and is paced where the phase's
prediction exceeds its allowance; deferred power-ons of the die are tried again. -/
def State.noticeDue (s : State) (g : Nat) (n : Notice) : State :=
  let s := s.enterPhase g n.tag
  let s := s.onPr g fun r => { r with notices := r.notices.erase n, hints := satAdd 32 r.hints 1 }
  let want := s.learned g n.tag s.pwr.pstate / 100000
  let s := if (s.pr g).allow < want && (s.pr g).on then s.paceBy g want else s
  s.retryDeferred (g / 8)

/-- BOOST_START (R643, R645): the boost found when the notice came, but for a change of P-state that is pending: then it is
that of the new one. The setpoint does not pass 0.70 V, and a boost lasts until the last of those in force ends. -/
def execBoostStart (g : RegionIx) (s : State) : Out :=
  match (s.pr g.val).notices.find? fun n => n.boost ≠ 0 && !n.boosting && n.boostAt ≤ s.now with
  | none => .next s
  | some n =>
    let b := match s.pwr.change with
      | some c => (State.boostFor (s.onPwr fun p => { p with pstate := c.dest }) g.val n.tag n.due).1
      | none => min n.boost (700000 - (s.pr g.val).vset * 2500)
    .next (s.onPr g.val fun r =>
      { r with boost := max r.boost b, allPhases := true, boostEnd := some (max (r.boostEnd.getD 0) (n.due + 2000))
               notices := r.notices.map fun m => if m = n then { m with boosting := true } else m })

/-- BOOST_END (R643): 2 us after the due time. -/
def execBoostEnd (g : RegionIx) (s : State) : Out :=
  match (s.pr g.val).boostEnd with
  | none => .next s
  | some t =>
    if s.now < t then .next s
    else .next (s.onPr g.val fun r => { r with boost := 0, allPhases := false, boostEnd := none })

/-! ### The clock stretch (R646 to R648) -/

/-- Changes a die's stretch. -/
def State.onDie (s : State) (d : Nat) (f : PwrDie → PwrDie) : State :=
  s.onPwr fun p => { p with dies := setAt p.dies d f }

/-- A die's stretch. -/
def State.die (s : State) (d : Nat) : PwrDie := nth s.pwr.dies d {}

/-- DROOP_TRIP (R646 to R648). DEDUCED, log 63. -/
def execDroopTrip (g : RegionIx) (k : SlotIx) (s : State) : Out :=
  let s := s.onPr g.val fun r => { r with droopTrips := satAdd 32 r.droopTrips 1 }
  let key := 13 * (g.val % 8) + k.val
  .next (s.onDie (g.val / 8) fun d =>
    { d with tripped := d.tripped.filter (· ≠ key) ++ [key], stage := 1, counting := false
             stretches := if d.stage = 0 then satAdd 32 d.stretches 1 else d.stretches
             began := if d.stage = 0 then s.now else d.began, since := s.now })

/-- DROOP_CLEAR (R647): the hold's count begins with the last detector. -/
def execDroopClear (g : RegionIx) (k : SlotIx) (s : State) : Out :=
  let key := 13 * (g.val % 8) + k.val
  .next (s.onDie (g.val / 8) fun d =>
    let l := d.tripped.filter (· ≠ key)
    { d with tripped := l, counting := d.counting || (l.isEmpty && d.stage ≠ 0)
             since := if l.isEmpty && !d.counting then s.now else d.since })

/-- STRETCH_RETURN (R647): 2, 1.5, 1.25 and 1.0 times the normal period in turn. -/
def execStretchReturn (d : DieIx) (s : State) : Out :=
  let x := s.die d.val
  if !x.counting || x.stage = 0 then .next s
  else if x.stage < 3 then .next (s.onDie d.val fun x => { x with stage := x.stage + 1, since := s.now })
  else .next (s.onDie d.val fun x =>
    { x with stage := 0, counting := false, stretchNs := (x.stretchNs + (s.now - x.began)) % 2 ^ 64 })

/-! ### Switching regions (R650 to R653) -/

/-- A power-on is requested (R650). -/
def State.wantRegion (s : State) (g : Nat) (activity : Bool) : State :=
  let r := s.pr g
  let s := if activity then s.onPr g fun r => { r with activity := true } else s
  if r.on || r.ramping || r.deferred || r.wanted.isSome || 7 ≤ 24 - s.phasesIn g then s
  else s.onPr g fun r => { r with wanted := some s.now }

/-- The neighbours of a region (R651). -/
def neighbours (g : Nat) : List Nat :=
  (if g % 8 ≠ 0 then [g - 1] else []) ++ (if g % 8 ≠ 7 then [g + 1] else []) ++
    (if g = 7 then [15] else []) ++ (if g = 15 then [7] else [])

/-- The present current of a region on VLOGIC in mA. -/
def State.amps (s : State) (g : Nat) : Nat :=
  nth (s.pr g).window 0 0 * 100000000 / max 1 (Config.vtable g s.pwr.pstate * 2500)

/-- The neighbour that blocks a power-on (R651). -/
def State.blocker (s : State) (g : Nat) : Option Nat :=
  (neighbours g).find? fun n => s.ramps n ||
    (((s.pr n).on || (s.pr n).ramping) && 85 * 4000 * s.phasesIn n ≤ 100 * s.amps n)

/-- Whether a waiting power-on may be admitted (R651). -/
def State.admits (s : State) (g : Nat) : Bool :=
  (s.pr g).wanted.isSome && (s.blocker g).isNone && !((List.range 16).any s.ramps)

/-- REGION_ADMIT_TEST (R651, R652): waiting power-ons are admitted in ascending order. -/
def execRegionAdmitTest (g : RegionIx) (s : State) : Out :=
  if !s.admits g.val || (List.range g.val).any s.admits then .next s
  else .next (s.onPr g.val fun r =>
    { r with ramping := true, rampAt := s.now, wanted := none, vset := Config.vtable g.val s.pwr.pstate })

/-- REGION_DEFER (R653): not admitted within 50 us. -/
def execRegionDefer (g : RegionIx) (s : State) : Out :=
  match (s.pr g.val).wanted with
  | none => .next s
  | some t =>
    if s.now < t + 50000 then .next s
    else
      let b := (s.blocker g.val).getD (((List.range 16).find? s.ramps).getD 0)
      let s := s.onPr g.val fun r => { r with wanted := none, deferred := true }
      .next (s.raise { code := 0x50, payload := [g.val, b, s.amps b / 1000] })

/-- The logical tiles of a region. -/
def tilesOf (g : Nat) : List Nat := (List.range 12).map (12 * g + ·)

/-- REGION_POWER_ON_DONE (R38, R155, R259, R275, R650, R652): generators seeded, stores cleared, sequencers reloaded. -/
def execRegionPowerOnDone (g : RegionIx) (s : State) : Out :=
  let r := s.pr g.val
  if !r.ramping || s.now < r.rampAt + 33000 then .next s
  else
    let s := (List.range 13).foldl (fun s k => s.seedSlot (13 * g.val + k)) s
    let s := (tilesOf g.val).foldl (fun s t => s.onTile t Tile.cleared) s
    let s := s.onPr g.val fun r => { r with ramping := false, on := true }
    .next (if s.step.st = 1 && s.hal.job = 2 then s.startRegion g.val else s)

/-- A region is switched off: it loses its SRAM contents (R38, R650). -/
def State.regionOff (s : State) (g : Nat) : State :=
  let s := (tilesOf g).foldl (fun s t => s.onTile t fun x =>
    { x.cleared with seq := .stopped, mxq := [], panq := [], fabq := [], rowBusy := false, vwait := [], unfenced := false }) s
  s.onPr g fun r => { r with on := false, ramping := false, wanted := none, deferred := false, vset := 0, boost := 0
                             allPhases := false, boostEnd := none, activity := false, weight := 0, allow := 0
                             window := [], scaled := [], notices := [] }

/-- Whether a region is to be switched off (R650). -/
def State.offDue (s : State) (g : Nat) : Bool :=
  let r := s.pr g
  let idle := s.hal.job ≠ 2 && s.hal.jobSince + 1000000 * s.pwr.offMs ≤ s.now && !r.activity
  let out := s.hal.job ≠ 0 && !(s.step.tileSet.any fun t => t / 12 == g) && !r.activity
  r.on && (idle || out)

/-- REGION_POWER_OFF (R38, R650). -/
def execRegionPowerOff (g : RegionIx) (s : State) : Out :=
  if s.offDue g.val then .next (s.regionOff g.val) else .next s

/-! ### Regulator phases (R622, R623) -/

/-- A phase is retired (R622, R861); the seventh of a group takes the region out of service (R53, R623). -/
def State.retirePhase (s : State) (g k : Nat) : State :=
  let s := { s with flash := { s.flash with phases := Tbl.upd 0 s.flash.phases g (· ||| 2 ^ k) } }
  let s := (s.report 3 9 0x53 g 0 k).raise { code := 0x53, payload := [g, k, s.phasesIn g] }
  if s.phasesIn g ≤ 17 then
    let s := (s.regionOff g).onPr g fun r => { r with deferred := false }
    let s := (List.range 13).foldl (fun s k => s.retireSlot (13 * g + k)) s
    let s := s.onRegion g fun r => { r with spare := 15, failed := [], move := none, selfTest := none }
    (tilesOf g).foldl (fun s t => if (s.slotOf t).isSome then s.unback t else s) s
  else s

/-- A phase faults (R622, R861). -/
def State.phaseFault (s : State) (g k : Nat) : State :=
  let gone := bit (Tbl.get 0 s.flash.phases g) k || (s.pr g).off.any fun e => e.1 == k
  if gone then s
  else
    let now := s.now
    let s := s.report 2 9 0x260 g 0 k
    let s := s.onPr g fun r =>
      { r with off := Tbl.set 0 r.off k (now + 1000000)
               faults := Tbl.upd [] r.faults k fun l => (l.filter fun t => now - t ≤ 3600000000000) ++ [now] }
    if 3 ≤ (Tbl.get [] (s.pr g).faults k).length then s.retirePhase g k else s

/-- PHASE_CHECK (R53, R622, R623, R861). -/
def execPhaseCheck (g : RegionIx) (faulted : List (Fin 24)) (s : State) : Out :=
  .next (faulted.foldl (fun s k => s.phaseFault g.val k.val) s)

/-- PHASE_REENABLE (R622): 1 ms after it was switched off. -/
def execPhaseReenable (g : RegionIx) (k : Fin 24) (s : State) : Out :=
  let t := Tbl.get 0 (s.pr g.val).off k.val
  if t = 0 || s.now < t then .next s
  else .next (s.onPr g.val fun r => { r with off := Tbl.set 0 r.off k.val 0 })

/-! ### The tray's budget -/

/-- BUDGET_STALE (R633, R676): once for a budget that has not been refreshed, or whose tray is LOST. -/
def execBudgetStale (s : State) : Out :=
  match s.pwr.trayBudget with
  | none => .next s
  | some b =>
    if s.pwr.stale || (!s.heat.lost && s.now < s.pwr.trayAt + 1000000 * s.pwr.staleMs) then .next s
    else .next ((s.onPwr fun p => { p with stale := true }).raise { code := 0x56, payload := [b, s.now - s.pwr.trayAt] })

end Sys2Proof.Machine
end

