-- ==== Sys2Proof/Machine/Gx.lean ====
section
/-! DEFINITION. The GX formats (R322 to R324), the conversion into them (R331), the holding area (R332 to R334), the
adders of a node (R337 to R347), credits (R351, R353) and the END checks (R341 to R344). -/

namespace Sys2Proof.Machine

/-- The residue of an element (R336). -/
def residue (m : Int) : Nat := (m % 255).toNat

/-- The bit length of a value (R324). -/
def bitLen (m : Int) : Nat := if m.natAbs = 0 then 0 else m.natAbs.log2 + 1

/-- Bytes of an element: 4 or 8 by the tag's WIDTH. -/
def gxElem (width : Nat) : Nat := if width = 1 then 8 else 4

/-- Length of a GX record (R324). -/
def gxLen (width : Nat) : Nat := 32 * gxElem width + 40

/-- Bytes of a holding record (R332). -/
def holdLen (width : Nat) : Nat := gxLen width + 8

/-- A GX record in bytes (R324). -/
def Gx.toRec (g : Gx) (width : Nat) : Bytes :=
  let e := gxElem width
  g.elems.flatMap (fun m => toBytes e (unsigned (8 * e) m)) ++ g.res.map (BitVec.ofNat 8 ·) ++
    [BitVec.ofNat 8 g.x, BitVec.ofNat 8 g.flags, BitVec.ofNat 8 g.peak, 0] ++ toBytes 4 g.block

/-- A GX record read from bytes. -/
def Gx.ofRec (b : Bytes) (width : Nat) : Gx :=
  let e := gxElem width
  { elems := (List.range 32).map fun i => signed (8 * e) (field b (e * i) e)
    res := (List.range 32).map fun i => field b (32 * e + i) 1
    x := field b (32 * e + 32) 1, flags := field b (32 * e + 33) 1, peak := field b (32 * e + 34) 1
    block := field b (32 * e + 36) 4 }

/-- Largest magnitude of an element (R323). -/
def gxMax (width : Nat) : Int := if width = 1 then 2 ^ 63 - 1 else 2 ^ 31 - 1

/-- An element clamped to its range. -/
def gxClamp (width : Nat) (m : Int) : Int := max (-(gxMax width)) (min (gxMax width) m)

/-- The sum modulo 2^64 of a record's elements, each sign-extended (R341). -/
def Gx.sum (g : Gx) : Nat := unsigned 64 (g.elems.foldl (· + ·) 0)

/-- Whether every element agrees with its RES byte (R338). -/
def Gx.resOk (g : Gx) : Bool := (g.elems.zip g.res).all fun p => residue p.1 == p.2

/-- Converts 32 FP32 values to GX32 under code X (R331): the record and the elements rounded to 0. -/
def gxOf (xs us : List Nat) (sto : Bool) (x block : Nat) (poison : Bool) : Gx × Nat :=
  let vs := xs.map f32
  let pf := if poison then 4 else 0
  if vs.any fun v => !v.isFin then
    ({ elems := List.replicate 32 0, res := List.replicate 32 0, x := x, flags := 2 + pf, block := block }, 0)
  else
    let ms : List Int := vs.zipIdx.map fun p =>
      let m : Int := quantMag (rndOf sto us p.2) p.1 ((x : Int) - 127)
      if p.1.sign then -m else m
    let cs := ms.map (gxClamp 0)
    let ovf := ms != cs
    ({ elems := cs, res := cs.map residue, x := x, flags := (if ovf then 1 else 0) + pf
       peak := (cs.map bitLen).foldl max 0, block := block },
     ((vs.zip ms).filter fun p => !p.1.isZero && p.2 == 0).length)

/-- The sum of two records by one adder (R337, R340, R347). -/
def gxAdd (width : Nat) (a b : Gx) : Gx :=
  let ex := (a.elems.zip b.elems).map fun p => p.1 + p.2
  let cs := ex.map (gxClamp width)
  { elems := cs, res := cs.map residue, x := a.x
    flags := (a.flags ||| b.flags) ||| (if ex != cs then 1 else 0)
    peak := if width = 1 then max a.peak b.peak else max (max a.peak b.peak) ((cs.map bitLen).foldl max 0)
    block := a.block }

/-- Whether an adder's residue check holds (R337). -/
def gxAddOk (a b : Gx) : Bool :=
  ((a.elems.zip b.elems).zip (a.res.zip b.res)).all fun p => residue (p.1.1 + p.1.2) == (p.2.1 + p.2.2) % 255

/-- Sets CORRUPT (R339). -/
def Gx.corrupt (g : Gx) : Gx := { g with flags := g.flags ||| 8 }

/-! ### A device's tags -/

/-- A tag's entry (R328). -/
def State.tagEnt (s : State) (tag : Nat) : TagEnt := Tbl.get {} s.red.tags tag
/-- A tag's state in the attempt. -/
def State.tagSt (s : State) (tag : Nat) : TagSt := Tbl.get {} s.red.st tag
/-- Changes a tag's state. -/
def State.onTag (s : State) (tag : Nat) (f : TagSt → TagSt) : State :=
  { s with red := { s.red with st := Tbl.upd {} s.red.st tag f } }

/-- The exponent code for block b in the step in progress (R330). -/
def State.expCode (s : State) (tag b : Nat) : Nat :=
  let e := field (s.memRead ((s.tagEnt tag).expAddr + 8 * b) 8).1 0 8
  if bits e 63 16 ≤ s.stepNo then bits e 15 8 else bits e 7 0

/-- Writes an exponent entry (R346, R348). -/
def State.putExp (s : State) (tag b a c step : Nat) : State :=
  s.memWrite ((s.tagEnt tag).expAddr + 8 * b) (toBytes 8 (a + 256 * c + 65536 * (step % 2 ^ 48))) 0

/-- A tree: this device's parent in it, none at the root, and its children (R350). -/
def State.treeAt (s : State) (k : Nat) : Option Nat × List Nat :=
  match s.red.trees.find? fun t => t.1 == k with
  | some t => t.2
  | none => (none, [])

/-- Devices of this lead's own team that have reported complete, by the counts that the nodes of tree 0 have combined
(R360, R369). -/
def Red.teamDone (r : Red) : Nat :=
  (r.reported.filter fun x => !r.subLeads.contains x.1).foldl (fun a x => a + x.2) 0

/-- The tree that carries a tag. -/
def State.tree (s : State) (tag : Nat) : Option Nat × List Nat := s.treeAt (s.tagEnt tag).tree

/-- A message about the attempt in progress to the lead: its kind, then device, step, attempt and the rest. -/
def State.tellLead (s : State) (kind : Nat) (args : List Nat) : State :=
  s.say s.red.leadDev 0x41 kind (.ledger ([s.fab.device, s.stepNo, s.step.attempt] ++ args))

/-- Whether a control credit toward the parent in a tree is free (R351). -/
def State.ctlFree (s : State) (k : Nat) : Bool := Tbl.get 0 s.red.ctlUsed k < 8

/-- Sends an END record, a report or a beat up to the parent in tree k against a control credit, or holds it (R351). -/
def State.sayUp (s : State) (k op aux : Nat) (m : Msg) (stamped : Bool := true) : State :=
  match (s.treeAt k).1 with
  | none => s
  | some p =>
    if s.ctlFree k && !(s.red.ctlWait.any fun w => w.1 == k) then
      State.say { s with red := { s.red with ctlUsed := Tbl.upd 0 s.red.ctlUsed k (· + 1) } } p op aux m [] stamped
    else { s with red := { s.red with ctlWait := s.red.ctlWait ++ [(k, op, aux, m, stamped)] } }

/-- The lead is told of a cause of repeat: ledger message kind 1 (R343, R344, R363). -/
def State.raiseCause (s : State) (cause : Nat) : State := s.tellLead 1 [cause]

/-- The adder lanes in service. -/
def State.adderLanes (s : State) : List Nat := (List.range 8).filter (bit s.flash.adders)

/-- The adder lane that adds a block: the lanes in service take blocks in turn (DEDUCED, log 19). -/
def State.laneOf (s : State) (block : Nat) : Nat := nth s.adderLanes (block % max 1 s.adderLanes.length) 0

/-- An adder recomputes a block with success (R339, R745). -/
def State.adderRetry (s : State) (block : Nat) : State :=
  State.report { s with red := { s.red with residueRetries := satAdd 16 s.red.residueRetries 1 } } 2 6 0x230
    (0x100 + s.laneOf block)

/-- An adder sets CORRUPT on a block (R339, R861): its lane's third within 1 h retires the lane (R745). -/
def State.adderFail (s : State) (block : Nat) : State :=
  let l := s.laneOf block
  let now := s.now
  let s := s.report 4 6 0x283 (0x100 + l)
  let s := { s with err := { s.err with adderTimes := Tbl.upd [] s.err.adderTimes l fun ts =>
    (ts.filter fun x => now - x ≤ 3600000000000) ++ [now] } }
  if 3 ≤ (Tbl.get [] s.err.adderTimes l).length && 1 < s.adderLanes.length then
    State.report { s with flash := { s.flash with adders := s.flash.adders - 2 ^ l } } 3 6 0x231 (0x100 + l)
  else s

/-- Whether a data credit toward the parent in a tree is free (R351). -/
def State.creditFree (s : State) (tree : Nat) : Bool := Tbl.get 0 s.red.creditsUsed tree < s.red.credits

/-- Sends a record of a tag up to the parent against a credit, or holds it at the source (R351, R353). -/
def State.sendUp (s : State) (tag : Nat) (g : Gx) : State :=
  let t := (s.tagEnt tag).tree
  match (s.tree tag).1 with
  | none => s
  | some p =>
    if s.creditFree t && !(s.red.waiting.any fun w => (s.tagEnt w.1).tree == t) then
      State.say { s with red := { s.red with creditsUsed := Tbl.upd 0 s.red.creditsUsed t (· + 1) } } p 0x40 tag .reduce
        (g.toRec (s.tagEnt tag).width)
    else { s with red := { s.red with waiting := s.red.waiting ++ [(tag, g)] } }

/-- Writes the 128 bytes of a reduced block in FP32 (R355). -/
def gxResult (g : Gx) : Bytes :=
  g.elems.flatMap fun m =>
    toBytes 4 (if bit g.flags 1 then nan32
      else toF32 (.fin (decide (m < 0)) m.natAbs ((g.x : Int) - 127)))

/-- The next step's code of a block (R346). -/
def State.nextCode (s : State) (g : Gx) : Nat :=
  if g.peak = 0 then g.x else (max 0 (min 254 ((g.x : Int) + g.peak - (31 - s.red.headroom)))).toNat

/-- A device takes a final block: its residues are checked, its values written in FP32, its exponent entry updated
(R338, R346, R355, R356). Ledger message kind 13 reports a bad result. -/
def State.takeResult (s : State) (tag next : Nat) (g : Gx) : State :=
  if !g.resOk then
    (s.onTag tag fun t => { t with bad := true }).tellLead 13 [tag]
  else
    let s := s.memWrite ((s.tagEnt tag).resultAddr + 128 * g.block) (gxResult g) 1
    let s := s.putExp tag g.block g.x next (s.stepNo + 1)
    s.onTag tag fun t => { t with gotSum := (t.gotSum + g.sum) % 2 ^ 64, gotBlocks := t.gotBlocks + 1 }

/-- A final block goes on to the children of this device in the tag's tree (R355). -/
def State.resultDown (s : State) (tag next : Nat) (g : Gx) : State :=
  (s.tree tag).2.foldl (fun s c => s.say c 0x40 tag (.result next) (g.toRec (s.tagEnt tag).width)) s

/-- An overflowed block is named to the lead with the code it was reduced under (R348). -/
def State.tellOvf (s : State) (tag : Nat) (g : Gx) : State :=
  if bit g.flags 0 then s.tellLead 15 [tag, g.block, g.x] else s

/-- A record complete at a node leaves it (R333, R346, R348, R350, R355, R357): up to the parent, or, at the root, down the
tree with the next code. -/
def State.nodeOut (s : State) (tag : Nat) (g : Gx) : State :=
  let s := s.onTag tag fun t =>
    { t with outSum := (t.outSum + g.sum) % 2 ^ 64, outBlocks := t.outBlocks + 1
             outIdx := (t.outIdx + g.block) % 2 ^ 32, outFlags := t.outFlags ||| g.flags
             node := Tbl.upd { srcs := [], gx := ⟨[], [], 0, 0, 0, 0⟩ } t.node g.block
               fun _ => { srcs := [], gx := ⟨[], [], 0, 0, 0, 0⟩ } }
  let s := s.tellOvf tag g
  match (s.tree tag).1 with
  | some _ => s.sendUp tag g
  | none =>
    let nx := s.nextCode g
    let s := s.resultDown tag nx g
    let s := if bit g.flags 1 then s.tellLead 16 [tag, g.block] else s
    s.takeResult tag nx g

/-- A node takes one input of a block: from a child, or its own total (R337 to R340). `retry` and `fail` say whether the
adder's residue mismatches once or twice. -/
def State.nodeIn (s : State) (tag src : Nat) (g : Gx) (retry fail : Bool) : State :=
  let w := (s.tagEnt tag).width
  let t := s.tagSt tag
  let nb := Tbl.get { srcs := [], gx := ⟨[], [], 0, 0, 0, 0⟩ } t.node g.block
  let first := nb.srcs.isEmpty
  let retry := retry && !first
  let fail := fail && !first
  let bad := !first && !gxAddOk nb.gx g
  let sum := if first then g else gxAdd w nb.gx g
  let sum := if bad || fail then sum.corrupt else sum
  let s := if bad || fail then s.adderFail g.block else if retry then s.adderRetry g.block else s
  let srcs := nb.srcs ++ [src]
  if srcs.length = (s.tree tag).2.length + 1 then s.nodeOut tag sum
  else s.onTag tag fun t =>
    { t with node := Tbl.set { srcs := [], gx := ⟨[], [], 0, 0, 0, 0⟩ } t.node g.block { srcs := srcs, gx := sum } }

/-- Whether an addition of the drain in progress mismatches once, and whether twice (R339); it does so once. -/
def State.upset (s : State) (block : Nat) (node : Bool) : Bool × Bool × State :=
  match s.red.upsets.find? fun e => e.block == block && e.node == node with
  | some e => (true, e.twice, { s with red := { s.red with upsets := s.red.upsets.erase e } })
  | none => (false, false, s)

/-- The device's own total of a block is ready (R333), widened for a GX64 tag, which its reader checks (R325, R338). -/
def State.ownTotal (s : State) (tag : Nat) (g : Gx) : State :=
  let g := if g.resOk then g else g.corrupt
  let s := s.onTag tag fun t =>
    { t with sum := (t.sum + g.sum) % 2 ^ 64, blocks := t.blocks + 1, idx := (t.idx + g.block) % 2 ^ 32
             flags := t.flags ||| g.flags }
  if (s.tree tag).2.isEmpty && (s.tree tag).1.isSome then s.sendUp tag g
  else
    let u := s.upset g.block true
    u.2.2.nodeIn tag s.fab.device g u.1 u.2.1

/-- A drained contribution enters the holding area (R325, R332 to R334, R337 to R340, R348): the state, and whether its count
passes MB_COUNT. A held record whose elements disagree with its RES bytes makes the sum CORRUPT (DEDUCED, log 19). -/
def State.holdAdd (s : State) (tag : Nat) (g : Gx) : State × Bool :=
  let e := s.tagEnt tag
  let a := e.holdAddr + holdLen e.width * g.block
  let old := (s.memRead a (holdLen e.width)).1
  let l := gxLen e.width
  let live := field old (l + 1) 1 == s.step.attempt && field old (l + 2) 2 == s.stepNo % 65536
  let n := if live then field old l 1 else 0
  if s.step.mbCount ≤ n then (s, true)
  else
    let o := Gx.ofRec old e.width
    let u := s.upset g.block false
    let s := if n = 0 then s else u.2.2
    let fail := n ≠ 0 && o.resOk && (u.2.1 || !gxAddOk o g)
    let sum := if n = 0 then g else if fail || !o.resOk then (gxAdd e.width o g).corrupt else gxAdd e.width o g
    let s := if fail then s.adderFail g.block else if n ≠ 0 && u.1 then s.adderRetry g.block else s
    let s := if n ≠ 0 && bit o.flags 0 then s else s.tellOvf tag sum
    let trail := [BitVec.ofNat 8 (n + 1), BitVec.ofNat 8 s.step.attempt] ++ toBytes 2 s.stepNo ++ [0, 0, 0, 0]
    let s := s.memWrite a (sum.toRec e.width ++ trail) (0x30 + e.width)
    let s := s.onTag tag fun t => { t with counts := Tbl.set 0 t.counts g.block (n + 1), flags := t.flags ||| sum.flags }
    (if n + 1 = s.step.mbCount then s.ownTotal tag sum else s, false)

/-! ### The END checks -/

/-- The causes that the checks of a node raise (R335, R344): counts or index sums that disagree, and sums that disagree. The
counts come first, so that where both fail a lead records COUNT (DEDUCED, log 19). -/
def endCauses (t : TagSt) (ends : List EndRec) : List Nat :=
  let sum := ends.foldl (fun a e => (a + e.sum) % 2 ^ 64) 0
  let ovf := bit t.outFlags 0 || ends.any fun e => bit e.flags 0
  (if ends.all fun e => e.blocks == t.outBlocks && e.idx == t.outIdx then [] else [4]) ++
    (if sum = t.outSum then [] else [if ovf then 5 else 3])

/-- The first cause of repeat that a tag's flags give at the root (R361, R363). -/
def flagCause (f : Nat) : Nat := if bit f 3 then 2 else if bit f 0 then 5 else if bit f 2 then 6 else 0

/-- An END record as a message. -/
def EndRec.msg (e : EndRec) : Msg := .endRec e.src e.sum e.blocks e.idx e.flags

/-- The root's final END reaches a device (R355, R356): it goes on down the tree; the blocks received must have its
checksum and count, and then RED_DONE counts the tag and the device confirms it (ledger message kind 3). -/
def State.finalEnd (s : State) (tag : Nat) (e : EndRec) : State :=
  let s := (s.tree tag).2.foldl (fun s c => s.say c 0x40 tag e.msg) s
  let t := s.tagSt tag
  if t.done || t.bad then s
  else if t.gotSum ≠ e.sum || t.gotBlocks ≠ e.blocks then (s.onTag tag fun t => { t with bad := true }).tellLead 13 [tag]
  else
    let s := s.onTag tag fun t => { t with done := true }
    State.tellLead { s with red := { s.red with
      redDone := Tbl.upd 0 s.red.redDone (s.tagEnt tag).doneCtr fun n => (n + 1) % 2 ^ 32 } } 3 [tag]

/-- A node holds END from every child and its own total, and has sent every block of the tag (R342, R344): it checks the tag
and sends its own END, or, at the root, tells the lead that the tag has passed (ledger message kind 5). -/
def State.endCheck (s : State) (tag : Nat) : State :=
  let t := s.tagSt tag
  let tr := s.tree tag
  if t.checked || t.ends.length ≠ tr.2.length + 1 || s.red.waiting.any (fun w => w.1 == tag) then s
  else
    let cs := endCauses t t.ends
    let s := s.onTag tag fun t => { t with checked := true }
    if !cs.isEmpty then cs.foldl (fun (s : State) c => s.raiseCause c) s
    else
      let e : EndRec := { src := s.fab.device, sum := t.outSum, blocks := t.outBlocks, idx := t.outIdx
                          flags := t.outFlags ||| t.ends.foldl (fun a e => a ||| e.flags) 0 }
      match tr.1 with
      | some _ => s.sayUp (s.tagEnt tag).tree 0x40 tag e.msg
      | none =>
        if flagCause e.flags ≠ 0 then s.raiseCause (flagCause e.flags)
        else
          (s.tellLead 5 [tag]).finalEnd tag e

/-- The device sends END for a tag when its drain counter is full (R342), after the second check of R343. -/
def State.endTag (s : State) (tag : Nat) : State :=
  let t := s.tagSt tag
  if t.endSent then s
  else
    let s := s.onTag tag fun t => { t with endSent := true }
    let s := if t.counts.any fun p => p.2 ≠ 0 && p.2 < s.step.mbCount then s.raiseCause 4
      else if t.part ≠ t.sum then s.raiseCause (if bit t.flags 0 then 5 else 3) else s
    let e : EndRec := { src := s.fab.device, sum := t.sum, blocks := t.blocks, idx := t.idx, flags := t.flags }
    match s.tree tag with
    | (some _, []) => s.sayUp (s.tagEnt tag).tree 0x40 tag e.msg
    | _ => (s.onTag tag fun t => { t with ends := t.ends ++ [e] }).endCheck tag

end Sys2Proof.Machine
end

