-- ==== Sys2Proof/Machine/HalOps.lean ====
section
/-! DEFINITION. Replies of Halter (R565, R573, R574, R589) and the pending commands that await their final reply. -/

namespace Sys2Proof.Machine

/-- Changes session n. -/
def State.onSession (s : State) (n : Nat) (f : Session → Session) : State :=
  { s with hal := { s.hal with sessions := s.hal.sessions.map fun x => if x.num = n then f x else x } }

/-- Session n, if it is open. -/
def State.session (s : State) (n : Nat) : Option Session := s.hal.sessions.find? fun x => x.num == n

/-- Keeps the reply of a command, for the 1,024 most recent numbers of its session (R573). -/
def Session.keep (x : Session) (r : Reply) : Session :=
  { x with replies := (x.replies.filter fun q => q.seq ≠ r.seq && x.high < q.seq + 1024) ++ [r] }

/-- Sends a reply and keeps it. -/
def State.answer (s : State) (c : PendCmd) (status : Nat) (payload : Bytes := []) : State :=
  let s := s.onSession c.session fun x => x.keep { seq := c.seq, code := c.code, status := status, payload := payload }
  if (s.session c.session).isSome then s.sendMsg (.reply c.port c.addr c.session c.seq c.code status s.now payload) else s

/-- The final reply of a pending command (R574, R589): that of a FAILED one carries its cause, where the spec gives it no code a
free byte (log 106). -/
def State.finish (s : State) (c : PendCmd) (status : Nat) (payload : Bytes := []) : State :=
  let d := if status = 0xC && payload.isEmpty then let d := s.draw 8; ([BitVec.ofNat 8 d.1], d.2) else (payload, s)
  let payload := d.1
  let s := d.2
  let s := { s with hal := { s.hal with cmds := s.hal.cmds.filter fun q => !(q.session == c.session && q.seq == c.seq) } }
  s.answer c status payload

/-- The pending commands of a code. -/
def State.pendingOf (s : State) (code : Nat) : List PendCmd := s.hal.cmds.filter fun c => c.code == code

/-- The final reply of every pending command of a code. -/
def State.finishAll (s : State) (code status : Nat) (payload : Bytes := []) : State :=
  (s.pendingOf code).foldl (fun s c => s.finish c status payload) s

end Sys2Proof.Machine
end

