-- ==== Sys2Proof/Machine/Move.lean ====
section
/-! DEFINITION. Frames, write-back (R443, R446), evictions (R434, R435), the moves that a shrink forces (R407, R441), and
the restoring of poisoned units before a repeat (R393, R447, R450, R451). -/

namespace Sys2Proof.Machine

/-! ### Frames (R428) -/

/-- A frame that a shrink has taken out of the list (R441). -/
def noFrame : Nat := 2 ^ 44

/-- Whether a page holds frame i. -/
def State.frameUsed (s : State) (i : Nat) : Bool := s.tier.pages.any fun e => 2 ≤ e.2.st && e.2.frame == i

/-- The free frames, as places in the frame list. -/
def State.freeFrames (s : State) : List Nat :=
  (List.range s.tier.frames.length).filter fun i => nth s.tier.frames i noFrame ≠ noFrame && !s.frameUsed i

/-- The HBM address of a frame. -/
def State.frameBase (s : State) (i : Nat) : Nat := nth s.tier.frames i noFrame

/-- Whether a frame meets a range of HBM. -/
def State.frameIn (s : State) (lo hi i : Nat) : Bool :=
  s.frameBase i ≠ noFrame && overlaps (s.frameBase i) (2 ^ 21) lo (hi - lo)

/-- Whether a frame lies in a part that a shrink is about to remove. -/
def State.doomed (s : State) (i : Nat) : Bool :=
  s.hbm.stk.zipIdx.any fun x => match x.1.clearing with
    | some top => s.frameIn (x.2 * 2 ^ 36 + top) (x.2 * 2 ^ 36 + 2 ^ 36) i
    | none => false

/-- The free frames that may be taken. -/
def State.openFrames (s : State) : List Nat := s.freeFrames.filter fun i => !s.doomed i

/-- Whether a granule of a page is dirty. -/
def State.granDirty (s : State) (p g : Nat) : Bool := Tbl.get 0 s.tier.dirty (32 * p + g) ≠ 0

/-- The dirty granules of a page. -/
def State.dirtyGrans (s : State) (p : Nat) : List Nat := (List.range 32).filter (s.granDirty p)

/-- Removes a page's move. -/
def State.dropMove (s : State) (p : Nat) : State :=
  { s with tier := { s.tier with moves := s.tier.moves.filter fun m => m.page ≠ p } }

/-- Changes a page's move. -/
def State.onMove (s : State) (p : Nat) (f : Move → Move) : State :=
  { s with tier := { s.tier with moves := s.tier.moves.map fun m => if m.page = p then f m else m } }

/-! ### Write-back (R443) -/

/-- Whether a 2 KiB run of storage is sent by a write-back: it holds a unit with DIRTY set (R394), or a poisoned one
(R446). -/
def State.runDirty (s : State) (a : Nat) : Bool :=
  (List.range 32).any fun i => (s.unitAt (a + 64 * i)).dirty || (s.unitAt (a + 64 * i)).poison

/-- A granule leaves the list of a TIER_FLUSH, which ends with its last (R445). -/
def State.flushed (s : State) (k : Nat) : State :=
  ((s.pendingOf 0x10E).filter fun c => c.args.contains k).foldl (fun (s : State) c =>
    let c' := { c with args := c.args.filter (· ≠ k) }
    if c'.args.isEmpty then s.finish c 0
    else { s with hal := { s.hal with cmds := s.hal.cmds.map fun q => if q = c then c' else q } }) s

/-- A granule has been written back (R443). -/
def State.granuleDone (s : State) (p g : Nat) : State :=
  let x := s.tier
  State.flushed { s with tier := { x with wbs := x.wbs.filter (· ≠ (p, g)), wbGranules := satAdd 32 x.wbGranules 1 } }
    (32 * p + g)

/-- Sends a 2 KiB run of a granule to the home, poisoned units as poisoned (R443, R446). -/
def State.sendBack (s : State) (p g r : Nat) : State :=
  let e := s.page p
  let a := s.frameBase e.frame + 65536 * g + 2048 * r
  let q := s.readUnits a 2048
  let s := q.2.sendUnits (e.home + 65536 * g + 2048 * r) q.1 (min 2048 s.maxPayload) e.key 0 0 (.writeBack p g)
  (List.range 32).foldl (fun s i => s.onUnit (a + 64 * i) fun u => { u with dirty := false }) s

/-- Writes back a granule: its dirty bit is cleared, and each 2 KiB run with a DIRTY unit is sent to the home (R443). It
counts as in progress until every run is acknowledged, and as written back at once where there is none. -/
def State.writeBack (s : State) (p g : Nat) : State :=
  let base := s.frameBase (s.page p).frame + 65536 * g
  let s := { s with tier := { s.tier with dirty := Tbl.set 0 s.tier.dirty (32 * p + g) 0
                                          wbs := s.tier.wbs.filter (· ≠ (p, g)) ++ [(p, g)] } }
  match (List.range 32).filter fun r => s.runDirty (base + 2048 * r) with
  | [] => s.granuleDone p g
  | rs => rs.foldl (fun (s : State) r => s.sendBack p g r) s

/-! ### Evictions (R434, R435) -/

/-- A pass of an eviction: the dirty granules are written back, but for those of the fourth pass (R434, R435). -/
def State.evictPass (s : State) (p : Nat) : State :=
  let ds := s.dirtyGrans p
  if ds.isEmpty then s
  else
    let s := s.onMove p fun m => { m with passes := m.passes + 1 }
    match s.moveOf p with
    | some m => if 4 ≤ m.passes && !m.forced then s else ds.foldl (fun (s : State) g => s.writeBack p g) s
    | none => s

/-- An eviction begins; `next` is the page that is to take the frame, `forced` that a shrink orders it. -/
def State.startEvict (s : State) (p : Nat) (next : Option Nat) (forced : Bool := false) : State :=
  let s := s.onPage p fun e => { e with st := 4 }
  let x := s.tier
  State.evictPass { s with tier := { x with moves := x.moves ++
    [{ page := p, evict := true, began := s.now, next := next, forced := forced }] } } p

/-- A page leaves its frame for its home, or, without one, is lost (R434, R441). It takes a place in the heat table of the
pages without a frame (R437). -/
def State.leaveFrame (s : State) (p : Nat) : State :=
  let s := (s.onPage p fun e => { e with st := if e.home = 0 then 0 else 1, frame := 0 }).dropMove p
  State.heatEntry { s with tier := { s.tier with dirty := Tbl.clear s.tier.dirty (32 * p) (32 * p + 32) } } p

/-- The LOCAL page without PIN of least heat (R438), among those that `ok` admits. -/
def State.coldest (s : State) (ok : Nat → Page → Bool) : Option Nat :=
  s.tier.pages.foldl (fun b e =>
    if e.2.st ≠ 2 || e.2.pin || !ok e.1 e.2 then b
    else match b with
      | none => some e.1
      | some q => if Tbl.get 0 s.tier.heat e.1 < Tbl.get 0 s.tier.heat q then some e.1 else b) none

/-! ### A shrink (R407, R441) -/

/-- A PIN page moves to another frame with its contents (R441). -/
def State.reframe (s : State) (p i : Nat) : State :=
  (s.copyRange (s.frameBase (s.page p).frame) (s.frameBase i) (2 ^ 21)).onPage p fun e => { e with frame := i }

/-- The pages whose frame lies in the part of stack n that a shrink removes, those with PIN or those without. -/
def State.doomedPages (s : State) (pin : Bool) : List Nat :=
  (s.tier.pages.filter fun e => 2 ≤ e.2.st && e.2.pin == pin && s.doomed e.2.frame).map (·.1)

/-- A PIN page is moved out of the part that a shrink removes: to a free frame, else to one that an eviction is to free,
else to its home; a page without a home is lost, and the stack notes it (R441). -/
def State.pinOut (s : State) (n p : Nat) : State :=
  match s.openFrames with
  | i :: _ => s.reframe p i
  | [] =>
    if s.tier.moves.any fun m => m.evict && !s.doomed (s.page m.page).frame then s
    else match s.coldest fun _ e => !s.doomed e.frame with
      | some v => s.startEvict v none true
      | none =>
        if (s.page p).home = 0 then
          let s := s.leaveFrame p
          { s with hbm := { s.hbm with stk := setAt s.hbm.stk n fun x => { x with gone := x.gone ++ [p] } } }
        else if (s.moveOf p).isSome then s else s.startEvict p none true

/-- Moves the frames of the part that stack n is to lose (R407, R441), as far as can be done now: PIN pages to other
frames, other pages to their homes. A promotion into such a frame is to be abandoned. -/
def State.clearFrames (s : State) (n : Nat) : State :=
  let s := (s.doomedPages true).foldl (fun (s : State) p => s.pinOut n p) s
  (s.doomedPages false).foldl (fun (s : State) p =>
    if (s.page p).st = 2 then s.startEvict p none true else s.onMove p fun m => { m with forced := true }) s

/-- A shrink of stack n to `top` begins (R407). -/
def State.beginShrink (s : State) (n top : Nat) : State :=
  State.clearFrames { s with hbm := { s.hbm with stk := setAt s.hbm.stk n fun x =>
    { x with clearing := some (match x.clearing with | some t => min t top | none => top) } } } n

/-- Whether no page holds a frame in the part that a shrink removes. -/
def State.shrinkClear (s : State) : Bool := (s.doomedPages true).isEmpty && (s.doomedPages false).isEmpty

/-- A shrink of stack n takes effect (R407, R441): the frames of the removed part leave the list, other data there is
discarded, and HBM_SHRINK is raised with the range and the pages lost. -/
def State.endShrink (s : State) (n top old : Nat) : State :=
  let lo := n * 2 ^ 36 + top
  let hi := n * 2 ^ 36 + old
  let h := s.hbm
  let gone := (nth h.stk n {}).gone
  let s := { s with
    tier := { s.tier with frames := s.tier.frames.zipIdx.map fun (f : Nat × Nat) => if s.frameIn lo hi f.2 then noFrame else f.1 }
    hbm := { h with bytes := Tbl.clear h.bytes lo hi, unitMeta := Tbl.clear h.unitMeta (lo / 64) (hi / 64)
                    flips := Tbl.clear h.flips (lo / 64) (hi / 64)
                    stk := setAt h.stk n fun x => { x with clearing := none, gone := [] } } }
  s.raise { code := 0x21, payload := [n, top, old] ++ gone }

/-! ### Restoring poisoned units (R393, R447, R450) -/

/-- The page whose frame holds an HBM address. -/
def State.pageAt (s : State) (a : Nat) : Option Nat :=
  (s.tier.pages.find? fun e => 2 ≤ e.2.st && overlaps (s.frameBase e.2.frame) (2 ^ 21) a 1).map (·.1)

/-- Where a poisoned unit has a good copy: the buddy's, or that of a clean granule of a page that is not buddied, or whose
buddy is lost (R447, R450, R451). The global address and the key. -/
def State.goodCopy (s : State) (a : Nat) : Option (Nat × Nat) :=
  match s.pageAt a with
  | none => none
  | some p =>
    let e := s.page p
    let o := a - s.frameBase e.frame
    if s.buddied p || (e.home ≠ 0 && !(e.buddy && s.tier.buddySt == 3) && !s.granDirty p (o / 65536)) then
      some (e.home + o, e.key)
    else none

/-- The HBM addresses of the poisoned units, ascending. -/
def State.poisoned (s : State) : List Nat := (s.hbm.unitMeta.filter fun u => u.2.poison).map fun u => 64 * u.1

/-- HBM_DATA_LOST in its unit form, once for each unit (R393). -/
def State.lostUnits (s : State) (bad : List Nat) : State :=
  let s := { s with hbm := { s.hbm with reported := s.hbm.reported.filter bad.contains } }
  bad.foldl (fun s a =>
    if s.hbm.reported.contains a then s
    else
      let s := s.report 5 4 0x20 (s.chanAt a) a
      let s := s.raise { code := 0x20, payload := [0, a, (s.unitAt a).fmt] }
      { s with hbm := { s.hbm with reported := s.hbm.reported ++ [a] } }) s

/-- The units of a stack's chunks below `top` that lie in the channel of service index `i` of `j` (R412). -/
def chunkUnits (n top i j : Nat) : List Nat :=
  ((List.range (top / 2048)).filter fun c => c % j == i).flatMap fun c =>
    (List.range 32).map fun u => n * 2 ^ 36 + 2048 * c + 64 * u

/-- HBM_DATA_LOST in its channel form for a map-out (R393): its units less those restored. -/
def State.lostChannel (s : State) (x : MapOut) : State :=
  let us := chunkUnits x.stack x.top x.idx x.count
  let lost := us.filter fun a => (s.unitAt a).poison || s.top x.stack ≤ a % 2 ^ 36
  if lost.isEmpty then s
  else
    let s := { s with hbm := { s.hbm with reported := s.hbm.reported ++ lost } }
    (s.report 5 4 0x20 (16 * x.stack + x.chan)).raise
      { code := 0x20, payload := [1, x.stack, x.chan, x.count, x.top, lost.length] }

/-- Every unit that had a good copy has been fetched again: what is poisoned still is lost (R393, R415). -/
def State.endRestore (s : State) : State :=
  let busy := s.fab.reqs.any fun (r : Req) => match r.why with | .restore _ => true | _ => false
  if !s.hbm.restoring || busy then s
  else
    let s := s.hbm.mapped.foldl (fun (s : State) x => s.lostChannel x) s
    State.lostUnits { s with hbm := { s.hbm with restoring := false, mapped := [] } } s.poisoned

/-- What Dorlen does about poisoned units before a repeat (R393, R447, R450): each with a good copy is asked for there. -/
def State.beginRestore (s : State) : State :=
  let s := { s with hbm := { s.hbm with restoring := true } }
  (s.poisoned.foldl (fun (s : State) a => match s.goodCopy a with
    | some c => s.sendReq (addrDev c.1) 1 c.1 [] c.2 64 0 0 (.restore a)
    | none => s) s).endRestore

/-- A poisoned unit comes back from its good copy; one refused stays poisoned. -/
def State.restoreDone (s : State) (a : Nat) (ok : Bool) (data : Bytes) : State :=
  (if ok then s.putHbm a data (s.unitAt a).fmt false true else s).endRestore

end Sys2Proof.Machine
end

