-- ==== Sys2Proof/Machine/Hbm.lean ====
section
/-! DEFINITION. The HBM's channels (07): row shadows, page retirement and map-out (R400 to R417), scrub, temperature and
refresh (R396, R418 to R420). -/

namespace Sys2Proof.Machine

/-! ### Map-outs (R411 to R417) -/

/-- The channels of stack n that are to be mapped out. -/
def State.dueChans (s : State) (n : Nat) : List Nat := (List.range 16).filter fun k => (s.chan (16 * n + k)).failing

/-- HBM_STACK_n.TOP once they are. -/
def State.topAfter (s : State) (n : Nat) : Nat :=
  ((s.dueChans n).foldl (fun (s : State) k => s.onChanRec (16 * n + k) fun r => { r with mappedOut := true }) s).top n

/-- The map-outs that are due in stack n begin: the frames that they remove are emptied, and the stack's window answers
BUSY (R411, R415, R416). -/
def State.beginRelayout (s : State) (n : Nat) : State :=
  let s := s.beginShrink n (s.topAfter n)
  { s with hbm := { s.hbm with stk := setAt s.hbm.stk n fun x => { x with relayout := true } } }

/-- The map-outs that are due begin in every stack. -/
def State.beginRelayouts (s : State) : State :=
  (List.range 6).foldl (fun s n =>
    if (s.dueChans n).isEmpty || (nth s.hbm.stk n {}).relayout then s else s.beginRelayout n) s

/-- Whether a map-out is due or under way in some stack. -/
def State.relayoutDue (s : State) : Bool :=
  (List.range 6).any fun n => !(s.dueChans n).isEmpty || (nth s.hbm.stk n {}).relayout

/-- The units that lie in a channel of stack n become poisoned, and partners whose buddy copies they hold are told (R414,
R453). -/
def State.poisonChan (s : State) (n k : Nat) : State :=
  let sv := s.service n
  (chunkUnits n (s.top n) (sv.idxOf k) sv.length).foldl (fun s a =>
    let s := s.onUnit a fun u => { u with poison := true }
    match Config.buddyOf (BitVec.ofNat 44 a) with
    | some d => if s.fab.numbered then s.send (.buddyPoison d.toNat a) else s
    | none => s) s

/-- One channel of stack n is mapped out (R413, R414, R417): its chunks below the new top are poisoned units, the offsets
above hold nothing, and a stack of fewer than 8 channels is retired. -/
def State.mapOut (s : State) (n k : Nat) : State :=
  let m := 16 * n + k
  let old := s.top n
  let sv := s.service n
  let j := sv.length
  let s := s.poisonChan n k
  let s := (s.onChanRec m fun r => { r with mappedOut := true }).onChan m fun c => { c with failing := false }
  let x : MapOut := { stack := n, chan := k, idx := sv.idxOf k, count := j, top := old }
  let s := { s with hbm := { s.hbm with mapped := s.hbm.mapped ++ [x] } }
  if j - 1 < 8 && 8 ≤ j then s.report 5 4 0x30B n else s

/-! ### The commands -/

/-- ROW_SHADOW_DONE (R402, R410): the row is served from its shadow and recorded as pending repair. -/
def execRowShadowDone (m : ChanIx) (s : State) : Out :=
  match (s.chan m.val).shadowing with
  | [] => .next s
  | r :: t =>
    let s := s.onChan m.val fun c => { c with shadowing := t }
    .next (s.onChanRec m.val fun c => { c with shadows := c.shadows ++ [r] })

/-- PAGE_RETIRE_DONE (R404 to R407, R410): the page is remapped to the channel's highest page that is no target. Where the
top falls, it waits until the frames there have been emptied, and HBM_SHRINK is raised. -/
def execPageRetireDone (m : ChanIx) (s : State) : Out :=
  match (s.chan m.val).retiring with
  | [] => .next s
  | pg :: t =>
    let n := m.val / 16
    let old := s.top n
    let target := chanCap / 4096 - 1 - (s.chanRec m.val).retired
    let lower := (s.onChanRec m.val fun c => { c with retired := c.retired + 1 }).top n
    let s := if lower < old then s.beginShrink n lower else s
    if lower < old && !s.shrinkClear then .next s
    else
      let s := s.onChan m.val fun c => { c with retiring := t }
      let s := s.report 3 4 0x306 m.val (s.chanAddr m.val (4096 * pg))
      let s := s.onChanRec m.val fun c =>
        { c with retired := c.retired + 1, remap := c.remap.filter (·.1 ≠ pg) ++ [(pg, target)] }
      .next (if lower < old then s.endShrink n lower old else s)

/-- RELAYOUT_DONE (R393, R407, R410, R412 to R417): once no page holds a frame in the part removed, the channels are mapped
out, and, with the last stack's, poisoned units are fetched again. The repeat starts by REPEAT_RESTART. With no step
running the map-out begins here (DEDUCED, log 15). -/
def execRelayoutDone (n : StackIx) (s : State) : Out :=
  let n := n.val
  if (s.dueChans n).isEmpty || (s.hal.job = 2 && !(nth s.hbm.stk n {}).relayout) then .next s
  else
    let s := s.beginRelayout n
    if !s.shrinkClear then .next s
    else
      let old := s.top n
      let due := s.dueChans n
      let s := due.foldl (fun (s : State) k => s.poisonChan n k) s
      let s := due.foldl (fun (s : State) k => s.mapOut n k) s
      let s := s.endShrink n (s.top n) old
      let s := { s with hbm := { s.hbm with stk := setAt s.hbm.stk n fun x => { x with relayout := false } } }
      .next (if s.relayoutDue then s else s.beginRestore)

/-- HBM_INTERFACE_ERROR (R400): a fourth consecutive failure of an access re-initialises the channel. -/
def execHbmInterfaceError (m : ChanIx) (cleared : Bool) (s : State) : Out :=
  if (s.chanRec m.val).mappedOut || (s.chan m.val).failing || (s.chan m.val).retrain.isSome then .next s
  else if 3 ≤ (s.chan m.val).retries then
    .next (s.onChan m.val fun c => { c with retries := 0, retrain := some (s.now + 2000000) })
  else if cleared then .next ((s.onChan m.val fun c => { c with retries := 0 }).report 2 4 0x308 m.val)
  else .next (s.onChan m.val fun c => { c with retries := c.retries + 1 })

/-- CHANNEL_RETRAIN_DONE (R400, R756): the channel's traffic resumes, or the channel has failed. A FUNC_REINIT that
waits for it learns the outcome. -/
def execChannelRetrainDone (m : ChanIx) (ok : Bool) (s : State) : Out :=
  if (s.chan m.val).retrain.isNone then .next s
  else
    let s := s.onChan m.val fun c => { c with retrain := none }
    let mark (c : PendCmd) : PendCmd :=
      if c.code = 0x14 && c.args == [3, m.val] then { c with args := [3, m.val, b2n ok] } else c
    let s := { s with hal := { s.hal with cmds := s.hal.cmds.map mark } }
    .next (if ok then s.report 2 4 0x309 m.val else s.channelFailure m.val)

/-- SCRUB_READ (R396 to R398): the next chunk of the channel. -/
def execScrubRead (m : ChanIx) (errs : List UnitErr) (s : State) : Out :=
  if (s.chanRec m.val).mappedOut || (s.chan m.val).failing then .next s
  else
    let c := (s.chan m.val).scrub
    let a := s.chanAddr m.val (2048 * c)
    let s := s.onChan m.val fun x => { x with scrub := (c + 1) % (chanCap / 2048) }
    if a % 2 ^ 36 < s.top (m.val / 16) then .next (((s.countHbm a 0 8).readErrs a 2048 errs).decodeAt a 2048) else .next s

/-- HBM_TEMP_READ (R418, R419, R422): THROTTLE_MS counts a reading taken with LEVEL below 8. -/
def execHbmTempRead (n : StackIx) (temp : BitVec 8) (s : State) : Out :=
  let t := temp.toInt
  let lim : Int := s.hbm.tThrot
  .next { s with hbm := { s.hbm with stk := setAt s.hbm.stk n.val fun x =>
    let last := (t :: x.reports).take 10
    { x with
      temp := t, reports := last
      throttleMs := if x.level < 8 then satAdd 32 x.throttleMs 1 else x.throttleMs
      level := if lim ≤ t && 1 < x.level then x.level - 1
        else if last.length = 10 && last.all (fun r => r ≤ lim - 3) && x.level < 8 then x.level + 1 else x.level } } }

/-- HBM_REFRESH (R420): a refresh changes no state that the specification names; what it costs is time. The cells that
have lost their charge since the last one hold changed symbols from here on: units of the channel, by their number in
its own offsets (DESIGN CHOICE, log 97). -/
def execHbmRefresh (m : ChanIx) (lost : List UnitErr) (s : State) : Out :=
  .next (lost.foldl (fun s e =>
    let a := s.chanAddr m.val (64 * e.unit)
    if (s.chanRec m.val).mappedOut || s.top (m.val / 16) ≤ a % 2 ^ 36 || chanCap ≤ 64 * e.unit then s
    else s.disturb a e.flips) s)

end Sys2Proof.Machine
end

