-- ==== Sys2Proof/Machine/StepCtl.lean ====
section
/-! DEFINITION. The step (04): micro-batch completion (R249 to R251), commit and swap (R252 to R254), repeat (R255),
snapshots (R266 to R268). -/

namespace Sys2Proof.Machine

/-- Changes the step's state. -/
def State.onStep (s : State) (f : Step → Step) : State := { s with step := f s.step }

/-- Changes every tile that holds anything. -/
def State.allTiles (s : State) (f : Nat → Tile → Tile) : State :=
  (List.range 192).foldl (fun s t => s.onTile t (f t)) s

/-! ### Micro-batches (R248 to R251) -/

/-- Sends END for every tag whose full blocks have all been sent (R342). -/
def State.endTags (s : State) : State :=
  (List.range s.red.tagCount).foldl (fun s tag =>
    if s.red.waiting.any fun w => w.1 == tag then s else s.endTag tag) s

/-- Logical tiles that hold Pannier records. -/
def State.residue (s : State) : List Nat :=
  (List.range 192).filter fun t => !(s.tile t).pn.main.isEmpty || !(s.tile t).pn.ckpt.isEmpty

/-- The count of this device's subtree in tree 0 goes on once it and every child's subtree have reported the attempt complete
(R360): to the parent, or from the root to its lead. A lead takes the counts itself (DESIGN CHOICE, log 20). Ledger message kind 2
is the report. -/
def State.passCount (s : State) : State :=
  let cs := (s.treeAt 0).2.map fun c => Tbl.get (0, 0, 0) s.red.subDone c
  if s.red.lead || s.red.sentDone || !s.red.selfDone ||
      !(cs.all fun x => x.1 == s.stepNo && x.2.1 == s.step.attempt) then s
  else
    let n := cs.foldl (fun a x => a + x.2.2) 1
    let s := { s with red := { s.red with sentDone := true } }
    if (s.treeAt 0).1.isSome then s.sayUp 0 0x41 2 (.ledger [s.fab.device, s.stepNo, s.step.attempt, n])
    else s.tellLead 2 [n]

/-- DRAIN_COUNT has reached MB_COUNT (R66, R221, R251, R342, R360): the device reports, unless a stack holds a record or a
program fault withholds the report. -/
def State.stepReport (s : State) : State :=
  let s := s.endTags
  if !s.residue.isEmpty then
    let s := s.onStep fun x => { x with withheld := true }
    let s := s.report 5 7 0x12 0
    (s.raise { code := 0x12, payload := s.residue }).halt
  else if s.step.withheld then s
  else
    let s := s.onStep fun x => { x with st := 2, since := s.now }
    if s.red.lead then s.tellLead 2 [1] else State.passCount { s with red := { s.red with selfDone := true } }

/-- A held commit becomes actionable once DRAIN_COUNT is full and ENDED is set (R252). -/
def State.tryCommit (s : State) : State :=
  let x := s.step
  if x.held = some s.stepNo && x.drainCount = x.mbCount && x.ended && x.actionable.isNone && (x.st = 1 || x.st = 2)
  then s.onStep fun x => { x with actionable := some s.now } else s

/-- Tile t writes MB_DONE with an index (R249, R250). An index from MB_COUNT to 0xFE is logged;
any other of a tile outside the tile set, or written while no attempt runs, has no effect (DEDUCED, log 16). -/
def State.mbDone (s : State) (t i : Nat) : State :=
  if s.step.mbCount ≤ i && i < 0xFF then s.report 0 7 0x282 0 0 (t + 2 ^ 32 * i)
  else if !s.step.tileSet.contains t || !(s.step.st = 1 || s.step.st = 2) then s
  else
    let s := s.onTile t fun x => if x.posts.contains i then x else { x with posts := x.posts ++ [i] }
    let all := s.step.tileSet.all fun q => (s.tile q).posts.contains i
    if !all then s
    else if i = 0xFF then (s.onStep fun x => { x with ended := true }).tryCommit
    else if s.step.counted.contains i then s
    else
      let s := s.onStep fun x => { x with counted := x.counted ++ [i], drainCount := x.drainCount + 1 }
      (if s.step.drainCount = s.step.mbCount then s.stepReport else s).tryCommit

/-- MB_DONE (R221, R248 to R251, R342, R343). -/
def execMbDone (t : TileIx) (index : BitVec 8) (s : State) : Out := .next (s.mbDone t.val index.toNat)

/-! ### Commit and swap -/

/-- A commit reaches the Tandem area of this device (R252, R861). -/
def State.commitLocal (s : State) (step : Nat) : State :=
  if step ≠ s.stepNo then s.report 0 7 0x280 0 0 step
  else (s.onStep fun x => { x with held := some step }).tryCommit

/-- Every unit's ACTIVE is flipped where WRITTEN is set, and WRITTEN cleared (R253). -/
def Step.flip (x : Step) : Step :=
  { x with active := x.written.foldl (fun a e => if e.2 then Tbl.upd false a e.1 (!·) else a) x.active, written := [] }

/-- Whether an access to a view that the home has accepted is still to be served: a swap lets it complete first (R253). -/
def State.viewsBusy (s : State) : Bool :=
  s.fab.queue.any fun h => let n := max 1 (if h.pkt.op = 1 then h.pkt.aux else h.pkt.data.length)
    !h.dup && h.pkt.op ≠ 0x20 && s.meetsViews (addrOff h.pkt.addr) n

/-- TANDEM_SWAP (R42, R43, R253, R254, R267, R519, R637, R653, R690, R691): a running snapshot copy holds it back, and so
does an access already accepted. -/
def execTandemSwap (s : State) : Out :=
  let copying := match s.step.ship with | some x => x.copying | none => false
  if s.step.actionable.isNone || copying || s.viewsBusy || !(s.step.st = 1 || s.step.st = 2) then .next s
  else
    let s := s.combineAll.onStep fun x => { x.flip with st := 3 }
    let s := s.allTiles fun _ x => { x with seq := .stopped }
    let s := { s with fab := { s.fab with cache := [] } }
    let s := (s.phasesZero.retryDeferred 0).retryDeferred 1
    .next s.settleSlots.carousel

/-- A snapshot copy begins after the swap of its step (R266): the range of the active view is read, and sent in packets
of one FMT, a poisoned unit alone. -/
def State.shipBegin (s : State) : State :=
  match s.step.ship with
  | none => s
  | some x =>
    if x.copying || !(x.at_ = 0 || x.at_ = s.step.committed) then s
    else
      let r := s.moveRead x.off x.len
      let b := r.1.flatMap (·.2.1)
      let s := r.2.onStep fun t =>
        { t with ship := some { x with copying := true, step := s.step.committed, sum := checkOf b } }
      s.sendUnits x.dst r.1 s.maxPayload x.key 0 0 .snapshot

/-- What the end of a step or of an attempt clears (R253, R255, R360). -/
def State.clearCounts (s : State) : State :=
  let s := s.onStep fun x =>
    { x with drainCount := 0, ended := false, counted := [], held := none, actionable := none, requested := false
             withheld := false }
  let s := { s with red := { s.red with st := [], redDone := [], waiting := [], selfDone := false, sentDone := false
                                        ctlWait := s.red.ctlWait.filter fun w => !w.2.2.2.2 } }
  s.allTiles fun _ x => { x with posts := [], comp := 0 }

/-- Starts the sequencers of every region that may start (R46, R253, R255, R652). -/
def State.startAll (s : State) : State := (List.range 16).foldl (fun s g => s.startRegion g) s

/-- A swap completes (R46, R67, R207, R253, R266, R360, R579, R753): a repeat asked for during the swap is requested in
the new step. -/
def State.swapComplete (s : State) : State :=
  let s := s.clearCounts.onStep fun x =>
    { x with committed := (x.committed + 1) % 2 ^ 64, firstCopies := 0, attempt := 0 }
  let s := s.shipBegin
  if s.step.stopping then
    ((s.onStep fun x => { x with st := 0, stopping := false, afterSwap := false }).setJob 1).finishAll 0x10A 0
  else
    let again := s.step.afterSwap
    let s := (s.onStep fun x => { x with st := 1, since := s.now, afterSwap := false }).startAll
    if again then s.requestRepeat else s

/-! ### Repeat (R255) -/

/-- The groups of an abandoned MM hold undefined values (R255): free values. -/
def State.groupsOpen (s : State) (t : Nat) (c : MxCmd) : State :=
  (List.range 8).foldl (fun s g =>
    if bit c.groups g then
      let d := s.draws 32 16384
      d.2.onTile t fun x => { x with acc := Tbl.setList 0 x.acc (16384 * g) d.1 }
    else s) s

/-- A repeat's arrival at tile t (R255, R307, R461): the sequencer stops and its queues are discarded. -/
def State.stopTile (s : State) (t : Nat) : State :=
  let s := ((s.tile t).mxq.filter fun c => c.op == 1 && c.st == 1).foldl (fun s c => s.groupsOpen t c) s
  s.onTile t fun x =>
    { x with seq := .stopped, mxq := [], panq := [], fabq := [], ftq := [], rowBusy := false
             vwait := [], unfenced := false }

/-- Requests whose issuer the repeat has discarded complete for nobody (R255, R461): a write already issued completes,
and its status goes nowhere. -/
def Purpose.orphan (w : Purpose) : Purpose :=
  match w with
  | .remote _ _ _ => .nobody
  | .copyRead _ _ _ => .nobody
  | .copyWrite _ _ => .nobody
  | .drain _ _ => .nobody
  | .stream _ _ _ => .nobody
  | w => w

/-- A repeat order reaches this device (R255, R348, R366, R861). While no step runs there is nothing to repeat, and while a
swap is made the order's step has just been committed: both are discarded and logged (DESIGN CHOICE, log 96). -/
def State.repeatLocal (s : State) (step attempt cause : Nat) (patches : List Patch) : State :=
  if step ≠ s.stepNo || attempt ≤ s.step.attempt || s.hal.job < 2 || s.step.st = 3 then
    s.report 0 7 0x281 0 0 (step + 2 ^ 64 * attempt)
  else
    let s := s.combineAll.onStep fun x =>
      { x with st := 4, attempt := attempt, repeating := some (attempt, cause, patches), repeatAt := s.now
               drained := false, requested := false, held := none, actionable := none, withheld := false }
    let s := (List.range 192).foldl (fun s t => s.stopTile t) s
    { s with
      fab := { s.fab with cache := [], refused := [], reqs := s.fab.reqs.map fun r => { r with why := r.why.orphan } }
      red := { s.red with st := [], waiting := [], ctlWait := s.red.ctlWait.filter fun w => !w.2.2.2.2 } }

/-- An exponent patch is written (R348). -/
def State.patch (s : State) (p : Patch) : State :=
  match p.block with
  | some b => s.putExp p.tag b p.code p.code s.stepNo
  | none => (List.range (s.tagEnt p.tag).blocks).foldl (fun s b =>
      let c := min 0xFE (s.expCode p.tag b + s.red.ovfBump)
      s.putExp p.tag b c c s.stepNo) s

/-- What a repeat does 10 us after its arrival, what the combining buffer has merged since written out and discarded with the
other writes of the update view (R50, R68, R51, R222, R255, R348, R360, R393, R411, R415, R447, R450, R637,
R753). Where a map-out is due, poisoned units are fetched again after it (R415). -/
def State.repeatDrained (s : State) : State :=
  let s := s.combineAll.clearCounts.onStep fun x => { x with written := [], repeats := satAdd 16 x.repeats 1, drained := true }
  let s := s.allTiles fun _ x => { x with pn := { x.pn with main := [], ckpt := [] } }
  let s := match s.step.repeating with
    | some (_, _, ps) => ps.foldl (fun (s : State) p => s.patch p) s
    | none => s
  let s := s.settleSlots.beginRelayouts
  (if s.relayoutDue then s else s.beginRestore).phasesZero

/-- Whether a FUNC_REINIT of a tile waits or runs (R756). -/
def State.tileReinit (s : State) : Bool := (s.pendingOf 0x14).any fun c => c.args.head? == some 1

/-- The attempt starts once the boundary's changes are made, no decision on a spare and no re-initialisation of a tile is
awaited, no coolant stop holds the device, and poisoned units have been restored (R46, R255, R415, R450, R596, R685,
R756). -/
def State.restart (s : State) : State :=
  if s.step.st ≠ 4 || !s.step.drained || s.hal.job ≠ 2 || s.slotsWait || s.tileReinit || s.heat.stop.isSome ||
      s.hbm.stk.any (·.relayout) || s.hbm.restoring then s
  else (s.onStep fun x => { x with st := 1, since := s.now, repeating := none }).startAll

/-- REPEAT_RESTART (R46, R255, R415, R596, R685). -/
def execRepeatRestart (s : State) : Out := .next s.restart

/-! ### Snapshots -/

/-- A snapshot ends with a status: its outstanding writes complete for nobody (R267, R268). The reply carries the step,
the byte count and the sum. -/
def State.shipEnd (s : State) (x : Ship) (status : Nat) : State :=
  let pay := if status = 0 then toBytes 8 x.step ++ toBytes 8 x.len ++ toBytes 8 x.sum else []
  let s := s.onStep fun t => { t with ship := none }
  State.finish { s with fab := { s.fab with reqs := s.fab.reqs.map fun r =>
    if r.why = .snapshot then { r with why := .nobody } else r } } x.cmd status pay

/-- SNAPSHOT_COPY_DONE (R268): every write has been acknowledged, or one has been refused. -/
def execSnapshotCopyDone (s : State) : Out :=
  match s.step.ship with
  | none => .next s
  | some x =>
    if !x.copying then .next s
    else if x.bad then .next (s.shipEnd x 0xC)
    else if s.fab.reqs.any fun r => r.why == .snapshot then .next s
    else .next (s.shipEnd x 0)

/-- SNAPSHOT_TIMEOUT (R267): 1 s after the next commit became actionable. -/
def execSnapshotTimeout (s : State) : Out :=
  match s.step.ship, s.step.actionable with
  | some x, some t => if x.copying && t + 1000000000 ≤ s.now then .next (s.shipEnd x 6) else .next s
  | _, _ => .next s

end Sys2Proof.Machine
end

