-- ==== Sys2Proof/Machine/Heat.lean ====
section
/-! DEFINITION. Groom's control of heat (13): sensors and sites (R667 to R673), the tray sideband (R674 to R676), flow
(R677, R678), the coolant limit (R679 to R682), the coolant stop (R683 to R686) and the warm floor (R693 to R695). -/

namespace Sys2Proof.Machine

/-- Changes the heat state. -/
def State.onHeat (s : State) (f : Heat → Heat) : State := { s with heat := f s.heat }

/-- A signed value in an event's payload. -/
def encInt (i : Int) : Nat := unsigned 32 i

/-! ### Sensors (R668 to R673). Readings and control values are in 0.25 degrees C. -/

/-- Whether a reading is not rejected (R669). -/
def fitsSensor (seen : Bool) (last x : Int) : Bool := -80 ≤ x && x ≤ 600 && (!seen || (x - last).natAbs ≤ 80)

/-- Whether a reading is accepted: it is not rejected, and its sensor is not FAILED (R669). -/
def accepts (failed seen : Bool) (last x : Int) : Bool := !failed && fitsSensor seen last x

/-- The neighbours of a BLIND site (R672). -/
def siteNeighbours (q : Nat) : List Nat :=
  let die (d : Nat) : List Nat := (List.range 104).map (104 * d + ·) ++ [208 + d, 210 + d]
  if q < 208 then
    (if q % 13 ≠ 0 then [q - 1] else []) ++ (if q % 13 ≠ 12 then [q + 1] else [])
  else if q < 212 then (die (q % 2)).filter (· ≠ q)
  else (die 0 ++ die 1 ++ [212, 213]).filter (· ≠ q)

/-- The highest control value of some sites. -/
def Heat.highest (h : Heat) (qs : List Nat) : Int :=
  let c (q : Nat) : Int := (nth h.sites q {}).ctrl
  match qs with
  | [] => 0
  | q :: t => t.foldl (fun m r => max m (c r)) (c q)

/-- A site after a conversion of its sensors (R669 to R672): the site, and whether sensors A and B failed and the pair
became suspect by it. -/
def Site.convert (x : Site) (a b : Int) (now : Nat) (blind : Int) : Site × Bool × Bool × Bool :=
  let fitA := fitsSensor x.seenA x.ta a
  let fitB := fitsSensor x.seenB x.tb b
  let okA := accepts x.failA x.seenA x.ta a
  let okB := accepts x.failB x.seenB x.tb b
  let rejA := if fitA then 0 else x.rejA + 1
  let rejB := if fitB then 0 else x.rejB + 1
  let failA := x.failA || 16 ≤ rejA
  let failB := x.failB || 16 ≤ rejB
  let both := okA && okB
  let wide := 24 < (a - b).natAbs
  let diffAt := if !both then x.diffAt else if wide then some (x.diffAt.getD now) else none
  let okAt := if !both then x.okAt else if wide then none else some (x.okAt.getD now)
  let suspect :=
    if x.suspect then !(match okAt with | some t => t + 10000000000 ≤ now | none => false)
    else match diffAt with | some t => t + 100000000 < now | none => false
  let st := if both then (if suspect then 1 else 0) else if okA || okB then 2 else 3
  let ctrl : Int := match st with
    | 0 => max a b
    | 1 => max a b + 12
    | 2 => (if okA then a else b) + 12
    | _ => blind + 24
  ({ x with
     ctrl := ctrl, ta := if okA then a else x.ta, tb := if okB then b else x.tb
     seenA := x.seenA || okA, seenB := x.seenB || okB, st := st, rejA := rejA, rejB := rejB, failA := failA
     failB := failB, suspect := suspect, diffAt := diffAt, okAt := okAt, peak := max x.peak ctrl
     rejects := satAdd 16 x.rejects (b2n (!fitA) + b2n (!fitB)), sum := x.sum + ctrl, n := x.n + 1
     hotRun := if 420 ≤ b then x.hotRun + 1 else 0 },
   failA && !x.failA, failB && !x.failB, suspect && !x.suspect)

/-- SENSOR_CONVERSION (R668 to R673, R696, R861). DEDUCED, log 60. -/
def execSensorConversion (q : Fin 214) (a b : Int) (s : State) : Out :=
  let r := (nth s.heat.sites q.val {}).convert a b s.now (s.heat.highest (siteNeighbours q.val))
  let s := s.onHeat fun h => { h with sites := setAt h.sites q.val fun _ => r.1 }
  let s := if r.2.1 then (s.report 3 0xA 0x66 q.val).raise { code := 0x66, payload := [q.val, 0] } else s
  let s := if r.2.2.1 then (s.report 3 0xA 0x66 q.val 0 1).raise { code := 0x66, payload := [q.val, 1] } else s
  .next (if r.2.2.2 then
      (s.report 0 0xA 0x65 q.val).raise { code := 0x65, payload := [q.val, encInt a, encInt b] } else s)

/-! ### The tray (R674 to R676) -/

/-- Groom's request to the tray (R675). -/
def State.trayReq (s : State) : State :=
  let h := s.heat
  let b := [1, 1] ++ toBytes 2 h.flowReq ++
    [BitVec.ofNat 8 h.reason, BitVec.ofNat 8 (b2n h.stop.isSome + 2 * b2n h.tripAlarm), 0]
  s.send (.tray (b ++ [BitVec.ofNat 8 (crc8 b)]))

/-- TRAY_REQUEST_REFRESH (R675). -/
def execTrayRequestRefresh (s : State) : Out := .next s.trayReq

/-! ### Flow (R677, R678), in mL/min -/

/-- Whether COOLANT_FLOW owns a GP pin. -/
def State.flowPin (s : State) (p : Nat) : Bool := (nth s.hal.res p {}).owner == 0x30

/-- What makes every source read as zero flow (R678): PUMP_FAIL or LEAK in the report of a tray that is not LOST, or GP2
while COOLANT_FLOW owns it. -/
def State.noPump (s : State) : Bool :=
  (!s.heat.lost && s.heat.status % 4 ≠ 0) || (s.heat.pumpFail && s.flowPin 2)

/-- The flow that the tray reports; none while it is LOST. -/
def State.trayFlow (s : State) : Option Nat :=
  if s.heat.lost then none else s.heat.trayFlow.map fun q => if s.noPump then 0 else q

/-- The flow that the pulse input gives, where COOLANT_FLOW owns one. -/
def State.pulseFlow (s : State) : Option Nat :=
  if !(s.flowPin 0 || s.flowPin 1) then none
  else
    let k := max 1 s.heat.flowK
    let quiet := max 50000000 (200000000000 / k)
    let n := (s.heat.pulses.filter fun t => s.now - t ≤ 100000000).length
    some (if s.noPump || quiet < s.now - s.heat.lastPulse then 0 else n * 600000 / k)

/-- The controlling flow (R677): the lower of the sources present. -/
def State.flow (s : State) : Option Nat :=
  match s.trayFlow, s.pulseFlow with
  | some a, some b => some (min a b)
  | some a, none => some a
  | none, b => b

/-- The filtered flow (R678). -/
def Heat.filtered (h : Heat) : Nat := meanOf (h.flows.map (·.2))

/-- FLOW_PULSE (R677). -/
def execFlowPulse (s : State) : Out :=
  if !(s.flowPin 0 || s.flowPin 1) then .next s
  else .next (s.onHeat fun h =>
    { h with pulses := (h.pulses.filter fun t => s.now - t ≤ 100000000) ++ [s.now], lastPulse := s.now })

/-- PUMP_FAIL_INPUT (R678): GP2, while COOLANT_FLOW owns it. -/
def execPumpFailInput (active : Bool) (s : State) : Out :=
  if s.flowPin 2 then .next (s.onHeat fun h => { h with pumpFail := active }) else .next s

/-! ### The coolant stop (R683 to R685) -/

/-- The rise of the excess outlet temperature over the last 500 ms in 0.01 degrees C, 0 before there is one. -/
def Heat.riseOf (h : Heat) (now : Nat) : Int :=
  match h.excess with
  | [] => 0
  | e :: t => match t.find? fun o => 500000000 ≤ now - o.1 with
    | some o => e.2 - o.2
    | none => 0

/-- A coolant stop is declared (R684): condition 0 the flow, 1 the outlet's rise. Its record is DEDUCED, log 60. -/
def State.coolStop (s : State) (cond flow : Nat) (rise : Int) : State :=
  let s := s.onHeat fun h => { h with stop := some s.now, stops := satAdd 16 h.stops 1, clearSince := none }
  let s := s.forceOn 3
  let s := s.onPwr fun p => { p with regions := p.regions.map fun r => { r with pace := 1, paceTop := 1 } }
  ((s.trayReq.report 4 0xA 0x62 0x100).raise { code := 0x62, payload := [cond, flow, encInt rise] }).requestRepeat

/-- Watches the flow and the outlet for a stop and for its end (R683, R685), while the main rails are up. -/
def State.watchFlow (s : State) : State :=
  if !s.boot.rails then s
  else
    let f := s.flow
    let low := match f with | some q => decide (q < 300) | none => false
    let rise := s.heat.riseOf s.now
    let s := s.onHeat fun h =>
      let ok := 1100 ≤ h.filtered && rise ≤ 100
      { h with lowSince := if low then some (h.lowSince.getD s.now) else none
               clearSince := if ok && h.stop.isSome then some (h.clearSince.getD s.now) else none }
    let long := match s.heat.lowSince with | some t => decide (t + 50000000 < s.now) | none => false
    if s.heat.stop.isSome then s
    else if long then s.coolStop 0 (f.getD 0) rise
    else if 100 < rise then s.coolStop 1 (f.getD 0) rise
    else s

/-- COOLANT_RESTORE (R685): the force is removed and the held attempt starts. -/
def execCoolantRestore (s : State) : Out :=
  match s.heat.stop, s.heat.clearSince with
  | some t, some c =>
    if s.now < c + 1000000000 then .next s
    else
      let s := s.onHeat fun h => { h with stop := none, clearSince := none }
      .next ((s.forceOff 3).trayReq.raise { code := 0x63, payload := [s.now - t] }).restart
  | _, _ => .next s

/-! ### The tray report -/

/-- A report is missing (R676). -/
def State.trayMiss (s : State) : State :=
  let s := s.onHeat fun h => { h with misses := satAdd 16 h.misses 1, missRun := h.missRun + 1, goodRun := 0 }
  if 3 ≤ s.heat.missRun && !s.heat.lost then
    (s.onHeat fun h => { h with lost := true, excess := [] }).raise { code := 0x67, payload := [s.heat.lastSeq.getD 0] }
  else s

/-- The excess outlet temperature of a report in 0.01 degrees C (R683); none without flow. -/
def State.excessNow (s : State) : Option Int :=
  let q := s.heat.filtered
  if q = 0 then none
  else some (s.heat.outlet - s.heat.inlet - (s.pwr.avgMs 100 * 1000000 / (6633 * q) : Nat))

/-- TRAY_REPORT (R632, R633, R674, R676, R678, R683, R684, R696, R849): none where the tray does not answer. -/
def execTrayReport (rep : Option (List Byte)) (s : State) : Out :=
  match rep with
  | none => .next s.trayMiss.watchFlow
  | some b =>
    if b.length ≠ 16 || crc8 (b.take 15) ≠ field b 15 1 || s.heat.lastSeq = some (field b 1 1) then
      .next s.trayMiss.watchFlow
    else
      let s := s.onHeat fun h =>
        let good := h.goodRun + 1
        { h with
          lastSeq := some (field b 1 1), missRun := 0, goodRun := good, lost := h.lost && good < 10
          inlet := signed 16 (field b 2 2), outlet := signed 16 (field b 4 2), trayFlow := some (field b 6 2)
          status := field b 10 1 }
      let w := field b 8 2
      let s := if w = 0 || s.heat.lost then s
        else
          let c := s.clampBudget w 1
          c.2.onPwr fun p => { p with trayBudget := some c.1, trayAt := s.now, stale := false }
      let s := match s.excessNow with
        | some e => if s.heat.lost then s else s.onHeat fun h =>
            { h with excess := (s.now, e) :: h.excess.filter fun x => s.now - x.1 ≤ 600000000 }
        | none => s
      .next s.watchFlow

/-! ### The coolant limit (R679 to R682) -/

/-- The flow capacity in watts (R679). -/
def Heat.capacity (h : Heat) : Nat :=
  if h.lost then h.wfLost else ((6633 * h.filtered : Int) * (100 * h.tOutMax - h.inlet) / 10000000).toNat

/-- The site of the highest control value (R680, R700): the lowest number of those that share it. -/
def Heat.hotSite (h : Heat) : Nat :=
  h.sites.zipIdx.foldl (fun b p => if (nth h.sites b {}).ctrl < p.1.ctrl then p.2 else b) 0

/-- The junction limit (R680): lowered while the hottest site is above T_HOT, raised once it has been 3 degrees below
for 100 ms. DEDUCED, log 59. -/
def State.junction (s : State) : State :=
  let q := s.heat.hotSite
  let t := (nth s.heat.sites q {}).ctrl
  let hot : Int := 4 * s.heat.tHot
  let p := s.pwr.avgMs 10 / 10
  if hot < t then
    let w := (match s.heat.wJunc with | some j => min j p | none => p) * 95 / 100
    let first := s.heat.wJunc.isNone
    let s := s.onHeat fun h => { h with wJunc := some w, coolAt := none }
    if first then s.raise { code := 0x64, payload := [q, encInt t, w] } else s
  else if t ≤ hot - 12 then
    let s := s.onHeat fun h => { h with coolAt := some (h.coolAt.getD s.now) }
    match s.heat.wJunc, s.heat.coolAt with
    | some j, some c =>
      if s.now < c + 100000000 then s
      else
        let w := ceilDiv (j * 102) 100
        s.onHeat fun h => { h with wJunc := if s.pwr.sust < w then none else some w }
    | _, _ => s
  else s.onHeat fun h => { h with coolAt := none }

/-- The coolant limit that Rein gets (R681): a fall at once, a rise once it has held for 1 s. 0xFFFF stands for none. -/
def State.coolLimit (s : State) : State :=
  let new := min (s.heat.wFlow.getD 0xFFFF) (s.heat.wJunc.getD 0xFFFF)
  let cur := s.pwr.coolant.getD 0xFFFF
  let put (s : State) (w : Nat) : State :=
    (s.onPwr fun p => { p with coolant := if w = 0xFFFF then none else some w }).onHeat fun h => { h with rise := none }
  if new ≤ cur then put s new
  else match s.heat.rise with
    | none => s.onHeat fun h => { h with rise := some (new, s.now) }
    | some (v, t) =>
      let m := min v new
      if t + 1000000000 ≤ s.now then put s m else s.onHeat fun h => { h with rise := some (m, t) }

/-- COOLANT_LOW and COOLANT_OK (R682). -/
def State.coolEvents (s : State) : State :=
  let q := s.heat.filtered
  if s.heat.flows.isEmpty then s
  else if q < 1100 && !s.heat.coolLow then
    (s.onHeat fun h => { h with coolLow := true, okSince := none }).raise
      { code := 0x60, payload := [q, encInt s.heat.inlet] }
  else if !s.heat.coolLow then s
  else if q < 1150 then s.onHeat fun h => { h with okSince := none }
  else
    let s := s.onHeat fun h => { h with okSince := some (h.okSince.getD s.now) }
    match s.heat.okSince with
    | some t =>
      if t + 10000000000 ≤ s.now then
        (s.onHeat fun h => { h with coolLow := false, okSince := none }).raise { code := 0x61, payload := [q] }
      else s
    | none => s

/-- COOLANT_LIMIT_UPDATE (R677 to R684, R696): while the main rails are up. -/
def execCoolantLimitUpdate (s : State) : Out :=
  if !s.boot.rails then .next s
  else
    let s := match s.flow with
      | some q => s.onHeat fun h =>
          { h with flows := (s.now, q) :: h.flows.filter fun x => s.now - x.1 < 100000000 }
      | none => s.onHeat fun h => { h with flows := h.flows.filter fun x => s.now - x.1 < 100000000 }
    let s := if s.heat.flows.isEmpty && !s.heat.lost then s
      else s.onHeat fun h => { h with wFlow := some h.capacity }
    .next s.junction.coolLimit.coolEvents.watchFlow

/-! ### Keeping warm (R693 to R695) -/

/-- The warm reading in 0.25 degrees C (R693). -/
def Heat.warm (h : Heat) : Int := min (nth h.sites 208 {}).ctrl (nth h.sites 209 {}).ctrl

/-- Groom's request changes (R675). -/
def State.setFlowReq (s : State) (f reason : Nat) : State :=
  State.trayReq (s.onHeat fun h => { h with flowReq := f, reason := reason })

/-- Idle activity starts or ends in every region (R650, R694; DESIGN CHOICE, log 22). -/
def State.activity (s : State) (on : Bool) : State :=
  let s := s.onHeat fun h => { h with warmAct := on, warmNow := if on then min 5 h.warmW else 0 }
  (List.range 16).foldl (fun s g =>
    if on then s.wantRegion g true else s.onPr g fun r => { r with activity := false }) s

/-- WARM_FLOOR_CHECK (R650, R675, R693). -/
def execWarmFloorCheck (s : State) : Out :=
  if s.hal.job = 2 then .next s
  else
    let h := s.heat
    let w := h.warm
    let fl : Int := 4 * h.warmFloor
    let base := if h.flowReq = 0 then h.filtered else h.flowReq
    let s := if w < fl && h.flowMinWarm < base then s.setFlowReq (max h.flowMinWarm (base - 100)) 1 else s
    let atMin := s.heat.flowReq = h.flowMinWarm || bit h.status 2
    let s := s.onHeat fun h => { h with
      belowSince := if w < fl && atMin then some (h.belowSince.getD s.now) else none }
    let long := match s.heat.belowSince with | some t => t + 10000000000 ≤ s.now | none => false
    let s := if long && !h.warmAct && s.boot.rails && 0 < h.warmW then s.activity true else s
    if fl + 20 < w && !s.heat.warmAct && s.heat.flowReq ≠ 0 then
      let f := s.heat.flowReq + 100
      .next (if 1600 ≤ f then s.setFlowReq 0 0 else s.setFlowReq f 1)
    else .next s

/-- IDLE_ACTIVITY_ADJUST (R694). -/
def execIdleActivityAdjust (s : State) : Out :=
  let h := s.heat
  let fl : Int := 4 * h.warmFloor
  if !h.warmAct then .next s
  else if h.warm < fl then .next (s.onHeat fun h => { h with warmNow := min h.warmW (h.warmNow + 5) })
  else if fl + 12 < h.warm then
    if h.warmNow ≤ 5 then .next (s.activity false)
    else .next (s.onHeat fun h => { h with warmNow := h.warmNow - 5 })
  else .next s

/-- A job starts (R695): idle activity stops, and the flow request is released with REASON 2. -/
def State.jobStarted (s : State) : State :=
  let s := s.onHeat fun h => { h with belowSince := none }
  State.setFlowReq (if s.heat.warmAct then s.activity false else s) 0 2

end Sys2Proof.Machine
end

