-- ==== Sys2Proof/Machine/Matrix.lean ====
section
/-! DEFINITION. The matrix engine (03): issue and its checks (R142 to R151), the MM and ZERO in the array (R133 to R141,
R152 to R177). -/

namespace Sys2Proof.Machine

/-! ### Issue -/

/-- A command record names its bits by number (R146). -/
def recBits (r : Bytes) (hi lo : Nat) : Nat := bits (field r 0 64) hi lo

/-- Whether an offset lies within the populated local store (R150). -/
def inLs (o n : Nat) : Bool := o + n ≤ lsSize

/-- A run of checks: the code of the first that fails, 0 when none does. Which of several causes a record reports is the order
of its checks (DESIGN CHOICE, log 92). -/
def firstFault : List (Bool × Nat) → Nat
  | [] => 0
  | (bad, code) :: t => if bad then code else firstFault t

/-- An operand descriptor of 128 bits (R147). -/
structure Opd where
  base : Nat
  mirror : Bool
  stride : Nat
  fmt : Nat
  c0 : Nat
  deriving DecidableEq, Repr

/-- The operand descriptor at bit `lo` of a record. -/
def opdOf (r : Bytes) (lo : Nat) : Opd :=
  { base := recBits r (lo + 21) lo, mirror := bit (recBits r (lo + 22) (lo + 22)) 0
    stride := recBits r (lo + 55) (lo + 32), fmt := recBits r (lo + 85) (lo + 64)
    c0 := recBits r (lo + 115) (lo + 96) }

/-- Whether a reserved bit of an operand descriptor is set (R147). -/
def opdReserved (r : Bytes) (lo : Nat) : Bool :=
  recBits r (lo + 31) (lo + 23) ≠ 0 || recBits r (lo + 63) (lo + 56) ≠ 0 || recBits r (lo + 95) (lo + 86) ≠ 0 ||
    recBits r (lo + 127) (lo + 116) ≠ 0

/-- The format descriptor at a local-store offset of tile t. -/
def State.descAt (s : State) (t o : Nat) : Desc := Desc.parse ((s.tile t).get o 48)

/-- Whether a descriptor's place breaks R150: not 16-byte aligned, or beyond the populated local store. -/
def descPlace (o : Nat) : Bool := !aligned o 16 || !inLs o 48

/-- Whether a mask's place breaks R150, for a mode and a number of groups. -/
def maskPlace (mode addr n : Nat) : Bool :=
  mode ≠ 0 && (!aligned addr 16 || !inLs addr (if mode = 1 then 16 * n else 1))

/-- Whether an operand's stored data reaches beyond the populated local store: `rows` rows of elements from C0 (R149). -/
def opdBeyond (d : Desc) (o : Opd) (rows n : Nat) : Bool :=
  let p := d.runAt o.c0 n
  !inLs (o.base + (rows - 1) * o.stride + p.1) p.2

/-- Whether the widening area that a descriptor names for decoding lies outside tile t's local store (R97, R149). -/
def wideBeyond (d : Desc) (t : Nat) : Bool :=
  let a := addrOff d.widenAddr
  d.format == 0x20 && (d.width == 4 || d.width == 6) && 0 < d.widenCap &&
    !(widenAddrOk d.widenAddr && lsBase + t * 0x400000 ≤ a && a + 48 * d.widenCap ≤ lsBase + t * 0x400000 + lsSize)

/-- Whether a format may be that of an MM operand (R150). -/
def opdFormatBad (d : Desc) : Bool := !d.ok || d.format == 1 || d.format == 0x30 || d.format == 0x31

/-- The checks of an MM record at issue (R150): a fault code, or 0. -/
def State.mmCheck (s : State) (t : Nat) (r : Bytes) : Nat :=
  let a := opdOf r 64
  let b := opdOf r 192
  let m := recBits r 25 16 + 1
  let n := recBits r 32 26 + 1
  let k := recBits r 48 33 + 1
  let g := recBits r 10 8
  let groups := ceilDiv m 128
  let mode := recBits r 13 12
  let da := s.descAt t a.fmt
  let db := s.descAt t b.fmt
  firstFault [
    (recBits r 14 14 ≠ 0 || recBits r 63 49 ≠ 0 || recBits r 511 342 ≠ 0 || mode = 3 || opdReserved r 64 ||
      opdReserved r 192, 0x101),
    (descPlace a.fmt || descPlace b.fmt || maskPlace mode (recBits r 341 320) groups, 0x103),
    ((s.tile t).marked a.fmt 48 || (s.tile t).marked b.fmt 48, 0x111),
    (opdFormatBad da || opdFormatBad db, 0x102),
    ((da.block && !aligned a.c0 32) || (db.block && !aligned b.c0 32) || wideBeyond da t || wideBeyond db t ||
      (if a.mirror then opdBeyond da a k m else opdBeyond da a m k) ||
      (if b.mirror then opdBeyond db b k n else opdBeyond db b n k), 0x103),
    (7 < g + groups - 1, 0x104)]

/-- The drain functions (R180, R234). -/
def drainFuncs : List Nat := [0, 1, 2, 3, 0x10, 0x11, 0x12, 0x13, 0x14, 0x15, 0x18, 0x19]

/-- Bytes of an output row of a DRAIN or a TOPK. -/
def rowBytesOf (op : Nat) (d : Desc) (n : Nat) : Nat := if op = 3 then 128 else d.rowBytes n

/-- Whether a local destination of `rows` rows of `n` bytes is refused by R62 or reaches the control area (R862). -/
def State.destRefused (s : State) (base stride rows n : Nat) : Bool :=
  (List.range rows).any fun i => !s.mapped (base + i * stride) n

/-- The checks of a DRAIN or TOPK record at issue (R150, R178, R187, R190, R231, R326, R862). -/
def State.drainCheck (s : State) (t : Nat) (r : Bytes) : Nat :=
  let op := recBits r 7 0
  let g := recBits r 10 8
  let gc := recBits r 13 11 + 1
  let dest := recBits r 18 16
  let func := recBits r 24 19
  let mode := recBits r 26 25
  let n := recBits r 33 27 + 1
  let bias := recBits r 117 96
  let ad := recBits r 191 128
  let stride := recBits r 223 192
  let fo := recBits r 245 224
  let aux := recBits r 319 256
  let useFmt := op = 2 && dest ≠ 3
  let d := s.descAt t fo
  let rb := rowBytesOf op d n
  let auxBad := if op = 3 then aux / 2 ^ 32 ≠ 0 else if 0x10 ≤ func then aux / 2 ^ 22 ≠ 0 else aux ≠ 0
  firstFault [
    (recBits r 63 34 ≠ 0 || recBits r 127 119 ≠ 0 || recBits r 255 246 ≠ 0 || recBits r 511 342 ≠ 0 || mode = 3 ||
      !drainFuncs.contains func || 3 < dest || (op = 3 && (func ≠ 0 || 1 < dest)) || auxBad ||
      (dest = 1 && 2 ≤ addrScope ad) || (dest = 2 && recBits r 159 148 ≠ 0), 0x101),
    ((useFmt && descPlace fo) || maskPlace mode (recBits r 341 320) gc ||
      (bit (recBits r 118 118) 0 && (!aligned bias 4 || !inLs bias (4 * n))), 0x103),
    (useFmt && (s.tile t).marked fo 48, 0x111),
    (useFmt && (!d.ok || d.format = 0x31 || ((dest = 2) != (d.format = 0x30)) ||
      ((d.block || d.format = 0x30) && !aligned n 32)), 0x102),
    (7 < g + gc - 1, 0x104),
    (op = 3 && 2 ^ 20 < aux % 2 ^ 32 + n, 0x106),
    (dest = 0 && (List.range (128 * gc)).any (fun i => !inLs (ad % 2 ^ 22 + i * stride) rb), 0x107),
    (dest = 1 && s.isOwn ad && s.destRefused (addrOff ad) stride (128 * gc) rb, 0x107)]

/-- The checks of a TOPK_MERGE record (R150, R191). -/
def State.mergeCheck (s : State) (r : Bytes) : Nat :=
  let n := recBits r 14 8
  let src := recBits r 85 64
  let ad := recBits r 191 128
  firstFault [
    (recBits r 63 16 ≠ 0 || recBits r 127 86 ≠ 0 || recBits r 511 192 ≠ 0 || 2 ≤ addrScope ad, 0x101),
    (n < 2 || 64 < n, 0x106),
    (!aligned src 16 || !inLs src (128 * n), 0x103),
    (s.isOwn ad && !s.mapped (addrOff ad) 128, 0x107)]

/-- The checks of a ZERO and of a BARRIER record (R860). -/
def zeroCheck (r : Bytes) : Nat :=
  firstFault [(recBits r 14 14 ≠ 0 || recBits r 511 16 ≠ 0, 0x101), (7 < recBits r 10 8 + recBits r 13 11, 0x104)]

/-- The checks of a BARRIER record (R860). -/
def barrierCheck (r : Bytes) : Nat := if recBits r 14 8 ≠ 0 || recBits r 511 16 ≠ 0 then 0x101 else 0

/-- The checks of a matrix command's record by its opcode. -/
def State.mxCheck (s : State) (t : Nat) (r : Bytes) : Nat :=
  match recBits r 7 0 with
  | 1 => s.mmCheck t r
  | 2 => s.drainCheck t r
  | 3 => s.drainCheck t r
  | 4 => s.mergeCheck r
  | 5 => zeroCheck r
  | _ => barrierCheck r

/-- A record that cannot be read (R150, R859): not aligned or beyond the local store, or marked poisoned; 0 when it
can. -/
def State.recFault (s : State) (t a : Nat) : Nat :=
  if !aligned a 64 || !inLs a 64 then 0x103 else if (s.tile t).marked a 64 then 0x111 else 0

/-- The queue entry of a matrix command as issued: its record and format descriptors are read once (R142). The
descriptors are read at issue (DESIGN CHOICE, log 92). -/
def State.mxEntry (s : State) (t a : Nat) (r : Bytes) : MxCmd :=
  let op := recBits r 7 0
  { id := (s.tile t).nextId, op := op, main := r, addr := a
    da := if op = 1 then s.descAt t (opdOf r 64).fmt else if op = 2 then s.descAt t (recBits r 245 224) else {}
    db := if op = 1 then s.descAt t (opdOf r 192).fmt else {}
    since := s.now }

/-- A sequencer issues a matrix command (R142, R143, R150): a full queue stalls it with the record it would issue. A command
holds its entry until it completes (DESIGN CHOICE, log 92). -/
def State.issueMx (s : State) (t op a : Nat) : State :=
  if 16 ≤ (s.tile t).mxq.length then s.onTile t fun x => { x with seq := .stall op a, since := s.now }
  else
    let f := s.recFault t a
    if f ≠ 0 then s.fault t f a op
    else
      let r := (s.tile t).get a 64
      let f := s.mxCheck t r
      if f ≠ 0 then s.fault t f a op
      else
        let e := s.mxEntry t a r
        s.onTile t fun x => { x with mxq := x.mxq ++ [e], nextId := x.nextId + 1 }

/-! ### The order of R144 -/

/-- Whether two sets of groups share one. -/
def share (a b : Nat) : Bool := a &&& b ≠ 0

/-- Whether a command runs in the array: MM or ZERO. -/
def MxCmd.array (c : MxCmd) : Bool := c.op = 1 || c.op = 5
/-- Whether a command runs in the drain unit. -/
def MxCmd.drains (c : MxCmd) : Bool := c.op = 2 || c.op = 3 || c.op = 4

/-- The command that the array, or the drain unit, may begin (R144): the first of its kind that waits, with none of its
kind executing before it, no BARRIER before it, and nothing before it on a group that it names. A drain-unit command that
only awaits its acknowledgements no longer executes (DESIGN CHOICE, log 92). -/
def nextStart (drain : Bool) (before : List MxCmd) : List MxCmd → Option MxCmd
  | [] => none
  | c :: t =>
    if c.op = 6 then none
    else if (if drain then c.drains else c.array) then
      if c.st = 0 then
        let clash := before.any fun p =>
          share p.groups c.groups && (if drain then p.array else p.drains && p.st ≠ 2)
        if clash then none else some c
      else if c.st = 1 then none
      else nextStart drain (before ++ [c]) t
    else nextStart drain (before ++ [c]) t

/-- Changes the entry of a command in tile t's matrix queue. -/
def State.onMx (s : State) (t id : Nat) (f : MxCmd → MxCmd) : State :=
  s.onTile t fun x => { x with mxq := x.mxq.map fun c => if c.id = id then f c else c }

/-- Takes a command out of the matrix queue. -/
def State.dropMx (s : State) (t id : Nat) : State :=
  s.onTile t fun x => { x with mxq := x.mxq.filter fun c => c.id ≠ id }

/-- A command that faults while it runs (R150, R151): it stops at the point reached and makes no post. -/
def State.faultMx (s : State) (t : Nat) (c : MxCmd) (code : Nat) : State := (s.dropMx t c.id).fault t code c.addr c.op

/-! ### Masks (R173, R174) -/

/-- Reads a command's mask: one 128-bit word per group, or a fault code. -/
def State.readMask (s : State) (t mode addr n : Nat) : List Nat × Nat :=
  if mode = 0 then (List.replicate n (2 ^ 128 - 1), 0)
  else
    let x := s.tile t
    if x.marked addr (if mode = 1 then 16 * n else 1) then ([], 0x111)
    else if mode = 1 then ((List.range n).map fun q => field (x.get (addr + 16 * q) 16) 0 16, 0)
    else
      let b := field (x.get addr 1) 0 1
      if b / 2 ^ n ≠ 0 then ([], 0x101)
      else ((List.range n).map fun q => if bit b q then 2 ^ 128 - 1 else 0, 0)

/-- Whether output row i is computed under a mask. -/
def unmasked (mask : List Nat) (i : Nat) : Bool := bit (nth mask (i / 128) 0) (i % 128)

/-! ### Arithmetic of a chunk (R139 to R141, R161 to R164) -/

/-- An operand element: its value, and whether it belongs to a zero block or to a widened block. -/
structure Elem where
  v : Num
  zero : Bool := false
  wide : Bool := false
  deriving DecidableEq, Repr

/-- The product of two elements, exact; a zero block's element gates it to +0 when the other is finite (R139, R141). -/
def elemMul (a b : Elem) : Num :=
  if (a.zero || b.zero) && a.v.isFin && b.v.isFin then .fin false 0 0 else a.v.mul b.v

/-- A finite value truncated toward zero at bit position q: its multiple of 2^q (R162). -/
def truncAt (q : Int) (v : Num) : Int :=
  match v with
  | .fin n m e =>
    let x : Nat := if q ≤ e then m <<< (e - q).toNat else m >>> (q - e).toNat
    if n then -(x : Int) else x
  | _ => 0

/-- The position of a chunk's last place and its truncated products (R162): none where a NaN or an infinity decides the sum.
For products that are all zero the position is that of a largest product of 1 (the model's unit, log 93). -/
def chunkTerms (ps : List Num) : Option (Int × List Int) :=
  if ps.any fun p => p.isNan || p.isInf then none
  else
    let nz := ps.filter fun p => !p.isZero
    let lg (v : Num) : Int := match v with | .fin _ m e => floorLog2 m 1 + e | _ => 0
    let q : Int := match nz with | [] => -60 | p :: t => t.foldl (fun a v => max a (lg v)) (lg p) - 60
    some (q, nz.map (truncAt q))

/-- The residue modulo 7 of a sum, from the residues of its terms (R198). -/
def residue7 (l : List Int) : Int := (l.foldl (fun a x => a + x % 7) 0) % 7

/-- A column error (R198): the chunk sum, `dev` off, has another residue than its products' residues give. -/
def colFails (ps : List Num) (dev : Int) : Bool :=
  match chunkTerms ps with
  | some t => (t.2.foldl (· + ·) 0 + dev) % 7 != residue7 t.2
  | none => false

/-- The sum of a chunk's products as an FP32 code (R162, R164). -/
def chunkSum (ps : List Num) : Nat :=
  let pinf := ps.any fun p => p == .inf false
  let ninf := ps.any fun p => p == .inf true
  if ps.any (·.isNan) || (pinf && ninf) then nan32
  else if pinf then 0x7F800000
  else if ninf then 0xFF800000
  else
    let nz := ps.filter fun p => !p.isZero
    match nz with
    | [] => if ps.all (·.sign) then 0x80000000 else 0
    | p :: t =>
      let lg (v : Num) : Int := match v with | .fin _ m e => floorLog2 m 1 + e | _ => 0
      let q := t.foldl (fun a v => max a (lg v)) (lg p) - 60
      let sum := nz.foldl (fun a v => a + truncAt q v) (0 : Int)
      if sum = 0 then 0 else toF32 (.fin (decide (sum < 0)) sum.natAbs q)

/-- A chunk's sum that is `dev` off. -/
def chunkSumOff (ps : List Num) (dev : Int) : Nat :=
  match chunkTerms ps with
  | some t =>
    let sum := t.2.foldl (· + ·) 0 + dev
    if dev = 0 then chunkSum ps else if sum = 0 then 0 else toF32 (.fin (decide (sum < 0)) sum.natAbs t.1)
  | none => chunkSum ps

/-- Lists of at most 64 elements (R161): `fuel` at least the length. -/
def chunks64 {α : Type} : Nat → List α → List (List α)
  | 0, _ => []
  | f + 1, l => if l.isEmpty then [] else l.take 64 :: chunks64 f (l.drop 64)

/-- The products of a line of A and a line of B, chunk by chunk (R161). -/
def chunkProducts (a b : List Elem) : List (List Num) := chunks64 a.length ((a.zip b).map fun p => elemMul p.1 p.2)

/-- An element's value after the chunks of a band (R163). -/
def accumulate (v : Nat) (a b : List Elem) : Nat := (chunkProducts a b).foldl (fun v c => f32add v (chunkSum c)) v

/-- By how much chunk k's sum is off. -/
def devOf (es : List ColErr) (k : Nat) : Int := (es.filter fun e => e.chunk == k).foldl (fun a e => a + e.dev) 0

/-- The same where chunk sums are off in a run that passes its checks: what a multiple of 7 hides (R198). -/
def accumulateOff (v : Nat) (a b : List Elem) (es : List ColErr) : Nat :=
  (chunkProducts a b).zipIdx.foldl (fun v c => f32add v (chunkSumOff c.1 (devOf es c.2))) v

/-- Whether an FP32 code is infinite or NaN. -/
def notFinite (c : Nat) : Bool := bits c 30 23 = 255

/-! ### Operands (R148, R169) -/

/-- Decodes one block record of an operand: its elements, whether it is malformed, and whether what was read is marked
poisoned (R93, R859). Its widening area lies in the tile's local store, as the issue has checked (R149). -/
def State.opBlock (s : State) (t : Nat) (d : Desc) (o : Nat) : List Elem × Bool × Bool :=
  let x := s.tile t
  let b := x.get o d.recSize
  let k := decodeBlock d b (s.wideRec d)
  let wide := d.format = 0x20 && d.width < k.width
  (k.vals.map fun v => ⟨v, k.zero, wide⟩, k.malformed, x.marked o d.recSize || s.wideFault d b ≠ 0)

/-- Elements `c` to `c + n - 1` of stored row `r` of an operand: elements, malformed blocks, poison. -/
def State.opRun (s : State) (t : Nat) (d : Desc) (o : Opd) (r c n : Nat) : List Elem × Nat × Bool :=
  let row := o.base + r * o.stride
  if d.block then
    let bs := (List.range ((c + n + 31) / 32 - c / 32)).map fun i => s.opBlock t d (row + (c / 32 + i) * d.recSize)
    (((bs.flatMap (·.1)).drop (c % 32)).take n, (bs.filter (·.2.1)).length, bs.any (·.2.2))
  else
    let p := d.runAt c n
    let b := (s.tile t).get (row + p.1) p.2
    ((List.range n).map fun i => ⟨decodeElem d.format (field b (i * d.recSize) d.recSize), false, false⟩, 0,
     (s.tile t).marked (row + p.1) p.2)

/-- A line of an operand along K: A's row i or B's column i, for `n` values of K from `k` on (R148): elements, malformed
blocks, poison. A Mirror operand's blocks run across K and are counted with the first line that meets them. -/
def State.opLine (s : State) (t : Nat) (d : Desc) (o : Opd) (i k n : Nat) (first : Bool) :
    List Elem × Nat × Bool :=
  if o.mirror then
    let es := (List.range n).map fun q => s.opRun t d o (k + q) (o.c0 + i) 1
    (es.flatMap (·.1), if first then es.foldl (fun a e => a + e.2.1) 0 else 0, es.any (·.2.2))
  else s.opRun t d o i (o.c0 + k) n

/-! ### The MM (R135 to R138, R152, R161 to R177) -/

/-- What an MM has done: state, fault, row passes, cycles that the present band has streamed, and load stalls. -/
structure MmRun where
  s : State
  fault : Nat := 0
  passes : Nat := 0
  streamed : Nat := 0
  stalls : Nat := 0
  rowCycles : Nat := 0
  wideRows : Nat := 0

/-- The rate of a command, four times its value (R134). -/
def rateOf (da db : Desc) : Nat := min da.rate4 db.rate4

/-- The band depth (R135). -/
def bandDepth (r4 : Nat) : Nat := if r4 = 1 then 128 else 32 * r4

/-- The shape of an MM: M, N, K, first group. -/
def MxCmd.m (c : MxCmd) : Nat := recBits c.main 25 16 + 1
/-- N. -/
def MxCmd.n (c : MxCmd) : Nat := recBits c.main 32 26 + 1
/-- K. -/
def MxCmd.k (c : MxCmd) : Nat := recBits c.main 48 33 + 1
/-- The first group. -/
def MxCmd.g (c : MxCmd) : Nat := recBits c.main 10 8

/-- Adds a row's products over a band into its group row (R152, R163), setting OVF (R164). Logical column j is physical
column j of `phys`, and `es` what befalls the run's chunk sums (R197, R199). -/
def Tile.addRow (x : Tile) (g i : Nat) (a : List Elem) (b : List (List Elem)) (phys : List Nat) (es : List ColErr) : Tile :=
  b.zipIdx.foldl (fun x c =>
    let key := 16384 * (g + i / 128) + 128 * (i % 128) + c.2
    let es := es.filter fun e => e.col.val == nth phys c.2 130
    let old := Tbl.get 0 x.acc key
    let v := if es.isEmpty then accumulate old a c.1 else accumulateOff old a c.1 es
    { x with acc := Tbl.set 0 x.acc key v, ovf := if notFinite v then x.ovf ||| 2 ^ (g + i / 128) else x.ovf }) x

/-- The physical columns in error in a run (R197, R198). -/
def failingCols (a : List Elem) (b : List (List Elem)) (phys : List Nat) (es : List ColErr) : List Nat :=
  (b.zipIdx.filter fun c =>
    let es := es.filter fun e => e.col.val == nth phys c.2 130
    let ps := chunkProducts a c.1
    es.any fun e => colFails (nth ps e.chunk []) (devOf es e.chunk)).map fun c => nth phys c.2 130

/-- The failing columns of the runs of a row until one passes, at most three (R199). -/
def failedRuns (fails : Nat → List Nat) : List (List Nat) :=
  if (fails 0).isEmpty then []
  else if (fails 1).isEmpty then [fails 0]
  else if (fails 2).isEmpty then [fails 0, fails 1]
  else [fails 0, fails 1, fails 2]

/-- Whether row i is the first unmasked row of its group. -/
def firstOfGroup (mask : List Nat) (i : Nat) : Bool :=
  (List.range (i % 128)).all fun j => !unmasked mask (i / 128 * 128 + j)

/-- The chunks that a group takes with its first row of a band (R158, R166). -/
def Tile.takeChunks (x : Tile) (g n : Nat) : Tile := { x with chunks := setAt x.chunks g (· + n) }

/-- Whether row i is the first unmasked row of its run of 32 (R148). -/
def firstOf32 (mask : List Nat) (i : Nat) : Bool :=
  (List.range (i % 32)).all fun j => !unmasked mask (i / 32 * 32 + j)

/-- The cycles of a band load (R193). -/
def bandLoad (c : MxCmd) (dep : Nat) (band : List (List Elem)) : Nat :=
  let o := opdOf c.main 192
  let lines := if o.mirror then dep else c.n
  let len := if o.mirror then c.n else dep
  let wide := (band.zipIdx.map fun l => (l.1.zipIdx.filter fun e =>
    e.1.wide && (if o.mirror then l.2 else e.2) % 32 == 0).length).foldl (· + ·) 0
  ceilDiv (lines * (c.db.runAt 0 len).2 + 48 * wide) 256 + (if o.mirror then 32 else 0)

/-- One row of A passes a loaded band (R136, R137, R175), again after a column error, and once more under the new mapping after
a third (R199, R200). A row that fails both retries retires the columns that fail its last one (DESIGN CHOICE, log 93). -/
def mmRow (t : Nat) (c : MxCmd) (mask : List Nat) (cols : List ColErr) (n k0 dep load : Nat) (band : List (List Elem))
    (sram : Sram) (r : MmRun) (i : Nat) : MmRun :=
  if r.fault ≠ 0 || !unmasked mask i then r
  else if sramStops sram r.passes then { r with fault := 0x112 }
  else
    let line := r.s.opLine t c.da (opdOf c.main 64) i k0 dep (firstOf32 mask i)
    if line.2.2 then { r with fault := 0x111 }
    else
      let r4 := rateOf c.da c.db
      let wide := r4 = 8 && (line.1.any (·.wide) || band.any fun l => l.any (·.wide))
      let cyc := if r4 = 1 then 4 else if wide then 2 else 1
      let phys := match r.s.slotOf t with | some sl => r.s.physCols sl | none => List.range 128
      let errs (q : Nat) := cols.filter fun e => e.band == n && e.row == i && e.run.val == q
      let fs := failedRuns fun q => failingCols line.1 band phys (errs q)
      let runs := fs.length + 1
      let s := r.s.count c.da.cset { malformed := line.2.1 }
      let s := match s.slotOf t with
        | some sl => if fs.isEmpty then s else s.rowErrors sl fs
        | none => s
      let es := if fs.length = 3 then [] else errs fs.length
      { r with s := s.onTile t fun x =>
                 let x := if firstOfGroup mask i then x.takeChunks (c.g + i / 128) (ceilDiv dep 64) else x
                 x.addRow c.g i line.1 band phys es
               passes := r.passes + 1, streamed := r.streamed + runs * cyc, rowCycles := r.rowCycles + runs * cyc
               stalls := if fs.length = 3 then r.stalls + load else r.stalls
               wideRows := r.wideRows + b2n wide }

/-- One band: B is loaded, on the columns then in service (R200), and every unmasked row of A passes it (R135, R136). -/
def mmBand (t : Nat) (c : MxCmd) (mask : List Nat) (cols : List ColErr) (sram : Sram) (r : MmRun) (b : Nat) : MmRun :=
  if r.fault ≠ 0 then r
  else
    let dep0 := bandDepth (rateOf c.da c.db)
    let k0 := b * dep0
    let dep := min dep0 (c.k - k0)
    let s0 := match r.s.slotOf t with | some sl => r.s.loadCols sl | none => r.s
    let ls := (List.range c.n).map fun j => s0.opLine t c.db (opdOf c.main 192) j k0 dep (j % 32 == 0)
    if ls.any (·.2.2) then { r with s := s0, fault := 0x111 }
    else
      let band := ls.map (·.1)
      let load := bandLoad c dep band
      let r := { r with
        s := s0.count c.db.cset { malformed := ls.foldl (fun a l => a + l.2.1) 0 }
        stalls := r.stalls + (load - r.streamed), streamed := 0 }
      (List.range c.m).foldl (mmRow t c mask cols b k0 dep load band sram) r

/-- INIT and ZERO: groups read as +0, and LONG, OVF and POISON are cleared (R159, R860). -/
def Tile.zeroGroups (x : Tile) (g n : Nat) : Tile :=
  let keep := 255 - ((2 ^ n - 1) * 2 ^ g) % 256
  { x with acc := Tbl.clear x.acc (16384 * g) (16384 * (g + n))
           chunks := x.chunks.zipIdx.map fun p => if g ≤ p.2 && p.2 < g + n then 0 else p.1
           ovf := x.ovf &&& keep, poison := x.poison &&& keep }

/-- The counters of an MM (R806, R807, R640). -/
def Tile.countMm (x : Tile) (c : MxCmd) (rows masked pace : Nat) (r : MmRun) : Tile :=
  let w := rows * c.n * c.k
  let o := x.ops
  let o := match rateOf c.da c.db with
    | 32 => { o with mac8 := sat64 o.mac8 w }
    | 16 => { o with mac4 := sat64 o.mac4 w }
    | 8 => { o with mac2 := sat64 o.mac2 w }
    | 4 => { o with mac1 := sat64 o.mac1 w }
    | _ => { o with macQ := sat64 o.macQ w }
  { x with ops := { o with
      rowCycles := sat64 o.rowCycles r.rowCycles, wideRows := sat64 o.wideRows r.wideRows
      maskedRows := sat64 o.maskedRows masked, loadStalls := sat64 o.loadStalls r.stalls
      paced := sat64 o.paced (r.rowCycles * (16 - pace) / max 1 pace) } }

/-- Uncorrectable words met in the accumulators of the groups of `bad` (R158, R160, R744). -/
def State.accStruck (s : State) (t groups bad : Nat) : State :=
  (List.range 8).foldl (fun s g =>
    if bit groups g && bit bad g then
      let s := s.onTile t fun x => { x with poison := x.poison ||| 2 ^ g }
      match s.slotOf t with | some sl => s.sramUncorrectable sl | none => s
    else s) s

/-- An MM executes in the array. -/
def State.runMm (s : State) (t : Nat) (c : MxCmd) (cols : List ColErr) (bad : Nat) (sram : Sram) : State :=
  let n := ceilDiv c.m 128
  let mk := s.readMask t (recBits c.main 13 12) (recBits c.main 341 320) n
  if mk.2 ≠ 0 then s.faultMx t c mk.2
  else
    let mask := mk.1
    let s := if bit (recBits c.main 11 11) 0 then s.onTile t fun x => x.zeroGroups c.g n else s
    let rows := ((List.range c.m).filter (unmasked mask)).length
    let s := s.onMx t c.id fun c => { c with st := 1, mask := mask }
    let pace := (nth s.pwr.regions (t / 12) {}).pace
    if rows = 0 then s.onTile t fun x => x.countMm c 0 c.m pace { s := s }
    else
      let s := s.accStruck t c.groups bad
      let bands := ceilDiv c.k (bandDepth (rateOf c.da c.db))
      let r := (List.range bands).foldl (mmBand t c mask cols sram) { s := s }
      let s := r.s.onTile t fun x => x.countMm c rows (c.m - rows) pace r
      if r.fault ≠ 0 then s.faultMx t c r.fault else s

/-- ARRAY_CMD_START (R133 to R141, R144, R150 to R152, R159 to R177, R197 to R202, R744, R859, R860). -/
def execArrayCmdStart (t : TileIx) (cols : List ColErr) (accBad : BitVec 8) (sram : Sram) (s : State) : Out :=
  match nextStart false [] (s.tile t.val).mxq with
  | none => .next s
  | some c =>
    let s := s.onMx t.val c.id fun c => { c with st := 1 }
    if c.op = 5 then .next (s.onTile t.val fun x => x.zeroGroups c.g (recBits c.main 13 11 + 1))
    else
      let s := (s.sramRead t.val sram).1
      .next (s.runMm t.val c cols accBad.toNat sram)

/-- ARRAY_CMD_DONE (R145). -/
def execArrayCmdDone (t : TileIx) (s : State) : Out :=
  match (s.tile t.val).mxq.find? fun c => c.array && c.st == 1 with
  | none => .next s
  | some c => .next ((s.dropMx t.val c.id).postIf t.val c.main)

/-- BARRIER_DONE (R142, R144, R145): every earlier matrix command of the tile has completed. -/
def execBarrierDone (t : TileIx) (s : State) : Out :=
  match (s.tile t.val).mxq with
  | c :: _ => if c.op = 6 then .next ((s.dropMx t.val c.id).postIf t.val c.main) else .next s
  | [] => .next s

end Sys2Proof.Machine
end

