-- ==== Sys2Proof/Machine/Pannier.lean ====
section
/-! DEFINITION. The Pannier stack (R208 to R230): issue, order and configuration checks, records, spill, restore and
the RECOMPUTE outcome. -/

namespace Sys2Proof.Machine

/-- Whether an owner holds a staging-buffer share (R609, R613). -/
def State.holdsShare (s : State) (owner : Nat) : Bool := (s.hal.res.drop 16).any fun r => r.owner == owner

/-- Changes tile t's Pannier registers and stacks. -/
def State.onPn (s : State) (t : Nat) (f : Pannier → Pannier) : State := s.onTile t fun x => { x with pn := f x.pn }

/-- Changes the command at the head of tile t's Pannier queue. -/
def State.onPnHead (s : State) (t : Nat) (f : PnCmd → PnCmd) : State :=
  s.onTile t fun x => { x with panq := match x.panq with | c :: q => f c :: q | [] => [] }

/-- Takes the head of tile t's Pannier queue out. -/
def State.dropPn (s : State) (t : Nat) : State := s.onTile t fun x => { x with panq := x.panq.drop 1 }

/-! ### Records (R212, R223) -/

/-- Bytes that a record occupies. -/
def pnSize (len : Nat) : Nat := roundUp (64 + len) 256

/-- The logical offset at which the next record of a stack begins. -/
def pnEnd : List PnRec → Nat
  | [] => 0
  | r :: _ => r.off + pnSize r.len

/-- The ring's size in bytes. -/
def Pannier.ring (p : Pannier) : Nat := 4096 * p.mainPages

/-- Bytes of the records that the ring holds: resident, being spilled or being restored. -/
def Pannier.held (p : Pannier) : Nat :=
  (p.main.filter fun r => r.place ≠ 2).foldl (fun a r => a + pnSize r.len) 0

/-- The lowest logical offset that the ring still holds, or the stack's end. -/
def Pannier.lowest (p : Pannier) : Nat :=
  (p.main.filter fun r => r.place ≠ 2).foldl (fun a r => min a r.off) (pnEnd p.main)

/-- The header of a record (R212). -/
def PnRec.header (r : PnRec) : Bytes :=
  toBytes 4 r.tag ++ toBytes 1 r.mb ++ toBytes 1 r.fmt ++ toBytes 1 (b2n r.ckpt) ++ [0] ++ toBytes 4 r.len ++
    toBytes 2 r.seg ++ toBytes 2 r.step ++ toBytes 8 r.check ++ List.replicate 40 0

/-- The two parts of a run of `n` bytes at logical offset `o` in an area that wraps: local offsets and lengths. -/
def ringParts (base size o n : Nat) : Nat × Nat × Nat × Nat :=
  let p := o % size
  (base + p, min n (size - p), base, n - (size - p))

/-- Writes a record's bytes into its area. -/
def State.ringWrite (s : State) (base size o : Nat) (b : Bytes) (fmt : Nat) (pois : Bool) : State :=
  let p := ringParts base size o b.length
  let s := s.memWrite p.1 (b.take p.2.1) fmt pois
  if p.2.2.2 = 0 then s else s.memWrite p.2.2.1 (b.drop p.2.1) fmt pois

/-- Reads a record's bytes from its area. -/
def State.ringRead (s : State) (base size o n : Nat) : Bytes × Bool × State :=
  let p := ringParts base size o n
  let a := s.memRead p.1 p.2.1
  if p.2.2.2 = 0 then a
  else
    let b := a.2.2.memRead p.2.2.1 p.2.2.2
    (a.1 ++ b.1, a.2.1 || b.2.1, b.2.2)

/-! ### Issue (R214 to R218) -/

/-- The checks of a Pannier record at issue: a reserved field value or bit, then the payload's place. -/
def pnCheck (r : Bytes) : Nat :=
  let op := recBits r 7 0
  let len := recBits r 117 96
  let ls := recBits r 85 64
  firstFault [
    (recBits r 14 9 ≠ 0 || recBits r 95 86 ≠ 0 || recBits r 127 118 ≠ 0 || recBits r 511 144 ≠ 0, 0x101),
    (op ≠ 0x44 && (!aligned ls 32 || len = 0 || 0x300000 < len || !formatCodes.contains (recBits r 31 24)), 0x101),
    (op ≠ 0x44 && !inLs ls len, 0x103)]

/-- A sequencer issues a Pannier command (R214, R216): a full queue stalls it. -/
def State.issuePn (s : State) (t op a : Nat) : State :=
  if 8 ≤ (s.tile t).panq.length then s.onTile t fun x => { x with seq := .stall op a, since := s.now }
  else
    let f := s.recFault t a
    if f ≠ 0 then s.fault t f a op
    else
      let r := (s.tile t).get a 64
      let f := pnCheck r
      if f ≠ 0 then s.fault t f a op
      else
        let e : PnCmd := { id := (s.tile t).nextId, op := op, main := r, addr := a, since := s.now }
        s.onTile t fun x => { x with panq := x.panq ++ [e], nextId := x.nextId + 1 }

/-! ### Spill and restore (R224 to R227) -/

/-- Starts a spill while the ring holds more than HIGH / 256 of its size (R224). -/
def State.spill (s : State) (t : Nat) : State :=
  let p := (s.tile t).pn
  if p.high * p.ring < 256 * p.held && p.spillBase ≠ 0 && s.holdsShare 0x20 && !(p.main.any fun r => r.place == 1) then
    match (p.main.filter fun r => r.place == 0).getLast? with
    | some r => s.onPn t fun p =>
        { p with main := p.main.map fun q => if q.off = r.off then { q with place := 1 } else q }
    | none => s
  else s

/-- Starts a restore while the ring holds less than LOW / 256 of its size (R227): the highest spilled record. -/
def State.restore (s : State) (t : Nat) : State :=
  let p := (s.tile t).pn
  if 256 * p.held < p.low * p.ring && !(p.main.any fun r => r.place == 3) then
    match p.main.find? fun r => r.place == 2 with
    | some r =>
      if pnEnd p.main - r.off ≤ p.ring then s.onPn t fun p =>
        { p with main := p.main.map fun q => if q.off = r.off then { q with place := 3 } else q }
      else s
    | none => s
  else s

/-- What the ring's filling makes due once records have left it, or a spill has been abandoned (R224, R225, R227). -/
def State.balance (s : State) (t : Nat) : State := (s.restore t).spill t

/-- A share of the staging buffer has come to PANNIER_SPILL: what waited for it begins (R224, R613). -/
def State.spillAll (s : State) : State := (List.range 192).foldl (fun (s : State) t => s.spill t) s

/-! ### Execution -/

/-- A Pannier command faults as it executes: it has no effect (R218, R151). -/
def State.faultPn (s : State) (t : Nat) (c : PnCmd) (code : Nat) : State := (s.dropPn t).fault t code c.addr c.op

/-- The configuration checks of R218. -/
def State.pnConfigBad (s : State) (p : Pannier) : Bool :=
  p.mainPages = 0 || !aligned p.mainBase 4096 || !aligned p.ckptBase 4096 || !aligned p.spillBase 0x200000 ||
    !s.inHbm p.mainBase p.ring || (p.ckptPages ≠ 0 && !s.inHbm p.ckptBase (4096 * p.ckptPages)) ||
    (p.spillBase ≠ 0 && !inTier p.spillBase (4096 * p.spillPages))

/-- The record that a PUSH makes at a logical offset (R212). -/
def State.pushRec (s : State) (c : PnCmd) (ckpt : Bool) (off : Nat) (payload : Bytes) : PnRec :=
  { off := off, tag := recBits c.main 63 32, mb := recBits c.main 23 16, fmt := recBits c.main 31 24
    len := recBits c.main 117 96, seg := recBits c.main 143 128, step := s.stepNo % 65536
    check := checkOf payload, ckpt := ckpt }

/-- Whether a PUSH of `size` bytes can be placed in the ring or the checkpoint area: 0 it can, 1 it waits for a spill,
2 it faults with PANNIER_FULL (R226). -/
def State.pnPlace (s : State) (p : Pannier) (ckpt : Bool) (size : Nat) : Nat :=
  if ckpt then (if pnEnd p.ckpt + size ≤ 4096 * p.ckptPages then 0 else 2)
  else if p.ring < size then 2
  else if pnEnd p.main + size - p.lowest ≤ p.ring then 0
  else if p.spillBase = 0 || !s.holdsShare 0x20 || 4096 * p.spillPages < pnEnd p.main + size then 2 else 1

/-- A PUSH writes its record (R212, R215, R395), or waits (0x20), or faults. -/
def State.pushStart (s : State) (t : Nat) (c : PnCmd) (sram : Sram) : State :=
  let ckpt := bit (recBits c.main 8 8) 0
  let p := (s.tile t).pn
  let len := recBits c.main 117 96
  let ls := recBits c.main 85 64
  let noseg := !ckpt && match p.ckpt with
    | r :: _ => r.seg ≠ recBits c.main 143 128 || r.mb ≠ recBits c.main 23 16
    | [] => true
  if noseg then s.faultPn t c 0x10E
  else
    match s.pnPlace p ckpt (pnSize len) with
    | 0 =>
      if (s.tile t).marked ls len then s.faultPn t c 0x111
      else if sramStops sram 0 then s.faultPn t c 0x112
      else
        let payload := (s.tile t).get ls len
        let r := s.pushRec c ckpt (pnEnd (if ckpt then p.ckpt else p.main)) payload
        let s := s.ringWrite (if ckpt then p.ckptBase else p.mainBase) (if ckpt then 4096 * p.ckptPages else p.ring)
          r.off (r.header ++ payload) r.fmt false
        s.onPnHead t fun c => { c with wait := 0, rcd := some r }
    | 1 => (s.onPnHead t fun c => { c with wait := 0x20, since := s.now }).spill t
    | _ => s.faultPn t c 0x10C

/-- Whether a POP or PEEK names other values than the top record's header (R218). -/
def pnMismatch (c : PnCmd) (r : PnRec) : Bool :=
  recBits c.main 63 32 ≠ r.tag || recBits c.main 23 16 ≠ r.mb || recBits c.main 143 128 ≠ r.seg ||
    recBits c.main 31 24 ≠ r.fmt || recBits c.main 117 96 ≠ r.len

/-- A POP or PEEK begins (R218, R219, R225, R227): a record not resident makes it wait (0x21). -/
def State.popStart (s : State) (t : Nat) (c : PnCmd) : State :=
  let ckpt := bit (recBits c.main 8 8) 0
  let p := (s.tile t).pn
  match (if ckpt then p.ckpt else p.main) with
  | [] => s.faultPn t c 0x10B
  | r :: _ =>
    let order := ckpt && c.op = 0x42 && match p.main with
      | m :: _ => m.seg = r.seg && m.mb = r.mb
      | [] => false
    if pnMismatch c r || order then s.faultPn t c 0x10D
    else if ckpt || r.place = 0 then s
    else if r.place = 1 then s.onPn t fun p =>
      { p with main := p.main.map fun q => if q.off = r.off then { q with place := 0 } else q }
    else (s.onPnHead t fun c => { c with wait := 0x21, since := s.now, due := s.now + 1000 * p.graceUs }).restore t

/-- PANNIER_CMD_START (R212, R214 to R220, R225, R226, R744, R859): one command at a time, in issue order. -/
def execPannierCmdStart (t : TileIx) (sram : Sram) (s : State) : Out :=
  match (s.tile t.val).panq with
  | [] => .next s
  | c :: _ =>
    if c.st ≠ 0 then .next s
    else
      let s := s.onPnHead t.val fun c => { c with st := 1 }
      if s.pnConfigBad (s.tile t.val).pn then .next (s.faultPn t.val c 0x10A)
      else if c.op = 0x44 then
        let s := s.onPn t.val fun p => { p with main := [], ckpt := [] }
        .next ((s.dropPn t.val).postIf t.val c.main)
      else if c.op = 0x41 then .next ((s.sramRead t.val sram).1.pushStart t.val c sram)
      else .next (s.popStart t.val c)

/-- Payload bytes pushed and popped (R806). -/
def State.countPn (s : State) (t n : Nat) : State := s.onOps t fun o => { o with pnBytes := sat64 o.pnBytes n }

/-- PUSH_DONE (R145, R212, R215, R224). -/
def execPushDone (t : TileIx) (s : State) : Out :=
  match (s.tile t.val).panq with
  | c :: _ => match c.rcd with
    | some r =>
      let s := s.onPn t.val fun p => if r.ckpt then { p with ckpt := r :: p.ckpt } else { p with main := r :: p.main }
      let s := ((s.dropPn t.val).countPn t.val r.len).postIf t.val c.main
      .next (s.spill t.val)
    | none => .next s
  | [] => .next s

/-- The RECOMPUTE outcome (R228): the record and every record below it of its segment and micro-batch are removed. -/
def State.recompute (s : State) (t : Nat) (c : PnCmd) (r : PnRec) : State :=
  let s := s.onPn t fun p =>
    { p with main := p.main.filter fun q => !(q.off = r.off || (q.seg = r.seg && q.mb = r.mb))
             last := 1, missTag := r.tag, recomputes := satAdd 16 p.recomputes 1 }
  ((s.dropPn t).postIf t c.main).balance t

/-- A restore is a stream whose fallback is recomputation: its outcome RECOMPUTE is counted (R227, R459, R465). -/
def State.restoreLost (s : State) (t : Nat) (c : PnCmd) (r : PnRec) : State :=
  State.recompute { s with tier := { s.tier with recompute := satAdd 16 s.tier.recompute 1 } } t c r

/-- POP_DONE (R145, R213, R215, R225, R227, R228, R230, R859). -/
def execPopDone (t : TileIx) (s : State) : Out :=
  match (s.tile t.val).panq with
  | [] => .next s
  | c :: _ =>
    if c.st ≠ 1 || c.wait ≠ 0 || !(c.op = 0x42 || c.op = 0x43) then .next s
    else
      let ckpt := bit (recBits c.main 8 8) 0
      let p := (s.tile t.val).pn
      match (if ckpt then p.ckpt else p.main) with
      | [] => .next s
      | r :: _ =>
        let d := s.ringRead (if ckpt then p.ckptBase else p.mainBase) (if ckpt then 4096 * p.ckptPages else p.ring)
          r.off (64 + r.len)
        let s := d.2.2
        let payload := d.1.drop 64
        if d.2.1 || d.1.take 64 ≠ r.header || checkOf payload ≠ r.check || r.step ≠ s.stepNo % 65536 then
          .next (if ckpt then s.faultPn t.val c 0x110 else s.recompute t.val c r)
        else
          let s := s.onTile t.val fun x => x.put (recBits c.main 85 64) payload false
          let s := s.onPn t.val fun p =>
            let p := { p with last := 0 }
            if c.op = 0x43 then p
            else if ckpt then { p with ckpt := p.ckpt.drop 1 } else { p with main := p.main.drop 1 }
          let s := ((s.dropPn t.val).countPn t.val r.len).postIf t.val c.main
          .next (s.balance t.val)

/-- SPILL_DONE (R223, R224, R226): the record lies in the spill area, and a PUSH that waits tries again. -/
def execSpillDone (t : TileIx) (s : State) : Out :=
  let p := (s.tile t.val).pn
  match p.main.find? fun r => r.place == 1 with
  | none => .next s
  | some r =>
    let n := 64 + r.len
    let set (k : Nat) (s : State) : State := s.onPn t.val fun p =>
      { p with main := p.main.map fun q => if q.off = r.off then { q with place := k } else q }
    if !s.tierMapped (p.spillBase + r.off) n then .next (set 0 s)
    else
      let d := s.ringRead p.mainBase p.ring r.off n
      let s := d.2.2.memWrite (p.spillBase + r.off) d.1 r.fmt d.2.1
      let s := set 2 s
      let s := match (s.tile t.val).panq with
        | c :: _ => if c.wait = 0x20 then s.pushStart t.val c .clean else s
        | [] => s
      .next (s.spill t.val)

/-- Bytes of a range of the tiered range as a reader gets them: this device's where a page is resident, else what its
home sent. -/
def State.readFar (s : State) (a n : Nat) (far : Bytes) : Bytes × Bool × State :=
  if (List.range (pageOf (a + n - 1) + 1 - pageOf a)).any fun i => (s.page (pageOf a + i)).st = 1 then
    (slice far 0 n, false, s)
  else s.memRead a n

/-- A record's place in the main stack of tile `t` (R212). -/
def State.placeRec (s : State) (t off k : Nat) : State :=
  s.onPn t fun p => { p with main := p.main.map fun q => if q.off = off then { q with place := k } else q }

/-- A record read back from the spill area enters its place in the ring, and a POP that waits for it goes on. -/
def State.restored (s : State) (t : Nat) (r : PnRec) (d : Bytes) (poison : Bool) : State :=
  let p := (s.tile t).pn
  let s := (s.ringWrite p.mainBase p.ring r.off d r.fmt poison).placeRec t r.off 0
  let top := match (s.tile t).pn.main with | q :: _ => q.off == r.off | [] => false
  if top then s.onPnHead t fun c => if c.wait = 0x21 then { c with wait := 0 } else c else s

/-- RESTORE_DONE (R223, R227, R459): the record is resident again, and a POP that waits for it is served; a POP that waits
for a restore that has been refused recomputes at once. -/
def execRestoreDone (t : TileIx) (ok : Bool) (far : List Byte) (s : State) : Out :=
  let p := (s.tile t.val).pn
  match p.main.find? fun r => r.place == 3 with
  | none => .next s
  | some r =>
    if !ok then
      let s := s.placeRec t.val r.off 2
      match (s.tile t.val).panq, p.main with
      | c :: _, q :: _ => if c.wait = 0x21 && q.off = r.off then .next (s.restoreLost t.val c q) else .next s
      | _, _ => .next s
    else
      let d := s.readFar (p.spillBase + r.off) (64 + r.len) far
      .next ((d.2.2.restored t.val r d.1 d.2.1).restore t.val)

/-- POP_GRACE_EXPIRY (R228, R459): the record is not resident when its grace expires. -/
def execPopGraceExpiry (t : TileIx) (s : State) : Out :=
  match (s.tile t.val).panq, (s.tile t.val).pn.main with
  | c :: _, r :: _ =>
    if c.wait = 0x21 && c.due ≤ s.now then .next (s.restoreLost t.val c r) else .next s
  | _, _ => .next s

end Sys2Proof.Machine
end

