-- ==== Sys2Proof/Machine/Regs.lean ====
section
/-! DEFINITION. The registers of the control area (R55, R56, R124, R126, R158, R203, R209, R247, R358, R368, R369, R422,
R423, R464, R465, R496, R524 to R526, R561 to R563, R616, R617, R659 to R663, R700, R701, R717, R728, R764 to R766, R804
to R806, R809, R810, R812, R823, R824): their words as fields, their reading, and their writing by R17 to R19. -/

namespace Sys2Proof.Machine

/-- A field of a 64-bit word: its lowest bit, its width, its value. -/
abbrev Fld := Nat × Nat × Nat

/-- The word that fields make; bits that no field covers are reserved and read as 0 (R18). -/
def packFlds (l : List Fld) : Nat := l.foldl (fun a f => a + f.2.2 % 2 ^ f.2.1 * 2 ^ f.1) 0

/-- The reserved bits of a word. -/
def rsvFlds (l : List Fld) : Nat := 2 ^ 64 - 1 - l.foldl (fun a f => a + (2 ^ f.2.1 - 1) * 2 ^ f.1) 0

/-- A whole-word field. -/
def word (x : Nat) : List Fld := [(0, 64, x)]

/-- A two's complement reading in whole degrees, rounded down, from 0.25 degrees. -/
def deg (x : Int) : Nat := unsigned 8 (x / 4)

/-! ### The words, by register -/

/-- TILE_MAP_n (R55). -/
def State.rTileMap (s : State) (n _ : Nat) : List Fld :=
  let e := nth s.pkg.map n { slot := 15, st := 2 }
  [(0, 4, e.slot), (4, 3, n % 96 / 12), (7, 1, n / 96), (8, 2, e.st), (16, 16, e.epoch)]

/-- The retired slots of region g as a bit mask (R56). -/
def State.retiredMask (s : State) (g : Nat) : Nat :=
  sumOf (((List.range 13).filter fun k => s.flash.slots.contains (13 * g + k)).map (2 ^ ·))

/-- REGION_SLOTS_g (R56). -/
def State.rRegionSlots (s : State) (g _ : Nat) : List Fld :=
  let r := s.region g
  [(0, 13, s.retiredMask g), (16, 4, r.spare), (32, 16, r.moves)]

/-- FMT_CNT_n (R124). -/
def State.rFmtCnt (s : State) (n w : Nat) : List Fld :=
  let f := Tbl.get {} s.fmt n
  let c := f.cnt
  if w < 10 then
    word (nth [c.zeroBlocks, c.zeroed, c.sat, c.satBlocks, c.widen46, c.widen68, c.widenFull, c.nanBlocks, c.malformed,
      c.blocks] w 0)
  else if w = 10 then [(0, 32, f.next)] else []

/-- FMT_CNT_CLEAR (R126), write-only. -/
def State.rFmtClear (_s : State) (_ _ : Nat) : List Fld := [(0, 8, 0), (8, 1, 0), (9, 1, 0)]

/-- MX_STATUS_t and MX_COLS_t (R158, R203). -/
def State.rMx (s : State) (t w : Nat) : List Fld :=
  let x := s.tile t
  if w = 0 then
    [(0, 16, sumOf ((List.range 8).map fun g => x.gstate g * 4 ^ g)),
     (16, 8, sumOf ((List.range 8).map fun g => if 1024 < nth x.chunks g 0 then 2 ^ g else 0)),
     (24, 8, x.ovf), (32, 8, x.poison), (40, 5, x.mxq.length)]
  else
    let sl := (s.slotOf t).getD 0
    let cs := s.retiredCols sl
    [(0, 8, (cs.min?).getD 0xFF), (8, 8, if 2 ≤ cs.length then (cs.max?).getD 0xFF else 0xFF),
     (16, 16, (Tbl.get {} s.err.slots sl).colErrors)]

/-- PN_t (R209). -/
def State.rPn (s : State) (t w : Nat) : List Fld :=
  let p := (s.tile t).pn
  match w with
  | 0 => word p.mainBase
  | 1 => [(0, 32, p.mainPages), (32, 32, p.ckptPages)]
  | 2 => word p.ckptBase
  | 3 => word p.spillBase
  | 4 => [(0, 32, p.spillPages), (32, 8, p.high), (40, 8, p.low), (48, 16, p.graceUs)]
  | 5 => [(0, 32, p.main.length), (32, 32, (p.main.filter fun r => r.place ≠ 0).length)]
  | 6 => [(0, 16, p.ckpt.length), (16, 16, p.recomputes), (32, 2, p.last), (34, 1, b2n (s.holdsShare 0x20))]
  | _ => [(0, 32, p.missTag)]

/-- TANDEM_CFG, STEP_STATUS, STEP_NUMBER and TANDEM_COUNTS (R247). -/
def State.rStep (s : State) (_ w : Nat) : List Fld :=
  let x := s.step
  match w with
  | 0 => word x.viewA
  | 1 => word x.viewU
  | 2 => [(0, 32, x.units), (32, 1, b2n x.enabled)]
  | 3 => []
  | 4 => [(0, 8, x.mbCount), (8, 8, x.drainCount), (16, 3, x.st), (19, 1, b2n x.ship.isSome), (20, 1, b2n x.ended),
          (32, 32, (x.written.filter fun e => e.2).length)]
  | 5 => word x.committed
  | _ => [(0, 32, x.firstCopies), (32, 16, x.repeats)]

/-- MB_DONE_t (R247), write-only. -/
def State.rMbDone (_s : State) (_ _ : Nat) : List Fld := [(0, 8, 0)]

/-- The sum of the completion counts of `n` tiles from tile `t` (R358). -/
def State.compSum (s : State) (t n : Nat) : Nat := sumOf ((List.range n).map fun i => (s.tile (t + i)).comp) % 2 ^ 32

/-- COMP_TILE_t, COMP_REGION_g, COMP_DIE_d, COMP_PKG and RED_DONE_k (R358). -/
def State.rComp (s : State) (span k _ : Nat) : List Fld := [(0, 32, s.compSum (span * k) span)]
/-- RED_DONE_k (R358). -/
def State.rRedDone (s : State) (k _ : Nat) : List Fld := [(0, 32, Tbl.get 0 s.red.redDone k)]

/-- RED_STATUS (R368). -/
def State.rRed (s : State) (_ _ : Nat) : List Fld :=
  [(0, 8, s.step.attempt), (8, 1, b2n s.red.lead), (9, 1, b2n s.red.standby), (16, 16, s.red.staleDrops),
   (32, 16, s.red.residueRetries)]

/-- LEDGER (R369): 0 on a device that is not a lead. -/
def State.rLedger (s : State) (_ w : Nat) : List Fld :=
  let r := s.red
  let on (x : Nat) : Nat := if r.lead then x else 0
  match w with
  | 0 => word (on r.step)
  | 1 => [(0, 8, on r.attempt), (8, 3, on r.ledger), (16, 8, on r.cause), (32, 16, on (min 0xFFFF r.teamDone)),
          (48, 16, on r.team.length)]
  | _ => [(0, 32, on r.tagsChecked.length), (32, 32, on r.tagCount)]

/-- HBM_STACK_n (R422). -/
def State.rStack (s : State) (n w : Nat) : List Fld :=
  let k := nth s.hbm.stk n {}
  let sv := s.service n
  if w = 0 then [(0, 36, s.top n), (36, 16, sumOf (sv.map (2 ^ ·))), (52, 5, sv.length)]
  else [(0, 8, unsigned 8 k.temp), (8, 4, k.level), (16, 8, s.hbm.tThrot), (32, 32, k.throttleMs)]

/-- HBM_CHAN_m (R423). -/
def State.rChan (s : State) (m w : Nat) : List Fld :=
  let c := s.chan m
  let r := s.chanRec m
  if w = 0 then [(0, 32, c.corrected), (32, 16, c.uncorr), (48, 16, c.tagErrs)]
  else [(0, 7, r.retired), (8, 8, min 255 r.repaired.length), (16, 5, r.shadows.length),
        (21, 2, if r.mappedOut then 2 else if c.failing then 1 else 0)]

/-- TIER_CFG and TIER_STATUS (R464 to R466). -/
def State.rTier (s : State) (_ w : Nat) : List Fld :=
  let x := s.tier
  match w with
  | 0 => word x.tableBase
  | 1 => word x.tableMirror
  | 2 => [(0, 18, (x.frames.filter (· ≠ noFrame)).length), (18, 1, b2n x.buddyEn), (32, 18, x.buddyDev)]
  | 3 => word x.frameList
  | 4 => [(0, 32, (x.pages.filter fun e => 2 ≤ e.2.st).length), (32, 32, s.freeFrames.length)]
  | 5 => [(0, 32, x.promoted), (32, 32, x.evicted)]
  | 6 => [(0, 32, x.wbGranules), (32, 2, x.buddySt)]
  | _ => [(0, 16, x.waited), (16, 16, x.stale), (32, 16, x.recompute), (48, 16, x.failed)]

/-- FAB_STATUS (R524). -/
def State.rFab (s : State) (_ w : Nat) : List Fld :=
  let f := s.fab
  match w with
  | 0 => [(0, 18, f.device), (18, 1, b2n f.numbered), (24, 8, s.flash.bootEpoch), (32, 32, f.keyFaults)]
  | 1 => [(0, 32, f.retries), (32, 32, f.dups)]
  | 2 => [(0, 32, f.stale), (32, 16, f.pathsDown), (48, 16, f.tokensExpired)]
  | _ => [(0, 32, f.combined), (32, 9, f.queuePeak)]

/-- FAB_CFG (R525). -/
def State.rFabCfg (s : State) (_ w : Nat) : List Fld :=
  let f := s.fab
  match w with
  | 0 => [(0, 32, f.drainKey), (32, 16, f.port), (48, 1, b2n f.max4k), (49, 5, f.pathFail)]
  | 1 => word f.seqTable
  | 2 => word f.pathTable
  | _ => [(0, 16, f.rtoUs), (16, 16, f.reachMs), (32, 14, f.tokenLifeUs)]

/-- ARRIVE_n (R526). -/
def State.rArrive (s : State) (n _ : Nat) : List Fld := word (Tbl.get 0 s.fab.arrive n)

/-- PORT_STATUS_p, PORT_CNT_p and PORT_LANE_p (R561 to R563). -/
def State.rPort (s : State) (p w : Nat) : List Fld :=
  let x := nth s.ports p {}
  let c := x.cnt
  let ls (l : List Nat) : Nat := sumOf (l.map (2 ^ ·))
  match w with
  | 0 => [(0, 2, x.link), (2, 2, match x.inUse.length with | 0 => 0 | 1 => 1 | 2 => 2 | _ => 3), (4, 1, b2n x.direct),
          (8, 4, ls x.inUse), (12, 4, Tbl.get 0 s.flash.lanes p), (16, 16, x.retrains)]
  | 1 => match x.nbr with
    | some b => [(0, 18, b.device), (18, 1, 1), (19, 5, b.port)]
    | none => [(0, 18, 0), (18, 1, 0), (19, 5, 0)]
  | 2 => word c.txFrames
  | 3 => word c.rxFrames
  | 4 => word c.txBytes
  | 5 => word c.rxBytes
  | 6 => [(0, 32, c.fcsErrors), (32, 32, c.rxDiscards)]
  | 7 => [(0, 32, c.fecCorrected), (32, 32, c.fecUncorr)]
  | 8 => [(0, 32, c.replays), (32, 32, c.pfcTx)]
  | 9 => [(0, 32, c.pfcRx), (32, 32, 0)]
  | _ => let l := nth x.lanes (w - 10) {}; [(0, 32, l.symErr), (32, 16, l.lockLoss)]

/-- RES_OWN_r (R617). -/
def State.rRes (s : State) (r _ : Nat) : List Fld :=
  let o := nth s.hal.res r {}
  [(0, 8, o.owner), (8, 2, o.session), (16, 16, o.grants), (32, 16, o.preempts)]

/-- HALTER_STATUS (R616). -/
def State.rHal (s : State) (_ _ : Nat) : List Fld :=
  let h := s.hal
  [(0, 2, h.job), (2, 1, b2n s.controlOpen), (3, 3, h.sessions.length), (8, 7, h.mode), (16, 16, h.authFails),
   (32, 16, h.eventsLost), (48, 8, min 255 h.decisions.length)]

/-- PWR_STATUS (R659). -/
def State.rPwr (s : State) (_ w : Nat) : List Fld :=
  let p := s.pwr
  match w with
  | 0 => [(0, 3, p.pstate), (3, 1, b2n (p.force ≠ 0)), (4, 5, p.force), (16, 16, p.avgMs 10), (32, 16, p.sustEff),
          (48, 16, p.peakEff)]
  | 1 => [(0, 16, p.site), (16, 16, p.coolant.getD 0xFFFF), (32, 16, p.avgMs 1000), (48, 16, p.avg1ms)]
  | 2 => word (p.energy / 10)
  | _ => [(0, 32, p.changes), (32, 16, p.limits)]

/-- PWR_REGION_g (R660). -/
def State.rPwrRegion (s : State) (g w : Nat) : List Fld :=
  let r := s.pr g
  match w with
  | 0 => [(0, 1, b2n r.on), (1, 1, b2n (s.ramps g)), (2, 1, b2n r.deferred), (8, 6, r.phase), (16, 8, r.weight),
          (24, 5, r.pace), (32, 16, meanOf r.window), (48, 16, r.allow)]
  | 1 => [(0, 9, r.vset + r.boost / 2500), (16, 5, s.phasesIn g), (32, 32, r.hints)]
  | _ => [(0, 32, r.droopTrips)]

/-- VMIN_g (R649, R661): the second word is the one captured. -/
def State.rVmin (s : State) (g w : Nat) : List Fld :=
  let v := (s.pr g).vmin
  if w = 0 then word v.time else [(0, 9, v.captured % 512), (9, 3, v.captured / 512)]

/-- PWR_DIE_d (R648, R662): the time of a stretch in progress counts. -/
def State.rPwrDie (s : State) (d w : Nat) : List Fld :=
  let x := s.die d
  if w = 0 then word (x.stretchNs + if x.stage = 0 then 0 else s.now - x.began) else [(0, 32, (s.die d).stretches)]

/-- VTABLE_g (R663). -/
def State.rVtable (_s : State) (g _ : Nat) : List Fld := (List.range 6).map fun p => (9 * p, 9, Config.vtable g p)

/-- THERM_STATUS (R700). -/
def State.rTherm (s : State) (_ w : Nat) : List Fld :=
  let h := s.heat
  match w with
  | 0 => [(0, 8, deg (nth h.sites h.hotSite {}).ctrl), (8, 8, h.hotSite), (16, 8, deg h.warm), (24, 1, b2n h.coolLow),
          (25, 1, b2n h.stop.isSome), (26, 1, b2n h.lost), (27, 1, b2n h.wJunc.isSome), (28, 1, b2n h.warmAct),
          (32, 16, h.filtered), (48, 16, h.flowReq)]
  | 1 => [(0, 16, unsigned 16 h.inlet), (16, 16, unsigned 16 h.outlet), (32, 16, h.wFlow.getD 0xFFFF),
          (48, 16, h.wJunc.getD 0xFFFF)]
  | 2 => [(0, 16, h.stops), (16, 16, h.misses), (32, 8, h.warmNow)]
  | _ => []

/-- THERM_SITE_q (R701). -/
def State.rSite (s : State) (q _ : Nat) : List Fld :=
  let x := nth s.heat.sites q {}
  [(0, 8, deg x.ctrl), (8, 8, deg x.ta), (16, 8, deg x.tb), (24, 2, x.st), (26, 1, b2n x.failA), (27, 1, b2n x.failB),
   (28, 1, b2n (208 ≤ q && q ≤ 212)), (32, 8, deg x.peak), (40, 16, x.rejects)]

/-- TIME_NOW and TIME_STATUS (R717, R728). -/
def State.rTime (s : State) (_ w : Nat) : List Fld :=
  let t := s.time
  match w with
  | 0 => word t.ns
  | 1 => [(0, 2, t.src), (2, 2, t.st), (4, 1, b2n t.timeclkOk),
          (5, 1, match t.lastPps with | some p => b2n (t.ns ≤ p + 1500000000) | none => 0), (6, 5, t.slavePort)]
  | 2 => [(0, 32, unsigned 32 t.offset), (32, 32, unsigned 32 t.rate)]
  | 3 => word t.capture
  | _ => [(0, 16, t.steps), (16, 16, t.holdovers), (32, 16, t.rejects)]

/-- ERR_STATUS (R764). -/
def State.rErr (s : State) (_ w : Nat) : List Fld :=
  let e := s.err
  match w with
  | 0 => [(0, 13, e.ring.length), (16, 7, e.queue.length), (24, 7, e.queuePeak), (32, 32, e.lost)]
  | 1 => [(0, 32, e.written), (32, 32, e.coalesced)]
  | 2 => [(0, 16, e.held.length)]
  | _ => []

/-- TILE_ERR_t (R765). -/
def State.rTileErr (s : State) (t _ : Nat) : List Fld :=
  let e := Tbl.get {} s.err.slots ((s.slotOf t).getD 0)
  [(0, 32, e.corr), (32, 16, e.uncorr), (48, 16, e.faults)]

/-- LINK_ERR_n (R766). -/
def State.rLinkErr (s : State) (n _ : Nat) : List Fld :=
  let l := nth s.flash.links n {}
  [(0, 32, Tbl.get 0 s.err.linkRetries n), (32, 16, Tbl.get 0 s.err.linkRetrains n), (48, 8, l.lanes), (56, 2, l.st)]

/-- MESH_ERR_d (R766). -/
def State.rMeshErr (s : State) (d _ : Nat) : List Fld :=
  [(0, 32, Tbl.get 0 s.err.meshResends d), (32, 16, 0), (48, 8, nth s.flash.mesh d 0), (56, 2, 0)]

/-- FAB_ERR (R766). -/
def State.rFabErr (s : State) (_ _ : Nat) : List Fld :=
  [(0, 8, s.flash.adders), (8, 16, s.flash.engines), (24, 4, s.flash.cores), (32, 16, s.err.watchdogs)]

/-- The slot that FW_STAGE writes: the one that is not the boot slot (R770). -/
def State.stagingSlot (s : State) : Image := if s.flash.bootSlot = 0 then s.flash.slotB else s.flash.slotA

/-- BOOT_STATUS (R804). -/
def State.rBoot (s : State) (_ w : Nat) : List Fld :=
  let b := s.boot
  if w = 0 then
    [(0, 2, b.bootSel), (2, 1, b.slot), (3, 1, b2n b.fallback), (4, 1, b2n s.flash.owner.isSome), (5, 1, b2n b.akReady),
     (6, 1, b2n s.stagingSlot.staged), (16, 7, b.svn), (24, 7, s.flash.svnFloor), (32, 32, b.readyMs)]
  else [(0, 16, b.repairs)]

/-- MEASURE_i (R805). -/
def State.rMeasure (s : State) (i w : Nat) : List Fld := word (field (nth s.boot.measure i []) (8 * w) 8)

/-- A word of a tile's operation counters (R806). -/
def TileOps.word (o : TileOps) (w : Nat) : Nat :=
  nth [o.mac8, o.mac4, o.mac2, o.mac1, o.macQ, o.rowCycles, o.wideRows, o.maskedRows, o.loadStalls, o.vecInstr,
    o.vecFlop, o.drainBytes, o.drainWaits, o.pnBytes, o.fabBytes, o.paced] w 0

/-- TILE_OPS_t (R806). -/
def State.rOps (s : State) (t w : Nat) : List Fld := word ((s.tile t).ops.word w)

/-- VEC_STATUS_t (R812). -/
def State.rVec (s : State) (t _ : Nat) : List Fld :=
  let x := s.tile t
  [(0, 16, x.hintDrops), (16, 9, x.ftq.length), (25, 1, match x.seq with | .vldq _ => 1 | _ => 0)]

/-- DEV_OPS (R809). -/
def State.rDevOps (s : State) (_ w : Nat) : List Fld :=
  let o := s.obs
  if w < 6 then word (nth o.hbmRd w 0) else if w < 12 then word (nth o.hbmWr (w - 6) 0)
  else word (nth [o.fabTx, o.fabRx, o.fabReqs, o.homeReqs] (w - 12) 0)

/-- OPS_CLEAR (R810), write-only. -/
def State.rOpsClear (_s : State) (_ _ : Nat) : List Fld := [(0, 1, 0), (1, 1, 0)]

/-- PERISCOPE_STATUS (R823). -/
def State.rPeri (s : State) (_ w : Nat) : List Fld :=
  let o := s.obs
  match w with
  | 0 => [(0, 2, o.pst), (2, 1, b2n o.timerLost), (3, 1, b2n o.pinLost), (8, 8, o.triggers), (16, 8, o.sels.length),
          (32, 32, o.next)]
  | 1 => word o.ringBase
  | 2 => [(0, 32, o.ringRecords), (32, 32, o.samples)]
  | _ => [(0, 32, o.dropped)]

/-- What tile t's sequencer waits for (R824 to R826): code, kind and identifier of the node; all 0 while it does not
wait. -/
def State.seqWait (s : State) (t : Nat) : Nat × Nat × Nat :=
  match (s.tile t).seq with
  | .stall op _ =>
    if op < 0x10 then (1, 2, t) else if op < 0x20 then (2, 4, t) else (3, 5, t)
  | .vldq _ => (5, 3, t)
  | .stopped => if s.hal.job = 2 then (0x40, 0xA, 0) else (0, 0, 0)
  | _ => (0, 0, 0)

/-- SEQ_WAIT_t (R824). -/
def State.rSeqWait (s : State) (t w : Nat) : List Fld :=
  let x := s.seqWait t
  if w = 0 then [(0, 16, x.1), (16, 8, x.2.1), (24, 24, x.2.2)]
  else word (if x.1 = 0 then 0 else (s.tile t).since)

/-- An entry of the region table (R496). -/
def State.rRegion (s : State) (i w : Nat) : List Fld :=
  let e := Tbl.get {} s.fab.regions i
  match w with
  | 0 => word e.base
  | 1 => word e.size
  | 2 => [(0, 32, e.key), (32, 8, e.perm)]
  | _ => []

/-! ### The map of the control area -/

/-- A block of registers: control-area offset, stride, number, words of each, and their fields. -/
structure RegBlock where
  base : Nat
  stride : Nat
  count : Nat
  words : Nat
  flds : State → Nat → Nat → List Fld

/-- The blocks from the tile map to the reduction. -/
def regMap1 : List RegBlock :=
  [⟨0x10000, 8, 192, 1, State.rTileMap⟩, ⟨0x10800, 8, 16, 1, State.rRegionSlots⟩, ⟨0x20000, 0x80, 256, 16, State.rFmtCnt⟩,
   ⟨0x28000, 8, 1, 1, State.rFmtClear⟩, ⟨0x30000, 0x10, 192, 2, State.rMx⟩, ⟨0x40000, 0x40, 192, 8, State.rPn⟩,
   ⟨0x50000, 0x38, 1, 7, State.rStep⟩, ⟨0x51000, 8, 192, 1, State.rMbDone⟩, ⟨0x60000, 8, 192, 1, fun s => s.rComp 1⟩,
   ⟨0x60800, 8, 16, 1, fun s => s.rComp 12⟩, ⟨0x60880, 8, 2, 1, fun s => s.rComp 96⟩,
   ⟨0x60890, 8, 1, 1, fun s => s.rComp 192⟩, ⟨0x61000, 8, 64, 1, State.rRedDone⟩, ⟨0x70000, 8, 1, 1, State.rRed⟩,
   ⟨0x70100, 0x18, 1, 3, State.rLedger⟩]

/-- The blocks from the stacks to the owner table. -/
def regMap2 : List RegBlock :=
  [⟨0x80000, 0x10, 6, 2, State.rStack⟩, ⟨0x80100, 0x10, 96, 2, State.rChan⟩, ⟨0x90000, 0x40, 1, 8, State.rTier⟩,
   ⟨0xA0000, 0x20, 1, 4, State.rFab⟩, ⟨0xA0100, 0x20, 1, 4, State.rFabCfg⟩, ⟨0xA1000, 8, 1024, 1, State.rArrive⟩,
   ⟨0xB0000, 0x100, 18, 14, State.rPort⟩, ⟨0xD0000, 8, 20, 1, State.rRes⟩, ⟨0xD0100, 8, 1, 1, State.rHal⟩]

/-- The blocks from power to the region table. -/
def regMap3 : List RegBlock :=
  [⟨0xE0000, 0x20, 1, 4, State.rPwr⟩, ⟨0xE0100, 0x20, 16, 3, State.rPwrRegion⟩, ⟨0xE0400, 0x10, 16, 2, State.rVmin⟩,
   ⟨0xE0600, 0x10, 2, 2, State.rPwrDie⟩, ⟨0xE0800, 8, 16, 1, State.rVtable⟩, ⟨0xF0000, 0x20, 1, 4, State.rTherm⟩,
   ⟨0xF1000, 8, 214, 1, State.rSite⟩, ⟨0x100000, 0x28, 1, 5, State.rTime⟩, ⟨0x110000, 0x20, 1, 4, State.rErr⟩,
   ⟨0x111000, 8, 192, 1, State.rTileErr⟩, ⟨0x112000, 8, 3, 1, State.rLinkErr⟩, ⟨0x112020, 8, 2, 1, State.rMeshErr⟩,
   ⟨0x112040, 8, 1, 1, State.rFabErr⟩, ⟨0x120000, 0x10, 1, 2, State.rBoot⟩, ⟨0x120100, 0x20, 8, 4, State.rMeasure⟩,
   ⟨0x130000, 0x80, 192, 16, State.rOps⟩, ⟨0x138000, 8, 192, 1, State.rVec⟩, ⟨0x140000, 0x80, 1, 16, State.rDevOps⟩,
   ⟨0x140080, 8, 1, 1, State.rOpsClear⟩, ⟨0x150000, 0x20, 1, 4, State.rPeri⟩, ⟨0x160000, 0x10, 192, 2, State.rSeqWait⟩,
   ⟨0x1000000, 0x20, 4096, 4, State.rRegion⟩]

/-- The block that a block list has at a word's offset. -/
def findBlock (l : List RegBlock) (o : Nat) : Option RegBlock :=
  l.find? fun b => b.base ≤ o && o < b.base + b.stride * b.count && (o - b.base) % b.stride < 8 * b.words

/-- The block of the register word at control-area offset `o`. -/
def regBlock (o : Nat) : Option RegBlock := findBlock (regMap1 ++ regMap2 ++ regMap3) o

/-- The fields of the register word at offset `o`, a multiple of 8; none where the spec places no register. -/
def State.regFlds (s : State) (o : Nat) : Option (List Fld) :=
  match regBlock o with
  | some b => some (b.flds s ((o - b.base) / b.stride) ((o - b.base) % b.stride / 8))
  | none => none

/-- Whether a word describes the slot of a tile that has none: its value is not stated. -/
def State.regOpen (s : State) (o : Nat) : Bool :=
  (0x30000 ≤ o && o < 0x30C00 && o % 16 == 8 && (s.slotOf ((o - 0x30000) / 16)).isNone) ||
  (0x111000 ≤ o && o < 0x111600 && (s.slotOf ((o - 0x111000) / 8)).isNone)

/-! ### Reading -/

/-- Reads VMIN_g's first word (R649): the second is captured and a new record starts. -/
def State.vminRead (s : State) (g : Nat) : State :=
  s.onPr g fun r => { r with vmin := { captured := r.vmin.min % 512 + 512 * (r.vmin.pst % 8) } }

/-- Reads the register word at offset `o` with its side effect. A word where the spec places no register holds a free
value (log 23). -/
def State.regRead (s : State) (o : Nat) : Nat × State :=
  match s.regFlds o with
  | some l =>
    if s.regOpen o then ((s.draw 64).1 &&& (2 ^ 64 - 1 - rsvFlds l), (s.draw 64).2)
    else (packFlds l, if 0xE0400 ≤ o && o < 0xE0500 && o % 16 = 0 then s.vminRead ((o - 0xE0400) / 16) else s)
  | none => s.draw 64

/-- Reads the words from `o` on, `n` of them. -/
def State.regReads (s : State) (o : Nat) : Nat → Bytes × State
  | 0 => ([], s)
  | n + 1 =>
    let r := s.regReads o n
    let w := r.2.regRead (o + 8 * n)
    (r.1 ++ toBytes 8 w.1, w.2)

/-- Reads `n` bytes of the control area from offset `o`: each word that they meet is read once. -/
def State.ctlRead (s : State) (o n : Nat) : Bytes × State :=
  let lo := o / 8 * 8
  let r := s.regReads lo ((o + n + 7 - lo) / 8)
  (slice r.1 (o - lo) n, r.2)

/-! ### Writing (R17 to R19) -/

/-- Whether a word's value has a reserved value in a field (R19): STATE of TILE_MAP_n, HBM_CHAN_m, LINK_ERR_n, STEP_STATUS
and PERISCOPE_STATUS, LAST of PN_t, and a group's state in GSTATE of MX_STATUS_t. -/
def rsvValue (o v : Nat) : Bool :=
  let at_ (base stride count w : Nat) : Bool :=
    base ≤ o && o < base + stride * count && (o - base) % stride == 8 * w
  (at_ 0x30000 0x10 192 0 && (List.range 8).any fun g => bits v (2 * g + 1) (2 * g) == 3) ||
    (at_ 0x10000 8 192 0 && bits v 9 8 == 3) || (at_ 0x40000 0x40 192 6 && 2 ≤ bits v 33 32) ||
    (at_ 0x50000 0x38 1 4 && 5 ≤ bits v 18 16) || (at_ 0x80100 0x10 96 1 && bits v 22 21 == 3) ||
    (at_ 0x112000 8 3 0 && bits v 57 56 == 3) || (at_ 0x150000 0x20 1 0 && bits v 1 0 == 3)

/-- Whether a write of a word sets a reserved bit or writes a reserved value of a field (R18, R19). -/
def State.regBad (s : State) (o v : Nat) : Bool :=
  match s.regFlds o with
  | some l => v &&& rsvFlds l ≠ 0 || rsvValue o v
  | none => false

/-- Writes a word of PN_t (R209, R210): without effect while a stack holds a record. -/
def State.pnWrite (s : State) (t w v : Nat) : State :=
  let p := (s.tile t).pn
  if !p.main.isEmpty || !p.ckpt.isEmpty then s
  else s.onPn t fun p =>
    match w with
    | 0 => { p with mainBase := v }
    | 1 => { p with mainPages := bits v 31 0, ckptPages := bits v 63 32 }
    | 2 => { p with ckptBase := v }
    | 3 => { p with spillBase := v }
    | 4 => { p with spillPages := bits v 31 0, high := bits v 39 32, low := bits v 47 40, graceUs := bits v 63 48 }
    | _ => p

/-- Writes a register word whose reserved bits are 0: fields that are not writable stay (R17). -/
def State.regWrite (s : State) (o v : Nat) : State :=
  if o = 0x28000 then
    let k := bits v 7 0
    { s with fmt := Tbl.upd {} s.fmt k fun f =>
        { cnt := if bit v 8 then {} else f.cnt, next := if bit v 9 then 0 else f.next } }
  else if 0x40000 ≤ o && o < 0x43000 then s.pnWrite ((o - 0x40000) / 64) (o % 64 / 8) v
  else if 0x51000 ≤ o && o < 0x51600 then s.mbDone ((o - 0x51000) / 8) (bits v 7 0)
  else if 0xA1000 ≤ o && o < 0xA3000 then
    { s with fab := { s.fab with arrive := Tbl.set 0 s.fab.arrive ((o - 0xA1000) / 8) v } }
  else if o = 0x140080 then
    let s := if bit v 0 then s.clearTileOps else s
    if bit v 1 then s.clearDevOps else s
  else s

/-- Writes bytes to the control area: whether the write is carried out. A write that sets a reserved bit of any
word, or writes a reserved value, is refused whole (R18, R19), and so is one of part of a word (DEDUCED, log 24). -/
def State.ctlWrite (s : State) (o : Nat) (b : Bytes) : State × Bool :=
  let n := b.length / 8
  if o % 8 ≠ 0 || b.length % 8 ≠ 0 || (List.range n).any fun i => s.regBad (o + 8 * i) (field b (8 * i) 8) then (s, false)
  else ((List.range n).foldl (fun s i => s.regWrite (o + 8 * i) (field b (8 * i) 8)) s, true)

/-- REGISTER_WRITE (R17 to R19, R209, R210, R526): a word of the control area is written. -/
def execRegisterWrite (o : BitVec 28) (v : BitVec 64) (s : State) : Out :=
  .next (s.ctlWrite o.toNat (toBytes 8 v.toNat)).1

/-- VMIN_READ (R649). -/
def execVminRead (g : RegionIx) (s : State) : Out := .next (s.vminRead g.val)

end Sys2Proof.Machine
end

