-- ==== Sys2Proof/Machine/Tier.lean ====
section
/-! DEFINITION. The tiering engine (08): heat and candidates (R437 to R439), promotion (R432), eviction (R434, R435),
write-back (R443 to R446), the buddy copy's re-seed (R452, R453). -/

namespace Sys2Proof.Machine

/-- Changes the tiering engine. -/
def State.onTier (s : State) (f : Tier → Tier) : State := { s with tier := f s.tier }

/-- A page's heat. -/
def State.heatOf (s : State) (p : Nat) : Nat := Tbl.get 0 s.tier.heat p

/-- HEAT_EPOCH (R437): EPOCH_MS after the last epoch ended, every heat counter halves. -/
def execHeatEpoch (s : State) : Out :=
  if s.now < s.tier.epochAt + 1000000 * s.tier.epochMs then .next s
  else .next (s.onTier fun x =>
    { x with heat := (x.heat.map fun e => (e.1, e.2 / 2)).filter fun e => e.2 ≠ 0, epochAt := s.now })

/-! ### Candidates (R438, R439) -/

/-- The pages that R438 would promote: REMOTE, without STAY, hot enough, and not already given a frame. -/
def State.candidates (s : State) : List Nat :=
  (s.tier.pages.filter fun e => e.2.st == 1 && !e.2.stay && s.tier.promoteHeat ≤ s.heatOf e.1 &&
    !(s.tier.moves.any fun m => m.next == some e.1)).map (·.1)

/-- The hottest of some pages. -/
def State.hottestPage (s : State) (ps : List Nat) : Option Nat :=
  ps.foldl (fun b p => match b with
    | none => some p
    | some q => if s.heatOf q < s.heatOf p then some p else b) none

/-- The page that would be evicted for a candidate (R438). -/
def State.victimFor (s : State) (p : Nat) : Option Nat :=
  match s.coldest fun _ _ => true with
  | some v => if s.heatOf v * s.tier.coldDiv < s.heatOf p then some v else none
  | none => none

/-- Whether a migration may begin (R438, R613). -/
def State.mayMigrate (s : State) : Bool := s.holdsShare 0x21 && s.tier.moves.length < s.tier.maxMigrations

/-- Proposes one page (R439): its heat and the victim, 2^21 where a frame is free. A newer proposal for a page replaces
the older one; at most 64 are outstanding. -/
def State.proposePage (s : State) (p : Nat) : State :=
  let free := !s.openFrames.isEmpty
  let v := if free then some (2 ^ 21) else s.victimFor p
  let isFor (d : Decision) : Bool := match d.req with | .tier q _ => q == p | _ => false
  let tiers := s.hal.decisions.filter fun d => d.req.func == 1
  match v with
  | none => s
  | some v =>
    if tiers.any isFor && tiers.any (fun d => d.req == .tier p v) then s
    else if !(tiers.any isFor) && 64 ≤ tiers.length then s
    else
      State.request { s with hal := { s.hal with decisions := s.hal.decisions.filter fun d => !isFor d } } (.tier p v) 0x81
        [p, s.heatOf p, v]

/-- Proposes what R438 would promote, in host-assisted mode. -/
def State.proposals (s : State) : State :=
  if s.assisted 1 then s.candidates.foldl (fun (s : State) p => s.proposePage p) s else s

/-! ### Promotion (R432, R433) -/

/-- Asks a page's home for a granule, in ascending order (R432). -/
def State.askGranule (s : State) (p g : Nat) : State :=
  let e := s.page p
  (cut s.maxPayload 65536 (65536 * g) (List.replicate 65536 0)).foldl (fun (s : State) c =>
    s.sendReq (addrDev e.home) 1 (e.home + c.1) [] e.key c.2.length 0 0 (.promote p g)) s

/-- A promotion begins in frame i. -/
def State.startPromote (s : State) (p i : Nat) : State :=
  let s := s.onPage p fun e => { e with st := 3, frame := i }
  (s.onTier fun x => { x with moves := x.moves ++ [{ page := p, began := s.now }] }).askGranule p 0

/-- The final reply of a TIER_MOVE that ordered this move. -/
def State.tierDone (s : State) (p : Nat) (evict : Bool) (status : Nat) : State :=
  ((s.pendingOf 6).filter fun c => c.args == [p, b2n evict]).foldl (fun s c => s.finish c status) s

/-- Bytes of a promoted page land in its frame, with a free FMT, since a READ carries none (R395; log 3). A poisoned
unit's bytes are free values (R436). DEDUCED, log 72. -/
def State.fillBytes (s : State) (p off : Nat) (b : Bytes) (pois : Bool) : State :=
  let d := s.draw 8
  let a := s.frameBase (s.page p).frame + off
  (unitCut b.length a b).foldl (fun (s : State) u => s.putHbm u.1 u.2 d.1 pois (u.1 == a)) d.2

/-- Whether a request for a granule of a promotion is outstanding. -/
def State.asking (s : State) (p : Nat) : Bool :=
  s.fab.reqs.any fun (r : Req) => match r.why with | .promote q _ => q == p | _ => false

/-! ### Eviction (R434, R435) -/

/-- Host-ordered or hardware promotion of a page: into a free frame, else into that of a colder page, evicted first
(R438). -/
def State.promoteNow (s : State) (p : Nat) : State :=
  if !s.mayMigrate then s
  else match s.openFrames with
  | i :: _ => s.startPromote p i
  | [] => match s.victimFor p with
    | some v => s.startEvict v (some p)
    | none => s

/-- Begins a move that the host has ordered, where it can begin now (R438, R440, R613). -/
def State.orderedMove (s : State) (p : Nat) (evict : Bool) : State :=
  if evict then (if s.mayMigrate && (s.page p).st = 2 && (s.moveOf p).isNone then s.startEvict p none else s)
  else if (s.page p).st = 1 && (s.moveOf p).isNone && !(s.tier.moves.any fun m => m.next == some p) then s.promoteNow p
  else s

/-- A move that a pending TIER_MOVE orders and that has not begun (R440). -/
def State.nextOrdered (s : State) (evict : Bool) : Option Nat :=
  ((s.pendingOf 6).find? fun c =>
    let p := nth c.args 0 0
    nth c.args 1 0 == b2n evict && (s.moveOf p).isNone && (s.page p).st == (if evict then 2 else 1) &&
      !(s.tier.moves.any fun m => m.next == some p)).map fun c => nth c.args 0 0

/-- PROMOTE (R429, R432, R436, R438 to R440, R613): what the host has ordered, then the hottest candidate, into a free
frame. -/
def execPromote (s : State) : Out :=
  match s.nextOrdered false with
  | some p => match s.openFrames with
    | i :: _ => if s.mayMigrate then .next (s.startPromote p i) else .next s
    | [] => .next s
  | none =>
  if s.assisted 1 then .next s.proposals
  else match s.hottestPage s.candidates with
    | none => .next s
    | some p => match s.openFrames with
      | i :: _ => if s.mayMigrate then .next (s.startPromote p i) else .next s
      | [] => .next s

/-- EVICT (R434, R436, R438 to R440, R445, R613): what the host has ordered, then the coldest page, where the hottest
candidate has no free frame. -/
def execEvict (s : State) : Out :=
  match s.nextOrdered true, s.nextOrdered false with
  | some p, _ => .next (s.orderedMove p true)
  | none, some p => if s.openFrames.isEmpty then .next (s.orderedMove p false) else .next s
  | none, none =>
  if s.assisted 1 then .next s.proposals
  else match s.hottestPage s.candidates with
    | none => .next s
    | some p => match s.victimFor p with
      | some v => if s.openFrames.isEmpty && s.mayMigrate then .next (s.startEvict v (some p)) else .next s
      | none => .next s

/-- Whether a granule of a page is being written back. -/
def State.writing (s : State) (p : Nat) : Bool := s.tier.wbs.any fun w => w.1 == p

/-- EVICT_DONE (R434, R436, R438, R441): every run is acknowledged. Where a granule is dirty again, another pass is made;
else the page lives at its home, and its frame goes to the page for which it was evicted. -/
def execEvictDone (p : BitVec 21) (s : State) : Out :=
  let p := p.toNat
  match s.moveOf p with
  | none => .next s
  | some m =>
    let e := s.page p
    if !m.evict || e.st ≠ 4 || s.writing p then .next s
    else if !(s.dirtyGrans p).isEmpty then .next (s.evictPass p)
    else
      let s := (s.leaveFrame p).onTier fun x => { x with evicted := satAdd 32 x.evicted 1 }
      let s := s.tierDone p true 0
      let s := if e.buddy then s.raise { code := 0x22, payload := [p] } else s
      match m.next with
      | some q => if (s.page q).st = 1 && s.openFrames.contains e.frame then .next (s.startPromote q e.frame) else .next s
      | none => .next s

/-- Whether a run of a page has gone unacknowledged for 10 ms. -/
def State.wbLate (s : State) (p : Nat) : Bool :=
  s.fab.reqs.any fun (r : Req) => match r.why with | .writeBack q _ => q == p && r.born + 10000000 ≤ s.now | _ => false

/-- An eviction is abandoned, and the page stays in its frame (R435). -/
def State.keepPage (s : State) (p : Nat) : State :=
  let next := match s.moveOf p with | some m => m.next | none => none
  let s := ((s.onPage p fun e => { e with st := 2 }).dropMove p).tierDone p true 0xC
  match next with | some q => s.tierDone q false 0xC | none => s

/-- EVICT_ABANDON (R435). -/
def execEvictAbandon (p : BitVec 21) (s : State) : Out :=
  let p := p.toNat
  match s.moveOf p with
  | none => .next s
  | some m =>
    if !m.evict || !(4 ≤ m.passes || s.wbLate p || (m.bad && m.began + 10000000 ≤ s.now)) then .next s
    else .next (s.keepPage p)

/-! ### Write-back (R443, R445) -/

/-- WRITEBACK_AGE (R443, R445): a granule of a page that is not buddied, dirty for WB_MS. -/
def execWritebackAge (p : BitVec 21) (g : Fin 32) (s : State) : Out :=
  let p := p.toNat
  let e := s.page p
  let d := Tbl.get 0 s.tier.dirty (32 * p + g.val)
  if d = 0 || s.tier.wbMs = 0 || e.buddy || e.home = 0 || (e.st ≠ 2 && e.st ≠ 4) ||
      s.now + 1 < d + 1000000 * s.tier.wbMs then .next s
  else .next (s.writeBack p g.val)

/-- A granule counts as written back once the home has acknowledged every run (R443): a TIER_FLUSH may end, and an
eviction goes on to its next pass. -/
def State.granuleWritten (s : State) (p g : Nat) : State :=
  if !s.tier.wbs.contains (p, g) || s.fab.reqs.any (fun r => r.why == .writeBack p g) then s
  else
    let s := s.granuleDone p g
    match s.moveOf p with
    | some m => if m.evict && !s.writing p then s.evictPass p else s
    | none => s

/-- The home refuses a run of `n` bytes at offset `o` of the page, or cannot be reached: the granule and the run's units are
dirty again (DEDUCED, log 27). -/
def State.granuleRefused (s : State) (p g o n : Nat) : State :=
  if !s.tier.wbs.contains (p, g) then s
  else
    let s := s.onTier fun x => { x with wbs := x.wbs.filter (· ≠ (p, g)) }
    let a := s.frameBase (s.page p).frame + o
    let s := if 2 ≤ (s.page p).st then
        (unitCut n a (List.replicate n 0)).foldl (fun s u => s.onUnit u.1 fun x => { x with dirty := true }) (s.markDirty p g)
      else s
    s.onMove p fun m => { m with bad := true }

/-! ### The buddy (R452, R453) -/

/-- Sends a granule of a buddied page to its home. -/
def State.sendGranule (s : State) (p g : Nat) (why : Purpose) : State :=
  let e := s.page p
  let r := s.readUnits (s.frameBase e.frame + 65536 * g) 65536
  r.2.sendUnits (e.home + 65536 * g) r.1 (min 2048 s.maxPayload) e.key 0 0 why

/-- Whether a request is a part of the re-seed. -/
def Purpose.reseeds (w : Purpose) : Bool := match w with | .reseed _ _ => true | .reseedRead _ _ => true | _ => false

/-- Asks for a page that lives at its old home (R452). -/
def State.askOld (s : State) (p home key : Nat) : State :=
  (List.range 1024).foldl (fun (s : State) i =>
    (cut s.maxPayload 2048 (2048 * i) (List.replicate 2048 0)).foldl (fun (s : State) c =>
      s.sendReq (addrDev home) 1 (home + c.1) [] key c.2.length 0 0 (.reseedRead p c.1)) s) s

/-- The re-seed goes on with the next buddied page, from its frame or from its old home, or has none left (R452). -/
def State.reseedNext (s : State) : State :=
  let old := s.tier.farOld
  let s := s.onTier fun x => { x with farOld := x.farOld.filter fun f => x.reseed ≤ f.1 }
  if s.tier.buddySt ≠ 3 then s
  else match s.tier.pages.find? fun e => e.2.buddy && s.tier.reseed ≤ e.1 && (2 ≤ e.2.st || old.any fun f => f.1 == e.1) with
    | some (p, e) =>
      let s := s.onTier fun x => { x with reseed := p + 1 }
      if 2 ≤ e.st then (List.range 32).foldl (fun (s : State) g => s.sendGranule p g (.reseed p g)) s
      else match old.find? fun f => f.1 == p with
        | some f => s.askOld p f.2.1 f.2.2
        | none => s
    | none => s.onTier fun x => { x with reseed := 2 ^ 21 }

/-- A part of a page comes from its old home and goes to the new one; a poisoned unit goes as a poisoned unit, its bytes free
values (R452, R477). -/
def State.reseedPass (s : State) (p o : Nat) (b : Bytes) (pois : Bool) : State :=
  let e := s.page p
  s.sendRun (e.home + o) b (min 2048 s.maxPayload) e.key 0 0 0 pois (.reseed p (o / 65536))

/-- RESEED_DONE (R452): every buddied page has been copied and acknowledged. -/
def execReseedDone (s : State) : Out :=
  let busy := s.fab.reqs.any fun (r : Req) => r.why.reseeds
  if s.tier.buddySt ≠ 3 || s.tier.reseed < 2 ^ 21 || busy then .next s
  else .next (s.onTier fun x => { x with buddySt := 1 })

/-- BUDDY_POISON (R453): the device that holds the copy reports a poisoned unit at a local offset of its own; the whole
granule is sent again. -/
def execBuddyPoison (src : Nat) (off : BitVec 44) (s : State) : Out :=
  match s.tier.pages.find? fun e =>
      e.2.buddy && 2 ≤ e.2.st && addrDev e.2.home == src && addrOff e.2.home ≤ off.toNat &&
        off.toNat < addrOff e.2.home + 2 ^ 21 with
  | some (p, e) => .next (s.sendGranule p ((off.toNat - addrOff e.home) / 65536) (.buddy p))
  | none => .next s

end Sys2Proof.Machine
end

