-- ==== Sys2Proof/Machine/Home.lean ====
section
/-! DEFINITION. The completion of this device's own requests (R429, R443, R448, R472, R481), and the home (R470, R471,
R476, R477, R487 to R509, R515, R520). -/

namespace Sys2Proof.Machine

/-- The number under which the home knows this device's own requests: none of the hall's. -/
def selfDev : Nat := 2 ^ 18

/-- Changes the fabric engine. -/
def State.onFab (s : State) (f : Fabric → Fabric) : State := { s with fab := f s.fab }

/-- Whether a status is a success (R478, R481). -/
def good (status : Nat) : Bool := status = 0 || status = 7

/-! ### A tile's fabric commands -/

/-- Changes a command of tile t's fabric queue. -/
def State.onFabCmd (s : State) (t id : Nat) (f : FabCmd → FabCmd) : State :=
  s.onTile t fun x => { x with fabq := x.fabq.map fun c => if c.id = id then f c else c }

/-- A command of tile t's fabric queue. -/
def State.fabCmd (s : State) (t id : Nat) : Option FabCmd := (s.tile t).fabq.find? fun c => c.id == id

/-- Removes a command of tile t's fabric queue. -/
def State.dropFab (s : State) (t id : Nat) : State := s.onTile t fun x => { x with fabq := x.fabq.filter (·.id ≠ id) }

/-- Whether a request serves a command of tile t's fabric queue. -/
def Purpose.serves (w : Purpose) (t id : Nat) : Bool :=
  match w with
  | .remote t' id' _ => t' == t && id' == id
  | .copyRead t' id' _ => t' == t && id' == id
  | .copyWrite t' id' => t' == t && id' == id
  | .stream t' id' _ => t' == t && id' == id
  | _ => false

/-- A local access of a fabric command is refused (R53, R62, R157, R245): the command is dropped, its requests serve nobody,
and the issuing sequencer faults. -/
def State.fabFault (s : State) (t id code : Nat) : State :=
  match s.fabCmd t id with
  | none => s
  | some c =>
    let drop (r : Req) : Req := if r.why.serves t id then { r with why := .nobody } else r
    let s := (s.dropFab t id).onFab fun f => { f with reqs := f.reqs.map drop }
    s.fault t code c.addr c.op

/-- Notes a packet's status: a command's status is that of its first packet that failed (R481). -/
def FabCmd.note (c : FabCmd) (num status : Nat) : FabCmd :=
  if good status || (c.status ≠ 0 && c.mark ≤ num) then c else { c with status := status, mark := num }

/-- Notes a numbered operation of a tile that has failed, for the next FENCE (R512, R862). -/
def State.noteRefused (s : State) (t id : Nat) (r : Req) (status : Nat) : State :=
  if good status || !numberedOp r.pkt.op then s
  else s.onFab fun f => { f with refused := f.refused ++ [(t, id, r.num, status)] }

/-- Bytes moved by the tile's fabric and stream commands (R806). -/
def State.countFab (s : State) (t n : Nat) : State := s.onOps t fun o => { o with fabBytes := sat64 o.fabBytes n }

/-- Fills the read cache (R518, R519): whole lines, the oldest giving way. DESIGN CHOICE, log 67. -/
def State.fillCache (s : State) (addr : Nat) (b : Bytes) : State :=
  let a := roundUp addr 64
  let ls := (List.range ((addr + b.length - a) / 64)).map fun i => (a + 64 * i, slice b (a - addr + 64 * i) 64)
  s.onFab fun f =>
    let c := f.cache.filter (fun e => !(ls.any fun l => l.1 == e.1)) ++ ls
    { f with cache := c.drop (c.length - 131072) }

/-- Removes cached lines from an address on (R519). -/
def State.dropLines (s : State) (addr n : Nat) : State :=
  s.onFab fun f => { f with cache := f.cache.filter fun e => !overlaps e.1 64 addr n }

/-- Removes the cached lines of a range of local offsets, of whatever home (R520; DEDUCED, log 28). -/
def State.dropOffsets (s : State) (off n : Nat) : State :=
  s.onFab fun f => { f with cache := f.cache.filter fun e => !overlaps (addrOff e.1) 64 off n }

/-- The code of the fault that a refused local access to an offset raises: ADDR_UNMAPPED, ACC_BUSY or TANDEM_WRITE (R62,
R157, R245); 0 for another status. -/
def localCode (off status : Nat) : Nat :=
  if status = 1 then 0x107 else if status = 3 then (if (accAt off 1).isSome then 0x105 else 0x109) else 0

/-- Whether a request is an access of this device to its own memory (R469). -/
def Req.own (r : Req) : Bool := r.pkt.dst == selfDev && addrScope r.pkt.addr ≠ 2

/-- What a READ of this device's own memory brings: the units as they lie here, or, of a page that lives elsewhere, what came
from there, of free FMT, a poisoned unit of free bytes (R392, R395, R430). None where a poisoned unit has yet to be found
among those asked for. -/
def State.ownUnits (s : State) (r : Req) (status : Nat) (data : Bytes) : Option (List MoveUnit × State) :=
  if status = 4 then
    if 64 < r.pkt.aux then none
    else let d := s.draws 8 r.pkt.aux; some ([(0, d.1.map (BitVec.ofNat 8), true, 0)], d.2)
  else if data.isEmpty then some (s.moveRead (addrOff r.pkt.addr) (r.pkt.aux % 65536))
  else let d := s.draw 8; some ([(0, data, false, d.1)], d.2)

/-- Asks for what a READ wanted, unit by unit, where a poisoned unit is among them (R392, R430): `why` by the offset from its
start. A READ of this device's own memory goes to the home of the page. -/
def State.askUnits (s : State) (r : Req) (why : Nat → Purpose) : State :=
  let n := r.pkt.aux
  if r.own then
    (s.places (addrOff r.pkt.addr) n false).foldl (fun (s : State) p => match p.2.2.2 with
      | .far _ home key => (unitCut p.2.2.1 home (List.replicate p.2.2.1 0)).foldl (fun (s : State) u =>
          s.sendReq (addrDev home) 1 (2 ^ 62 + u.1) [] key u.2.length 0 0 (why (p.1 + (u.1 - home)))) s
      | _ => s) s
  else (unitCut n r.pkt.addr (List.replicate n 0)).foldl (fun (s : State) u =>
    s.sendReq r.pkt.dst 1 u.1 [] r.pkt.key u.2.length 0 0 (why (u.1 - r.pkt.addr))) s

/-- Puts units into tile t's local store from offset o on, and notes a poisoned one (R392, R859). -/
def State.putUnits (s : State) (t id o : Nat) (us : List MoveUnit) : State :=
  let s := us.foldl (fun (s : State) u => s.onTile t fun x => x.put (o + u.1) u.2.1 u.2.2.1) s
  if us.any fun u => u.2.2.1 then s.onFabCmd t id fun c => { c with spoiled := true } else s

/-- A packet of a REMOTE command is answered (R392, R480, R481). A refused local access faults. -/
def State.remoteDone (s : State) (t id off : Nat) (r : Req) (status : Nat) (data : Bytes) : State :=
  match s.fabCmd t id with
  | none => s
  | some c =>
    let ls := field c.main 32 4 % 2 ^ 22
    let code := localCode (addrOff r.pkt.addr) status
    if r.own && code ≠ 0 then s.fabFault t id code
    else if r.own && r.pkt.op = 1 && (good status || status = 4) then
      let s := s.countFab t r.pkt.aux
      match s.ownUnits r status data with
      | some q => q.2.putUnits t id (ls + off) q.1
      | none => s.askUnits r fun o => .remote t id (off + o)
    else
      let far := !r.own && addrScope (field c.main 8 8) ≠ 2 && s.isOwn (field c.main 8 8)
      if far && r.pkt.op = 1 && status = 4 then
        let d := s.draws 8 r.pkt.aux
        d.2.putUnits t id (ls + off) [(0, d.1.map (BitVec.ofNat 8), true, 0)]
      else
        let s := (s.onFabCmd t id fun c => c.note r.num status).noteRefused t id r status
        if !good status then s
        else
          let s := s.countFab t (data.length + r.pkt.data.length)
          let s := if data.isEmpty then s else s.onTile t fun x => x.put (ls + off) data false
          if r.pkt.op = 1 && bit r.pkt.flags 4 then s.fillCache r.pkt.addr data else s

/-- A stream's fetch is cancelled: its requests serve nobody (R460). -/
def State.cancelStream (s : State) (t id : Nat) : State :=
  s.onFab fun f => { f with reqs := f.reqs.map fun q =>
    match q.why with | .stream t' id' _ => if t' = t && id' = id then { q with why := .nobody } else q | _ => q }

/-- A part of a stream is answered (R457 to R459): ERROR by the status; an unreachable home is asked again (R459). A write
that the views refuse faults (R245). -/
def State.streamDone (s : State) (t id off : Nat) (r : Req) (status : Nat) (data : Bytes) : State :=
  match s.fabCmd t id with
  | none => s
  | some c =>
    let src := addrOff (field c.main 16 8) + off
    let dst := addrOff (field c.main 24 8) + off
    if good status && s.tandemRefuses dst data.length then s.fabFault t id 0x109
    else if status = 0xB then
      let s := s.onFabCmd t id fun c => { c with status := 5 }
      s.sendReq r.pkt.dst 1 r.pkt.addr [] r.pkt.key r.pkt.aux 0 0 (.stream t id off)
    else if !good status then
      let e := match status with | 2 => 2 | 4 => 4 | _ => 3
      (s.onFabCmd t id fun c => { c with status := e, ended := true }).cancelStream t id
    else
      let d := (s.touch (pageOf src) (granules src data.length)).draw 8
      let s := d.2.memWrite dst data d.1
      (s.countFab t data.length).onFabCmd t id fun c =>
        { c with since := s.now, status := if c.ended then c.status else 0 }

/-! ### MEM_READ and MEM_WRITE that wait for other devices (R582) -/

/-- The codes of MEM_READ and MEM_WRITE. -/
def memCode (code : Nat) : Bool := code = 0x101 || code = 0x102

/-- The status of Halter for a status of Tarilama (R582, R589). -/
def memStatus (status : Nat) : Nat := if status = 1 || status = 8 then 2 else if status = 3 then 5 else 0xC

/-- The final reply of a MEM_READ or MEM_WRITE that waits for nothing more: its arguments are the byte at which the
answer begins, its length, and the statuses that other devices refused with. -/
def State.memReply (s : State) (c : PendCmd) : State :=
  match c.args with
  | [o, n] => s.finish c 0 (if c.code = 0x101 then slice c.data o n else [])
  | _ :: _ :: st :: _ => s.finish c (memStatus st) [BitVec.ofNat 8 st]
  | _ => s.finish c 0xC

/-- Replies to every MEM_READ and MEM_WRITE that waits for nothing more. -/
def State.payMem (s : State) : State :=
  (s.hal.cmds.filter fun c => memCode c.code && !c.held && c.waits.isEmpty).foldl (fun (s : State) c => s.memReply c) s

/-! ### Completions -/

/-- A request's response reaches whom it serves. -/
def State.reqEffect (s : State) (r : Req) (status : Nat) (data : Bytes) : State :=
  match r.why with
  | .remote t id off => s.remoteDone t id off r status data
  | .copyRead t id off =>
    if !r.own then s
    else
      let code := localCode (addrOff r.pkt.addr) status
      if code ≠ 0 then s.fabFault t id code
      else if !(good status || status = 4) then s.onFabCmd t id fun c =>
        { c with status := if c.status = 0 then status else c.status, ended := true }
      else match s.ownUnits r status data with
        | some q => q.2.onFabCmd t id fun c => { c with parts := c.parts ++ q.1.map fun u => (off + u.1, u.2) }
        | none => s.askUnits r fun o => .copyRead t id (off + o)
  | .copyWrite t id =>
    let code := localCode (addrOff r.pkt.addr) status
    if r.own && code ≠ 0 then s.fabFault t id code
    else
    let s := if good status then s.countFab t r.pkt.data.length else s
    (s.onFabCmd t id fun c => c.note r.num status).noteRefused t id r status
  | .drain t id => s.noteRefused t id r status
  | .stream t id off => s.streamDone t id off r status data
  | .promote p g =>
    let off := r.pkt.addr - (s.page p).home
    if (s.page p).st ≠ 3 then s
    else if status = 4 && 64 < r.pkt.aux then s.askUnits r fun _ => .promote p g
    else if status = 4 then
      let d := s.draws 8 r.pkt.aux
      d.2.fillBytes p off (d.1.map (BitVec.ofNat 8)) true
    else if good status then s.fillBytes p off data false
    else s.onMove p fun m => { m with bad := true }
  | .writeBack p g =>
    if good status then s.granuleWritten p g else s.granuleRefused p g (r.pkt.addr - (s.page p).home) r.pkt.data.length
  | .buddy _ => if good status then s else s.onFab fun f => { f with reqs := f.reqs ++ [{ r with dead := true }] }
  | .reseed _ _ =>
    if !good status then s.onFab fun f => { f with reqs := f.reqs ++ [{ r with dead := true }] }
    else if s.fab.reqs.any (fun (q : Req) => q.why.reseeds) then s
    else s.reseedNext
  | .reseedRead p o =>
    if good status then s.reseedPass p o data false
    else if status = 4 && 64 < r.pkt.aux then s.askUnits r fun i => .reseedRead p (o + i)
    else if status = 4 then let d := s.draws 8 r.pkt.aux; d.2.reseedPass p o (d.1.map (BitVec.ofNat 8)) true
    else s.onFab fun f => { f with reqs := f.reqs ++ [{ r with dead := true }] }
  | .restore a => s.restoreDone a (good status) data
  | .msg => s
  | .snapshot =>
    if good status then s
    else { s with step := { s.step with ship := s.step.ship.map fun x => { x with bad := true } } }
  | .forward k off => s.onFab fun f => { f with owed := f.owed.map fun o =>
      if o.key = k then
        { o with status := if good status || o.status ≠ 0 then o.status else status
                 data := if data.isEmpty then o.data
                   else slice o.data 0 off ++ data ++ o.data.drop (off + data.length) }
      else o }
  | .mcast k => s.onFab fun f => { f with owed := f.owed.map fun o =>
      if o.key = k && !(good status) && o.status = 0 then { o with status := status } else o }
  | .mem session seq off =>
    { s with hal := { s.hal with cmds := s.hal.cmds.map fun c =>
        if c.session = session && c.seq = seq && memCode c.code then
          { c with data := if data.isEmpty then c.data else slice c.data 0 off ++ data ++ c.data.drop (off + data.length)
                   args := if good status then c.args else c.args ++ [status] }
        else c } }
  | .nobody => s

/-- Removes a request and what waits for it, and gives its response to whom it serves. -/
def State.settle (s : State) (r : Req) (status : Nat) (data : Bytes) : State :=
  let s := s.onFab fun f =>
    { f with reqs := f.reqs.filter (·.num ≠ r.num) }
  let s := s.reqEffect r status data
  if s.fab.reqs.any fun q => q.num == r.num then s
  else
    let s := s.onFab fun f => { f with owed := f.owed.map fun o => { o with waits := o.waits.filter (· ≠ r.num) } }
    { s with hal := { s.hal with cmds := s.hal.cmds.map fun c => { c with waits := c.waits.filter (· ≠ r.num) } } }

/-- The response to a request (R475, R478). -/
def State.response (s : State) (p : Pkt) (status : Nat) (data : Bytes) (aux flags : Nat) : Pkt :=
  { kind := 2, op := p.op, status := status, src := s.fab.device, path := p.path, srcEpoch := s.flash.bootEpoch
    dst := p.src, dstEpoch := p.srcEpoch, wseq := p.wseq, reqId := p.reqId, step := s.stepNo % 65536
    attempt := s.step.attempt, flags := flags, addr := p.addr, aux := aux, data := data }

/-- A fetching request: one that returns the old value (R476, R489). -/
def pktFetches (p : Pkt) : Bool := p.op = 0x13 || (0x10 ≤ p.op && p.op ≤ 0x12 && p.flags.testBit 3)

/-- What the home keeps of a sender. -/
def State.sender (s : State) (d : Nat) : Sender := Tbl.get {} s.fab.senders d

/-- Changes what the home keeps of a sender. -/
def State.onSender (s : State) (d : Nat) (f : Sender → Sender) : State :=
  s.onFab fun x => { x with senders := Tbl.upd {} x.senders d f }

/-- Sends the final status of a request: to another device, or to the command of this device that it serves. A value
returned is kept (R490); an arrival is counted once the data has landed (R515). -/
def State.respond (s : State) (p : Pkt) (status : Nat) (data : Bytes := []) : State :=
  let s := if status = 0 && p.op = 2 && bit p.aux2 12 then
      s.onFab fun f => { f with arrive := Tbl.upd 0 f.arrive (bits p.aux2 11 0) fun n => (n + p.data.length) % 2 ^ 64 }
    else s
  let s := if status = 0 && pktFetches p then
      s.onSender p.src fun x => { x with retained := x.retained ++ [(p.wseq, fromBytes data)] }
    else s
  if p.src = selfDev then
    match s.fab.reqs.find? fun r => r.num == p.reqId with
    | some r => s.settle r status data
    | none => s
  else
    let s := s.sendPkt (s.response p status data 0 0)
    { s with obs := { s.obs with fabTx := sat64 s.obs.fabTx data.length } }

/-- The final status of a request that has been forwarded. UNREACHABLE goes out on no wire: the request is never answered,
and its sender finds this device unreachable for it (R478; DEDUCED, log 100). -/
def State.payOne (s : State) (o : Owed) : State :=
  let s := s.onFab fun f => { f with owed := f.owed.filter (·.key ≠ o.key) }
  if o.status = 0xB && o.req.src ≠ selfDev then
    (if o.req.wseq = 0 then s else s.onSender o.req.src fun x => { x with mute := x.mute ++ [o.req.wseq] })
  else s.respond o.req o.status (if o.status = 0 then o.data else [])

/-- Sends the responses owed whose requests have all completed. -/
def State.payOwed (s : State) : State :=
  State.payMem <| (s.fab.owed.filter fun o => o.waits.isEmpty).foldl (fun (s : State) o => s.payOne o) s

/-- Completes a request of this device's own, and what was owed behind it. -/
def State.reqDone (s : State) (r : Req) (status : Nat) (data : Bytes) : State := (s.settle r status data).payOwed

/-! ### What the home checks -/

/-- Bytes of memory that a request names. -/
def pktSpan (p : Pkt) : Nat :=
  match p.op with
  | 1 => p.aux % 65536
  | 2 => p.data.length
  | 0x20 => 64 * p.aux
  | 0x40 => 0
  | 0x41 => 0
  | _ => if p.aux % 4 = 1 then 8 else 4

/-- Whether an operation is an atomic. -/
def atomicOp (op : Nat) : Bool := 0x10 ≤ op && op ≤ 0x13

/-- The operations of R476. -/
def knownOp (op : Nat) : Bool := [1, 2, 0x10, 0x11, 0x12, 0x13, 0x20, 0x40, 0x41].contains op

/-- Whether an operation is REDUCE or LEDGER, which name no memory. -/
def msgOp (op : Nat) : Bool := op = 0x40 || op = 0x41

/-- Whether a range lies in what R470 lists and atomics may not reach: local-store and accumulator windows, the arrival
counters, and, for this device's own requests, the control area. -/
def State.noAtomic (s : State) (p : Pkt) (off n : Nat) : Bool :=
  s.backed (lsAt off n) || s.backed (accAt off n) ||
    (ctlBase ≤ off && (p.src = selfDev || (ctlBase + 0xA1000 ≤ off && off + n ≤ ctlBase + 0xA3000)))

/-- A malformed header, a reserved value, or an operation not allowed on its target (R470, R471, R475 to R478). -/
def State.malformed (s : State) (p : Pkt) : Bool :=
  let off := addrOff p.addr
  let n := (pktSpan p)
  let sc := addrScope p.addr
  p.version ≠ 1 || p.kind ≠ 1 || p.status ≠ 0 || p.dstRsv ≠ 0 || !(p.len.all (· = p.data.length)) || !knownOp p.op ||
  p.flags / 64 ≠ 0 || bits p.aux2 15 13 ≠ 0 || bits p.aux2 31 24 ≠ 0 || p.addr % 4 ≠ 0 ||
  (bit p.aux2 12 && 1023 < bits p.aux2 11 0) || (bit p.flags 5 && p.op ≠ 2) ||
  sc = 3 || (p.src ≠ selfDev && sc = 0) || (sc = 1 && p.op ≠ 0x20 && addrDev p.addr ≠ s.fab.device) ||
  (sc = 2 && (p.op = 1 || atomicOp p.op || 4095 < addrDev p.addr || (Tbl.get none s.fab.groups (addrDev p.addr)).isNone)) ||
  match p.op with
  | 1 => n < 4 || s.maxPayload < n || n % 4 ≠ 0 || !p.data.isEmpty
  | 2 => n < 4 || s.maxPayload < n || n % 4 ≠ 0 || 256 ≤ p.aux ||
      (bit p.flags 5 && (off / 64 ≠ (off + n - 1) / 64 || ctlBase ≤ off)) ||
      (p.src ≠ selfDev && ctlBase + 0xA1000 ≤ off && off < ctlBase + 0xA3000)
  | 0x20 => p.aux = 0 || !p.data.isEmpty
  | 0x40 => (match p.msg with
      | some (.ledger _) => true
      | some (.endRec _ _ _ _ _) => false
      | _ => p.data.length ≠ gxLen (s.tagEnt p.aux).width)
  | 0x41 => false
  | _ => !atomicOp p.op || p.aux % 4 = 3 || 4 ≤ p.aux || (p.op = 0x13 && p.aux = 2) || off % n ≠ 0 ||
      p.data.length ≠ (if p.op = 0x13 then 2 * n else n) || s.noAtomic p off n

/-- Whether a stamp is older than the home's own (R494). -/
def State.older (s : State) (step attempt : Nat) : Bool :=
  let d := (s.stepNo % 65536 + 65536 - step % 65536) % 65536
  (0 < d && d < 32768) || (d = 0 && attempt < s.step.attempt)

/-- Whether a request is refused with STALE (R494). -/
def State.staleReq (s : State) (p : Pkt) : Bool :=
  bit p.flags 0 && s.older p.step p.attempt &&
    (p.op = 0x40 || p.op = 0x41 || (p.op = 2 && (s.meetsUpdate (addrOff p.addr) (pktSpan p) || bit p.aux2 12)))

/-- Whether a request passes the region check (R498). -/
def State.keyOk (s : State) (p : Pkt) : Bool :=
  let need := if p.op = 1 then 0 else if atomicOp p.op then 2 else 1
  s.fab.regions.any fun e =>
    let x := e.2
    if msgOp p.op then bit x.perm 3 && x.key == p.key && bit x.perm 1
    else bit x.perm 3 && x.base ≤ addrOff p.addr && addrOff p.addr + (pktSpan p) ≤ x.base + x.size && x.key == p.key &&
      bit x.perm need && (!bit p.aux2 12 || bit x.perm 1)

/-- Whether a range meets a stack in relayout (R416), which with no step running lasts from the failure on (log 15). -/
def State.relaying (s : State) (a n : Nat) : Bool :=
  s.hbm.stk.zipIdx.any fun k =>
    (k.1.relayout || (s.hal.job ≠ 2 && !(s.dueChans k.2).isEmpty)) && overlaps a n (k.2 * 2 ^ 36) (2 ^ 36)

/-- Why the target refuses a request as it is applied: UNMAPPED (R62, R470), BUSY (R157, R245), INVALID; 0 when it does
not. -/
def State.targetStatus (s : State) (p : Pkt) : Nat :=
  let off := addrOff p.addr
  let n := (pktSpan p)
  if p.op = 0x20 || msgOp p.op then 0
  else if ctlBase ≤ off then
    if 2 ^ 28 < off + n - ctlBase then 1
    else if p.src = selfDev then 0
    else if p.op = 1 && ctlBase + 0xA1000 ≤ off && off + n ≤ ctlBase + 0xA3000 then 0 else 1
  else if !s.mapped off n then 1
  else if p.op = 1 then 0
  else match accAt off n with
    | some (t, o) => if (s.tile t).idle o n then 0 else 3
    | none => if s.tandemRefuses off n then 3 else 0

/-! ### What the home does -/

/-- Reads a range for a request: parts that live at another home are asked for there, as part of the response owed
under key k (R429). -/
def State.homeRead (s : State) (a n k : Nat) : Bytes × Bool × State :=
  let s := s.combineAt a n
  (s.places a n false).foldl (fun (r : Bytes × Bool × State) p =>
    match p.2.2.2 with
    | .far q home key =>
      (r.1 ++ List.replicate p.2.2.1 0, r.2.1,
       ((r.2.2.touch q (granules p.2.1 p.2.2.1)).sendReq (addrDev home) 1 (2 ^ 62 + home) [] key p.2.2.1 0 0
         (.forward k p.1)))
    | _ => let g := r.2.2.getSpan p.2.1 p.2.2.1; (r.1 ++ g.1, r.2.1 || g.2.1, g.2.2)) ([], false, s)

/-- An atomic on this device's own memory (R476, R505 to R509). -/
def State.homeAtomic (s : State) (p : Pkt) : State × Nat × Bytes :=
  let off := addrOff p.addr
  let n := (pktSpan p)
  let v := field p.data 0 n
  let merges := p.op ≠ 0x13 && !(pktFetches p && p.op = 0x10 && p.aux = 2)
  let old (b : Nat) : Bytes := if pktFetches p then toBytes n b else []
  if merges then
    let s := (s.fab.combining.filter fun e => e.addr / 64 == off / 64 && !(e.op == p.op && e.ty == p.aux)).foldl
      (fun (s : State) e => s.combineOut e) s
    let r := s.rawRead off n
    if r.2.1 then (r.2.2, 4, [])
    else
      let m := field r.1 0 n
      let s := r.2.2
      match s.fab.combining.find? fun e => e.addr == off && e.op == p.op && e.ty == p.aux with
      | some e =>
        let s := s.onFab fun f =>
          { f with combined := satAdd 32 f.combined 1
                   combining := f.combining.map fun q => if q = e then { e with val := atomOp e.op e.ty e.val v } else q }
        (s, 0, old (atomOp e.op e.ty m e.val))
      | none =>
        let s := if 64 ≤ s.fab.combining.length then
            match s.fab.combining with | e :: _ => s.combineOut e | [] => s
          else s
        (s.onFab fun f => { f with combining := f.combining ++ [{ op := p.op, ty := p.aux, addr := off, val := v, opened := s.now }] },
         0, old m)
  else
    let r := (s.combineAt (off / 64 * 64) 64).rawRead off n
    if r.2.1 then (r.2.2, 4, [])
    else
      let m := field r.1 0 n
      let s := if p.op = 0x13 then
          (if m = v then r.2.2.rawWrite off (slice p.data n n) 0 else r.2.2)
        else r.2.2.rawWrite off (toBytes n (atomOp p.op p.aux m v)) 0
      (s, 0, toBytes n m)

/-- A request to another home that is part of a multicast (R472). -/
def State.mcastOut (s : State) (p : Pkt) (k : Nat) : State :=
  if addrScope p.addr ≠ 2 then s
  else match Tbl.get none s.fab.groups (addrDev p.addr) with
    | some g => g.children.foldl (fun (s : State) c =>
        s.sendReq c p.op p.addr p.data p.key p.aux (p.flags &&& 0xF9) (p.aux2 % 65536) (.mcast k)
          (some (p.step, p.attempt))) s
    | none => s

/-- Errors that an HBM access meets (R387, R390). -/
def State.rangeErrs (s : State) (a n : Nat) (errs : List UnitErr) : State :=
  if errs.isEmpty then s
  else match s.phys (s.storage a false) with
    | .hbm h => s.readErrs h n errs
    | _ => s

/-- The outcome of a read of the control area: OK and the data. -/
def readOutcome (r : Bytes × State) : State × Nat × Bytes := (r.2, 0, r.1)

/-- The outcome of a write of the control area: OK, or INVALID where a reserved bit is set (R17, R18). -/
def writeOutcome (r : State × Bool) : State × Nat × Bytes := (r.1, if r.2 then 0 else 8, [])

/-- A read or write of the control area at offset `o` of it: the state, the status and a response's data. -/
def State.applyCtl (s : State) (p : Pkt) (o n : Nat) : State × Nat × Bytes :=
  if p.op = 1 then readOutcome (s.ctlRead o n) else writeOutcome (s.ctlWrite o p.data)

/-- A read, write or atomic of memory, forwarded where its page is far (R429). What lies here this device's own reads take
as they are answered, unit by unit (R392, R469). -/
def State.applyMem (s : State) (p : Pkt) (off n k : Nat) : State × Nat × Bytes :=
  if p.op = 1 && p.src = selfDev && !(s.places off n false).any (fun x => match x.2.2.2 with | .far _ _ _ => true | _ => false)
  then (s, 0, [])
  else if p.op = 1 then
    let r := s.homeRead off n k
    (r.2.2, if r.2.1 then 4 else 0, if r.2.1 then [] else r.1)
  else if p.op = 2 then (s.memWrite off p.data p.aux (bit p.flags 5), 0, [])
  else match s.phys (s.storage off true) true with
    | .far q home key =>
      ((s.touch q 1).sendReq (addrDev home) p.op (2 ^ 62 + home) p.data key p.aux (p.flags &&& 8) 0 (.forward k 0), 0, [])
    | _ => s.homeAtomic p

/-- Applies an admitted request (R392, R429, R470 to R472, R477, R493, R498, R505, R515, R520): the state, the status and
the payload; what it forwards serves the response owed under key k. `refuse` is the status, if any, with which it was
refused as it was admitted. -/
def State.applyReq (s : State) (p : Pkt) (errs : List UnitErr) (k : Nat) (refuse : Nat) : State × Nat × Bytes :=
  let off := addrOff p.addr
  let n := pktSpan p
  let s := s.mcastOut p k
  let st := if refuse = 0 then s.targetStatus p else refuse
  if st ≠ 0 then (s, st, [])
  else if msgOp p.op then (s, 0, [])
  else if p.op = 0x20 then (s.dropOffsets off n, 0, [])
  else if ctlBase ≤ off then s.applyCtl p (off - ctlBase) n
  else (s.rangeErrs off n errs).applyMem p off n k

/-- Serves an admitted request and answers it, or owes the answer while what it has forwarded is outstanding. -/
def State.serve (s : State) (p : Pkt) (errs : List UnitErr) (refuse : Nat) : State :=
  let k := s.fab.nextOwed
  let n := s.fab.nextReq
  let r := s.applyReq p errs k refuse
  let s := r.1.claim n (.forward k 0)
  let ws := (s.fab.reqs.filter fun q => n ≤ q.num && (match q.why with
    | .forward j _ => j == k | .mcast j => j == k | .buddy _ => true | _ => false)).map (·.num)
  if ws.isEmpty then s.respond p r.2.1 r.2.2
  else s.onFab fun f =>
    { f with nextOwed := k + 1, owed := f.owed ++ [{ key := k, req := p, status := r.2.1, data := r.2.2, waits := ws }] }

/-! ### Holding -/

/-- The region check as made at admission: this device's own requests need no key, but for those to a group (R469, R472,
R498). -/
def State.keyed (s : State) (p : Pkt) : Bool := (p.src = selfDev && addrScope p.addr ≠ 2) || s.keyOk p

/-- The status with which a request is refused as it is admitted: STALE (R494), KEY (R498), 0 for none. -/
def State.refusal (s : State) (p : Pkt) : Nat := if s.staleReq p then 6 else if !s.keyed p then 2 else 0

/-- The retry-after time, in units of 8 ns, with which a request that is not yet admitted is answered BUSY: a relayout's 10 ms
(R416), a free one where its target refuses a write for now (R157, R245); none where it is not. -/
def State.busyTime (s : State) (p : Pkt) : Option (Nat × State) :=
  if p.op = 0x20 || msgOp p.op || s.refusal p ≠ 0 then none
  else if s.relaying (addrOff p.addr) (pktSpan p) then some (1250000, s)
  else if p.src ≠ selfDev && s.targetStatus p = 3 then let d := s.draw 32; some (1 + d.1 % (2 ^ 32 - 1), d.2)
  else none

/-- Why the memory holds a request (R47, R253, R400, R402, R404, R432). -/
def State.memHold (s : State) (p : Pkt) : Option Hold :=
  let off := addrOff p.addr
  if p.op = 0x20 || msgOp p.op || ctlBase ≤ off then none else s.memHoldAt off (pktSpan p) (p.op ≠ 1)


/-- Whether number a lies below number b (R488). -/
def wBelow (a b : Nat) : Bool := let d := (b + (2 ^ 32 - 1) - a) % (2 ^ 32 - 1); 0 < d && d < 2 ^ 31

/-- Whether an earlier request of the sender must come first (R489, R492). -/
def State.orderHold (s : State) (earlier : List Held) (p : Pkt) (dup : Bool) : Bool :=
  let mine := earlier.filter fun h => h.pkt.src == p.src && h.pkt.wseq ≠ 0 && !h.dup
  let due := s.fab.owed.filter fun o => o.req.src == p.src && o.req.wseq ≠ 0
  if dup then mine.any (fun h => h.pkt.wseq == p.wseq) || due.any (fun o => o.req.wseq == p.wseq)
  else if p.wseq ≠ 0 then !mine.isEmpty
  else p.rseq ≠ 0 && (mine.any (fun h => h.pkt.wseq == p.rseq || wBelow h.pkt.wseq p.rseq) ||
    !wBelow p.rseq (s.sender p.src).next)

/-- Why a request is held, if it is. -/
def State.holdOf (s : State) (earlier : List Held) (p : Pkt) (dup : Bool) : Option Hold :=
  if s.orderHold earlier p dup then some .order else if dup then none else s.memHold p

/-- The writes of this device that wait for the granule which holds a request (R432). -/
def State.waitingAt (s : State) (w : Hold) : Nat :=
  match w with
  | .granule p _ => match s.moveOf p with | some m => m.writes.length | none => 0
  | _ => 0

/-- Puts a request into the home queue (R500). -/
def State.enqueue (s : State) (h : Held) : State :=
  let h := { h with after := s.waitingAt h.why }
  s.onFab fun f => { f with queue := f.queue ++ [h], queuePeak := max f.queuePeak (min 256 (f.queue.length + 1)) }

/-- The answer to a duplicate (R489): with the value first returned where the request fetched one. -/
def State.answerDup (s : State) (p : Pkt) : State :=
  let d := if pktFetches p then
      match (s.sender p.src).retained.find? fun v => v.1 == p.wseq with
      | some v => toBytes (pktSpan p) v.2
      | none => []
    else []
  s.respond p 7 d

/-! ### Admission -/

/-- A response that leaves the request to be sent again: RETRY, BUSY with a time, GAP, EPOCH. A request of this device's
own is held until then. DESIGN CHOICE, log 66. -/
def State.putOff (s : State) (p : Pkt) (status aux flags token : Nat) : State :=
  if p.src = selfDev then
    let u := s.now + 8 * (if status = 5 then aux % 65536 else aux)
    s.onFab fun f => { f with reqs := f.reqs.map fun r =>
      if r.num = p.reqId then
        { r with hold := some u, heldAt := s.now, retries := r.retries + 1, busy := if status = 5 then 0 else 8 * aux
                 pkt := { r.pkt with token := token, flags := if bit flags 2 then r.pkt.flags ||| 4 else r.pkt.flags } }
      else if r.pkt.dst = selfDev && p.reqId < r.num && r.pkt.wseq ≠ 0 && r.hold.isNone && !s.fab.queue.any (fun h =>
          h.pkt.src == selfDev && h.pkt.reqId == r.num) then { r with hold := some 0 }
      else r }
  else s.sendPkt { s.response p status [] aux flags with token := token }

/-- Age tokens that are older than a token. -/
def Fabric.olderTokens (f : Fabric) (t : Nat) : Nat := (f.tokens.takeWhile fun x => x.1 ≠ t).length

/-- Refuses a request with RETRY (R501, R503, R504): the retry-after time is a free value of 8 ns to 524,280 ns; a token
goes with it while fewer than 256 are outstanding. A holder keeps its token, with a new life (DEDUCED, log 29). -/
def State.retry (s : State) (p : Pkt) (held : Option Nat) : State :=
  let d := s.draw 16
  let s := d.2.onFab fun f => { f with retries := satAdd 32 f.retries 1 }
  let after := 1 + d.1 % 65535
  let life := s.now + 8 * after + 1000 * s.fab.tokenLifeUs
  match held with
  | some t =>
    let s := s.onFab fun f => { f with tokens := f.tokens.map fun x => if x.1 = t then (t, life) else x }
    s.putOff p 5 (after + 65536 * t) 4 t
  | none =>
    if s.fab.tokens.length < 256 then
      let t := s.fab.nextToken
      let s := s.onFab fun f => { f with tokens := f.tokens ++ [(t, life)], nextToken := (t + 1) % 65536 }
      s.putOff p 5 (after + 65536 * t) 4 t
    else s.putOff p 5 after 0 0

/-- The queue entry that a request may take (R500 to R503): general or reserved; and the valid token it presents. -/
def State.entryFor (s : State) (p : Pkt) : Option Bool × Option Nat :=
  let f := s.fab
  let tok := if bit p.flags 2 && f.tokens.any (fun t => t.1 == p.token) then some p.token else none
  let resv := (f.queue.filter (·.reserved)).length
  if (f.queue.filter fun h => !h.reserved).length < 224 then (some false, tok)
  else match tok with
    | some t => if f.olderTokens t + resv < 32 || 8 ≤ bits p.aux2 23 16 then (some true, tok) else (none, tok)
    | none => (none, none)

/-- What follows the number check: a request that is not refused is served, or held. -/
def State.enter (s : State) (p : Pkt) (resv busy : Bool) (errs : List UnitErr) : State :=
  let next (s : State) : State :=
    if p.wseq = 0 then s else s.onSender p.src fun x => { x with next := nextWseq p.wseq }
  let s := { s with obs := { s.obs with homeReqs := sat64 s.obs.homeReqs 1 } }
  if s.malformed p then (next s).respond p 8
  else match s.busyTime p with
  | some b => b.2.putOff p 3 b.1 0 0
  | none =>
    let st := s.refusal p
    let s := s.onFab fun f => { f with stale := satAdd 32 f.stale (b2n (st == 6)), keyFaults := satAdd 32 f.keyFaults (b2n (st == 2)) }
    let s := next s
    if st ≠ 0 && addrScope p.addr ≠ 2 then s.respond p st
    else match (s.holdOf s.fab.queue p false).orElse fun _ => if busy then some Hold.line else none with
    | some w => s.enqueue { pkt := p, why := w, reserved := resv, refuse := st }
    | none => (s.onFab fun f => { f with queuePeak := max f.queuePeak (min 256 (f.queue.length + 1)) }).serve p errs st

/-- Whether the context of a sender can give way (R491): it has no held requests, nothing owed and no retained values. -/
def State.canYield (s : State) (d : Nat) (x : Sender) : Bool :=
  x.retained.isEmpty && x.mute.isEmpty && d ≠ selfDev && !(s.fab.queue.any fun h => h.pkt.src == d) &&
    !(s.fab.owed.any fun o => o.req.src == d)

/-- The entry of the sequence table for a device, as an HBM address (R491). -/
def State.seqEntry (s : State) (d : Nat) : Nat := s.fab.seqTable + 8 * d

/-- Brings back a sender's context from the sequence table (R491): NEXT in bytes 0 to 3, the epoch in byte 4 (DESIGN CHOICE,
log 67). -/
def State.loadSender (s : State) (d : Nat) : State :=
  if !s.fab.saved.contains d then s
  else
    let b := Tbl.getList 0 s.hbm.bytes (s.seqEntry d) 8
    (s.onSender d fun x => { x with next := field b 0 4, epoch := field b 4 1 }).onFab fun f =>
      { f with saved := f.saved.filter (· ≠ d) }

/-- A sender's context gives way (R491): its NEXT goes to the sequence table. -/
def State.saveSender (s : State) (d : Nat) (x : Sender) : State :=
  let s := s.putHbm (s.seqEntry d) (toBytes 4 x.next ++ toBytes 1 x.epoch ++ [0, 0, 0]) 0 false false
  s.onFab fun f => { f with senders := Tbl.set {} f.senders d {}, saved := f.saved ++ [d] }

/-- A sender's context is on the IOD (R491), where another may have to give way; none where none can. Which one gives way is
the lowest device's (DESIGN CHOICE, log 67). -/
def State.context (s : State) (d : Nat) : Option State :=
  if d = selfDev || s.fab.senders.any (fun e => e.1 == d) then some s
  else if (s.fab.senders.filter fun e => e.1 ≠ selfDev).length < 4096 then some (s.loadSender d)
  else match s.fab.senders.find? fun e => s.canYield e.1 e.2 with
    | some e => some ((s.saveSender e.1 e.2).loadSender d)
    | none => none

/-- The home receives a request (R487 to R492, R500 to R503, R756). `busy` says that its line is still being changed
(R495); errs are the errors that its HBM access meets. DESIGN CHOICE, log 69. -/
def State.home (s : State) (p : Pkt) (busy : Bool) (errs : List UnitErr) : State :=
  let own := p.src = selfDev
  if !own && p.dstEpoch ≠ s.flash.bootEpoch then s.sendPkt (s.response p 0xA [] 0 0)
  else if s.fab.reinit then
    let d := s.draw 32
    d.2.putOff p 3 (1 + d.1 % (2 ^ 32 - 1)) 0 0
  else match s.context p.src with
  | none => s.retry p none
  | some s =>
    let s := if own || (s.sender p.src).epoch = p.srcEpoch then s
      else s.onSender p.src fun _ => { epoch := p.srcEpoch }
    let e := s.entryFor p
    match e.1 with
    | none => s.retry p e.2
    | some resv =>
      let s := match e.2 with
        | some t => s.onFab fun f => { f with tokens := f.tokens.filter (·.1 ≠ t) }
        | none => s
      if p.op = 1 then s.enter p resv busy errs
      else if p.wseq = 0 then s.respond p 8
      else
        let s := s.onSender p.src fun x =>
          { x with retained := x.retained.filter fun v => !(v.1 == p.rseq || wBelow v.1 p.rseq) || p.rseq == 0 }
        let nx := (s.sender p.src).next
        if p.wseq = nx then
          if pktFetches p && 256 ≤ (s.sender p.src).retained.length then s.retry p none
          else s.enter p resv busy errs
        else if wBelow p.wseq nx && (s.sender p.src).mute.contains p.wseq then s
        else if wBelow p.wseq nx then
          let s := s.onFab fun f => { f with dups := satAdd 32 f.dups 1 }
          if s.orderHold s.fab.queue p true then s.enqueue { pkt := p, why := .order, reserved := resv, dup := true }
          else s.answerDup p
        else s.putOff p 9 0 0 0

/-- Whether a numbered request that arrives now is the next of its sender's and enters the home (R487 to R489, R492, R500,
R756). -/
def State.isNext (s : State) (p : Pkt) : Bool :=
  match s.context p.src with
  | none => false
  | some s =>
  let x := s.sender p.src
  p.dstEpoch = s.flash.bootEpoch && !s.fab.reinit && p.wseq ≠ 0 && p.wseq = (if x.epoch = p.srcEpoch then x.next else 1) &&
    (s.entryFor p).1.isSome

/-- A held request is looked at again (R47, R253, R416, R432, R492, R494, R495, R500): served when nothing holds it. A stamp
that has grown old meanwhile is refused with STALE. Where its target would be BUSY, a read is answered so, and a numbered
request, whose number has been passed (R489), waits (DEDUCED, log 101). -/
def State.release (s : State) (i : Nat) : State :=
  match s.fab.queue[i]? with
  | none => s
  | some h =>
    match s.holdOf (s.fab.queue.take i) h.pkt h.dup with
    | some w => s.onFab fun f => { f with queue := f.queue.set i { h with why := w, after := s.waitingAt w } }
    | none =>
      let t := s.onFab fun f => { f with queue := f.queue.eraseIdx i }
      if h.dup then t.answerDup h.pkt
      else
        let st := if h.refuse = 0 && t.staleReq h.pkt then 6 else h.refuse
        let t := t.onFab fun f => { f with stale := satAdd 32 f.stale (b2n (st ≠ h.refuse)) }
        match if st = 0 then t.busyTime h.pkt else none with
        | some b =>
          if h.pkt.wseq = 0 then b.2.putOff h.pkt 3 b.1 0 0
          else s.onFab fun f => { f with queue := f.queue.set i { h with why := .busy } }
        | none => t.serve h.pkt [] st

/-! ### A granule's arrival (R432, R433) -/

/-- Whether a held request waits for a granule behind no more than the first `k` writes of this device. -/
def Held.behind (h : Held) (p k : Nat) (ok : Nat → Bool) : Bool :=
  match h.why with | .granule q g => q == p && ok g && h.after ≤ k | _ => false

/-- Serves the held requests that wait behind no more than the first `k` writes, in order: `fuel` at least their number. -/
def State.serveHeld (p k : Nat) (ok : Nat → Bool) : Nat → State → State
  | 0, s => s
  | fuel + 1, s => match s.fab.queue.findIdx? fun h => h.behind p k ok with
    | some i => State.serveHeld p k ok fuel (s.release i)
    | none => s

/-- Applies what waits for granules of page p that `ok` admits, in order of arrival: this device's own writes `ws` and the
requests in the home queue (R432, R433). -/
def State.applyHeld (s : State) (p : Nat) (ok : Nat → Bool) (ws : List MoveUnit) : State :=
  let s := ws.zipIdx.foldl (fun (s : State) w =>
    if ok (granOf w.1.1) then
      (State.serveHeld p w.2 ok s.fab.queue.length s).putSpan w.1.1 w.1.2.1 w.1.2.2.2 w.1.2.2.1
    else s) s
  State.serveHeld p ws.length ok s.fab.queue.length s

/-- An abandoned promotion: the page is REMOTE, the READs still out serve nobody, and what was held is applied at the home
(R433). -/
def State.abandonFill (s : State) (p : Nat) : State :=
  match s.moveOf p with
  | none => s
  | some m =>
    let s := s.onFab fun f => { f with reqs := f.reqs.map fun (r : Req) =>
      match r.why with | .promote q _ => if q = p then { r with why := .nobody } else r | _ => r }
    (s.leaveFrame p).applyHeld p (fun g => m.arrived ≤ g) m.writes

/-- PROMOTE_GRANULE (R432, R436): every part of the next granule has come, and what waits for it is applied. -/
def execPromoteGranule (p : BitVec 21) (s : State) : Out :=
  let p := p.toNat
  match s.moveOf p with
  | none => .next s
  | some m =>
    if m.evict || m.bad || m.forced || (s.page p).st ≠ 3 || s.asking p then .next s
    else
      let g := m.arrived
      let s := (s.onMove p fun m => { m with arrived := g + 1 }).applyHeld p (· == g) m.writes
      if g + 1 < 32 then .next (s.askGranule p (g + 1))
      else
        let s := (s.onPage p fun e => { e with st := 2 }).dropMove p
        .next ((s.onTier fun x => { x with promoted := satAdd 32 x.promoted 1 }).tierDone p false 0)

/-- PROMOTE_ABANDON (R433, R441): 10 ms after a promotion began, or where a shrink takes its frame. -/
def execPromoteAbandon (p : BitVec 21) (s : State) : Out :=
  let p := p.toNat
  match s.moveOf p with
  | none => .next s
  | some m =>
    if m.evict || (s.page p).st ≠ 3 || (!m.forced && s.now < m.began + 10000000) then .next s
    else .next ((s.abandonFill p).tierDone p false 0xC)

/-- COMBINE_FLUSH (R506): the oldest entry, 64 fabric-engine cycles after it opened. -/
def execCombineFlush (s : State) : Out :=
  match s.fab.combining with
  | e :: _ => if s.now < e.opened + 51 then .next s else .next (s.combineOut e)
  | [] => .next s

/-- TOKEN_EXPIRY (R504). -/
def execTokenExpiry (token : BitVec 16) (s : State) : Out :=
  match s.fab.tokens.find? fun t => t.1 == token.toNat with
  | some t =>
    if s.now < t.2 then .next s
    else .next (s.onFab fun f => { f with tokens := f.tokens.filter (·.1 ≠ t.1), tokensExpired := satAdd 16 f.tokensExpired 1 })
  | none => .next s

end Sys2Proof.Machine
end

