-- ==== Sys2Proof/Machine/Fabric.lean ====
section
/-! DEFINITION. The requester (R469, R472, R480, R484 to R488, R502), the rows of packets received at the home, and the
acknowledgements of write-backs and of the buddy (R443, R448, R451). -/

namespace Sys2Proof.Machine

/-! ### Sending -/

/-- Sends a held request now: to another home, or to this device's own. -/
def State.emit (s : State) (r : Req) : State :=
  if r.pkt.dst = selfDev then
    let s := s.onFab fun f => { f with reqs := f.reqs.map fun q =>
      if q.num = r.num then { q with hold := none, sentAt := s.now, tries := q.tries + 1 } else q }
    s.home { r.pkt with aux2 := r.pkt.aux2 % 65536 + 65536 * min 255 r.retries } false []
  else s.transmit r

/-- Sends the requests that wait for the window of a home, in order (R488, R502). -/
def State.pump (s : State) (d : Nat) : State :=
  ((s.fab.reqs.filter fun r => r.pkt.dst == d && r.pkt.wseq ≠ 0 && !r.dead).foldl (fun (x : State × Bool) r =>
    if x.2 then x
    else if r.routeHold then (x.1, true)
    else match r.hold with
      | some 0 => if x.1.outstanding d < 1024 then (x.1.emit r, false) else (x.1, true)
      | some _ => (x.1, true)
      | none => x) (s, false)).1

/-- Makes a request to this device's own home (R469). -/
def State.localReq (s : State) (op addr : Nat) (data : Bytes) (key aux flags aux2 : Nat) (why : Purpose) : State :=
  let p := s.peer selfDev
  let num := numberedOp op
  let pkt : Pkt :=
    { op := op, src := selfDev, dst := selfDev, wseq := if num then p.nextW else 0
      rseq := if num then p.rseq else prevWseq p.nextW p.wrapped, reqId := s.fab.nextReq, key := key
      step := s.stepNo % 65536, attempt := s.step.attempt, flags := flags, addr := addr, aux := aux, aux2 := aux2
      data := data }
  let blocked := num && s.fab.reqs.any fun r => r.pkt.dst == selfDev && r.pkt.wseq ≠ 0 && r.hold.isSome
  let r : Req := { num := s.fab.nextReq, pkt := pkt, why := why, born := s.now, sentAt := s.now, wait := 0
                   hold := if blocked then some 0 else none }
  let s := if num then s.onPeer selfDev fun p =>
    { p with nextW := nextWseq p.nextW, wrapped := p.wrapped || p.nextW = 2 ^ 32 - 1 } else s
  let s := s.onFab fun f => { f with reqs := f.reqs ++ [r], nextReq := f.nextReq + 1 }
  if blocked then s else s.emit r

/-- Makes a request to whatever an address names: this device, another, or a group's root (R469, R471, R472). DEDUCED,
log 74. -/
def State.fabReq (s : State) (op addr : Nat) (data : Bytes) (key aux flags aux2 : Nat) (why : Purpose) : State :=
  if s.isOwn addr then s.localReq op (addrOff addr) data key aux flags aux2 why
  else if addrScope addr = 2 then
    match Tbl.get none s.fab.groups (addrDev addr) with
    | some g =>
      if g.root = s.fab.device then s.localReq op addr data key aux flags aux2 why
      else s.sendReq g.root op addr data key aux flags aux2 why
    | none => s.localReq op addr data key aux flags aux2 why
  else s.sendReq (addrDev addr) op addr data key aux flags aux2 why

/-! ### Copies (R513, R514) -/

/-- Writes a part of a COPY to its destination, at offset `off` of the copy: packets of one FMT, a poisoned unit alone
(R395, R477, R515). -/
def State.copyOut (s : State) (t id : Nat) (main : Bytes) (off : Nat) (us : List MoveUnit) : State :=
  let addr := field main 8 8
  let flags := b2n (bit (field main 0 4) 16)
  let aux2 := if bit (field main 36 4) 12 then 4096 + bits (field main 36 4) 11 0 else 0
  let us := us.flatMap fun u =>
    if u.2.2.1 then (unitCut u.2.1.length (addrOff addr + off + u.1) u.2.1).map fun c =>
      (c.1 - addrOff addr - off, c.2, true, u.2.2.2)
    else [u]
  (groupUnits s.maxPayload none us).foldl (fun (s : State) u =>
    s.fabReq 2 (addr + (off + u.1)) u.2.1 (field main 4 4) u.2.2.2 (if u.2.2.1 then flags ||| 32 else flags) aux2
      (.copyWrite t id)) s

/-- A read of a COPY at another home is answered (R392, R430, R514): where a page of this device lives there, a poisoned unit
is found by asking unit by unit; any other refusal ends the copy. -/
def State.copyReadDone (s : State) (t id off : Nat) (r : Req) (status : Nat) (data : Bytes) : State :=
  match s.fabCmd t id with
  | none => s
  | some c =>
    let own := s.isOwn (field c.main 16 8)
    if good status then
      let d := s.draw 8
      d.2.copyOut t id c.main off [(0, data, false, d.1)]
    else if own && status = 4 then
      if 64 < r.pkt.aux then s.askUnits r fun o => .copyRead t id (off + o)
      else
        let d := s.draws 8 r.pkt.aux
        d.2.copyOut t id c.main off [(0, d.1.map (BitVec.ofNat 8), true, 0)]
    else
      let s := s.onFabCmd t id fun c => { c with status := if c.status = 0 then status else c.status, ended := true }
      s.onFab fun f => { f with reqs := f.reqs.map fun q =>
        match q.why with | .copyRead t' id' _ => if t' = t && id' = id then { q with why := .nobody } else q | _ => q }

/-- Completes a request of this device's own, whatever it serves. -/
def State.complete (s : State) (r : Req) (status : Nat) (data : Bytes) : State :=
  match r.why with
  | .copyRead t id off =>
    if r.own then s.reqDone r status data else (s.reqDone r status data).copyReadDone t id off r status data
  | _ => s.reqDone r status data

/-! ### Responses (R484 to R487, R502) -/

/-- Holds a refused request, with every later numbered request to the same home, until a time (R502). A response has arrived
for it: REACH_MS counts from its next sending (R486; DEDUCED, log 68). -/
def State.holdReq (s : State) (r : Req) (till token : Nat) (hasToken : Bool) (busy : Nat) : State :=
  s.onFab fun f => { f with reqs := f.reqs.map fun q =>
    if q.num = r.num then
      { q with hold := some till, retries := q.retries + 1, first := none, busy := busy, heldAt := s.now
               pkt := { q.pkt with token := token, flags := if hasToken then q.pkt.flags ||| 4 else q.pkt.flags } }
    else if q.pkt.dst = r.pkt.dst && r.num < q.num && q.pkt.wseq ≠ 0 && q.hold.isNone && !q.dead then { q with hold := some 0 }
    else q }

/-- Goes back to the lowest unacknowledged number (R489). -/
def State.goBack (s : State) (d : Nat) : State :=
  (s.onFab fun f => { f with reqs := f.reqs.map fun q =>
    if q.pkt.dst = d && q.pkt.wseq ≠ 0 && q.hold.isNone && !q.dead then { q with hold := some 0, first := none } else q }).pump d

/-- The receiver has another epoch (R487): numbering starts again and everything outstanding ends UNREACHABLE. DEDUCED,
log 73. -/
def State.newEpoch (s : State) (d epoch : Nat) : State :=
  let s := s.onPeer d fun p => { p with epoch := epoch, nextW := 1, wrapped := false, rseq := 0 }
  (s.fab.reqs.filter fun r => r.pkt.dst == d).foldl (fun s r => s.complete r 0xB []) s

/-- TL_RESPONSE (R477, R478, R481, R484, R487, R489, R490, R502). DEDUCED, log 68. -/
def execTlResponse (p : Pkt) (s : State) : Out := s.rxPacket p fun s =>
  if !s.fab.numbered || p.dst ≠ s.fab.device || p.version ≠ 1 || p.kind ≠ 2 || !p.crcOk then .next s
  else match s.fab.reqs.find? fun r =>
      r.pkt.dst == p.src && r.pkt.reqId == p.reqId && r.pkt.op == p.op && r.tries ≠ 0 && !r.dead with
  | none => .next s
  | some r =>
    let s := { s with obs := { s.obs with fabRx := sat64 s.obs.fabRx p.data.length } }
    let s := s.onPeer p.src fun q => { q with timeouts := 0 }
    let drain := match r.why with | .drain _ _ => true | _ => false
    if p.status = 0xA then .next (s.newEpoch p.src p.srcEpoch)
    else if p.status = 5 || (p.status = 3 && p.aux ≠ 0 && !drain) then
      if r.hold.isSome then .next s
      else if p.status = 5 then
        .next (s.holdReq r (s.now + 8 * (p.aux % 65536)) (bits p.aux 31 16) (bit p.flags 2) 0)
      else .next (s.holdReq r (s.now + 8 * p.aux) 0 false (8 * p.aux))
    else if p.status = 9 then .next (if r.hold.isSome then s else s.goBack p.src)
    else
      let s := if pktFetches r.pkt && good p.status then s.onPeer p.src fun q => { q with rseq := r.pkt.wseq } else s
      .next ((s.complete r p.status p.data).pump p.src)

/-- The outstanding request of a number. -/
def State.req (s : State) (num : Nat) : Option Req := s.fab.reqs.find? fun r => r.num == num

/-- RETRY_AFTER_EXPIRY (R502). -/
def execRetryAfterExpiry (num : Nat) (s : State) : Out :=
  match s.req num with
  | none => .next s
  | some r => match r.hold with
    | some t => if t = 0 || s.now < t || r.routeHold then .next s else .next ((s.emit r).pump r.pkt.dst)
    | none => .next s

/-! ### Timeouts and routes (R484 to R486) -/

/-- Takes a path to a home: every unacknowledged request is sent again on it, from the lowest number (R485). -/
def State.takePath (s : State) (d k : Nat) : State :=
  let s := s.onPeer d fun p => { p with path := k, chosen := true, timeouts := 0 }
  let s := s.onFab fun f => { f with reqs := f.reqs.map fun r => if r.pkt.dst = d then { r with routeHold := false } else r }
  let s := (s.fab.reqs.filter fun r => r.pkt.dst == d && r.hold.isNone && !r.dead).foldl
    (fun (s : State) r => s.transmit r) s
  s.pump d

/-- PATH_FAIL consecutive timeouts have taken the path to a home down (R485, R590). -/
def State.pathDown (s : State) (d : Nat) : State :=
  let k := (s.peer d).path
  let s := s.onFab fun f => { f with
    pathsDown := satAdd 16 f.pathsDown 1
    downPaths := if f.downPaths.contains (d, k) then f.downPaths else f.downPaths ++ [(d, k)] }
  let q := (s.proposePath d k).getD k
  if s.assisted 4 then
    let s := s.onFab fun f => { f with reqs := f.reqs.map fun r => if r.pkt.dst = d then { r with routeHold := true } else r }
    s.request (.route d k q) 0x84 [d, k, q]
  else s.takePath d q

/-- RTO_EXPIRY (R484, R485): the wait for request num has passed. -/
def execRtoExpiry (num : Nat) (s : State) : Out :=
  match s.req num with
  | none => .next s
  | some r =>
    if r.pkt.dst = selfDev || r.hold.isSome || r.routeHold || r.dead || s.now < r.sentAt + r.wait then .next s
    else
      let d := r.pkt.dst
      let s := s.transmit r
      let s := s.onFab fun f => { f with reqs := f.reqs.map fun q =>
        if q.num = num then { q with wait := max q.wait (min 1000000 (2 * q.wait)) } else q }
      let s := s.onPeer d fun p => { p with timeouts := p.timeouts + 1 }
      .next (if s.fab.pathFail ≤ (s.peer d).timeouts then s.pathDown d else s)

/-- REACH_TIMEOUT (R486): REACH_MS have passed since request num was first sent, and no response has arrived. -/
def execReachTimeout (num : Nat) (s : State) : Out :=
  match s.req num with
  | none => .next s
  | some r =>
    match r.first with
    | none => .next s
    | some t =>
      if r.pkt.dst = selfDev || r.dead || s.now < t + 1000000 * s.fab.reachMs then .next s
      else .next ((s.complete r 0xB []).pump r.pkt.dst)

/-! ### Packets at the home -/

/-- A request packet arrives (R467, R473 to R476): none is answered by a device without a number, and none whose trailer
fails its check. The packet's OP is the row's, but that a reserved one stays. DEDUCED, log 71. -/
def tlRow (op : Nat) (p : Pkt) (busy : Bool) (errs : List UnitErr) (s : State) : Out :=
  let p := if knownOp p.op then { p with op := op } else p
  s.rxPacket p fun s =>
  if !s.fab.numbered then .next s
  else
    let s := { s with obs := { s.obs with fabRx := sat64 s.obs.fabRx (if p.crcOk then p.data.length else 0) } }
    if !p.crcOk then .next s
    else if !knownOp p.op then .next (s.respond p 8)
    else if p.dst ≠ s.fab.device then .next (s.sendPkt (s.response p 8 [] 0 0))
    else .next (s.home p busy errs).proposals

/-- TL_READ (R387 to R392, R429, R439, R470, R475 to R478, R487, R492, R498, R500 to R503). -/
def execTlRead (p : Pkt) (busy : Bool) (errs : List UnitErr) (s : State) : Out := tlRow 1 p busy errs s
/-- TL_WRITE (R157, R245, R429, R472, R476, R477, R487 to R494, R498, R500 to R503, R515). -/
def execTlWrite (p : Pkt) (busy : Bool) (errs : List UnitErr) (s : State) : Out := tlRow 2 p busy errs s
/-- TL_ADD (R476, R489, R490, R498, R505 to R509). -/
def execTlAdd (p : Pkt) (busy : Bool) (s : State) : Out := tlRow 0x10 p busy [] s
/-- TL_MIN (R476, R489, R490, R498, R505 to R509). -/
def execTlMin (p : Pkt) (busy : Bool) (s : State) : Out := tlRow 0x11 p busy [] s
/-- TL_MAX (R476, R489, R490, R498, R505 to R509). -/
def execTlMax (p : Pkt) (busy : Bool) (s : State) : Out := tlRow 0x12 p busy [] s
/-- TL_CAS (R476, R489, R490, R498, R505, R506, R509). -/
def execTlCas (p : Pkt) (busy : Bool) (s : State) : Out := tlRow 0x13 p busy [] s
/-- TL_INVAL (R472, R476, R489, R498, R519, R520). -/
def execTlInval (p : Pkt) (s : State) : Out := tlRow 0x20 p false [] s

/-! ### Acknowledgements of the tiering engine's writes -/

/-- WRITEBACK_ACK (R434, R443, R445): the home acknowledges the run of request num. -/
def execWritebackAck (num : Nat) (s : State) : Out :=
  match s.req num with
  | some r => match r.why with
    | .writeBack _ _ => .next ((s.complete r 0 []).pump r.pkt.dst)
    | _ => .next s
  | none => .next s

/-- BUDDY_FORWARD_ACK (R448): the buddy acknowledges the write of request num, and its writer is acknowledged. -/
def execBuddyForwardAck (num : Nat) (s : State) : Out :=
  match s.req num with
  | some r => match r.why with
    | .buddy _ => if r.dead then .next s else .next ((s.complete r 0 []).pump r.pkt.dst)
    | _ => .next s
  | none => .next s

/-- BUDDY_TIMEOUT (R451): a write has gone unacknowledged for BUDDY_TIMEOUT. Writes are acknowledged on the frame alone. -/
def execBuddyTimeout (s : State) : Out :=
  let mine (r : Req) : Bool := match r.why with | .buddy _ => true | w => w.reseeds
  let late (r : Req) : Bool := match r.why with
    | .buddy _ => r.born + 1000000 * s.tier.buddyTimeout ≤ s.now
    | w => w.reseeds && r.dead && r.born + 1000000 * s.tier.buddyTimeout ≤ s.now
  if !(s.tier.buddySt = 1 || s.tier.buddySt = 3) || !s.fab.reqs.any late then .next s
  else
    let ns := (s.fab.reqs.filter mine).map (·.num)
    let s := s.onTier fun x => { x with buddySt := 2 }
    let s := s.onFab fun f =>
      { f with reqs := (f.reqs.filter fun r => !(mine r && r.dead)).map fun r => if mine r then { r with why := .nobody } else r
               owed := f.owed.map fun o => { o with waits := o.waits.filter fun n => !ns.contains n } }
    let s := { s with hal := { s.hal with cmds := s.hal.cmds.map fun (c : PendCmd) =>
      { c with waits := c.waits.filter fun n => !ns.contains n } } }
    .next (s.payOwed.raise { code := 0x23, payload := [s.tier.buddyDev] })

end Sys2Proof.Machine
end

