-- ==== Sys2Proof/Machine/Ledger.lean ====
section
/-! DEFINITION. The reduction's records as they arrive (R333 to R357) and the ledger of the step (R361 to R373). A lead
sends its own device the same messages as the others (DESIGN CHOICE, log 20). -/

namespace Sys2Proof.Machine

/-! ### The reduction -/

/-- Whether a reduction record is of the attempt in progress (R354). -/
def State.current (s : State) (step attempt : Nat) : Bool := step == s.stepNo % 65536 && attempt == s.step.attempt

/-- A record of another attempt is counted (R354). -/
def State.countStale (s : State) : State := { s with red := { s.red with staleDrops := satAdd 16 s.red.staleDrops 1 } }

/-! ### REDUCE and LEDGER requests at the home (R354, R467, R469, R476, R487 to R503) -/

/-- What a REDUCE or LEDGER request does at the home, which answers it: `act` where it is applied, `stale` where its stamp is
older than the home's own and it is refused with STALE (R494). A message of this device itself is no packet (R469). One that
would have to wait behind an earlier request of its sender is lost, and comes again (DESIGN CHOICE, log 65). -/
def msgRow (op : Nat) (m : Msg) (p : Pkt) (stale act : State → State) (s : State) : Out :=
  let p := { p with op := op, msg := some m }
  if p.src = s.fab.device then .next (act s)
  else s.rxPacket p fun s =>
  if !s.fab.numbered then .next s
  else
    let s := { s with obs := { s.obs with fabRx := sat64 s.obs.fabRx (if p.crcOk then p.data.length else 0) } }
    if !p.crcOk then .next s
    else if p.dst ≠ s.fab.device then .next (s.sendPkt (s.response p 8 [] 0 0))
    else
      let fresh := s.isNext p
      if fresh && s.orderHold s.fab.queue p false then .next s
      else
        let t := s.home p false []
        .next (if !fresh || s.malformed p then t
          else if s.refusal p = 0 then act t
          else if s.refusal p = 6 then stale t else t)

/-- A reduction record of another attempt is discarded, its credit goes back at once, and it is counted (R354). -/
def State.staleDrop (s : State) (src tree : Nat) (ctl : Bool) : State :=
  s.countStale.send (.credit src tree ctl)

/-- REDUCE (R333, R337 to R340, R347, R351, R354, R745): the credit goes back once the record is consumed. `retry` and
`fail` say whether the adder's residue mismatches once, or twice. -/
def execReduce (p : Pkt) (retry fail : Bool) (s : State) : Out :=
  let tree := (s.tagEnt p.aux).tree
  msgRow 0x40 .reduce p (fun s => s.staleDrop p.src tree false) (fun s =>
    if !s.current p.step p.attempt then s.staleDrop p.src tree false
    else (s.nodeIn p.aux p.src (Gx.ofRec p.data (s.tagEnt p.aux).width) retry fail).send (.credit p.src tree false)) s

/-- REDUCE_END (R335, R342, R344, R351, R354 to R356): from a child, which gets its control credit back, it enters the node's
check; from the parent it is the root's final END. -/
def execReduceEnd (p : Pkt) (sum blocks idx flags : Nat) (s : State) : Out :=
  let e : EndRec := { src := p.src, sum := sum, blocks := blocks, idx := idx, flags := flags }
  let down := (s.tree p.aux).1 = some p.src
  let tree := (s.tagEnt p.aux).tree
  let drop (s : State) : State := if down then s.countStale else s.staleDrop p.src tree true
  msgRow 0x40 e.msg p drop (fun s =>
    if !s.current p.step p.attempt then drop s
    else if down then s.finalEnd p.aux e
    else ((s.onTag p.aux fun t => { t with ends := t.ends ++ [e] }).endCheck p.aux).send (.credit p.src tree true)) s

/-- REDUCE_RESULT (R338, R346, R354 to R356). -/
def execReduceResult (p : Pkt) (code : Nat) (s : State) : Out :=
  msgRow 0x40 (.result code) p State.countStale (fun s =>
    if !s.current p.step p.attempt then s.countStale
    else
      let g := Gx.ofRec p.data (s.tagEnt p.aux).width
      (s.resultDown p.aux code g).takeResult p.aux code g) s

/-- Sends the held records of a tree while it has credits: `fuel` at least the number held (R351, R353). A tag whose last
block has been sent ends its contribution, and its node's check may be made (R342, R344). -/
def State.sendHeld (tree : Nat) : Nat → State → State
  | 0, s => s
  | f + 1, s =>
    match s.red.waiting.find? fun w => (s.tagEnt w.1).tree == tree with
    | none => s
    | some w =>
      if !s.creditFree tree then s
      else
        match (s.tree w.1).1 with
        | none => s
        | some p =>
          let s := State.say { s with red := { s.red with
              waiting := s.red.waiting.erase w, creditsUsed := Tbl.upd 0 s.red.creditsUsed tree (· + 1) } } p 0x40 w.1 .reduce
            (w.2.toRec (s.tagEnt w.1).width)
          let full := s.step.drainCount == s.step.mbCount && s.step.st ≠ 0
          let more := s.red.waiting.any fun v => v.1 == w.1
          let s := if full && !more then s.endTag w.1 else s
          State.sendHeld tree f (s.endCheck w.1)

/-- Sends the held END records, reports and beats of a tree while it has control credits: `fuel` at least their number
(R351). -/
def State.sendCtl (tree : Nat) : Nat → State → State
  | 0, s => s
  | f + 1, s =>
    match s.red.ctlWait.find? fun w => w.1 == tree, (s.treeAt tree).1 with
    | some w, some p =>
      if !s.ctlFree tree then s
      else State.sendCtl tree f (State.say { s with red := { s.red with
          ctlWait := s.red.ctlWait.erase w, ctlUsed := Tbl.upd 0 s.red.ctlUsed tree (· + 1) } }
        p w.2.1 w.2.2.1 w.2.2.2.1 [] w.2.2.2.2)
    | _, _ => s

/-- CREDIT_RETURN (R351, R353). -/
def execCreditReturn (tree : Nat) (ctl : Bool) (s : State) : Out :=
  if ctl then
    let s := { s with red := { s.red with ctlUsed := Tbl.upd 0 s.red.ctlUsed tree (· - 1) } }
    .next (State.sendCtl tree s.red.ctlWait.length s)
  else
    let s := { s with red := { s.red with creditsUsed := Tbl.upd 0 s.red.creditsUsed tree (· - 1) } }
    .next (State.sendHeld tree s.red.waiting.length s)

/-! ### The ledger -/

/-- The devices to which a lead's orders go: its team, and the leads below it (R370). -/
def Red.members (r : Red) : List Nat := r.team ++ r.subLeads

/-- Changes the reduction's state. -/
def State.onRed (s : State) (f : Red → Red) : State := { s with red := f s.red }

/-- A message to every member. DESIGN CHOICE, log 20. -/
def State.toMembers (s : State) (kind : Nat) (args : List Nat) : State :=
  s.red.members.foldl (fun s d => s.say d 0x41 kind (.ledger args) [] false) s

/-- The ledger opens for an attempt of a step (R364). -/
def State.openLedger (s : State) (st step attempt repeats : Nat) : State :=
  s.onRed fun r => { r with ledger := st, step := step, attempt := attempt, repeatsRow := repeats, reported := []
                            confirmed := [], tagsChecked := [], ovfBlocks := [], openedAt := s.now, deciding := none
                            lateSince := [] }

/-- A patch as numbers. -/
def patchNums (p : Patch) : List Nat := [p.tag, match p.block with | some b => b + 1 | none => 0, p.code]

/-- An order as numbers: 1 for a commit, step, attempt, cause, patches. -/
def orderNums (o : Order) : List Nat := [b2n o.commit, o.step, o.attempt, o.cause] ++ o.patches.flatMap patchNums

/-- The order goes to the team, and the ledger opens for what follows (R252, R364 to R366, R580): ledger messages 6 and
7. The top lead raises STEP_REPEATED with a repeat (R366). -/
def State.issue (s : State) (o : Order) : State :=
  if o.commit then
    let s := s.toMembers 6 [o.step]
    (s.openLedger (if s.red.stopping then 0 else 1) (o.step + 1) 0 0).onRed fun r => { r with stopping := false }
  else
    let s := (s.toMembers 7 (orderNums o)).openLedger 1 o.step o.attempt (s.red.repeatsRow + 1)
    if s.red.leadAbove.isNone then s.raise { code := 0x15, payload := [o.step, o.attempt, o.cause] } else s

/-- A decision goes to the standby first (R365, R371): ledger message 9. -/
def State.askStandby (s : State) (b : Nat) (o : Order) : State := s.say b 0x41 9 (.ledger (orderNums o)) [] false

/-- A lead decides (R364, R365, R371): CHECKED becomes DECIDING at once. Without a standby the order is issued at once. -/
def State.leadDecide (s : State) (o : Order) : State :=
  let s := s.onRed fun r => { r with ledger := if o.commit then 3 else 4, deciding := some o
                                     cause := if o.commit then r.cause else o.cause }
  match s.red.standbyDev with
  | some b => s.askStandby b o
  | none => s.issue o

/-- The ledger fails (R364, R366, R367, R579): ledger message 12 tells every device. -/
def State.failLedger (s : State) (cause : Nat) : State :=
  let s := s.onRed fun r => { r with ledger := 5, cause := cause }
  let s := s.report 5 7 0x13 0
  let s := s.raise { code := 0x13, payload := [s.red.step, cause] }
  s.toMembers 12 [3]

/-- The patches of a repeat (R348): each overflowed block's code raised, or, beyond 4,096 of them, every code of their
tags. Codes stay below 0xFF. -/
def Red.patches (r : Red) : List Patch :=
  if r.ovfBlocks.length ≤ 4096 then r.ovfBlocks.map fun p => { p with code := min 0xFE (p.code + r.ovfBump) }
  else (r.ovfBlocks.map (·.tag)).eraseDups.map fun t => { tag := t, block := none, code := r.ovfBump }

/-- A message of a lower lead to the lead above it, about the attempt that its ledger has open (R370). -/
def State.tellAbove (s : State) (kind : Nat) (args : List Nat) : State :=
  match s.red.leadAbove with
  | some a => s.say a 0x41 kind (.ledger ([s.fab.device, s.red.step, s.red.attempt] ++ args))
  | none => s

/-- A cause of repeat at a lead (R363 to R366, R370): a lower lead passes it up. -/
def State.causeAt (s : State) (cause : Nat) : State :=
  if s.red.ledger ≠ 1 then s
  else if s.red.leadAbove.isSome then s.tellAbove 1 [cause]
  else if s.red.repeatLimit < s.red.repeatsRow + 1 || 255 < s.red.attempt + 1 then s.failLedger cause
  else s.leadDecide
    { commit := false, step := s.red.step, attempt := s.red.attempt + 1, cause := cause, patches := s.red.patches }

/-- Whether every team device, and every lead below, has reported complete (R361, R370). -/
def Red.allReported (r : Red) : Bool :=
  r.team.length ≤ r.teamDone && r.subLeads.all fun d => Tbl.get 0 r.reported d ≠ 0

/-- The top lead commits once R361 holds; a lower lead tells the one above that its team is complete (R370). -/
def State.checkCommit (s : State) : State :=
  let r := s.red
  let all := r.allReported && r.members.all fun d => (List.range r.tagCount).all fun t => r.confirmed.contains (d, t)
  if r.ledger ≠ 1 || r.leadAbove.isSome || !all || r.tagsChecked.length < r.tagCount then s
  else s.leadDecide { commit := true, step := r.step }

/-- A lower lead passes up one count for its team once every member has reported, or confirmed a tag (R370). -/
def State.passUp (s : State) (m : LedgerMsg) : State :=
  let r := s.red
  match m with
  | .complete _ => if r.allReported then s.tellAbove 2 [r.reported.foldl (fun a x => a + x.2) 0] else s
  | .confirmed t => if r.members.all fun d => r.confirmed.contains (d, t) then s.tellAbove 3 [t] else s
  | .checked t => s.tellAbove 5 [t]
  | .overflow t b c => s.tellAbove 15 [t, b, c]
  | .nan _ _ => s

/-- Whether a message is of the attempt that this lead's ledger has open. -/
def State.ledgerOpen (s : State) (step attempt : Nat) : Bool :=
  s.red.lead && s.red.ledger == 1 && step == s.red.step && attempt == s.red.attempt

/-- Whether this device refuses a ledger message of a device: it was a lead until another took its place, and is not of this
lead's own team, in which it goes on as a device (R372). DEDUCED, log 112. -/
def State.refuses (s : State) (src : Nat) : Bool := s.red.oldLeads.contains src && !(s.red.lead && s.red.team.contains src)

/-- A ledger message that reaches this device: of ledger message kind `kind` with the numbers `args` (R362 to R372). -/
def ledgerRow (kind : Nat) (args : List Nat) (p : Pkt) (act : State → State) (s : State) : Out :=
  msgRow 0x41 (.ledger args) { p with aux := kind } id (fun s => if s.refuses p.src then s else act s) s

/-- What a lead books of a report (R348, R357, R361). -/
def State.book (s : State) (src : Nat) (m : LedgerMsg) : State :=
  match m with
  | .complete n => s.onRed fun r => { r with reported := Tbl.set 0 r.reported src n }
  | .confirmed t => s.onRed fun r => { r with confirmed := r.confirmed.filter (· ≠ (src, t)) ++ [(src, t)] }
  | .checked t => s.onRed fun r => { r with tagsChecked := r.tagsChecked.filter (· ≠ t) ++ [t] }
  | .overflow t b c => s.onRed fun r =>
    { r with ovfBlocks := (r.ovfBlocks.filter fun p => !(p.tag = t && p.block = some b)) ++ [({ tag := t, block := some b, code := c } : Patch)] }
  | .nan t b => s.raise { code := 0x14, payload := [t, b] }

/-- A report as a ledger message: its kind and numbers. -/
def reportNums (m : LedgerMsg) : Nat × List Nat :=
  match m with
  | .complete n => (2, [n])
  | .confirmed t => (3, [t])
  | .checked t => (5, [t])
  | .overflow t b c => (15, [t, b, c])
  | .nan t b => (16, [t, b])

/-- LEDGER_REPORT (R348, R357, R360, R361, R364, R370): a message of another attempt is not counted. A child's count for
its subtree in tree 0 goes on from a node that is no lead, and gives back its control credit (R351, R360). -/
def execLedgerReport (p : Pkt) (step attempt : Nat) (m : LedgerMsg) (s : State) : Out :=
  ledgerRow (reportNums m).1 ([p.src, step, attempt] ++ (reportNums m).2) p (fun s =>
    let child := (match m with | .complete _ => true | _ => false) && (s.treeAt 0).2.contains p.src &&
      !s.red.subLeads.contains p.src
    let s := if !child then s
      else if s.red.lead then s.send (.credit p.src 0 true)
      else match m with
        | .complete n => State.send (State.passCount
            { s with red := { s.red with subDone := Tbl.set (0, 0, 0) s.red.subDone p.src (step, attempt, n) } })
            (.credit p.src 0 true)
        | _ => s
    if s.ledgerOpen step attempt then ((s.book p.src m).passUp m).checkCommit else s) s

/-- LEDGER_REPEAT_REQUEST (R343, R344, R363). -/
def execLedgerRepeatRequest (p : Pkt) (step attempt cause : Nat) (s : State) : Out :=
  ledgerRow 1 [p.src, step, attempt, cause] p (fun s => if s.ledgerOpen step attempt then s.causeAt cause else s) s

/-- RESULT_BAD (R356, R363). -/
def execResultBad (p : Pkt) (step attempt tag : Nat) (s : State) : Out :=
  ledgerRow 13 [p.src, step, attempt, tag] p (fun s => if s.ledgerOpen step attempt then s.causeAt 7 else s) s

/-! ### Orders reaching a device -/

/-- Whether an order comes from the lead above this lead, which passes it to its own team (R370). -/
def State.fromAbove (s : State) (src : Nat) : Bool :=
  s.red.lead && s.red.leadAbove == some src && src ≠ s.fab.device

/-- COMMIT (R252, R365, R370, R372, R861): a lower lead that already holds the order discards the duplicate. -/
def execCommit (p : Pkt) (step : Nat) (s : State) : Out :=
  ledgerRow 6 [step] p (fun s =>
    if !s.fromAbove p.src then s.commitLocal step
    else if step ≠ s.red.step then s.report 0 7 0x280 0 0 step
    else if s.red.deciding.isSome then s
    else s.leadDecide { commit := true, step := step }) s

/-- REPEAT_ORDER (R255, R348, R365, R366, R370, R372, R861): a lower lead that already holds the order discards the
duplicate. -/
def execRepeatOrder (p : Pkt) (step attempt cause : Nat) (patches : List Patch) (s : State) : Out :=
  let o : Order := { commit := false, step, attempt, cause, patches }
  ledgerRow 7 (orderNums o) p (fun s =>
    if !s.fromAbove p.src then s.repeatLocal step attempt cause patches
    else if step ≠ s.red.step || attempt ≤ s.red.attempt then s.report 0 7 0x281 0 0 (step + 2 ^ 64 * attempt)
    else if s.red.deciding.isSome then s
    else s.leadDecide o) s

/-! ### Beats (R362) -/

/-- Devices of a child's subtree that are live, and its size: none live once its last beat is older than BEAT_TIMEOUT. A
child that has never beaten counts as one device (DESIGN CHOICE, log 20). -/
def State.beatOf (s : State) (child : Nat) : Nat × Nat :=
  let b := Tbl.get (0, 1, 0) s.red.beats child
  (if s.now - b.2.2 ≤ 1000000 * s.red.beatTimeout then b.1 else 0, b.2.1)

/-- Keeps, for each child, since when its subtree has reported fewer live devices than its size. -/
def State.watchBeats (s : State) : State :=
  s.onRed fun r => { r with lateSince := (s.treeAt 0).2.foldl (fun (t : Tbl Nat) c =>
    let since := Tbl.get 0 r.lateSince c
    Tbl.set 0 t c (if (s.beatOf c).2 ≤ (s.beatOf c).1 then 0 else if since = 0 then s.now + 1 else since)) [] }

/-- BEAT_TIMER (R351, R362): ledger message 4 to the parent in tree 0. -/
def execBeatTimer (s : State) : Out :=
  let s := s.watchBeats
  let bs := (s.treeAt 0).2.map s.beatOf
  let live := bs.foldl (fun a b => a + b.1) (b2n (s.hal.job = 2))
  let size := bs.foldl (fun a b => a + b.2) 1
  .next (s.sayUp 0 0x41 4 (.ledger [s.fab.device, live, size]) false)

/-- LEDGER_BEAT (R351, R362): the child gets its control credit back. -/
def execLedgerBeat (p : Pkt) (live size : Nat) (s : State) : Out :=
  msgRow 0x41 (.ledger [p.src, live, size]) { p with aux := 4 } id (fun s =>
    ((s.onRed fun r => { r with beats := Tbl.set (0, 1, 0) r.beats p.src (live, size, s.now) }).watchBeats).send
      (.credit p.src 0 true)) s

/-- An attempt is late (R362): the lead repeats it; a root of tree 0 that is no lead tells its lead. -/
def State.late (s : State) : State :=
  if s.red.lead then s.causeAt 1 else s.raiseCause 1

/-- BEAT_TIMEOUT (R362, R363): one child's subtree has been short for longer than that. -/
def execBeatTimeout (s : State) : Out :=
  if s.red.lateSince.any (fun x => x.2 ≠ 0 && 1000000 * s.red.beatTimeout < s.now + 1 - x.2) && (s.treeAt 0).1.isNone then
    .next s.late
  else .next s

/-- HARD_LIMIT_EXPIRY (R362, R686). -/
def execHardLimitExpiry (s : State) : Out :=
  if s.red.lead && s.red.ledger = 1 && 1000000000 * s.red.hardLimit < s.now - s.red.openedAt then .next (s.causeAt 1)
  else .next s

/-! ### The standby (R371 to R373) -/

/-- STANDBY_DECISION (R371): held and acknowledged with ledger message 10. -/
def execStandbyDecision (p : Pkt) (o : Order) (s : State) : Out :=
  ledgerRow 9 (orderNums o) p (fun s =>
    if !s.red.standby then s
    else (s.onRed fun r => { r with heldDecision := some o }).say p.src 0x41 10 (.ledger (orderNums o)) [] false) s

/-- STANDBY_ACK (R364 to R366, R371): the order goes to the team once the standby named now has acknowledged that very
decision. -/
def execStandbyAck (p : Pkt) (o : Order) (s : State) : Out :=
  ledgerRow 10 (orderNums o) p (fun s =>
    if s.red.deciding = some o && s.red.standbyDev = some p.src then s.issue o else s) s

/-- HEARTBEAT_TIMER (R371): ledger message 8. -/
def execHeartbeatTimer (s : State) : Out :=
  match s.red.standbyDev with
  | some b => if s.red.lead then .next (s.say b 0x41 8 (.ledger []) [] false) else .next s
  | none => .next s

/-- HEARTBEAT (R371). -/
def execHeartbeat (p : Pkt) (s : State) : Out :=
  ledgerRow 8 [] p (fun s =>
    if s.red.standby && p.src = s.red.leadDev then s.onRed fun r => { r with lastHeart := s.now, silent := false }
    else s) s

/-- The ledger's state on a lead that takes over (R364, R372): FAILED where the top lead has said so. -/
def State.inherited (s : State) : Nat := if s.hal.job < 2 then 0 else if s.red.ledger = 5 then 5 else 1

/-- A standby takes over (R372): it announces itself (ledger message 11), sends the decision that it holds again, and
repeats the attempt that was undecided. A decision on the attempt in progress has decided it (DEDUCED, log 21). The
repeats of the step so far are taken from the attempt number. -/
def State.takeover (s : State) : State :=
  let old := s.red.leadDev
  let me := s.fab.device
  let s := s.onRed fun r => { r with lead := true, standby := false, standbyDev := none, leadDev := me
                                     oldLeads := r.oldLeads.filter (· ≠ me) ++ [old], silent := false }
  let s := (s.red.members.filter (· ≠ me)).foldl (fun s d => s.say d 0x41 11 (.ledger [me, old]) [] false) s
  let s := match s.red.leadAbove with | some a => s.say a 0x41 11 (.ledger [me, old]) [] false | none => s
  let s := s.raise { code := 0x16, payload := [old, me] }
  let s := s.openLedger s.inherited s.stepNo s.step.attempt s.step.attempt
  match s.red.heldDecision with
  | some o =>
    let mine := o.step == s.stepNo && (o.commit || o.attempt == s.step.attempt + 1)
    if mine then (s.onRed fun r => { r with repeatsRow := s.step.attempt }).issue o
    else
      let s := s.toMembers (if o.commit then 6 else 7) (if o.commit then [o.step] else (orderNums o))
      s.causeAt 9
  | none => s.causeAt 9

/-- STANDBY_TAKEOVER (R372, R373): 5 ms after the last heartbeat; in host-assisted mode the host is asked, once for each
silence. -/
def execStandbyTakeover (s : State) : Out :=
  if !s.red.standby || s.now < s.red.lastHeart + 5000000 then .next s
  else if !s.assisted 6 then .next s.takeover
  else if s.red.silent then .next s
  else
    let s := s.onRed fun r => { r with silent := true }
    .next (s.request (.lead s.red.leadDev) 0x86 [s.red.leadDev, s.now - s.red.lastHeart])

/-- LEAD_ANNOUNCE (R372): the old lead's messages are refused from now on. -/
def execLeadAnnounce (p : Pkt) (old : Nat) (s : State) : Out :=
  ledgerRow 11 [p.src, old] p (fun s => s.onRed fun r =>
    { r with
      leadDev := if r.leadDev = old then p.src else r.leadDev
      leadAbove := if r.leadAbove = some old then some p.src else r.leadAbove
      subLeads := r.subLeads.map fun d => if d = old then p.src else d
      oldLeads := (r.oldLeads.filter fun d => d ≠ p.src && d ≠ old) ++ [old]
      lead := r.lead && s.fab.device ≠ old }) s

end Sys2Proof.Machine
end

