-- ==== Sys2Proof/Machine/Crypto.lean ====
section
/-! DEFINITION. SHA-256, HMAC-SHA-256 and HKDF-SHA-256, which R571, R782, R785, R788 and R789 name. The functions are
the published standards' (PRESUMED, log 8). -/

namespace Sys2Proof.Machine

/-- The round constants of SHA-256. -/
def shaK : List Nat :=
   [0x428a2f98, 0x71374491, 0xb5c0fbcf, 0xe9b5dba5, 0x3956c25b, 0x59f111f1, 0x923f82a4, 0xab1c5ed5] ++
   [0xd807aa98, 0x12835b01, 0x243185be, 0x550c7dc3, 0x72be5d74, 0x80deb1fe, 0x9bdc06a7, 0xc19bf174] ++
   [0xe49b69c1, 0xefbe4786, 0x0fc19dc6, 0x240ca1cc, 0x2de92c6f, 0x4a7484aa, 0x5cb0a9dc, 0x76f988da] ++
   [0x983e5152, 0xa831c66d, 0xb00327c8, 0xbf597fc7, 0xc6e00bf3, 0xd5a79147, 0x06ca6351, 0x14292967] ++
   [0x27b70a85, 0x2e1b2138, 0x4d2c6dfc, 0x53380d13, 0x650a7354, 0x766a0abb, 0x81c2c92e, 0x92722c85] ++
   [0xa2bfe8a1, 0xa81a664b, 0xc24b8b70, 0xc76c51a3, 0xd192e819, 0xd6990624, 0xf40e3585, 0x106aa070] ++
   [0x19a4c116, 0x1e376c08, 0x2748774c, 0x34b0bcb5, 0x391c0cb3, 0x4ed8aa4a, 0x5b9cca4f, 0x682e6ff3] ++
   [0x748f82ee, 0x78a5636f, 0x84c87814, 0x8cc70208, 0x90befffa, 0xa4506ceb, 0xbef9a3f7, 0xc67178f2]

/-- The initial hash value of SHA-256. -/
def shaInit : List Nat :=
   [0x6a09e667, 0xbb67ae85, 0x3c6ef372, 0xa54ff53a, 0x510e527f, 0x9b05688c, 0x1f83d9ab, 0x5be0cd19]

/-- Rotation right of a 32-bit word. -/
def rotr32 (x n : Nat) : Nat := (x >>> n) ||| ((x <<< (32 - n)) % 2 ^ 32)

/-- The message schedule, most recent word first. -/
def shaSchedule : Nat → List Nat → List Nat
  | 0, w => w
  | n + 1, w =>
    let a := nth w 14 0
    let b := nth w 1 0
    let s0 := rotr32 a 7 ^^^ rotr32 a 18 ^^^ (a >>> 3)
    let s1 := rotr32 b 17 ^^^ rotr32 b 19 ^^^ (b >>> 10)
    shaSchedule n (((nth w 15 0 + s0 + nth w 6 0 + s1) % 2 ^ 32) :: w)

/-- One round of the compression. -/
def shaRound (h : List Nat) (kw : Nat) : List Nat :=
  match h with
  | [a, b, c, d, e, f, g, hh] =>
    let s1 := rotr32 e 6 ^^^ rotr32 e 11 ^^^ rotr32 e 25
    let ch := (e &&& f) ^^^ ((0xFFFFFFFF ^^^ e) &&& g)
    let t1 := hh + s1 + ch + kw
    let s0 := rotr32 a 2 ^^^ rotr32 a 13 ^^^ rotr32 a 22
    let t2 := s0 + ((a &&& b) ^^^ (a &&& c) ^^^ (b &&& c))
    [(t1 + t2) % 2 ^ 32, a, b, c, (d + t1) % 2 ^ 32, e, f, g]
  | h => h

/-- One block of 64 bytes. -/
def shaBlock (h : List Nat) (b : Bytes) : List Nat :=
  let w0 := (List.range 16).map fun i => fromBytesBE (slice b (4 * i) 4)
  let w := (shaSchedule 48 w0.reverse).reverse
  let r := (List.zipWith (fun k x => (k + x) % 2 ^ 32) shaK w).foldl shaRound h
  List.zipWith (fun x y => (x + y) % 2 ^ 32) h r

/-- The blocks of a padded message. -/
def shaBlocks : Nat → List Nat → Bytes → List Nat
  | 0, h, _ => h
  | n + 1, h, b => shaBlocks n (shaBlock h (b.take 64)) (b.drop 64)

/-- SHA-256 of a message. -/
def sha256 (m : Bytes) : Bytes :=
  let z := (55 + 64 - m.length % 64) % 64
  let p := m ++ [0x80] ++ List.replicate z 0 ++ toBytesBE 8 (8 * m.length)
  (shaBlocks (p.length / 64) shaInit p).flatMap fun w => toBytesBE 4 w

/-- HMAC-SHA-256. -/
def hmac (key m : Bytes) : Bytes :=
  let k := slice (if 64 < key.length then sha256 key else key) 0 64
  sha256 (k.map (· ^^^ 0x5C) ++ sha256 (k.map (· ^^^ 0x36) ++ m))

/-- The expansion blocks of HKDF. -/
def hkdfBlocks (prk info : Bytes) : Nat → Nat → Bytes → Bytes
  | 0, _, _ => []
  | n + 1, i, t => let t' := hmac prk (t ++ info ++ [BitVec.ofNat 8 i]); t' ++ hkdfBlocks prk info n (i + 1) t'

/-- HKDF-SHA-256: `n` bytes from input key material, salt and info. -/
def hkdf (ikm salt info : Bytes) (n : Nat) : Bytes :=
  (hkdfBlocks (hmac (if salt.isEmpty then List.replicate 32 0 else salt) ikm) info (ceilDiv n 32) 1 []).take n

/-- The bytes of an ASCII string. -/
def ascii (s : String) : Bytes := s.toList.map fun c => BitVec.ofNat 8 c.toNat

end Sys2Proof.Machine
end

