-- ==== Sys2Proof/Machine/Session.lean ====
section
/-! DEFINITION. Halter's sessions: the exchange that opens one (R566, R568, R569, R786 to R793), its commands' acceptance
(R567, R572 to R577, R588), its events (R598 to R602) and its close (R570); the error log's ring (R737, R741, R742) and
the trace pins (R843). -/

namespace Sys2Proof.Machine

/-- Changes Halter's state. -/
def State.onHal (s : State) (f : Halter → Halter) : State := { s with hal := f s.hal }

/-- Changes the start's state. -/
def State.onBoot (s : State) (f : Boot → Boot) : State := { s with boot := f s.boot }

/-- Counts a discarded message (R572). -/
def State.authFail (s : State) : State := s.onHal fun h => { h with authFails := satAdd 16 h.authFails 1 }

/-! ### PUSH draining (R742) -/

/-- A record to put into a LOG event: one that none has carried. -/
def ErrLog.uncarried (e : ErrLog) : List ErrRec := e.ring.filter fun r => !r.carried

/-- The CONTROL session. -/
def State.controlSession (s : State) : Option Session := s.hal.sessions.find? (·.control)

/-- Queues LOG events while the mode is PUSH, a CONTROL session has a general entry free, and records are left (R598,
R601, R742). -/
def State.pushLogN : Nat → State → State
  | 0, s => s
  | n + 1, s =>
    match s.controlSession with
    | none => s
    | some x =>
      let rs := s.err.uncarried.take (x.msgMax / 64)
      if s.hal.pull || rs.isEmpty || 960 ≤ x.used false then s
      else
        let seqs := rs.map fun (r : ErrRec) => r.seq
        let mark (r : ErrRec) : ErrRec :=
          if seqs.contains r.seq then { r with delivered := true, carried := true } else r
        let s := { s with err := { s.err with ring := s.err.ring.map mark } }
        let q := x.push { code := 4, recs := rs } s.now false
        let s := s.onSession x.num fun _ => q.1
        State.pushLogN n (s.sendMsg q.2)

/-- PUSH draining to its end. -/
def State.pushLog (s : State) : State := s.pushLogN (s.err.ring.length + 1)

/-! ### The ring (R737 to R742) -/

/-- The ring with a record more (R741): none where it has no room. The second part says whether a record was lost. -/
def ErrLog.ringPut (e : ErrLog) (r : ErrRec) : Option (List ErrRec × Bool) :=
  let drop (p : ErrRec → Bool) : Option (List ErrRec) :=
    match e.ring.findIdx? p with
    | some i => some (e.ring.take i ++ e.ring.drop (i + 1))
    | none => none
  if e.ring.length < 4096 then some (e.ring ++ [r], false)
  else match drop (·.delivered) with
    | some l => some (l ++ [r], false)
    | none => if r.cls = 5 then (drop fun q => q.cls ≠ 5).map fun l => (l ++ [r], true) else none

/-- Held FATAL reports enter the queue as entries free (R740). -/
def ErrLog.unhold (e : ErrLog) : ErrLog :=
  match e.held with
  | [] => e
  | r :: t =>
    if e.used false < 48 then ErrLog.enqueue { e with held := t } r false
    else if e.used true < 16 then ErrLog.enqueue { e with held := t } r true
    else e

/-- Whether TRACE owns GP4 to GP7. -/
def State.traceOn (s : State) : Bool := (nth s.hal.res 4 {}).owner == 0x11

/-- LOG_MOVE (R737, R740, R741, R742, R843): the oldest queued record that the ring can take. A FATAL record is written
to flash too, with bit FLASH set. DESIGN CHOICE, log 57. -/
def execLogMove (s : State) : Out :=
  let early := match s.err.movedAt with | some t => decide (s.now < t + 100) | none => false
  match s.err.queue.find? fun r => (s.err.ringPut r).isSome with
  | none => .next s
  | some r =>
    if early then .next s
    else
      let rec_ : ErrRec := { r with seq := s.err.nextSeq, flags := if r.cls = 5 then r.flags ||| 2 else r.flags }
      match s.err.ringPut rec_ with
      | none => .next s
      | some (ring, lost) =>
        let e := s.err
        let tr := s.traceOn && e.trace.length < 4
        let e := { e with
          queue := e.queue.erase r, ring := ring, nextSeq := e.nextSeq + 1, written := satAdd 32 e.written 1
          lost := if lost then satAdd 32 e.lost 1 else e.lost, movedAt := some s.now
          trace := if tr then e.trace ++ [rec_] else e.trace
          traceAt := if tr && e.trace.isEmpty then s.now else e.traceAt }
        let f := s.flash
        let s := { s with
          err := e.unhold
          flash := if r.cls = 5 then { f with fatal := (f.fatal ++ [rec_]).drop (f.fatal.length + 1 - 256) } else f }
        .next s.pushLog

/-- TRACE_RECORD_SENT (R843): 260 clocks of 50 MHz after it began. -/
def execTraceRecordSent (s : State) : Out :=
  match s.err.trace with
  | [] => .next s
  | r :: t =>
    if s.now < s.err.traceAt + 5200 then .next s
    else .next (State.send { s with err := { s.err with trace := t, traceAt := s.now } } (.trace r))

/-- An error record's 64 bytes (R734). -/
def recBytes (r : ErrRec) : Bytes :=
  let b := toBytes 8 r.first ++ toBytes 8 r.last ++ toBytes 4 r.count ++
    [BitVec.ofNat 8 r.cls, BitVec.ofNat 8 r.unit] ++ toBytes 2 r.code ++ toBytes 4 r.inst ++ toBytes 2 r.step ++
    [BitVec.ofNat 8 r.attempt, BitVec.ofNat 8 r.flags] ++ toBytes 8 r.addr ++ toBytes 16 r.detail ++ toBytes 4 r.seq
  b ++ toBytes 4 (crc32c b)

/-! ### Accepting a command (R567, R572 to R577, R588) -/

/-- The pending form of a command. -/
def hdrCmd (h : Hdr) (code : Nat) (now : Nat) : PendCmd :=
  { session := h.session, seq := h.seq, code := code, arrived := now, port := h.port, addr := h.addr }

/-- A valid message of session n (R532, R562, R570): replies and events now go where it came from. -/
def State.heardFrom (s : State) (h : Hdr) : State :=
  (s.rxCount h.port h.len).onSession h.session fun x => { x with lastMsg := s.now, port := h.port, addr := h.addr }

/-- A reply that is not kept (R573). -/
def State.reject (s : State) (h : Hdr) (code status : Nat) (payload : Bytes := []) : State :=
  s.sendMsg (.reply h.port h.addr h.session h.seq code status s.now payload)

/-- The commands that a mailbox holds (R577). -/
def State.mailboxUsed (s : State) (m : Nat) : Nat := (s.hal.cmds.filter fun c => c.code / 256 == m).length

/-- Bits of the job states in which a command is accepted (R588). -/
def inNone : Nat := 1
/-- LOADED. -/
def inLoaded : Nat := 2
/-- RUNNING. -/
def inRunning : Nat := 4
/-- HALTED. -/
def inHalted : Nat := 8
/-- Every job state. -/
def anyJob : Nat := 15

/-- Takes a command with its header (R567, R572, R573, R576, R577, R588): one of a session that is not open is
discarded; a kept reply is sent again; refusals in this order: REPLAYED, INVALID for the mailbox, BUSY, DENIED, STATE.
`run` carries out an accepted command. DESIGN CHOICE, log 54. -/
def State.command (s : State) (h : Hdr) (code modes : Nat) (observe : Bool) (run : PendCmd → State → State) : State :=
  match s.session h.session with
  | none => (s.rxCount h.port h.len).authFail
  | some x =>
    let s := s.heardFrom h
    match x.replies.find? fun r => r.seq == h.seq with
    | some r => s.reject h r.code r.status r.payload
    | none =>
      if h.seq + 1024 ≤ x.high then s.reject h code 9
      else if h.mailbox = code / 256 && 64 ≤ s.mailboxUsed (code / 256) then
        let d := s.draw 32
        d.2.reject h code 5 (toBytes 4 (1 + d.1 % 1000000))
      else
        let s := s.onSession h.session fun x => { x with high := max x.high h.seq }
        let c := hdrCmd h code s.now
        if h.mailbox ≠ code / 256 then s.answer c 2
        else if !observe && !x.control then s.answer c 8
        else if !bit modes s.hal.job then s.answer c 7
        else run c s

/-- A command stays pending (R574): its PENDING reply, and its place in the mailbox. -/
def State.pend (s : State) (c : PendCmd) : State := (s.onHal fun h => { h with cmds := h.cmds ++ [c] }).answer c 1

/-! ### Events of a session (R599 to R602) -/

/-- Entries have freed (R601, R602, R742): EVENTS_LOST first, then the events that waited, then records. -/
def State.refillN : Nat → State → Nat → State
  | 0, s, _ => s
  | f + 1, s, n =>
    match s.session n with
    | none => s
    | some x =>
      if 0 < x.lost && x.used false < 960 then
        let q := Session.push { x with lost := 0 } { code := 1, payload := [x.lost] } s.now false
        State.refillN f ((s.onSession n fun _ => q.1).sendMsg q.2) n
      else match x.waiting with
        | [] => s
        | e :: t =>
          if x.used false < 960 || x.used true < 64 then
            let q := Session.push { x with waiting := t } e s.now (!(x.used false < 960 : Bool))
            State.refillN f ((s.onSession n fun _ => q.1).sendMsg q.2) n
          else s

/-- Entries of session n's queue have freed. -/
def State.refill (s : State) (n : Nat) : State :=
  match s.session n with
  | some x => (s.refillN (x.waiting.length + 1) n).pushLog
  | none => s

/-- EVENT_ACK (R570, R572, R599 to R602, R742): a record that an acknowledged LOG event carried is freed. -/
def execEventAck (h : Hdr) (s : State) : Out :=
  match s.session h.session with
  | none => .next (s.rxCount h.port h.len).authFail
  | some x =>
    let s := s.heardFrom h
    let done := x.events.filter fun e => e.num ≤ h.seq
    let seqs := done.flatMap fun e => e.ev.recs.map (·.seq)
    let s := s.onSession h.session fun x => { x with events := x.events.filter fun e => h.seq < e.num }
    .next (State.refill { s with err := { s.err with ring := s.err.ring.filter fun r => !seqs.contains r.seq } } h.session)

/-- EVENT_RETRANSMIT (R599, R742): after its wait, which doubles up to 1 s. -/
def execEventRetransmit (session num : Nat) (s : State) : Out :=
  match s.session session with
  | none => .next s
  | some x =>
    match x.events.find? fun e => e.num == num with
    | none => .next s
    | some e =>
      if s.now < e.sentAt + e.wait then .next s
      else
        let s := s.onSession session fun x => { x with events := x.events.map fun q =>
          if q.num = num then { q with sentAt := s.now, wait := min 1000000000 (2 * q.wait) } else q }
        .next (s.sendMsg (.event x.port x.addr x.num num e.ev true))

/-- A session closes (R570): the FATAL and DECISION events of a CONTROL session are kept for the next one. -/
def State.closeSession (s : State) (n : Nat) : State :=
  match s.session n with
  | none => s
  | some x =>
    let keep := if x.control then ((x.events.map (·.ev)).filter fun e => evClass e.code ≤ 1) ++ x.waiting else []
    s.onHal fun h => { h with sessions := h.sessions.filter (·.num ≠ n), heldEvents := h.heldEvents ++ keep }

/-- SESSION_IDLE (R570, R587). -/
def execSessionIdle (session : Nat) (s : State) : Out :=
  match s.session session with
  | some x => if s.now < x.lastMsg + 1000000000 * s.hal.idleS then .next s else .next (s.closeSession session)
  | none => .next s

/-! ### The exchange (R786 to R793) -/

/-- MSG_MAX of a session that opens now (R569). -/
def State.msgMax (s : State) : Nat :=
  let m := min (s.port 0).cfg.mtu (s.port 1).cfg.mtu
  if 8310 ≤ m then 8192 else (m - 118) / 64 * 64

/-- Changes an exchange. -/
def State.onExchange (s : State) (n : Nat) (f : Exchange → Exchange) : State :=
  s.onBoot fun b => { b with exchanges := b.exchanges.map fun x => if x.num = n then f x else x }

/-- A fragment of the body of an exchange's step, behind its header (R787). -/
def openFrag (step flags i n : Nat) (body : Bytes) : Bytes :=
  [BitVec.ofNat 8 step, BitVec.ofNat 8 flags] ++ toBytes 2 i ++ toBytes 2 n ++ [0, 0] ++ (body.drop (1336 * i)).take 1336

/-- Sends a step of an exchange, 2 OFFER or 4 FINISH, in its fragments (R787). -/
def State.sendOpen (s : State) (port addr exch step flags : Nat) (body : Bytes) : State :=
  let n := ceilDiv body.length 1336
  (List.range n).foldl (fun (s : State) i =>
    s.sendMsg (.openMsg port addr exch step flags (openFrag step flags i n body))) s

/-- Bytes of the frame of a message that opens a session (R529, R562, R787): a host's step is one fragment. -/
def openLen (addr : Nat) (body : Bytes) : Nat := udpFrame (addr % 2 = 1) (56 + body.length)

/-- HELLO (R568, R569, R777, R786, R788, R793): before READY no session message is accepted. A body of another length,
or a reserved flag, has no effect. DEDUCED, log 79. -/
def execHello (port addr exch flags : Nat) (body : List Byte) (s : State) : Out :=
  let s := s.rxCount port (openLen addr body)
  if s.boot.stage ≠ .ready || body.length ≠ 1216 || exch = 0 || 4 ≤ flags || 2 ≤ port then .next s
  else match s.boot.exchanges.find? fun x => x.num == exch with
  | some x =>
    .next (if x.offered.isSome then
      (s.onExchange exch fun x => { x with port := port, addr := addr }).sendOpen port addr exch 2 flags x.offer
      else s)
  | none =>
    if 2 ≤ s.boot.exchanges.length then .next (s.sendOpen port addr exch 4 flags ([5, 0, 0, 0] ++ toBytes 4 1000000))
    else
      let d := s.draws 8 32
      let r := Config.encaps (body.drop 32) d.2.freeIx
      let s := { d.2 with freeIx := d.2.freeIx + 1 }
      let n := s.hal.nextSession
      let offer := d.1.map (BitVec.ofNat 8) ++ toBytes 4 n ++ toBytes 2 s.msgMax ++ [0, 0] ++ slice r.1 0 1088 ++
        slice Config.serial 0 16 ++ slice Config.idPub 0 48 ++ slice Config.idCert 0 16224
      let x : Exchange := { num := exch, flags := flags, hello := body, offer := offer, session := n
                            msgMax := s.msgMax, ss := slice r.2 0 32, port := port, addr := addr }
      .next ((s.onHal fun h => { h with nextSession := n + 1 }).onBoot fun b =>
        { b with exchanges := b.exchanges ++ [x], signing := b.signing ++ [(0, exch)] })

/-- OFFER_SIGNED (R786, R788): the security block makes one signature at a time, in order of request. -/
def execOfferSigned (s : State) : Out :=
  match s.boot.signing with
  | (0, n) :: t =>
    let s := s.onBoot fun b => { b with signing := t }
    match s.boot.exchanges.find? fun x => x.num == n with
    | none => .next s
    | some x =>
      let sig := slice (Config.idSign (sha256 (x.hello ++ x.offer))) 0 16224
      let s := s.onExchange n fun x => { x with offer := x.offer ++ sig, offered := some s.now }
      .next (s.sendOpen x.port x.addr n 2 x.flags (x.offer ++ sig))
  | _ => .next s

/-- A session's keys (R789): H2D, D2H, CONFIRM and CLAIM. -/
def Exchange.keys (x : Exchange) : Bytes × Bytes × Bytes × Bytes :=
  let salt := x.hello.take 32 ++ x.offer.take 32
  let k (info : String) (n : Nat) : Bytes := hkdf x.ss salt (ascii info) n
  (k "halter h2d" 32, k "halter d2h" 32, k "halter confirm" 32, k "halter claim" 64)

/-- The events held for a CONTROL session go to it, in the order of their causes (R598, R602). -/
def State.deliverHeld (s : State) (n : Nat) : State :=
  match s.session n with
  | none => s
  | some x =>
    let r := s.hal.heldEvents.foldl (fun (a : Session × List Sent) e =>
      let q := a.1.queue e s.now
      (q.1, a.2 ++ q.2.1)) (x, [])
    let s := s.onHal fun h => { h with heldEvents := [] }
    r.2.foldl State.sendMsg (s.onSession n fun _ => r.1)

/-- A session opens (R566, R570, R789). -/
def State.openSession (s : State) (x : Exchange) (control : Bool) (port addr : Nat) : State :=
  let slot := ((List.range 4).find? fun k => !(s.hal.sessions.any fun y => y.slot == k)).getD 0
  let k := x.keys
  let n : Session := { num := x.session, slot := slot, control := control, h2d := k.1, d2h := k.2.1, msgMax := x.msgMax
                       port := port, addr := addr, lastMsg := s.now, udp := s.hal.port }
  let s := s.onHal fun h => { h with sessions := h.sessions ++ [n] }
  if control then (s.deliverHeld x.session).pushLog else s

/-- The status of a FINISH (R791). -/
def State.finishStatus (s : State) (control claim : Bool) (macOk proofOk proofZero : Bool) : Nat :=
  if !macOk || (!claim && (!proofOk || s.flash.owner.isNone)) then 8
  else if claim && !proofZero then 2
  else if claim && s.boot.bootSel ≠ 2 then 7
  else if 4 ≤ s.hal.sessions.length || (control && s.controlOpen) then 3
  else 0

/-- CONFIRM (R566, R568, R570, R598, R788, R789, R791 to R793): the role and CLAIM are those of its own FLAGS. DEDUCED,
log 56. -/
def execConfirm (port addr exch flags : Nat) (body : List Byte) (s : State) : Out :=
  let s := s.rxCount port (openLen addr body)
  let claim := bit flags 1
  let control := bit flags 0
  match s.boot.exchanges.find? fun x => x.num == exch && x.offered.isSome with
  | none => .next s
  | some x =>
    if 4 ≤ flags || body.length ≠ (if claim then 128 else 64) then .next s
    else
      let k := x.keys
      let th2 := sha256 (x.hello ++ x.offer)
      let proof := slice body 32 32
      let owner := match s.flash.owner with | some o => if control then o.1 else o.2 | none => []
      let st := s.finishStatus control claim (body.take 32 == hmac k.2.2.1 th2) (proof == hmac owner th2)
        (proof.all (· == 0))
      let s := s.onBoot fun b => { b with exchanges := b.exchanges.filter (·.num ≠ exch) }
      if st ≠ 0 then .next (s.authFail.sendOpen port addr exch 4 flags ([BitVec.ofNat 8 st, 0, 0, 0] ++ List.replicate 32 0))
      else
        let s := if claim then
            let un (i : Nat) : Bytes := List.zipWith (· ^^^ ·) (slice body (64 + i) 32) (slice k.2.2.2 i 32)
            State.raiseHeld { s with flash := { s.flash with owner := some (un 0, un 32) } }
              { code := 0x94, payload := [fromBytes (sha256 (un 0 ++ un 32))] }
          else s
        .next ((s.sendOpen port addr exch 4 flags ([0, 0, 0, 0] ++ hmac k.2.2.1 (th2 ++ [1]))).openSession x control port addr)

/-- EXCHANGE_TIMEOUT (R793): 5 s after its OFFER. -/
def execExchangeTimeout (exch : Nat) (s : State) : Out :=
  let late (x : Exchange) : Bool := x.num == exch && match x.offered with
    | some t => t + 5000000000 ≤ s.now | none => false
  .next (s.onBoot fun b => { b with exchanges := b.exchanges.filter fun x => !late x })

/-! ### Commands of a session -/

/-- HALTER_MESSAGE_DISCARD (R562, R572). -/
def execHalterMessageDiscard (port len : Nat) (s : State) : Out := .next (s.rxCount port len).authFail

/-- NOP (R588). -/
def execNop (h : Hdr) (s : State) : Out := .next (s.command h 1 anyJob true fun c s => s.answer c 0)

/-- SESSION_CLOSE (R570, R588). -/
def execSessionClose (h : Hdr) (s : State) : Out :=
  .next (s.command h 2 anyJob true fun c s => (s.answer c 0).closeSession h.session)

/-- EVENT_SUBSCRIBE (R588, R598). -/
def execEventSubscribe (h : Hdr) (warning info : Bool) (s : State) : Out :=
  .next (s.command h 3 anyJob true fun c s =>
    (s.onSession h.session fun x => { x with warn := warning, info := info }).answer c 0)

/-- The codes of the command table (R588). -/
def knownCode (c : Nat) : Bool :=
  (1 ≤ c && c ≤ 0x16) || (0x101 ≤ c && c ≤ 0x111) || (0x201 ≤ c && c ≤ 0x208) || (0x301 ≤ c && c ≤ 0x309)

/-- HALTER_UNKNOWN_CODE (R576, R588, R589): a code of the table is no matter of this row. -/
def execHalterUnknownCode (h : Hdr) (code : BitVec 16) (s : State) : Out :=
  if knownCode code.toNat then .next s
  else .next (s.command h code.toNat anyJob true fun c s => s.answer c 0xA)

/-! ### Draining (R597, R742) -/

/-- LOG_DRAIN_REQUEST (R591, R597). -/
def execLogDrainRequest (s : State) : Out :=
  let n := s.err.ring.length
  let open_ := s.hal.decisions.any fun d => d.req.func == 5
  if !s.hal.pull || n ≤ 3072 || s.now < s.err.lastRead + 1000000000 || open_ then .next s
  else .next (s.request .logDrain 0x85 [n])

/-- A sequence-number payload (R742): none where it is malformed. -/
def seqPay (pay : Bytes) : Option Nat :=
  if pay.length = 8 && field pay 4 4 = 0 then some (field pay 0 4) else none

/-- LOG_READ (R588, R742). -/
def execLogRead (h : Hdr) (pay : List Byte) (s : State) : Out :=
  .next (s.command h 0x201 anyJob true fun c s =>
    match seqPay pay with
    | none => s.answer c 2
    | some n =>
      let m := match s.session h.session with | some x => x.msgMax / 64 | none => 0
      let rs := (s.err.ring.filter fun r => n ≤ r.seq).take m
      let seqs := rs.map fun (r : ErrRec) => r.seq
      let mark (r : ErrRec) : ErrRec := if seqs.contains r.seq then { r with delivered := true } else r
      let s := { s with err := { s.err with lastRead := s.now, ring := s.err.ring.map mark } }
      s.answer c 0 (rs.flatMap recBytes))

/-- LOG_ACK (R588, R742). -/
def execLogAck (h : Hdr) (pay : List Byte) (s : State) : Out :=
  .next (s.command h 0x202 anyJob false fun c s =>
    match seqPay pay with
    | none => s.answer c 2
    | some n => State.answer { s with err := { s.err with ring := s.err.ring.filter fun r =>
        !(r.delivered && r.seq ≤ n) } } c 0)

end Sys2Proof.Machine
end

