-- ==== Sys2Proof/Machine/Decide.lean ====
section
/-! DEFINITION. Hardware mode and host-assisted mode (R590 to R597): the hardware action of a request, deadlines,
MODE_SET and the decisions; the tier commands of R440 and R445; measurement (R782, R783). -/

namespace Sys2Proof.Machine

/-! ### Measurement (R782, R783) -/

/-- Extends a measurement register with a code and a digest. -/
def State.extend (s : State) (i code : Nat) (digest : Bytes) : State :=
  s.onBoot fun b => { b with measure := setAt b.measure i fun m => sha256 (slice m 0 32 ++ toBytes 2 code ++ digest) }

/-! ### The hardware action (R590) -/

/-- A slot that waited for the host is decided (R50, R595, R596, R750 to R752): at once where no step runs or the boundary
waits. -/
def State.slotDecided (s : State) (g k d : Nat) : State :=
  let s := s.onRegion g fun r => { r with failed := r.failed.map fun f => if f.1 = k then (k, d) else f }
  if s.noStep || (s.step.st = 4 && s.step.drained) then s.settleSlots.restart else s

/-- The action that the hardware takes for a request (R590). -/
def State.hardware (s : State) (r : Request) : State :=
  match r with
  | .row m off => s.rowDecision m off 0
  | .channel m => s.failChannel m
  | .tier p _ => if s.candidates.contains p then s.promoteNow p else s
  | .spare g k => s.slotDecided g k 1
  | .split ws => (s.onPwr fun p => { p with hostWeights := none }).allot ws s.pwr.budget
  | .route d _ q => s.takePath d q
  | .logDrain => (s.onHal fun h => { h with pull := false }).pushLog
  | .lead _ => s.takeover

/-- Takes a request off the list of those that wait. -/
def State.dropDecision (s : State) (n : Nat) : State :=
  s.onHal fun h => { h with decisions := h.decisions.filter (·.num ≠ n) }

/-- The deadline of a function in ns (R590); none for functions 1 and 6. -/
def deadlineOf (f : Nat) : Option Nat :=
  match f with
  | 0 => some 100000000 | 2 => some 20000000 | 3 => some 10000000 | 4 => some 5000000 | 5 => some 1000000000 | _ => none

/-- DECISION_DEADLINE (R409, R411, R485, R593, R596, R642, R751): the payload's action is the function's number (log
35). DEDUCED, log 35. -/
def execDecisionDeadline (num : Nat) (s : State) : Out :=
  match s.hal.decisions.find? fun d => d.num == num with
  | none => .next s
  | some d => match deadlineOf d.req.func with
    | none => .next s
    | some t =>
      if s.now < d.created + t then .next s
      else .next (((s.dropDecision num).hardware d.req).raise { code := 3, payload := [num, d.req.func] })

/-- MODE_SET (R588, R590, R594, R595, R782): to hardware mode every pending request of the function is settled at once.
Log draining waits for the host, in PULL, while its mode is host-assisted (DEDUCED, log 36). -/
def execModeSet (h : Hdr) (f : Nat) (assisted : Bool) (s : State) : Out :=
  .next (s.command h 4 anyJob false fun c s =>
    if 7 ≤ f then s.answer c 2
    else
      let prev := bit s.hal.mode f
      let s := s.onHal fun h => { h with
        mode := if assisted then h.mode ||| 2 ^ f else if bit h.mode f then h.mode - 2 ^ f else h.mode
        pull := if f = 5 then assisted else h.pull }
      let s := if assisted then s
        else (s.hal.decisions.filter fun d => d.req.func == f).foldl (fun (s : State) d =>
          (s.dropDecision d.num).hardware d.req) s
      let s := if f = 5 then s.pushLog else s
      (s.extend 7 4 (sha256 [BitVec.ofNat 8 f, BitVec.ofNat 8 (b2n assisted)])).answer c 0 [BitVec.ofNat 8 (b2n prev)])

/-! ### Decisions (R592, R595) -/

/-- The request that a decision command names (R592): none when it is no longer pending or its deadline has passed. -/
def State.named (s : State) (n : Nat) : Option Decision :=
  match s.hal.decisions.find? fun d => d.num == n with
  | some d => match deadlineOf d.req.func with
    | some t => if d.created + t < s.now then none else some d
    | none => some d
  | none => none

/-- Settles a named request: `act` gives the state after an allowed choice, none for any other, which is refused with
INVALID and leaves the request pending (R595). DEDUCED, log 55. -/
def State.settleReq (s : State) (h : Hdr) (c : PendCmd) (act : State → Request → Option State) : State :=
  match s.named h.decision with
  | none => s.answer c 0xB
  | some d => match act (s.dropDecision d.num) d.req with
    | some s' => s'.answer c 0
    | none => s.answer c 2

/-- REPAIR_DECIDE (R409, R411, R592, R595). -/
def execRepairDecide (h : Hdr) (choice : Repair) (s : State) : Out :=
  .next (s.command h 5 anyJob false fun c s => s.settleReq h c fun s r =>
    match r, choice with
    | .row m off, .shadow => some (s.rowDecision m off 0)
    | .row m off, .retire => some (s.rowDecision m off 1)
    | .row _ _, .leave => some s
    | .channel m, .mapOut => some (s.failChannel m)
    | .channel _, .leave => some s
    | _, _ => none)

/-- SPARE_DECIDE (R50, R53, R592, R595, R596, R751, R752). -/
def execSpareDecide (h : Hdr) (unback : Bool) (s : State) : Out :=
  .next (s.command h 7 (anyJob - inNone) false fun c s => s.settleReq h c fun s r =>
    match r with
    | .spare g k => some (s.slotDecided g k (if unback then 2 else 1))
    | _ => none)

/-- SPLIT_DECIDE (R592, R595, R639, R642). -/
def execSplitDecide (h : Hdr) (weights : List (BitVec 8)) (s : State) : Out :=
  .next (s.command h 8 anyJob false fun c s => s.settleReq h c fun s r =>
    match r with
    | .split _ =>
      if weights.length ≠ 16 || weights.all (· == 0) then none
      else
        let ws := weights.map (·.toNat)
        some ((s.onPwr fun p => { p with hostWeights := some ws }).allot ws s.pwr.budget)
    | _ => none)

/-- Moves the traffic to a home to a path that may be selected (R485, R537). -/
def State.routeTo (s : State) (d k : Nat) : Option State :=
  if k < 64 && s.pathOk d k then
    some ((s.onFab fun f => { f with downPaths := f.downPaths.filter (· ≠ (d, k)) }).takePath d k)
  else none

/-- ROUTE_SET (R485, R537, R588, R592, R595): with DECISION 0 an unsolicited path change. -/
def execRouteSet (h : Hdr) (dev path : Nat) (s : State) : Out :=
  .next (s.command h 9 anyJob false fun c s =>
    if h.decision = 0 then
      match s.routeTo dev path with
      | some s' => s'.answer c 0
      | none => s.answer c 2
    else s.settleReq h c fun s r =>
      match r with
      | .route d _ _ => if d = dev then s.routeTo d path else none
      | _ => none)

/-- LEAD_DECIDE (R372, R373, R592, R595): after WAIT the standby asks again once heartbeats have resumed and stopped. -/
def execLeadDecide (h : Hdr) (takeover : Bool) (s : State) : Out :=
  .next (s.command h 0xA (anyJob - inNone) false fun c s => s.settleReq h c fun s r =>
    match r with
    | .lead _ => some (if takeover then s.takeover else s)
    | _ => none)

/-- LOG_DRAIN_DECIDE (R592, R595, R597, R742). -/
def execLogDrainDecide (h : Hdr) (push : Bool) (s : State) : Out :=
  .next (s.command h 0xB anyJob false fun c s => s.settleReq h c fun s r =>
    match r with
    | .logDrain => some ((s.onHal fun h => { h with pull := !push }).pushLog)
    | _ => none)

/-! ### Tier commands (R440, R445) -/

/-- Whether a move may ever succeed: a promotion of a REMOTE page without STAY with a frame or a colder page to free one,
an eviction of a LOCAL page without PIN. -/
def State.movePossible (s : State) (p : Nat) (evict : Bool) : Bool :=
  let e := s.page p
  if evict then e.st = 2 && !e.pin
  else e.st = 1 && !e.stay && (!s.openFrames.isEmpty || (s.victimFor p).isSome)

/-- TIER_MOVE (R434, R438 to R440, R588, R592): a proposal that a newer one has replaced is EXPIRED. -/
def execTierMove (h : Hdr) (page : BitVec 21) (evict : Bool) (s : State) : Out :=
  .next (s.command h 6 (anyJob - inNone) false fun c s =>
    let p := page.toNat
    let go (s : State) : State :=
      let s := s.pend { c with args := [p, b2n evict] }
      if s.movePossible p evict then s.orderedMove p evict else s.finish c 0xC
    if h.decision = 0 then go s
    else match s.named h.decision with
      | none => s.answer c 0xB
      | some d => match d.req with
        | .tier q v => if p = q || (evict && p = v) then go (s.dropDecision d.num) else s.answer c 2
        | _ => s.answer c 2)

/-- TIER_PIN (R427, R440, R588): a page whose entry would break R427 is refused, and none changes. A page that is being
evicted stays in its frame. -/
def execTierPin (h : Hdr) (pages : List (BitVec 21)) (pin : Bool) (s : State) : Out :=
  .next (s.command h 0x10D anyJob false fun c s =>
    let bad (p : BitVec 21) : Bool :=
      let e := s.page p.toNat
      if pin then e.stay else (e.st ≠ 0 && e.home = 0) || e.buddy
    if pages.any bad then s.answer c 2
    else (pages.foldl (fun (s : State) p =>
      (if pin && (s.page p.toNat).st = 4 then s.keepPage p.toNat else s).onPage p.toNat fun e => { e with pin := pin }) s).answer
        c 0)

/-- TIER_FLUSH (R440, R445): the granules of the range that are dirty on arrival. -/
def execTierFlush (h : Hdr) (first count : Nat) (s : State) : Out :=
  .next (s.command h 0x10E (anyJob - inNone) false fun c s =>
    if 2 ^ 21 < first + count then s.answer c 2
    else
      let ps := (s.tier.pages.map (·.1)).filter fun p =>
        first ≤ p && p < first + count && !(s.page p).buddy && (s.page p).home ≠ 0
      let ks := ps.flatMap fun p => ((List.range 32).filter fun g => s.granDirty p g || s.tier.wbs.contains (p, g)).map
        fun g => 32 * p + g
      let s := s.pend { c with args := ks }
      if ks.isEmpty then s.finish c 0
      else ks.foldl (fun (s : State) k =>
        if s.granDirty (k / 32) (k % 32) then s.writeBack (k / 32) (k % 32) else s) s)

end Sys2Proof.Machine
end

