-- ==== Sys2Proof/Machine/Ports.lean ====
section
/-! DEFINITION. The Ethernet ports (10): frames discarded and answered (R530 to R534), PFC (R529, R551), LLDP (R555,
R556), bring-up (R539 to R542), lane faults (R543 to R546), and direct mode (R547 to R550). -/

namespace Sys2Proof.Machine

/-! ### Addresses (R533, R534) -/

/-- The MAC address of port p (R533): the host's, or the fused base plus p. -/
def State.mac (s : State) (p : Nat) : Bytes :=
  (s.port p).cfg.mac.getD (toBytesBE 6 (Config.macBase.toNat * 32 + p))

/-- The IPv6 link-local address of a MAC address by the modified EUI-64 rule (R534). -/
def linkLocal (mac : Bytes) : Bytes :=
  [0xFE, 0x80, 0, 0, 0, 0, 0, 0] ++ [nth mac 0 0 ^^^ 2, nth mac 1 0, nth mac 2 0, 0xFF, 0xFE] ++ mac.drop 3

/-- The IPv6 addresses of port p. -/
def State.ipv6s (s : State) (p : Nat) : List Bytes :=
  linkLocal (s.mac p) :: (match (s.port p).cfg.ipv6 with | some a => [a.1] | none => [])

/-- The IPv4 addresses of port p. -/
def State.ipv4s (s : State) (p : Nat) : List Bytes :=
  match (s.port p).cfg.ipv4 with | some a => [a.1] | none => []

/-- Whether port p has an address other than its link-local one (R534, of whose answers it speaks: DEDUCED, log 105). -/
def State.addressed (s : State) (p : Nat) : Bool := (s.port p).cfg.ipv4.isSome || (s.port p).cfg.ipv6.isSome

/-- The multicast MAC addresses of LLDP, PTP and IPv6 neighbour discovery (R530). PRESUMED the standards', log 31. -/
def groupMac (a : Bytes) : Bool :=
  [[0x01, 0x80, 0xC2, 0, 0, 0x0E], [0x01, 0x1B, 0x19, 0, 0, 0], [0x01, 0, 0x5E, 0, 0x01, 0x81],
   [0x01, 0, 0x5E, 0, 0, 0x6B], [0x33, 0x33, 0, 0, 0x01, 0x81], [0x33, 0x33, 0, 0, 0, 0x6B],
   [0x33, 0x33, 0, 0, 0, 0x01]].contains a || a.take 3 == [0x33, 0x33, 0xFF]

/-- The multicast IP addresses that go with them: they count as the port's own (PRESUMED, log 31). -/
def groupIp (a : Bytes) : Bool :=
  [[224, 0, 1, 129], [224, 0, 0, 107]].contains a ||
    (a.take 2 == [0xFF, 0x02] && [0x6B, 0x01].contains (nth a 15 0) && (slice a 2 13).all (· == 0)) ||
    (a.take 1 == [0xFF] && slice a 2 12 == List.replicate 12 0 && slice a 14 2 == [0x01, 0x81]) ||
    (a.take 13 == [0xFF, 0x02, 0, 0, 0, 0, 0, 0, 0, 0, 0, 0x01, 0xFF])

/-- Whether a UDP port is Halter's: the one in force, or that of a session opened before it was changed (R587). -/
def State.halterPort (s : State) (u : Nat) : Bool := u == s.hal.port || s.hal.sessions.any fun x => x.udp == u

/-- Whether port p accepts a frame but for its FCS (R529, R530, R553). DESIGN CHOICE, log 75. -/
def State.accepts (s : State) (p : Nat) (f : Frame) : Bool :=
  let c := (s.port p).cfg
  64 ≤ f.len && f.len ≤ c.mtu && !f.pause && !f.tcp && !f.beyond &&
  (f.dst == s.mac p || f.dst == List.replicate 6 0xFF || groupMac f.dst) &&
  (match f.tag with | some t => t.2 == 0 || t.2 == c.vlan | none => true) &&
  (match f.ip with
    | some h => (s.ipv4s p ++ s.ipv6s p).contains h.dst || groupIp h.dst
    | none => true) &&
  (match f.ip with | some h => !h.frag && !h.opts | none => true) &&
  (match f.udp with
    | some u => u == s.fab.port || (p ≤ 1 && s.halterPort u) || u == 319 || u == 320
    | none => true)

/-- FRAME_DISCARD (R529, R530, R553, R562, R564): an accepted frame is no matter of this row. -/
def execFrameDiscard (p : PortIx) (f : Frame) (s : State) : Out :=
  if !f.fcsOk then
    .next (s.onPort p.val fun x => { x with cnt := { x.cnt with fcsErrors := satAdd 32 x.cnt.fcsErrors 1 } })
  else if s.accepts p.val f then .next s
  else .next (s.rxDiscard p.val)

/-! ### Answers (R531, R532, R534). Each is a frame with its kind, its class as arguments, and its bytes from the
destination MAC address on without VLAN tag and FCS: 1 ARP reply, 2 neighbour advertisement, 3 echo reply, 4 LLDPDU,
5 PTP message; 6 PFC (State.rxClass). -/

/-- Sends a frame of the port's own; padded to 64 bytes with its tag and FCS (R529). -/
def State.sendFrame (s : State) (p kind cls : Nat) (b : Bytes) : State :=
  s.sendOn p cls (max 64 (b.length + 8)) (.frame p kind [cls] b)

/-- Whether port p receives an accepted frame: the link is UP. -/
def State.receives (s : State) (p : Nat) (f : Frame) : Bool := (s.port p).link == 2 && f.fcsOk && s.accepts p f

/-- ARP_REQUEST (R531, R532, R534). -/
def execArpRequest (p : PortIx) (f : Frame) (sender target : List Byte) (s : State) : Out :=
  if !s.receives p.val f then .next s
  else
    let s := s.rxCount p.val f.len
    if !(s.ipv4s p.val).contains target then .next s
    else .next (s.sendFrame p.val 1 0 (f.src ++ s.mac p.val ++ [0x08, 0x06, 0, 1, 0x08, 0, 6, 4, 0, 2] ++ s.mac p.val ++
      target ++ f.src ++ sender))

/-- The Internet checksum of a string of an even number of bytes: the ones' complement of the ones' complement sum. -/
def inetSum (b : Bytes) : Nat :=
  let t := (List.range (b.length / 2)).foldl (fun a i => a + fromBytesBE (slice b (2 * i) 2)) 0
  let t := t % 65536 + t / 65536
  65535 - (t % 65536 + t / 65536)

/-- An ICMPv6 message in its frame: addresses, type and code with the rest of the message after its checksum (R529,
R531, R535). Neighbour discovery has hop limit 255 (PRESUMED, log 31). -/
def icmp6 (dmac smac src dst : Bytes) (hop ty : Nat) (rest : Bytes) : Bytes :=
  let n := 4 + rest.length
  let m (c : Nat) : Bytes := [BitVec.ofNat 8 ty, 0] ++ toBytesBE 2 c ++ rest
  let pad := if n % 2 = 1 then [0] else []
  let c := inetSum (src ++ dst ++ toBytesBE 4 n ++ [0, 0, 0, 58] ++ m 0 ++ pad)
  dmac ++ smac ++ [0x86, 0xDD, 0x60, 0, 0, 0] ++ toBytesBE 2 n ++ [58, BitVec.ofNat 8 hop] ++ src ++ dst ++ m c

/-- NEIGHBOR_SOLICITATION (R531, R532, R534): the advertisement is solicited and overrides. -/
def execNeighborSolicitation (p : PortIx) (f : Frame) (target : List Byte) (s : State) : Out :=
  match f.ip with
  | none => .next s
  | some h =>
    if !s.receives p.val f then .next s
    else
      let s := s.rxCount p.val f.len
      if !(s.ipv6s p.val).contains target then .next s
      else .next (s.sendFrame p.val 2 0
        (icmp6 f.src (s.mac p.val) target h.src 255 136 ([0x60, 0, 0, 0] ++ target ++ [2, 1] ++ s.mac p.val)))

/-- An ICMP echo reply in its frame: TTL 64, DF set (R529, R535). -/
def icmp4 (dmac smac src dst body : Bytes) : Bytes :=
  let ip (c : Nat) : Bytes := [0x45, 0] ++ toBytesBE 2 (24 + body.length) ++ [0, 0, 0x40, 0, 64, 1] ++ toBytesBE 2 c ++
    src ++ dst
  let m (c : Nat) : Bytes := [0, 0] ++ toBytesBE 2 c ++ body
  let pad := if body.length % 2 = 1 then [0] else []
  dmac ++ smac ++ [0x08, 0] ++ ip (inetSum (ip 0)) ++ m (inetSum (m 0 ++ pad))

/-- ICMP_ECHO_REQUEST (R531, R532, R534, R535): sent back to the source of the request. -/
def execIcmpEchoRequest (p : PortIx) (f : Frame) (body : List Byte) (s : State) : Out :=
  match f.ip with
  | none => .next s
  | some h =>
    if !s.receives p.val f then .next s
    else
      let s := s.rxCount p.val f.len
      if !s.addressed p.val then .next s
      else .next (s.sendFrame p.val 3 0
        (if h.v6 then icmp6 f.src (s.mac p.val) h.dst h.src 64 129 body
         else icmp4 f.src (s.mac p.val) h.dst h.src body))

/-! ### PFC (R529, R551, IEEE 802.1Qbb) -/

/-- The pause of a number of quanta in ns at the port's present width (R528): 512 bit times each, rounded up. -/
def Port.pauseNs (x : Port) (quanta : Nat) : Nat := ceilDiv (quanta * 512) (200 * max 1 x.inUse.length)

/-- PFC_RECEIVE (R529, R552, R562): a time of 0 resumes its class. What the receive buffer has passed on may resume a class
at the partner. -/
def execPfcReceive (p : PortIx) (times : List (Fin 8 × BitVec 16)) (freed : List (Fin 8 × Nat)) (s : State) : Out :=
  if (s.port p.val).link ≠ 2 then .next s
  else
    let now := s.now
    let s := s.onPort p.val fun x => { x with
      cnt := { x.cnt with pfcRx := satAdd 32 x.cnt.pfcRx 1 }
      paused := times.foldl (fun l (c : Fin 8 × BitVec 16) =>
        let l := l.filter fun e : Nat × Nat => e.1 ≠ c.1.val
        if c.2 = 0 then l else l ++ [(c.1.val, now + x.pauseNs c.2.toNat)]) x.paused }
    let s := freed.foldl (fun (s : State) c => if 3 ≤ c.1.val && c.1.val ≤ 6 then s.rxClass p.val c.1.val 0 c.2 else s) s
    .next (s.txDrain p.val)

/-- PFC_PAUSE_EXPIRY (R529). -/
def execPfcPauseExpiry (p : PortIx) (c : Fin 8) (s : State) : Out :=
  if (s.port p.val).paused.any fun e => e.1 == c.val && e.2 ≤ s.now then
    .next ((s.onPort p.val fun x => { x with paused := x.paused.filter (·.1 ≠ c.val) }).txDrain p.val)
  else .next s

/-! ### LLDP (R555, R556) -/

/-- The Crelliol TLV that port p advertises (R555). -/
def State.lldpTlv (s : State) (p : Nat) : Bytes :=
  toBytes 3 (s.fab.device + 2 ^ 18 * b2n s.fab.numbered) ++
    [BitVec.ofNat 8 s.flash.bootEpoch, BitVec.ofNat 8 p, BitVec.ofNat 8 (1 + 2 * (s.port p).cfg.direct)]

/-- What port p advertises has changed (R555): an LLDPDU is due within 100 ms. -/
def State.lldpSoon (s : State) (p : Nat) : State :=
  s.onPort p fun x => { x with lldpDue := min x.lldpDue (s.now + 100000000) }

/-- LLDP_TRANSMIT (R529, R551, R555): untagged and outside the classes. The length of the frame is free (log 30). -/
def execLldpTransmit (p : PortIx) (s : State) : Out :=
  let x := s.port p.val
  if x.link ≠ 2 || s.now < x.lldpDue then .next s
  else
    let s := s.onPort p.val fun x => { x with lldpDue := s.now + 5000000000 }
    let d := s.draw 10
    .next (d.2.sendOn p.val 8 (64 + d.1) (.frame p.val 4 [] (s.lldpTlv p.val)))

/-- LLDP_RECEIVE (R547, R555, R556, R562). -/
def execLldpReceive (p : PortIx) (tlv : Option (List Byte)) (len : Nat) (s : State) : Out :=
  if (s.port p.val).link ≠ 2 then .next s
  else
  let s := s.rxCount p.val len
  match tlv with
  | none => .next (s.onPort p.val fun x => { x with nbr := none })
  | some b =>
    let w := field b 0 3
    let n : Nbr :=
      { device := w % 2 ^ 18, numbered := bit w 18, epoch := field b 3 1, port := field b 4 1, caps := field b 5 1
        at_ := s.now }
    .next (s.onPort p.val fun x => { x with nbr := some n })

/-- LLDP_NEIGHBOR_EXPIRY (R556). -/
def execLldpNeighborExpiry (p : PortIx) (s : State) : Out :=
  match (s.port p.val).nbr with
  | some b => if b.at_ + 20000000000 ≤ s.now then .next (s.onPort p.val fun x => { x with nbr := none }) else .next s
  | none => .next s

/-! ### Bring-up (R539 to R542) -/

/-- The lane sets in the order in which a port offers them (R540, R541); a module type offers those of at most the width
that the host sets (DEDUCED, log 32). -/
def State.laneSets (s : State) (p : Nat) : List (List Nat) :=
  let x := s.port p
  let all : List (List Nat) :=
    if x.peerSh2 then [[0, 1, 2, 3], [0, 1], [2, 3], [0], [1], [2], [3]] else [[0, 1, 2, 3], [0, 1], [0]]
  let out := Tbl.get 0 s.flash.lanes p
  all.filter fun l => (l.all fun k => !bit out k) && (x.typeNow ≠ 2 || l.length ≤ x.cfg.c2mWidth)

/-- The link of a port goes down (R544, R546). -/
def State.linkDown (s : State) (p : Nat) (link : Nat := 0) : State :=
  (s.onPort p fun x =>
    { x with link := link, inUse := [], direct := false, trying := none, retraining := false, setIx := 0, passes := 0
             failed := [], unacked := [], txSeq := 0, replayTimes := [], frameTimes := [], uncorrTimes := []
             paused := [], rxHeld := [], rxPaused := [] }).txDiscard p

/-- A lane is retired (R544, R545, R861): the link goes down at once; the new width is that of the first set left. -/
def State.retireLane (s : State) (p l : Nat) : State :=
  if bit (Tbl.get 0 s.flash.lanes p) l then s
  else
    let s := { s with flash := { s.flash with lanes := Tbl.upd 0 s.flash.lanes p (· ||| 2 ^ l) } }
    let w := match s.laneSets p with | x :: _ => x.length | [] => 0
    let s := if (s.port p).link = 3 then s else s.linkDown p
    (s.report 3 5 0x30 (p + 256 * l)).raise { code := 0x30, payload := [p, l, w] }

/-- A bring-up ends (R543): a lane that has failed on every set that contains it, for the second time in a row, is
retired. -/
def State.endBringUp (s : State) (p : Nat) : State :=
  let sets := s.laneSets p
  let f := (s.port p).failed
  let bad (l : Nat) : Bool := (sets.any (·.contains l)) && sets.all fun x => !x.contains l || f.contains x
  let s := s.onPort p fun x => { x with lanes := x.lanes.zipIdx.map fun e =>
    { e.1 with badUps := if bad e.2 then e.1.badUps + 1 else 0 } }
  (List.range 4).foldl (fun s l => if 2 ≤ (nth (s.port p).lanes l {}).badUps then s.retireLane p l else s) s

/-- The PORT_RESETs of port p that are pending end with a status (R542, R588). -/
def State.resetEnds (s : State) (p status : Nat) : State :=
  ((s.pendingOf 0x309).filter fun c => c.args == [p]).foldl (fun (s : State) c => s.finish c status) s

/-- A port fails (R541, R542, R545). -/
def State.portFailed (s : State) (p : Nat) : State :=
  ((((s.endBringUp p).linkDown p 3).report 3 5 0x31 p).raise { code := 0x31, payload := [p] }).resetEnds p 0xC

/-- LINK_BRING_UP (R528, R539 to R542, R559, R705, R769): the first attempt of a bring-up takes TYPE and DIRECT. A port
with no set to offer fails at once; in PROVISION F0 to F15 stay down. DESIGN CHOICE, log 76. -/
def execLinkBringUp (p : PortIx) (sh2 : Bool) (s : State) : Out :=
  let x := s.port p.val
  if x.link ≥ 2 || x.trying.isSome || !s.boot.rails || bit s.pwr.force 4 ||
      (s.boot.bootSel = 2 && 2 ≤ p.val) then .next s
  else
    let s := if x.link = 0 then s.onPort p.val fun x =>
        { x with link := 1, typeNow := x.cfg.type, directEn := x.cfg.direct = 1 && !x.fell, peerSh2 := sh2, setIx := 0
                 passes := 0, failed := [] }
      else s
    match (s.laneSets p.val)[(s.port p.val).setIx]? with
    | some l => .next (s.onPort p.val fun x => { x with trying := some l })
    | none => .next (s.portFailed p.val)

/-- Raises DIRECT_FALLBACK (R547, R550). -/
def State.fallbackEvent (s : State) (p : Nat) : State := s.raise { code := 0x32, payload := [p] }

/-- Whether a port would run in direct mode (R547): enabled on both ends, the partner an SH2 that advertises it. -/
def Port.directWanted (x : Port) : Bool :=
  x.directEn && !x.fell && match x.nbr with | some b => bit b.caps 0 && bit b.caps 1 | none => false

/-- LINK_TRAINED (R539, R540, R542, R543, R547, R861). -/
def execLinkTrained (p : PortIx) (delay : Nat) (s : State) : Out :=
  let x := s.port p.val
  match x.trying with
  | none => .next s
  | some l =>
    let re := x.retraining
    let far := x.directWanted && 250 < delay
    let s := s.onPort p.val fun x =>
      { x with link := 2, inUse := l, trying := none, retraining := false, trained := true, lldpDue := s.now
               direct := x.directWanted && delay ≤ 250 }
    let s := if re then s.report 2 5 0x270 p.val else s.endBringUp p.val
    let s := if far then s.fallbackEvent p.val else s
    .next (s.resetEnds p.val 0)

/-- LINK_TRAIN_FAIL (R540 to R542): a failed retrain becomes a bring-up. -/
def execLinkTrainFail (p : PortIx) (s : State) : Out :=
  let x := s.port p.val
  match x.trying with
  | none => .next s
  | some l =>
    if x.retraining then .next (s.linkDown p.val)
    else
      let n := (s.laneSets p.val).length
      let s := s.onPort p.val fun x =>
        { x with trying := none, failed := x.failed.filter (· ≠ l) ++ [l], setIx := x.setIx + 1 }
      if x.setIx + 1 < n then .next s
      else if x.passes + 1 < 4 then .next (s.onPort p.val fun x => { x with setIx := 0, passes := x.passes + 1 })
      else .next (s.portFailed p.val)

/-! ### Lane faults (R543) -/

/-- A link retrains on its current lane set (R543, R546, R561): its fourth retrain within 60 s retires the lane that
started it. -/
def State.retrain (s : State) (p : Nat) (lane : Option Nat) : State :=
  let x := s.port p
  let ts := (x.retrainTimes.filter fun t => s.now < t + 60000000000) ++ [s.now]
  let s := s.onPort p fun x => { x with retrains := satAdd 16 x.retrains 1, retrainTimes := ts }
  match decide (4 ≤ ts.length), lane with
  | true, some l => s.retireLane p l
  | _, _ => (s.linkDown p 1).onPort p fun y => { y with trying := some x.inUse, retraining := true }

/-- LANE_LOSS_OF_LOCK (R543, R544, R563). -/
def execLaneLossOfLock (p : PortIx) (l : Fin 4) (s : State) : Out :=
  let x := s.port p.val
  if x.link ≠ 2 || !x.inUse.contains l.val then .next s
  else
    let s := s.onPort p.val fun x => { x with lanes := setAt x.lanes l.val fun e =>
      { e with lockLoss := satAdd 16 e.lockLoss 1 } }
    .next (s.retrain p.val (some l.val))

/-- LANE_SER_WINDOW (R543, R544, R562, R563): the FEC's statistics, so in standard mode alone (R548). -/
def execLaneSerWindow (p : PortIx) (l : Fin 4) (errs symbols words : Nat) (s : State) : Out :=
  let x := s.port p.val
  if x.link ≠ 2 || x.direct || !x.inUse.contains l.val then .next s
  else
    let s := s.onPort p.val fun x => { x with
      lanes := setAt x.lanes l.val fun e => { e with symErr := satAdd 32 e.symErr errs }
      cnt := { x.cnt with fecCorrected := satAdd 32 x.cnt.fecCorrected words } }
    .next (if symbols < 1000 * errs then s.retireLane p.val l.val else s)

/-- UNCORRECTABLE_CODEWORD (R543, R562). -/
def execUncorrectableCodeword (p : PortIx) (l : Fin 4) (s : State) : Out :=
  let x := s.port p.val
  if x.link ≠ 2 || x.direct then .next s
  else
    let ts := (x.uncorrTimes.filter fun t => s.now < t + 1000000000) ++ [s.now]
    let s := s.onPort p.val fun x =>
      { x with uncorrTimes := ts, cnt := { x.cnt with fecUncorr := satAdd 32 x.cnt.fecUncorr 1 } }
    .next (if 10 < ts.length then s.retrain p.val (some l.val) else s)

/-! ### Direct mode (R548 to R550) -/

/-- DIRECT_REPLAY (R549, R550, R562): the frame and every later one are replayed; too many replays make the link retrain
in standard mode. -/
def execDirectReplay (p : PortIx) (seq : Fin 4096) (s : State) : Out :=
  let x := s.port p.val
  if x.link ≠ 2 || !x.direct || !(x.unacked.any fun u => u.1 == seq.val) then .next s
  else
    let keep := x.unacked.takeWhile fun u => u.1 ≠ seq.val
    let again := (x.unacked.drop keep.length).map fun u => (u.1, u.2.1, u.2.2 + 1)
    let rs := (x.replayTimes.filter fun t => s.now < t + 1000000000) ++ List.replicate again.length s.now
    let fs := x.frameTimes.filter fun t => s.now < t + 1000000000
    let s := s.onPort p.val fun x =>
      { x with unacked := keep ++ again, replayTimes := rs, frameTimes := fs
               cnt := { x.cnt with replays := satAdd 32 x.cnt.replays again.length } }
    if fs.length < 1000000 * rs.length || again.any fun u => 8 ≤ u.2.2 then
      .next (((s.onPort p.val fun x => { x with fell := true }).retrain p.val none).fallbackEvent p.val)
    else .next s

/-- DIRECT_MODE_ACK (R548, R549): every frame up to the number is freed, and frames that waited are sent. -/
def execDirectModeAck (p : PortIx) (seq : Fin 4096) (s : State) : Out :=
  let x := s.port p.val
  if x.link ≠ 2 || !x.direct || !(x.unacked.any fun u => u.1 == seq.val) then .next s
  else .next ((s.onPort p.val fun x =>
    { x with unacked := (x.unacked.dropWhile fun u => u.1 ≠ seq.val).drop 1 }).txDrain p.val)

end Sys2Proof.Machine
end

