-- ==== Sys2Proof/Machine/Boot.lean ====
section
/-! DEFINITION. The start (16): images (R770 to R774), straps (R769), the sequence of R775 to R780, measured boot (R782),
trials (R800 to R802), the loss of VIN (R781, R619), the critical trip (R687 to R689, R851), VAUX (R715, R846), and what a
device reset leaves (R757). -/

namespace Sys2Proof.Machine

/-! ### Images (R770 to R772) -/

/-- The cause for which an image fails R772, in the order of the checks; 0 where it passes. -/
def State.imageCause (s : State) (b : Bytes) : Nat :=
  let h := slice b 0 128
  let pub := slice h 56 48
  let payload := (b.drop 16352).take (field h 16 4)
  if b.length < 16352 || field h 0 4 ≠ 1 || field h 20 4 ≠ 0 || field h 104 24 ≠ 0 then 1
  else if sha256 pub ≠ Config.vendorKeyHash then 2
  else if !Config.slhVerify pub h (slice b 128 16224) then 3
  else if field h 4 4 < s.flash.svnFloor then 4
  else if sha256 payload ≠ slice h 24 32 then 5
  else 0

/-- The image of a slot: 0 A, 1 B. -/
def Flash.image (f : Flash) (k : Nat) : Image := if k = 0 then f.slotA else f.slotB

/-- Writes a slot. -/
def State.putImage (s : State) (k : Nat) (i : Image) : State :=
  { s with flash := if k = 0 then { s.flash with slotA := i } else { s.flash with slotB := i } }

/-! ### What a device reset leaves (R757, R782) -/

/-- A site after a device reset: Groom goes on (R757, R779); its counters are cleared (R702). -/
def Site.kept (x : Site) : Site := { x with peak := 0, rejects := 0, sum := 0, n := 0 }

/-- Groom's state after a device reset: what the tray and the sensors tell stays, parameters are at their defaults. -/
def Heat.kept (h : Heat) : Heat :=
  { sites := h.sites.map Site.kept, lastSeq := h.lastSeq, missRun := h.missRun, goodRun := h.goodRun, lost := h.lost
    inlet := h.inlet, outlet := h.outlet, trayFlow := h.trayFlow, status := h.status, pulses := h.pulses
    lastPulse := h.lastPulse, pumpFail := h.pumpFail, tripAlarm := h.tripAlarm, flowReq := h.flowReq, reason := h.reason
    groomLog := h.groomLog }

/-- The power state after a device reset: the alert inputs, a lost reference clock and the tray's budget stay. -/
def Power.kept (p : Power) (refclk : Bool) : Power :=
  { vr := { p.vr with last := 0 }, gp3 := { p.gp3 with last := 0 }, trayBudget := p.trayBudget, trayAt := p.trayAt
    stale := p.stale, force := b2n p.vr.low + 2 * b2n p.gp3.low + 16 * b2n (!refclk) }

/-- The time state after a device reset: the counter, its discipline and its counters stay (R715, R729), and the
parameters are at their defaults, of which a change to TIME_SRC or TIMECLK_EN makes the state ACQUIRING (R726). -/
def Time.kept (t : Time) : Time :=
  { t with src := 1, timeclkEn := false, ptpPorts := 3, ptpDomain := 0, ptpDelay := 0, slaveOnly := true, slavePort := 31
           seconds := false, st := if t.src ≠ 1 || t.timeclkEn then 1 else t.st, good := 0, timeclkOk := false
           cyc := [0, 0] }

/-- The pins, and what of the start belongs to the VAUX domain. -/
def Boot.kept (b : Boot) : Boot :=
  { stage := .waitSel, bootSel := b.bootSel, measure := [nth b.measure 0 []] ++ List.replicate 7 (List.replicate 32 0)
    vaux := b.vaux, rstN := b.rstN, pwrgd := b.pwrgd, thermtrip := b.thermtrip, alertN := b.alertN, gp3 := b.gp3
    powerCycleAt := b.powerCycleAt, cold := b.cold }

/-- The generators of every slot after a reset, seeded anew after `n` seedings (R259). -/
def reseeded (n : Nat) : Tbl (Nat × Nat) := (List.range 208).map fun sl => (sl, (n + 1 + sl, 0))

/-- A device reset (R259, R757, R779, R780): what R757 keeps, and the VAUX domain; all else at its reset value. HBM holds what
it holds after power-on, which no statement may rest on (log 41). -/
def State.deviceReset (s : State) : State :=
  { pending := s.pending, flash := s.flash, pkg := mapAtReset s.flash.slots, time := s.time.kept, hal := halterAtReset s.flash
    boot := s.boot.kept, pwr := s.pwr.kept s.time.refclk, heat := s.heat.kept, sent := s.sent, freeIx := s.freeIx
    seeds := s.seeds + 208, gens := reseeded s.seeds }

/-- Pending commands end with CANCELLED before a reset that the host has asked for (R589). DEDUCED, log 81. -/
def State.cancelAll (s : State) : State := s.hal.cmds.foldl (fun (s : State) c => s.finish c 0xD) s

/-! ### The rails (R776, R777) -/

/-- The causes of R772 of the other slot, in MEASURE_2. -/
def Boot.otherCause (b : Boot) : Nat :=
  match b.failCauses.find? fun c => c.1 ≠ b.slot with | some c => c.2 | none => 0

/-- The measurements of a start (R782): the layout of MEASURE_2's record is the order of its fields, one byte each (log
40). -/
def State.measureStart (s : State) : State :=
  let s := s.onBoot fun b => { b with measure := [nth b.measure 0 []] ++ List.replicate 7 (List.replicate 32 0) }
  let rec2 : Bytes := [s.boot.slot, s.boot.bootSel, s.flash.svnFloor, s.boot.otherCause].map (BitVec.ofNat 8)
  let own : Bytes := match s.flash.owner with | some o => sha256 (o.1 ++ o.2) | none => List.replicate 32 0
  let s := s.extend 1 (Config.bootCode 1) (sha256 (slice (s.flash.image s.boot.slot).bytes 0 128))
  let s := s.extend 2 (Config.bootCode 2) (slice rec2 0 32)
  s.extend 3 (Config.bootCode 3) own

/-- Groom hands the reports that it kept to the error log, now that Dorlen runs (R697). -/
def State.handOver (s : State) : State :=
  let l := s.heat.groomLog
  { s with heat := { s.heat with groomLog := [] }, err := l.foldl (fun (e : ErrLog) r => e.report r) s.err }

/-- The main rails rise once an image has passed, RST_N and PWRGD are high and no trip holds them (R776, R777, R781):
the boot epoch is counted, and Dorlen starts. -/
def State.tryRamp (s : State) : State :=
  if s.boot.stage = .checked && s.boot.rstN && s.boot.pwrgd && !s.boot.thermtrip && s.boot.vaux then
    let s := { s with flash := { s.flash with bootEpoch := (s.flash.bootEpoch + 1) % 256 } }
    (s.onBoot fun b => { b with stage := .ramped, rails := true, rampAt := s.now }).measureStart.handOver
  else s

/-! ### The JTAG port (R839) -/

/-- The VIO sideband pins by their lands, which boundary scan covers (R838, R839), but for the five of the JTAG port itself
(DEDUCED, log 104): RST_N, PWRGD, VR_ALERT_N, TIMECLK, PPS_IN, the straps, GP0 to GP7, the tray's and the regulators' buses. -/
def scanLands : List (Nat × Nat) :=
  [(95, 86), (95, 87), (95, 89), (95, 92), (95, 93), (95, 94), (96, 86)] ++ (List.range 8).map (fun k => (96, 87 + k)) ++
    [(97, 86), (97, 87), (97, 88), (97, 89)]

/-- The TAP controller's state (R839): held in Test-Logic-Reset but in BOARD_TEST. No command of the table clocks it
(log 104). -/
def State.tap (s : State) : Tap := if s.boot.stage = .boardTest then s.boot.jtag.tap else .testLogicReset

/-- The level of TDO, none at high impedance (R839): it is driven only while the TAP controller shifts. -/
def State.tdo (s : State) : Option Bool :=
  match s.tap with
  | .shiftDr => s.boot.jtag.cells.getLast?
  | .shiftIr => s.boot.jtag.ir.getLast?
  | _ => none

/-- A start samples BOOT_SEL and begins to read the first slot of its order (R768, R769, R777, R801): an image on trial is
tried first, whatever the strap, but in BOARD_TEST, which reads none. -/
def State.startFrom (s : State) (sel : Nat) : State :=
  let s := s.onBoot fun b => { b with bootSel := sel, failCauses := [], fallback := false }
  let s := if s.boot.cold then
      (s.extend 0 (Config.bootCode 0) Config.romDigest).onBoot fun b => { b with cold := false }
    else s
  let first := match s.flash.trial with
    | some t => t.1
    | none => if sel = 1 then 1 - s.flash.bootSlot else s.flash.bootSlot
  s.onBoot fun b => { b with jtag := { b.jtag with tap := .testLogicReset }, stage := if sel = 3 then .boardTest else .reading first false }

/-- IMAGE_CHECK_DONE (R770 to R774, R776, R777, R802): the first slot's failure lets the other be tried; where both fail,
the causes are recorded in flash and the device stays silent. A trial that fails is cleared. -/
def execImageCheckDone (s : State) : Out :=
  match s.boot.stage with
  | .reading k second =>
    let b := (s.flash.image k).bytes
    let c := s.imageCause b
    if c = 0 then
      .next (s.onBoot fun x => { x with stage := .checked, slot := k, svn := field b 4 4, build := field b 8 8 }).tryRamp
    else
      let s := s.onBoot fun x => { x with failCauses := x.failCauses ++ [(k, c)] }
      let s := match s.flash.trial with
        | some t => if t.1 = k then { s with flash := { s.flash with trial := none } } else s
        | none => s
      if second then
        .next ({ s with flash := { s.flash with causes := s.boot.failCauses } }.onBoot fun x => { x with stage := .noImage })
      else .next (s.onBoot fun x => { x with stage := .reading (1 - k) true, fallback := true })
  | _ => .next s

/-- BOOT_SEL_SAMPLE (R769, R777): 0.4 ms after VAUX, at a cold start whose RST_N is already high. -/
def execBootSelSample (sel : BitVec 2) (s : State) : Out :=
  if s.boot.stage = .waitSel && s.boot.cold && s.boot.rstN && 400000 ≤ s.now then .next (s.startFrom sel.toNat)
  else .next s

/-- RST_N_DEASSERT (R769, R776, R779): BOOT_SEL is sampled at the rising edge, but for a cold start whose 0.4 ms have not
passed. -/
def execRstNDeassert (sel : BitVec 2) (s : State) : Out :=
  if s.boot.rstN then .next s
  else
    let s := s.onBoot fun b => { b with rstN := true }
    if s.boot.stage = .waitSel && !(s.boot.cold && s.now < 400000) then .next (s.startFrom sel.toNat) else .next s.tryRamp

/-- RST_N_ASSERT (R688, R757, R780): the start then waits for RST_N. A trip is released while every privileged sensor
reads below 95 degrees C. -/
def execRstNAssert (s : State) : Out :=
  if !s.boot.vaux then .next (s.onBoot fun b => { b with rstN := false })
  else
    let cool := [208, 209, 210, 211, 212].all fun q => (nth s.heat.sites q {}).tb < 380
    let s := s.deviceReset.onBoot fun b => { b with rstN := false, thermtrip := b.thermtrip && !cool }
    .next (if cool then s.onHeat fun h => { h with tripAlarm := false } else s)

/-- PWRGD_RISE (R776). -/
def execPwrgdRise (s : State) : Out := .next (s.onBoot fun b => { b with pwrgd := true }).tryRamp

/-! ### Loss of VIN (R619, R781) -/

/-- The number by which flash names a stage of the start (log 42). -/
def Stage.code (x : Stage) : Nat :=
  match x with
  | .off => 0 | .waitSel => 1 | .reading _ _ => 2 | .checked => 3 | .ramped => 4 | .trained => 5 | .ready => 6
  | .noImage => 7 | .boardTest => 8

/-- Every regulator fed from VIN is off: the main domain's work ends as at a reset, and the start waits at R776 with the
image that has passed (R781). -/
def State.railsOff (s : State) : State :=
  let b := s.boot
  s.deviceReset.onBoot fun x =>
    { x with stage := .checked, slot := b.slot, svn := b.svn, build := b.build, fallback := b.fallback
             failCauses := b.failCauses }

/-- VIN is lost while the main rails are up (R755, R781). -/
def State.vinLost (s : State) : State :=
  let r : TripRec := { time := s.now, a := s.pwr.vinMin, b := [s.boot.stage.code] }
  State.tryRamp (State.railsOff { s with flash := { s.flash with powerLoss := s.flash.powerLoss ++ [r], newLoss := true } })

/-- PWRGD_FALL (R781, R846). -/
def execPwrgdFall (s : State) : Out :=
  let s := s.onBoot fun b => { b with pwrgd := false }
  .next (if s.boot.rails then s.vinLost else s)

/-- Since when a condition has held. -/
def since (held : Bool) (old : Option Nat) (now : Nat) : Option Nat := if held then some (old.getD now) else none

/-- VIN_SAMPLE (R619, R654, R696, R711, R755, R781): VIN in mV, while the main rails are up. The lowest VIN is that since
VIN was last in tolerance (DEDUCED, log 43). -/
def execVinSample (mv : Nat) (s : State) : Out :=
  if !s.boot.rails then .next s
  else
    let now := s.now
    let s := s.onPwr fun p =>
      { p with vinLowAt := since (mv < 1700) p.vinLowAt now, vinOkAt := since (1746 ≤ mv) p.vinOkAt now
               vinMin := if 1746 ≤ mv || p.vinMin = 0 then mv else min p.vinMin mv }
    let s := s.onBoot fun b => { b with vinLossAt := since (mv < 1600) b.vinLossAt now }
    let past (t : Option Nat) (n : Nat) : Bool := match t with | some t => t + n < now | none => false
    if past s.boot.vinLossAt 5000 then .next s.vinLost
    else
      let s := if past s.pwr.vinLowAt 10000 && !bit s.pwr.force 2 then
          (s.forceOn 2).raise { code := 0x54, payload := [s.pwr.vinMin] }
        else s
      let ok := match s.pwr.vinOkAt with | some t => decide (t + 1000000 ≤ now) | none => false
      .next (if ok && bit s.pwr.force 2 then s.forceOff 2 else s)

/-! ### The critical trip (R687 to R689, R851) -/

/-- THERMAL_TRIP (R687 to R689, R781, R851): a privileged sensor has read 105 degrees C twice in a row. -/
def execThermalTrip (q : Fin 214) (s : State) : Out :=
  if q.val < 208 || q.val = 213 || (nth s.heat.sites q.val {}).hotRun < 2 || s.boot.thermtrip || !s.boot.vaux then .next s
  else
    let rd := [208, 209, 210, 211, 212].map fun k => encInt (nth s.heat.sites k {}).tb
    let r : TripRec := { time := s.now, a := q.val, b := rd }
    let s := { s with flash := { s.flash with trips := s.flash.trips ++ [r], newTrip := true } }
    let s := s.onBoot fun b => { b with thermtrip := true }
    let s := if s.boot.rails then s.railsOff else s
    .next (s.onHeat fun h => { h with tripAlarm := true }).trayReq

/-! ### VAUX (R715, R729, R777, R846) -/

/-- The device without VAUX: flash and fuses alone hold what they held, and the pins their levels. -/
def State.dead (s : State) (vaux : Bool) : State :=
  { pending := s.pending, flash := s.flash, pkg := mapAtReset s.flash.slots, hal := halterAtReset s.flash
    boot := { stage := if vaux then .waitSel else .off, vaux := vaux, rstN := s.boot.rstN, pwrgd := s.boot.pwrgd
              alertN := s.boot.alertN, gp3 := s.boot.gp3 }
    sent := s.sent, freeIx := s.freeIx, seeds := s.seeds + 208, gens := reseeded s.seeds }

/-- VAUX_FALL (R688, R846): every regulator fed from VIN turns off. -/
def execVauxFall (s : State) : Out := .next (s.dead false)

/-- VAUX_UP (R614, R715, R729, R777): a cold start. -/
def execVauxUp (s : State) : Out := if s.boot.vaux then .next s else .next (s.dead true)

/-! ### From the ramp to READY (R777, R778, R801) -/

/-- HBM_TRAINING_DONE (R41, R200, R201, R403, R410, R777, R778): pending rows are repaired, or, where a bank has no spare
row left, retired with their page; the array self-test retires what fails; the tile map is built. -/
def execHbmTrainingDone (full : List (ChanIx × Nat)) (cols : List (Fin 208 × Fin 130)) (s : State) : Out :=
  if s.boot.stage ≠ .ramped then .next s
  else
    let s := (List.range 96).foldl (fun (s : State) m =>
      (s.chanRec m).shadows.foldl (fun (s : State) row =>
        let out := full.any fun f => f.1.val == m && f.2 == row
        let s := s.onChanRec m fun r => { r with shadows := r.shadows.filter (· ≠ row) }
        if out then s.pageRetire m (s.logicalPage m (row / 2 * 2048 / 4096))
        else
          let s := (s.onChanRec m fun r => { r with repaired := r.repaired ++ [row] }).report 3 4 0x305 m 0 row
          s.onBoot fun b => { b with repairs := min 65535 (b.repairs + 1) }) s) s
    let s := cols.foldl (fun (s : State) c => s.retireCol c.1.val c.2.val 0x205) s
    .next ({ s with pkg := mapAtReset s.flash.slots }.onBoot fun b => { b with stage := .trained })

/-- A trial that reaches READY in time becomes the boot slot (R773, R801). -/
def State.trialReady (s : State) : State :=
  match s.flash.trial with
  | some (k, commit) =>
    if k ≠ s.boot.slot || s.boot.rampAt + 30000000000 < s.now then s
    else
      let old := s.flash.svnFloor
      let up := commit && old < s.boot.svn
      let s := { s with flash := { s.flash with
        bootSlot := k, trial := none, svnFloor := if up then s.boot.svn else old
        slotA := { s.flash.slotA with staged := false }, slotB := { s.flash.slotB with staged := false } } }
      if up then s.raiseHeld { code := 0x92, payload := [old, s.boot.svn] } else s
  | none => s

/-- READY (R403, R555, R689, R777, R781, R801 to R803): pages of rows that cannot be repaired have been retired. The events
wait for the first CONTROL session. -/
def execReady (s : State) : Out :=
  if s.boot.stage ≠ .trained || s.hbm.chans.any fun c => !c.2.retiring.isEmpty then .next s
  else
    let s := s.onBoot fun b => { b with stage := .ready, readyMs := (s.now - b.rampAt) / 1000000 }
    let s := s.trialReady
    let s := (List.range 18).foldl (fun (s : State) p => s.onPort p fun x => { x with lldpDue := s.now }) s
    let b := s.boot
    let s := s.raiseHeld { code := 0x90, payload := [b.slot, b.svn, s.flash.svnFloor, b.readyMs, b.repairs] }
    let s := b.failCauses.foldl (fun (s : State) c => s.raiseHeld { code := 0x91, payload := [c.1, c.2] }) s
    let s := match s.flash.newLoss, s.flash.powerLoss.getLast? with
      | true, some r => s.raiseHeld { code := 0x93, payload := [r.time, r.a] ++ r.b }
      | _, _ => s
    let s := match s.flash.newTrip, s.flash.trips.getLast? with
      | true, some r => s.raiseHeld { code := 0x68, payload := [r.time, r.a] ++ r.b }
      | _, _ => s
    .next { s with flash := { s.flash with newLoss := false, newTrip := false } }

/-- TRIAL_TIMEOUT (R755, R801, R802): 30 s after the rails rose. The start from the previous boot slot keeps the sampled
strap, and tells of the fall-back. DEDUCED, log 80. -/
def execTrialTimeout (s : State) : Out :=
  match s.flash.trial with
  | some (k, _) =>
    if !(s.boot.stage = .ramped || s.boot.stage = .trained) || k ≠ s.boot.slot || s.now < s.boot.rampAt + 30000000000 then
      .next s
    else
      let s := State.deviceReset { s with flash := { s.flash with trial := none } }
      .next (s.onBoot fun b =>
        { b with stage := .reading s.flash.bootSlot false, fallback := true, failCauses := [(k, 6)] })
  | none => .next s

/-! ### Resets by the host (R757, R758) -/

/-- DEV_RESET (R588, R589, R757, R769, R779): OK is sent first; the start that follows samples BOOT_SEL. -/
def execDevReset (h : Hdr) (sel : BitVec 2) (s : State) : Out :=
  .next (s.command h 0x15 anyJob false fun c s => ((s.answer c 0).cancelAll.deviceReset).startFrom sel.toNat)

/-- TRAY_POWER_CYCLE (R588, R675, R758). -/
def execTrayPowerCycle (h : Hdr) (s : State) : Out :=
  .next (s.command h 0x16 anyJob false fun c s =>
    let b : Bytes := [1, 2, 0, 0, 0, 0, 0]
    ((s.answer c 0).send (.tray (b ++ [BitVec.ofNat 8 (crc8 b)]))).onBoot fun x => { x with powerCycleAt := some s.now })

/-- POWER_CYCLE_TIMEOUT (R758): after 10 s; the device keeps running. -/
def execPowerCycleTimeout (s : State) : Out :=
  match s.boot.powerCycleAt with
  | some t =>
    if s.now < t + 10000000000 then .next s
    else .next ((s.onBoot fun x => { x with powerCycleAt := none }).report 5 0xC 0x243 4 0 0 1)
  | none => .next s

end Sys2Proof.Machine
end

