-- ==== Sys2Proof/Machine/Control.lean ====
section
/-! DEFINITION. Shared resources and their owners (R609 to R615, R840 to R842), power commands (R631 to R633), the event
controller and the cores (R604 to R608, R745, R747), INFO (R588). -/

namespace Sys2Proof.Machine

/-! ### Owners (R609, R610) -/

/-- Whether an owner's code is known. -/
def knownOwner (o : Nat) : Bool := [1, 2, 0x10, 0x11, 0x20, 0x21, 0x22, 0x30, 0x31].contains o

/-- Whether an owner's class is SAFETY. -/
def safetyOwner (o : Nat) : Bool := o = 0x30 || o = 0x31

/-- Whether an owner's class is DEBUG or GENERAL, and so gives way to SAFETY. -/
def yields (o : Nat) : Bool := o = 1 || o = 2 || o = 0x10 || o = 0x11

/-- Whether an owner may hold a resource. -/
def mayHold (o r : Nat) : Bool :=
  let gp := r < 8
  let gt := 8 ≤ r && r < 16
  let sh := 16 ≤ r && r < 20
  match o with
  | 1 => gp | 2 => gt | 0x10 => gp || gt | 0x11 => 4 ≤ r && r < 8 | 0x20 => sh | 0x21 => sh | 0x22 => r = 7
  | 0x30 => r ≤ 2 || gt | 0x31 => r = 3 | _ => false

/-- Whether an owner may hold a set of resources together: one timer and one pin for PERISCOPE, GP4 to GP7 whole for
TRACE, one pulse input and one timer for COOLANT_FLOW. -/
def mayHoldAll (o : Nat) (rs : List Nat) : Bool :=
  let n (p : Nat → Bool) : Nat := (rs.filter p).length
  rs.all (mayHold o) && match o with
  | 0x10 => n (fun r => r < 8) ≤ 1 && n (fun r => 8 ≤ r) ≤ 1
  | 0x11 => [4, 5, 6, 7].all rs.contains
  | 0x30 => n (fun r => r < 2) ≤ 1 && n (fun r => 8 ≤ r) ≤ 1
  | _ => true

/-- Resource r's entry. -/
def State.res (s : State) (r : Nat) : ResOwn := nth s.hal.res r {}

/-- Changes resource r's entry. -/
def State.onRes (s : State) (r : Nat) (f : ResOwn → ResOwn) : State := s.onHal fun h => { h with res := setAt h.res r f }

/-- The resources that an owner holds. -/
def State.heldBy (s : State) (o : Nat) : List Nat := (List.range 20).filter fun r => (s.res r).owner == o

/-- A pin returns to input and a timer's expiry is cancelled (R615, R841). DEDUCED, log 78. -/
def State.quiet (s : State) (r : Nat) : State :=
  s.onHal fun h =>
    if r < 8 then
      { h with gpOut := if bit h.gpOut r then h.gpOut - 2 ^ r else h.gpOut
               gpLevel := if bit h.gpLevel r then h.gpLevel - 2 ^ r else h.gpLevel }
    else if r < 16 then { h with timers := Tbl.set 0 h.timers (r - 8) 0 }
    else h

/-- A use of a resource stops (R615, R822): Periscope's trigger on it is lost. -/
def State.stopUse (s : State) (r : Nat) : State :=
  let o := s.obs
  let s := if (s.res r).owner = 0x10 then
      (if o.timer = some r then { s with obs := { o with timer := none, timerLost := true } }
       else if o.pin = some r then { s with obs := { o with pin := none, pinLost := true } } else s)
    else s
  s.quiet r

/-- Whether an enable of resource r by an owner meets another owner (R609): 0 none, 1 one that gives way, 2 a conflict.
Two sessions are two owners. -/
def State.meets (s : State) (o slot r : Nat) : Nat :=
  let e := s.res r
  if e.owner = 0 || (e.owner = o && ((o ≠ 1 && o ≠ 2) || e.session = slot)) then 0
  else if safetyOwner o && yields e.owner then 1 else 2

/-- Gives resource r to an owner (R609, R614, R617). -/
def State.grant (s : State) (o slot r : Nat) : State :=
  let e := s.res r
  if e.owner = o && e.session = slot then s
  else
    let pre := s.meets o slot r = 1
    let s := if pre then s.stopUse r else s
    let s := s.onRes r fun e => { e with
      owner := o, session := if o = 1 || o = 2 then slot else 0, grants := satAdd 16 e.grants 1
      preempts := if pre then satAdd 16 e.preempts 1 else e.preempts, draining := false }
    let s := if safetyOwner o then
        { s with flash := { s.flash with safety := (s.flash.safety.filter (·.1 ≠ r)) ++ [(r, o)] } }
      else s
    if pre then s.raise { code := 2, payload := [r, e.owner, o] } else s

/-- An enable of a group of resources (R609 to R611): 0 granted whole, else the status of its refusal. A share that comes to
PANNIER_SPILL lets spills begin (R613). -/
def State.acquire (s : State) (o slot : Nat) (rs : List Nat) : Nat × State :=
  if rs.isEmpty || !rs.Nodup || !knownOwner o || !mayHoldAll o (rs ++ (s.heldBy o).filter fun r => !rs.contains r) then
    (2, s)
  else if rs.any fun r => s.meets o slot r = 2 then (3, s)
  else
    let s := rs.foldl (fun (s : State) r => s.grant o slot r) s
    (0, if o = 0x20 then s.spillAll else s)

/-- RES_ACQUIRE (R588, R609 to R611, R614, R615, R822). -/
def execResAcquire (h : Hdr) (owner : BitVec 8) (res : List Nat) (s : State) : Out :=
  .next (s.command h 0xC anyJob false fun c s =>
    let slot := match s.session h.session with | some x => x.slot | none => 0
    let r := s.acquire owner.toNat slot res
    r.2.answer c r.1)

/-- A resource becomes FREE. GP3 without REG_ALERT as its owner forces nothing (R654). -/
def State.free (s : State) (r : Nat) : State :=
  let s := if r = 3 && (s.res 3).owner = 0x31 then
      State.forceOff (s.onPwr fun p => { p with gp3 := { p.gp3 with low := false } }) 1
    else s
  let s := if safetyOwner (s.res r).owner then { s with flash := { s.flash with safety := s.flash.safety.filter (·.1 ≠ r) } }
    else s
  (s.quiet r).onRes r fun e => { e with owner := 0, session := 0, grants := satAdd 16 e.grants 1, draining := false }

/-- RES_RELEASE (R588, R612, R614): a host owner's resource only by its own session. -/
def execResRelease (h : Hdr) (r : Nat) (s : State) : Out :=
  .next (s.command h 0xD anyJob false fun c s =>
    let e := s.res r
    let slot := match s.session h.session with | some x => x.slot | none => 0
    if 20 ≤ r || e.owner = 0 then s.answer c 2
    else if (e.owner = 1 || e.owner = 2) && e.session ≠ slot then s.answer c 8
    else if 16 ≤ r then
      if e.draining then s.pend { c with args := [r] }
      else if s.hal.job = 2 && ((s.heldBy e.owner).filter fun q => !(s.res q).draining).length = 1 then
        let d := s.draw 32
        d.2.answer c 5 (toBytes 4 (1 + d.1 % 1000000))
      else (s.pend { c with args := [r] }).onRes r fun e => { e with draining := true }
    else ((s.pend c).free r).finish c 0)

/-- RES_RELEASE_DONE (R612). -/
def execResReleaseDone (r : Fin 20) (s : State) : Out :=
  if !(s.res r.val).draining then .next s
  else
    let s := s.free r.val
    .next (((s.pendingOf 0xD).filter fun c => c.args == [r.val]).foldl (fun (s : State) c => s.finish c 0) s)

/-- RES_QUERY (R588): the owner codes of resources 0 to 19. -/
def execResQuery (h : Hdr) (s : State) : Out :=
  .next (s.command h 0xE anyJob true fun c s => s.answer c 0 (s.hal.res.map fun e => BitVec.ofNat 8 e.owner))

/-! ### Pins and timers (R840 to R842) -/

/-- GPIO_SET (R588, R842). -/
def execGpioSet (h : Hdr) (pay : List Byte) (s : State) : Out :=
  .next (s.command h 0xF anyJob false fun c s =>
    let slot := match s.session h.session with | some x => x.slot | none => 0
    let m := field pay 0 1
    let own (r : Nat) : Bool := (s.res r).owner = 1 && (s.res r).session = slot
    if pay.length ≠ 8 || field pay 3 5 ≠ 0 then s.answer c 2
    else if (List.range 8).any fun r => bit m r && !own r then s.answer c 8
    else
      let mix (old new : Nat) : Nat := (old &&& (255 ^^^ m)) ||| (new &&& m)
      (s.onHal fun h => { h with gpOut := mix h.gpOut (field pay 1 1), gpLevel := mix h.gpLevel (field pay 2 1) }).answer c 0)

/-- GPIO_GET (R588, R842): an output reads the level driven. -/
def execGpioGet (h : Hdr) (inputs : BitVec 8) (s : State) : Out :=
  .next (s.command h 0x10 anyJob true fun c s =>
    let o := s.hal.gpOut
    s.answer c 0 [BitVec.ofNat 8 ((s.hal.gpLevel &&& o) ||| (inputs.toNat &&& (255 ^^^ o)))])

/-- TIMER_SET (R588, R609). -/
def execTimerSet (h : Hdr) (timer : Nat) (ns : Nat) (s : State) : Out :=
  .next (s.command h 0x11 anyJob false fun c s =>
    let slot := match s.session h.session with | some x => x.slot | none => 0
    if 8 ≤ timer then s.answer c 2
    else if (s.res (8 + timer)).owner ≠ 2 || (s.res (8 + timer)).session ≠ slot then s.answer c 8
    else (s.onHal fun h => { h with timers := Tbl.set 0 h.timers timer (if ns = 0 then 0 else s.now + ns + 1) }).answer c 0)

/-! ### Power (R631 to R633, R656) -/

/-- CAP_SET (R588, R630, R631, R656): it ends a peak cut. -/
def execCapSet (h : Hdr) (pay : List Byte) (s : State) : Out :=
  .next (s.command h 0x12 anyJob false fun c s =>
    let pk := field pay 0 2
    let su := field pay 2 2
    let npk := if pk = 0 then s.pwr.peak else pk
    let nsu := if su = 0 then s.pwr.sust else su
    if pay.length ≠ 8 || field pay 4 4 ≠ 0 || (pk ≠ 0 && (pk < 600 || 1250 < pk)) ||
        (su ≠ 0 && (su < 300 || 1050 < su)) || npk < nsu then s.answer c 2
    else (s.onPwr fun p => { p with peak := npk, sust := nsu, peakCut := false }).answer c 0)

/-- SITE_BUDGET (R588, R632, R633). -/
def execSiteBudget (h : Hdr) (pay : List Byte) (s : State) : Out :=
  .next (s.command h 0x13 anyJob false fun c s =>
    let w := field pay 0 2
    if pay.length ≠ 8 || field pay 2 6 ≠ 0 then s.answer c 2
    else if w = 0 then (s.onPwr fun p => { p with halBudget := 0 }).answer c 0
    else
      let b := s.clampBudget w 0
      (b.2.onPwr fun p => { p with halBudget := b.1 }).answer c 0)

/-! ### INFO -/

/-- INFO (R588): 0 SH2-288 or 1 SH2-216, the serial number, SVN and BUILD of the image, the device number with NUMBERED
in bit 18, and the boot epoch. The order and the widths are the model's (log 37). -/
def execInfo (h : Hdr) (s : State) : Out :=
  .next (s.command h 0x203 anyJob true fun c s =>
    s.answer c 0 ([BitVec.ofNat 8 (b2n Config.sh2_216)] ++ slice Config.serial 0 16 ++ toBytes 4 s.boot.svn ++
      toBytes 8 s.boot.build ++ toBytes 4 (s.fab.device + 2 ^ 18 * b2n s.fab.numbered) ++ toBytes 1 s.flash.bootEpoch))

/-! ### The event controller (R604 to R608) -/

/-- Changes a core. -/
def State.onCore (s : State) (k : Nat) (f : CoreSt → CoreSt) : State :=
  s.onHal fun h => { h with cores := setAt h.cores k f }

/-- Core k. -/
def State.core (s : State) (k : Nat) : CoreSt := nth s.hal.cores k {}

/-- Whether a core's interrupt line is asserted (R605): a source of its own, or an enabled shared source routed to it, is
pending. -/
def State.lineUp (s : State) (k : Nat) : Bool :=
  !(s.core k).priv.isEmpty || s.hal.evc.any fun e => e.pending && e.enable && e.target == k

/-- An asserted line wakes a sleeping core; a powered-down one wakes by CORE_WAKE (R608). -/
def State.wakeCore (s : State) (k : Nat) : State :=
  if s.lineUp k && (s.core k).st = 1 then s.onCore k fun c => { c with st := 0 } else s

/-- EVC_SOURCE_ASSERT (R604, R605, R608): a source that is pending already leaves one pending bit. -/
def execEvcSourceAssert (x : EvcSource) (s : State) : Out :=
  match x with
  | .shared i =>
    let e := nth s.hal.evc i.val { target := 0, enable := false }
    .next ((s.onHal fun h => { h with evc := setAt h.evc i.val fun e => { e with pending := true } }).wakeCore e.target)
  | .priv k i =>
    .next ((s.onCore k.val fun c => { c with priv := c.priv.filter (· ≠ i.val) ++ [i.val] }).wakeCore k.val)

/-- EVC_ROUTE_WRITE (R607, R608): PENDING is cleared by writing 1, and moves with TARGET. A reserved bit set, or a
reserved TARGET, leaves the register as it was (R18, R19). -/
def execEvcRouteWrite (n : Fin 512) (v : BitVec 32) (s : State) : Out :=
  let w := v.toNat
  let t := bits w 2 0
  if 5 ≤ t || bits w 31 5 ≠ 0 then .next s
  else .next ((s.onHal fun h => { h with evc := setAt h.evc n.val fun e =>
    { target := t, enable := bit w 3, pending := e.pending && !bit w 4 } }).wakeCore t)

/-- CORE_POWER_DOWN (R608): DC1 to DC3, while they are idle. -/
def execCorePowerDown (core : Fin 5) (s : State) : Out :=
  if core.val = 0 || core.val = 4 || (s.core core.val).st = 2 || s.lineUp core.val || !bit s.flash.cores core.val then .next s
  else .next (s.onCore core.val fun c => { c with st := 2 })

/-- CORE_WAKE (R608): a core whose retention check fails restarts at its firmware entry, which is logged; the spec gives
that record no code (a free value, log 39). -/
def execCoreWake (core : Fin 5) (ok : Bool) (s : State) : Out :=
  if (s.core core.val).st ≠ 2 || !s.lineUp core.val then .next s
  else
    let s := s.onCore core.val fun c => { c with st := 0 }
    if ok then .next s
    else
      let d := s.draw 16
      .next ((d.2.onCore core.val fun c => { c with starts := c.starts + 1 }).report 2 0xC d.1 core.val)

/-! ### Watchdogs (R745, R747) -/

/-- A watchdog expires: it is counted, and the core starts at its firmware entry. -/
def State.watchdog (s : State) (k : Nat) : State :=
  let s := { s with err := { s.err with watchdogs := satAdd 16 s.err.watchdogs 1 } }
  s.onCore k fun c => { c with st := 0, starts := c.starts + 1
                               dogs := (c.dogs.filter fun t => s.now - t ≤ 3600000000000) ++ [s.now] }

/-- The core that serves a mailbox (R747): its own, or the next in service. -/
def State.server (s : State) (m : Nat) : Nat :=
  (((List.range 4).map fun i => (m + i) % 4).find? fun k => bit s.flash.cores k).getD m

/-- DORLEN_WATCHDOG (R745, R747): the command that the core was executing receives FAILED; a third expiry within 1 h
retires the core. -/
def execDorlenWatchdog (core : Fin 4) (running : Option (Nat × Nat)) (s : State) : Out :=
  let k := core.val
  if !bit s.flash.cores k then .next s
  else
    let s := (s.watchdog k).report 2 0xC 0x240 k
    let due : List PendCmd := match running with
      | some r => s.hal.cmds.filter fun c => c.session == r.1 && c.seq == r.2 && s.server (c.code / 256) == k
      | none => []
    let s := due.foldl (fun (s : State) c => s.finish c 0xC) s
    if 3 ≤ (s.core k).dogs.length then
      .next (State.report { s with flash := { s.flash with cores := s.flash.cores - 2 ^ k } } 3 0xC 0x241 k)
    else .next s

/-- GROOM_WATCHDOG (R745, R747): GC is never retired; Rein holds the last coolant limit. -/
def execGroomWatchdog (s : State) : Out := .next ((s.watchdog 4).report 2 0xC 0x242 4)

end Sys2Proof.Machine
end

