-- ==== Sys2Proof/Machine/Drain.lean ====
section
/-! DEFINITION. The drain unit: DRAIN, TOPK and TOPK_MERGE (R154, R160, R177 to R192), their auxiliary data (R231 to
R235), their destinations and completion (R182, R185, R304, R326 to R334, R862). -/

namespace Sys2Proof.Machine

/-! ### The fields of a record -/

/-- GCOUNT. -/
def MxCmd.gcount (c : MxCmd) : Nat := recBits c.main 13 11 + 1
/-- N of a drain-unit command. -/
def MxCmd.dn (c : MxCmd) : Nat := recBits c.main 33 27 + 1
/-- DEST. -/
def MxCmd.dest (c : MxCmd) : Nat := recBits c.main 18 16
/-- FUNC. -/
def MxCmd.func (c : MxCmd) : Nat := recBits c.main 24 19
/-- DEST_ADDR. -/
def MxCmd.destAddr (c : MxCmd) : Nat := recBits c.main 191 128
/-- DEST_STRIDE. -/
def MxCmd.destStride (c : MxCmd) : Nat := recBits c.main 223 192

/-! ### Functions (R179 to R181, R234, R235) -/

/-- 1.0 in FP32. -/
def one32 : Nat := 0x3F800000

/-- FUNC applied to v, with the auxiliary element in FP32 or the mask bit. -/
def drainFunc (func v a : Nat) : Nat :=
  let x := f32 v
  let y := f32 a
  match func with
  | 0 => v
  | 1 => if x.isNan then nan32 else if (Num.fin false 0 0).lt x then v else 0
  | 2 => f32gelu v
  | 3 => f32silu v
  | 0x10 => if x.isNan || y.isNan then nan32 else if (Num.fin false 0 0).lt y then v else 0
  | 0x11 => f32geluD v a
  | 0x12 => f32siluD v a
  | 0x13 => f32mul v (f32add one32 (f32neg (f32mul a a)))
  | 0x14 => f32mul v (f32mul a (f32add one32 (f32neg a)))
  | 0x15 => f32mul v a
  | _ => if a = 1 then v else 0

/-! ### TOPK (R186 to R192) -/

/-- Whether one entry ranks above another (R188): value code, position. -/
def ranksAbove (a b : Nat × Nat) : Bool :=
  let x := f32 a.1
  let y := f32 b.1
  if x.isNan then !y.isNan || a.2 < b.2
  else if y.isNan then false
  else if y.lt x then true else if x.lt y then false else a.2 < b.2

/-- Inserts an entry in rank order. -/
def topInsert (a : Nat × Nat) : List (Nat × Nat) → List (Nat × Nat)
  | [] => [a]
  | b :: t => if ranksAbove b a then b :: topInsert a t else a :: b :: t

/-- The record of the 16 highest entries (R186, R188, R189). -/
def topRecord (es : List (Nat × Nat)) : Bytes :=
  let top := (es.foldl (fun l e => topInsert e l) []).take 16
  let top := top ++ List.replicate (16 - top.length) (0xFF800000, 0xFFFFFFFF)
  top.flatMap fun e => toBytes 4 (if (f32 e.1).isNan then nan32 else e.1) ++ toBytes 4 e.2

/-! ### Writing an output row -/

/-- The requests from number n on are writes of a drain-unit command, which awaits them: those that forward a write to a page's
home serve it, and those that write a page's buddy copy are noted (R145, R429, R448). -/
def State.drainAwait (s : State) (t : Nat) (c : MxCmd) (n : Nat) : State :=
  let s := s.claim n (.drain t c.id)
  let w := (s.fab.reqs.filter fun r => n ≤ r.num && r.why ≠ .drain t c.id && numberedOp r.pkt.op).map (·.num)
  if w.isEmpty then s else s.onMx t c.id fun c => { c with waits := c.waits ++ w }

/-- Writes bytes to an address of a drain-unit command, locally or to another device (R160, R182, R483, R862): the state
and a fault code. -/
def State.drainWrite (s : State) (t : Nat) (c : MxCmd) (addr : Nat) (b : Bytes) (fmt : Nat) (pois : Bool) :
    State × Nat :=
  let s := s.onOps t fun o => { o with drainBytes := sat64 o.drainBytes b.length }
  if s.isOwn addr then
    let f := s.writeFault (addrOff addr) b.length
    if f ≠ 0 then (s, f) else (s.memWrite (addrOff addr) b fmt pois, 0)
  else (s.sendWrite addr b s.fab.drainKey fmt 0 0 pois (.drain t c.id), 0)

/-- The address of output row r under DEST 0b000 and 0b001 (R182). -/
def MxCmd.rowAddr (c : MxCmd) (t r : Nat) : Nat :=
  if c.dest = 0 then lsBase + t * 0x400000 + c.destAddr % 2 ^ 22 + r * c.destStride
  else c.destAddr + r * c.destStride

/-- The auxiliary elements of row r: FP32 codes, or mask bits, for N columns; or a fault code (R232, R233, R93). -/
def State.auxRow (s : State) (t : Nat) (c : MxCmd) (r : Nat) : List Nat × State × Nat :=
  let n := c.dn
  if c.func < 0x10 then (List.replicate n 0, s, 0)
  else
    let o := c.adata + r * c.astride
    let x := s.tile t
    if c.func = 0x18 || c.func = 0x19 then
      let len := (n + 7) / 8
      if !inLs o len then ([], s, 0x103)
      else if x.marked o len then ([], s, 0x111)
      else
        let b := x.get o len
        ((List.range n).map fun j => b2n (bit (nth b (j / 8) 0).toNat (j % 8)), s, 0)
    else
      let p := c.aux.runAt 0 n
      if !inLs o p.2 then ([], s, 0x103)
      else if x.marked o p.2 then ([], s, 0x111)
      else if s.runFault c.aux (x.get o p.2) ≠ 0 then ([], s, s.runFault c.aux (x.get o p.2))
      else
        let v := s.decRun c.aux (x.get o p.2) 0 n
        (v.1.map toF32, s.count c.aux.cset { malformed := v.2 }, 0)

/-- The FP32 values of output row r after stages 1 to 3 (R179, R186), from the values read. -/
def drainVals (c : MxCmd) (bias aux vs : List Nat) : List Nat :=
  let alpha := recBits c.main 95 64
  let en := bit (recBits c.main 118 118) 0
  vs.zipIdx.map fun p =>
    let v := f32mul alpha p.1
    let v := if en then f32add v (nth bias p.2 0) else v
    if c.op = 3 then v else drainFunc c.func v (nth aux p.2 0)

/-- A row goes to the reduction (R325 to R334): one contribution per block. Code 0x10F reports REDUCE_DUP. -/
def State.reduceRow (s : State) (t : Nat) (c : MxCmd) (r : Nat) (vs us : List Nat) (pois : Bool) : State × Nat :=
  let tag := c.destAddr % 2 ^ 20
  let e := s.tagEnt tag
  (List.range (c.dn / 32)).foldl (fun (q : State × Nat) j =>
    if q.2 ≠ 0 then q
    else
      let s := q.1
      let b := (c.destAddr / 2 ^ 32 + r * e.rowBlocks + j) % 2 ^ 32
      let g := gxOf ((vs.drop (32 * j)).take 32) ((us.drop (32 * j)).take 32) c.da.sto (s.expCode tag b) b pois
      let s := s.count c.da.cset { zeroed := g.2 }
      let s := s.onOps t fun o => { o with drainBytes := sat64 o.drainBytes 168 }
      let s := s.onTag tag fun x => { x with part := (x.part + g.1.sum) % 2 ^ 64 }
      let h := s.holdAdd tag g.1
      (h.1, if h.2 then 0x10F else 0)) (s, 0)

/-- One output row of a DRAIN or TOPK: state and fault code (R154, R160, R179 to R186, R304). -/
def State.drainRow (s : State) (t : Nat) (c : MxCmd) (bias : List Nat) (r : Nat) : State × Nat :=
  let n := c.dn
  let g := c.g + r / 128
  let x := s.tile t
  let pois := bit x.poison g
  let key := 16384 * g + 128 * (r % 128)
  let vs := Tbl.getList 0 x.acc key n
  let a := s.auxRow t c r
  if a.2.2 ≠ 0 then (a.2.1, a.2.2)
  else
    let s := a.2.1.tickTile t
    let s := if bit (recBits c.main 14 14) 0 then s.onTile t fun x => { x with acc := Tbl.clear x.acc key (key + n) }
      else s
    let out := drainVals c bias a.1 vs
    if c.op = 3 then
      let pos := recBits c.main 287 256
      let q := s.drainWrite t c (c.rowAddr t r) (topRecord (out.zipIdx.map fun p => (p.1, pos + p.2))) 0 pois
      (q.1.drainAwait t c s.fab.nextReq, q.2)
    else if c.dest = 3 then
      let es := (List.range (ceilDiv n 64)).map fun i =>
        let l := (out.drop (64 * i)).take 64
        ({ vals := l ++ List.replicate (64 - l.length) 0, poison := pois } : FtEntry)
      let s := s.onTile t fun x => { x with ftq := x.ftq ++ es }
      (s.onOps t fun o => { o with drainBytes := sat64 o.drainBytes (256 * es.length) }, 0)
    else
      let us := if c.da.sto then s.drawsOf t else []
      if c.dest = 2 then s.reduceRow t c r out us pois
      else
        let e := s.encRow c.da out us (r * n / 32) pois
        let q := if e.2.2 ≠ 0 then e.2 else e.2.1.drainWrite t c (c.rowAddr t r) e.1 c.da.format pois
        (q.1.drainAwait t c s.fab.nextReq, q.2)

/-- Whether the memory holds the writes of output row r (R253, R400, R402, R404). -/
def State.rowHeld (s : State) (t : Nat) (c : MxCmd) (r : Nat) : Bool :=
  let a := c.rowAddr t r
  (c.op = 3 || c.dest = 1) && s.isOwn a && s.mustWait (addrOff a) (if c.op = 3 then 128 else c.da.rowBytes c.dn) true

/-- Why a drain cannot write its next row (R185): 0x10 a full finished-tile queue, 0x11 reduction credits; 0 when it
can. -/
def State.drainBlocked (s : State) (t : Nat) (c : MxCmd) : Nat :=
  if c.op ≠ 2 then 0
  else if c.dest = 3 && 256 < (s.tile t).ftq.length + ceilDiv c.dn 64 then 0x10
  else if c.dest = 2 && s.red.waiting.any (fun w => (s.tagEnt w.1).tree = (s.tagEnt (c.destAddr % 2 ^ 20)).tree)
  then 0x11 else 0

/-- The rows of a DRAIN or TOPK from row r on: `fuel` rows left, of which `done` have been written since it began or
resumed. It stops at the row where the mesh holds it, where it must wait, or at a fault; at the end it has finished
reading. -/
def State.drainRows (t : Nat) (c : MxCmd) (bias : List Nat) (stop : Option Nat) (sram : Sram) :
    Nat → State → Nat → Nat → State
  | 0, s, _, _ => s.onMx t c.id fun c => { c with st := 2, wait := 0 }
  | fuel + 1, s, r, done =>
    if !unmasked c.mask r then State.drainRows t c bias stop sram fuel s (r + 1) done
    else
      let w := if stop = some r || s.rowHeld t c r then 1 else s.drainBlocked t c
      if w ≠ 0 then s.onMx t c.id fun c => { c with row := r, wait := w, since := s.now }
      else if sramStops sram done then s.faultMx t c 0x112
      else
        let q := s.drainRow t c bias r
        if q.2 ≠ 0 then q.1.faultMx t c q.2
        else State.drainRows t c bias stop sram fuel q.1 (r + 1) (done + 1)

/-- Runs a DRAIN or TOPK from its next row. -/
def State.drainRun (s : State) (t : Nat) (c : MxCmd) (stop : Option Nat) (sram : Sram) : State :=
  let bo := recBits c.main 117 96
  let en := bit (recBits c.main 118 118) 0
  if en && (s.tile t).marked bo (4 * c.dn) then s.faultMx t c 0x111
  else
    let bias := if en then (List.range c.dn).map fun j => field ((s.tile t).get (bo + 4 * j) 4) 0 4 else []
    State.drainRows t c bias stop sram (128 * c.gcount - c.row) s c.row 0

/-- The additions of a drain's records whose residues mismatch (R339). -/
def State.upsetBy (s : State) (adds : List AddErr) : State := { s with red := { s.red with upsets := adds } }

/-- The auxiliary header of a DRAIN, read as it begins (R231, R233): the entry with it, or a fault code. -/
def State.auxHeader (s : State) (t : Nat) (c : MxCmd) : MxCmd × Nat :=
  if c.op ≠ 2 || c.func < 0x10 then (c, 0)
  else
    let o := recBits c.main 277 256
    if !inLs o 64 then (c, 0x103)
    else if (s.tile t).marked o 64 then (c, 0x111)
    else
      let h := (s.tile t).get o 64
      let d := Desc.parse (h.take 48)
      let useFmt := c.func ≠ 0x18 && c.func ≠ 0x19
      if field h 56 8 ≠ 0 then (c, 0x101)
      else if useFmt && (!d.ok || d.format == 0x30 || d.format == 0x31) then (c, 0x102)
      else ({ c with aux := d, adata := field h 48 4, astride := field h 52 4 }, 0)

/-- A TOPK_MERGE executes (R191, R192). -/
def State.runMerge (s : State) (t : Nat) (c : MxCmd) (sram : Sram) : State :=
  let n := recBits c.main 14 8
  let src := recBits c.main 85 64
  let x := s.tile t
  if x.marked src (128 * n) then s.faultMx t c 0x111
  else if sramStops sram 0 then s.faultMx t c 0x112
  else
    let b := x.get src (128 * n)
    let es := (List.range (16 * n)).map fun i => (field b (8 * i) 4, field b (8 * i + 4) 4)
    let q := s.drainWrite t c (recBits c.main 191 128) (topRecord (es.filter fun e => e.2 ≠ 0xFFFFFFFF)) 0 false
    if q.2 ≠ 0 then q.1.faultMx t c q.2
    else (q.1.drainAwait t c s.fab.nextReq).onMx t c.id fun c => { c with st := 2 }

/-- DRAIN_UNIT_START (R144, R150, R154, R160, R173, R174, R177 to R192, R231 to R235, R304, R326 to R334, R862). -/
def execDrainUnitStart (t : TileIx) (stop : Option Nat) (accBad : BitVec 8) (sram : Sram) (adds : List AddErr) (s : State) :
    Out :=
  match nextStart true [] (s.tile t.val).mxq with
  | none => .next s
  | some c =>
    let s := (s.onMx t.val c.id fun c => { c with st := 1 }).sramRead t.val sram |>.1
    if c.op = 4 then .next (s.runMerge t.val c sram)
    else
      let mk := s.readMask t.val (recBits c.main 26 25) (recBits c.main 341 320) c.gcount
      if mk.2 ≠ 0 then .next (s.faultMx t.val c mk.2)
      else
        let h := s.auxHeader t.val c
        if h.2 ≠ 0 then .next (s.faultMx t.val c h.2)
        else
          let c := { h.1 with st := 1, mask := mk.1 }
          let s := (s.onMx t.val c.id fun _ => c).accStruck t.val c.groups accBad.toNat
          .next ((s.upsetBy adds).drainRun t.val c stop sram |>.upsetBy [])

/-- DRAIN_RESUME (R185, R306): the held drain goes on once what it waits for has come. -/
def execDrainResume (t : TileIx) (stop : Option Nat) (sram : Sram) (adds : List AddErr) (s : State) : Out :=
  match (s.tile t.val).mxq.find? fun c => c.drains && c.st == 1 && c.wait ≠ 0 with
  | none => .next s
  | some c =>
    if s.drainBlocked t.val c ≠ 0 then .next s
    else
      let cyc := (s.now - c.since) * Config.coreMHz s.pwr.pstate / 1000
      let s := s.onOps t.val fun o => { o with drainWaits := sat64 o.drainWaits cyc }
      let c := { c with wait := 0 }
      let s := (s.onMx t.val c.id fun _ => c).sramRead t.val sram |>.1
      .next ((s.upsetBy adds).drainRun t.val c stop sram |>.upsetBy [])

/-- DRAIN_UNIT_DONE (R145, R343, R862): every write of a finished command has a final status. `sumBad` says that the
fabric engine's sum of a drain's records differs from its part checksum. -/
def execDrainUnitDone (t : TileIx) (sumBad : Bool) (s : State) : Out :=
  match (s.tile t.val).mxq.find? fun c =>
      c.drains && c.st == 2 && !(s.fab.reqs.any fun r => r.why == .drain t.val c.id || (c.waits.contains r.num && r.why ≠ .nobody)) with
  | none => .next s
  | some c =>
    let s := if sumBad && c.op = 2 && c.dest = 2 then
        s.raiseCause (if bit (s.tagSt (c.destAddr % 2 ^ 20)).flags 0 then 5 else 3)
      else s
    .next ((s.dropMx t.val c.id).postIf t.val c.main)

end Sys2Proof.Machine
end

