-- ==== Sys2Proof/Machine/FabCmd.lean ====
section
/-! DEFINITION. The fabric queue of a tile (R482): COPY, CTR_WAIT, FENCE, REMOTE (R479 to R482, R510 to R520) and STREAM
(R454 to R462). -/

namespace Sys2Proof.Machine

/-! ### Records (R454, R455, R479, R482) -/

/-- Which of the fields of R479 a command leaves 0: a nonzero one breaks the record. -/
def fabFieldsBad (r : Bytes) : Bool :=
  let f := recBits r
  let op := f 7 0
  let rop := f 10 8
  let remote := op = 0x65
  let copy := op = 0x62
  let wait := op = 0x63
  let atomic := remote && 2 ≤ rop && rop ≤ 5
  f 31 18 ≠ 0 || f 287 278 ≠ 0 || f 319 301 ≠ 0 || f 351 342 ≠ 0 || f 511 384 ≠ 0 ||
  (remote && rop = 7) || (!remote && rop ≠ 0) || (!atomic && f 12 11 ≠ 0) || f 12 11 = 3 || (rop = 5 && f 12 11 = 2) ||
  (f 13 13 = 1 && !(remote && 2 ≤ rop && rop ≤ 4)) || (f 14 14 = 1 && !(remote && rop = 0)) ||
  (f 16 16 = 1 && !remote && !copy) || (f 17 17 = 1 && op ≠ 0x64) ||
  (f 63 32 ≠ 0 && !remote && !copy) || (f 127 64 ≠ 0 && op = 0x64) || (f 191 128 ≠ 0 && !copy) ||
  (f 223 192 ≠ 0 && !copy) || (f 255 224 ≠ 0 && !remote && !copy) || (f 277 256 ≠ 0 && !remote) ||
  (f 300 288 ≠ 0 && !copy && !wait && !(remote && rop = 1)) || (f 383 352 ≠ 0 && !wait) ||
  ((remote || copy) && (f 127 126 = 3 || (f 127 126 = 2 && 4095 < f 125 108))) || (copy && 2 ≤ f 191 190)

/-- Bytes of the local store that a REMOTE uses. -/
def remoteBytes (r : Bytes) : Nat :=
  let rop := recBits r 10 8
  let e := atomSize (recBits r 12 11)
  if rop ≤ 1 then recBits r 255 224 else if rop = 5 then 2 * e else if rop = 6 then 0 else e

/-- Why a record of COPY, CTR_WAIT, FENCE or REMOTE breaks R479: CMD_INVALID or OPERAND_RANGE; 0 when it does not. -/
def fabCheck (r : Bytes) : Nat :=
  let f := recBits r
  let op := f 7 0
  let n := f 255 224
  firstFault [(fabFieldsBad r, 0x101),
    (f 341 320 % 16 ≠ 0 || !inLs (f 341 320) 16, 0x103),
    (op = 0x65 && f 10 8 ≠ 6 && (n < 4 || 65536 < n || n % 4 ≠ 0 || !inLs (f 277 256) (remoteBytes r)), 0x103),
    (op = 0x65 && f 10 8 = 6 && (n = 0 || n % 64 ≠ 0), 0x103),
    (op = 0x62 && (n < 4 || 2 ^ 30 < n || n % 4 ≠ 0 || f 129 128 ≠ 0), 0x103),
    ((op = 0x65 || op = 0x62) && f 65 64 ≠ 0, 0x103),
    ((f 300 300 = 1 || op = 0x63) && 1023 < f 299 288, 0x103)]

/-- Why a STREAM record breaks R454 (R455). -/
def State.streamCheck (s : State) (t : Nat) (r : Bytes) : Nat :=
  let f := recBits r
  let n := f 159 128
  let dst := f 255 192
  let own := match lsAt dst n with | some (q, _) => q == t | none => false
  firstFault [(2 < f 10 8 || f 14 11 ≠ 0 || f 31 16 ≠ 0 || f 191 160 ≠ 0 || f 511 342 ≠ 0 ||
      (f 10 8 ≠ 2 && f 319 256 ≠ 0), 0x101),
    (f 63 32 = 0 || 10000000 < f 63 32, 0x103),
    (n < 256 || 2 ^ 26 < n || n % 256 ≠ 0 || f 71 64 ≠ 0 || !inTier (f 127 64) n, 0x103),
    (f 199 192 ≠ 0 || !(s.inHbm dst n || own), 0x103),
    (f 10 8 = 2 && !s.mapped (f 319 256) n, 0x103),
    (f 341 320 % 16 ≠ 0 || !inLs (f 341 320) 16, 0x103)]

/-! ### Issue -/

/-- Whether a command finds no place: the queue's 16 entries, a tile's 8 streams, the copy queue (R456, R482, R513). -/
def State.fabFull (s : State) (t op : Nat) : Bool :=
  let q := (s.tile t).fabq
  16 ≤ q.length || (op = 0x61 && 8 ≤ (q.filter fun c => c.op == 0x61).length) ||
  (op = 0x62 && 1024 ≤ ((List.range 192).map fun u => ((s.tile u).fabq.filter fun c => c.op == 0x62 && c.st == 0).length).sum)

/-- The commands in a FENCE's scope that have not completed (R510): COPYs and REMOTEs with numbered operations. -/
def State.fenceOld (s : State) (t : Nat) (device : Bool) : List (Nat × Nat) :=
  ((List.range 192).filter fun u => device || u == t).flatMap fun u =>
    ((s.tile u).fabq.filter fun c => c.op == 0x62 || (c.op == 0x65 && recBits c.main 10 8 ≠ 0)).map fun c => (u, c.id)

/-- A sequencer issues a fabric or stream command (R455, R456, R479, R482). -/
def State.issueFab (s : State) (t op a : Nat) : State :=
  if s.fabFull t op then s.onTile t fun x => { x with seq := .stall op a, since := s.now }
  else
    let f := s.recFault t a
    if f ≠ 0 then s.fault t f a op
    else
      let r := (s.tile t).get a 64
      let f := if op = 0x61 then s.streamCheck t r else fabCheck r
      if f ≠ 0 then s.fault t f a op
      else
        let e : FabCmd :=
          { id := (s.tile t).nextId, op := op, main := r, addr := a, since := s.now
            due := if op = 0x61 then s.now + 1000 * recBits r 63 32 else 0
            mark := if op = 0x64 then s.fab.nextReq else 0
            old := if op = 0x64 then s.fenceOld t (bit (field r 0 4) 17) else [] }
        s.onTile t fun x => { x with fabq := x.fabq ++ [e], nextId := x.nextId + 1 }

/-! ### Start -/

/-- The next command to start, in issue order, unless it stands behind a FENCE (R482). -/
def nextFab : List FabCmd → Option FabCmd
  | [] => none
  | c :: t => if c.st = 0 then some c else if c.op = 0x64 then none else nextFab t

/-- The arrival-counter field of a record's writes (R479). -/
def ctrAux (r : Bytes) : Nat := if recBits r 300 300 = 1 then 4096 + recBits r 299 288 else 0

/-- The cached bytes of a range, if every line is there (R518). -/
def State.cached (s : State) (addr n : Nat) : Option Bytes :=
  let lo := addr / 64 * 64
  let ls := (List.range ((addr + n - lo + 63) / 64)).map fun i => s.fab.cache.find? fun e => e.1 == lo + 64 * i
  if ls.all (·.isSome) then some (slice (ls.flatMap fun e => match e with | some e => e.2 | none => []) (addr - lo) n) else none

/-- A part of a REMOTE READ: served from the cache where CACHE allows and its lines are there (R518). -/
def State.remoteRead (s : State) (t : Nat) (c : FabCmd) (off n : Nat) : State :=
  let addr := recBits c.main 127 64 + off
  let use := recBits c.main 14 14 = 1 && addrScope addr = 1 && !s.isOwn addr && !inTier (addrOff addr) 1
  match if use then s.cached addr n else none with
  | some b => (s.countFab t n).onTile t fun x => x.put (recBits c.main 277 256 + off) b false
  | none => s.fabReq 1 addr [] (recBits c.main 63 32) n (if use then 16 else 0) 0 (.remote t c.id off)

/-- A REMOTE starts (R480, R518 to R520): its packets in ascending order. What a group write drops is DEDUCED, log 28. -/
def State.startRemote (s : State) (t : Nat) (c : FabCmd) : State :=
  let f := recBits c.main
  let rop := f 10 8
  let addr := f 127 64
  let key := f 63 32
  let n := f 255 224
  let ls := f 277 256
  let parts := cut s.maxPayload n 0 ((s.tile t).get ls n)
  let len := if rop = 1 then n else 8
  let s := if rop = 0 || rop = 6 then s
    else if addrScope addr = 1 then s.dropLines addr len
    else if addrScope addr = 2 then s.dropOffsets (addrOff addr) len else s
  if rop = 0 then parts.foldl (fun (s : State) p => s.remoteRead t c p.1 p.2.length) s
  else if rop = 1 then
    parts.foldl (fun (s : State) p => s.fabReq 2 (addr + p.1) p.2 key 0 (f 16 16) (ctrAux c.main) (.remote t c.id p.1)) s
  else if rop = 6 then s.fabReq 0x20 addr [] key (n / 64) 0 0 (.remote t c.id 0)
  else s.fabReq (0x10 + rop - 2) addr ((s.tile t).get ls (remoteBytes c.main)) key (f 12 11) (8 * f 13 13) 0 (.remote t c.id 0)

/-- Whether a COPY's destination is a local store of this device. -/
def State.intoStore (s : State) (dst : Nat) : Bool := s.isOwn dst && (lsAt (addrOff dst) 1).isSome

/-- A COPY writes what it has read here (R392, R395, R514), and notes a poisoned unit of HBM that goes into a local store. -/
def State.copyFlush (s : State) (t : Nat) (c : FabCmd) : State :=
  if c.parts.isEmpty then s
  else
    let into := s.intoStore (field c.main 8 8) && !s.intoStore (field c.main 16 8) && c.parts.any fun u => u.2.2.1
    let s := s.onFabCmd t c.id fun c => { c with parts := [], spoiled := c.spoiled || into }
    s.copyOut t c.id c.main 0 c.parts

/-- Every COPY writes what it has read here. -/
def State.copyFlushAll (s : State) : State :=
  (List.range 192).foldl (fun (s : State) t => (s.tile t).fabq.foldl (fun (s : State) c => s.copyFlush t c) s) s

/-- A COPY starts (R392, R429, R469, R513): its reads are asked for in ascending order, those of this device's own memory of
its own home. -/
def State.startCopy (s : State) (t : Nat) (c : FabCmd) : State :=
  let src := recBits c.main 191 128
  let n := recBits c.main 255 224
  let ps := cut s.maxPayload n 0 (List.replicate n 0)
  if !s.isOwn src then
    ps.foldl (fun (s : State) p =>
      s.sendReq (addrDev src) 1 (src + p.1) [] (recBits c.main 223 192) p.2.length 0 0 (.copyRead t c.id p.1)) s
  else
    let s := ps.foldl (fun (s : State) p => s.localReq 1 (addrOff src + p.1) [] 0 p.2.length 0 0 (.copyRead t c.id p.1)) s
    match s.fabCmd t c.id with
    | some c => s.copyFlush t c
    | none => s

/-- Whether a stream must wait before it starts: the memory holds its source or its destination (R253, R400, R402, R404,
R432). -/
def State.streamHeld (s : State) (c : FabCmd) : Bool :=
  let n := recBits c.main 159 128
  s.mustWait (recBits c.main 127 64) n false || s.mustWait (recBits c.main 255 192) n true

/-- A STREAM's fetch starts (R392, R429, R457): each page is read where it lives. A destination that is refused faults (R62,
R245). -/
def State.startStream (s : State) (t : Nat) (c : FabCmd) : State :=
  let src := recBits c.main 127 64
  let dst := recBits c.main 255 192
  let n := recBits c.main 159 128
  let code := s.writeFault dst n
  if code ≠ 0 then s.fabFault t c.id code
  else if !s.tierMapped src n then s.onFabCmd t c.id fun c => { c with status := 3, ended := true }
  else
    let s := (s.combineAt src n).onFabCmd t c.id fun c => { c with since := s.now }
    (s.places src n false).foldl (fun (s : State) p =>
      match p.2.2.2 with
      | .far _ home key =>
        (cut s.maxPayload p.2.2.1 0 (List.replicate p.2.2.1 0)).foldl (fun (s : State) d =>
          s.sendReq (addrDev home) 1 (2 ^ 62 + home + d.1) [] key d.2.length 0 0 (.stream t c.id (p.1 + d.1))) s
      | _ =>
        let r := s.readUnits p.2.1 p.2.2.1
        let bad := s.intoStore dst && r.1.any fun u => u.2.2.1
        let s := if bad then r.2.onFabCmd t c.id fun c => { c with spoiled := true } else r.2
        (s.countFab t p.2.2.1).moveWrite (dst + p.1) r.1) s

/-- Copy engines that run a COPY (R513). -/
def State.copying (s : State) : Nat :=
  ((List.range 192).map fun u => ((s.tile u).fabq.filter fun c => c.op == 0x62 && c.st == 1).length).sum

/-- Copy engines in service (R766). -/
def State.enginesIn (s : State) : Nat := ((List.range 16).filter (bit s.flash.engines)).length

/-- FABRIC_CMD_START (R429, R437, R457, R460, R469, R480, R482, R513, R518, R613, R743, R744, R859): the next command of
tile t's queue. A COPY waits for a copy engine, a COPY or a STREAM for a share of the staging buffer. -/
def execFabricCmdStart (t : TileIx) (sram : Sram) (s : State) : Out :=
  match nextFab (s.tile t.val).fabq with
  | none => .next s
  | some c =>
    let moves := c.op = 0x61 || c.op = 0x62
    if (moves && !s.holdsShare 0x21) || (c.op = 0x62 && s.enginesIn ≤ s.copying) || (c.op = 0x61 && s.streamHeld c) then
      .next s
    else
      let s := s.onFabCmd t.val c.id fun c => { c with st := 1 }
      let reads := c.op = 0x65 && 1 ≤ recBits c.main 10 8 && recBits c.main 10 8 ≤ 5
      if reads && (s.tile t.val).marked (recBits c.main 277 256) (remoteBytes c.main) then
        .next ((s.dropFab t.val c.id).fault t.val 0x111 c.addr c.op)
      else
        let q := if reads then s.sramRead t.val sram else (s, false)
        if q.2 then .next ((q.1.dropFab t.val c.id).fault t.val 0x112 c.addr c.op)
        else
          let s := q.1
          match c.op with
          | 0x61 => .next (s.startStream t.val c)
          | 0x62 => .next (s.startCopy t.val c)
          | 0x63 => .next (s.onFabCmd t.val c.id fun c =>
              { c with due := if recBits c.main 383 352 = 0 then 0 else s.now + 1000 * recBits c.main 383 352 })
          | 0x65 => .next (s.startRemote t.val c)
          | _ => .next s

/-! ### Completion of the fabric commands -/

/-- The command in place i of tile t's fabric queue. -/
def State.fabAt (s : State) (t i op : Nat) : Option FabCmd :=
  match (s.tile t).fabq[i]? with
  | some c => if c.op = op then some c else none
  | none => none

/-- A transfer that has put a poisoned unit of HBM into a local store completes, and its sequencer faults (R392). -/
def State.spoil (s : State) (t : Nat) (c : FabCmd) : State := if c.spoiled then s.fault t 0x111 c.addr c.op else s

/-- A fabric command completes (R481): its status record, whose bytes 1 to 7 have no stated value, and its post.
DEDUCED, log 70. -/
def State.finishFab (s : State) (t : Nat) (c : FabCmd) (status : Nat) : State :=
  let d := s.draws 8 7
  let b := BitVec.ofNat 8 status :: d.1.map (BitVec.ofNat 8) ++ toBytes 8 s.now
  (((d.2.onTile t fun x => x.put (recBits c.main 341 320) b false).dropFab t c.id).postIf t c.main).spoil t c

/-- Whether a request that serves a command is outstanding. -/
def State.serves (s : State) (t id : Nat) : Bool := s.fab.reqs.any fun (r : Req) => r.why.serves t id

/-- REMOTE_DONE (R145, R481): every packet is answered. -/
def execRemoteDone (t : TileIx) (i : Fin 16) (s : State) : Out :=
  match s.fabAt t.val i.val 0x65 with
  | some c => if c.st ≠ 1 || s.serves t.val c.id then .next s else .next (s.finishFab t.val c c.status)
  | none => .next s

/-- A transfer fails its check twice on a copy engine and is made again on another; the third within 1 h retires the
engine (R745). -/
def State.engineFault (s : State) (e : Nat) : State :=
  if !bit s.flash.engines e then s
  else
    let s := s.report 2 6 0x232 e
    let s := { s with err := { s.err with engineTimes := Tbl.upd [] s.err.engineTimes e fun ts =>
      (ts.filter fun x => s.now - x ≤ 3600000000000) ++ [s.now] } }
    if 3 ≤ (Tbl.get [] s.err.engineTimes e).length then
      State.report { s with flash := { s.flash with engines := s.flash.engines - 2 ^ e } } 3 6 0x233 e
    else s

/-- COPY_DONE (R145, R481, R514, R744, R745): every write is acknowledged, or a read has been refused. A buffer word that
is uncorrectable on the second transfer too ends the copy with POISONED. What it has read and not written is written
first. -/
def execCopyDone (t : TileIx) (i : Fin 16) (engines : List (Fin 16)) (spoiled : Bool) (s : State) : Out :=
  let s := match s.fabAt t.val i.val 0x62 with
    | some c => s.copyFlush t.val c
    | none => s
  match s.fabAt t.val i.val 0x62 with
  | some c =>
    if c.st ≠ 1 || (!c.ended && s.serves t.val c.id) then .next s
    else
      let s := engines.foldl (fun (s : State) e => s.engineFault e.val) s
      .next (s.finishFab t.val c (if c.status = 0 && spoiled then 4 else c.status))
  | none => .next s

/-- CTR_WAIT_DONE (R481, R516): the counter is at or above the count. -/
def execCtrWaitDone (t : TileIx) (i : Fin 16) (s : State) : Out :=
  match s.fabAt t.val i.val 0x63 with
  | some c =>
    if c.st ≠ 1 || Tbl.get 0 s.fab.arrive (recBits c.main 299 288) < recBits c.main 127 64 then .next s
    else .next (s.finishFab t.val c 0)
  | none => .next s

/-- CTR_WAIT_TIMEOUT (R481, R516). -/
def execCtrWaitTimeout (t : TileIx) (i : Fin 16) (s : State) : Out :=
  match s.fabAt t.val i.val 0x63 with
  | some c => if c.st ≠ 1 || c.due = 0 || s.now < c.due then .next s else .next (s.finishFab t.val c 0xC)
  | none => .next s

/-- Whether an operation of tile u's command id, numbered num, lies in a FENCE's scope (R510, R862). -/
def FabCmd.covers (c : FabCmd) (t u id num : Nat) : Bool :=
  (bit (field c.main 0 4) 17 || u == t) && (num < c.mark || c.old.contains (u, id))

/-- Whether an operation in a FENCE's scope has not completed (R510, R511). -/
def State.fencePending (s : State) (t : Nat) (c : FabCmd) : Bool :=
  (s.fab.reqs.any fun (r : Req) => numberedOp r.pkt.op && match r.why with
    | .remote u id _ => c.covers t u id r.num
    | .copyWrite u id => c.covers t u id r.num
    | .drain u id => c.covers t u id r.num
    | _ => false) ||
  c.old.any fun q => match s.fabCmd q.1 q.2 with
    | some d => d.st == 0 || !d.parts.isEmpty || (!d.ended && s.fab.reqs.any fun (r : Req) => match r.why with
        | .copyRead u id _ => (u, id) == q
        | _ => false)
    | none => false

/-- FENCE_DONE (R145, R481, R510 to R512, R862): the failure of the lowest request that no FENCE has reported. -/
def execFenceDone (t : TileIx) (i : Fin 16) (s : State) : Out :=
  match s.fabAt t.val i.val 0x64 with
  | some c =>
    if c.st ≠ 1 || s.fencePending t.val c then .next s
    else
      let bad := s.fab.refused.filter fun r => c.covers t.val r.1 r.2.1 r.2.2.1
      let st := bad.foldl (fun (b : Nat × Nat) r => if b.2 = 0 || r.2.2.1 < b.1 then (r.2.2.1, r.2.2.2) else b) (0, 0)
      let s := s.onFab fun f => { f with refused := f.refused.filter fun r => !c.covers t.val r.1 r.2.1 r.2.2.1 }
      .next (s.finishFab t.val c st.2)
  | none => .next s

/-! ### Completion of streams (R458 to R462) -/

/-- After RECOMPUTE or FAILED a stream's destination holds free values (R460, log 102). -/
def State.voidStream (s : State) (c : FabCmd) : State :=
  let dst := recBits c.main 255 192
  let n := recBits c.main 159 128
  let d := s.draws 8 n
  let f := d.2.draw 8
  if s.writeFault dst n ≠ 0 then s else f.2.memWrite dst (d.1.map (BitVec.ofNat 8)) f.1

/-- A stream completes: its status record, its count, its event and its post. -/
def State.finishStream (s : State) (t : Nat) (c : FabCmd) (outcome err lateUs : Nat) : State :=
  let s := if outcome = 4 || outcome = 5 then s.voidStream c else s
  let b : Bytes := [BitVec.ofNat 8 outcome, BitVec.ofNat 8 err, 0, 0] ++ toBytes 4 lateUs ++ toBytes 8 s.now
  let s := (s.onTile t fun x => x.put (recBits c.main 341 320) b false).dropFab t c.id
  let s := s.onTier fun x => match outcome with
    | 2 => { x with waited := satAdd 16 x.waited 1 }
    | 3 => { x with stale := satAdd 16 x.stale 1 }
    | 4 => { x with recompute := satAdd 16 x.recompute 1 }
    | 5 => { x with failed := satAdd 16 x.failed 1 }
    | _ => x
  let s := if outcome = 5 then s.raise { code := 0x24, payload := [recBits c.main 127 64, err] } else s
  (s.postIf t c.main).spoil t c

/-- A stream's fetch is cancelled and its fallback taken with an ERROR (R459, R460). The fetch of one that waits goes on past
the deadline. -/
def State.fallBack (s : State) (t : Nat) (c : FabCmd) (err : Nat) (failed : Bool) : State :=
  match recBits c.main 10 8 with
  | 1 => (s.cancelStream t c.id).finishStream t c 4 err 0
  | 2 => (s.cancelStream t c.id).onFabCmd t c.id fun c => { c with st := 2, status := err }
  | _ =>
    if failed then (s.cancelStream t c.id).finishStream t c 5 err 0
    else s.onFabCmd t c.id fun c => { c with late := true }

/-- STREAM_DATA_DONE (R145, R458 to R460, R462): the fetch has ended, or has been refused. -/
def execStreamDataDone (t : TileIx) (i : Fin 16) (s : State) : Out :=
  match s.fabAt t.val i.val 0x61 with
  | some c =>
    if c.st ≠ 1 then .next s
    else if c.ended then .next (s.fallBack t.val c c.status true)
    else if s.serves t.val c.id then .next s
    else if c.since ≤ c.due then .next (s.finishStream t.val c 1 0 0)
    else if recBits c.main 10 8 = 0 then .next (s.finishStream t.val c 2 1 ((c.since - c.due) / 1000))
    else .next (s.fallBack t.val c 1 false)
  | none => .next s

/-- STREAM_DEADLINE (R459, R460): the deadline passes before the fetch has ended. -/
def execStreamDeadline (t : TileIx) (i : Fin 16) (s : State) : Out :=
  match s.fabAt t.val i.val 0x61 with
  | some c =>
    if 2 ≤ c.st || c.late || c.ended || s.now < c.due || (c.st = 1 && !s.serves t.val c.id) then .next s
    else .next (s.fallBack t.val c (if c.status = 5 then 5 else 1) false)
  | none => .next s

/-- STREAM_STALE_COPY_DONE (R392, R458, R460): the stale copy has landed. -/
def execStreamStaleCopyDone (t : TileIx) (i : Fin 16) (s : State) : Out :=
  match s.fabAt t.val i.val 0x61 with
  | some c =>
    if c.st ≠ 2 then .next s
    else
      let n := recBits c.main 159 128
      let dst := recBits c.main 255 192
      let code := if s.mapped (recBits c.main 319 256) n then s.writeFault dst n else 0x107
      if code ≠ 0 then .next (s.fabFault t.val c.id code)
      else
        let r := s.moveRead (recBits c.main 319 256) n
        let c := { c with spoiled := s.intoStore dst && r.1.any fun u => u.2.2.1 }
        .next (((r.2.moveWrite dst r.1).countFab t.val n).finishStream t.val c 3 c.status 0)
  | none => .next s

end Sys2Proof.Machine
end

