-- ==== Sys2Proof/Machine/Trust.lean ====
section
/-! DEFINITION. Quotes (R785, R794 to R797), documents sent in parts (R796, R831), data that a load command names (R583),
and the staging and activation of firmware (R798 to R800). -/

namespace Sys2Proof.Machine

/-! ### Documents in parts (R796, R831) -/

/-- The reply to a request for a part of a document: none where the part is beyond the last. -/
def docPart (m part : Nat) (d : Doc) : Option Bytes :=
  let w := max 1 (m - 16)
  let n := ceilDiv d.bytes.length w
  if n ≤ part then none
  else some (toBytes 4 d.id ++ toBytes 2 part ++ toBytes 2 n ++ toBytes 4 d.bytes.length ++ [0, 0, 0, 0] ++
    (d.bytes.drop (part * w)).take w)

/-- Answers a command with part `part` of the document that its session keeps under number `id`: EXPIRED where it holds
it no longer, INVALID where the part is beyond the last (R795). -/
def State.answerPart (s : State) (c : PendCmd) (kept : Session → Option Doc) (id part : Nat) : State :=
  match s.session c.session with
  | none => s
  | some x => match kept x with
    | none => s.answer c 0xB
    | some d =>
      if d.id ≠ id then s.answer c 0xB
      else match docPart x.msgMax part d with
        | some b => s.answer c 0 b
        | none => s.answer c 2

/-- The final reply of a command with part 0 of a new document. -/
def State.finishDoc (s : State) (c : PendCmd) (d : Doc) : State :=
  match s.session c.session with
  | some x => s.finish c 0 ((docPart x.msgMax 0 d).getD [])
  | none => s.finish c 0

/-! ### Data that a load command names (R583) -/

/-- The data of a load: bytes of populated HBM whose sum is the check value; none where the range lies elsewhere, holds
poison, or fails the check (log 45). -/
def State.loadData (s : State) (src len check : Nat) : Option Bytes × State :=
  if len = 0 || !s.inHbm src len then (none, s)
  else
    let r := s.memRead src len
    (if r.2.1 || checkOf r.1 ≠ check then none else some r.1, r.2.2)

/-! ### The attestation key and quotes (R785, R794) -/

/-- MEASURE_i. -/
def Boot.m (b : Boot) (i : Nat) : Bytes := slice (nth b.measure i []) 0 32

/-- MEASURE_0 to MEASURE_3. -/
def Boot.m03 (b : Boot) : Bytes := b.m 0 ++ b.m 1 ++ b.m 2 ++ b.m 3

/-- The 48 seed bytes of the attestation key (R785). -/
def Boot.akSeed (b : Boot) : Bytes := hkdf Config.deviceSecret [] (ascii "sh2 ak" ++ b.m03) 48

/-- A quote without its signature: bytes 0 to 33,087 (R794). -/
def State.quoteBody (s : State) (nonce : Bytes) : Bytes :=
  let b := s.boot
  let serial := slice Config.serial 0 16
  let pub := slice (Config.akPub b.akSeed) 0 32
  let vers := toBytes 4 b.svn ++ toBytes 4 s.flash.svnFloor
  let epoch : Bytes := toBytes 1 s.flash.bootEpoch
  toBytes 4 1 ++ toBytes 4 50176 ++ serial ++ slice Config.idPub 0 48 ++ pub ++ slice nonce 0 32 ++ toBytes 8 s.now ++
    toBytes 4 (s.fab.device + 2 ^ 18 * b2n s.fab.numbered) ++ epoch ++
    toBytes 1 (b.bootSel + 4 * b.slot + 8 * b2n b.fallback) ++ toBytes 1 s.hal.job ++ [0] ++ vers ++
    toBytes 8 s.step.committed ++ (List.range 8).flatMap b.m ++ List.replicate 216 0 ++ slice Config.idCert 0 16224 ++
    slice (Config.idSign (serial ++ pub ++ epoch ++ vers ++ b.m03)) 0 16224

/-- A pending QUOTE reads the registers, and waits for its signature (R783, R786, R795). -/
def State.quoteRead (s : State) (c : PendCmd) : State :=
  let body := s.quoteBody c.data
  let s := s.onHal fun h => { h with cmds := h.cmds.map fun q =>
    if q.session = c.session && q.seq = c.seq then { q with data := body, args := [1] } else q }
  s.onBoot fun b => { b with signing := b.signing ++ [(1, c.session * 2 ^ 32 + c.seq)] }

/-- QUOTE (R588, R783, R795, R796). -/
def execQuote (h : Hdr) (pay : List Byte) (s : State) : Out :=
  .next (s.command h 0x206 anyJob true fun c s =>
    if pay.length ≠ 40 || field pay 38 2 ≠ 0 then s.answer c 2
    else if field pay 32 4 ≠ 0 then s.answerPart c (·.quote) (field pay 32 4) (field pay 36 2)
    else
      let c := { c with data := slice pay 0 32, args := [0] }
      let s := s.pend c
      if s.boot.akReady then s.quoteRead c else s)

/-- AK_READY (R785, R795): the quotes that waited for it read the registers. -/
def execAkReady (s : State) : Out :=
  if s.boot.akReady || !s.boot.rails then .next s
  else
    let s := s.onBoot fun b => { b with akReady := true }
    .next ((s.pendingOf 0x206).foldl (fun (s : State) c => s.quoteRead c) s)

/-- QUOTE_SIGNED (R786, R794 to R796). -/
def execQuoteSigned (s : State) : Out :=
  match s.boot.signing with
  | (1, k) :: t =>
    let s := s.onBoot fun b => { b with signing := t }
    match s.hal.cmds.find? fun c => c.code == 0x206 && c.session * 2 ^ 32 + c.seq == k with
    | none => .next s
    | some c =>
      let sig := slice (Config.akSign s.boot.akSeed c.data) 0 17088
      let id := match s.session c.session with | some x => x.nextQuote | none => 1
      let d : Doc := { id := id, bytes := c.data ++ sig }
      .next ((s.onSession c.session fun x => { x with quote := some d, nextQuote := id + 1 }).finishDoc c d)
  | _ => .next s

/-! ### Staging (R798 to R800) -/

/-- The staging slot: the one that is not the boot slot (R768). -/
def Flash.staging (f : Flash) : Nat := 1 - f.bootSlot

/-- FW_STAGE (R583, R588, R768, R772, R798, R799): while the image is being written the slot is empty. -/
def execFwStage (h : Hdr) (pay : List Byte) (s : State) : Out :=
  .next (s.command h 0x207 anyJob false fun c s =>
    if pay.length ≠ 24 || field pay 12 4 ≠ 0 || 2 ^ 25 < field pay 8 4 then s.answer c 2
    else
      let r := s.loadData (field pay 0 8) (field pay 8 4) (field pay 16 8)
      match r.1 with
      | none => r.2.answer c 2
      | some b => (r.2.pend { c with data := b }).putImage s.flash.staging {})

/-- FW_STAGE_DONE (R798): the checks and the writing have ended; `written` says whether the image read back right. -/
def execFwStageDone (written : Bool) (s : State) : Out :=
  match s.pendingOf 0x207 with
  | [] => .next s
  | c :: _ =>
    if s.imageCause c.data ≠ 0 then .next (s.finish c 2)
    else if !written then .next (s.finish c 0xC)
    else
      let s := s.putImage s.flash.staging { bytes := c.data, staged := true }
      .next (s.finish c 0 (toBytes 4 (field c.data 4 4) ++ toBytes 8 (field c.data 8 8)))

/-- FW_ACTIVATE (R588, R800): OK is sent before the reset. -/
def execFwActivate (h : Hdr) (pay : List Byte) (sel : BitVec 2) (s : State) : Out :=
  .next (s.command h 0x208 inNone false fun c s =>
    let k := s.flash.staging
    if pay.length ≠ 8 || 2 ≤ field pay 0 1 || field pay 1 7 ≠ 0 || !(s.flash.image k).staged then s.answer c 2
    else
      let s := (s.answer c 0).cancelAll
      let s := { s with flash := { s.flash with trial := some (k, bit (field pay 0 1) 0) } }
      s.deviceReset.startFrom sel.toNat)

end Sys2Proof.Machine
end

