-- ==== Sys2Proof/Machine/HalMem.lean ====
section
/-! DEFINITION. MEM_READ, MEM_WRITE and CTL_READ (R582, R584), and what the memory has held. -/

namespace Sys2Proof.Machine

/-- Whether a range is what MEM_READ and MEM_WRITE reach: populated HBM, or pages of the tiered range that are not ABSENT
(R62, R429, R582). -/
def State.memReach (s : State) (a n : Nat) : Bool := n ≠ 0 && (s.inHbm a n || s.tierMapped a n)

/-- A reply BUSY with its retry-after time in us (R577, R589). -/
def State.answerBusy (s : State) (c : PendCmd) : State :=
  let d := s.draw 32
  d.2.answer c 5 (toBytes 4 (1 + d.1 % 1000000))


/-- The numbers of the requests made from number n on that serve a command (R429, R448, R582). -/
def State.memWaits (s : State) (n : Nat) : List Nat :=
  (s.fab.reqs.filter fun (r : Req) => n ≤ r.num && (match r.why with
    | .mem _ _ _ => true | .buddy _ => true | _ => false)).map (·.num)

/-- Reads a range for MEM_READ: what lies at another home is asked for there. The range is widened to whole words, which
is what Tarilama reads (R476). -/
def State.memFetch (s : State) (a n session seq : Nat) : Bytes × Bool × State :=
  let s := s.combineAt a n
  (s.places a n false).foldl (fun (r : Bytes × Bool × State) p =>
    match p.2.2.2 with
    | .far q home key =>
      let s := r.2.2.touch q (granules p.2.1 p.2.2.1)
      (r.1 ++ List.replicate p.2.2.1 0, r.2.1,
       (cut s.maxPayload p.2.2.1 p.1 (List.replicate p.2.2.1 0)).foldl (fun (s : State) c =>
         s.sendReq (addrDev home) 1 (2 ^ 62 + (home + (c.1 - p.1))) [] key c.2.length 0 0 (.mem session seq c.1)) s)
    | _ => let g := r.2.2.getSpan p.2.1 p.2.2.1; (r.1 ++ g.1, r.2.1 || g.2.1, g.2.2)) ([], false, s)

/-- MEM_READ of a range that the memory lets through (R392, R429, R582): poison makes it fail; a page that lives at another
home makes it wait. -/
def State.doMemRead (s : State) (c : PendCmd) (a n : Nat) (errs : List UnitErr) : State :=
  let lo := a / 4 * 4
  let len := roundUp (a + n) 4 - lo
  let s := s.rangeErrs a n errs
  let k := s.fab.nextReq
  let r := s.memFetch lo len c.session c.seq
  let ws := r.2.2.memWaits k
  if r.2.1 then r.2.2.answer c 0xC [4]
  else if ws.isEmpty then r.2.2.answer c 0 (slice r.1 (a - lo) n)
  else r.2.2.pend { c with args := [a - lo, n], data := r.1, waits := ws }

/-- MEM_WRITE of a range that the memory lets through (R429, R448, R582): what goes on to another home makes it wait. -/
def State.doMemWrite (s : State) (c : PendCmd) (a : Nat) (data : Bytes) : State :=
  let k := s.fab.nextReq
  let s := (s.memWrite a data 0).claim k (.mem c.session c.seq 0)
  let ws := s.memWaits k
  if ws.isEmpty then s.answer c 0 else s.pend { c with args := [0, 0], waits := ws }

/-- MEM_READ (R62, R392, R582, R588): BUSY and held where a remote access would be (R416; R253, R400, R402, R404, R432). -/
def execMemRead (h : Hdr) (a n : Nat) (errs : List UnitErr) (s : State) : Out :=
  .next (s.command h 0x101 anyJob true fun c s =>
    let most := match s.session h.session with | some x => x.msgMax | none => 0
    if most < n || !s.memReach a n then s.answer c 2
    else if s.relaying a n then s.answerBusy c
    else if (s.memHoldAt a n false).isSome then s.pend { c with args := [a, n], held := true }
    else s.doMemRead c a n errs)

/-- MEM_WRITE (R62, R245, R448, R582, R588). -/
def execMemWrite (h : Hdr) (a : Nat) (data : List Byte) (s : State) : Out :=
  .next (s.command h 0x102 anyJob false fun c s =>
    let most := match s.session h.session with | some x => x.msgMax - 16 | none => 0
    let n := data.length
    if most < n || !s.memReach a n then s.answer c 2
    else if s.hal.job = 2 && s.meetsViews a n then s.answer c 7
    else if s.tandemRefuses a n || s.relaying a n then s.answerBusy c
    else if (s.memHoldAt a n true).isSome then s.pend { c with args := [a, n], data := data, held := true }
    else s.doMemWrite c a data)

/-- A command that the memory holds is looked at again. -/
def State.memAgain (s : State) (c : PendCmd) : State :=
  let a := nth c.args 0 0
  let n := nth c.args 1 0
  let rd := c.code = 0x101
  let gone (s : State) : State :=
    { s with hal := { s.hal with cmds := s.hal.cmds.filter fun q => !(q.session == c.session && q.seq == c.seq) } }
  let c' := { c with args := [], data := [], held := false }
  if !s.memReach a n then (gone s).answer c' 2
  else if s.relaying a n || (!rd && s.tandemRefuses a n) then (gone s).answerBusy c'
  else if (s.memHoldAt a n !rd).isSome then s
  else if rd then (gone s).doMemRead c' a n [] else (gone s).doMemWrite c' a c.data

/-- What waited at this device's own home goes on once a held request has been looked at: COPYs write what they have read
here, and MEM_READs and MEM_WRITEs are tried again. -/
def State.goOn (s : State) : State :=
  let s := s.copyFlushAll
  (s.hal.cmds.filter fun c => memCode c.code && c.held).foldl (fun (s : State) c => s.memAgain c) s

/-- HOME_QUEUE_RELEASE (R47, R253, R400, R404, R432, R492, R493, R495, R500): entry i of the home queue is looked at again,
and with it what the memory has held of MEM_READ and MEM_WRITE, and what COPYs have read of this device's own memory. -/
def execHomeQueueRelease (i : Fin 256) (s : State) : Out :=
  .next (s.release i.val).goOn

/-- CTL_READ (R584, R588, R649). -/
def execCtlRead (h : Hdr) (o n : Nat) (s : State) : Out :=
  .next (s.command h 0x103 anyJob true fun c s =>
    let most := match s.session h.session with | some x => min 4096 x.msgMax | none => 0
    if n = 0 || most < n || 2 ^ 28 < o + n then s.answer c 2
    else let r := s.ctlRead o n; r.2.answer c 0 r.1)

end Sys2Proof.Machine
end

