-- ==== Sys2Proof/Machine/HalJob.lean ====
section
/-! DEFINITION. The job (R54, R579 to R581): PROGRAM_LOAD, JOB_START, JOB_STOP, JOB_RETRY and JOB_UNLOAD, and the orders
that the top lead carries to every device; TANDEM_SET (R241, R242); SNAPSHOT_SHIP (R266 to R269). -/

namespace Sys2Proof.Machine

/-! ### The program (R54, R204, R248, R579, R581, R637, R650, R782) -/

/-- The regions of a tile set. -/
def regionsOf (tiles : List Nat) : List Nat := (List.range 16).filter fun g => tiles.any fun t => t / 12 == g

/-- Rein powers on the regions of the tile set (R650). -/
def State.wantTiles (s : State) : State :=
  (regionsOf s.step.tileSet).foldl (fun (s : State) g => s.wantRegion g false) s

/-- The sequencers, their queues and their stacks end with the job that they served. -/
def State.endTiles (s : State) : State :=
  let s := (List.range 192).foldl (fun (s : State) t => s.stopTile t) s
  s.allTiles fun _ x => { x with pn := { x.pn with main := [], ckpt := [] } }

/-- What still waits on the job that ends: a JOB_STOP and a SNAPSHOT_SHIP are CANCELLED (R589; DEDUCED, log 50). -/
def State.cancelJob (s : State) : State :=
  let s := match s.step.ship with | some x => s.shipEnd x 0xD | none => s
  s.finishAll 0x10A 0xD

/-- PROGRAM_LOAD (R53, R54, R204, R248, R581, R583, R588): a tile set that is empty, or that names a tile twice or an
UNBACKED tile, is INVALID (log 50). -/
def execProgramLoad (h : Hdr) (load : Load) (tiles : List TileIx) (mb : Nat) (s : State) : Out :=
  .next (s.command h 0x104 (inNone + inHalted) false fun c s =>
    let ts := tiles.map (·.val)
    if mb = 0 || 254 < mb || ts.isEmpty || !(ts.Nodup : Bool) || ts.any (fun t => (s.slotOf t).isNone) then s.answer c 2
    else
      let r := s.loadData load.src load.len load.check
      match r.1 with
      | none => r.2.answer c 2
      | some b => r.2.pend { c with args := mb :: ts, data := b })

/-- A job is loaded (R204, R242, R247, R248, R364, R579, R581, R637, R650): its steps are counted from the load that
leaves NONE; a load in HALTED keeps the Tandem areas and the tables, and the step it failed in begins anew. -/
def State.loadJob (s : State) (program : Bytes) (mb : Nat) (tiles : List Nat) : State :=
  let fresh := s.hal.job == 0
  let s := s.endTiles.clearCounts.cancelJob
  let s := s.onStep fun x =>
    { x with program := program, tileSet := tiles, mbCount := mb, st := 0, attempt := 0, written := [], firstCopies := 0
             committed := if fresh then 0 else x.committed, repeats := if fresh then 0 else x.repeats
             repeating := none, stopping := false, afterSwap := false, drained := false }
  let s := (s.onPwr fun p => { p with learn := [] }).phasesZero
  ((s.onRed fun r => { r with ledger := 0, stopping := false, repeatsRow := 0, deciding := none }).setJob 1).wantTiles

/-- PROGRAM_LOAD_DONE (R579, R581, R588, R782). -/
def execProgramLoadDone (s : State) : Out :=
  match s.pendingOf 0x104 with
  | [] => .next s
  | c :: _ => match c.args with
    | mb :: ts => .next (((s.loadJob c.data mb ts).extend 4 0x104 (sha256 c.data)).finish c 0)
    | [] => .next (s.finish c 2)

/-! ### The Tandem area (R241, R242, R782) -/

/-- Whether a view may lie at an offset (R241). -/
def State.viewOk (s : State) (a units : Nat) : Bool :=
  aligned a 65536 && (s.inHbm a (65536 * units) || inTier a (65536 * units))

/-- TANDEM_SET (R241, R242, R588, R782). -/
def execTandemSet (h : Hdr) (pay : List Byte) (a u units : Nat) (s : State) : Out :=
  .next (s.command h 0x105 inNone false fun c s =>
    let w := 65536 * units
    if units = 0 || 4194304 < units || !s.viewOk a units || !s.viewOk u units || overlaps a w u w then s.answer c 2
    else
      let s := s.onStep fun x =>
        { x with viewA := a, viewU := u, units := units, enabled := true, active := [], written := [] }
      (s.extend 5 0x105 (sha256 pay)).answer c 0)

/-! ### The job's orders (R364, R366, R367, R370, R579, R580, R695) -/

/-- Whether this device is its job's top lead (R370, R580). -/
def State.topLead (s : State) : Bool := s.red.lead && s.red.leadAbove.isNone

/-- JOB_START (R364, R580, R588, R769): in PROVISION it is refused. -/
def execJobStart (h : Hdr) (s : State) : Out :=
  .next (s.command h 0x109 inLoaded false fun c s =>
    if !s.topLead || s.boot.bootSel = 2 then s.answer c 7
    else ((s.openLedger 1 s.stepNo 0 0).toMembers 12 [0]).answer c 0)

/-- JOB_STOP (R580, R588): it takes effect at the next commit. -/
def execJobStop (h : Hdr) (s : State) : Out :=
  .next (s.command h 0x10A inRunning false fun c s =>
    if !s.topLead then s.answer c 7
    else ((s.pend c).onRed fun r => { r with stopping := true }).toMembers 12 [1])

/-- JOB_RETRY (R364 to R366, R580, R588): one further repeat, and the count of consecutive repeats restarts. A step whose
commit has been sent to the standby is not repeated; a repeat that has been sent to it is the one that JOB_RETRY orders
(DEDUCED, log 103). -/
def execJobRetry (h : Hdr) (s : State) : Out :=
  .next (s.command h 0x10B inHalted false fun c s =>
    if !s.topLead || 255 ≤ s.red.attempt || s.red.deciding.any (·.commit) then s.answer c 7
    else
      let s := (s.onRed fun r => { r with repeatsRow := 0 }).toMembers 12 [2]
      if s.red.deciding.isSome then s.answer c 0
      else
      let o : Order := { commit := false, step := s.red.step, attempt := s.red.attempt + 1, cause := s.red.cause
                         patches := s.red.patches }
      (State.leadDecide s o).answer c 0)

/-- JOB_UNLOAD (R247, R364, R579, R588). -/
def execJobUnload (h : Hdr) (s : State) : Out :=
  .next (s.command h 0x10C (inLoaded + inHalted) false fun c s =>
    let s := s.endTiles.clearCounts.cancelJob
    let s := s.onStep fun x =>
      { x with program := [], tileSet := [], mbCount := 0, st := 0, attempt := 0, written := [], firstCopies := 0
               repeating := none, stopping := false, afterSwap := false, drained := false }
    ((s.onRed fun r => { r with ledger := 0, stopping := false, deciding := none }).setJob 0).answer c 0)

/-- A job starts on this device (R253, R360, R579, R637, R650, R695): attempt 0 of the step after COMMITTED. -/
def State.startJob (s : State) : State :=
  if s.hal.job ≠ 1 then s
  else
    let s := (s.clearCounts.setJob 2).onStep fun x => { x with st := 1, since := s.now, attempt := 0, written := [], firstCopies := 0 }
    (s.jobStarted.phasesZero.wantTiles).startAll

/-- An order of the top lead as its own ledger takes it on a lead below (R370). -/
def State.relayOrder (s : State) (o : JobOrder) : State :=
  match o with
  | .start => (s.openLedger 1 s.stepNo 0 0).toMembers 12 [0]
  | .stop => (s.onRed fun r => { r with stopping := true }).toMembers 12 [1]
  | .retry => (s.onRed fun r => { r with repeatsRow := 0 }).toMembers 12 [2]
  | .failed => (s.onRed fun r => { r with ledger := 5 }).toMembers 12 [3]

/-- An order as a number. -/
def jobOrderNum (o : JobOrder) : Nat :=
  match o with
  | .start => 0
  | .stop => 1
  | .retry => 2
  | .failed => 3

/-- A device that is no lead keeps whether the ledger of its team has failed, for the case that it takes the lead over (R364,
R372). -/
def State.follow (s : State) (st : Nat) : State := if s.red.lead then s else s.onRed fun r => { r with ledger := st }

/-- JOB_ORDER_RECEIVED (R367, R370, R372, R579, R580): a lead that another has replaced is not heard. -/
def execJobOrderReceived (p : Pkt) (o : JobOrder) (s : State) : Out :=
  ledgerRow 12 [jobOrderNum o] p (fun s =>
    if s.fromAbove p.src then s.relayOrder o
    else match o with
    | .start => (s.follow 1).startJob
    | .stop => if s.hal.job = 2 then s.onStep fun x => { x with stopping := true } else s
    | .retry => let s := s.follow 1; if s.hal.job = 3 then (s.setJob 2).jobStarted else s
    | .failed => (s.follow 5).halt) s

/-! ### Snapshots -/

/-- SNAPSHOT_SHIP (R266, R269, R588): a range of the active view, a destination of scope 0b01, and a step not yet
committed or 0. -/
def execSnapshotShip (h : Hdr) (off len dst key step : Nat) (s : State) : Out :=
  .next (s.command h 0x110 inRunning false fun c s =>
    let inView := s.step.enabled && s.step.viewA ≤ off && off + len ≤ s.step.viewA + 65536 * s.step.units
    if s.step.ship.isSome then s.answer c 3
    else if len = 0 || !inView || addrScope dst ≠ 1 || 2 ^ 32 ≤ key || (step ≠ 0 && step < s.stepNo) then s.answer c 2
    else (s.pend c).onStep fun x => { x with ship := some { cmd := c, off := off, len := len, dst := dst, key := key, at_ := step } })

end Sys2Proof.Machine
end

