-- ==== Sys2Proof/Machine/HalFab.lean ====
section
/-! DEFINITION. The device's place in the hall: DEV_NUMBER_SET (R467, R468), TEAM_LOAD (R349 to R352, R370), STANDBY_SET
(R371), the region table (R496, R497, R499), and GROUP_LOAD (R471, R472). -/

namespace Sys2Proof.Machine

/-- DEV_NUMBER_SET (R467, R468, R555, R588, R782): a number that a neighbour holds is refused. -/
def execDevNumberSet (h : Hdr) (pay : List Byte) (n : Nat) (s : State) : Out :=
  .next (s.command h 0x301 inNone false fun c s =>
    let held := s.ports.any fun p => match p.nbr with | some x => x.numbered && x.device == n | none => false
    if 2 ^ 18 ≤ n then s.answer c 2
    else if held then s.answer c 3
    else
      let s := s.onFab fun f => { f with device := n, numbered := true }
      let s := (List.range 18).foldl (fun (s : State) p => s.lldpSoon p) s
      (s.extend 6 0x301 (sha256 pay)).answer c 0)

/-- Whether a value lies in a range. -/
def within (lo hi v : Nat) : Bool := lo ≤ v && v ≤ hi

/-- Whether a team may be loaded (R349, R350, R370): parameters in range, device numbers, sizes, and no node with more
children than FANIN. -/
def teamOk (t : Team) : Bool :=
  let devs := t.team ++ t.subLeads ++ [t.leadDev] ++ t.leadAbove.toList ++ t.standbyDev.toList ++
    t.trees.flatMap fun x => x.2.1.toList ++ x.2.2
  within 1 32 t.treesN && within 2 32 t.fanin && within 16 256 t.credits && within 1 8 t.headroom && within 1 16 t.ovfBump &&
    within 10 1000 t.beatTimeout && within 1 3600 t.hardLimit && within 1 255 t.repeatLimit &&
    t.team.length ≤ 1024 && t.team.contains t.leadDev && t.subLeads.length ≤ 1024 && devs.all (· < 2 ^ 18) &&
    t.trees.all (fun x => x.1 < t.treesN && x.2.2.length ≤ t.fanin) && ((t.trees.map fun x => x.1).Nodup : Bool)

/-- Bytes of the reduction buffer that a team's credits take on this device (R325, R351, R352): a tree that carries a GX64
tag has records of its length. -/
def State.teamBytes (s : State) (t : Team) : Nat :=
  t.trees.foldl (fun a x =>
    let wide := s.red.tags.any fun e => e.2.tree == x.1 && e.2.width == 1
    a + x.2.2.length * t.credits * gxLen (b2n wide)) 0

/-- TEAM_LOAD (R349 to R352, R364, R370, R371, R583, R588, R782). -/
def execTeamLoad (h : Hdr) (load : Load) (t : Team) (s : State) : Out :=
  .next (s.command h 0x302 inNone false fun c s =>
    let r := s.loadData load.src load.len load.check
    match r.1 with
    | none => r.2.answer c 2
    | some b =>
      let s := r.2
      if !teamOk t then s.answer c 2
      else if 2 ^ 20 < s.teamBytes t then s.answer c 4
      else
        let me := s.fab.device
        let s := s.onRed fun x =>
          { x with treesN := t.treesN, fanin := t.fanin, credits := t.credits, headroom := t.headroom
                   ovfBump := t.ovfBump, beatTimeout := t.beatTimeout, hardLimit := t.hardLimit
                   repeatLimit := t.repeatLimit, team := t.team, subLeads := t.subLeads, trees := t.trees
                   leadDev := t.leadDev, lead := t.leadDev = me, leadAbove := t.leadAbove, standbyDev := t.standbyDev
                   standby := t.standbyDev = some me && t.leadDev ≠ me, oldLeads := [], ledger := 0, creditsUsed := []
                   ctlUsed := [], ctlWait := [], subDone := [], waiting := [], beats := [], lateSince := [], heldDecision := none, deciding := none
                   lastHeart := s.now, silent := false }
        (s.extend 5 0x302 (sha256 b)).answer c 0)

/-- STANDBY_SET (R371, R588): a decision that waits for an acknowledgement goes to the standby now named. -/
def execStandbySet (h : Hdr) (dev : Nat) (s : State) : Out :=
  .next (s.command h 0x303 (anyJob - inNone) false fun c s =>
    if 2 ^ 18 ≤ dev then s.answer c 2
    else
      let s := s.onRed fun x =>
        { x with standbyDev := some dev, standby := !x.lead && dev = s.fab.device
                 lastHeart := if dev = s.fab.device then s.now else x.lastHeart, silent := false }
      match s.red.deciding with
      | some o => (if s.red.lead then s.askStandby dev o else s).answer c 0
      | none => s.answer c 0)

/-! ### The region table (R496 to R499) -/

/-- A region-table entry read from its 32 bytes. -/
def regionOf (b : Bytes) : RegionEnt := { base := field b 0 8, size := field b 8 8, key := field b 16 4, perm := field b 20 1 }

/-- Whether an entry may stand (R496, R497): no reserved field set, and, where it is VALID, BASE and SIZE as they must
be. -/
def regionOk (b : Bytes) : Bool :=
  let e := regionOf b
  b.length = 32 && e.perm < 16 && (b.drop 21).all (· == 0) &&
    (!bit e.perm 3 || (aligned e.base 65536 && aligned e.size 65536 && e.size ≠ 0 && e.base + e.size ≤ 2 ^ 44))

/-- Whether no two valid entries of a region table overlap (R497). -/
def regionsApart (t : Tbl RegionEnt) : Bool :=
  let v := t.filter fun e => bit e.2.perm 3
  v.all fun a => v.all fun b => a.1 == b.1 || !overlaps a.2.base a.2.size b.2.base b.2.size

/-- REGION_TABLE_LOAD (R496, R497, R499, R583, R588, R782). DEDUCED, log 85. -/
def execRegionTableLoad (h : Hdr) (pay : List Byte) (load : Load) (s : State) : Out :=
  .next (s.command h 0x304 anyJob false fun c s =>
    if load.len ≠ 131072 then s.answer c 2
    else
      let r := s.loadData load.src load.len load.check
      match r.1 with
      | none => r.2.answer c 2
      | some b =>
        let es := (List.range 4096).map fun i => slice b (32 * i) 32
        let t := es.zipIdx.foldl (fun (t : Tbl RegionEnt) e => Tbl.set {} t e.2 (regionOf e.1)) []
        if !es.all regionOk || !regionsApart t then r.2.answer c 2
        else
          let s := r.2.onFab fun f => { f with regions := t }
          (s.extend 6 0x304 (sha256 pay)).answer c 0)

/-- REGION_SET (R496, R497, R499, R588). -/
def execRegionSet (h : Hdr) (i : Nat) (entry : List Byte) (s : State) : Out :=
  .next (s.command h 0x305 anyJob false fun c s =>
    let t := Tbl.set {} s.fab.regions i (regionOf entry)
    if 4096 ≤ i || !regionOk entry || !regionsApart t then s.answer c 2
    else (s.onFab fun f => { f with regions := t }).answer c 0)

/-! ### Groups (R471, R472) -/

/-- GROUP_LOAD (R471, R472, R588, R782). -/
def execGroupLoad (h : Hdr) (pay : List Byte) (group root parent : Nat) (children : List Nat) (s : State) : Out :=
  .next (s.command h 0x307 anyJob false fun c s =>
    if 4096 ≤ group || 2 ^ 18 ≤ root || 2 ^ 18 ≤ parent || 32 < children.length || !children.all (· < 2 ^ 18) then s.answer c 2
    else
      let g : Group := { root := root, parent := parent, children := children }
      let s := s.onFab fun f => { f with groups := Tbl.set none f.groups group (some g) }
      (s.extend 6 0x307 (sha256 pay)).answer c 0)

end Sys2Proof.Machine
end

