-- ==== Sys2Proof/Machine/HalTab.lean ====
section
/-! DEFINITION. The tables of a job: TAG_TABLE_LOAD (R328, R329), PAGE_TABLE_LOAD and PAGE_SET (R426 to R428), TIER_BUDDY
(R452); PATH_TABLE_LOAD (R536). A table of 32 MiB is checked and copied as it lies in the memory, entry by entry of what
is not zero. -/

namespace Sys2Proof.Machine

/-! ### Large data -/

/-- The runs of a range of HBM as the Tandem views place them (R243): offset from its start, HBM address, length. -/
def State.runsAt (s : State) (a n : Nat) : List (Nat × Nat × Nat) :=
  (List.range ((a % 65536 + n + 65535) / 65536)).map fun i =>
    let lo := max a ((a / 65536 + i) * 65536)
    let hi := min (a + n) ((a / 65536 + i + 1) * 65536)
    (lo - a, s.storage lo false, hi - lo)

/-- Dorlen reads a range of HBM: the combining buffer writes out what it holds of it, and its units are decoded (R387,
R506). -/
def State.meetRange (s : State) (a n : Nat) : State :=
  let s := s.combineAt a n
  (s.runsAt a n).foldl (fun (s : State) r => s.decodeAt r.2.1 r.2.2) s

/-- The sum of the words of a range of HBM (R583). -/
def State.sumOfRange (s : State) (src n : Nat) : Nat :=
  ((s.runsAt src n).foldl (fun a r => (s.hbm.bytes.filter fun e => r.2.1 ≤ e.1 && e.1 < r.2.1 + r.2.2).foldl
    (fun a e => a + e.2.toNat * 2 ^ (8 * ((r.1 + (e.1 - r.2.1)) % 8))) a) 0) % 2 ^ 64

/-- Whether a unit of a range of HBM is poisoned, or lies in a channel that fails (R411). -/
def State.poisonIn (s : State) (src n : Nat) : Bool :=
  (s.runsAt src n).any fun r =>
    (s.hbm.unitMeta.any fun e => e.2.poison && overlaps (64 * e.1) 64 r.2.1 r.2.2) ||
      ((s.hbm.chans.any fun c => c.2.failing) &&
        (unitCut r.2.2 r.2.1 (List.replicate r.2.2 0)).any fun u => (s.chan (s.chanAt u.1)).failing)

/-- Whether the data that a load names is there and passes its check (R583, log 45). -/
def State.loadOk (s : State) (l : Load) : Bool :=
  s.inHbm l.src l.len && !s.poisonIn l.src l.len && s.sumOfRange l.src l.len == l.check

/-- Copies a range of HBM, its units written by Dorlen (R394, R395, R411). -/
def State.hbmCopy (s : State) (src dst n : Nat) : State :=
  let r := s.moveRead src n
  r.2.moveWrite dst (r.1.map fun u => (u.1, u.2.1, u.2.2.1, 0))

/-- The bytes of a range of HBM. -/
def State.hbmBytes (s : State) (a n : Nat) : Bytes :=
  (s.runsAt a n).flatMap fun r => Tbl.getList 0 s.hbm.bytes r.2.1 r.2.2

/-- The parts of `m` bytes each of a range of HBM that are not zero, by their number. -/
def State.partsIn (s : State) (src n m : Nat) : List Nat :=
  ((s.runsAt src n).flatMap fun r => (s.hbm.bytes.filter fun e => r.2.1 ≤ e.1 && e.1 < r.2.1 + r.2.2).map fun e =>
    (r.1 + (e.1 - r.2.1)) / m).eraseDups

/-! ### The tag table (R328, R329) -/

/-- An entry of the tag table read from its 64 bytes. -/
def tagOf (b : Bytes) : TagEnt :=
  { blocks := field b 0 4, rowBlocks := field b 4 2, width := field b 6 1, tree := field b 7 1, expAddr := field b 8 8
    holdAddr := field b 16 8, resultAddr := field b 24 8, doneCtr := field b 32 1 }

/-- Whether an array may lie at an offset (R329). -/
def State.arrayOk (s : State) (a n : Nat) : Bool := s.inHbm a n || inTier a n

/-- Whether an entry of the tag table may stand (R328, R329). DEDUCED, log 84. -/
def State.tagOk (s : State) (b : Bytes) : Bool :=
  let e := tagOf b
  e.blocks ≠ 0 && e.width ≤ 1 && e.tree < s.red.treesN && e.doneCtr ≤ 63 && (b.drop 33).all (· == 0) &&
    s.arrayOk e.expAddr (8 * e.blocks) && s.arrayOk e.holdAddr (holdLen e.width * e.blocks) &&
    s.arrayOk e.resultAddr (128 * e.blocks)

/-- TAG_TABLE_LOAD (R327 to R329, R583, R588, R782). -/
def execTagTableLoad (h : Hdr) (load : Load) (s : State) : Out :=
  .next (s.command h 0x106 inNone false fun c s =>
    let n := load.len / 64
    if load.len % 64 ≠ 0 || 2 ^ 20 < n then s.answer c 2
    else
      let r := s.loadData load.src load.len load.check
      match r.1 with
      | none => r.2.answer c 2
      | some b =>
        let es := (List.range n).map fun i => slice b (64 * i) 64
        if !es.all r.2.tagOk then r.2.answer c 2
        else
          let s := r.2.onRed fun x => { x with tagCount := n, tags := es.zipIdx.map fun e => (e.2, tagOf e.1) }
          (s.extend 5 0x106 (sha256 b)).answer c 0)

/-! ### The page table (R426 to R428) -/

/-- A page-table entry read from its 128 bits, and whether a reserved field or value is used (R426). -/
def pageOfBits (v : Nat) : Page × Bool :=
  ({ st := bits v 2 0, pin := bit v 3, stay := bit v 4, buddy := bit v 5, frame := bits v 25 8, key := bits v 63 32
     home := bits v 127 64 },
   bits v 7 6 ≠ 0 || bits v 31 26 ≠ 0 || 2 < bits v 2 0)

/-- Whether HOME may stand (R426): none, or a 2 MiB aligned address of scope 0b01 in an HBM window of another device. -/
def State.homeOk (s : State) (a : Nat) : Bool :=
  a = 0 || (addrScope a = 1 && aligned a (2 ^ 21) && addrOff a < 6 * 2 ^ 36 && !s.isOwn a)

/-- Whether an entry may stand, but for its frame (R427). An ABSENT page needs no home (DEDUCED, log 111). -/
def State.pageOk (s : State) (buddy : Nat) (e : Page) : Bool :=
  !(e.pin && e.stay) && !((e.st = 1 || e.stay) && e.home = 0) && !(e.st ≠ 0 && e.home = 0 && !e.pin) &&
    !(e.buddy && (!e.pin || e.home = 0 || addrDev e.home ≠ buddy)) && s.homeOk e.home

/-- The entries of a page table that are not zero, with their pages. -/
def State.tableEntries (s : State) (src : Nat) : List (Nat × Nat) :=
  (s.partsIn src (2 ^ 25) 16).map fun p => (p, fromBytes (s.hbmBytes (src + 16 * p) 16))

/-- Whether a frame list may stand (R428): 2 MiB aligned regions of populated HBM that do not overlap. -/
def State.framesOk (s : State) (fs : List Nat) : Bool :=
  fs.length ≤ 147456 && fs.all (fun a => aligned a (2 ^ 21) && s.inHbm a (2 ^ 21)) && (fs.Nodup : Bool)

/-- The frames that a load names. -/
def State.frameListAt (s : State) (l : Load) : List Nat :=
  let b := s.hbmBytes l.src l.len
  (List.range (l.len / 8)).map fun i => field b (8 * i) 8

/-- Whether a page table may stand (R426, R427): each entry, and no frame out of range or taken twice. -/
def State.tableOk (s : State) (buddy frames : Nat) (es : List (Nat × Nat)) : Bool :=
  let ps := es.map fun e => pageOfBits e.2
  let used := (ps.filter fun p => p.1.st == 2).map fun p => p.1.frame
  ps.all (fun p => !p.2 && s.pageOk buddy p.1) && used.all (· < frames) && (used.Nodup : Bool)

/-- PAGE_TABLE_LOAD (R426, R428, R583, R588): its checks are made, and the command stays pending while it is copied. -/
def execPageTableLoad (h : Hdr) (table frames : Load) (base mirror list buddy : Nat) (s : State) : Out :=
  .next (s.command h 0x107 inNone false fun c s =>
    let places := s.fixedHbm base (2 ^ 25) && s.fixedHbm mirror (2 ^ 25) && base / 2 ^ 36 ≠ mirror / 2 ^ 36 &&
      (frames.len = 0 || s.inHbm list frames.len)
    let s := (s.meetRange table.src table.len).meetRange frames.src frames.len
    let es := s.tableEntries table.src
    if table.len ≠ 2 ^ 25 || frames.len % 8 ≠ 0 || 2 ^ 18 ≤ buddy || !places || !s.loadOk table ||
        !(frames.len = 0 || s.loadOk frames) || !s.framesOk (s.frameListAt frames) ||
        !s.tableOk buddy (frames.len / 8) es then s.answer c 2
    else s.pend { c with args := [table.src, frames.src, frames.len, base, mirror, list, buddy] })

/-- The page table as it is loaded (R426, R428, R448, R464): no page has been touched, and a buddied page's home holds its
copy (DEDUCED, log 51). -/
def State.loadPages (s : State) (src fsrc flen base mirror list buddy : Nat) : State :=
  let fs := s.frameListAt { src := fsrc, len := flen, check := 0 }
  let es := (s.tableEntries src).map fun e => (e.1, (pageOfBits e.2).1)
  let pages := es.foldl (fun t e => Tbl.set {} t e.1 e.2) []
  let en := es.any fun e => e.2.buddy
  let s := ((s.hbmCopy src base (2 ^ 25)).hbmCopy base mirror (2 ^ 25)).hbmCopy fsrc list flen
  s.onTier fun x =>
    { x with pages := pages, frames := fs, tableBase := base, tableMirror := mirror, frameList := list, buddyEn := en
             buddyDev := buddy, buddySt := if en then 1 else 0, dirty := [], heat := [], heatOrder := [], moves := []
             proposals := [], reseed := 0, farOld := [], wbs := [] }

/-- PAGE_TABLE_LOAD_DONE (R426, R428, R588, R782). -/
def execPageTableLoadDone (s : State) : Out :=
  match s.pendingOf 0x107 with
  | [] => .next s
  | c :: _ => match c.args with
    | [src, fsrc, flen, base, mirror, list, buddy] =>
      let d := sha256 (s.hbmBytes src (2 ^ 25) ++ s.hbmBytes fsrc flen)
      .next (((s.loadPages src fsrc flen base mirror list buddy).extend 5 0x107 d).finish c 0)
    | _ => .next (s.finish c 2)

/-- PAGE_SET (R427, R588): a move of the page that is in progress is abandoned first (DESIGN CHOICE, log 110). -/
def execPageSet (h : Hdr) (page : BitVec 21) (entry : BitVec 128) (s : State) : Out :=
  .next (s.command h 0x108 anyJob false fun c s =>
    let p := page.toNat
    let e := pageOfBits entry.toNat
    let taken := s.tier.pages.any fun q => q.1 ≠ p && 2 ≤ q.2.st && q.2.frame == e.1.frame
    let noPlace := e.1.st = 2 && (s.frameBase e.1.frame = noFrame || taken)
    if e.2 || !s.pageOk s.tier.buddyDev e.1 || noPlace then s.answer c 2
    else
      let s := match s.moveOf p with
        | some m =>
          if m.evict then (s.dropMove p).tierDone p true 0xC else (s.abandonFill p).tierDone p false 0xC
        | none => s
      let old := s.page p
      let s := s.onPage p fun _ => e.1
      let s := s.onTier fun x =>
        { x with dirty := if e.1.st = old.st && e.1.frame = old.frame then x.dirty
                   else Tbl.clear x.dirty (32 * p) (32 * p + 32)
                 buddyEn := x.pages.any fun q => q.2.buddy }
      let s := s.onTier fun x =>
        { x with buddySt := if !x.buddyEn then 0 else if x.buddySt = 0 then 1 else x.buddySt
                 farOld := x.farOld.filter fun f => f.1 ≠ p }
      s.answer c 0)

/-- TIER_BUDDY (R427, R448, R452, R588): writes still on their way to the old buddy are acknowledged on the frame alone. -/
def execTierBuddy (h : Hdr) (dev : Nat) (pages : List (BitVec 21 × BitVec 64 × BitVec 32)) (s : State) : Out :=
  .next (s.command h 0x10F (anyJob - inNone) false fun c s =>
    let named := pages.map fun x => x.1.toNat
    let buddied := (s.tier.pages.filter fun e => e.2.buddy).map fun e => e.1
    let homes := pages.all fun x =>
      x.2.1 ≠ 0 && s.homeOk x.2.1.toNat && addrDev x.2.1.toNat == dev
    if !(named.Nodup : Bool) || !buddied.all named.contains || !named.all buddied.contains || !homes then s.answer c 2
    else
      let mine (r : Req) : Bool := match r.why with | .buddy _ => true | w => w.reseeds
      let ns := (s.fab.reqs.filter mine).map (·.num)
      let s := s.onFab fun f =>
        { f with reqs := (f.reqs.filter fun (r : Req) => !(mine r && r.dead)).map fun (r : Req) =>
                   if mine r then { r with why := .nobody } else r
                 owed := f.owed.map fun (o : Owed) => { o with waits := o.waits.filter fun n => !ns.contains n } }
      let s := s.onHal fun h => { h with cmds := h.cmds.map fun (q : PendCmd) =>
        { q with waits := q.waits.filter fun n => !ns.contains n } }
      let far := (s.tier.pages.filter fun e => e.2.buddy && e.2.st == 1 && !(s.tier.farOld.any fun f => f.1 == e.1)).map
        fun e => (e.1, e.2.home, e.2.key)
      let s := s.onTier fun x => { x with farOld := x.farOld ++ far }
      let s := pages.foldl (fun (s : State) x => s.onPage x.1.toNat fun e =>
        { e with home := x.2.1.toNat, key := x.2.2.toNat }) s.payOwed
      let s := s.onTier fun x => { x with buddyDev := dev, buddySt := 3, reseed := 0 }
      (s.answer c 0).reseedNext)

/-! ### The path table (R536, R537) -/

/-- Whether a path record may stand (R536). -/
def pathRecOk (b : Bytes) : Bool :=
  field b 0 1 ≤ 17 && field b 1 1 < 4 && field b 24 8 = 0

/-- PATH_TABLE_LOAD (R536, R583, R588, R782). -/
def execPathTableLoad (h : Hdr) (pay : List Byte) (load : Load) (offset : Nat) (s : State) : Out :=
  .next (s.command h 0x306 anyJob false fun c s =>
    let s := s.meetRange load.src load.len
    let touched := s.partsIn load.src (2 ^ 25) 32
    if load.len ≠ 2 ^ 25 || !aligned offset (2 ^ 21) || !s.fixedHbm offset (2 ^ 25) || !s.loadOk load ||
        !touched.all (fun i => pathRecOk (s.hbmBytes (load.src + 32 * i) 32)) then s.answer c 2
    else
      let s := (s.hbmCopy load.src offset (2 ^ 25)).onFab fun f => { f with pathTable := offset }
      (s.extend 6 0x306 (sha256 pay)).answer c 0)

end Sys2Proof.Machine
end

