-- ==== Sys2Proof/Machine/Observe.lean ====
section
/-! DEFINITION. Periscope sampling (R813 to R823), and the steps that trigger it: the end of a swap (R253), the repeat's
10 us (R255), a notice that falls due (R637). -/

namespace Sys2Proof.Machine

/-- Changes the observers' state. -/
def State.onObs (s : State) (f : Observe → Observe) : State := { s with obs := f s.obs }

/-! ### Samples (R813, R817 to R821) -/

/-- Bytes of a record of `n` selectors (R818). -/
def recordSize (n : Nat) : Nat := roundUp (32 + 8 * n) 64

/-- The value of a selected word, read without a side effect (R817): a free value where the spec states none. -/
def State.peek (s : State) (sel : Nat) : Nat × State :=
  match s.regFlds (8 * sel) with
  | some l => if s.regOpen (8 * sel) then s.draw 64 else (packFlds l, s)
  | none => s.draw 64

/-- A selected operation counter that has been cleared in this tick: what it held before (R811). -/
def State.wasCleared (s : State) (sel : Nat) : Option Nat :=
  let a := 8 * sel
  if 0x130000 ≤ a && a < 0x130000 + 192 * 128 then
    match s.obs.tilesWas with
    | some (t, l) => if t = s.now then some ((nth l ((a - 0x130000) / 128) {}).word (a / 8 % 16)) else none
    | none => none
  else if 0x140000 ≤ a && a < 0x140080 then
    match s.obs.devWas with
    | some (t, l) => if t = s.now then some (nth l (a / 8 % 16) 0) else none
    | none => none
  else none

/-- The values of the selected words. -/
def State.peeks (s : State) (sels : List Nat) : List Nat × State :=
  sels.foldl (fun (r : List Nat × State) k =>
    match s.wasCleared k with
    | some v => (r.1 ++ [v], r.2)
    | none => let q := r.2.peek k; (r.1 ++ [q.1], q.2)) ([], s)

/-- A record (R818). -/
def State.sampleRecord (s : State) (seq cause : Nat) (vals : List Nat) : Bytes :=
  let b := toBytes 8 s.now ++ toBytes 4 seq ++ [BitVec.ofNat 8 cause, BitVec.ofNat 8 vals.length] ++
    toBytes 2 (s.stepNo % 65536) ++ [BitVec.ofNat 8 s.step.attempt, BitVec.ofNat 8 s.pwr.pstate, 0, 0] ++
    toBytes 4 s.obs.droppedSince ++ vals.flatMap (toBytes 8) ++ toBytes 4 seq
  slice b 0 (recordSize vals.length)

/-- A trigger is dropped (R820, R821). -/
def State.dropTrigger (s : State) : State :=
  s.onObs fun o => { o with dropped := satAdd 32 o.dropped 1, droppedSince := satAdd 32 o.droppedSince 1 }

/-- A trigger fires (R813, R817 to R821): bit `k` of CAUSE. One that fires in the tick of the last record joins it. The
record's units are written in order at once (log 46). -/
def State.trigger (s : State) (k : Nat) : State :=
  let o := s.obs
  if o.pst = 0 || !bit o.triggers k then s
  else
    let last := o.ringBase + (if o.mode = 0 then (o.seq - 1) % max 1 o.ringRecords else o.seq - 1) * recordSize o.sels.length
    match o.lastSample with
    | some t =>
      if t = s.now && 0 < o.seq then
        let r := s.memRead (last + 12) 1
        r.2.2.memWrite (last + 12) [BitVec.ofNat 8 (field r.1 0 1 ||| 2 ^ k)] 0
      else if o.pst = 2 || s.now < t + 2000 then s.dropTrigger
      else take s k
    | none => if o.pst = 2 then s.dropTrigger else take s k
where
  /-- A sample is taken. -/
  take (s : State) (k : Nat) : State :=
    let o := s.obs
    let v := s.peeks o.sels
    let b := v.2.sampleRecord (o.seq + 1) (2 ^ k) v.1
    let s := v.2.memWrite (o.ringBase + o.next * recordSize o.sels.length) b 0
    s.onObs fun o =>
      let next := o.next + 1
      { o with seq := (o.seq + 1) % 2 ^ 32, samples := satAdd 32 o.samples 1, droppedSince := 0, lastSample := some s.now
               next := if o.mode = 0 && next = o.ringRecords then 0 else next
               pst := if o.mode ≠ 0 && next = o.ringRecords then 2 else o.pst }

/-- PERISCOPE_TIMER (R813, R817 to R821): at the expiry of the owned timer, which runs on. -/
def execPeriscopeTimer (s : State) : Out :=
  match s.obs.timer with
  | none => .next s
  | some r =>
    let t := Tbl.get 0 s.hal.timers (r - 8)
    if t = 0 || s.now + 1 < t then .next s
    else
      let s := s.onHal fun h => { h with timers := Tbl.set 0 h.timers (r - 8) (t + 1000 * s.obs.periodUs) }
      .next (s.trigger 0)

/-- PERISCOPE_PIN (R813, R817 to R821). -/
def execPeriscopePin (rising : Bool) (s : State) : Out :=
  if s.obs.pin.isSome && bit s.obs.edge (if rising then 0 else 1) then .next (s.trigger 1) else .next s

/-! ### PERISCOPE_SET (R814 to R816, R822) -/

/-- Whether the payload of ARM is in range (R814, R816). -/
def State.armOk (s : State) (p : Bytes) : Bool :=
  let tr := field p 1 1
  let n := field p 7 1
  let recs := field p 16 4
  let us := field p 20 4
  let base := field p 8 8
  tr ≠ 0 && tr < 32 && 1 ≤ n && n ≤ 64 && p.length = 32 + 4 * n && field p 6 1 ≤ 1 && field p 24 8 = 0 &&
  (if bit tr 0 then field p 2 1 < 8 && 10 ≤ us && us ≤ 1000000 else field p 2 1 = 0 && us = 0) &&
  (if bit tr 1 then field p 3 1 < 8 && field p 4 1 ≤ 3 else field p 3 1 = 0 && field p 4 1 = 0) &&
  (if bit tr 4 then field p 5 1 < 64 else field p 5 1 = 0) &&
  aligned base 64 && 16 ≤ recs && recs ≤ 2 ^ 24 && s.fixedHbm base (recs * recordSize n) &&
  (List.range n).all fun i => field p (32 + 4 * i) 4 < 2 ^ 25

/-- The resources that an ARM names. -/
def armRes (p : Bytes) : List Nat :=
  (if bit (field p 1 1) 0 then [8 + field p 2 1] else []) ++ (if bit (field p 1 1) 1 then [field p 3 1] else [])

/-- ARM (R815). -/
def State.arm (s : State) (p : Bytes) : State :=
  let rs := armRes p
  let s := rs.foldl (fun (s : State) r => s.grant 0x10 0 r) s
  let s := ((s.heldBy 0x10).filter fun r => !rs.contains r).foldl (fun (s : State) r => s.free r) s
  let timer := rs.find? fun r => 8 ≤ r
  let pin := rs.find? fun r => r < 8
  let s := match timer with
    | some r => s.onHal fun h => { h with timers := Tbl.set 0 h.timers (r - 8) (s.now + 1000 * field p 20 4 + 1) }
    | none => s
  s.onObs fun o =>
    { o with
      pst := 1, triggers := field p 1 1, timer := timer, pin := pin, edge := field p 4 1, phaseTag := field p 5 1
      mode := field p 6 1, sels := (List.range (field p 7 1)).map fun i => field p (32 + 4 * i) 4, next := 0, seq := 0
      ringBase := field p 8 8, ringRecords := field p 16 4, periodUs := field p 20 4, samples := 0, dropped := 0
      droppedSince := 0, timerLost := o.timerLost && timer.isNone, pinLost := o.pinLost && pin.isNone }

/-- STOP (R815): the timer no longer runs; the ring and the resources stay. -/
def State.stopPeriscope (s : State) : State :=
  let s := match s.obs.timer with
    | some r => s.onHal fun h => { h with timers := Tbl.set 0 h.timers (r - 8) 0 }
    | none => s
  s.onObs fun o => { o with pst := 0, triggers := 0 }

/-- PERISCOPE_SET (R588, R609, R610, R814 to R816, R822). DEDUCED, log 83. -/
def execPeriscopeSet (h : Hdr) (pay : List Byte) (s : State) : Out :=
  .next (s.command h 0x204 anyJob false fun c s =>
    let op := field pay 0 1
    if op = 1 then
      if !s.armOk pay then s.answer c 2
      else if (armRes pay).any fun r => s.meets 0x10 0 r ≠ 0 then s.answer c 3
      else (s.arm pay).answer c 0
    else if (op ≠ 2 && op ≠ 3) || pay.length ≠ 32 || !(pay.drop 1).all (· == 0) then s.answer c 2
    else
      let s := s.stopPeriscope
      let s := if op = 3 then
          ((s.heldBy 0x10).foldl (fun (s : State) r => s.free r) s).onObs fun o => { o with timer := none, pin := none }
        else s
      s.answer c 0)

/-! ### Steps that trigger a sample -/

/-- SWAP_COMPLETE (R46, R67, R207, R253, R266, R360, R579, R753, R813). -/
def execSwapComplete (s : State) : Out :=
  if s.step.st ≠ 3 then .next s else .next (s.swapComplete.trigger 2)

/-- REPEAT_DRAINED (R50, R51, R222, R255, R348, R360, R393, R411, R415, R447, R450, R637, R753, R813): 10 us after the
repeat's arrival. `far` is what the homes sent of the poisoned units that have a good copy there. -/
def execRepeatDrained (s : State) : Out :=
  if s.step.st ≠ 4 || s.step.drained || s.now < s.step.repeatAt + 10000 then .next s
  else .next (s.repeatDrained.trigger 3)

/-- NOTICE_DUE (R317, R637, R638, R644, R653, R813). -/
def execNoticeDue (g : RegionIx) (s : State) : Out :=
  match s.dueNotice g.val with
  | none => .next s
  | some n =>
    let s := s.noticeDue g.val n
    .next (if n.tag = s.obs.phaseTag then s.trigger 4 else s)

end Sys2Proof.Machine
end

