-- ==== Sys2Proof/Machine/Loupe.lean ====
section
/-! DEFINITION. Loupe hang reports (R824 to R831): the edges of R825, the two passes of R827, cycles (R828) and the report's
layout (R829, R830). A completion count for which a program waits (POST) is known to the program alone: the sequencer's
state does not hold it (log 47). -/

namespace Sys2Proof.Machine

/-- A wait (R825, R829): kinds and identifiers of the waiter and of the node waited for, the latter's device with REMOTE
in bit 18, the code, whether bounded, when it began, DETAIL. -/
structure Edge where
  wk : Nat
  wi : Nat
  nk : Nat
  ni : Nat
  dev : Nat := 0
  code : Nat
  bounded : Bool := false
  since : Nat
  detail : Nat := 0
  deriving DecidableEq, Repr

/-- An edge as numbers. -/
def Edge.enc (e : Edge) : List Nat := [e.wk, e.wi, e.nk, e.ni, e.dev, e.code, b2n e.bounded, e.since, e.detail]

/-- An edge from its numbers. -/
def Edge.dec (l : List Nat) : Edge :=
  { wk := nth l 0 0, wi := nth l 1 0, nk := nth l 2 0, ni := nth l 3 0, dev := nth l 4 0, code := nth l 5 0
    bounded := nth l 6 0 = 1, since := nth l 7 0, detail := nth l 8 0 }

/-- WAITED_DEV of a device. -/
def State.devField (s : State) (d : Nat) : Nat :=
  if d = selfDev || d = s.fab.device then s.fab.device else d % 2 ^ 18 + 2 ^ 18

/-- Two 32-bit halves of DETAIL. -/
def halves (lo hi : Nat) : Nat := lo % 2 ^ 32 + 2 ^ 32 * (hi % 2 ^ 32)

/-- What tile t's sequencer waits for. -/
def State.seqEdges (s : State) (t : Nat) : List Edge :=
  let x := s.tile t
  let w := s.seqWait t
  let depth := match w.1 with
    | 1 => x.mxq.length | 2 => x.panq.length | 3 => x.fabq.length | 5 => x.ftq.length | _ => 0
  if w.1 = 0 then []
  else [{ wk := 1, wi := t, nk := w.2.1, ni := w.2.2, code := w.1, since := x.since, detail := depth }]

/-- The lowest group that two commands share. -/
def sharedGroup (a b : Nat) : Nat := ((List.range 8).find? fun g => bit (a &&& b) g).getD 0

/-- The first command of a kind that waits behind an earlier one on a group (R144). -/
def groupWait (drain : Bool) (before : List MxCmd) : List MxCmd → Option (MxCmd × MxCmd)
  | [] => none
  | c :: t =>
    if c.op = 6 then none
    else if (if drain then c.drains else c.array) && c.st = 0 then
      (before.find? fun p => share p.groups c.groups && (if drain then p.array else p.drains && p.st ≠ 2)).map fun p => (c, p)
    else groupWait drain (before ++ [c]) t

/-- What tile t's matrix queue and drain unit wait for. -/
def State.mxEdges (s : State) (t : Nat) : List Edge :=
  let q := (s.tile t).mxq
  let gw (drain : Bool) : List Edge := match groupWait drain [] q with
    | some (c, p) => [{ wk := if drain then 3 else 2, wi := t, nk := if drain then 2 else 3, ni := t
                        code := if drain then 0x13 else 0x12, since := c.since, detail := sharedGroup c.groups p.groups }]
    | none => []
  let dw := (q.filter fun c => c.drains && c.st = 1 && (c.wait = 0x10 || c.wait = 0x11)).map fun (c : MxCmd) =>
    let tag := c.destAddr % 2 ^ 20
    let e : Edge := if c.wait = 0x10 then
        { wk := 3, wi := t, nk := 1, ni := t, code := 0x10, since := c.since, detail := halves c.row (128 * c.gcount) }
      else
        { wk := 3, wi := t, nk := 8, ni := (s.tagEnt tag).tree, dev := s.devField ((s.tree tag).1.getD s.fab.device)
          code := 0x11, since := c.since, detail := tag }
    e
  gw false ++ gw true ++ dw

/-- What tile t's Pannier queue waits for (R226, R227). -/
def State.pnEdges (s : State) (t : Nat) : List Edge :=
  let p := (s.tile t).pn
  match (s.tile t).panq with
  | [] => []
  | c :: _ =>
    if c.wait = 0x20 then
      [{ wk := 4, wi := t, nk := 9, ni := 0, code := 0x20, since := c.since, detail := p.ring - (pnEnd p.main - p.lowest) }]
    else if c.wait = 0x21 then
      let r := p.main.head?
      let pg := pageOf (p.spillBase + match r with | some r => r.off | none => 0)
      [{ wk := 4, wi := t, nk := 7, ni := 0, dev := s.devField (addrDev (s.page pg).home), code := 0x21, bounded := true
         since := c.since, detail := match r with | some r => r.tag | none => 0 }]
    else []

/-- Whether a request serves a command of tile t, or a write of its drain. -/
def Req.ofTile (r : Req) (t : Nat) : Bool :=
  match r.why with
  | .remote q _ _ => q == t | .copyRead q _ _ => q == t | .copyWrite q _ => q == t | .stream q _ _ => q == t
  | .drain q _ => q == t | _ => false

/-- What a request of tile t's commands waits for (R478, R502). -/
def State.holdEdges (s : State) (t : Nat) : List Edge :=
  (s.fab.reqs.filter fun r => r.ofTile t && (match r.hold with | some h => h != 0 | none => false)).map fun (r : Req) =>
    let e : Edge :=
      { wk := 5, wi := t, nk := 7, ni := 0, dev := s.devField r.pkt.dst, code := if r.busy = 0 then 0x32 else 0x33
        bounded := true, since := r.heldAt
        detail := if r.busy = 0 then r.retries % 65536 + 65536 * (r.pkt.token % 65536) else r.busy }
    e

/-- A FENCE's operations outstanding, by device (R510). -/
def State.fenceEdges (s : State) (t : Nat) (c : FabCmd) : List Edge :=
  let own (r : Req) : Bool := bit (field c.main 0 4) 17 || r.ofTile t
  let rs := s.fab.reqs.filter fun r => r.num < c.mark && r.pkt.wseq ≠ 0 && own r && r.why ≠ .nobody
  let ds := (rs.map fun (r : Req) => r.pkt.dst).eraseDups
  ds.map fun d =>
    let e : Edge := { wk := 5, wi := t, nk := 7, ni := 0, dev := s.devField d, code := 0x31, bounded := true
                      since := c.since, detail := (rs.filter fun r => r.pkt.dst == d).length }
    e

/-- The home that a stream waits for and the bytes still to arrive (R459). -/
def State.streamEdge (s : State) (t : Nat) (c : FabCmd) : List Edge :=
  let rs := s.fab.reqs.filter fun r => match r.why with | .stream q i _ => q == t && i == c.id | _ => false
  match rs with
  | [] => []
  | r :: _ => [{ wk := 5, wi := t, nk := 7, ni := 0, dev := s.devField r.pkt.dst, code := 0x35
                 bounded := recBits c.main 10 8 ≠ 0, since := c.since
                 detail := (rs.map fun (r : Req) => r.pkt.aux).foldl (· + ·) 0 }]

/-- What tile t's fabric queue waits for. -/
def State.fabEdges (s : State) (t : Nat) : List Edge :=
  let q := (s.tile t).fabq
  let waiting := q.filter fun c => c.st = 0 && (c.op = 0x61 || c.op = 0x62)
  let share : List Edge := match nextFab q with
    | some c => if (c.op = 0x61 || c.op = 0x62) && !s.holdsShare 0x21 then
        [{ wk := 5, wi := t, nk := 9, ni := 1, code := 0x34, since := c.since, detail := waiting.length }] else []
    | none => []
  share ++ s.holdEdges t ++ (q.filter fun c => c.st = 1).flatMap fun c =>
    match c.op with
    | 0x63 =>
      let n := recBits c.main 299 288
      [{ wk := 5, wi := t, nk := 6, ni := n, dev := s.fab.device, code := 0x30, bounded := recBits c.main 383 352 ≠ 0
         since := c.since, detail := halves (Tbl.get 0 s.fab.arrive n) (recBits c.main 127 64) }]
    | 0x64 => s.fenceEdges t c
    | 0x61 => s.streamEdge t c
    | _ => []

/-- What the step waits for (R250, R252, R590): its waits began with the attempt, or with the report of its completion. -/
def State.stepEdges (s : State) : List Edge :=
  let at_ := s.step.since
  let ends : List Edge := if s.hal.job = 2 && (s.step.st = 1 || s.step.st = 2) then
      (s.step.tileSet.filter fun t => !(s.tile t).posts.contains 0xFF).map fun t =>
        let e : Edge := { wk := 0xA, wi := 0, nk := 1, ni := t, code := 0x41, since := at_
                          detail := ((s.tile t).posts.getLast?).getD 0 }
        e
    else []
  let commit : List Edge := if s.hal.job = 2 && s.step.st = 2 && s.step.held.isNone then
      [{ wk := 0xA, wi := 0, nk := 0xB, ni := 0, dev := s.devField s.red.leadDev, code := 0x42, since := at_
         detail := s.step.st }] else []
  ends ++ commit ++ s.hal.decisions.map fun (d : Decision) =>
    let e : Edge := { wk := 0xA, wi := 0, nk := 0xC, ni := 0, code := 0x43, bounded := (deadlineOf d.req.func).isSome
                      since := d.created, detail := d.num }
    e

/-- Every wait (R825). -/
def State.edges (s : State) : List Edge :=
  (List.range 192).flatMap (fun t => s.seqEdges t ++ s.mxEdges t ++ s.pnEdges t ++ s.fabEdges t) ++ s.stepEdges

/-- Whether two edges are the same wait with the same beginning (R827). -/
def Edge.same (a b : Edge) : Bool :=
  a.wk == b.wk && a.wi == b.wi && a.nk == b.nk && a.ni == b.ni && a.dev == b.dev && a.code == b.code && a.since == b.since

/-- The nodes that can be reached along edges from some nodes. -/
def reach (es : List Edge) : Nat → List (Nat × Nat) → List (Nat × Nat)
  | 0, ns => ns
  | f + 1, ns =>
    let more := ((es.filter fun e => ns.contains (e.wk, e.wi)).map fun e => (e.nk, e.ni)).filter fun n => !ns.contains n
    if more.isEmpty then ns else reach es f (ns ++ more.eraseDups)

/-- Whether an edge lies on a cycle of such edges (R828). -/
def onCycle (es : List Edge) (e : Edge) : Bool :=
  es.contains e && (reach es es.length [(e.nk, e.ni)]).contains (e.wk, e.wi)

/-- An edge's 32 bytes (R829). -/
def Edge.bytes (e : Edge) (flags : Nat) : Bytes :=
  toBytes 4 (e.wk + 256 * e.wi) ++ toBytes 4 (e.nk + 256 * e.ni) ++ toBytes 4 e.dev ++ toBytes 2 e.code ++
    [BitVec.ofNat 8 flags, 0] ++ toBytes 8 e.since ++ toBytes 8 e.detail

/-- The report of two passes (R827 to R830): an edge of one pass alone is not STABLE (DEDUCED, log 47). -/
def State.loupeReport (s : State) (t1 attempt committed : Nat) (p1 : List Edge) : Bytes :=
  let p2 := s.edges
  let changed := attempt ≠ s.step.attempt || committed ≠ s.step.committed
  let stable := if changed then [] else p2.filter fun e => p1.any (Edge.same e)
  let rest := (p2.filter fun e => !stable.contains e) ++ p1.filter fun e => !p2.any (Edge.same e)
  let free := stable.filter fun e => !e.bounded && e.dev < 2 ^ 18
  let cyc := stable.filter (onCycle free)
  let all := cyc ++ (stable.filter fun e => !cyc.contains e) ++ rest
  let out := all.take (max s.obs.edges cyc.length)
  let flag (e : Edge) : Nat := b2n (stable.contains e) + 2 * b2n e.bounded + 4 * b2n (cyc.contains e)
  toBytes 4 1 ++ toBytes 4 (64 + 32 * out.length) ++ toBytes 4 (s.fab.device + 2 ^ 18 * b2n s.fab.numbered) ++
    [BitVec.ofNat 8 s.flash.bootEpoch, BitVec.ofNat 8 s.hal.job,
     BitVec.ofNat 8 (b2n (out.length != all.length) + 2 * b2n changed), 0] ++
    toBytes 8 t1 ++ toBytes 8 s.now ++ toBytes 8 s.step.committed ++ toBytes 1 s.step.attempt ++ [0, 0, 0] ++
    toBytes 4 out.length ++ toBytes 4 (out.filter stable.contains).length ++ toBytes 4 cyc.length ++
    List.replicate 8 0 ++ out.flatMap fun e => e.bytes (flag e)

/-- LOUPE_REPORT (R588, R795, R827, R831). -/
def execLoupeReport (h : Hdr) (pay : List Byte) (s : State) : Out :=
  .next (s.command h 0x205 anyJob true fun c s =>
    if pay.length ≠ 8 || field pay 6 2 ≠ 0 then s.answer c 2
    else if field pay 0 4 ≠ 0 then s.answerPart c (·.report) (field pay 0 4) (field pay 4 2)
    else
      let e := ([c.session, c.seq, s.now, s.step.attempt, s.step.committed], s.edges.map Edge.enc)
      (s.pend c).onObs fun o => { o with loupe := o.loupe ++ [e] })

/-- LOUPE_PASS2 (R827 to R831): LOUPE_GAP_MS after the first pass of a session's command. -/
def execLoupePass2 (session seq : Nat) (s : State) : Out :=
  match s.obs.loupe.find? fun x => nth x.1 0 0 == session && nth x.1 1 0 == seq with
  | none => .next s
  | some x =>
    let t1 := nth x.1 2 0
    if s.now < t1 + 1000000 * s.obs.gapMs then .next s
    else
      let b := s.loupeReport t1 (nth x.1 3 0) (nth x.1 4 0) (x.2.map Edge.dec)
      let s := s.onObs fun o => { o with loupe := o.loupe.filter (· ≠ x) }
      match s.hal.cmds.find? fun c => c.session == session && c.seq == seq with
      | none => .next s
      | some c =>
        let id := match s.session session with | some y => y.nextReport | none => 1
        let d : Doc := { id := id, bytes := b }
        .next ((s.onSession session fun y => { y with report := some d, nextReport := id + 1 }).finishDoc c d)

end Sys2Proof.Machine
end

