-- ==== Sys2Proof/Machine/Time.lean ====
section
/-! DEFINITION. Shared time (14): the servo (R720, R721), PTP (R557, R558, R718, R719), PPS (R719, R724, R725), holdover
(R722), TIMECLK (R723), the loss of REFCLK (R705), and the tick of the time domain (R714). -/

namespace Sys2Proof.Machine

/-- Changes the time state. -/
def State.onTime (s : State) (f : Time → Time) : State := { s with time := f s.time }

/-! ### The servo (R720, R721) -/

/-- The counter is stepped by -offset (R721); the payload carries the step in 64 bits. What a PTP exchange had measured
is void. -/
def State.timeStep (s : State) (offset : Int) : State :=
  let s := s.onTime fun t =>
    { t with ns := (((t.ns : Int) - offset) % (2 ^ 64 : Nat)).toNat, steps := satAdd 16 t.steps 1, good := 0 }
  let s := { s with ports := s.ports.map fun (x : Port) => { x with ptp := { x.ptp with sync := none, t3 := none, pd := none } } }
  s.raise { code := 0x73, payload := [unsigned 64 (-offset)] }

/-- A measured offset (R720, R721): outside RUNNING one above 1 ms is removed by a step; otherwise the servo sets the rate
correction within 500 ppm, whose value the spec does not give (a free value, log 33). Sixteen offsets in a row within
100 ns lock it. -/
def State.servo (s : State) (offset : Int) : State :=
  let s := s.onTime fun t => { t with offset := signed 32 (unsigned 32 offset), heard := t.ns
                                      st := if t.st = 2 then 2 else 1 }
  if s.hal.job ≠ 2 && 1000000 < offset.natAbs then s.timeStep offset
  else
    let d := s.draw 20
    let s := d.2.onTime fun t =>
      { t with rate := (d.1 % 1000001 : Nat) - 500000, good := if offset.natAbs ≤ 100 then min 16 (t.good + 1) else 0 }
    if s.time.st = 1 && s.time.good = 16 then
      (s.onTime fun t => { t with st := 2 }).raise
        { code := 0x70, payload := [s.time.src, s.time.slavePort, unsigned 64 offset] }
    else s

/-- An offset measured by PTP (R719): under source 3 it gives the whole seconds, once. DEDUCED, log 77. -/
def State.ptpOffset (s : State) (offset : Int) : State :=
  if s.time.src = 1 then s.servo offset
  else if s.time.src = 3 && !s.time.seconds then
    let n : Int := (offset + 500000000) / 1000000000 * 1000000000
    if n = 0 then s.onTime fun t => { t with seconds := true }
    else if s.hal.job = 2 then s
    else (s.timeStep n).onTime fun t => { t with seconds := true }
  else s

/-! ### PTP (R557, R558, R718) -/

/-- Lexicographic order of data sets. -/
def dataLt : List Nat → List Nat → Bool
  | _, [] => false
  | [], _ => true
  | a :: t, b :: u => a < b || (a == b && dataLt t u)

/-- The device's own data set: the default priorities of IEEE 1588 (PRESUMED, log 34). -/
def State.ownData (s : State) : List Nat := [128, 248, 0xFE, 0xFFFF, 128, fromBytesBE (s.mac 0), 0]

/-- The ports that run PTP. -/
def State.ptpPortList (s : State) : List Nat := (List.range 18).filter fun p => bit s.time.ptpPorts p

/-- The best master clock algorithm over the boundary clock's ports (R718): the port of the best data set heard is the
slave; with SLAVE_ONLY no port becomes master. -/
def State.bmca (s : State) : State :=
  let heard := s.ptpPortList.filterMap fun p => (s.port p).ptp.best.map fun d => (p, d)
  let best := heard.foldl (fun (b : Option (Nat × List Nat)) c =>
    match b with | none => some c | some x => if dataLt c.2 x.2 then some c else b) none
  let best := match best with
    | some b => if !s.time.slaveOnly && !dataLt b.2 s.ownData then none else some b
    | none => none
  let sl := match best with | some b => b.1 | none => 31
  let s := s.onTime fun t => { t with slavePort := sl }
  s.ptpPortList.foldl (fun s p => s.onPort p fun x => { x with ptp := { x.ptp with
    st := if p = sl then 2 else if s.time.slaveOnly then 0 else if best.isSome && x.ptp.best.isSome then 3 else 1 } }) s

/-- Sends a PTP message (R532, R551): its type, sequence number, time and destination, 0 the multicast addresses. Its
frame's length is free (log 30). -/
def State.sendPtp (s : State) (p ty seq time : Nat) (whom : Nat) : State :=
  let d := s.draw 8
  d.2.sendOn p 7 (64 + d.1) (.frame p 5 [ty, seq, time, whom] [])

/-- Changes a port's PTP instance. -/
def State.onPtp (s : State) (p : Nat) (f : PtpPort → PtpPort) : State := s.onPort p fun x => { x with ptp := f x.ptp }

/-- A Sync's two times give an offset (R720). -/
def State.syncDone (s : State) (p : Nat) (t1 t2 : Int) : State :=
  let x := (s.port p).ptp
  (s.onPtp p fun y => { y with t1 := t1, t2 := t2, sync := none }).ptpOffset (t2 - t1 - x.delay)

/-- PTP_EVENT_MESSAGE (R532, R557, R558, R718 to R721): time stamps are taken to 1 ns. -/
def execPtpEventMessage (p : PortIx) (m : PtpMsg) (domain sub : Nat) (unicast : Option Nat) (len : Nat) (s : State) : Out :=
  let s := if (s.port p.val).link = 2 then s.rxCount p.val len else s
  let x := (s.port p.val).ptp
  let now := s.now + sub % 5
  let whom := unicast.getD 0
  if (s.port p.val).link ≠ 2 || !bit s.time.ptpPorts p.val || domain ≠ s.time.ptpDomain then .next s
  else match m with
  | .announce d =>
    let better := match x.best with | some b => !dataLt b d | none => true
    .next (if better then (s.onPtp p.val fun y => { y with best := some d, heard := s.now }).bmca
      else s.onPtp p.val fun y => { y with heard := s.now })
  | .sync q o two =>
    if x.st ≠ 2 then .next s
    else if two then .next (s.onPtp p.val fun y => { y with sync := some (q, now) })
    else .next (s.syncDone p.val o now)
  | .followUp q o =>
    match x.sync with
    | some y => if y.1 = q && x.st = 2 then .next (s.syncDone p.val o y.2) else .next s
    | none => .next s
  | .delayReq q =>
    if x.st = 1 && s.time.ptpDelay = 0 then .next (s.sendPtp p.val 9 q now whom) else .next s
  | .delayResp q r =>
    match x.t3 with
    | some y =>
      if y.1 = q && x.st = 2 && s.time.ptpDelay = 0 then
        .next (s.onPtp p.val fun z => { z with t3 := none, delay := ((z.t2 - z.t1) + ((r : Int) - y.2)) / 2 })
      else .next s
    | none => .next s
  | .pdelayReq q => if s.time.ptpDelay = 1 then .next (s.sendPtp p.val 3 q now whom) else .next s
  | .pdelayResp q r two turn =>
    match x.t3 with
    | some y =>
      if y.1 ≠ q || s.time.ptpDelay ≠ 1 then .next s
      else if two then .next (s.onPtp p.val fun z => { z with pd := some (q, r, now) })
      else .next (s.onPtp p.val fun z => { z with t3 := none, delay := ((now : Int) - y.2 - turn) / 2 })
    | none => .next s
  | .pdelayFollowUp q t =>
    match x.t3, x.pd with
    | some y, some z =>
      if y.1 = q && z.1 = q then
        .next (s.onPtp p.val fun w => { w with t3 := none, pd := none, delay := ((z.2.2 - y.2) - ((t : Int) - z.2.1)) / 2 })
      else .next s
    | _, _ => .next s

/-- PTP_INTERVAL_TIMER (R718): types 0 Sync, 1 Delay_Req, 2 Pdelay_Req, 0xB Announce. The lengths of the intervals are
the domain's, not the spec's. -/
def execPtpIntervalTimer (p : PortIx) (w : PtpTimer) (s : State) : Out :=
  let x := (s.port p.val).ptp
  if (s.port p.val).link ≠ 2 || !bit s.time.ptpPorts p.val then .next s
  else match w with
  | .sync =>
    if x.st ≠ 1 then .next s
    else .next ((s.onPtp p.val fun y => { y with syncSeq := (y.syncSeq + 1) % 65536 }).sendPtp p.val 0 x.syncSeq s.now 0)
  | .announce => if x.st ≠ 1 then .next s else .next (s.sendPtp p.val 0xB 0 s.now 0)
  | .delayReq =>
    if s.time.ptpDelay = 0 && x.st ≠ 2 then .next s
    else .next ((s.onPtp p.val fun y => { y with reqSeq := (y.reqSeq + 1) % 65536, t3 := some (y.reqSeq, (s.now : Int)) }).sendPtp
      p.val (if s.time.ptpDelay = 0 then 1 else 2) x.reqSeq s.now 0)
  | .receipt => .next (s.onPtp p.val fun y => { y with best := none }).bmca

/-- TIME_SOURCE_SILENCE (R722, R724): the last rate correction stays in force. -/
def execTimeSourceSilence (s : State) : Out :=
  let t := s.time
  if t.src = 0 || !(t.st = 1 || t.st = 2) || t.ns < t.heard + 3000000000 then .next s
  else
    let s := s.onTime fun t => { t with st := 3, good := 0, holdovers := satAdd 16 t.holdovers 1 }
    .next (s.raise { code := 0x71, payload := [t.src, unsigned 32 t.rate] })

/-! ### PPS (R719, R724, R725) -/

/-- The offset of an edge from the nearest whole second. -/
def ppsOffset (c : Nat) : Int := if c % 1000000000 ≤ 500000000 then (c % 1000000000 : Nat) else (c % 1000000000 : Nat) - 1000000000

/-- PPS_IN_EDGE (R719 to R721, R724). -/
def execPpsInEdge (sub : Nat) (s : State) : Out :=
  let c := s.now + sub % 5
  let o := ppsOffset c
  let pps := s.time.src = 2 || s.time.src = 3
  let s := s.onTime fun t => { t with capture := c }
  if pps && s.time.st = 2 && 1000000 < o.natAbs then
    .next (s.onTime fun t => { t with rejects := satAdd 16 t.rejects 1 })
  else
    let s := s.onTime fun t => { t with lastPps := some t.ns }
    .next (if pps then s.servo o else s)

/-- Whether PPS_OUT owns GP7 (R609, R725). -/
def State.ppsOwns (s : State) : Bool := (nth s.hal.res 7 {}).owner == 0x22

/-- PPS_OUT_EDGE (R725): within 4 ns of a whole second. -/
def execPpsOutEdge (s : State) : Out :=
  if !s.ppsOwns || 8 < (s.now + 4) % 1000000000 then .next s
  else .next { s with
    time := { s.time with ppsOut := some s.now }
    hal := { s.hal with gpOut := s.hal.gpOut ||| 128, gpLevel := s.hal.gpLevel ||| 128 } }

/-- PPS_OUT_FALL (R725): after 100 ms. -/
def execPpsOutFall (s : State) : Out :=
  match s.time.ppsOut with
  | some t =>
    if !s.ppsOwns || s.now < t + 100000000 then .next s
    else .next { s with
      time := { s.time with ppsOut := none }
      hal := { s.hal with gpLevel := s.hal.gpLevel &&& 0x7F } }
  | none => .next s

/-! ### Clocks (R705, R723) -/

/-- REFCLK_LOSS (R705, R546): with the main rails up every port goes down and P5 is forced until a device reset. -/
def execRefclkLoss (s : State) : Out :=
  let s := s.onTime fun t => { t with refclk := false }
  if !s.boot.rails || bit s.pwr.force 4 then .next s
  else
    let s := (List.range 18).foldl (fun s p => if (s.port p).link = 3 then s else s.linkDown p) s
    let s := (s.forceOn 4).report 5 0xB 0x74 0
    .next (s.raise { code := 0x74, payload := [s.now] })

/-- REFCLK_RETURN (R705). -/
def execRefclkReturn (s : State) : Out := .next (s.onTime fun t => { t with refclk := true })

/-- TIMECLK_LOSS (R723). -/
def execTimeclkLoss (s : State) : Out :=
  if !s.time.timeclkOk then .next s
  else
    let d := s.now - s.time.timeclkSince
    .next ((s.onTime fun t => { t with timeclkOk := false }).raise { code := 0x72, payload := [d] })

/-- TIMECLK_RETURN (R723): the signal has been valid for 1 s. -/
def execTimeclkReturn (s : State) : Out :=
  if !s.time.timeclkEn || s.time.timeclkOk then .next s
  else .next (s.onTime fun t => { t with timeclkOk := true, timeclkSince := t.ns - 1000000000 })

/-! ### The tick (R714) -/

/-- The thousandths of a core cycle that pass in a tick of 4 ns on a die (R624, R646 to R648). -/
def State.tickCycles (s : State) (d : Nat) : Nat :=
  let f := Config.coreMHz s.pwr.pstate * 4
  match (s.die d).stage with | 1 => f / 2 | 2 => f * 2 / 3 | 3 => f * 4 / 5 | _ => f

/-- One tick of the time domain: the counter and the dies' core cycles (R714; DESIGN CHOICE, log 1). -/
def State.tick (s : State) : State :=
  let c (d : Nat) : Nat := s.tickCycles d
  s.onTime fun t =>
    let x : Int := (t.frac : Int) + 4 * 2 ^ 32 + t.rate * 4 * 2 ^ 32 / 1000000000
    { t with
      ns := (t.ns + (x / 2 ^ 32).toNat) % 2 ^ 64, frac := (x % 2 ^ 32).toNat
      cyc := t.cyc.zipIdx.map fun e => e.1 + c e.2 }

end Sys2Proof.Machine
end

