-- ==== Sys2Proof/Machine/Params.lean ====
section
/-! DEFINITION. PARAM_SET (R585 to R587, with the settings of R421, R463, R523, R657, R698, R726, R832) and PORT_SET (R533,
R554, R559, R560). -/

namespace Sys2Proof.Machine

/-! ### PARAM_SET -/

/-- The parameters: number, lowest and highest value. -/
def paramTable : List (Nat × Nat × Nat) :=
  [(0x0001, 1024, 65535), (0x0002, 10, 3600), (0x0101, 1, 168), (0x0102, 70, 95), (0x0201, 1, 100), (0x0202, 16, 65535),
   (0x0203, 2, 16), (0x0204, 1, 32), (0x0205, 0, 10000), (0x0206, 5, 1000)] ++
  [(0x0301, 1024, 65535), (0x0302, 1024, 4096), (0x0303, 5, 10000), (0x0304, 2, 16), (0x0305, 5, 1000), (0x0306, 10, 10000),
   (0x0307, 0, 2 ^ 32 - 1), (0x0308, 0, 2 ^ 44), (0x0401, 0, 5), (0x0402, 0, 1), (0x0403, 0, 3), (0x0404, 20, 10000),
   (0x0405, 1, 60000)] ++
  [(0x0501, 85, 100), (0x0502, 45, 60), (0x0503, 30, 60), (0x0504, 0, 40), (0x0505, 400, 1600), (0x0506, 0, 3600),
   (0x0507, 100, 65535), (0x0508, 300, 1050), (0x0601, 0, 3), (0x0602, 0, 1), (0x0603, 0, 2 ^ 18 - 1), (0x0604, 0, 127),
   (0x0605, 0, 1), (0x0606, 0, 1), (0x0701, 1, 1000), (0x0702, 256, 4096)]

/-- Whether a value is in its parameter's range (R586). -/
def State.paramOk (s : State) (n v : Nat) : Bool :=
  (paramTable.any fun p => p.1 == n && p.2.1 ≤ v && v ≤ p.2.2) && (n ≠ 0x0302 || v = 1024 || v = 4096) &&
  (n ≠ 0x0308 || (aligned v (2 ^ 21) && s.fixedHbm v (2 ^ 21)))

/-- A change of the time source (R719, R726): ACQUIRING, or FREE without a source, with no
correction (DEDUCED, log 48). -/
def Time.changed (t : Time) : Time := { t with st := if t.src = 0 then 0 else 1, good := 0, seconds := false, rate := if t.src = 0 then 0 else t.rate }

/-- The ports that no longer run PTP forget what they have heard; the master is chosen anew. -/
def State.ptpChanged (s : State) : State :=
  State.bmca { s with ports := s.ports.zipIdx.map fun x => if bit s.time.ptpPorts x.2 then x.1 else { x.1 with ptp := {} } }

/-- Sets a parameter of the Halter, HBM, tiering or fabric groups. -/
def State.param1 (s : State) (n v : Nat) : State :=
  let tier (f : Tier → Tier) : State := { s with tier := f s.tier }
  let fab (f : Fabric → Fabric) : State := { s with fab := f s.fab }
  match n with
  | 0x0001 => s.onHal fun h => { h with port := v }
  | 0x0002 => s.onHal fun h => { h with idleS := v }
  | 0x0101 => { s with hbm := { s.hbm with scrubHours := v } }
  | 0x0102 => { s with hbm := { s.hbm with tThrot := v } }
  | 0x0201 => tier fun x => { x with epochMs := v }
  | 0x0202 => tier fun x => { x with promoteHeat := v }
  | 0x0203 => tier fun x => { x with coldDiv := v }
  | 0x0204 => tier fun x => { x with maxMigrations := v }
  | 0x0205 => tier fun x => { x with wbMs := v }
  | 0x0206 => tier fun x => { x with buddyTimeout := v }
  | 0x0301 => fab fun x => { x with port := v }
  | 0x0302 => fab fun x => { x with max4k := v = 4096 }
  | 0x0303 => fab fun x => { x with rtoUs := v }
  | 0x0304 => fab fun x => { x with pathFail := v }
  | 0x0305 => fab fun x => { x with reachMs := v }
  | 0x0306 => fab fun x => { x with tokenLifeUs := v }
  | 0x0307 => fab fun x => { x with drainKey := v }
  | 0x0308 => fab fun x => { x with seqTable := v }
  | _ => s

/-- Sets a parameter of the power, heat, clock or sampling groups. -/
def State.param2 (s : State) (n v : Nat) : State :=
  match n with
  | 0x0401 => s.onPwr fun p => { p with pstateTop := v }
  | 0x0402 => s.onPwr fun p => { p with learnEn := v }
  | 0x0403 => s.onPwr fun p => { p with budgetSrc := v }
  | 0x0404 => s.onPwr fun p => { p with staleMs := v }
  | 0x0405 => s.onPwr fun p => { p with offMs := v }
  | 0x0501 => s.onHeat fun h => { h with tHot := v }
  | 0x0502 => s.onHeat fun h => { h with tOutMax := v }
  | 0x0503 => s.onHeat fun h => { h with warmFloor := v }
  | 0x0504 => s.onHeat fun h => { h with warmW := v }
  | 0x0505 => s.onHeat fun h => { h with flowMinWarm := v }
  | 0x0506 => s.onHeat fun h => { h with carouselS := v }
  | 0x0507 => s.onHeat fun h => { h with flowK := v }
  | 0x0508 => s.onHeat fun h => { h with wfLost := v }
  | 0x0601 => s.onTime fun t => if t.src = v then t else Time.changed { t with src := v }
  | 0x0602 => s.onTime fun t => if t.timeclkEn = (v = 1) then t
      else Time.changed { t with timeclkEn := v = 1, timeclkOk := false }
  | 0x0603 => (s.onTime fun t => { t with ptpPorts := v }).ptpChanged
  | 0x0604 => (s.onTime fun t => { t with ptpDomain := v })
  | 0x0605 => (s.onTime fun t => { t with ptpDelay := v })
  | 0x0606 => (s.onTime fun t => { t with slaveOnly := v = 1 }).ptpChanged
  | 0x0701 => s.onObs fun o => { o with gapMs := v }
  | 0x0702 => s.onObs fun o => { o with edges := v }
  | _ => s

/-- PARAM_SET (R585 to R588, R782): four parameters are accepted in NONE alone. -/
def execParamSet (h : Hdr) (pay : List Byte) (s : State) : Out :=
  .next (s.command h 0x111 anyJob false fun c s =>
    let n := field pay 0 2
    let v := field pay 8 8
    if pay.length ≠ 16 || field pay 2 6 ≠ 0 || !(paramTable.any fun p => p.1 == n) then s.answer c 2
    else if [0x0001, 0x0301, 0x0302, 0x0308].contains n && s.hal.job ≠ 0 then s.answer c 7
    else if !s.paramOk n v then s.answer c 2
    else
      let s := if n < 0x0400 then s.param1 n v else s.param2 n v
      (s.extend 7 0x111 (sha256 pay)).answer c 0)

/-! ### PORT_SET -/

/-- The bytes of the value that a port parameter uses. -/
def portUses (n : Nat) : Nat :=
  match n with | 0x0805 => 6 | 0x0806 => 5 | 0x0807 => 17 | _ => 8

/-- The new settings of a port (R533, R554, R559, R560): none for a value out of range. -/
def PortCfg.set (c : PortCfg) (n : Nat) (b : Bytes) : Option PortCfg :=
  let v := field b 0 8
  let zero (k : Nat) : Bool := (b.take k).all (· == 0)
  let l8 := (b.take 8).map (·.toNat)
  match n with
  | 0x0801 => if v ≤ 2 then some { c with type := v } else none
  | 0x0802 => if v = 1 || v = 2 || v = 4 then some { c with c2mWidth := v } else none
  | 0x0803 => if 1518 ≤ v && v ≤ 9216 then some { c with mtu := v } else none
  | 0x0804 => if v ≤ 4094 then some { c with vlan := v } else none
  | 0x0805 =>
    if zero 6 then some { c with mac := none }
    else if bit (field b 0 1) 1 && !bit (field b 0 1) 0 then some { c with mac := some (slice b 0 6) } else none
  | 0x0806 =>
    if 32 < field b 4 1 then none
    else some { c with ipv4 := if zero 4 then none else some (slice b 0 4, field b 4 1) }
  | 0x0807 =>
    if 128 < field b 16 1 then none
    else some { c with ipv6 := if zero 16 then none else some (slice b 0 16, field b 16 1) }
  | 0x0808 => if v ≤ 1 then some { c with direct := v } else none
  | 0x0809 => if (l8.all (· ≤ 63)) && l8.Nodup then some { c with dscp := l8 } else none
  | 0x080A => if sumOf l8 = 100 && (l8.drop 6).all (· == 0) then some { c with share := l8 } else none
  | _ => none

/-- PORT_SET (R547, R550, R555, R559, R560, R588): enabling direct mode anew ends its fall-back; a change of DIRECT changes
what LLDP advertises. -/
def execPortSet (h : Hdr) (pay : List Byte) (s : State) : Out :=
  .next (s.command h 0x308 anyJob false fun c s =>
    let n := field pay 0 2
    let p := field pay 2 1
    let b := pay.drop 8
    let rest := (b.drop (portUses n)).all (· == 0)
    if pay.length ≠ 32 || 18 ≤ p || field pay 3 5 ≠ 0 || !rest then s.answer c 2
    else match (s.port p).cfg.set n b with
      | none => s.answer c 2
      | some cfg =>
        let advert := cfg.direct ≠ (s.port p).cfg.direct
        let s := s.onPort p fun x => { x with cfg := cfg, fell := x.fell && !(n = 0x0808 && cfg.direct = 1) }
        (if advert then s.lldpSoon p else s).answer c 0)

end Sys2Proof.Machine
end

