-- ==== Sys2Proof/Machine/Recover.lean ====
section
/-! DEFINITION. Rung 2 of the recovery ladder (R754, R756): FUNC_REINIT of a tile, a port, a channel or the fabric engine;
PORT_RESET (R542). A pending FUNC_REINIT holds its kind, its instance and what it has learnt. -/

namespace Sys2Proof.Machine

/-- A tile's SRAM, registers and queues are cleared and its sequencer is reloaded (R756). -/
def Tile.reinit (x : Tile) : Tile :=
  { x.cleared with seq := .stopped, mxq := [], panq := [], fabq := [], rowBusy := false, vwait := [], unfenced := false }

/-- A port's link is brought up again (R542): in PROVISION F0 to F15 stay down (R769), and without REFCLK all do (R705),
which fails the command (DEDUCED, log 44). -/
def State.portReset (s : State) (p : Nat) : State × Bool :=
  if (s.boot.bootSel = 2 && 2 ≤ p) || bit s.pwr.force 4 then (s, false) else (s.linkDown p, true)

/-- PORT_RESET (R542, R588): its final reply follows the bring-up. -/
def execPortReset (h : Hdr) (p : Nat) (s : State) : Out :=
  .next (s.command h 0x309 anyJob false fun c s =>
    if 18 ≤ p then s.answer c 2
    else
      let c := { c with args := [p] }
      let r := (s.pend c).portReset p
      if r.2 then r.1 else r.1.finish c 0xC)

/-- FUNC_REINIT (R588, R756). -/
def execFuncReinit (h : Hdr) (pay : List Byte) (s : State) : Out :=
  .next (s.command h 0x14 anyJob false fun c s =>
    let i := field pay 4 4
    let go (k : Nat) (s : State) : State := s.pend { c with args := [k, i] }
    if pay.length ≠ 8 || field pay 1 3 ≠ 0 then s.answer c 2
    else match field pay 0 1 with
    | 1 =>
      if 192 ≤ i then s.answer c 2
      else
        let s := go 1 s
        if (s.slotOf i).isNone then s.finish c 0xC
        else if s.hal.job = 2 then s.requestRepeat
        else s.onTile i Tile.reinit
    | 2 =>
      if 18 ≤ i then s.answer c 2
      else
        let r := (go 2 s).portReset i
        if r.2 then r.1 else r.1.finish c 0xC
    | 3 =>
      if 96 ≤ i then s.answer c 2
      else
        let s := go 3 s
        if (s.chan i).failing || (s.chanRec i).mappedOut then s.finish c 0xC
        else s.onChan i fun x => { x with retrain := some (x.retrain.getD (s.now + 2000000)) }
    | 4 =>
      if i ≠ 0 then s.answer c 2
      else (State.combineAll { go 4 s with fab := { s.fab with reinit := true } }).requestRepeat
    | _ => s.answer c 2)

/-- The self-test of a re-initialised tile's slot ends (R200, R201, R756): columns that fail are retired, and a slot that
fails is replaced at once; no further repeat is asked for. -/
def State.tileTested (s : State) (t : Nat) (cols : List (Fin 130)) : State :=
  let q := s.step.requested
  let s := s.onStep fun x => { x with requested := true }
  let s := match s.slotOf t with
    | some sl => cols.foldl (fun (s : State) (c : Fin 130) => s.retireCol sl c.val 0x205) (s.onTile t Tile.reinit)
    | none => s
  s.settleSlots.onStep fun x => { x with requested := q }

/-- Whether the outcome of a pending FUNC_REINIT is there: its status. -/
def State.reinitStatus (s : State) (c : PendCmd) : Option Nat :=
  match c.args with
  | [2, p] => if (s.port p).link = 2 then some 0 else if (s.port p).link = 3 then some 0xC else none
  | [3, _, ok] => some (if ok = 1 then 0 else 0xC)
  | [4, _] => if s.fab.reqs.isEmpty || c.arrived + 1000000 * s.fab.reachMs ≤ s.now then some 0 else none
  | _ => none

/-- FUNC_REINIT_DONE (R588, R756): of a tile, at the boundary of the repeat while RUNNING; `cols` are the columns that
its slot's self-test finds failing. The fabric engine's contexts are reloaded as they were. DEDUCED, log 82. -/
def execFuncReinitDone (session seq : Nat) (cols : List (Fin 130)) (s : State) : Out :=
  match s.hal.cmds.find? fun c => c.session == session && c.seq == seq && c.code == 0x14 with
  | none => .next s
  | some c =>
    match c.args with
    | [1, t] =>
      if s.hal.job = 2 && !(s.step.st = 4 && s.step.drained) then .next s
      else
        let s := s.tileTested t cols
        .next (s.finish c (if (s.slotOf t).isSome then 0 else 0xC)).restart
    | _ => match s.reinitStatus c with
      | none => .next s
      | some st =>
        let s := if c.args.head? = some 4 then { s with fab := { s.fab with reinit := false, cache := [] } } else s
        .next (s.finish c st)

end Sys2Proof.Machine
end

