-- ==== Sys2Proof/Machine/Vector.lean ====
section
/-! DEFINITION. The vector engine (05): instruction fields and checks (R277 to R281, R318), lane arithmetic (R273, R282
to R287), conversions, generators and dropout (R288 to R293), loads and stores (R294 to R297), the finished-tile queue
(R305), format slots (R298 to R302) and HINT (R315 to R317). -/

namespace Sys2Proof.Machine

/-! ### Fields (R277, R278) -/

/-- A vector instruction: the opcode of its row and bits [63:8] of its word. -/
structure Vi where
  op : Nat
  w : BitVec 56
  deriving DecidableEq, Repr

/-- Bits [hi:lo] of the instruction's word, bit 8 being the first after the opcode. -/
def Vi.b (i : Vi) (hi lo : Nat) : Nat := bits (256 * i.w.toNat + i.op) hi lo
/-- VD. -/
def Vi.vd (i : Vi) : Nat := i.b 12 8
/-- VA. -/
def Vi.va (i : Vi) : Nat := i.b 17 13
/-- VB. -/
def Vi.vb (i : Vi) : Nat := i.b 22 18
/-- VC. -/
def Vi.vc (i : Vi) : Nat := i.b 27 23
/-- TYPE. -/
def Vi.ty (i : Vi) : Nat := i.b 29 28
/-- BI. -/
def Vi.bi (i : Vi) : Bool := i.b 30 30 = 1
/-- IMM. -/
def Vi.imm (i : Vi) : Nat := i.b 63 32
/-- WORDS_M1 + 1 of a load or store. -/
def Vi.words (i : Vi) : Nat := i.b 23 18 + 1
/-- AREG of a load or store. -/
def Vi.areg (i : Vi) : Bool := i.b 24 24 = 1

/-- The fields that an instruction uses. -/
structure Uses where
  vd : Bool := true
  va : Bool := false
  /-- Operand B, a register or the broadcast IMM. -/
  b : Bool := false
  /-- VB as a register only. -/
  vb : Bool := false
  vc : Bool := false
  imm : Bool := false

/-- Whether an instruction breaks R277, R279, R280 or R282: a reserved bit, a TYPE not allowed, an unused field that is not
0. -/
def Vi.bad (i : Vi) (types : List Nat) (u : Uses) : Bool :=
  i.b 31 31 ≠ 0 || !types.contains i.ty || (!u.vd && i.vd ≠ 0) || (!u.va && i.va ≠ 0) || (!u.vc && i.vc ≠ 0) ||
    (i.bi && !u.b) || (i.vb ≠ 0 && !(u.vb || (u.b && !i.bi))) || (i.imm ≠ 0 && !(u.imm || (u.b && i.bi))) ||
    (i.bi && i.ty = 1 && i.imm / 65536 ≠ 0)

/-- Whether a load or store breaks R278 or R280. -/
def Vi.badLs (i : Vi) : Bool := i.b 31 25 ≠ 0 || (!i.areg && i.va ≠ 0)

/-! ### Registers (R272) -/

/-- The 64 words of a register. -/
def Tile.words (x : Tile) (r : Nat) : List Nat := Tbl.getList 0 x.vreg (64 * r) 64

/-- Writes the 64 words of a register. -/
def Tile.setWords (x : Tile) (r : Nat) (ws : List Nat) : Tile := { x with vreg := Tbl.setList 0 x.vreg (64 * r) ws }

/-- The lanes of a register by TYPE: 64 of 32 bits, or 128 BF16 of 16 bits. -/
def lanesOf (ty : Nat) (ws : List Nat) : List Nat :=
  if ty = 1 then ws.flatMap fun w => [w % 65536, w / 65536 % 65536] else ws

/-- The words that lanes form. -/
def wordsOf (ty : Nat) (ls : List Nat) : List Nat :=
  if ty = 1 then (List.range 64).map fun k => nth ls (2 * k) 0 % 65536 + 65536 * (nth ls (2 * k + 1) 0 % 65536) else ls

/-- Operand B: the lanes of VB, or IMM in every lane (R279). -/
def Vi.opB (i : Vi) (x : Tile) : List Nat :=
  if i.bi then List.replicate (if i.ty = 1 then 128 else 64) (i.imm % (if i.ty = 1 then 65536 else 2 ^ 32))
  else lanesOf i.ty (x.words i.vb)

/-! ### Retiring -/

/-- An instruction retires: it is counted, and with it the cycles that a pace below 16 withheld from its issue (R640, R806);
its cycle is one of the tile's (R257, log 12). -/
def State.retire (s : State) (t flop : Nat) : State :=
  let pace := max 1 (nth s.pwr.regions (t / 12) {}).pace
  s.onOps t fun o =>
    let part := o.pacedPart + 720720 * (16 - pace) / pace
    { o with vecInstr := sat64 o.vecInstr 1, vecFlop := sat64 o.vecFlop flop, paced := sat64 o.paced (part / 720720)
             pacedPart := part % 720720 }

/-- An instruction waits in the vector engine (R313). -/
def State.vecHold (s : State) (t : Nat) (v : VecWait) : State := s.onTile t fun x => { x with vwait := x.vwait ++ [v] }

/-- The meaning of a vector row: it acts while the sequencer may issue (R276); a broken rule faults and writes nothing
(R318). While a row instruction occupies the engine it waits there and the sequencer goes on (R313; DESIGN CHOICE, log
94), but for an instruction that itself `stalls` the sequencer. -/
def vecRow (t : Nat) (i : Vi) (s : State) (bad : Bool) (run : State → State) (sram : Sram := .clean)
    (stalls : Bool := false) : Out :=
  if !s.mayIssue t then .next s
  else if (s.tile t).rowBusy && (bad || !stalls) then .next (s.vecHold t { op := i.op, w := i.w, sram := sram })
  else if bad then .next (s.fault t 0x101 0 i.op)
  else .next (run (s.tickTile t))

/-- A lane operation: VD receives the lanes that `f` makes of A, B and C, in VD's lane width. -/
def State.lanes3 (s : State) (t : Nat) (i : Vi) (flop : Nat) (f : Nat → Nat → Nat → Nat) : State :=
  let x := s.tile t
  let a := lanesOf i.ty (x.words i.va)
  let b := i.opB x
  let c := lanesOf i.ty (x.words i.vc)
  let out := ((a.zip b).zip c).map fun p => f p.1.1 p.1.2 p.2
  (s.onTile t fun x => x.setWords i.vd (wordsOf i.ty out)).retire t (flop * a.length)

/-- TYPE FP32 or BF16. -/
def tyF : List Nat := [0, 1]
/-- TYPE FP32, BF16 or INT32. -/
def tyFI : List Nat := [0, 1, 2]

/-- A lane's value by TYPE. -/
def laneNum (ty x : Nat) : Num := if ty = 1 then bf16 x else f32 x
/-- A value as a lane, rounded once with RNE (R273). -/
def toLane (ty : Nat) (v : Num) : Nat := if ty = 1 then (encodeFp 8 7 .rne false v).code else toF32 v
/-- The canonical NaN of a lane type. -/
def laneNan (ty : Nat) : Nat := if ty = 1 then 0x7FC0 else nan32
/-- All ones in a lane (R284). -/
def laneOnes (ty : Nat) : Nat := if ty = 1 then 0xFFFF else 0xFFFFFFFF

/-- A function of FP32 applied to a lane: a BF16 lane computes in FP32 and rounds once (R285). -/
def via32 (ty : Nat) (f : Nat → Nat) (a : Nat) : Nat :=
  if ty = 1 then (encodeFp 8 7 .rne false (f32 (f (a * 65536)))).code else f a

/-- A floating-point row of two operands. -/
def vec2 (t : TileIx) (i : Vi) (s : State) (f : Nat → Nat → Nat → Nat) : Out :=
  vecRow t.val i s (i.bad tyF { va := true, b := true }) fun s => s.lanes3 t.val i 1 fun a b _ => f i.ty a b

/-- A floating-point row of one operand. -/
def vec1 (t : TileIx) (i : Vi) (s : State) (f : Nat → Nat → Nat) : Out :=
  vecRow t.val i s (i.bad tyF { va := true }) fun s => s.lanes3 t.val i 1 fun a _ _ => f i.ty a

/-- A comparison row (R284): signed for INT32. -/
def vecCmp (t : TileIx) (i : Vi) (s : State) (f : Num → Num → Bool) (g : Int → Int → Bool) : Out :=
  vecRow t.val i s (i.bad tyFI { va := true, b := true }) fun s =>
    s.lanes3 t.val i (if i.ty = 2 then 0 else 1) fun a b _ =>
      let y := if i.ty = 2 then g (signed 32 a) (signed 32 b)
        else !(laneNum i.ty a).isNan && !(laneNum i.ty b).isNan && f (laneNum i.ty a) (laneNum i.ty b)
      if y then laneOnes i.ty else 0

/-- An INT32 row of two operands, modulo 2^32 (R273). -/
def vecInt (t : TileIx) (i : Vi) (s : State) (f : Nat → Nat → Nat) : Out :=
  vecRow t.val i s (i.bad [2] { va := true, b := true }) fun s =>
    s.lanes3 t.val i 0 fun a b _ => f a b % 2 ^ 32

/-! ### Arithmetic -/

/-- VADD (R273, R282). -/
def execVadd (t : TileIx) (w : BitVec 56) (s : State) : Out :=
  vec2 t ⟨0x01, w⟩ s fun ty a b => toLane ty ((laneNum ty a).add (laneNum ty b))
/-- VSUB (R273, R282). -/
def execVsub (t : TileIx) (w : BitVec 56) (s : State) : Out :=
  vec2 t ⟨0x02, w⟩ s fun ty a b => toLane ty ((laneNum ty a).add (laneNum ty b).neg)
/-- VMUL (R273, R282). -/
def execVmul (t : TileIx) (w : BitVec 56) (s : State) : Out :=
  vec2 t ⟨0x03, w⟩ s fun ty a b => toLane ty ((laneNum ty a).mul (laneNum ty b))
/-- VFMA (R273, R282): rounded once. -/
def execVfma (t : TileIx) (w : BitVec 56) (s : State) : Out :=
  let i : Vi := ⟨0x04, w⟩
  vecRow t.val i s (i.bad tyF { va := true, b := true, vc := true }) fun s =>
    s.lanes3 t.val i 2 fun a b c => toLane i.ty (((laneNum i.ty a).mul (laneNum i.ty b)).add (laneNum i.ty c))
/-- VMAX (R283). -/
def execVmax (t : TileIx) (w : BitVec 56) (s : State) : Out :=
  vec2 t ⟨0x05, w⟩ s fun ty a b => numMax (laneNum ty a) (laneNum ty b) a b (laneNan ty)
/-- VMIN (R283). -/
def execVmin (t : TileIx) (w : BitVec 56) (s : State) : Out :=
  vec2 t ⟨0x06, w⟩ s fun ty a b => numMin (laneNum ty a) (laneNum ty b) a b (laneNan ty)
/-- VABS (R74, R282). -/
def execVabs (t : TileIx) (w : BitVec 56) (s : State) : Out := vec1 t ⟨0x07, w⟩ s fun ty a => toLane ty (laneNum ty a).abs
/-- VNEG (R74, R282). -/
def execVneg (t : TileIx) (w : BitVec 56) (s : State) : Out := vec1 t ⟨0x08, w⟩ s fun ty a => toLane ty (laneNum ty a).neg
/-- VRCP (R285). -/
def execVrcp (t : TileIx) (w : BitVec 56) (s : State) : Out := vec1 t ⟨0x09, w⟩ s fun ty a => via32 ty f32rcp a
/-- VRSQRT (R285). -/
def execVrsqrt (t : TileIx) (w : BitVec 56) (s : State) : Out := vec1 t ⟨0x0A, w⟩ s fun ty a => via32 ty f32rsqrt a
/-- VSQRT (R285). -/
def execVsqrt (t : TileIx) (w : BitVec 56) (s : State) : Out := vec1 t ⟨0x0B, w⟩ s fun ty a => via32 ty f32sqrt a
/-- VEXP (R285). -/
def execVexp (t : TileIx) (w : BitVec 56) (s : State) : Out := vec1 t ⟨0x0C, w⟩ s fun ty a => via32 ty f32exp a
/-- VLOG (R285). -/
def execVlog (t : TileIx) (w : BitVec 56) (s : State) : Out := vec1 t ⟨0x0D, w⟩ s fun ty a => via32 ty f32log a
/-- VTANH (R285). -/
def execVtanh (t : TileIx) (w : BitVec 56) (s : State) : Out := vec1 t ⟨0x0E, w⟩ s fun ty a => via32 ty f32tanh a
/-- VSIGM (R285). -/
def execVsigm (t : TileIx) (w : BitVec 56) (s : State) : Out := vec1 t ⟨0x0F, w⟩ s fun ty a => via32 ty f32sigm a

/-! ### Comparison, selection, integers -/

/-- VCMPGT (R284). -/
def execVcmpgt (t : TileIx) (w : BitVec 56) (s : State) : Out :=
  vecCmp t ⟨0x10, w⟩ s (fun a b => b.lt a) fun a b => decide (b < a)
/-- VCMPGE (R284). -/
def execVcmpge (t : TileIx) (w : BitVec 56) (s : State) : Out :=
  vecCmp t ⟨0x11, w⟩ s (fun a b => !a.lt b) fun a b => decide (b ≤ a)
/-- VCMPEQ (R284). -/
def execVcmpeq (t : TileIx) (w : BitVec 56) (s : State) : Out :=
  vecCmp t ⟨0x12, w⟩ s (fun a b => !a.lt b && !b.lt a) fun a b => decide (a = b)
/-- VSEL (R282): the test is on the bits of C's lane. -/
def execVsel (t : TileIx) (w : BitVec 56) (s : State) : Out :=
  let i : Vi := ⟨0x13, w⟩
  vecRow t.val i s (i.bad tyFI { va := true, b := true, vc := true }) fun s =>
    s.lanes3 t.val i 0 fun a b c => if c ≠ 0 then a else b
/-- VIADD (R273). -/
def execViadd (t : TileIx) (w : BitVec 56) (s : State) : Out := vecInt t ⟨0x18, w⟩ s fun a b => a + b
/-- VISUB (R273). -/
def execVisub (t : TileIx) (w : BitVec 56) (s : State) : Out := vecInt t ⟨0x19, w⟩ s fun a b => a + (2 ^ 32 - b)
/-- VAND. -/
def execVand (t : TileIx) (w : BitVec 56) (s : State) : Out := vecInt t ⟨0x1A, w⟩ s fun a b => a &&& b
/-- VOR. -/
def execVor (t : TileIx) (w : BitVec 56) (s : State) : Out := vecInt t ⟨0x1B, w⟩ s fun a b => a ||| b
/-- VXOR. -/
def execVxor (t : TileIx) (w : BitVec 56) (s : State) : Out := vecInt t ⟨0x1C, w⟩ s fun a b => a ^^^ b
/-- VSHL: by b[4:0]. -/
def execVshl (t : TileIx) (w : BitVec 56) (s : State) : Out := vecInt t ⟨0x1D, w⟩ s fun a b => a <<< (b % 32)
/-- VSHR: by b[4:0], filling with 0. -/
def execVshr (t : TileIx) (w : BitVec 56) (s : State) : Out := vecInt t ⟨0x1E, w⟩ s fun a b => a >>> (b % 32)
/-- VIMUL: the low 32 bits. -/
def execVimul (t : TileIx) (w : BitVec 56) (s : State) : Out := vecInt t ⟨0x1F, w⟩ s fun a b => a * b
/-- VMOV. -/
def execVmov (t : TileIx) (w : BitVec 56) (s : State) : Out :=
  let i : Vi := ⟨0x20, w⟩
  vecRow t.val i s (i.bad tyFI { b := true }) fun s => s.lanes3 t.val i 0 fun _ b _ => b

/-- Writes a register's words and retires. -/
def State.putReg (s : State) (t : Nat) (r : Nat) (ws : List Nat) (flop : Nat := 0) : State :=
  (s.onTile t fun x => x.setWords r ws).retire t flop

/-- VLANE. -/
def execVlane (t : TileIx) (w : BitVec 56) (s : State) : Out :=
  let i : Vi := ⟨0x21, w⟩
  vecRow t.val i s (i.bad [2] {}) fun s => s.putReg t.val i.vd (List.range 64)

/-! ### Conversions (R287 to R290) -/

/-- An FP32 code to INT32 (R287). -/
def f32ToInt (a : Nat) : Nat :=
  match f32 a with
  | .nan => 0
  | .inf n => unsigned 32 (if n then -(2 ^ 31) + 1 else 2 ^ 31 - 1)
  | .fin n m e =>
    let q : Int := quantMag .rne (.fin false m e) 0
    unsigned 32 (max (-(2 ^ 31) + 1) (min (2 ^ 31 - 1) (if n then -q else q)))

/-- An INT32 code to FP32 with RNE. -/
def intToF32 (a : Nat) : Nat := let v := signed 32 a; toF32 (.fin (decide (v < 0)) v.natAbs 0)

/-- VCVT (R287). -/
def execVcvt (t : TileIx) (w : BitVec 56) (s : State) : Out :=
  let i : Vi := ⟨0x22, w⟩
  vecRow t.val i s (i.bad [0, 2] { va := true }) fun s =>
    s.putReg t.val i.vd (((s.tile t.val).words i.va).map fun a => if i.ty = 2 then f32ToInt a else intToF32 a)

/-- VPACK (R76, R77, R288, R289). -/
def execVpack (t : TileIx) (w : BitVec 56) (s : State) : Out :=
  let i : Vi := ⟨0x23, w⟩
  let m := i.imm
  vecRow t.val i s (i.bad [0] { va := true, vb := true, imm := true } || bits m 7 3 ≠ 0 || bits m 31 16 ≠ 0) fun s =>
    let x := s.tile t.val
    let us := if bit m 0 then s.drawsOf t.val else []
    let r := ((x.words i.va) ++ (x.words i.vb)).zipIdx.map fun p =>
      encodeElem (if bit m 2 then 3 else 2) (rndOf (bit m 0) us p.2) (bit m 1) p.1
    let c := r.foldl (fun a q => a.add q.2) {}
    (s.count (bits m 15 8) c).putReg t.val i.vd (wordsOf 1 (r.map (·.1)))

/-- VUNPK (R290). -/
def execVunpk (t : TileIx) (w : BitVec 56) (s : State) : Out :=
  let i : Vi := ⟨0x24, w⟩
  let m := i.imm
  vecRow t.val i s (i.bad [0] { va := true, imm := true } || m &&& (2 ^ 32 - 1 - 5) ≠ 0) fun s =>
    let h := ((lanesOf 1 ((s.tile t.val).words i.va)).drop (if bit m 0 then 64 else 0)).take 64
    s.putReg t.val i.vd (h.map fun a => toF32 (if bit m 2 then fp16 a else bf16 a))

/-! ### Reductions (R286) -/

/-- The pair order over six levels (R237, R286). -/
def pairs (f : Nat → Nat → Nat) : Nat → List Nat → Nat
  | 0, l => nth l 0 0
  | n + 1, l => pairs f n ((List.range (l.length / 2)).map fun k => f (nth l (2 * k) 0) (nth l (2 * k + 1) 0))

/-- VMAX of FP32 codes. -/
def f32max (a b : Nat) : Nat := numMax (f32 a) (f32 b) a b nan32

/-- VRSUM (R286). -/
def execVrsum (t : TileIx) (w : BitVec 56) (s : State) : Out :=
  let i : Vi := ⟨0x28, w⟩
  vecRow t.val i s (i.bad [0] { va := true }) fun s =>
    s.putReg t.val i.vd (List.replicate 64 (pairs f32add 6 ((s.tile t.val).words i.va))) 63
/-- VRMAX (R286). -/
def execVrmax (t : TileIx) (w : BitVec 56) (s : State) : Out :=
  let i : Vi := ⟨0x29, w⟩
  vecRow t.val i s (i.bad [0] { va := true }) fun s =>
    s.putReg t.val i.vd (List.replicate 64 (pairs f32max 6 ((s.tile t.val).words i.va))) 63

/-! ### Generators and dropout (R261, R291 to R293) -/

/-- VRAND (R291): bits [63:32] of the lane's generator. -/
def execVrand (t : TileIx) (w : BitVec 56) (s : State) : Out :=
  let i : Vi := ⟨0x2C, w⟩
  vecRow t.val i s (i.bad [2] {}) fun s =>
    let u := s.drawsOf t.val
    s.putReg t.val i.vd ((List.range 64).map fun j => 65536 * nth u j 0 + nth u (64 + j) 0)

/-- A number as the 64 words of a register. -/
def bitReg (n : Nat) : List Nat := (List.range 64).map fun k => bits n (32 * k + 31) (32 * k)

/-- VDMASK (R258, R261, R292). -/
def execVdmask (t : TileIx) (w : BitVec 56) (s : State) : Out :=
  let i : Vi := ⟨0x2D, w⟩
  vecRow t.val i s (i.bad tyF { imm := true } || i.imm / 65536 ≠ 0) fun s =>
    let u := s.drawsOf t.val
    let draw (e : Nat) : Nat := if i.ty = 1 then nth u (e / 2 + 64 * (e % 2)) 0 else nth u e 0
    let n := (List.range (if i.ty = 1 then 128 else 64)).foldl
      (fun a e => if draw e < i.imm % 65536 then a else a + 2 ^ e) 0
    s.putReg t.val i.vd (bitReg n)

/-- VMSEL (R293). -/
def execVmsel (t : TileIx) (w : BitVec 56) (s : State) : Out :=
  let i : Vi := ⟨0x2E, w⟩
  vecRow t.val i s (i.bad tyF { va := true, vb := true }) fun s =>
    let x := s.tile t.val
    let m := x.words i.vb
    let ls := (lanesOf i.ty (x.words i.va)).zipIdx.map fun p => if bit (nth m (p.2 / 32) 0) (p.2 % 32) then p.1 else 0
    s.putReg t.val i.vd (wordsOf i.ty ls)

/-! ### Loads and stores (R281, R294 to R297) -/

/-- The effective address (R281). -/
def Vi.ea (i : Vi) (x : Tile) : Nat := (i.imm + (if i.areg then nth (x.words i.va) 0 0 else 0)) % 2 ^ 32

/-- A load or store of `n` bytes: place, poison mark and SRAM code of what it reads, then its effect. -/
def State.lsAccess (s : State) (t : Nat) (i : Vi) (n : Nat) (load : Bool) (sram : Sram) (run : State → Nat → State) :
    State :=
  let a := i.ea (s.tile t)
  if !aligned a 4 || !inLs a n then s.fault t 0x103 0 i.op
  else if load && (s.tile t).marked a n then s.fault t 0x111 0 i.op
  else
    let q := s.sramRead t sram
    if q.2 then q.1.fault t 0x112 0 i.op else run q.1 a

/-- Little-endian words of a byte string. -/
def toWords (b : Bytes) (n : Nat) : List Nat := (List.range n).map fun k => field b (4 * k) 4

/-- VLD (R281, R294, R295, R859). -/
def execVld (t : TileIx) (w : BitVec 56) (sram : Sram) (s : State) : Out :=
  let i : Vi := ⟨0x30, w⟩
  vecRow (sram := sram) t.val i s i.badLs fun s => s.lsAccess t.val i (4 * i.words) true sram fun s a =>
    s.putReg t.val i.vd (toWords ((s.tile t.val).get a (4 * i.words) ++ List.replicate (256 - 4 * i.words) 0) 64)

/-- VST (R281, R294 to R296): the store lands at once (DESIGN CHOICE, log 17). -/
def execVst (t : TileIx) (w : BitVec 56) (s : State) : Out :=
  let i : Vi := ⟨0x31, w⟩
  vecRow t.val i s i.badLs fun s => s.lsAccess t.val i (4 * i.words) false .clean fun s a =>
    let b := (((s.tile t.val).words i.vd).take i.words).flatMap (toBytes 4)
    (s.onTile t.val fun x => { x.put a b false with unfenced := true }).retire t.val 0

/-- VLDBC (R281, R294). -/
def execVldbc (t : TileIx) (w : BitVec 56) (sram : Sram) (s : State) : Out :=
  let i : Vi := ⟨0x32, w⟩
  vecRow (sram := sram) t.val i s (i.badLs || i.words ≠ 1) fun s => s.lsAccess t.val i 4 true sram fun s a =>
    s.putReg t.val i.vd (List.replicate 64 (field ((s.tile t.val).get a 4) 0 4))

/-! ### The finished-tile queue (R303, R305, R859) -/

/-- Whether a DRAIN into the finished-tile queue is queued or running. -/
def Tile.ftqDrain (x : Tile) : Bool := x.mxq.any fun c => c.op == 2 && recBits c.main 18 16 == 3 && c.st < 2

/-- A VLDQ takes the oldest entry, waits for an entry or for the engine, or faults. -/
def State.vldq (s : State) (t vd : Nat) : State :=
  if (s.tile t).rowBusy then s.onTile t fun x => { x with seq := .vldq vd, since := s.now }
  else
  match (s.tile t).ftq with
  | e :: q =>
    let s := s.onTile t fun x => { x with ftq := q, seq := .run }
    if e.poison then s.fault t 0x111 0 0x33 else s.putReg t vd e.vals
  | [] =>
    if (s.tile t).ftqDrain then s.onTile t fun x => { x with seq := .vldq vd, since := s.now }
    else s.fault t 0x108 0 0x33

/-- VLDQ (R305, R306, R859). -/
def execVldq (t : TileIx) (w : BitVec 56) (s : State) : Out :=
  let i : Vi := ⟨0x33, w⟩
  vecRow (stalls := true) t.val i s (i.bad [0] {}) fun s => s.vldq t.val i.vd

/-- VLDQ_RESUME (R305): an entry has come for the waiting VLDQ, or no drain is left to bring one; while a row instruction
occupies the engine it waits on (R313). -/
def execVldqResume (t : TileIx) (s : State) : Out :=
  match (s.tile t.val).seq with
  | .vldq vd => .next (s.vldq t.val vd)
  | _ => .next s

/-- VFENCE (R296, R297): engine and sequencer wait for the stores, those of a row instruction in progress and of what
waits behind it included. -/
def execVfence (t : TileIx) (w : BitVec 56) (s : State) : Out :=
  let i : Vi := ⟨0x34, w⟩
  vecRow (stalls := true) t.val i s (i.bad [0] { vd := false }) fun s =>
    (s.onTile t.val fun x => { x with seq := .vfence, since := s.now }).retire t.val 0

/-- VFENCE_DONE (R296): every earlier store is written. -/
def execVfenceDone (t : TileIx) (s : State) : Out :=
  if (s.tile t.val).seq = .vfence && !(s.tile t.val).rowBusy then
    .next (s.onTile t.val fun x => { x with seq := .run, unfenced := false })
  else .next s

/-! ### Format slots (R298 to R302) -/

/-- Whether a slot's format breaks R299. -/
def slotBad (d : Desc) : Bool := !d.ok || d.format == 0x30 || d.format == 0x31

/-- VFMT (R298, R299, R318). -/
def execVfmt (t : TileIx) (w : BitVec 56) (sram : Sram) (s : State) : Out :=
  let i : Vi := ⟨0x38, w⟩
  vecRow (sram := sram) t.val i s (i.bad [0] { vd := false, va := true, vc := true, imm := true } || 3 < i.vc) fun s =>
    let x := s.tile t.val
    let d := s.descAt t.val i.imm
    let q := s.sramRead t.val sram
    if descPlace i.imm then s.fault t.val 0x103 0 i.op
    else if x.marked i.imm 48 then s.fault t.val 0x111 0 i.op
    else if q.2 then q.1.fault t.val 0x112 0 i.op
    else if slotBad d then q.1.fault t.val 0x102 0 i.op
    else
      let f : FmtSlot := { loaded := true, desc := d, block := nth (x.words i.va) 0 0, ptr := nth (x.words i.va) 1 0 }
      (q.1.onTile t.val fun x => { x with slots := setAt x.slots i.vc fun _ => f }).retire t.val 0

/-- A slot moves on past 64 elements (R300, R301). -/
def FmtSlot.advance (f : FmtSlot) : FmtSlot :=
  { f with ptr := (f.ptr + f.desc.rowBytes 64) % 2 ^ 32, block := (f.block + (if f.desc.block then 2 else 0)) % 2 ^ 32 }

/-- VENC (R300, R302). -/
def execVenc (t : TileIx) (w : BitVec 56) (s : State) : Out :=
  let i : Vi := ⟨0x39, w⟩
  vecRow t.val i s (i.bad [0] { vd := false, va := true, vc := true } || 3 < i.vc) fun s =>
    let x := s.tile t.val
    let f := nth x.slots i.vc {}
    if !f.loaded then s.fault t.val 0x102 0 i.op
    else if !inLs f.ptr (f.desc.rowBytes 64) then s.fault t.val 0x103 0 i.op
    else
      let e := s.encRow f.desc (x.words i.va) (if f.desc.sto then s.drawsOf t.val else []) f.block
      if e.2.2 ≠ 0 then s.fault t.val e.2.2 0 i.op
      else
        (e.2.1.onTile t.val fun x =>
          { x.put f.ptr e.1 false with slots := setAt x.slots i.vc FmtSlot.advance, unfenced := true }).retire t.val 0

/-- VDEC (R93, R301, R302, R859). -/
def execVdec (t : TileIx) (w : BitVec 56) (sram : Sram) (s : State) : Out :=
  let i : Vi := ⟨0x3A, w⟩
  vecRow (sram := sram) t.val i s (i.bad [0] { vc := true } || 3 < i.vc) fun s =>
    let x := s.tile t.val
    let f := nth x.slots i.vc {}
    let n := f.desc.rowBytes 64
    let q := s.sramRead t.val sram
    if !f.loaded then s.fault t.val 0x102 0 i.op
    else if !inLs f.ptr n then s.fault t.val 0x103 0 i.op
    else if x.marked f.ptr n then s.fault t.val 0x111 0 i.op
    else if s.runFault f.desc (x.get f.ptr n) ≠ 0 then s.fault t.val (s.runFault f.desc (x.get f.ptr n)) 0 i.op
    else if q.2 then q.1.fault t.val 0x112 0 i.op
    else
      let d := q.1.decRun f.desc (x.get f.ptr n) 0 64
      let s := q.1.count f.desc.cset { malformed := d.2 }
      (s.onTile t.val fun x => { x with slots := setAt x.slots i.vc FmtSlot.advance }).putReg t.val i.vd (d.1.map toF32)

/-- HINT (R315 to R317). -/
def execHint (t : TileIx) (w : BitVec 56) (s : State) : Out :=
  let i : Vi := ⟨0x50, w⟩
  let m := i.imm
  vecRow t.val i s
    (i.bad [0] { vd := false, imm := true } || bits m 7 6 ≠ 0 || bits m 31 19 ≠ 0 || 2000 < bits m 18 8) fun s =>
    (s.notice (t.val / 12) t.val (bits m 5 0) (s.now + 4 * bits m 18 8)).retire t.val 0

end Sys2Proof.Machine
end

