-- ==== Sys2Proof/Machine/RowFn.lean ====
section
/-! DEFINITION. The row instructions ROWF and ROWR (R236 to R240, R310 to R314). -/

namespace Sys2Proof.Machine

/-- A row descriptor (R310). -/
structure RowD where
  x : Nat
  out : Nat
  dy : Nat
  gamma : Nat
  beta : Nat
  dgamma : Nat
  dbeta : Nat
  param : Nat
  n : Nat
  causal : Nat
  xfmt : Nat
  ofmt : Nat
  dyfmt : Nat
  func : Nat
  rest : Nat

/-- Reads a row descriptor. -/
def RowD.parse (b : Bytes) : RowD :=
  let f (i : Nat) : Nat := field b i 4
  { x := f 0, out := f 4, dy := f 8, gamma := f 12, beta := f 16, dgamma := f 20, dbeta := f 24, param := f 28
    n := f 32, causal := f 36, xfmt := f 40, ofmt := f 44, dyfmt := f 48, func := field b 52 1, rest := field b 53 11 }

/-- Whether a row descriptor breaks R310 or R311: a reserved value, or a field unused for its function not 0. DEDUCED,
log 64. -/
def RowD.bad (r : RowD) (replay : Bool) : Bool :=
  r.rest ≠ 0 || 2 < r.func || r.n = 0 || 65536 < r.n ||
    (r.func = 2 && r.gamma ≠ 0) || (r.func ≠ 0 && r.beta ≠ 0) || (r.func ≠ 0 && r.dbeta ≠ 0) ||
    (if r.func = 2 then r.causal = 0 || r.n < r.causal else r.causal ≠ 0) ||
    (!replay && (r.dy ≠ 0 || r.dgamma ≠ 0 || r.dbeta ≠ 0 || r.dyfmt ≠ 0))

/-- The rows that a row instruction reads or writes: offsets and lengths (R310, R311). -/
def RowD.rows (r : RowD) (replay : Bool) (dx dy do_ : Desc) : List (Nat × Nat) :=
  let norm := r.func ≠ 2
  [(r.x, (dx.runAt 0 r.n).2), (r.out, (do_.runAt 0 r.n).2)] ++
    (if norm then [(r.gamma, 4 * r.n)] else []) ++
    (if r.func = 0 && !replay then [(r.beta, 4 * r.n)] else []) ++
    (if replay then [(r.dy, (dy.runAt 0 r.n).2)] else []) ++
    (if replay && norm then [(r.dgamma, 4 * r.n)] else []) ++
    (if replay && r.func = 0 then [(r.dbeta, 4 * r.n)] else [])

/-! ### Arithmetic (R237, R238): each operation is rounded once, in the order written (DEDUCED, log 18) -/

/-- FP32 subtraction. DEDUCED, log 18. -/
def f32sub (a b : Nat) : Nat := f32add a (f32neg b)

/-- A sum over a row (R237): 64 lane partials from +0, then pairs. -/
def rowSum (xs : List Nat) : Nat :=
  pairs f32add 6 ((List.range 64).map fun l =>
    (xs.zipIdx.filter fun p => p.2 % 64 == l).foldl (fun a p => f32add a p.1) 0)

/-- mean(·) (R238): the sum multiplied by the FP32 value of 1 / n. -/
def rowMean (xs : List Nat) : Nat := f32mul (rowSum xs) (numDiv (.fin false 1 0) (.fin false xs.length 0))

/-- Element by element. -/
def rowZip (f : Nat → Nat → Nat) (a b : List Nat) : List Nat := (a.zip b).map fun p => f p.1 p.2

/-- The normalised row and ρ (R238). -/
def rowHat (func eps : Nat) (x : List Nat) : List Nat × Nat :=
  if func = 0 then
    let mu := rowMean x
    let d := x.map fun v => f32sub v mu
    let rho := f32rsqrt (f32add (rowMean (rowZip f32mul d d)) eps)
    (d.map fun v => f32mul v rho, rho)
  else
    let rho := f32rsqrt (f32add (rowMean (rowZip f32mul x x)) eps)
    (x.map fun v => f32mul v rho, rho)

/-- The softmax of a row with its causal length (R238): the exponentials times the reciprocal of their sum. -/
def rowSoft (tau c : Nat) (x : List Nat) : List Nat :=
  let z := x.zipIdx.map fun p => if c ≤ p.2 then 0xFF800000 else f32mul tau p.1
  let m := z.foldl f32max 0xFF800000
  let e := z.map fun v => f32exp (f32sub v m)
  let r := f32rcp (rowSum e)
  e.map fun v => f32mul v r

/-- The forward output (R238). -/
def rowFwd (func param c : Nat) (x ga be : List Nat) : List Nat :=
  match func with
  | 0 => rowZip f32add (rowZip f32mul (rowHat 0 param x).1 ga) be
  | 1 => rowZip f32mul (rowHat 1 param x).1 ga
  | _ => rowSoft param c x

/-- The replay (R238): dx, and what is added to dγ and dβ. -/
def rowBack (func param c : Nat) (x ga dy : List Nat) : List Nat × List Nat × List Nat :=
  if func = 2 then
    let p := rowSoft param c x
    let sum := rowSum (rowZip f32mul dy p)
    ((p.zip dy).map fun q => f32mul param (f32mul q.1 (f32sub q.2 sum)), [], [])
  else
    let h := rowHat func param x
    let g := rowZip f32mul dy ga
    let mg := rowMean g
    let mh := rowMean (rowZip f32mul g h.1)
    let dx := (g.zip h.1).map fun q =>
      let a := if func = 0 then f32sub q.1 mg else q.1
      f32mul h.2 (f32sub a (f32mul q.2 mh))
    (dx, rowZip f32mul dy h.1, if func = 0 then dy else [])

/-! ### The instruction -/

/-- FP32 codes of `n` elements at a local-store offset. -/
def Tile.f32s (x : Tile) (o n : Nat) : List Nat := toWords (x.get o (4 * n)) n

/-- Encodes an output row, 64 elements with their own draws at a time, block indices from 0 (R300, R314): bytes, state,
fault code. `fuel` at least the number of chunks. -/
def State.encOut (t : Nat) (d : Desc) : Nat → State → List Nat → Nat → Bytes × State × Nat
  | 0, s, _, _ => ([], s, 0)
  | f + 1, s, xs, k =>
    if xs.isEmpty then ([], s, 0)
    else
      let s := s.tickTile t
      let e := s.encRow d (xs.take 64) (if d.sto then s.drawsOf t else []) k
      if e.2.2 ≠ 0 then e
      else
        let r := State.encOut t d f e.2.1 (xs.drop 64) (k + 2)
        (e.1 ++ r.1, r.2)

/-- What a row instruction computes and stores: a state, or a fault code (R238, R310 to R314). -/
def State.rowRun (s : State) (t : Nat) (r : RowD) (replay : Bool) (dx dy do_ : Desc) : State × Nat :=
  let x := s.tile t
  let qx := s.decRun dx (x.get r.x (dx.runAt 0 r.n).2) 0 r.n
  let s1 := s.count dx.cset { malformed := qx.2 }
  let xs := qx.1.map toF32
  let qy := if replay then s1.decRun dy (x.get r.dy (dy.runAt 0 r.n).2) 0 r.n else ([], 0)
  let s1 := if replay then s1.count dy.cset { malformed := qy.2 } else s1
  let ga := x.f32s r.gamma r.n
  let be := x.f32s r.beta r.n
  let b := if replay then rowBack r.func r.param r.causal xs ga (qy.1.map toF32)
    else (rowFwd r.func r.param r.causal xs ga be, [], [])
  let e := State.encOut t do_ (r.n / 64 + 1) s1 b.1 0
  if e.2.2 ≠ 0 then (s, e.2.2)
  else
    let addTo (s : State) (o : Nat) (vs : List Nat) : State :=
      if vs.isEmpty then s
      else s.onTile t fun y => y.put o ((rowZip f32add (x.f32s o r.n) vs).flatMap (toBytes 4)) false
    let s2 := e.2.1.onTile t fun y => y.put r.out e.1 false
    (addTo (addTo s2 r.dgamma b.2.1) r.dbeta b.2.2, 0)

/-- Whether a format may be a row's (R299, R314). -/
def rowFmtBad (d : Desc) (n : Nat) (out : Bool) : Bool := slotBad d || (out && d.block && n % 32 ≠ 0)

/-- The checks of a row instruction, in order (R310, R311, R314, R318, R859): a fault code, or 0. -/
def State.rowCheck (s : State) (t a : Nat) (replay : Bool) : Nat :=
  let x := s.tile t
  let r := RowD.parse (x.get a 64)
  let fs := [r.xfmt, r.ofmt] ++ (if replay then [r.dyfmt] else [])
  let dx := s.descAt t r.xfmt
  let do_ := s.descAt t r.ofmt
  let dy := s.descAt t r.dyfmt
  let rows := r.rows replay dx dy do_
  firstFault [
    (!aligned a 16 || !inLs a 64, 0x103), (x.marked a 64, 0x111), (r.bad replay, 0x101),
    (fs.any descPlace, 0x103), (fs.any fun o => x.marked o 48, 0x111),
    (rowFmtBad dx r.n false || rowFmtBad do_ r.n true || (replay && rowFmtBad dy r.n false), 0x102),
    (rows.any fun p => !inLs p.1 p.2, 0x103),
    (rows.zipIdx.any fun p => p.2 ≠ 1 && x.marked p.1.1 p.1.2, 0x111),
    (s.runFault dx (x.get r.x (dx.runAt 0 r.n).2) ≠ 0, s.runFault dx (x.get r.x (dx.runAt 0 r.n).2)),
    (replay && s.runFault dy (x.get r.dy (dy.runAt 0 r.n).2) ≠ 0, s.runFault dy (x.get r.dy (dy.runAt 0 r.n).2))]

/-- A row instruction: it occupies the engine until ROW_INSTR_DONE (R313); v24 to v31 hold free values (R312). -/
def rowInstr (t : Nat) (i : Vi) (replay : Bool) (sram : Sram) (s : State) : Out :=
  vecRow (sram := sram) t i s (i.bad [0] { vd := false, imm := true }) fun s =>
    let f := s.rowCheck t i.imm replay
    let q := s.sramRead t sram
    if f ≠ 0 then s.fault t f 0 i.op
    else if q.2 then q.1.fault t 0x112 0 i.op
    else
      let r := RowD.parse ((s.tile t).get i.imm 64)
      let o := q.1.rowRun t r replay (s.descAt t r.xfmt) (s.descAt t r.dyfmt) (s.descAt t r.ofmt)
      if o.2 ≠ 0 then q.1.fault t o.2 0 i.op
      else
        let v := o.1.draws 32 512
        let f := v.2.draw 32
        (f.2.onTile t fun x =>
          { x with vreg := Tbl.setList 0 x.vreg 1536 v.1, rowBusy := true, unfenced := true }).retire t f.1

/-- ROWF (R236 to R239, R310 to R314, R318). -/
def execRowf (t : TileIx) (w : BitVec 56) (sram : Sram) (s : State) : Out := rowInstr t.val ⟨0x40, w⟩ false sram s

/-- ROWR (R236 to R240, R310 to R314, R318). -/
def execRowr (t : TileIx) (w : BitVec 56) (sram : Sram) (s : State) : Out := rowInstr t.val ⟨0x41, w⟩ true sram s

/-- The meaning of a vector instruction that has waited (R282): by its opcode; one of no opcode of the table faults
(R318). -/
def vecAgain (t : TileIx) (v : VecWait) (s : State) : Out :=
  match v.op with
  | 0x1 => execVadd t v.w s
  | 0x2 => execVsub t v.w s
  | 0x3 => execVmul t v.w s
  | 0x4 => execVfma t v.w s
  | 0x5 => execVmax t v.w s
  | 0x6 => execVmin t v.w s
  | 0x7 => execVabs t v.w s
  | 0x8 => execVneg t v.w s
  | 0x9 => execVrcp t v.w s
  | 0xa => execVrsqrt t v.w s
  | 0xb => execVsqrt t v.w s
  | 0xc => execVexp t v.w s
  | 0xd => execVlog t v.w s
  | 0xe => execVtanh t v.w s
  | 0xf => execVsigm t v.w s
  | 0x10 => execVcmpgt t v.w s
  | 0x11 => execVcmpge t v.w s
  | 0x12 => execVcmpeq t v.w s
  | 0x13 => execVsel t v.w s
  | 0x18 => execViadd t v.w s
  | 0x19 => execVisub t v.w s
  | 0x1a => execVand t v.w s
  | 0x1b => execVor t v.w s
  | 0x1c => execVxor t v.w s
  | 0x1d => execVshl t v.w s
  | 0x1e => execVshr t v.w s
  | 0x1f => execVimul t v.w s
  | 0x20 => execVmov t v.w s
  | 0x21 => execVlane t v.w s
  | 0x22 => execVcvt t v.w s
  | 0x23 => execVpack t v.w s
  | 0x24 => execVunpk t v.w s
  | 0x28 => execVrsum t v.w s
  | 0x29 => execVrmax t v.w s
  | 0x2c => execVrand t v.w s
  | 0x2d => execVdmask t v.w s
  | 0x2e => execVmsel t v.w s
  | 0x30 => execVld t v.w v.sram s
  | 0x31 => execVst t v.w s
  | 0x32 => execVldbc t v.w v.sram s
  | 0x33 => execVldq t v.w s
  | 0x34 => execVfence t v.w s
  | 0x38 => execVfmt t v.w v.sram s
  | 0x39 => execVenc t v.w s
  | 0x3a => execVdec t v.w v.sram s
  | 0x40 => execRowf t v.w v.sram s
  | 0x41 => execRowr t v.w v.sram s
  | 0x50 => execHint t v.w s
  | op => .next (s.fault t.val 0x101 0 op)

/-- The instructions that waited begin in their order, until another row instruction takes the engine or one of them
faults (R276, R313, R318). The sequencer stands where it stood; what it waits for does not hold them back. -/
def State.vecDrain (t : TileIx) : List VecWait → State → State
  | [], s => s
  | v :: vs, s =>
    let x := s.tile t.val
    if x.rowBusy then s.onTile t.val fun y => { y with vwait := v :: vs }
    else
      match vecAgain t v (s.onTile t.val fun y => { y with seq := .run, held := false }) with
      | .next r =>
        if (r.tile t.val).seq = .run then
          State.vecDrain t vs (r.onTile t.val fun y => { y with seq := x.seq, held := x.held })
        else r.onTile t.val fun y => { y with held := x.held }
      | _ => s

/-- ROW_INSTR_DONE (R313): the vector engine is free, and the instructions that waited for it follow. -/
def execRowInstrDone (t : TileIx) (s : State) : Out :=
  .next (State.vecDrain t (s.tile t.val).vwait (s.onTile t.val fun x => { x with rowBusy := false, vwait := [] }))

end Sys2Proof.Machine
end

