-- ==== Sys2Proof/Machine/Sequencer.lean ====
section
/-! DEFINITION. Issue of command records (R142, R214, R454, R479), a stalled sequencer (R143, R216, R456, R482), and reserved
opcodes (R142, R318). -/

namespace Sys2Proof.Machine

/-- The opcodes of the command records (R142, R214, R454, R479). -/
def recordOps : List Nat := [1, 2, 3, 4, 5, 6, 0x41, 0x42, 0x43, 0x44, 0x61, 0x62, 0x63, 0x64, 0x65]

/-- The opcodes of the vector instructions (R282). -/
def vectorOps : List Nat :=
  (List.range 0x13).map (1 + ·) ++ (List.range 13).map (0x18 + ·) ++
    [0x28, 0x29, 0x2C, 0x2D, 0x2E, 0x30, 0x31, 0x32, 0x33, 0x34, 0x38, 0x39, 0x3A, 0x40, 0x41, 0x50]

/-- A sequencer issues the record at an offset, whatever it is. -/
def State.issueAny (s : State) (t op a : Nat) : State :=
  let op := if s.recFault t a = 0 then field ((s.tile t).get a 64) 0 1 else op
  if !recordOps.contains op then s.fault t 0x101 a op
  else if op < 0x10 then s.issueMx t op a
  else if op < 0x50 then s.issuePn t op a
  else s.issueFab t op a

/-- Whether the queue of a command is full. -/
def State.queueFull (s : State) (t op : Nat) : Bool :=
  if op < 0x10 then 16 ≤ (s.tile t).mxq.length else if op < 0x50 then 8 ≤ (s.tile t).panq.length else s.fabFull t op

/-- SEQUENCER_RESUME (R143, R216, R456, R482). -/
def execSequencerResume (t : TileIx) (s : State) : Out :=
  match (s.tile t.val).seq with
  | .stall op a =>
    if s.queueFull t.val op || (s.tile t.val).held then .next s
    else .next ((s.onTile t.val fun x => { x with seq := .run }).issueAny t.val op a)
  | _ => .next s

/-! ### The rows of the command records -/

/-- The row of the table for opcode `op`: while the sequencer may issue, it issues the record that stands at the offset.
Where that is a readable record of another opcode, its OP byte decides (R142; DEDUCED, log 53). -/
def issueRow (t a op : Nat) (s : State) : Out := if !s.mayIssue t then .next s else .next (s.issueAny t op a)

/-- MM (R133, R142, R143, R146 to R151). -/
def execMm (t : TileIx) (a : BitVec 22) (s : State) : Out :=
  issueRow t.val a.toNat 1 s

/-- DRAIN (R142, R150, R178, R182, R862). -/
def execDrain (t : TileIx) (a : BitVec 22) (s : State) : Out :=
  issueRow t.val a.toNat 2 s

/-- TOPK (R150, R178, R187, R190). -/
def execTopk (t : TileIx) (a : BitVec 22) (s : State) : Out :=
  issueRow t.val a.toNat 3 s

/-- TOPK_MERGE (R150, R191). -/
def execTopkMerge (t : TileIx) (a : BitVec 22) (s : State) : Out :=
  issueRow t.val a.toNat 4 s

/-- ZERO (R150, R860). -/
def execZero (t : TileIx) (a : BitVec 22) (s : State) : Out :=
  issueRow t.val a.toNat 5 s

/-- BARRIER (R142, R860). -/
def execBarrier (t : TileIx) (a : BitVec 22) (s : State) : Out :=
  issueRow t.val a.toNat 6 s

/-- PUSH (R214 to R218). -/
def execPush (t : TileIx) (a : BitVec 22) (s : State) : Out :=
  issueRow t.val a.toNat 0x41 s

/-- POP (R214 to R218). -/
def execPop (t : TileIx) (a : BitVec 22) (s : State) : Out :=
  issueRow t.val a.toNat 0x42 s

/-- PEEK (R214 to R218). -/
def execPeek (t : TileIx) (a : BitVec 22) (s : State) : Out :=
  issueRow t.val a.toNat 0x43 s

/-- RESET (R214 to R218). -/
def execReset (t : TileIx) (a : BitVec 22) (s : State) : Out :=
  issueRow t.val a.toNat 0x44 s

/-- STREAM (R454 to R456). -/
def execStream (t : TileIx) (a : BitVec 22) (s : State) : Out :=
  issueRow t.val a.toNat 0x61 s
/-- COPY (R479, R482, R513). -/
def execCopy (t : TileIx) (a : BitVec 22) (s : State) : Out :=
  issueRow t.val a.toNat 0x62 s
/-- CTR_WAIT (R479, R482, R516). -/
def execCtrWait (t : TileIx) (a : BitVec 22) (s : State) : Out :=
  issueRow t.val a.toNat 0x63 s
/-- FENCE (R479, R482, R510). -/
def execFence (t : TileIx) (a : BitVec 22) (s : State) : Out :=
  issueRow t.val a.toNat 0x64 s
/-- REMOTE (R479, R480, R482). -/
def execRemote (t : TileIx) (a : BitVec 22) (s : State) : Out :=
  issueRow t.val a.toNat 0x65 s

/-- RESERVED_OPCODE (R142, R151, R318, R748): a record, or a vector instruction, of no opcode of the tables. A record
whose OP byte is in them is issued; of a vector instruction the row has no operands but the opcode, so that one of the
tables has nothing to run (log 53). -/
def execReservedOpcode (t : TileIx) (vec : Bool) (op : BitVec 8) (a : BitVec 22) (s : State) : Out :=
  if !s.mayIssue t.val then .next s
  else if vec then
    if vectorOps.contains op.toNat then .fault .otherOpcode
    else if (s.tile t.val).rowBusy then .next (s.vecHold t.val { op := op.toNat })
    else .next (s.fault t.val 0x101 0 op.toNat)
  else
    let f := s.recFault t.val a.toNat
    let o := field ((s.tile t.val).get a.toNat 64) 0 1
    if f ≠ 0 then .next (s.fault t.val f a.toNat op.toNat)
    else .next (s.issueAny t.val o a.toNat)

end Sys2Proof.Machine
end

