-- ==== Sys2Proof/Machine/Dispatch.lean ====
section
/-! DEFINITION. The one dispatch from a command to its meaning. -/

namespace Sys2Proof.Machine

/-- The effect of a command on everything but the queue of waiting commands. -/
def exec (i : Instr) (s : State) : Host.Outcome State Fault Refusal :=
  match i with
  | .mm t a => Sys2Proof.Machine.execMm t a s
  | .drain t a => Sys2Proof.Machine.execDrain t a s
  | .topk t a => Sys2Proof.Machine.execTopk t a s
  | .topkMerge t a => Sys2Proof.Machine.execTopkMerge t a s
  | .zero t a => Sys2Proof.Machine.execZero t a s
  | .barrier t a => Sys2Proof.Machine.execBarrier t a s
  | .arrayCmdStart t cols accBad sram => Sys2Proof.Machine.execArrayCmdStart t cols accBad sram s
  | .drainUnitStart t stop accBad sram adds => Sys2Proof.Machine.execDrainUnitStart t stop accBad sram adds s
  | .arrayCmdDone t => Sys2Proof.Machine.execArrayCmdDone t s
  | .drainUnitDone t sumBad => Sys2Proof.Machine.execDrainUnitDone t sumBad s
  | .barrierDone t => Sys2Proof.Machine.execBarrierDone t s
  | .drainResume t stop sram adds => Sys2Proof.Machine.execDrainResume t stop sram adds s
  | .sequencerResume t => Sys2Proof.Machine.execSequencerResume t s
  | .carouselMoveDone g => Sys2Proof.Machine.execCarouselMoveDone g s
  | .spareSelfTest g cols => Sys2Proof.Machine.execSpareSelfTest g cols s
  | .meshFlitResend d plane failed => Sys2Proof.Machine.execMeshFlitResend d plane failed s
  | .ucieLinkRetry n lane repair => Sys2Proof.Machine.execUcieLinkRetry n lane repair s
  | .ucieRetrainDone n ok => Sys2Proof.Machine.execUcieRetrainDone n ok s
  | .fmtCntClearCounts k => Sys2Proof.Machine.execFmtCntClearCounts k s
  | .fmtCntClearAlloc k => Sys2Proof.Machine.execFmtCntClearAlloc k s
  | .push t a => Sys2Proof.Machine.execPush t a s
  | .pop t a => Sys2Proof.Machine.execPop t a s
  | .peek t a => Sys2Proof.Machine.execPeek t a s
  | .reset t a => Sys2Proof.Machine.execReset t a s
  | .pannierCmdStart t sram => Sys2Proof.Machine.execPannierCmdStart t sram s
  | .pushDone t => Sys2Proof.Machine.execPushDone t s
  | .popDone t => Sys2Proof.Machine.execPopDone t s
  | .spillDone t => Sys2Proof.Machine.execSpillDone t s
  | .restoreDone t ok far => Sys2Proof.Machine.execRestoreDone t ok far s
  | .popGraceExpiry t => Sys2Proof.Machine.execPopGraceExpiry t s
  | .mbDone t index => Sys2Proof.Machine.execMbDone t index s
  | .commit p step => Sys2Proof.Machine.execCommit p step s
  | .tandemSwap => Sys2Proof.Machine.execTandemSwap s
  | .swapComplete => Sys2Proof.Machine.execSwapComplete s
  | .repeatOrder p step attempt cause patches => Sys2Proof.Machine.execRepeatOrder p step attempt cause patches s
  | .repeatDrained => Sys2Proof.Machine.execRepeatDrained s
  | .repeatRestart => Sys2Proof.Machine.execRepeatRestart s
  | .snapshotCopyDone => Sys2Proof.Machine.execSnapshotCopyDone s
  | .snapshotTimeout => Sys2Proof.Machine.execSnapshotTimeout s
  | .vadd t w => Sys2Proof.Machine.execVadd t w s
  | .vsub t w => Sys2Proof.Machine.execVsub t w s
  | .vmul t w => Sys2Proof.Machine.execVmul t w s
  | .vfma t w => Sys2Proof.Machine.execVfma t w s
  | .vmax t w => Sys2Proof.Machine.execVmax t w s
  | .vmin t w => Sys2Proof.Machine.execVmin t w s
  | .vabs t w => Sys2Proof.Machine.execVabs t w s
  | .vneg t w => Sys2Proof.Machine.execVneg t w s
  | .vrcp t w => Sys2Proof.Machine.execVrcp t w s
  | .vrsqrt t w => Sys2Proof.Machine.execVrsqrt t w s
  | .vsqrt t w => Sys2Proof.Machine.execVsqrt t w s
  | .vexp t w => Sys2Proof.Machine.execVexp t w s
  | .vlog t w => Sys2Proof.Machine.execVlog t w s
  | .vtanh t w => Sys2Proof.Machine.execVtanh t w s
  | .vsigm t w => Sys2Proof.Machine.execVsigm t w s
  | .vcmpgt t w => Sys2Proof.Machine.execVcmpgt t w s
  | .vcmpge t w => Sys2Proof.Machine.execVcmpge t w s
  | .vcmpeq t w => Sys2Proof.Machine.execVcmpeq t w s
  | .vsel t w => Sys2Proof.Machine.execVsel t w s
  | .viadd t w => Sys2Proof.Machine.execViadd t w s
  | .visub t w => Sys2Proof.Machine.execVisub t w s
  | .vand t w => Sys2Proof.Machine.execVand t w s
  | .vor t w => Sys2Proof.Machine.execVor t w s
  | .vxor t w => Sys2Proof.Machine.execVxor t w s
  | .vshl t w => Sys2Proof.Machine.execVshl t w s
  | .vshr t w => Sys2Proof.Machine.execVshr t w s
  | .vimul t w => Sys2Proof.Machine.execVimul t w s
  | .vmov t w => Sys2Proof.Machine.execVmov t w s
  | .vlane t w => Sys2Proof.Machine.execVlane t w s
  | .vcvt t w => Sys2Proof.Machine.execVcvt t w s
  | .vpack t w => Sys2Proof.Machine.execVpack t w s
  | .vunpk t w => Sys2Proof.Machine.execVunpk t w s
  | .vrsum t w => Sys2Proof.Machine.execVrsum t w s
  | .vrmax t w => Sys2Proof.Machine.execVrmax t w s
  | .vrand t w => Sys2Proof.Machine.execVrand t w s
  | .vdmask t w => Sys2Proof.Machine.execVdmask t w s
  | .vmsel t w => Sys2Proof.Machine.execVmsel t w s
  | .vld t w sram => Sys2Proof.Machine.execVld t w sram s
  | .vst t w => Sys2Proof.Machine.execVst t w s
  | .vldbc t w sram => Sys2Proof.Machine.execVldbc t w sram s
  | .vldq t w => Sys2Proof.Machine.execVldq t w s
  | .vldqResume t => Sys2Proof.Machine.execVldqResume t s
  | .vfence t w => Sys2Proof.Machine.execVfence t w s
  | .vfenceDone t => Sys2Proof.Machine.execVfenceDone t s
  | .vfmt t w sram => Sys2Proof.Machine.execVfmt t w sram s
  | .venc t w => Sys2Proof.Machine.execVenc t w s
  | .vdec t w sram => Sys2Proof.Machine.execVdec t w sram s
  | .rowf t w sram => Sys2Proof.Machine.execRowf t w sram s
  | .rowr t w sram => Sys2Proof.Machine.execRowr t w sram s
  | .rowInstrDone t => Sys2Proof.Machine.execRowInstrDone t s
  | .hint t w => Sys2Proof.Machine.execHint t w s
  | .noticeDue g => Sys2Proof.Machine.execNoticeDue g s
  | .boostStart g => Sys2Proof.Machine.execBoostStart g s
  | .boostEnd g => Sys2Proof.Machine.execBoostEnd g s
  | .reduce p retry fail => Sys2Proof.Machine.execReduce p retry fail s
  | .reduceEnd p sum blocks idx flags => Sys2Proof.Machine.execReduceEnd p sum blocks idx flags s
  | .reduceResult p code => Sys2Proof.Machine.execReduceResult p code s
  | .creditReturn tree ctl => Sys2Proof.Machine.execCreditReturn tree ctl s
  | .ledgerReport p step attempt m => Sys2Proof.Machine.execLedgerReport p step attempt m s
  | .ledgerRepeatRequest p step attempt cause => Sys2Proof.Machine.execLedgerRepeatRequest p step attempt cause s
  | .resultBad p step attempt tag => Sys2Proof.Machine.execResultBad p step attempt tag s
  | .beatTimer => Sys2Proof.Machine.execBeatTimer s
  | .ledgerBeat p live size => Sys2Proof.Machine.execLedgerBeat p live size s
  | .beatTimeout => Sys2Proof.Machine.execBeatTimeout s
  | .hardLimitExpiry => Sys2Proof.Machine.execHardLimitExpiry s
  | .standbyDecision p o => Sys2Proof.Machine.execStandbyDecision p o s
  | .standbyAck p o => Sys2Proof.Machine.execStandbyAck p o s
  | .heartbeatTimer => Sys2Proof.Machine.execHeartbeatTimer s
  | .heartbeat p => Sys2Proof.Machine.execHeartbeat p s
  | .standbyTakeover => Sys2Proof.Machine.execStandbyTakeover s
  | .pageRetireDone m => Sys2Proof.Machine.execPageRetireDone m s
  | .relayoutDone n => Sys2Proof.Machine.execRelayoutDone n s
  | .hbmInterfaceError m cleared => Sys2Proof.Machine.execHbmInterfaceError m cleared s
  | .channelRetrainDone m ok => Sys2Proof.Machine.execChannelRetrainDone m ok s
  | .scrubRead m errs => Sys2Proof.Machine.execScrubRead m errs s
  | .hbmTempRead n temp => Sys2Proof.Machine.execHbmTempRead n temp s
  | .hbmRefresh m lost => Sys2Proof.Machine.execHbmRefresh m lost s
  | .heatEpoch => Sys2Proof.Machine.execHeatEpoch s
  | .promote => Sys2Proof.Machine.execPromote s
  | .promoteGranule p => Sys2Proof.Machine.execPromoteGranule p s
  | .promoteAbandon p => Sys2Proof.Machine.execPromoteAbandon p s
  | .evict => Sys2Proof.Machine.execEvict s
  | .evictDone p => Sys2Proof.Machine.execEvictDone p s
  | .evictAbandon p => Sys2Proof.Machine.execEvictAbandon p s
  | .writebackAge p g => Sys2Proof.Machine.execWritebackAge p g s
  | .writebackAck num => Sys2Proof.Machine.execWritebackAck num s
  | .buddyForwardAck num => Sys2Proof.Machine.execBuddyForwardAck num s
  | .buddyTimeout => Sys2Proof.Machine.execBuddyTimeout s
  | .buddyPoison src off => Sys2Proof.Machine.execBuddyPoison src off s
  | .reseedDone => Sys2Proof.Machine.execReseedDone s
  | .stream t a => Sys2Proof.Machine.execStream t a s
  | .streamDataDone t ix => Sys2Proof.Machine.execStreamDataDone t ix s
  | .streamDeadline t ix => Sys2Proof.Machine.execStreamDeadline t ix s
  | .streamStaleCopyDone t ix => Sys2Proof.Machine.execStreamStaleCopyDone t ix s
  | .tlRead p busy errs => Sys2Proof.Machine.execTlRead p busy errs s
  | .tlWrite p busy errs => Sys2Proof.Machine.execTlWrite p busy errs s
  | .tlAdd p busy => Sys2Proof.Machine.execTlAdd p busy s
  | .tlMin p busy => Sys2Proof.Machine.execTlMin p busy s
  | .tlMax p busy => Sys2Proof.Machine.execTlMax p busy s
  | .tlCas p busy => Sys2Proof.Machine.execTlCas p busy s
  | .tlInval p => Sys2Proof.Machine.execTlInval p s
  | .tlResponse p => Sys2Proof.Machine.execTlResponse p s
  | .rtoExpiry num => Sys2Proof.Machine.execRtoExpiry num s
  | .reachTimeout num => Sys2Proof.Machine.execReachTimeout num s
  | .retryAfterExpiry num => Sys2Proof.Machine.execRetryAfterExpiry num s
  | .tokenExpiry token => Sys2Proof.Machine.execTokenExpiry token s
  | .combineFlush => Sys2Proof.Machine.execCombineFlush s
  | .copy t a => Sys2Proof.Machine.execCopy t a s
  | .ctrWait t a => Sys2Proof.Machine.execCtrWait t a s
  | .fence t a => Sys2Proof.Machine.execFence t a s
  | .remote t a => Sys2Proof.Machine.execRemote t a s
  | .fabricCmdStart t sram => Sys2Proof.Machine.execFabricCmdStart t sram s
  | .copyDone t ix engines spoiled => Sys2Proof.Machine.execCopyDone t ix engines spoiled s
  | .ctrWaitDone t ix => Sys2Proof.Machine.execCtrWaitDone t ix s
  | .ctrWaitTimeout t ix => Sys2Proof.Machine.execCtrWaitTimeout t ix s
  | .fenceDone t ix => Sys2Proof.Machine.execFenceDone t ix s
  | .remoteDone t ix => Sys2Proof.Machine.execRemoteDone t ix s
  | .frameDiscard p f => Sys2Proof.Machine.execFrameDiscard p f s
  | .arpRequest p f sender target => Sys2Proof.Machine.execArpRequest p f sender target s
  | .neighborSolicitation p f target => Sys2Proof.Machine.execNeighborSolicitation p f target s
  | .icmpEchoRequest p f body => Sys2Proof.Machine.execIcmpEchoRequest p f body s
  | .pfcReceive p times freed => Sys2Proof.Machine.execPfcReceive p times freed s
  | .lldpReceive p tlv len => Sys2Proof.Machine.execLldpReceive p tlv len s
  | .lldpTransmit p => Sys2Proof.Machine.execLldpTransmit p s
  | .lldpNeighborExpiry p => Sys2Proof.Machine.execLldpNeighborExpiry p s
  | .linkBringUp p sh2 => Sys2Proof.Machine.execLinkBringUp p sh2 s
  | .linkTrained p delay => Sys2Proof.Machine.execLinkTrained p delay s
  | .linkTrainFail p => Sys2Proof.Machine.execLinkTrainFail p s
  | .laneLossOfLock p l => Sys2Proof.Machine.execLaneLossOfLock p l s
  | .laneSerWindow p l errs symbols words => Sys2Proof.Machine.execLaneSerWindow p l errs symbols words s
  | .directReplay p seq => Sys2Proof.Machine.execDirectReplay p seq s
  | .ptpEventMessage p m domain sub unicast len => Sys2Proof.Machine.execPtpEventMessage p m domain sub unicast len s
  | .timeSourceSilence => Sys2Proof.Machine.execTimeSourceSilence s
  | .hello port addr exch flags body => Sys2Proof.Machine.execHello port addr exch flags body s
  | .offerSigned => Sys2Proof.Machine.execOfferSigned s
  | .confirm port addr exch flags body => Sys2Proof.Machine.execConfirm port addr exch flags body s
  | .exchangeTimeout exch => Sys2Proof.Machine.execExchangeTimeout exch s
  | .eventAck h => Sys2Proof.Machine.execEventAck h s
  | .eventRetransmit session num => Sys2Proof.Machine.execEventRetransmit session num s
  | .sessionIdle session => Sys2Proof.Machine.execSessionIdle session s
  | .decisionDeadline num => Sys2Proof.Machine.execDecisionDeadline num s
  | .nop h => Sys2Proof.Machine.execNop h s
  | .sessionClose h => Sys2Proof.Machine.execSessionClose h s
  | .eventSubscribe h warning info => Sys2Proof.Machine.execEventSubscribe h warning info s
  | .modeSet h f assisted => Sys2Proof.Machine.execModeSet h f assisted s
  | .repairDecide h choice => Sys2Proof.Machine.execRepairDecide h choice s
  | .tierMove h page evict => Sys2Proof.Machine.execTierMove h page evict s
  | .spareDecide h unback => Sys2Proof.Machine.execSpareDecide h unback s
  | .splitDecide h weights => Sys2Proof.Machine.execSplitDecide h weights s
  | .routeSet h dev path => Sys2Proof.Machine.execRouteSet h dev path s
  | .leadDecide h takeover => Sys2Proof.Machine.execLeadDecide h takeover s
  | .logDrainDecide h push => Sys2Proof.Machine.execLogDrainDecide h push s
  | .resAcquire h owner res => Sys2Proof.Machine.execResAcquire h owner res s
  | .resRelease h r => Sys2Proof.Machine.execResRelease h r s
  | .resReleaseDone r => Sys2Proof.Machine.execResReleaseDone r s
  | .resQuery h => Sys2Proof.Machine.execResQuery h s
  | .gpioSet h pay => Sys2Proof.Machine.execGpioSet h pay s
  | .gpioGet h inputs => Sys2Proof.Machine.execGpioGet h inputs s
  | .timerSet h timer ns => Sys2Proof.Machine.execTimerSet h timer ns s
  | .capSet h pay => Sys2Proof.Machine.execCapSet h pay s
  | .siteBudget h pay => Sys2Proof.Machine.execSiteBudget h pay s
  | .funcReinit h pay => Sys2Proof.Machine.execFuncReinit h pay s
  | .funcReinitDone session seq cols => Sys2Proof.Machine.execFuncReinitDone session seq cols s
  | .devReset h sel => Sys2Proof.Machine.execDevReset h sel s
  | .trayPowerCycle h => Sys2Proof.Machine.execTrayPowerCycle h s
  | .powerCycleTimeout => Sys2Proof.Machine.execPowerCycleTimeout s
  | .memRead h a n errs => Sys2Proof.Machine.execMemRead h a n errs s
  | .memWrite h a data => Sys2Proof.Machine.execMemWrite h a data s
  | .ctlRead h o n => Sys2Proof.Machine.execCtlRead h o n s
  | .programLoad h load tiles mb => Sys2Proof.Machine.execProgramLoad h load tiles mb s
  | .tandemSet h pay a u units => Sys2Proof.Machine.execTandemSet h pay a u units s
  | .tagTableLoad h load => Sys2Proof.Machine.execTagTableLoad h load s
  | .pageTableLoad h table frames base mirror list buddy => Sys2Proof.Machine.execPageTableLoad h table frames base mirror list buddy s
  | .pageSet h page entry => Sys2Proof.Machine.execPageSet h page entry s
  | .jobStart h => Sys2Proof.Machine.execJobStart h s
  | .jobStop h => Sys2Proof.Machine.execJobStop h s
  | .jobRetry h => Sys2Proof.Machine.execJobRetry h s
  | .jobUnload h => Sys2Proof.Machine.execJobUnload h s
  | .tierPin h pages pin => Sys2Proof.Machine.execTierPin h pages pin s
  | .tierFlush h first count => Sys2Proof.Machine.execTierFlush h first count s
  | .tierBuddy h dev pages => Sys2Proof.Machine.execTierBuddy h dev pages s
  | .snapshotShip h off len dst key step => Sys2Proof.Machine.execSnapshotShip h off len dst key step s
  | .paramSet h pay => Sys2Proof.Machine.execParamSet h pay s
  | .logRead h pay => Sys2Proof.Machine.execLogRead h pay s
  | .logAck h pay => Sys2Proof.Machine.execLogAck h pay s
  | .info h => Sys2Proof.Machine.execInfo h s
  | .periscopeSet h pay => Sys2Proof.Machine.execPeriscopeSet h pay s
  | .loupeReport h pay => Sys2Proof.Machine.execLoupeReport h pay s
  | .loupePass2 session seq => Sys2Proof.Machine.execLoupePass2 session seq s
  | .quote h pay => Sys2Proof.Machine.execQuote h pay s
  | .quoteSigned => Sys2Proof.Machine.execQuoteSigned s
  | .fwStage h pay => Sys2Proof.Machine.execFwStage h pay s
  | .fwStageDone written => Sys2Proof.Machine.execFwStageDone written s
  | .fwActivate h pay sel => Sys2Proof.Machine.execFwActivate h pay sel s
  | .devNumberSet h pay n => Sys2Proof.Machine.execDevNumberSet h pay n s
  | .teamLoad h load t => Sys2Proof.Machine.execTeamLoad h load t s
  | .standbySet h dev => Sys2Proof.Machine.execStandbySet h dev s
  | .regionTableLoad h pay load => Sys2Proof.Machine.execRegionTableLoad h pay load s
  | .regionSet h ix entry => Sys2Proof.Machine.execRegionSet h ix entry s
  | .pathTableLoad h pay load offset => Sys2Proof.Machine.execPathTableLoad h pay load offset s
  | .groupLoad h pay group root parent children => Sys2Proof.Machine.execGroupLoad h pay group root parent children s
  | .portSet h pay => Sys2Proof.Machine.execPortSet h pay s
  | .portReset h p => Sys2Proof.Machine.execPortReset h p s
  | .evcSourceAssert x => Sys2Proof.Machine.execEvcSourceAssert x s
  | .evcRouteWrite n v => Sys2Proof.Machine.execEvcRouteWrite n v s
  | .corePowerDown core => Sys2Proof.Machine.execCorePowerDown core s
  | .coreWake core ok => Sys2Proof.Machine.execCoreWake core ok s
  | .vinSample mv => Sys2Proof.Machine.execVinSample mv s
  | .powerSample vin vaux regions => Sys2Proof.Machine.execPowerSample vin vaux regions s
  | .phaseCheck g faulted => Sys2Proof.Machine.execPhaseCheck g faulted s
  | .phaseReenable g k => Sys2Proof.Machine.execPhaseReenable g k s
  | .reinInterval => Sys2Proof.Machine.execReinInterval s
  | .fastLimiter amps => Sys2Proof.Machine.execFastLimiter amps s
  | .vlogicReport g => Sys2Proof.Machine.execVlogicReport g s
  | .clockChange => Sys2Proof.Machine.execClockChange s
  | .droopTrip g k => Sys2Proof.Machine.execDroopTrip g k s
  | .droopClear g k => Sys2Proof.Machine.execDroopClear g k s
  | .stretchReturn d => Sys2Proof.Machine.execStretchReturn d s
  | .vminRead g => Sys2Proof.Machine.execVminRead g s
  | .regionAdmitTest g => Sys2Proof.Machine.execRegionAdmitTest g s
  | .regionPowerOnDone g => Sys2Proof.Machine.execRegionPowerOnDone g s
  | .regionDefer g => Sys2Proof.Machine.execRegionDefer g s
  | .regionPowerOff g => Sys2Proof.Machine.execRegionPowerOff g s
  | .vrAlertFall => Sys2Proof.Machine.execVrAlertFall s
  | .regAlert => Sys2Proof.Machine.execRegAlert s
  | .alertForceEnd gp3 => Sys2Proof.Machine.execAlertForceEnd gp3 s
  | .budgetStale => Sys2Proof.Machine.execBudgetStale s
  | .sensorConversion q a b => Sys2Proof.Machine.execSensorConversion q a b s
  | .trayReport rep => Sys2Proof.Machine.execTrayReport rep s
  | .trayRequestRefresh => Sys2Proof.Machine.execTrayRequestRefresh s
  | .coolantLimitUpdate => Sys2Proof.Machine.execCoolantLimitUpdate s
  | .flowPulse => Sys2Proof.Machine.execFlowPulse s
  | .pumpFailInput active => Sys2Proof.Machine.execPumpFailInput active s
  | .coolantRestore => Sys2Proof.Machine.execCoolantRestore s
  | .thermalTrip q => Sys2Proof.Machine.execThermalTrip q s
  | .warmFloorCheck => Sys2Proof.Machine.execWarmFloorCheck s
  | .idleActivityAdjust => Sys2Proof.Machine.execIdleActivityAdjust s
  | .refclkLoss => Sys2Proof.Machine.execRefclkLoss s
  | .timeclkLoss => Sys2Proof.Machine.execTimeclkLoss s
  | .timeclkReturn => Sys2Proof.Machine.execTimeclkReturn s
  | .ppsInEdge sub => Sys2Proof.Machine.execPpsInEdge sub s
  | .ppsOutEdge => Sys2Proof.Machine.execPpsOutEdge s
  | .logMove => Sys2Proof.Machine.execLogMove s
  | .dorlenWatchdog core running => Sys2Proof.Machine.execDorlenWatchdog core running s
  | .groomWatchdog => Sys2Proof.Machine.execGroomWatchdog s
  | .vauxUp => Sys2Proof.Machine.execVauxUp s
  | .vauxFall => Sys2Proof.Machine.execVauxFall s
  | .rstNAssert => Sys2Proof.Machine.execRstNAssert s
  | .rstNDeassert sel => Sys2Proof.Machine.execRstNDeassert sel s
  | .pwrgdRise => Sys2Proof.Machine.execPwrgdRise s
  | .pwrgdFall => Sys2Proof.Machine.execPwrgdFall s
  | .imageCheckDone => Sys2Proof.Machine.execImageCheckDone s
  | .hbmTrainingDone full cols => Sys2Proof.Machine.execHbmTrainingDone full cols s
  | .akReady => Sys2Proof.Machine.execAkReady s
  | .ready => Sys2Proof.Machine.execReady s
  | .trialTimeout => Sys2Proof.Machine.execTrialTimeout s
  | .opsClearTiles => Sys2Proof.Machine.execOpsClearTiles s
  | .opsClearDevice => Sys2Proof.Machine.execOpsClearDevice s
  | .periscopeTimer => Sys2Proof.Machine.execPeriscopeTimer s
  | .periscopePin rising => Sys2Proof.Machine.execPeriscopePin rising s
  | .registerWrite o v => Sys2Proof.Machine.execRegisterWrite o v s
  | .bootSelSample sel => Sys2Proof.Machine.execBootSelSample sel s
  | .refclkReturn => Sys2Proof.Machine.execRefclkReturn s
  | .vrAlertRise gp3 status => Sys2Proof.Machine.execVrAlertRise gp3 status s
  | .ppsOutFall => Sys2Proof.Machine.execPpsOutFall s
  | .programLoadDone => Sys2Proof.Machine.execProgramLoadDone s
  | .pageTableLoadDone => Sys2Proof.Machine.execPageTableLoadDone s
  | .leadAnnounce p old => Sys2Proof.Machine.execLeadAnnounce p old s
  | .jobOrderReceived p o => Sys2Proof.Machine.execJobOrderReceived p o s
  | .logDrainRequest => Sys2Proof.Machine.execLogDrainRequest s
  | .halterMessageDiscard port len => Sys2Proof.Machine.execHalterMessageDiscard port len s
  | .halterUnknownCode h code => Sys2Proof.Machine.execHalterUnknownCode h code s
  | .reservedOpcode t vec op a => Sys2Proof.Machine.execReservedOpcode t vec op a s
  | .rowShadowDone m => Sys2Proof.Machine.execRowShadowDone m s
  | .homeQueueRelease ix => Sys2Proof.Machine.execHomeQueueRelease ix s
  | .uncorrectableCodeword p l => Sys2Proof.Machine.execUncorrectableCodeword p l s
  | .directModeAck p seq => Sys2Proof.Machine.execDirectModeAck p seq s
  | .pfcPauseExpiry p c => Sys2Proof.Machine.execPfcPauseExpiry p c s
  | .ptpIntervalTimer p w => Sys2Proof.Machine.execPtpIntervalTimer p w s
  | .traceRecordSent => Sys2Proof.Machine.execTraceRecordSent s

end Sys2Proof.Machine
end

