-- ==== Sys2Proof/Safety.lean ====
section
/-! DEFINITION. What counts as a safe step and a safe run: no fault and no refusal. The shape that a state keeps, and what
no command takes back. -/

namespace Sys2Proof.Machine

/-- A step is safe where it answers a next state. -/
def safeStep (s : State) : Bool :=
  match step s with
  | .next _ => true
  | .fault _ => false
  | .refused _ => false

/-- A run of `n` steps is safe where each of them is. -/
def safeRun : Nat → State → Bool
  | 0, _ => true
  | n + 1, s =>
    match step s with
    | .next t => safeRun n t
    | .fault _ => false
    | .refused _ => false

/-- The shape of a state: memory and its unit metadata in their canonical form, job and step states that the spec lists
(R247, R579), and the populations that it gives the device: 18 ports, 192 logical tiles in 16 regions, 20 resources, 512
event routes, 5 cores, 214 thermal sites, 2 dies, 6 stacks. -/
structure State.Shape (s : State) : Prop where
  bytes : Tbl.wf 0 s.hbm.bytes = true
  unitMeta : Tbl.wf {} s.hbm.unitMeta = true
  job : s.hal.job < 4
  step : s.step.st < 5
  ports : s.ports.length = 18
  map : s.pkg.map.length = 192
  regions : s.pkg.regions.length = 16
  res : s.hal.res.length = 20
  evc : s.hal.evc.length = 512
  cores : s.hal.cores.length = 5
  sites : s.heat.sites.length = 214
  power : s.pwr.regions.length = 16
  dies : s.pwr.dies.length = 2
  stk : s.hbm.stk.length = 6

/-- What no command takes back: the queue that waits behind it, the version below which no image starts (R773), the
owner's keys in a start that is not in PROVISION, and the slots and columns of the retirement record. -/
structure State.Keeps (s t : State) : Prop where
  pending : t.pending = s.pending
  svnFloor : s.flash.svnFloor ≤ t.flash.svnFloor
  owner : s.boot.bootSel ≠ 2 → t.flash.owner = s.flash.owner
  slots : s.flash.slots ⊆ t.flash.slots
  cols : s.flash.cols ⊆ t.flash.cols

/-! ### Words of the statements -/

/-- From `s`, command `c` completes: `exec` answers a next state, and `p` holds of it. -/
def Does (c : Instr) (s : State) (p : State → Prop) : Prop := ∃ t, exec c s = .next t ∧ p t

/-- Of a next state: nothing but tile `k` has changed. -/
structure TileOnly (s t : State) (k : Nat) : Prop where
  rest : t = { s with tiles := t.tiles }
  others : ∀ j, j ≠ k → t.tile j = s.tile j

/-- A vector instruction of tile `k` wrote its destination and retired (R272, R276, R806, R257): every other word of the
registers, and all of the tile but its registers, its cycle and its operation counters, is as it was. Of the counters
VEC_INSTR and VEC_FLOP count, and PACED what the pace withheld (R640). -/
structure VecRest (x y : Tile) (vd flop : Nat) : Prop where
  regs : ∀ q, q < 64 * vd ∨ 64 * vd + 64 ≤ q → Tbl.get 0 y.vreg q = Tbl.get 0 x.vreg q
  tile : y = { x with vreg := y.vreg, vcyc := y.vcyc, ops := y.ops }
  ops : y.ops = { x.ops with vecInstr := sat64 x.ops.vecInstr 1, vecFlop := sat64 x.ops.vecFlop flop, paced := y.ops.paced,
                             pacedPart := y.ops.pacedPart }

/-- Word `j` of register `r` (R272). -/
def Tile.word (x : Tile) (r j : Nat) : Nat := Tbl.get 0 x.vreg (64 * r + j)

/-- Lane `l` of register `r` by TYPE: a word, or for BF16 its low half for an even lane and its high half for an odd one
(R272). -/
def Tile.lane (x : Tile) (ty r l : Nat) : Nat :=
  if ty = 1 then (if l % 2 = 0 then x.word r (l / 2) % 65536 else x.word r (l / 2) / 65536 % 65536) else x.word r l

/-- Lane `l` of operand B: that of VB, or IMM broadcast (R279). -/
def Vi.laneB (i : Vi) (x : Tile) (l : Nat) : Nat :=
  if i.bi then i.imm % (if i.ty = 1 then 65536 else 2 ^ 32) else x.lane i.ty i.vb l

/-- Lanes of a register by TYPE. -/
def lanesOfTy (ty : Nat) : Nat := if ty = 1 then 128 else 64

/-- What a BF16 lane holds of a number. -/
def laneFit (ty v : Nat) : Nat := if ty = 1 then v % 65536 else v

/-- A command of Halter is accepted (R567, R572, R573, R575 to R577, R588): its session is open, has no reply of its number
and is not 1,024 numbers past it, its mailbox is that of its code and has room, its role allows it, and the job state is
one of `modes`. -/
structure Accepted (s : State) (h : Hdr) (code modes : Nat) (observe : Bool) : Prop where
  session : ∃ x, s.session h.session = some x ∧ (x.replies.find? fun r => r.seq == h.seq) = none ∧
    x.high < h.seq + 1024 ∧ (observe = true ∨ x.control = true)
  mailbox : h.mailbox = code / 256
  room : s.mailboxUsed (code / 256) < 64
  mode : bit modes s.hal.job = true

/-- The state in which an accepted command runs: its session has been heard and has counted the number. -/
def State.accept (s : State) (h : Hdr) : State :=
  (s.heardFrom h).onSession h.session fun x => { x with high := max x.high h.seq }

/-- A REDUCE request as it arrives (R353, R476). -/
def redPkt (p : Pkt) (m : Msg) : Pkt := { p with op := 0x40, msg := some m }

/-- A LEDGER request as it arrives: its kind in AUX, and its numbers (R363, R476). -/
def ledPkt (p : Pkt) (kind : Nat) (args : List Nat) : Pkt := { p with op := 0x41, aux := kind, msg := some (.ledger args) }

/-- A port has taken in a packet and counted it (R530, R552). -/
def State.packetIn (s : State) (p : Pkt) : State :=
  (s.rxCount p.port (pktLen p)).rxClass p.port (pktClass p) (pktLen p) p.freed

/-- The same, with its bytes counted in DEV_OPS (R806). -/
def State.packetHeard (s : State) (p : Pkt) : State :=
  let t := s.packetIn p
  { t with obs := { t.obs with fabRx := sat64 t.obs.fabRx p.data.length } }

/-- A REDUCE or LEDGER request of another device comes whole, for this device, into a port with room, as the next of its
sender's numbers with nothing before it that waits, and well-formed; the home refuses it with status `st`, 0 for none (R467,
R473, R475, R476, R487 to R494, R498, R553). -/
structure State.MsgComes (s : State) (p : Pkt) (st : Nat) : Prop where
  src : p.src ≠ s.fab.device ∧ p.src < 2 ^ 18
  room : s.rxBeyond p.port (pktClass p) (pktLen p) p.freed = false
  numbered : s.fab.numbered = true
  whole : p.crcOk = true
  dst : p.dst = s.fab.device
  scope : addrScope p.addr = 1
  next : (s.packetHeard p).isNext p = true
  order : (s.packetHeard p).orderHold s.fab.queue p false = false
  formed : (s.packetHeard p).malformed p = false
  refusal : (s.packetHeard p).refusal p = st

/-- Whether this device acts on a REDUCE or LEDGER request: its own, which is no packet (R469), or one that its home applies. -/
def State.Takes (s : State) (p : Pkt) : Prop := p.src = s.fab.device ∨ s.MsgComes p 0

/-- The state in which it acts: as it stands on its own message, with the packet counted and answered on another's. -/
def State.heard (s : State) (p : Pkt) : State :=
  if p.src = s.fab.device then s else (s.packetHeard p).home p false []

/-- Sending changes at most the ports, the frames that wait, what has been sent and the free values drawn. -/
def SendsOnly (s t : State) : Prop :=
  t = { s with ports := t.ports, txWait := t.txWait, sent := t.sent, freeIx := t.freeIx }

/-- Messages of Halter change at most Halter's state beside what sending changes. -/
def HalterOnly (s t : State) : Prop :=
  t = { s with hal := t.hal, ports := t.ports, txWait := t.txWait, sent := t.sent, freeIx := t.freeIx }

end Sys2Proof.Machine
end

