-- ==== Sys2Proof/Certificates/Slice0/Obligations.lean ====
section
/-! DEFINITION. The statements for the provers, family by family. A statement about a row says what `exec` answers where
the row has its own effect, on hypotheses about the state and the operands alone. -/

open Sys2Proof Sys2Proof.Machine

namespace Sys2Proof.Machine

/-- A row of the vector tables (R282 to R285): its opcode, the TYPEs allowed, the fields it uses, the operations counted
for a lane, and what a lane of VD becomes from the lanes of A, B and C under a TYPE. -/
structure LaneRow where
  op : Nat
  cmd : TileIx → BitVec 56 → Instr
  types : List Nat
  uses : Uses
  flop : Nat → Nat
  f : Nat → Nat → Nat → Nat → Nat

/-- The rows of R282 and R283 on FP32 and BF16. -/
def arithRows : List LaneRow := [
  ⟨0x01, .vadd, tyF, { va := true, b := true }, fun _ => 1, fun ty a b _ => toLane ty ((laneNum ty a).add (laneNum ty b))⟩,
  ⟨0x02, .vsub, tyF, { va := true, b := true }, fun _ => 1,
    fun ty a b _ => toLane ty ((laneNum ty a).add (laneNum ty b).neg)⟩,
  ⟨0x03, .vmul, tyF, { va := true, b := true }, fun _ => 1, fun ty a b _ => toLane ty ((laneNum ty a).mul (laneNum ty b))⟩,
  ⟨0x04, .vfma, tyF, { va := true, b := true, vc := true }, fun _ => 2,
    fun ty a b c => toLane ty (((laneNum ty a).mul (laneNum ty b)).add (laneNum ty c))⟩,
  ⟨0x05, .vmax, tyF, { va := true, b := true }, fun _ => 1,
    fun ty a b _ => numMax (laneNum ty a) (laneNum ty b) a b (laneNan ty)⟩,
  ⟨0x06, .vmin, tyF, { va := true, b := true }, fun _ => 1,
    fun ty a b _ => numMin (laneNum ty a) (laneNum ty b) a b (laneNan ty)⟩,
  ⟨0x07, .vabs, tyF, { va := true }, fun _ => 1, fun ty a _ _ => toLane ty (laneNum ty a).abs⟩,
  ⟨0x08, .vneg, tyF, { va := true }, fun _ => 1, fun ty a _ _ => toLane ty (laneNum ty a).neg⟩]

/-- The rows of R285: functions of FP32, applied to a BF16 lane through FP32. -/
def functionRows : List LaneRow := [
  ⟨0x09, .vrcp, tyF, { va := true }, fun _ => 1, fun ty a _ _ => via32 ty f32rcp a⟩,
  ⟨0x0A, .vrsqrt, tyF, { va := true }, fun _ => 1, fun ty a _ _ => via32 ty f32rsqrt a⟩,
  ⟨0x0B, .vsqrt, tyF, { va := true }, fun _ => 1, fun ty a _ _ => via32 ty f32sqrt a⟩,
  ⟨0x0C, .vexp, tyF, { va := true }, fun _ => 1, fun ty a _ _ => via32 ty f32exp a⟩,
  ⟨0x0D, .vlog, tyF, { va := true }, fun _ => 1, fun ty a _ _ => via32 ty f32log a⟩,
  ⟨0x0E, .vtanh, tyF, { va := true }, fun _ => 1, fun ty a _ _ => via32 ty f32tanh a⟩,
  ⟨0x0F, .vsigm, tyF, { va := true }, fun _ => 1, fun ty a _ _ => via32 ty f32sigm a⟩]

/-- A comparison's lane (R284): all ones where it holds and neither lane is NaN, else zero; signed under INT32. -/
def cmpLane (f : Num → Num → Bool) (g : Int → Int → Bool) (ty a b : Nat) : Nat :=
  if (if ty = 2 then g (signed 32 a) (signed 32 b)
      else !(laneNum ty a).isNan && !(laneNum ty b).isNan && f (laneNum ty a) (laneNum ty b))
  then laneOnes ty else 0

/-- The rows of R284, VSEL and VMOV, which take INT32 too. -/
def compareRows : List LaneRow := [
  ⟨0x10, .vcmpgt, tyFI, { va := true, b := true }, fun ty => if ty = 2 then 0 else 1,
    fun ty a b _ => cmpLane (fun x y => y.lt x) (fun x y => decide (y < x)) ty a b⟩,
  ⟨0x11, .vcmpge, tyFI, { va := true, b := true }, fun ty => if ty = 2 then 0 else 1,
    fun ty a b _ => cmpLane (fun x y => !x.lt y) (fun x y => decide (y ≤ x)) ty a b⟩,
  ⟨0x12, .vcmpeq, tyFI, { va := true, b := true }, fun ty => if ty = 2 then 0 else 1,
    fun ty a b _ => cmpLane (fun x y => !x.lt y && !y.lt x) (fun x y => decide (x = y)) ty a b⟩,
  ⟨0x13, .vsel, tyFI, { va := true, b := true, vc := true }, fun _ => 0, fun _ a b c => if c ≠ 0 then a else b⟩,
  ⟨0x20, .vmov, tyFI, { b := true }, fun _ => 0, fun _ _ b _ => b⟩]

/-- The INT32 rows, modulo 2^32 (R273, R282). -/
def integerRows : List LaneRow := [
  ⟨0x18, .viadd, [2], { va := true, b := true }, fun _ => 0, fun _ a b _ => (a + b) % 2 ^ 32⟩,
  ⟨0x19, .visub, [2], { va := true, b := true }, fun _ => 0, fun _ a b _ => (a + (2 ^ 32 - b)) % 2 ^ 32⟩,
  ⟨0x1A, .vand, [2], { va := true, b := true }, fun _ => 0, fun _ a b _ => (a &&& b) % 2 ^ 32⟩,
  ⟨0x1B, .vor, [2], { va := true, b := true }, fun _ => 0, fun _ a b _ => (a ||| b) % 2 ^ 32⟩,
  ⟨0x1C, .vxor, [2], { va := true, b := true }, fun _ => 0, fun _ a b _ => (a ^^^ b) % 2 ^ 32⟩,
  ⟨0x1D, .vshl, [2], { va := true, b := true }, fun _ => 0, fun _ a b _ => a <<< (b % 32) % 2 ^ 32⟩,
  ⟨0x1E, .vshr, [2], { va := true, b := true }, fun _ => 0, fun _ a b _ => a >>> (b % 32) % 2 ^ 32⟩,
  ⟨0x1F, .vimul, [2], { va := true, b := true }, fun _ => 0, fun _ a b _ => a * b % 2 ^ 32⟩]

/-- A row of such a table does what the table says: where the sequencer may issue, no row instruction is busy and the
instruction breaks no rule, VD receives the lanes, and nothing else but the tile's counters changes. -/
def LaneRow.holds (r : LaneRow) : Prop :=
  ∀ (k : TileIx) (w : BitVec 56) (s : State), s.mayIssue k.val = true → (s.tile k.val).rowBusy = false →
    Vi.bad ⟨r.op, w⟩ r.types r.uses = false →
    Does (r.cmd k w) s fun t =>
      let i : Vi := ⟨r.op, w⟩
      let x := s.tile k.val
      TileOnly s t k.val ∧ VecRest x (t.tile k.val) i.vd (r.flop i.ty * lanesOfTy i.ty) ∧
      ∀ l, l < lanesOfTy i.ty → (t.tile k.val).lane i.ty i.vd l =
        laneFit i.ty (r.f i.ty (x.lane i.ty i.va l) (i.laneB x l) (x.lane i.ty i.vc l))

end Sys2Proof.Machine

/-- R282, R283: the floating-point arithmetic rows, lane by lane. R285: the function rows, lane by lane. Their last places are
free values (log 4). -/
def Obligations.VectorArithmetic : Prop :=
  (∀ r ∈ arithRows, r.holds) ∧
  (∀ r ∈ functionRows, r.holds)

/-- R284, R282: comparisons, VSEL and VMOV, lane by lane. R273, R282: the INT32 rows, lane by lane, modulo 2^32. -/
def Obligations.VectorCompareSelect : Prop :=
  (∀ r ∈ compareRows, r.holds) ∧
  (∀ r ∈ integerRows, r.holds)

/-- R286, R287, R290 to R293: conversions, reductions, generators and dropout, word by word of VD. R288, R289, R292, R293:
VPACK rounds two registers into one of 16-bit elements and counts into counter set IMM[15:8]; VDMASK draws a mask of kept
elements; VMSEL under BF16 keeps the elements whose mask bit is 1. What it says of a point that the spec leaves open is the
model's choice: log 5. -/
def Obligations.VectorConversions : Prop :=
  (∀ (k : TileIx) (w : BitVec 56) (s : State), s.mayIssue k.val = true → (s.tile k.val).rowBusy = false →
     let x := s.tile k.val
     let u := (s.tickTile k.val).drawsOf k.val
     let row (c : Instr) (i : Vi) (ok : Bool) (flop : Nat) (word : Nat → Nat) : Prop :=
       ok = true → Does c s fun t => TileOnly s t k.val ∧ VecRest x (t.tile k.val) i.vd flop ∧
         ∀ j, j < 64 → (t.tile k.val).word i.vd j = word j
     row (.vlane k w) ⟨0x21, w⟩ (!Vi.bad ⟨0x21, w⟩ [2] {}) 0 (fun j => j) ∧
     row (.vcvt k w) ⟨0x22, w⟩ (!Vi.bad ⟨0x22, w⟩ [0, 2] { va := true }) 0 (fun j =>
       let a := x.word (Vi.va ⟨0x22, w⟩) j
       if Vi.ty ⟨0x22, w⟩ = 2 then f32ToInt a else intToF32 a) ∧
     row (.vunpk k w) ⟨0x24, w⟩ (!Vi.bad ⟨0x24, w⟩ [0] { va := true, imm := true } &&
         Vi.imm ⟨0x24, w⟩ &&& (2 ^ 32 - 1 - 5) == 0) 0 (fun j =>
       let m := Vi.imm ⟨0x24, w⟩
       let a := x.lane 1 (Vi.va ⟨0x24, w⟩) (j + if bit m 0 then 64 else 0)
       toF32 (if bit m 2 then fp16 a else bf16 a)) ∧
     row (.vrsum k w) ⟨0x28, w⟩ (!Vi.bad ⟨0x28, w⟩ [0] { va := true }) 63 (fun _ =>
       pairs f32add 6 ((List.range 64).map (x.word (Vi.va ⟨0x28, w⟩)))) ∧
     row (.vrmax k w) ⟨0x29, w⟩ (!Vi.bad ⟨0x29, w⟩ [0] { va := true }) 63 (fun _ =>
       pairs f32max 6 ((List.range 64).map (x.word (Vi.va ⟨0x29, w⟩)))) ∧
     row (.vrand k w) ⟨0x2C, w⟩ (!Vi.bad ⟨0x2C, w⟩ [2] {}) 0 (fun j => 65536 * nth u j 0 + nth u (64 + j) 0) ∧
     row (.vmsel k w) ⟨0x2E, w⟩ (!Vi.bad ⟨0x2E, w⟩ tyF { va := true, vb := true } && Vi.ty ⟨0x2E, w⟩ == 0) 0 (fun j =>
       if bit (x.word (Vi.vb ⟨0x2E, w⟩) (j / 32)) (j % 32) then x.word (Vi.va ⟨0x2E, w⟩) j else 0)) ∧
  (∀ (k : TileIx) (w : BitVec 56) (s : State), s.mayIssue k.val = true → (s.tile k.val).rowBusy = false →
     let x := s.tile k.val
     let u := (s.tickTile k.val).drawsOf k.val
     (let i : Vi := ⟨0x23, w⟩
      i.bad [0] { va := true, vb := true, imm := true } = false → bits i.imm 7 3 = 0 → bits i.imm 31 16 = 0 →
       Does (.vpack k w) s fun t =>
         let us := if bit i.imm 0 then u else []
         let enc (l : Nat) : Nat × EncCounts := encodeElem (if bit i.imm 2 then 3 else 2) (rndOf (bit i.imm 0) us l)
           (bit i.imm 1) (x.word (if l < 64 then i.va else i.vb) (l % 64))
         t = { s with tiles := t.tiles, fmt := t.fmt } ∧ (∀ j, j ≠ k.val → t.tile j = s.tile j) ∧
         VecRest x (t.tile k.val) i.vd 0 ∧ (∀ l, l < 128 → (t.tile k.val).lane 1 i.vd l = (enc l).1 % 65536) ∧
         t.fmt = (s.count (bits i.imm 15 8) ((List.range 128).foldl (fun a l => a.add (enc l).2) {})).fmt) ∧
     (let i : Vi := ⟨0x2D, w⟩
      i.bad tyF { imm := true } = false → i.imm < 65536 → i.ty = 0 →
       Does (.vdmask k w) s fun t => TileOnly s t k.val ∧ VecRest x (t.tile k.val) i.vd 0 ∧
         ∀ e, e < 64 → bit ((t.tile k.val).word i.vd (e / 32)) (e % 32) = !decide (nth u e 0 < i.imm)) ∧
     (let i : Vi := ⟨0x2E, w⟩
      i.bad tyF { va := true, vb := true } = false → i.ty = 1 →
       Does (.vmsel k w) s fun t => TileOnly s t k.val ∧ VecRest x (t.tile k.val) i.vd 0 ∧
         ∀ l, l < 128 → (t.tile k.val).lane 1 i.vd l =
           if bit (x.word i.vb (l / 32)) (l % 32) then x.lane 1 i.va l else 0))

/-- R281, R294, R295: the loads. VD receives the words at the effective address, zero beyond WORDS; VLDBC one word in every
lane. The local store is as it was. R281, R294 to R296: VST stores WORDS words of VD, low byte first, at the effective
address; every other byte of the local store reads as before, and no register changes. -/
def Obligations.VectorMemory : Prop :=
  (∀ (k : TileIx) (w : BitVec 56) (s : State), s.mayIssue k.val = true → (s.tile k.val).rowBusy = false →
     let x := s.tile k.val
     let row (c : Instr) (i : Vi) (n : Nat) (word : Nat → Nat → Nat) : Prop :=
       i.badLs = false → aligned (i.ea x) 4 = true → inLs (i.ea x) n = true → x.marked (i.ea x) n = false →
       Does c s fun t => TileOnly s t k.val ∧ VecRest x (t.tile k.val) i.vd 0 ∧
         ∀ j, j < 64 → (t.tile k.val).word i.vd j = word (i.ea x) j
     row (.vld k w .clean) ⟨0x30, w⟩ (4 * Vi.words ⟨0x30, w⟩) (fun a j =>
       if j < Vi.words ⟨0x30, w⟩ then fromBytes (x.get (a + 4 * j) 4) else 0) ∧
     (Vi.words ⟨0x32, w⟩ = 1 → row (.vldbc k w .clean) ⟨0x32, w⟩ 4 (fun a _ => fromBytes (x.get a 4)))) ∧
  (∀ (k : TileIx) (w : BitVec 56) (s : State), s.mayIssue k.val = true → (s.tile k.val).rowBusy = false →
     let i : Vi := ⟨0x31, w⟩
     let x := s.tile k.val
     i.badLs = false → aligned (i.ea x) 4 = true → inLs (i.ea x) (4 * i.words) = true →
     Does (.vst k w) s fun t =>
       let y := t.tile k.val
       TileOnly s t k.val ∧ y.vreg = x.vreg ∧ y.unfenced = true ∧
       (∀ j b, j < i.words → b < 4 → Tbl.get 0 y.store (i.ea x + 4 * j + b) = BitVec.ofNat 8 (x.word i.vd j / 256 ^ b)) ∧
       (∀ q, q < i.ea x ∨ i.ea x + 4 * i.words ≤ q → Tbl.get 0 y.store q = Tbl.get 0 x.store q) ∧
       y = { x with store := y.store, marks := y.marks, unfenced := true, vcyc := y.vcyc, ops := y.ops })

/-- R276, R313, R318: a vector instruction that breaks a rule of its fields faults with code 0x101 and writes no register;
one that comes while a row instruction occupies the engine waits there, behind those that wait; and one that the sequencer
may not issue has no effect. -/
def Obligations.VectorRules : Prop :=
  ∀ r ∈ arithRows ++ functionRows ++ compareRows ++ integerRows, ∀ (k : TileIx) (w : BitVec 56) (s : State),
    (s.mayIssue k.val = false → exec (r.cmd k w) s = .next s) ∧
    (s.mayIssue k.val = true → (s.tile k.val).rowBusy = true →
      exec (r.cmd k w) s = .next (s.vecHold k.val { op := r.op, w := w }) ∧
      ((s.vecHold k.val { op := r.op, w := w }).tile k.val).vwait = (s.tile k.val).vwait ++ [{ op := r.op, w := w }]) ∧
    (s.mayIssue k.val = true → (s.tile k.val).rowBusy = false → Vi.bad ⟨r.op, w⟩ r.types r.uses = true →
      exec (r.cmd k w) s = .next (s.fault k.val 0x101 0 r.op) ∧
      ((s.fault k.val 0x101 0 r.op).tile k.val).vreg = (s.tile k.val).vreg ∧
      ((s.fault k.val 0x101 0 r.op).tile k.val).seq = .fault 0x101)

/-- R305, R306, R313, R859: while no row instruction occupies the engine, VLDQ takes the oldest entry of the finished-tile queue
into VD, waits while the queue is empty and a drain into it is queued or running, and faults with code 0x108 where no such
drain is; a poisoned entry is taken and faults with code 0x111. VLDQ_RESUME does the same for the waiting VLDQ. R296, R297,
R313: VFENCE holds the sequencer, and VFENCE_DONE lets it run again and clears the mark of unfenced stores; while a row
instruction occupies the engine VFENCE_DONE does nothing. ROW_INSTR_DONE frees the engine, and the instructions that wait
behind the row instruction begin in their order; where none waits nothing else changes. -/
def Obligations.VectorQueues : Prop :=
  (∀ (k : TileIx) (w : BitVec 56) (s : State),
     let i : Vi := ⟨0x33, w⟩
     let x := s.tile k.val
     let takes (c : Instr) (vd : Nat) : Prop := ∀ e q, x.ftq = e :: q → e.poison = false → e.vals.length = 64 →
       Does c s fun t => TileOnly s t k.val ∧ (t.tile k.val).ftq = q ∧ (t.tile k.val).seq = .run ∧
         (∀ j, j < 64 → (t.tile k.val).word vd j = nth e.vals j 0) ∧
         ∀ j, j < 64 * vd ∨ 64 * vd + 64 ≤ j → Tbl.get 0 (t.tile k.val).vreg j = Tbl.get 0 x.vreg j
     let waits (c : Instr) (vd : Nat) : Prop := x.ftq = [] → x.ftqDrain = true →
       Does c s fun t => TileOnly s t k.val ∧ (t.tile k.val).seq = .vldq vd ∧ (t.tile k.val).vreg = x.vreg
     let faults (c : Instr) (s1 : State) : Prop :=
       (x.ftq = [] → x.ftqDrain = false → exec c s = .next (s1.fault k.val 0x108 0 0x33)) ∧
       (∀ e q, x.ftq = e :: q → e.poison = true →
         exec c s = .next ((s1.onTile k.val fun y => { y with ftq := q, seq := .run }).fault k.val 0x111 0 0x33))
     (s.mayIssue k.val = true → x.rowBusy = false → i.bad [0] {} = false →
       takes (.vldq k w) i.vd ∧ waits (.vldq k w) i.vd ∧ faults (.vldq k w) (s.tickTile k.val)) ∧
     (∀ vd, x.seq = .vldq vd → x.rowBusy = false →
       takes (.vldqResume k) vd ∧ waits (.vldqResume k) vd ∧ faults (.vldqResume k) s)) ∧
  (∀ (k : TileIx) (w : BitVec 56) (s : State),
     let x := s.tile k.val
     (s.mayIssue k.val = true → x.rowBusy = false → Vi.bad ⟨0x34, w⟩ [0] { vd := false } = false →
       Does (.vfence k w) s fun t => TileOnly s t k.val ∧ (t.tile k.val).seq = .vfence ∧ (t.tile k.val).vreg = x.vreg ∧
         (t.tile k.val).store = x.store) ∧
     (x.seq = .vfence → x.rowBusy = false →
       exec (.vfenceDone k) s = .next (s.onTile k.val fun y => { y with seq := .run, unfenced := false })) ∧
     (x.seq = .vfence → x.rowBusy = true → exec (.vfenceDone k) s = .next s) ∧
     exec (.rowInstrDone k) s =
       .next (State.vecDrain k x.vwait (s.onTile k.val fun y => { y with rowBusy := false, vwait := [] })) ∧
     (x.vwait = [] → exec (.rowInstrDone k) s = .next (s.onTile k.val fun y => { y with rowBusy := false })))

/-- R298 to R302: VFMT loads a format slot from the descriptor at IMM with the block index and the pointer of VA; VENC stores
the encoding of VA's 64 values at the slot's pointer, VDEC decodes 64 values there into VD, and both move the slot on past
them. What it says of a point that the spec leaves open is the model's choice: log 52. -/
def Obligations.FormatSlots : Prop :=
  ∀ (k : TileIx) (w : BitVec 56) (s : State), s.mayIssue k.val = true → (s.tile k.val).rowBusy = false →
    let x := s.tile k.val
    (let i : Vi := ⟨0x38, w⟩
     i.bad [0] { vd := false, va := true, vc := true, imm := true } = false → i.vc < 4 → x.slots.length = 4 →
      descPlace i.imm = false → x.marked i.imm 48 = false → slotBad (Desc.parse (x.get i.imm 48)) = false →
      Does (.vfmt k w .clean) s fun t => TileOnly s t k.val ∧
        nth (t.tile k.val).slots i.vc {} =
          { loaded := true, desc := Desc.parse (x.get i.imm 48), block := x.word i.va 0, ptr := x.word i.va 1 } ∧
        (∀ j, j ≠ i.vc → nth (t.tile k.val).slots j {} = nth x.slots j {}) ∧ (t.tile k.val).vreg = x.vreg ∧
        (t.tile k.val).store = x.store) ∧
    (let i : Vi := ⟨0x39, w⟩
     let f := nth x.slots i.vc {}
     let s1 := s.tickTile k.val
     let e := s1.encRow f.desc (x.words i.va) (if f.desc.sto then s1.drawsOf k.val else []) f.block
     i.bad [0] { vd := false, va := true, vc := true } = false → i.vc < 4 → f.loaded = true →
      inLs f.ptr (f.desc.rowBytes 64) = true → e.2.2 = 0 →
      exec (.venc k w) s = .next ((e.2.1.onTile k.val fun y =>
        { y.put f.ptr e.1 false with slots := setAt y.slots i.vc FmtSlot.advance, unfenced := true }).retire k.val 0)) ∧
    (let i : Vi := ⟨0x3A, w⟩
     let f := nth x.slots i.vc {}
     let n := f.desc.rowBytes 64
     let s1 := s.tickTile k.val
     let d := s1.decRun f.desc (x.get f.ptr n) 0 64
     i.bad [0] { vc := true } = false → i.vc < 4 → f.loaded = true → inLs f.ptr n = true →
      x.marked f.ptr n = false → s1.runFault f.desc (x.get f.ptr n) = 0 →
      exec (.vdec k w .clean) s = .next (((s1.count f.desc.cset { malformed := d.2 }).onTile k.val fun y =>
        { y with slots := setAt y.slots i.vc FmtSlot.advance }).putReg k.val i.vd (d.1.map toF32)))

/-- R236 to R238, R310 to R314: ROWF stores the encoding of the function's row at OUT, ROWR that of dx, and ROWR adds the row's
sums to those at DGAMMA and DBETA; every other byte of the local store, and v0 to v23, are as they were. v24 to v31 are left
with free values (log 3), and the vector engine is occupied. Where OUT's format has supplied scales, statistics or widening,
whose places can be refused, the instruction does this too or faults with the refusal's code. What it says of a point that the
spec leaves open is the model's choice: log 3, 4, 18, 64. -/
def Obligations.RowInstructions : Prop :=
  ∀ (k : TileIx) (w : BitVec 56) (s : State) (replay : Bool), s.mayIssue k.val = true → (s.tile k.val).rowBusy = false →
    let i : Vi := ⟨if replay then 0x41 else 0x40, w⟩
    let c : Instr := if replay then .rowr k w .clean else .rowf k w .clean
    let x := s.tile k.val
    let s1 := s.tickTile k.val
    let r := RowD.parse (x.get i.imm 64)
    let dx := s1.descAt k.val r.xfmt
    let d := s1.descAt k.val r.ofmt
    let dy := s1.descAt k.val r.dyfmt
    let o := s1.rowRun k.val r replay dx dy d
    let qx := s1.decRun dx (x.get r.x (dx.runAt 0 r.n).2) 0 r.n
    let s2 := s1.count dx.cset { malformed := qx.2 }
    let qy := s2.decRun dy (x.get r.dy (dy.runAt 0 r.n).2) 0 r.n
    let xs := qx.1.map toF32
    let ga := x.f32s r.gamma r.n
    let b := if replay then rowBack r.func r.param r.causal xs ga (qy.1.map toF32)
      else (rowFwd r.func r.param r.causal xs ga (x.f32s r.beta r.n), [], [])
    let s3 := if replay then s2.count dy.cset { malformed := qy.2 } else s2
    let e := (State.encOut k.val d (r.n / 64 + 1) s3 b.1 0).1
    let added (o : Nat) (vs : List Nat) : Bytes :=
      if vs.isEmpty then [] else (rowZip f32add (x.f32s o r.n) vs).flatMap (toBytes 4)
    let dga := added r.dgamma b.2.1
    let dbe := added r.dbeta b.2.2
    i.bad [0] { vd := false, imm := true } = false → s1.rowCheck k.val i.imm replay = 0 →
    (d.block = false ∨ (d.delayed = false ∧ d.stats = false ∧ d.widen = false) → Does c s fun t =>
      let y := t.tile k.val
      t = { s with tiles := t.tiles, fmt := t.fmt, freeIx := s.freeIx + 513 } ∧ (∀ j, j ≠ k.val → t.tile j = s.tile j) ∧
      y = { x with vreg := y.vreg, store := (o.1.tile k.val).store, marks := y.marks, rowBusy := true, unfenced := true,
                   vcyc := y.vcyc, ops := y.ops } ∧
      (∀ q, q < 1536 → Tbl.get 0 y.vreg q = Tbl.get 0 x.vreg q) ∧
      (∀ q, q < 512 → Tbl.get 0 y.vreg (1536 + q) = Config.free (s.freeIx + q) % 2 ^ 32) ∧
      (∀ q, (q < r.out ∨ r.out + e.length ≤ q) → (q < r.dgamma ∨ r.dgamma + dga.length ≤ q) →
        (q < r.dbeta ∨ r.dbeta + dbe.length ≤ q) → Tbl.get 0 y.store q = Tbl.get 0 x.store q) ∧
      (∀ q, r.out ≤ q → q < r.out + e.length → (q < r.dgamma ∨ r.dgamma + dga.length ≤ q) →
        (q < r.dbeta ∨ r.dbeta + dbe.length ≤ q) → Tbl.get 0 y.store q = nth e (q - r.out) 0) ∧
      (∀ q, r.dgamma ≤ q → q < r.dgamma + dga.length → (q < r.dbeta ∨ r.dbeta + dbe.length ≤ q) →
        Tbl.get 0 y.store q = nth dga (q - r.dgamma) 0) ∧
      (∀ q, r.dbeta ≤ q → q < r.dbeta + dbe.length → Tbl.get 0 y.store q = nth dbe (q - r.dbeta) 0)) ∧
    exec c s = .next (if o.2 ≠ 0 then s1.fault k.val o.2 0 i.op else
      (({ o.1 with freeIx := o.1.freeIx + 513 }.onTile k.val fun y =>
        { y with vreg := Tbl.setList 0 y.vreg 1536 (o.1.draws 32 512).1, rowBusy := true, unfenced := true }).retire k.val
          (Config.free (o.1.freeIx + 512) % 2 ^ 32)))

/-- R283, R284: VMAX and VMIN give the canonical NaN where a lane of either operand is NaN, and order -0 below +0; a
comparison's lane is zero or all ones of its width, and zero where a lane of either operand is NaN. -/
def Obligations.VectorNanRules : Prop :=
  ∀ (k : TileIx) (w : BitVec 56) (s : State), s.mayIssue k.val = true → (s.tile k.val).rowBusy = false →
    let x := s.tile k.val
    (∀ r ∈ [(0x05, Instr.vmax), (0x06, .vmin)],
      let i : Vi := ⟨r.1, w⟩
      let minus := if i.ty = 1 then 0x8000 else 0x80000000
      i.bad tyF { va := true, b := true } = false → Does (r.2 k w) s fun t => ∀ l, l < lanesOfTy i.ty →
        let a := x.lane i.ty i.va l
        let b := i.laneB x l
        let v := (t.tile k.val).lane i.ty i.vd l
        ((laneNum i.ty a).isNan = true ∨ (laneNum i.ty b).isNan = true → v = if i.ty = 1 then 0x7FC0 else 0x7FC00000) ∧
        ((a = 0 ∧ b = minus) ∨ (a = minus ∧ b = 0) → v = if r.1 = 0x05 then 0 else minus)) ∧
    ∀ r ∈ [(0x10, Instr.vcmpgt), (0x11, .vcmpge), (0x12, .vcmpeq)],
      let i : Vi := ⟨r.1, w⟩
      let ones := if i.ty = 1 then 0xFFFF else 0xFFFFFFFF
      i.bad tyFI { va := true, b := true } = false → Does (r.2 k w) s fun t => ∀ l, l < lanesOfTy i.ty →
        let a := x.lane i.ty i.va l
        let b := i.laneB x l
        let v := (t.tile k.val).lane i.ty i.vd l
        (v = 0 ∨ v = ones) ∧
        (i.ty ≠ 2 → (laneNum i.ty a).isNan = true ∨ (laneNum i.ty b).isNan = true → v = 0) ∧
        (r.1 = 0x12 → a = b → i.ty = 2 ∨ (laneNum i.ty a).isNan = false → v = ones)

/-- R142, R143, R146, R150: a sequencer issues the six matrix records. A well-formed record enters the queue of 16 with the next
number; a full queue stalls the sequencer with the record; a record that fails a check faults with the check's code and
nothing enters the queue. A record of another opcode is issued as its OP byte says (the model's reading, log 53). R214 to
R218: the four Pannier records, in a queue of 8. -/
def Obligations.CommandIssue : Prop :=
  (∀ r ∈ [(1, Instr.mm), (2, .drain), (3, .topk), (4, .topkMerge), (5, .zero), (6, .barrier)],
   ∀ (k : TileIx) (a : BitVec 22) (s : State), s.mayIssue k.val = true →
     let x := s.tile k.val
     let b := x.get a.toNat 64
     (s.recFault k.val a.toNat = 0 → field b 0 1 = r.1 → x.mxq.length < 16 → s.mxCheck k.val b = 0 →
       exec (r.2 k a) s = .next (s.onTile k.val fun y =>
         { y with mxq := y.mxq ++ [s.mxEntry k.val a.toNat b], nextId := y.nextId + 1 })) ∧
     (s.recFault k.val a.toNat = 0 → field b 0 1 = r.1 → 16 ≤ x.mxq.length →
       exec (r.2 k a) s = .next (s.onTile k.val fun y => { y with seq := .stall r.1 a.toNat, since := s.now })) ∧
     (s.recFault k.val a.toNat = 0 → field b 0 1 = r.1 → x.mxq.length < 16 → s.mxCheck k.val b ≠ 0 →
       exec (r.2 k a) s = .next (s.fault k.val (s.mxCheck k.val b) a.toNat r.1)) ∧
     (s.recFault k.val a.toNat ≠ 0 → x.mxq.length < 16 →
       exec (r.2 k a) s = .next (s.fault k.val (s.recFault k.val a.toNat) a.toNat r.1)) ∧
     (s.recFault k.val a.toNat = 0 → field b 0 1 ≠ r.1 →
       exec (r.2 k a) s = .next (s.issueAny k.val (field b 0 1) a.toNat))) ∧
  (∀ r ∈ [(0x41, Instr.push), (0x42, .pop), (0x43, .peek), (0x44, .reset)],
   ∀ (k : TileIx) (a : BitVec 22) (s : State), s.mayIssue k.val = true →
     let x := s.tile k.val
     let b := x.get a.toNat 64
     (s.recFault k.val a.toNat = 0 → field b 0 1 = r.1 → x.panq.length < 8 → pnCheck b = 0 →
       exec (r.2 k a) s = .next (s.onTile k.val fun y =>
         { y with panq := y.panq ++ [{ id := x.nextId, op := r.1, main := b, addr := a.toNat, since := s.now }]
                  nextId := y.nextId + 1 })) ∧
     (s.recFault k.val a.toNat = 0 → field b 0 1 = r.1 → 8 ≤ x.panq.length →
       exec (r.2 k a) s = .next (s.onTile k.val fun y => { y with seq := .stall r.1 a.toNat, since := s.now })) ∧
     (s.recFault k.val a.toNat = 0 → field b 0 1 = r.1 → x.panq.length < 8 → pnCheck b ≠ 0 →
       exec (r.2 k a) s = .next (s.fault k.val (pnCheck b) a.toNat r.1)))

/-- R142, R151, R318, R748: an opcode of no table faults with ILLEGAL_OPCODE 0x101: the sequencer stops, what had not begun is
dropped, and the slot's fault is counted and reported. A stalled sequencer issues its record again once its queue has room
(R143, R216, R456, R482). What it says of a point that the spec leaves open is the model's choice: log 53. -/
def Obligations.ReservedAndResume : Prop :=
  ∀ (k : TileIx) (op : BitVec 8) (a : BitVec 22) (s : State),
    (s.mayIssue k.val = true → (s.tile k.val).rowBusy = false → vectorOps.contains op.toNat = false →
      Does (.reservedOpcode k true op a) s fun t => t = s.fault k.val 0x101 0 op.toNat ∧
        (t.tile k.val).seq = .fault 0x101 ∧ (t.tile k.val).mxq = (s.tile k.val).mxq.filter (·.st ≠ 0)) ∧
    (s.mayIssue k.val = true → s.recFault k.val a.toNat = 0 →
      recordOps.contains (field ((s.tile k.val).get a.toNat 64) 0 1) = false →
      Does (.reservedOpcode k false op a) s fun t =>
        t = s.fault k.val 0x101 a.toNat (field ((s.tile k.val).get a.toNat 64) 0 1) ∧
        (t.tile k.val).seq = .fault 0x101 ∧ (t.tile k.val).panq = (s.tile k.val).panq.filter (·.st ≠ 0)) ∧
    (∀ o b, (s.tile k.val).seq = .stall o b → (s.tile k.val).held = false → s.queueFull k.val o = false →
      exec (.sequencerResume k) s = .next ((s.onTile k.val fun y => { y with seq := .run }).issueAny k.val o b))

/-- R144, R145, R158, R159, R860: a ZERO that begins leaves its groups reading as +0 with their overflow and poison marks clear
and no chunk counted, every other group as it was; an array command that is done, and a BARRIER at the head, leave the queue
and, where their DONE bit is set, post. R145, R343, R862: a command of the drain unit completes once none of its writes
awaits a status: it leaves the queue and, where its DONE bit is set, posts. Of a drain to the reduction whose sum is not its
part checksum the block's error is raised first. -/
def Obligations.CommandsDone : Prop :=
  (∀ (k : TileIx) (s : State),
     let x := s.tile k.val
     (∀ c cols bad sram, nextStart false [] x.mxq = some c → c.op = 5 → x.chunks.length = 8 →
       c.g + recBits c.main 13 11 < 8 →
       Does (.arrayCmdStart k cols bad sram) s fun t =>
         let y := t.tile k.val
         let n := recBits c.main 13 11 + 1
         TileOnly s t k.val ∧
         (∀ q, Tbl.get 0 y.acc q = if c.g ≤ q / 16384 ∧ q / 16384 < c.g + n then 0 else Tbl.get 0 x.acc q) ∧
         (∀ g, g < 8 → nth y.chunks g 0 = if c.g ≤ g ∧ g < c.g + n then 0 else nth x.chunks g 0) ∧
         (∀ g, g < 8 → bit y.ovf g = (bit x.ovf g && !decide (c.g ≤ g ∧ g < c.g + n)) ∧
           bit y.poison g = (bit x.poison g && !decide (c.g ≤ g ∧ g < c.g + n))) ∧
         y.store = x.store ∧ y.vreg = x.vreg ∧
         y.mxq = x.mxq.map fun d => if d.id = c.id then { d with st := 1 } else d) ∧
     (∀ c, (x.mxq.find? fun c => c.array && c.st == 1) = some c →
       Does (.arrayCmdDone k) s fun t => TileOnly s t k.val ∧
         t.tile k.val = { x with mxq := x.mxq.filter (fun d => d.id ≠ c.id)
                                 comp := if bit (field c.main 0 2) 15 then (x.comp + 1) % 2 ^ 32 else x.comp }) ∧
     (∀ c q, x.mxq = c :: q → c.op = 6 →
       Does (.barrierDone k) s fun t => TileOnly s t k.val ∧
         t.tile k.val = { x with mxq := x.mxq.filter (fun d => d.id ≠ c.id)
                                 comp := if bit (field c.main 0 2) 15 then (x.comp + 1) % 2 ^ 32 else x.comp })) ∧
  (∀ (k : TileIx) (s : State) (c : MxCmd) (sumBad : Bool),
     let x := s.tile k.val
     (x.mxq.find? fun c => c.drains && c.st == 2 && !(s.fab.reqs.any fun r =>
       r.why == .drain k.val c.id || (c.waits.contains r.num && r.why ≠ .nobody))) = some c →
     (sumBad = false ∨ c.op ≠ 2 ∨ c.dest ≠ 2 → Does (.drainUnitDone k sumBad) s fun t => TileOnly s t k.val ∧
       t.tile k.val = { x with mxq := x.mxq.filter (fun d => d.id ≠ c.id)
                               comp := if bit (field c.main 0 2) 15 then (x.comp + 1) % 2 ^ 32 else x.comp }) ∧
     (sumBad = true → c.op = 2 → c.dest = 2 → exec (.drainUnitDone k sumBad) s =
       .next (((s.raiseCause (if bit (s.tagSt (c.destAddr % 2 ^ 20)).flags 0 then 5 else 3)).dropMx k.val c.id).postIf
         k.val c.main)))

/-- R135, R136, R139, R152, R161, R163: the MM. One that the array begins, with its mask all ones, INIT set, no poison in its
operands, no column in error or due for retirement, and the widening records that its formats name among nothing that it
changes, leaves in row i
and column j of its groups what the chunks of the bands of A's row i and B's column j accumulate to from +0; no element of
another group changes, and nothing of the local store and the registers. -/
def Obligations.MatrixMultiply : Prop :=
  ∀ (k : TileIx) (s : State) (c : MxCmd),
    let x := s.tile k.val
    let dep := bandDepth (rateOf c.da c.db)
    let bands := ceilDiv c.k dep
    let lineA (i b : Nat) := s.opLine k.val c.da (opdOf c.main 64) i (b * dep) (min dep (c.k - b * dep)) false
    let lineB (j b : Nat) := s.opLine k.val c.db (opdOf c.main 192) j (b * dep) (min dep (c.k - b * dep)) false
    nextStart false [] x.mxq = some c → c.op = 1 → recBits c.main 13 12 = 0 → bit (recBits c.main 11 11) 0 = true →
    c.g + ceilDiv c.m 128 ≤ 8 →
    (∀ i b, i < c.m → b < bands → (lineA i b).2.2 = false) → (∀ j b, j < c.n → b < bands → (lineB j b).2.2 = false) →
    (∀ sl, s.slotOf k.val = some sl → (Tbl.get {} s.err.slots sl).colDue = []) →
    (∀ (f : Tile → Tile) (F : Tbl FmtCnt), (∀ y, (f y).store = y.store ∧ (f y).marks = y.marks) → ∀ d ∈ [c.da, c.db],
      (∀ i, i < d.widenCap → State.wideRec { s.onTile k.val f with fmt := F } d i = s.wideRec d i) ∧
      ∀ b, State.wideFault { s.onTile k.val f with fmt := F } d b = s.wideFault d b) →
    Does (.arrayCmdStart k [] 0 .clean) s fun t =>
      let y := t.tile k.val
      (∀ i j, i < c.m → j < c.n → Tbl.get 0 y.acc (16384 * (c.g + i / 128) + 128 * (i % 128) + j) =
        (List.range bands).foldl (fun v b => accumulate v (lineA i b).1 (lineB j b).1) 0) ∧
      (∀ q, q < 16384 * c.g ∨ 16384 * (c.g + ceilDiv c.m 128) ≤ q → Tbl.get 0 y.acc q = Tbl.get 0 x.acc q) ∧
      y.store = x.store ∧ y.vreg = x.vreg ∧ t = { s with tiles := t.tiles, fmt := t.fmt } ∧
      ∀ j, j ≠ k.val → t.tile j = s.tile j

namespace Sys2Proof.Machine
/-- What row r of a DRAIN puts into the finished-tile queue (R304): its values 64 at a time, the last entry filled with
zeros, with the poison mark of its group. -/
def ftqEntries (x : Tile) (c : MxCmd) (r : Nat) : List FtEntry :=
  let g := c.g + r / 128
  let out := drainVals c [] (List.replicate c.dn 0) (Tbl.getList 0 x.acc (16384 * g + 128 * (r % 128)) c.dn)
  (List.range (ceilDiv c.dn 64)).map fun q =>
    { vals := (out.drop (64 * q)).take 64 ++ List.replicate (64 - ((out.drop (64 * q)).take 64).length) 0
      poison := bit x.poison g }
end Sys2Proof.Machine

/-- R154, R179, R185, R304: a DRAIN into the finished-tile queue, with no bias and no auxiliary data, puts the entries of its
unmasked rows there in order and has then finished reading; a drain held back goes on from its row in the same way; one that
the mesh holds back at its row waits there, and the queue is as it was. The operand's additions of a reduction leave no
trace. R160, R182, R862: row r of a DRAIN to this device's memory is stored at DEST_ADDR + r * DEST_STRIDE, in tile k's own
window for DEST 0b000, as the encoding of its values, by the one operation that writes memory; the drain awaits the
acknowledgement of every request that this makes (R145, R448). -/
def Obligations.DrainRows : Prop :=
  (∀ (k : TileIx) (s : State) (c : MxCmd) (adds : List AddErr),
     let x := s.tile k.val
     let s0 := s.upsetBy []
     let rows (mask : List Nat) := (List.range (128 * c.gcount)).filter fun r => decide (c.row ≤ r) && unmasked mask r
     c.op = 2 → c.dest = 3 → c.func < 0x10 → bit (recBits c.main 118 118) 0 = false →
     (nextStart true [] x.mxq = some c → recBits c.main 26 25 = 0 → c.row = 0 →
       x.ftq.length + 128 * c.gcount * ceilDiv c.dn 64 ≤ 256 →
       let mask := List.replicate c.gcount (2 ^ 128 - 1)
       Does (.drainUnitStart k none 0 .clean adds) s fun t => TileOnly s0 t k.val ∧
         (t.tile k.val).ftq = x.ftq ++ (rows mask).flatMap (ftqEntries x c) ∧
         (bit (recBits c.main 14 14) 0 = false → (t.tile k.val).acc = x.acc) ∧ (t.tile k.val).store = x.store ∧
         (t.tile k.val).mxq = x.mxq.map fun d => if d.id = c.id then { c with st := 2, mask := mask, wait := 0 } else d) ∧
     ((x.mxq.find? fun c => c.drains && c.st == 1 && c.wait ≠ 0) = some c → c.row < 128 * c.gcount →
       unmasked c.mask c.row = true → x.ftq.length + (rows c.mask).length * ceilDiv c.dn 64 ≤ 256 →
       Does (.drainResume k none .clean adds) s fun t => TileOnly s0 t k.val ∧
         (t.tile k.val).ftq = x.ftq ++ (rows c.mask).flatMap (ftqEntries x c) ∧
         (bit (recBits c.main 14 14) 0 = false → (t.tile k.val).acc = x.acc) ∧
         (t.tile k.val).mxq = x.mxq.map fun d => if d.id = c.id then { c with st := 2, wait := 0 } else d) ∧
     ((x.mxq.find? fun c => c.drains && c.st == 1 && c.wait ≠ 0) = some c → c.row < 128 * c.gcount →
       s.drainBlocked k.val c = 0 → unmasked c.mask c.row = true →
       Does (.drainResume k (some c.row) .clean adds) s fun t => TileOnly s0 t k.val ∧
         (t.tile k.val).ftq = x.ftq ∧ (t.tile k.val).acc = x.acc ∧
         (t.tile k.val).mxq = x.mxq.map fun d => if d.id = c.id then { c with wait := 1, since := s.now } else d)) ∧
  (∀ (k : Nat) (s : State) (c : MxCmd) (r : Nat),
     let x := s.tile k
     let g := c.g + r / 128
     let key := 16384 * g + 128 * (r % 128)
     let s1 := s.tickTile k
     let s2 := if bit (recBits c.main 14 14) 0
       then s1.onTile k fun x => { x with acc := Tbl.clear x.acc key (key + c.dn) } else s1
     let out := drainVals c [] (List.replicate c.dn 0) (Tbl.getList 0 x.acc key c.dn)
     let e := s2.encRow c.da out (if c.da.sto then s2.drawsOf k else []) (r * c.dn / 32) (bit x.poison g)
     let a := if c.dest = 0 then lsBase + k * 0x400000 + c.destAddr % 2 ^ 22 + r * c.destStride
       else c.destAddr + r * c.destStride
     let s3 := e.2.1.onOps k fun o => { o with drainBytes := sat64 o.drainBytes e.1.length }
     let t := s3.memWrite (addrOff a) e.1 c.da.format (bit x.poison g)
     c.op = 2 → c.dest < 2 → c.func < 0x10 → e.2.2 = 0 → s3.isOwn a = true →
     s3.writeFault (addrOff a) e.1.length = 0 →
     s.drainRow k c [] r = (t.drainAwait k c s.fab.nextReq, 0))

/-- R212, R215, R217, R219, R224, R227, R228: the Pannier command at the head of the queue. A RESET empties both stacks and
posts; a PUSH writes its record, header first, into the ring or the checkpoint area, and when done puts it on its stack; a POP
of a resident record matching its header leaves the record's bytes in the local store and takes it off the stack, a PEEK leaves
it there; a POP whose grace ends removes its record and every record of its segment and micro-batch, reports RECOMPUTE, and the
tier counts it (R465). R223, R224, R226, R227, R459: a spill that ends has copied its record's header and payload from the ring
to the spill area at the same logical offset, and marks it spilled; a PUSH that waits for room tries again. A restore that ends
writes what the spill area holds back to its place in the ring and marks it resident; one that fails leaves it spilled, and a
POP that waits for it recomputes at once. What it says of a point that the spec leaves open is the model's choice: log 11. -/
def Obligations.PannierStacks : Prop :=
  (∀ (k : TileIx) (s : State) (c : PnCmd) (q : List PnCmd),
     let x := s.tile k.val
     let ckpt := bit (recBits c.main 8 8) 0
     let post (n : Nat) := if bit (field c.main 0 2) 15 then (n + 1) % 2 ^ 32 else n
     x.panq = c :: q →
     (c.st = 0 → c.op = 0x44 → s.pnConfigBad x.pn = false → Does (.pannierCmdStart k .clean) s fun t => TileOnly s t k.val ∧
       t.tile k.val = { x with panq := q, pn := { x.pn with main := [], ckpt := [] }, comp := post x.comp }) ∧
     (let s1 := s.onPnHead k.val fun c => { c with st := 1 }
      let len := recBits c.main 117 96
      let b := x.get (recBits c.main 85 64) len
      let r := s.pushRec c ckpt (pnEnd (if ckpt then x.pn.ckpt else x.pn.main)) b
      c.st = 0 → c.op = 0x41 → s.pnConfigBad x.pn = false →
       (ckpt = true ∨ ∃ p l, x.pn.ckpt = p :: l ∧ p.seg = recBits c.main 143 128 ∧ p.mb = recBits c.main 23 16) →
       s.pnPlace x.pn ckpt (pnSize len) = 0 → x.marked (recBits c.main 85 64) len = false →
       exec (.pannierCmdStart k .clean) s = .next ((s1.ringWrite (if ckpt then x.pn.ckptBase else x.pn.mainBase)
         (if ckpt then 4096 * x.pn.ckptPages else x.pn.ring) r.off (r.header ++ b) r.fmt false).onPnHead k.val
           fun c => { c with wait := 0, rcd := some r })) ∧
     (∀ r, c.st = 0 → c.op = 0x42 ∨ c.op = 0x43 → s.pnConfigBad x.pn = false →
       (if ckpt then x.pn.ckpt else x.pn.main).head? = some r → pnMismatch c r = false → ckpt = true ∨ r.place = 0 →
       (ckpt = false ∨ c.op = 0x43 ∨ ∀ m, x.pn.main.head? = some m → ¬ (m.seg = r.seg ∧ m.mb = r.mb)) →
       exec (.pannierCmdStart k .clean) s = .next (s.onPnHead k.val fun c => { c with st := 1 })) ∧
     (∀ r, c.rcd = some r → Does (.pushDone k) s fun t =>
       t = (((((s.onPn k.val fun p => if r.ckpt then { p with ckpt := r :: p.ckpt } else { p with main := r :: p.main }).dropPn
         k.val).countPn k.val r.len).postIf k.val c.main).spill k.val) ∧
       TileOnly s t k.val ∧ (t.tile k.val).panq = q ∧ (t.tile k.val).comp = post x.comp ∧
       (if r.ckpt then (t.tile k.val).pn.ckpt = r :: x.pn.ckpt
        else (t.tile k.val).pn.main.map (fun p => { p with place := 0 }) =
           (r :: x.pn.main).map fun p => { p with place := 0 })) ∧
     (∀ r l, c.st = 1 → c.wait = 0 → c.op = 0x42 ∨ c.op = 0x43 → (if ckpt then x.pn.ckpt else x.pn.main) = r :: l →
       let d := s.ringRead (if ckpt then x.pn.ckptBase else x.pn.mainBase)
         (if ckpt then 4096 * x.pn.ckptPages else x.pn.ring) r.off (64 + r.len)
       d.2.1 = false → d.1.take 64 = r.header → checkOf (d.1.drop 64) = r.check → r.step = d.2.2.stepNo % 65536 →
       exec (.popDone k) s = .next ((((((d.2.2.onTile k.val fun y => y.put (recBits c.main 85 64) (d.1.drop 64) false).onPn
         k.val fun p =>
           if c.op = 0x43 then { p with last := 0 }
           else if ckpt then { p with last := 0, ckpt := p.ckpt.drop 1 } else { p with last := 0, main := p.main.drop 1 }).dropPn
             k.val).countPn k.val r.len).postIf k.val c.main).balance k.val)) ∧
     (∀ r l, x.pn.main = r :: l → c.wait = 0x21 → c.due ≤ s.now →
       Does (.popGraceExpiry k) s fun t =>
         TileOnly { s with tier := { s.tier with recompute := satAdd 16 s.tier.recompute 1 } } t k.val ∧
         (t.tile k.val).panq = q ∧
         (t.tile k.val).comp = post x.comp ∧ (t.tile k.val).pn.last = 1 ∧ (t.tile k.val).pn.missTag = r.tag ∧
         ∀ p ∈ (t.tile k.val).pn.main, ¬ (p.seg = r.seg ∧ p.mb = r.mb))) ∧
  (∀ (k : TileIx) (s : State) (r : PnRec) (far : List Byte),
     let x := s.tile k.val
     ((x.pn.main.find? fun r => r.place == 1) = some r → s.tierMapped (x.pn.spillBase + r.off) (64 + r.len) = true →
       let d := s.ringRead x.pn.mainBase x.pn.ring r.off (64 + r.len)
       let s1 := d.2.2.memWrite (x.pn.spillBase + r.off) d.1 r.fmt d.2.1
       let s2 := s1.placeRec k.val r.off 2
       exec (.spillDone k) s = .next ((match (s2.tile k.val).panq with
         | c :: _ => if c.wait = 0x20 then s2.pushStart k.val c .clean else s2
         | [] => s2).spill k.val)) ∧
     ((x.pn.main.find? fun r => r.place == 3) = some r →
       let d := s.readFar (x.pn.spillBase + r.off) (64 + r.len) far
       exec (.restoreDone k true far) s = .next ((d.2.2.restored k.val r d.1 d.2.1).restore k.val) ∧
       (∀ c l q m, x.panq = c :: l → x.pn.main = q :: m → c.wait = 0x21 → q.off = r.off →
         exec (.restoreDone k false far) s = .next ((s.placeRec k.val r.off 2).restoreLost k.val c q)) ∧
       ((∀ c l q m, x.panq = c :: l → x.pn.main = q :: m → ¬ (c.wait = 0x21 ∧ q.off = r.off)) →
         Does (.restoreDone k false far) s fun t => TileOnly s t k.val ∧
           (t.tile k.val).pn.main = x.pn.main.map fun q => if q.off = r.off then { q with place := 2 } else q)))

/-- R43, R51, R55, R56, R275, R691, R692: a Carousel move that ends binds its tile to the destination slot, with the emptied
slot the region's new spare, to be tested; the tile's registers, slots and queue are cleared, its local store and accumulators
kept, and it is held no more. A region whose step runs starts its stopped sequencers that waited for the move (R46). R30, R36,
R200, R745, R746, R126, R127: the spare's self-test retires the columns that failed; a flit resent is counted, and a plane
whose resends fail is retired for good; a link's retry is counted, by lane too; a link whose retrain ends holds its traffic no
more, and one that failed it runs narrower or is retired; FMT_CNT_CLEAR clears counts or the index. What it says of a point
that the spec leaves open is the model's choice: log 15. -/
def Obligations.PackageEvents : Prop :=
  (∀ (g : RegionIx) (s : State) (k src dst : Nat), (s.region g.val).move = some (k, src, dst) →
     k / 12 = g.val → s.pkg.map.length = 192 → s.pkg.regions.length = 16 → (∀ r ∈ s.pkg.regions, r.failed = []) →
     (s.step.st = 1 → s.hal.job = 2 →
       exec (.carouselMoveDone g) s = .next (((((s.bind k dst src).onRegion g.val fun r => { r with selfTest := some src }).newMeans
         g.val).onTile k fun x => { x.moved with held := false }).startRegion g.val)) ∧
     (s.step.st ≠ 1 ∨ s.hal.job ≠ 2 → Does (.carouselMoveDone g) s fun t =>
       t = { s with pkg := t.pkg, tiles := t.tiles, heat := t.heat } ∧ (∀ j, j ≠ k → t.tile j = s.tile j) ∧
       t.tile k = { (s.tile k) with vreg := [], slots := List.replicate 4 {}, ftq := [], held := false } ∧
       t.pkg.map[k]? = (s.pkg.map[k]?).map (fun e => { slot := dst, st := 0, epoch := (e.epoch + 1) % 65536 }) ∧
       (∀ j, j ≠ k → t.pkg.map[j]? = s.pkg.map[j]?) ∧
       (let r := s.region g.val
        t.region g.val = { r with spare := src, moves := (r.moves + 1) % 65536, move := none, moveEnd := s.now
                                  selfTest := some src }) ∧
       ∀ j, j ≠ g.val → t.region j = s.region j)) ∧
  ((∀ (g : RegionIx) (cols : List (Fin 130)) (s : State) (sl : Nat), (s.region g.val).selfTest = some sl →
     exec (.spareSelfTest g cols) s = .next (cols.foldl (fun s c => s.retireCol (13 * g.val + sl) c.val 0x205)
       (s.onRegion g.val fun r => { r with selfTest := none }))) ∧
   (∀ (d : DieIx) (plane : Fin 8) (failed : Bool) (s : State), bit (nth s.flash.mesh d.val 0) plane.val = false →
     s.flash.mesh.length = 2 →
     Does (.meshFlitResend d plane failed) s fun t =>
       t = { s with err := t.err, flash := t.flash } ∧ t.flash = { s.flash with mesh := t.flash.mesh } ∧
       Tbl.get 0 t.err.meshResends d.val = satAdd 32 (Tbl.get 0 s.err.meshResends d.val) 1 ∧
       (failed = true → nth t.flash.mesh d.val 0 = nth s.flash.mesh d.val 0 + 2 ^ plane.val) ∧
       (failed = false → ((Tbl.get [] s.err.meshTimes (8 * d.val + plane.val)).filter
         fun x => decide (s.now - x ≤ 1000000000)).length < 1000 → t.flash = s.flash)) ∧
   (∀ (n : Fin 3) (lane : Fin 64) (repair : Bool) (s : State), (nth s.flash.links n.val {}).st ≠ 2 →
     ((Tbl.get [] s.err.linkRetryTimes n.val).filter fun x => s.now - x ≤ 1000000).length < 16 →
     Does (.ucieLinkRetry n lane repair) s fun t =>
       t = { s with err := t.err } ∧
       t.err = { s.err with linkRetries := t.err.linkRetries, linkLaneRetries := t.err.linkLaneRetries
                            linkRetryTimes := t.err.linkRetryTimes } ∧
       Tbl.get 0 t.err.linkRetries n.val = satAdd 32 (Tbl.get 0 s.err.linkRetries n.val) 1 ∧
       Tbl.get 0 t.err.linkLaneRetries (64 * n.val + lane.val) =
         Tbl.get 0 s.err.linkLaneRetries (64 * n.val + lane.val) + 1) ∧
   (∀ (n : Fin 3) (ok : Bool) (s : State), s.err.linkHeld.contains n.val = true → s.flash.links.length = 3 →
     Does (.ucieRetrainDone n ok) s fun t =>
       t = { s with err := { s.err with linkHeld := s.err.linkHeld.filter (· ≠ n.val) }, flash := t.flash } ∧
       (nth t.flash.links n.val {}).st =
         if ok then (nth s.flash.links n.val {}).st else min 2 ((nth s.flash.links n.val {}).st + 1)) ∧
   (∀ (k : Fin 256) (s : State),
     Does (.fmtCntClearCounts k) s (fun t => t = { s with fmt := t.fmt } ∧
       Tbl.get {} t.fmt k.val = { Tbl.get {} s.fmt k.val with cnt := {} } ∧
       ∀ j, j ≠ k.val → Tbl.get {} t.fmt j = Tbl.get {} s.fmt j) ∧
     Does (.fmtCntClearAlloc k) s (fun t => t = { s with fmt := t.fmt } ∧
       Tbl.get {} t.fmt k.val = { Tbl.get {} s.fmt k.val with next := 0 } ∧
       ∀ j, j ≠ k.val → Tbl.get {} t.fmt j = Tbl.get {} s.fmt j)))

/-- R249, R250, R252: an index that every tile of the set has posted is counted once; a tile's post is kept once. The index 0xFF
that every tile has posted sets ENDED, and a commit held for the step becomes actionable where DRAIN_COUNT is full. An index
from MB_COUNT to 0xFE is logged, whichever tile writes it and whatever the step does. R252, R253, R861: a commit of the step
in progress is held, and is actionable once the device's own step is complete; one of another step is reported and
discarded. -/
def Obligations.MicroBatches : Prop :=
  (∀ (k : TileIx) (i : BitVec 8) (s : State),
     (s.step.mbCount ≤ i.toNat → i.toNat < 0xFF →
       exec (.mbDone k i) s = .next (s.report 0 7 0x282 0 0 (k.val + 2 ^ 32 * i.toNat))) ∧
     (s.step.tileSet.contains k.val = true → s.step.st = 1 ∨ s.step.st = 2 →
     (i.toNat < s.step.mbCount → (∃ q ∈ s.step.tileSet, q ≠ k.val ∧ (s.tile q).posts.contains i.toNat = false) →
       Does (.mbDone k i) s fun t => TileOnly s t k.val ∧
         let ps := (s.tile k.val).posts
         t.tile k.val = { (s.tile k.val) with posts := if i.toNat ∈ ps then ps else ps ++ [i.toNat] }) ∧
     (i.toNat < s.step.mbCount → i.toNat < 0xFF → (∀ q ∈ s.step.tileSet, q ≠ k.val → (s.tile q).posts.contains i.toNat = true) →
       s.step.counted.contains i.toNat = false → s.step.drainCount + 1 < s.step.mbCount →
       Does (.mbDone k i) s fun t => t.step.drainCount = s.step.drainCount + 1 ∧
         t.step.counted = s.step.counted ++ [i.toNat] ∧ t = { s with step := t.step, tiles := t.tiles }) ∧
     (i = 0xFF → (∀ q ∈ s.step.tileSet, q ≠ k.val → (s.tile q).posts.contains 0xFF = true) →
       Does (.mbDone k i) s fun t => t.step.ended = true ∧ t = { s with step := t.step, tiles := t.tiles } ∧
         (s.step.held = some s.stepNo → s.step.drainCount = s.step.mbCount → s.step.actionable = none →
           t.step.actionable = some s.now)))) ∧
  (∀ (p : Pkt) (n : Nat) (s : State), s.refuses p.src = false → s.fromAbove p.src = false →
     let q := ledPkt p 6 [n]
     let u := s.heard q
     s.Takes q →
     (n = s.stepNo → Does (.commit p n) s fun t => t.step.held = some n ∧
       t = { u with step := { s.step with held := some n, actionable := t.step.actionable } } ∧
       (s.step.drainCount = s.step.mbCount → s.step.ended = true → s.step.actionable = none →
         s.step.st = 1 ∨ s.step.st = 2 → t.step.actionable = some s.now) ∧
       (s.step.drainCount ≠ s.step.mbCount ∨ s.step.ended = false → t.step.actionable = s.step.actionable)) ∧
     (n ≠ s.stepNo → exec (.commit p n) s = .next (u.report 0 7 0x280 0 0 n)))

/-- R253, R254: the swap flips ACTIVE of every unit whose WRITTEN is set, clears WRITTEN, and stops every sequencer; it does not
begin while a snapshot copy runs, nor while an accepted access to a view is still to be served, nor without an actionable
commit. R207, R253, R266, R360: the swap's end advances STEP_NUMBER by one, clears DRAIN_COUNT, ENDED, the attempt and the
reduction's counts, and starts the next step; under JOB_STOP the job is LOADED again instead. -/
def Obligations.TandemSwap : Prop :=
  (∀ (s : State), s.step.st = 1 ∨ s.step.st = 2 →
     (s.step.actionable.isSome = true → (∀ x, s.step.ship = some x → x.copying = false) → s.viewsBusy = false →
       s.fab.combining = [] → (∀ r ∈ s.pkg.regions, r.failed = []) → Tbl.wf false s.step.written = true →
       Does .tandemSwap s fun t => t.step.st = 3 ∧ t.step.written = [] ∧
         (∀ u, Tbl.get false t.step.active u = (Tbl.get false s.step.active u != Tbl.get false s.step.written u)) ∧
         (∀ k, k < 192 → (t.tile k).seq = .stopped ∧ (t.tile k).store = (s.tile k).store ∧ (t.tile k).acc = (s.tile k).acc) ∧
         t = { s with step := t.step, tiles := t.tiles, fab := { s.fab with cache := [] }, pwr := t.pwr, pkg := t.pkg }) ∧
     (s.step.actionable = none → exec .tandemSwap s = .next s) ∧
     (s.viewsBusy = true → exec .tandemSwap s = .next s) ∧
     (∀ x, s.step.ship = some x → x.copying = true → exec .tandemSwap s = .next s)) ∧
  (∀ (s : State), s.step.st = 3 → s.step.ship = none → bit s.obs.triggers 2 = false →
     Does .swapComplete s fun t => t.step.committed = (s.step.committed + 1) % 2 ^ 64 ∧ t.step.drainCount = 0 ∧
       t.step.ended = false ∧ t.step.attempt = 0 ∧ t.step.firstCopies = 0 ∧ t.step.held = none ∧ t.step.actionable = none ∧
       t.step.active = s.step.active ∧ t.step.written = s.step.written ∧ t.red.st = [] ∧ t.red.redDone = [] ∧
       t.red.tags = s.red.tags ∧ t.hbm = s.hbm ∧ t.flash = s.flash ∧
       (s.step.stopping = false → t.step.st = 1 ∧ t.hal = s.hal) ∧
       (s.step.stopping = true → t.step.st = 0 ∧ t.hal.job = 1 ∧ t.step.stopping = false))

/-- R222, R255, R348, R366, R861: a repeat order of the step in progress with a later attempt number stops every sequencer and
discards every queue; 10 us later WRITTEN is cleared and the Pannier stacks are empty; then the attempt starts. An order of
another step or an old attempt, and, by the model's choice (log 96), one that comes while no job runs or the swap is made, is
reported and discarded. -/
def Obligations.Repeats : Prop :=
  (∀ (p : Pkt) (n attempt cause : Nat) (ps : List Patch) (s : State), s.refuses p.src = false → s.fromAbove p.src = false →
    let q := ledPkt p 7 (orderNums { commit := false, step := n, attempt, cause, patches := ps })
    let u := s.heard q
    s.Takes q →
    (n = s.stepNo → s.step.attempt < attempt → 2 ≤ s.hal.job → s.step.st ≠ 3 → s.fab.combining = [] →
      Does (.repeatOrder p n attempt cause ps) s fun t => t.step.st = 4 ∧ t.step.attempt = attempt ∧
        t.step.repeating = some (attempt, cause, ps) ∧ t.step.repeatAt = s.now ∧ t.step.committed = s.step.committed ∧
        (∀ k, k < 192 → (t.tile k).seq = .stopped ∧ (t.tile k).mxq = [] ∧ (t.tile k).panq = [] ∧ (t.tile k).fabq = [] ∧
          (t.tile k).ftq = [] ∧ (t.tile k).store = (s.tile k).store) ∧
        t.red.st = [] ∧ t.hbm = u.hbm ∧ t.hal = u.hal ∧ t.flash = s.flash) ∧
    (n ≠ s.stepNo ∨ attempt ≤ s.step.attempt ∨ s.hal.job < 2 ∨ s.step.st = 3 → exec (.repeatOrder p n attempt cause ps) s =
      .next (u.report 0 7 0x281 0 0 (n + 2 ^ 64 * attempt)))) ∧
  (∀ (s : State) (attempt cause : Nat), s.step.st = 4 → s.step.drained = false →
    s.step.repeatAt + 10000 ≤ s.now → s.step.repeating = some (attempt, cause, []) → (∀ r ∈ s.pkg.regions, r.failed = []) →
    s.poisoned = [] → s.relayoutDue = false → s.hbm.mapped = [] → s.fab.combining = [] →
    (∀ (r : Req) (a : Nat), r ∈ s.fab.reqs → r.why ≠ .restore a) → bit s.obs.triggers 3 = false →
    Does .repeatDrained s fun t => t.step = { s.step with
        drainCount := 0, ended := false, counted := [], held := none, actionable := none, requested := false
        withheld := false, written := [], repeats := satAdd 16 s.step.repeats 1, drained := true } ∧
      (∀ k, k < 192 → (t.tile k).pn.main = [] ∧ (t.tile k).pn.ckpt = [] ∧ (t.tile k).posts = [] ∧ (t.tile k).comp = 0 ∧
        (t.tile k).store = (s.tile k).store) ∧
      t = { s with step := t.step, tiles := t.tiles, pwr := t.pwr
                   red := { s.red with st := [], redDone := [], waiting := [], selfDone := false, sentDone := false
                                       ctlWait := s.red.ctlWait.filter fun w => !w.2.2.2.2 }
                   hbm := { s.hbm with reported := [], restoring := false } }) ∧
  (∀ (s : State), s.step.st = 4 → s.step.drained = true → s.hal.job = 2 → s.slotsWait = false → s.tileReinit = false →
    s.heat.stop = none → s.hbm.stk.any (·.relayout) = false → s.hbm.restoring = false →
    exec .repeatRestart s = .next (s.onStep fun x => { x with st := 1, since := s.now, repeating := none }).startAll)

/-- R267, R268: a snapshot whose writes have all been acknowledged is answered DONE with its step, its bytes and their sum;
one refused by its destination is answered FAILED, and one that holds back a swap for 1 s is given up. -/
def Obligations.Snapshots : Prop :=
  ∀ (s : State) (x : Ship), s.step.ship = some x → x.copying = true →
    let s1 := s.onStep fun y => { y with ship := none }
    let s2 := { s1 with fab := { s1.fab with reqs := s1.fab.reqs.map fun (r : Req) =>
      if r.why = Purpose.snapshot then { r with why := Purpose.nobody } else r } }
    (x.bad = false → (s.fab.reqs.any fun r => r.why == Purpose.snapshot) = false →
      exec .snapshotCopyDone s = .next (s2.finish x.cmd 0 (toBytes 8 x.step ++ toBytes 8 x.len ++ toBytes 8 x.sum))) ∧
    (x.bad = true → exec .snapshotCopyDone s = .next (s2.finish x.cmd 0xC [])) ∧
    (∀ a, s.step.actionable = some a → a + 1000000000 ≤ s.now → exec .snapshotTimeout s = .next (s2.finish x.cmd 6 []))

/-- R333, R337, R340, R344, R347, R351, R354 to R356, R494: reduction records. One of another attempt, or refused with STALE,
is discarded and counted, the credit of one from a child going back all the same. A current one is applied: a REDUCE enters its
node and an END from a child the node's check, and their credits go back; an END from the parent is the root's final END; a
result is written as 128 bytes of FP32 at its block's place when its residues check, and reported bad when they do not. Adding
two records clamps the sums of their elements, and bit 0 of the flags is set where a sum was clamped. R351, R353: a credit that
returns is free again, a data credit or a control credit of its tree, and what the tree holds for such a credit is sent while
there are credits; where the tree holds nothing, nothing else changes. What it says of a point that the spec leaves open is the
model's choice: log 65. -/
def Obligations.ReductionRecords : Prop :=
  (∀ (p : Pkt) (s : State),
     let tree := (s.tagEnt p.aux).tree
     let stale (u : State) : State := { u with red := { u.red with staleDrops := satAdd 16 u.red.staleDrops 1 } }
     let credit (u : State) (ctl : Bool) : State := { u with sent := u.sent ++ [.credit p.src tree ctl] }
     let drop (u : State) : State := if (s.tree p.aux).1 = some p.src then stale u else credit (stale u) true
     (∀ (retry fail : Bool),
       let q := redPkt p .reduce
       let u := s.heard q
       ((s.Takes q ∧ s.current p.step p.attempt = false) ∨ s.MsgComes q 6 →
         exec (.reduce p retry fail) s = .next (credit (stale u) false)) ∧
       (s.Takes q → s.current p.step p.attempt = true → exec (.reduce p retry fail) s =
         .next (credit (u.nodeIn p.aux p.src (Gx.ofRec p.data (s.tagEnt p.aux).width) retry fail) false))) ∧
     (∀ (sum blocks idx flags : Nat),
       let e : EndRec := { src := p.src, sum, blocks, idx, flags }
       let q := redPkt p (.endRec p.src sum blocks idx flags)
       let u := s.heard q
       ((s.Takes q ∧ s.current p.step p.attempt = false) ∨ s.MsgComes q 6 →
         exec (.reduceEnd p sum blocks idx flags) s = .next (drop u)) ∧
       (s.Takes q → s.current p.step p.attempt = true →
         ((s.tree p.aux).1 = some p.src → exec (.reduceEnd p sum blocks idx flags) s = .next (u.finalEnd p.aux e)) ∧
         ((s.tree p.aux).1 ≠ some p.src → exec (.reduceEnd p sum blocks idx flags) s =
           .next (credit ((u.onTag p.aux fun t => { t with ends := t.ends ++ [e] }).endCheck p.aux) true)))) ∧
     (∀ (code : Nat),
       let q := redPkt p (.result code)
       let u := s.heard q
       let g := Gx.ofRec p.data (s.tagEnt p.aux).width
       let s1 := u.resultDown p.aux code g
       let s2 := s1.memWrite ((s1.tagEnt p.aux).resultAddr + 128 * g.block) (gxResult g) 1
       ((s.Takes q ∧ s.current p.step p.attempt = false) ∨ s.MsgComes q 6 →
         exec (.reduceResult p code) s = .next (stale u)) ∧
       (s.Takes q → s.current p.step p.attempt = true → g.resOk = true → exec (.reduceResult p code) s =
         .next ((s2.putExp p.aux g.block g.x code (s2.stepNo + 1)).onTag p.aux fun t =>
           { t with gotSum := (t.gotSum + g.sum) % 2 ^ 64, gotBlocks := t.gotBlocks + 1 })) ∧
       (s.Takes q → s.current p.step p.attempt = true → g.resOk = false → exec (.reduceResult p code) s =
         .next ((s1.onTag p.aux fun t => { t with bad := true }).tellLead 13 [p.aux]))) ∧
     (∀ (w : Nat) (a b : Gx),
       let fits := (a.elems.zip b.elems).all fun x => gxClamp w (x.1 + x.2) == x.1 + x.2
       (gxAdd w a b).elems = (a.elems.zip b.elems).map (fun x => gxClamp w (x.1 + x.2)) ∧
       (gxAdd w a b).flags = if fits then a.flags ||| b.flags else a.flags ||| b.flags ||| 1)) ∧
  (∀ (tree : Nat) (s : State),
     (let s1 := s.onRed fun r => { r with creditsUsed := Tbl.upd 0 r.creditsUsed tree (· - 1) }
      exec (.creditReturn tree false) s = .next (State.sendHeld tree s.red.waiting.length s1)) ∧
     (let s1 := s.onRed fun r => { r with ctlUsed := Tbl.upd 0 r.ctlUsed tree (· - 1) }
      exec (.creditReturn tree true) s = .next (State.sendCtl tree s.red.ctlWait.length s1)) ∧
     ((s.red.waiting.find? fun w => (s.tagEnt w.1).tree == tree) = none →
       Does (.creditReturn tree false) s fun t => t = { s with red := { s.red with creditsUsed := t.red.creditsUsed } } ∧
         Tbl.get 0 t.red.creditsUsed tree = Tbl.get 0 s.red.creditsUsed tree - 1 ∧
         ∀ j, j ≠ tree → Tbl.get 0 t.red.creditsUsed j = Tbl.get 0 s.red.creditsUsed j) ∧
     ((s.red.ctlWait.find? fun w => w.1 == tree) = none →
       Does (.creditReturn tree true) s fun t => t = { s with red := { s.red with ctlUsed := t.red.ctlUsed } } ∧
         Tbl.get 0 t.red.ctlUsed tree = Tbl.get 0 s.red.ctlUsed tree - 1 ∧
         ∀ j, j ≠ tree → Tbl.get 0 t.red.ctlUsed j = Tbl.get 0 s.red.ctlUsed j))

/-- R361 to R367: the top lead's ledger, without a standby. A report is kept for the device that made it; the report with which
every device of the team and every lower lead is complete, and no tag awaits its checks, has the commit sent to every member
and the ledger opened for the next step. A cause of repeat has the order sent and the next attempt opened, and STEP_REPEATED
raised; the ledger fails past REPEAT_LIMIT or attempt 255. RESULT_BAD, BEAT_TIMEOUT and the hard limit are such causes. What it
says of a point that the spec leaves open is the model's choice: log 20. -/
def Obligations.Ledger : Prop :=
  ∀ (s : State), s.red.lead = true → s.red.ledger = 1 → s.red.leadAbove = none → s.red.standbyDev = none →
    (∀ (p : Pkt) (n : Nat), s.refuses p.src = false →
      let q := ledPkt p 2 [p.src, s.red.step, s.red.attempt, n]
      let child := (s.treeAt 0).2.contains p.src && !s.red.subLeads.contains p.src
      let r := { s.red with reported := Tbl.set 0 s.red.reported p.src n }
      let u := { s.heard q with red := r, sent := (s.heard q).sent ++ if child then [.credit p.src 0 true] else [] }
      s.Takes q →
      (r.allReported = false →
        exec (.ledgerReport p s.red.step s.red.attempt (.complete n)) s = .next u) ∧
      (r.allReported = true → s.red.tagCount = 0 →
        let o : Order := { commit := true, step := s.red.step }
        let v := s.red.members.foldl (fun (v : State) d => v.say d 0x41 6 (.ledger [s.red.step]) [] false)
          (u.onRed fun r => { r with ledger := 3, deciding := some o })
        Does (.ledgerReport p s.red.step s.red.attempt (.complete n)) s fun t =>
          t = { v with red := { r with
            ledger := if s.red.stopping then 0 else 1, stopping := false, step := s.red.step + 1, attempt := 0, repeatsRow := 0
            reported := [], confirmed := [], tagsChecked := [], ovfBlocks := [], openedAt := s.now, deciding := none
            lateSince := [] } })) ∧
    (∀ (p : Pkt) (cause : Nat), s.refuses p.src = false →
      let q := ledPkt p 1 [p.src, s.red.step, s.red.attempt, cause]
      let u := s.heard q
      s.Takes q →
      (s.red.repeatsRow < s.red.repeatLimit → s.red.attempt < 255 →
        let o : Order := { commit := false, step := s.red.step, attempt := s.red.attempt + 1, cause, patches := s.red.patches }
        let v := s.red.members.foldl (fun (v : State) d => v.say d 0x41 7 (.ledger (orderNums o)) [] false)
          (u.onRed fun r => { r with ledger := 4, deciding := some o, cause := cause })
        Does (.ledgerRepeatRequest p s.red.step s.red.attempt cause) s fun t =>
          t = { v with red := { s.red with
            ledger := 1, cause := cause, attempt := s.red.attempt + 1, repeatsRow := s.red.repeatsRow + 1
            reported := [], confirmed := [], tagsChecked := [], ovfBlocks := [], openedAt := s.now, deciding := none
            lateSince := [] } }.raise { code := 0x15, payload := [s.red.step, s.red.attempt + 1, cause] }) ∧
      (s.red.repeatLimit ≤ s.red.repeatsRow ∨ 255 ≤ s.red.attempt →
        exec (.ledgerRepeatRequest p s.red.step s.red.attempt cause) s = .next (u.failLedger cause))) ∧
    (∀ (p : Pkt) (tag : Nat), s.refuses p.src = false →
      let q := ledPkt p 13 [p.src, s.red.step, s.red.attempt, tag]
      s.Takes q → exec (.resultBad p s.red.step s.red.attempt tag) s = .next ((s.heard q).causeAt 7)) ∧
    (s.red.openedAt + 1000000000 * s.red.hardLimit < s.now → exec .hardLimitExpiry s = .next (s.causeAt 1)) ∧
    (∀ x ∈ s.red.lateSince, x.2 ≠ 0 → x.2 - 1 + 1000000 * s.red.beatTimeout < s.now → (s.treeAt 0).1 = none →
      exec .beatTimeout s = .next (s.causeAt 1))

/-- R351, R362: beats. A device tells its parent in tree 0, against a control credit, how many devices of its subtree are live
and how many there are; a child's beat is kept with its time, and its control credit goes back. A child whose subtree is all
live is not late. R371, R372: a standby holds and acknowledges a decision; its acknowledgement of that very decision lets the
lead issue it; heartbeats go to it and reach it; it takes over 5 ms after the last one in hardware mode; a device takes the
announced lead for its own and refuses the old one from then on, whose messages then have no effect. What it says of a point
that the spec leaves open is the model's choice: log 21. -/
def Obligations.BeatsAndStandby : Prop :=
  ((∀ (s : State) (p : Nat) (cs : List Nat), s.treeAt 0 = (some p, cs) → s.ctlFree 0 = true →
     (∀ w ∈ s.red.ctlWait, w.1 ≠ 0) →
     let live := (cs.map fun c => (s.beatOf c).1).foldl (· + ·) (b2n (s.hal.job = 2))
     let size := (cs.map fun c => (s.beatOf c).2).foldl (· + ·) 1
     let w := s.watchBeats
     exec .beatTimer s = .next (State.say { w with red := { w.red with ctlUsed := Tbl.upd 0 s.red.ctlUsed 0 (· + 1) } } p 0x41 4
       (.ledger [s.fab.device, live, size]) [] false)) ∧
   (∀ (p : Pkt) (live size : Nat) (s : State),
     let q := ledPkt p 4 [p.src, live, size]
     let u := s.heard q
     s.Takes q →
     Does (.ledgerBeat p live size) s fun t =>
       t = { u with red := { u.red with beats := t.red.beats, lateSince := t.red.lateSince }
                    sent := u.sent ++ [.credit p.src 0 true] } ∧
       Tbl.get (0, 1, 0) t.red.beats p.src = (live, size, s.now) ∧
       (∀ j, j ≠ p.src → Tbl.get (0, 1, 0) t.red.beats j = Tbl.get (0, 1, 0) s.red.beats j) ∧
       (size ≤ live → Tbl.get 0 t.red.lateSince p.src = 0))) ∧
  (∀ (s : State) (p : Pkt),
     (∀ (o : Order),
       let q := ledPkt p 9 (orderNums o)
       let u := s.heard q
       s.red.standby = true → s.refuses p.src = false → s.Takes q →
       exec (.standbyDecision p o) s = .next ((u.onRed fun r => { r with heldDecision := some o }).say p.src 0x41 10
         (.ledger (orderNums o)) [] false)) ∧
     (∀ (o : Order),
       let q := ledPkt p 10 (orderNums o)
       s.red.deciding = some o → s.red.standbyDev = some p.src → s.refuses p.src = false → s.Takes q →
       exec (.standbyAck p o) s = .next ((s.heard q).issue o)) ∧
     (∀ b, s.red.standbyDev = some b → s.red.lead = true →
       exec .heartbeatTimer s = .next (s.say b 0x41 8 (.ledger []) [] false)) ∧
     (let q := ledPkt p 8 []
      let u := s.heard q
      s.red.standby = true → p.src = s.red.leadDev → s.refuses p.src = false → s.Takes q → Does (.heartbeat p) s fun t =>
       t = { u with red := { s.red with lastHeart := s.now, silent := false } }) ∧
     (s.red.standby = true → s.red.lastHeart + 5000000 ≤ s.now → s.assisted 6 = false →
       exec .standbyTakeover s = .next s.takeover ∧ s.takeover.red.lead = true ∧ s.takeover.red.leadDev = s.fab.device ∧
       s.takeover.red.standby = false ∧ s.red.leadDev ∈ s.takeover.red.oldLeads) ∧
     (∀ old,
       let q := ledPkt p 11 [p.src, old]
       let u := s.heard q
       old = s.red.leadDev → s.fab.device ≠ old → s.refuses p.src = false → s.Takes q →
       Does (.leadAnnounce p old) s fun t => t.red.leadDev = p.src ∧ old ∈ t.red.oldLeads ∧ t.red.lead = s.red.lead ∧
         t = { u with red := t.red }) ∧
     (∀ step,
       let q := ledPkt p 6 [step]
       s.refuses p.src = true → s.Takes q → exec (.commit p step) s = .next (s.heard q)))

/-- R396, R400, R402, R404 to R407, R410, R418 to R420: the channels. A shadow that is ready is recorded as pending repair; a
page retired is remapped to the channel's highest page that is no target, where the stack's top falls only once no frame is
left in the part removed; a failed access is tried again up to three times and then retrains the channel, whose traffic resumes
when it ends well; a scrub reads the next chunk; a refresh changes nothing where no cell has lost its charge, and a unit of the
channel that did is disturbed. R419, R422: a reading at or above T_THROT lowers LEVEL by one, not below 1; ten readings in a
row 3 degrees below it raise LEVEL by one, not above 8. R407, R411 to R416: a relayout ends once no page holds a frame in the
part that the stack loses: every channel of the stack that was failing is then mapped out for good, and the stack's window
answers again; until then it goes on. After the last stack's, poisoned units are fetched again. What it says of a point that
the spec leaves open is the model's choice: log 11. -/
def Obligations.HbmChannels : Prop :=
  (∀ (m : ChanIx) (s : State),
     let c := s.chan m.val
     let r := s.chanRec m.val
     let n := m.val / 16
     let lower := (s.onChanRec m.val fun c => { c with retired := c.retired + 1 }).top n
     (∀ row l, c.shadowing = row :: l → Does (.rowShadowDone m) s fun t =>
       t = { s with flash := t.flash, hbm := { s.hbm with chans := t.hbm.chans } } ∧
       t.chan m.val = { c with shadowing := l } ∧ t.chanRec m.val = { r with shadows := r.shadows ++ [row] }) ∧
     (∀ pg l, c.retiring = pg :: l → lower = s.top n → Does (.pageRetireDone m) s fun t =>
         t = { s with flash := t.flash, err := t.err, hbm := { s.hbm with chans := t.hbm.chans } } ∧
         t.chan m.val = { c with retiring := l } ∧
         t.chanRec m.val = { r with retired := r.retired + 1
                                    remap := r.remap.filter (·.1 ≠ pg) ++ [(pg, chanCap / 4096 - 1 - r.retired)] }) ∧
     (∀ pg l, c.retiring = pg :: l → lower < s.top n →
       let u := s.beginShrink n lower
       (u.shrinkClear = false → exec (.pageRetireDone m) s = .next u) ∧
       (u.shrinkClear = true → Does (.pageRetireDone m) s fun t => ∃ v : State, t = v.endShrink n lower (s.top n) ∧
         v = { u with flash := v.flash, err := v.err, hbm := { u.hbm with chans := v.hbm.chans } } ∧
         v.chan m.val = { (u.chan m.val) with retiring := l } ∧
         v.chanRec m.val = { (u.chanRec m.val) with
           retired := (u.chanRec m.val).retired + 1
           remap := (u.chanRec m.val).remap.filter (·.1 ≠ pg) ++ [(pg, chanCap / 4096 - 1 - r.retired)] })) ∧
     (∀ cleared, r.mappedOut = false → c.failing = false → c.retrain = none →
       (3 ≤ c.retries → Does (.hbmInterfaceError m cleared) s fun t =>
         t = { s with hbm := { s.hbm with chans := t.hbm.chans } } ∧
         t.chan m.val = { c with retries := 0, retrain := some (s.now + 2000000) }) ∧
       (c.retries < 3 → cleared = false → Does (.hbmInterfaceError m cleared) s fun t =>
         t = { s with hbm := { s.hbm with chans := t.hbm.chans } } ∧ t.chan m.val = { c with retries := c.retries + 1 })) ∧
     (∀ a, c.retrain = some a → s.hal.cmds = [] → Does (.channelRetrainDone m true) s fun t =>
       t = { s with err := t.err, hbm := { s.hbm with chans := t.hbm.chans } } ∧ t.chan m.val = { c with retrain := none }) ∧
     (r.mappedOut = false → c.failing = false → s.hbm.flips = [] →
       let s1 := s.onChan m.val fun x => { x with scrub := (c.scrub + 1) % (chanCap / 2048) }
       s.chanAddr m.val (2048 * c.scrub) % 2 ^ 36 < s.top (m.val / 16) → Does (.scrubRead m []) s fun t =>
         t = s1.countHbm (s.chanAddr m.val (2048 * c.scrub)) 0 8 ∧ t.chan m.val = { c with scrub := (c.scrub + 1) % (chanCap / 2048) } ∧
         t.hbm.bytes = s.hbm.bytes ∧ t.hbm.unitMeta = s.hbm.unitMeta) ∧
     exec (.hbmRefresh m []) s = .next s ∧
     (∀ e : UnitErr, r.mappedOut = false → 64 * e.unit < chanCap →
       s.chanAddr m.val (64 * e.unit) % 2 ^ 36 < s.top n → Does (.hbmRefresh m [e]) s fun t =>
         t = s.disturb (s.chanAddr m.val (64 * e.unit)) e.flips ∧ t = { s with hbm := { s.hbm with flips := t.hbm.flips } })) ∧
  (∀ (n : StackIx) (temp : BitVec 8) (s : State), s.hbm.stk.length = 6 →
     let x := nth s.hbm.stk n.val {}
     Does (.hbmTempRead n temp) s fun t =>
       let y := nth t.hbm.stk n.val {}
       t = { s with hbm := { s.hbm with stk := t.hbm.stk } } ∧ (∀ j, j ≠ n.val → nth t.hbm.stk j {} = nth s.hbm.stk j {}) ∧
       y.temp = temp.toInt ∧ y.reports = (temp.toInt :: x.reports).take 10 ∧
       ((s.hbm.tThrot : Int) ≤ temp.toInt → 1 < x.level → y.level = x.level - 1) ∧
       ((s.hbm.tThrot : Int) ≤ temp.toInt → x.level = 1 → y.level = 1) ∧
       (temp.toInt ≤ (s.hbm.tThrot : Int) - 3 → 9 ≤ x.reports.length →
         (∀ r ∈ x.reports.take 9, r ≤ (s.hbm.tThrot : Int) - 3) → x.level < 8 → y.level = x.level + 1) ∧
       (temp.toInt < (s.hbm.tThrot : Int) → (s.hbm.tThrot : Int) - 3 < temp.toInt → y.level = x.level)) ∧
  (∀ (n : StackIx) (s : State), s.dueChans n.val ≠ [] → (s.hal.job = 2 → (nth s.hbm.stk n.val {}).relayout = true) →
     s.hbm.stk.length = 6 →
     let u := s.beginRelayout n.val
     let due := u.dueChans n.val
     let v := due.foldl (fun (s : State) k => s.mapOut n.val k) (due.foldl (fun (s : State) k => s.poisonChan n.val k) u)
     let w := v.endShrink n.val (v.top n.val) (u.top n.val)
     let x := { w with hbm := { w.hbm with stk := setAt w.hbm.stk n.val fun x => { x with relayout := false } } }
     (u.shrinkClear = false → exec (.relayoutDone n) s = .next u) ∧
     (u.shrinkClear = true → Does (.relayoutDone n) s fun t => t = (if x.relayoutDue then x else x.beginRestore) ∧
       (nth t.hbm.stk n.val {}).relayout = false ∧
       ∀ k ∈ due, (t.chanRec (16 * n.val + k)).mappedOut = true ∧ (t.chan (16 * n.val + k)).failing = false))

/-- R432, R433, R437, R438, R441, R613: promotion. An epoch that ends halves every page's heat. The hottest candidate takes a
free frame and is FILLING; when a granule has come whole, what is held for it applies and the next is asked for; after the last
the page is LOCAL; 10 ms after it began, or where a shrink takes its frame, a promotion is abandoned and the page has no frame.
R434, R435, R438, R439, R613: eviction. The coldest LOCAL page without PIN gives way to a candidate hot enough, and is
EVICTING; when none of its granules is dirty or being written back the page leaves its frame, to which the candidate goes; an
eviction of four passes, one with a run unacknowledged for 10 ms, and one that a home has refused and that began 10 ms ago are
abandoned, and the page stays LOCAL. What it says of a point that the spec leaves open is the model's choice: log 72. -/
def Obligations.PageMoves : Prop :=
  ((∀ s : State, Tbl.wf 0 s.tier.heat = true → s.tier.epochAt + 1000000 * s.tier.epochMs ≤ s.now → Does .heatEpoch s fun t =>
     t = { s with tier := { s.tier with heat := t.tier.heat, epochAt := s.now } } ∧
     ∀ p, Tbl.get 0 t.tier.heat p = Tbl.get 0 s.tier.heat p / 2) ∧
   (∀ (s : State) (p i : Nat) (l : List Nat), s.nextOrdered false = none → s.assisted 1 = false →
     s.hottestPage s.candidates = some p → s.openFrames = i :: l → s.holdsShare 0x21 = true →
     s.tier.moves.length < s.tier.maxMigrations → Does .promote s fun t =>
       t = s.startPromote p i ∧ t.page p = { s.page p with st := 3, frame := i } ∧ (∀ q, q ≠ p → t.page q = s.page q) ∧
       t.tier.moves = s.tier.moves ++ [{ page := p, began := s.now }] ∧
       (s.hbm.flips = [] → t = { s with tier := t.tier, hbm := t.hbm, fab := t.fab, ports := t.ports, txWait := t.txWait
                                        sent := t.sent, obs := t.obs })) ∧
   ∀ (s : State) (p : BitVec 21) (m : Move), s.moveOf p.toNat = some m → m.evict = false → (s.page p.toNat).st = 3 →
     (m.bad = false → m.forced = false → s.asking p.toNat = false →
       let s1 := s.onMove p.toNat fun q => { q with arrived := m.arrived + 1 }
       let s2 := s1.applyHeld p.toNat (· == m.arrived) m.writes
       (m.arrived < 31 → exec (.promoteGranule p) s = .next (s2.askGranule p.toNat (m.arrived + 1))) ∧
       (31 ≤ m.arrived → exec (.promoteGranule p) s = .next (((((s2.onPage p.toNat fun e => { e with st := 2 }).dropMove
         p.toNat).onTier fun x => { x with promoted := satAdd 32 x.promoted 1 }).tierDone p.toNat false 0))) ∧
       (31 ≤ m.arrived → s.fab.queue = [] → Does (.promoteGranule p) s fun t =>
         t.page p.toNat = { s.page p.toNat with st := 2 } ∧ t.moveOf p.toNat = none ∧
         t.tier.promoted = satAdd 32 s.tier.promoted 1 ∧ ∀ q, q ≠ p.toNat → t.page q = s.page q)) ∧
     (m.forced = true ∨ m.began + 10000000 ≤ s.now →
       exec (.promoteAbandon p) s = .next ((s.abandonFill p.toNat).tierDone p.toNat false 0xC) ∧
       (s.fab.queue = [] → Does (.promoteAbandon p) s fun t =>
         t.page p.toNat = { s.page p.toNat with st := if (s.page p.toNat).home = 0 then 0 else 1, frame := 0 } ∧
         t.moveOf p.toNat = none ∧ (∀ q, q ≠ p.toNat → t.page q = s.page q) ∧ t.tier.promoted = s.tier.promoted))) ∧
  ((∀ (s : State) (p v : Nat), s.nextOrdered true = none → s.nextOrdered false = none → s.assisted 1 = false →
     s.hottestPage s.candidates = some p → s.victimFor p = some v → s.openFrames = [] → s.holdsShare 0x21 = true →
     s.tier.moves.length < s.tier.maxMigrations →
     exec .evict s = .next (s.startEvict v (some p)) ∧
     (s.dirtyGrans v = [] → Does .evict s fun t => t.page v = { s.page v with st := 4 } ∧
       (∀ q, q ≠ v → t.page q = s.page q) ∧
       t.tier.moves = s.tier.moves ++ [{ page := v, evict := true, began := s.now, next := some p }] ∧
       (s.hbm.flips = [] → t = { s with tier := t.tier, hbm := t.hbm, obs := t.obs }))) ∧
   ∀ (s : State) (p : BitVec 21) (m : Move), s.moveOf p.toNat = some m → m.evict = true →
     ((s.page p.toNat).st = 4 → s.dirtyGrans p.toNat = [] → s.writing p.toNat = false →
       let e := s.page p.toNat
       let s1 := ((s.leaveFrame p.toNat).onTier fun x => { x with evicted := satAdd 32 x.evicted 1 }).tierDone p.toNat true 0
       let s2 := if e.buddy then s1.raise { code := 0x22, payload := [p.toNat] } else s1
       s2.page p.toNat = { e with st := if e.home = 0 then 0 else 1, frame := 0 } ∧
       s2.moveOf p.toNat = none ∧ (∀ q, q ≠ p.toNat → s2.page q = s.page q) ∧
       s2.tier.evicted = satAdd 32 s.tier.evicted 1 ∧
       (m.next = none → exec (.evictDone p) s = .next s2) ∧
       ∀ q, m.next = some q → exec (.evictDone p) s =
         .next (if (s2.page q).st = 1 ∧ s2.openFrames.contains e.frame = true then s2.startPromote q e.frame else s2)) ∧
     (4 ≤ m.passes ∨ s.wbLate p.toNat = true ∨ (m.bad = true ∧ m.began + 10000000 ≤ s.now) →
       Does (.evictAbandon p) s fun t =>
         t.page p.toNat = { s.page p.toNat with st := 2 } ∧ t.moveOf p.toNat = none ∧
         (∀ q, q ≠ p.toNat → t.page q = s.page q) ∧
         (s.hbm.flips = [] → t = { s with
           tier := { s.tier with pages := t.tier.pages, moves := t.tier.moves }, hal := t.hal, ports := t.ports, hbm := t.hbm
           obs := t.obs, txWait := t.txWait, sent := t.sent, freeIx := t.freeIx })))

/-- R443, R445, R448, R451 to R453: write-back and the buddy. A granule dirty for WB_MS is written back, and counts as written
back when every run is acknowledged, at once where no run holds a unit to send; a buddied write's acknowledgement completes it;
one that stays out for BUDDY_TIMEOUT loses the buddy, and no request waits on it any more; a poisoned unit of the copy has its
granule sent again; a re-seed that has copied all is PROTECTED. What it says of a point that the spec leaves open is the
model's choice: log 27. -/
def Obligations.WriteBack : Prop :=
  (∀ (s : State) (p : BitVec 21) (g : Fin 32),
    let e := s.page p.toNat
    let d := Tbl.get 0 s.tier.dirty (32 * p.toNat + g.val)
    let runs := (List.range 32).filter fun r => s.runDirty (s.frameBase e.frame + 65536 * g.val + 2048 * r)
    d ≠ 0 → s.tier.wbMs ≠ 0 → e.buddy = false → e.home ≠ 0 → e.st = 2 ∨ e.st = 4 →
    d + 1000000 * s.tier.wbMs ≤ s.now + 1 →
    Does (.writebackAge p g) s fun t => t = s.writeBack p.toNat g.val ∧ t.granDirty p.toNat g.val = false ∧
      (runs ≠ [] → t.tier.wbs = s.tier.wbs.filter (· ≠ (p.toNat, g.val)) ++ [(p.toNat, g.val)]) ∧
      (runs = [] → t.tier.wbs = s.tier.wbs.filter (· ≠ (p.toNat, g.val)) ∧
        t.tier.wbGranules = satAdd 32 s.tier.wbGranules 1)) ∧
  (∀ (s : State) (num p g : Nat) (r : Req), s.req num = some r → r.why = .writeBack p g →
    exec (.writebackAck num) s = .next ((s.complete r 0 []).pump r.pkt.dst) ∧
    (s.tier.wbs.contains (p, g) = true → (∀ q ∈ s.fab.reqs, q.num ≠ num → q.why ≠ .writeBack p g) → s.moveOf p = none →
      s.fab.owed = [] → s.hal.cmds = [] → r.pkt.dst ≠ selfDev → Does (.writebackAck num) s fun t =>
        t.tier = { s.tier with wbs := s.tier.wbs.filter (· ≠ (p, g)), wbGranules := satAdd 32 s.tier.wbGranules 1 } ∧
        t.req num = none ∧ t.hbm = s.hbm)) ∧
  (∀ (s : State) (num p : Nat) (r : Req), s.req num = some r → r.why = .buddy p → r.dead = false →
    exec (.buddyForwardAck num) s = .next ((s.complete r 0 []).pump r.pkt.dst) ∧
    (s.fab.owed = [] → s.hal.cmds = [] → r.pkt.dst ≠ selfDev → Does (.buddyForwardAck num) s fun t =>
      t.req num = none ∧ t.tier = s.tier ∧ t.hbm = s.hbm)) ∧
  (∀ s : State, s.tier.buddySt = 1 ∨ s.tier.buddySt = 3 →
    (∃ r ∈ s.fab.reqs, ((∃ p, r.why = .buddy p) ∨ (r.why.reseeds = true ∧ r.dead = true)) ∧
      r.born + 1000000 * s.tier.buddyTimeout ≤ s.now) →
    Does .buddyTimeout s fun t => ∃ u : State, t = u.payOwed.raise { code := 0x23, payload := [s.tier.buddyDev] } ∧
      u = { s with tier := { s.tier with buddySt := 2 }, fab := u.fab, hal := u.hal } ∧
      (∀ r ∈ u.fab.reqs, r.why.reseeds = false ∧ ∀ p, r.why ≠ .buddy p) ∧
      ∀ r ∈ s.fab.reqs, ∀ p, r.why = .buddy p → ∀ o ∈ u.fab.owed, r.num ∉ o.waits) ∧
  (∀ (s : State) (src p : Nat) (off : BitVec 44),
    let own (q : Nat) : Prop := (s.page q).buddy = true ∧ 2 ≤ (s.page q).st ∧ addrDev (s.page q).home = src ∧
      addrOff (s.page q).home ≤ off.toNat ∧ off.toNat < addrOff (s.page q).home + 2 ^ 21
    Tbl.wf {} s.tier.pages = true → own p → (∀ q, own q → q = p) →
    exec (.buddyPoison src off) s =
      .next (s.sendGranule p ((off.toNat - addrOff (s.page p).home) / 65536) (.buddy p))) ∧
  ∀ s : State, s.tier.buddySt = 3 → 2 ^ 21 ≤ s.tier.reseed → (∀ r ∈ s.fab.reqs, r.why.reseeds = false) →
    exec .reseedDone s = .next { s with tier := { s.tier with buddySt := 1 } }

/-- R455, R456, R479, R482, R510: a sequencer issues STREAM, COPY, CTR_WAIT, FENCE and REMOTE. A well-formed record enters the
queue; a FENCE notes what its scope has not completed; without room the sequencer stalls with the record; a record that
cannot be read, or fails a check, faults with the check's code. -/
def Obligations.FabricIssue : Prop :=
  ∀ r ∈ [(0x61, Instr.stream), (0x62, .copy), (0x63, .ctrWait), (0x64, .fence), (0x65, .remote)],
  ∀ (k : TileIx) (a : BitVec 22) (s : State), s.mayIssue k.val = true →
    let x := s.tile k.val
    let b := x.get a.toNat 64
    let check := if r.1 = 0x61 then s.streamCheck k.val b else fabCheck b
    (s.recFault k.val a.toNat = 0 → field b 0 1 = r.1 → s.fabFull k.val r.1 = false → check = 0 →
      Does (r.2 k a) s fun t => TileOnly s t k.val ∧ ∃ e : FabCmd,
        t.tile k.val = { x with fabq := x.fabq ++ [e], nextId := x.nextId + 1 } ∧
        e.id = x.nextId ∧ e.op = r.1 ∧ e.main = b ∧ e.addr = a.toNat ∧ e.st = 0 ∧ e.status = 0 ∧
        (r.1 = 0x61 → e.due = s.now + 1000 * recBits b 63 32) ∧
        (r.1 = 0x64 → e.mark = s.fab.nextReq ∧ e.old = s.fenceOld k.val (bit (field b 0 4) 17))) ∧
    (s.recFault k.val a.toNat = 0 → field b 0 1 = r.1 → s.fabFull k.val r.1 = true →
      exec (r.2 k a) s = .next (s.onTile k.val fun y => { y with seq := .stall r.1 a.toNat, since := s.now })) ∧
    (s.recFault k.val a.toNat = 0 → field b 0 1 = r.1 → s.fabFull k.val r.1 = false → check ≠ 0 →
      exec (r.2 k a) s = .next (s.fault k.val check a.toNat r.1)) ∧
    (s.recFault k.val a.toNat ≠ 0 → s.fabFull k.val r.1 = false →
      exec (r.2 k a) s = .next (s.fault k.val (s.recFault k.val a.toNat) a.toNat r.1))

namespace Sys2Proof.Machine

/-- A fabric command of tile k has completed with a status (R145, R481): byte 0 of its status record holds the status and
bytes 8 to 15 the time counter, it has left the queue, and its post is made where DONE is set. -/
structure FabEnds (s t : State) (k : Nat) (c : FabCmd) (status : Nat) : Prop where
  rest : t = { s with tiles := t.tiles, fab := t.fab, freeIx := t.freeIx }
  others : ∀ j, j ≠ k → t.tile j = s.tile j
  status : (t.tile k).get (recBits c.main 341 320) 1 = [BitVec.ofNat 8 status]
  time : (t.tile k).get (recBits c.main 341 320 + 8) 8 = toBytes 8 s.now
  queue : (t.tile k).fabq = (s.tile k).fabq.filter (·.id ≠ c.id)
  comp : (t.tile k).comp = if bit (field c.main 0 2) 15 then ((s.tile k).comp + 1) % 2 ^ 32 else (s.tile k).comp

/-- A stream of tile k has ended (R145, R458), `s` the state with its data as the outcome leaves them: its status record of 16
bytes, its place in the queue, its post. -/
structure StreamEnds (s t : State) (k : Nat) (c : FabCmd) (outcome err late : Nat) : Prop where
  rest : t = { s with tiles := t.tiles, tier := t.tier }
  others : ∀ j, j ≠ k → t.tile j = s.tile j
  record : (t.tile k).get (recBits c.main 341 320) 16 =
    [BitVec.ofNat 8 outcome, BitVec.ofNat 8 err, 0, 0] ++ toBytes 4 late ++ toBytes 8 s.now
  queue : (t.tile k).fabq = (s.tile k).fabq.filter (·.id ≠ c.id)
  comp : (t.tile k).comp = if bit (field c.main 0 2) 15 then ((s.tile k).comp + 1) % 2 ^ 32 else (s.tile k).comp

/-- Command `cmd` takes the fallback of a stream of kind RECOMPUTE or STALE with an ERROR (R459, R460): its fetch is cancelled;
the first completes at once, its destination's bytes open, and the second waits for the copy of its stale data. -/
def FallsBack (cmd : Instr) (s : State) (k : Nat) (c : FabCmd) (err : Nat) : Prop :=
  let u := s.cancelStream k c.id
  (∀ r ∈ u.fab.reqs, ∀ off, r.why ≠ .stream k c.id off) ∧
  (recBits c.main 10 8 = 1 → Does cmd s fun t => StreamEnds (u.voidStream c) t k c 4 err 0 ∧
    t.tier = { (u.voidStream c).tier with recompute := satAdd 16 (u.voidStream c).tier.recompute 1 }) ∧
  (recBits c.main 10 8 = 2 → Does cmd s fun t =>
    t.tile k = { (s.tile k) with
      fabq := (s.tile k).fabq.map fun q => if q.id = c.id then { q with st := 2, status := err } else q } ∧
    t = { u with tiles := t.tiles } ∧ ∀ j, j ≠ k → t.tile j = s.tile j)

end Sys2Proof.Machine

/-- R457, R480, R482, R513, R516, R613, R859: the next command of a tile's fabric queue starts. A COPY and a STREAM need a
share of the staging buffer, a COPY an engine too, a STREAM memory that does not hold its accesses; a CTR_WAIT's time runs from
its start; a REMOTE that reads marked words faults with 0x111 and leaves the queue. R392, R481, R510 to R512, R514, R516, R862:
a fabric command completes. A REMOTE and a COPY with the status noted for them once nothing serves them any more; a CTR_WAIT
with OK once the counter has the count, or with TIMEOUT; a FENCE once nothing in its scope is pending, with the status of an
operation in its scope that failed, which no later FENCE then reports. A transfer that put a poisoned unit of HBM into a local
store faults its sequencer with 0x111 as it completes. A COPY that has read and not written goes on. What it says of a point
that the spec leaves open is the model's choice: log 70. -/
def Obligations.FabricRuns : Prop :=
  (∀ (k : TileIx) (s : State) (c : FabCmd), nextFab (s.tile k.val).fabq = some c →
     let f := recBits c.main
     let s1 := s.onFabCmd k.val c.id fun c => { c with st := 1 }
     let reads := c.op = 0x65 ∧ 1 ≤ f 10 8 ∧ f 10 8 ≤ 5
     (c.op = 0x61 → s.holdsShare 0x21 = true → s.streamHeld c = false →
       exec (.fabricCmdStart k .clean) s = .next (s1.startStream k.val c)) ∧
     (c.op = 0x62 → s.holdsShare 0x21 = true → s.copying < s.enginesIn →
       exec (.fabricCmdStart k .clean) s = .next (s1.startCopy k.val c)) ∧
     (c.op = 0x61 ∨ c.op = 0x62 → s.holdsShare 0x21 = false → exec (.fabricCmdStart k .clean) s = .next s) ∧
     (c.op = 0x62 → s.enginesIn ≤ s.copying → exec (.fabricCmdStart k .clean) s = .next s) ∧
     (c.op = 0x63 → Does (.fabricCmdStart k .clean) s fun t => TileOnly s t k.val ∧
       t.tile k.val = { (s.tile k.val) with fabq := (s.tile k.val).fabq.map fun q => if q.id = c.id then
         { q with st := 1, due := if f 383 352 = 0 then 0 else s.now + 1000 * f 383 352 } else q }) ∧
     (c.op = 0x64 → exec (.fabricCmdStart k .clean) s = .next s1) ∧
     (c.op = 0x65 → (reads → (s.tile k.val).marked (f 277 256) (remoteBytes c.main) = false) →
       exec (.fabricCmdStart k .clean) s = .next (s1.startRemote k.val c)) ∧
     (c.op = 0x65 → reads → (s.tile k.val).marked (f 277 256) (remoteBytes c.main) = true →
       exec (.fabricCmdStart k .clean) s = .next ((s1.dropFab k.val c.id).fault k.val 0x111 c.addr 0x65) ∧
       Does (.fabricCmdStart k .clean) s fun t => (t.tile k.val).seq = .fault 0x111 ∧ ∀ q ∈ (t.tile k.val).fabq, q.id ≠ c.id)) ∧
  (∀ (k : TileIx) (i : Fin 16) (s : State) (c : FabCmd), c.st = 1 →
     (s.fabAt k.val i.val 0x65 = some c → s.serves k.val c.id = false →
       (c.spoiled = false → Does (.remoteDone k i) s fun t => FabEnds s t k.val c c.status ∧ t.fab = s.fab) ∧
       (c.spoiled = true → Does (.remoteDone k i) s fun t => (t.tile k.val).seq = .fault 0x111 ∧
         ∃ u, FabEnds s u k.val c c.status ∧ t = u.fault k.val 0x111 c.addr 0x65)) ∧
     (s.fabAt k.val i.val 0x62 = some c → c.parts = [] → c.ended = true ∨ s.serves k.val c.id = false →
       (c.spoiled = false → ∀ spoiled, Does (.copyDone k i [] spoiled) s fun t => t.fab = s.fab ∧
         FabEnds s t k.val c (if c.status = 0 ∧ spoiled = true then 4 else c.status)) ∧
       (c.spoiled = true → Does (.copyDone k i [] false) s fun t => (t.tile k.val).seq = .fault 0x111 ∧
         ∃ u, FabEnds s u k.val c c.status ∧ t = u.fault k.val 0x111 c.addr 0x62) ∧
       ∀ engines, exec (.copyDone k i engines false) s =
         .next ((engines.foldl (fun (s : State) e => s.engineFault e.val) s).finishFab k.val c c.status)) ∧
     (s.fabAt k.val i.val 0x62 = some c → c.parts ≠ [] →
       let u := s.copyFlush k.val c
       ∀ d, u.fabAt k.val i.val 0x62 = some d → d.ended = false → u.serves k.val d.id = true → ∀ engines spoiled,
         exec (.copyDone k i engines spoiled) s = .next u) ∧
     (s.fabAt k.val i.val 0x63 = some c → c.spoiled = false →
       recBits c.main 127 64 ≤ Tbl.get 0 s.fab.arrive (recBits c.main 299 288) →
       Does (.ctrWaitDone k i) s fun t => FabEnds s t k.val c 0 ∧ t.fab = s.fab) ∧
     (s.fabAt k.val i.val 0x63 = some c → c.spoiled = false → c.due ≠ 0 → c.due ≤ s.now →
       Does (.ctrWaitTimeout k i) s fun t => FabEnds s t k.val c 0xC ∧ t.fab = s.fab) ∧
     (s.fabAt k.val i.val 0x64 = some c → c.spoiled = false → s.fencePending k.val c = false →
       (∀ r ∈ s.fab.refused, c.covers k.val r.1 r.2.1 r.2.2.1 = false) →
       Does (.fenceDone k i) s fun t => FabEnds s t k.val c 0 ∧ t.fab = s.fab) ∧
     (s.fabAt k.val i.val 0x64 = some c → c.spoiled = false → s.fencePending k.val c = false → ∀ r ∈ s.fab.refused,
       c.covers k.val r.1 r.2.1 r.2.2.1 = true →
       (∀ q ∈ s.fab.refused, c.covers k.val q.1 q.2.1 q.2.2.1 = true → q ≠ r → r.2.2.1 < q.2.2.1) → r.2.2.2 ≠ 0 →
       Does (.fenceDone k i) s fun t => FabEnds s t k.val c r.2.2.2 ∧
         t.fab = { s.fab with refused := s.fab.refused.filter fun q => !c.covers k.val q.1 q.2.1 q.2.2.1 }))

/-- R392, R458 to R462: a stream ends. All bytes by the deadline: DATA; late with WAIT: WAITED, with the microseconds; the
deadline first, or a fetch that ends late: the fallback of a stream of kind RECOMPUTE or STALE, and one that waits goes on; a
refusal: that fallback with the status noted, or FAILED for one that waits; the stale copy: STALE, or the fault of an address
that R62 or R245 refuses. What it says of a point that the spec leaves open is the model's choice: log 70. -/
def Obligations.Streams : Prop :=
  ∀ (k : TileIx) (i : Fin 16) (s : State) (c : FabCmd), s.fabAt k.val i.val 0x61 = some c → c.spoiled = false →
    let mode := recBits c.main 10 8
    (c.st = 1 → c.ended = false → s.serves k.val c.id = false → c.since ≤ c.due →
      Does (.streamDataDone k i) s fun t => StreamEnds s t k.val c 1 0 0 ∧ t.tier = s.tier) ∧
    (c.st = 1 → c.ended = false → s.serves k.val c.id = false → c.due < c.since →
      (mode = 0 → Does (.streamDataDone k i) s fun t => StreamEnds s t k.val c 2 1 ((c.since - c.due) / 1000) ∧
        t.tier = { s.tier with waited := satAdd 16 s.tier.waited 1 }) ∧
      FallsBack (.streamDataDone k i) s k.val c 1) ∧
    (c.st = 1 → c.ended = true → FallsBack (.streamDataDone k i) s k.val c c.status ∧
      (mode = 0 → Does (.streamDataDone k i) s fun t =>
        let u := (s.cancelStream k.val c.id).voidStream c
        (t.tile k.val).fabq = (u.tile k.val).fabq.filter (·.id ≠ c.id) ∧
        t.tier = { u.tier with failed := satAdd 16 u.tier.failed 1 } ∧
        (t.tile k.val).get (recBits c.main 341 320) 2 = [5, BitVec.ofNat 8 c.status])) ∧
    (c.st < 2 → c.late = false → c.ended = false → c.due ≤ s.now → (c.st = 1 → s.serves k.val c.id = true) →
      FallsBack (.streamDeadline k i) s k.val c (if c.status = 5 then 5 else 1) ∧
      (mode = 0 → Does (.streamDeadline k i) s fun t => TileOnly s t k.val ∧
        t.tile k.val = { (s.tile k.val) with
          fabq := (s.tile k.val).fabq.map fun q => if q.id = c.id then { q with late := true } else q })) ∧
    (c.st = 2 →
      let n := recBits c.main 159 128
      let dst := recBits c.main 255 192
      let r := s.moveRead (recBits c.main 319 256) n
      let code := if s.mapped (recBits c.main 319 256) n then s.writeFault dst n else 0x107
      (code ≠ 0 → exec (.streamStaleCopyDone k i) s = .next (s.fabFault k.val c.id code)) ∧
      (code = 0 → exec (.streamStaleCopyDone k i) s = .next (((r.2.moveWrite dst r.1).countFab k.val n).finishStream k.val
        { c with spoiled := s.intoStore dst && r.1.any fun u => u.2.2.1 } 3 c.status 0)))

namespace Sys2Proof.Machine

/-- The seven rows of Tarilama requests by their opcode (R476). -/
def tlRows (busy : Bool) (errs : List UnitErr) : List (Nat × (Pkt → Instr)) :=
  [(1, (Instr.tlRead · busy errs)), (2, (Instr.tlWrite · busy errs)), (0x10, (Instr.tlAdd · busy)),
   (0x11, (Instr.tlMin · busy)), (0x12, (Instr.tlMax · busy)), (0x13, (Instr.tlCas · busy)), (0x20, Instr.tlInval)]

/-- A request packet comes whole into a port with room, with an operation of R476 (R473, R476, R553). -/
structure State.Arrives (s : State) (p : Pkt) : Prop where
  room : s.rxBeyond p.port (pktClass p) (pktLen p) p.freed = false
  whole : p.crcOk = true

end Sys2Proof.Machine

/-- R467, R473 to R476, R487, R553, R756: requests at the home. One that the port has no room for is discarded; a device
without a number answers none, and none whose trailer fails its check; one of a reserved operation, or for another device, is
answered INVALID; one of another epoch EPOCH, and nothing is applied; any other goes through admission. What it says of a point
that the spec leaves open is the model's choice: log 71. -/
def Obligations.HomeRequests : Prop :=
  ∀ (busy : Bool) (errs : List UnitErr), ∀ r ∈ tlRows busy errs, ∀ (q : Pkt) (s : State),
    let p := if knownOp q.op = true then { q with op := r.1 } else q
    let s1 := s.packetHeard p
    let b := if r.1 = 0x20 then false else busy
    let e := if r.1 = 1 ∨ r.1 = 2 then errs else []
    (s.rxBeyond p.port (pktClass p) (pktLen p) p.freed = true → exec (r.2 q) s = .next (s.rxDiscard p.port)) ∧
    (s.Arrives p → s.fab.numbered = false → exec (r.2 q) s = .next (s.packetIn p)) ∧
    (s.rxBeyond p.port (pktClass p) (pktLen p) p.freed = false → s.fab.numbered = true → q.crcOk = false →
      Does (r.2 q) s fun t => t = { s.packetIn p with obs := t.obs }) ∧
    (s.Arrives p → s.fab.numbered = true → knownOp q.op = false → exec (r.2 q) s = .next (s1.respond p 8)) ∧
    (s.Arrives p → s.fab.numbered = true → knownOp q.op = true →
      (q.dst ≠ s.fab.device → exec (r.2 q) s = .next (s1.sendPkt (s1.response p 8 [] 0 0))) ∧
      (q.dst = s.fab.device → exec (r.2 q) s = .next (s1.home p b e).proposals) ∧
      (q.dst = s.fab.device → q.src ≠ selfDev → q.dstEpoch ≠ s.flash.bootEpoch → s.assisted 1 = false →
        Does (r.2 q) s fun t => t = s1.sendPkt (s1.response p 0xA [] 0 0) ∧
          t.fab = { s.fab with peers := t.fab.peers } ∧ t.hbm = s.hbm ∧ t.tiles = s.tiles ∧ t.step = s.step))

namespace Sys2Proof.Machine

/-- A numbered request from another device that admission neither refuses nor holds (R487 to R504): it comes whole, its epochs
are the ones known, its sender's context stands or finds a free place, an entry of the queue is free, its header is well
formed, it is not stale, its region's key allows it, and its target is not BUSY. -/
structure Admits (s : State) (p : Pkt) : Prop where
  arrives : s.Arrives p
  numbered : s.fab.numbered = true
  dst : p.dst = s.fab.device
  other : p.src ≠ selfDev
  epoch : p.dstEpoch = s.flash.bootEpoch
  context : s.fab.senders.any (fun e => e.1 == p.src) = true ∨
    ((s.fab.senders.filter fun e => e.1 ≠ selfDev).length < 4096 ∧ s.fab.saved.contains p.src = false)
  sender : (s.sender p.src).epoch = p.srcEpoch
  running : s.fab.reinit = false
  entry : s.fab.queue = []
  token : bit p.flags 2 = false
  form : s.malformed p = false
  fresh : s.staleReq p = false
  key : s.keyOk p = true
  open_ : s.busyTime p = none
  mode : s.assisted 1 = false

end Sys2Proof.Machine

/-- R391, R394, R395, R477, R488, R489, R498, R515: a TL_WRITE to populated HBM whose cells hold what was written, one that
admission neither refuses nor holds, while this device has no request of its own outstanding. The bytes stored are those of
the packet at the address that it names, and every other byte of memory reads as before; NEXT advances; an arrival counter
that it carries counts its bytes; no tile and no other sender's context changes. -/
def Obligations.RemoteWrite : Prop :=
  ∀ (q : Pkt) (s : State), knownOp q.op = true →
    let p := { q with op := 2 }
    let a := addrOff p.addr
    Admits s p → p.wseq ≠ 0 → p.wseq = (s.sender p.src).next → s.holdOf [] p false = none → addrScope p.addr = 1 →
    s.fab.reqs = [] → s.step.enabled = false → s.fab.combining = [] → s.inHbm a p.data.length = true → s.hbm.flips = [] →
    (∀ b, a ≤ b → b < a + p.data.length → (s.chan (s.chanAt b)).failing = false) →
    Does (.tlWrite q false []) s fun t =>
      Tbl.getList 0 t.hbm.bytes a p.data.length = p.data ∧
      (∀ b, b < a ∨ a + p.data.length ≤ b → Tbl.get 0 t.hbm.bytes b = Tbl.get 0 s.hbm.bytes b) ∧
      (∀ b, b < a / 64 ∨ (a + p.data.length - 1) / 64 < b → Tbl.get {} t.hbm.unitMeta b = Tbl.get {} s.hbm.unitMeta b) ∧
      (t.sender p.src).next = nextWseq p.wseq ∧ (∀ d, d ≠ p.src → t.sender d = s.sender d) ∧
      (bit p.aux2 12 = true → Tbl.get 0 t.fab.arrive (bits p.aux2 11 0) =
        (Tbl.get 0 s.fab.arrive (bits p.aux2 11 0) + p.data.length) % 2 ^ 64) ∧
      (bit p.aux2 12 = false → t.fab.arrive = s.fab.arrive) ∧
      t = { s with hbm := t.hbm, fab := t.fab, ports := t.ports, txWait := t.txWait, sent := t.sent, obs := t.obs }

/-- R488, R489: the home's numbers. A request below NEXT is a duplicate: nothing is applied, no arrival is counted, and it is
answered DUP, with the value first returned where it fetched one; one above NEXT is refused with GAP and leaves NEXT as it
is. R416, R489, R494, R500, R504 to R507: a token that is not presented in its life expires and is counted; the oldest entry
of the combining buffer is written to memory 64 cycles after it opened; a held request is served when nothing holds it,
refused with STALE where its stamp has grown old; where its target is BUSY a read is answered so and a numbered request
waits; and what waits at this device's own home goes on. -/
def Obligations.HomeNumbers : Prop :=
  (∀ r ∈ (tlRows false []).drop 1, ∀ (q : Pkt) (s : State), knownOp q.op = true →
     let p := { q with op := r.1 }
     let x := s.sender p.src
     let kept := x.retained.filter fun v => !(v.1 == p.rseq || wBelow v.1 p.rseq) || p.rseq == 0
     let first := match kept.find? fun v => v.1 == p.wseq with | some v => toBytes (pktSpan p) v.2 | none => []
     let below := wBelow p.wseq x.next
     Admits s p → p.wseq ≠ 0 → p.wseq ≠ x.next → s.fab.owed = [] → x.mute.contains p.wseq = false →
     Does (r.2 q) s fun t =>
       t.hbm = s.hbm ∧ t.tiles = s.tiles ∧ t.step = s.step ∧ t.tier = s.tier ∧ t.fab.arrive = s.fab.arrive ∧
       (t.sender p.src).next = x.next ∧
       (below = true → t.fab.dups = satAdd 32 s.fab.dups 1) ∧ (below = false → t.fab.dups = s.fab.dups) ∧
       ∃ u : State, u.pathTo p.src = s.pathTo p.src ∧
         t = { u.sendPkt (u.response p (if below then 7 else 9) (if below && pktFetches p then first else []) 0 0) with
               obs := t.obs }) ∧
  ((∀ (k : BitVec 16) (s : State) (x : Nat × Nat), (s.fab.tokens.find? fun y => y.1 == k.toNat) = some x → x.2 ≤ s.now →
     exec (.tokenExpiry k) s = .next { s with fab := { s.fab with
       tokens := s.fab.tokens.filter (·.1 ≠ k.toNat), tokensExpired := satAdd 16 s.fab.tokensExpired 1 } }) ∧
   (∀ (s : State) (e : Combine) (l : List Combine), s.fab.combining = e :: l → e.opened + 51 ≤ s.now →
     exec .combineFlush s = .next (s.combineOut e) ∧
     (s.inHbm e.addr (atomSize e.ty) = true → e.addr % atomSize e.ty = 0 → s.step.enabled = false →
       (s.chan (s.chanAt e.addr)).failing = false → (s.unitAt e.addr).poison = false → s.hbm.flips = [] →
       Does .combineFlush s fun t =>
         Tbl.getList 0 t.hbm.bytes e.addr (atomSize e.ty) = toBytes (atomSize e.ty) (atomOp e.op e.ty
           (field (Tbl.getList 0 s.hbm.bytes e.addr (atomSize e.ty)) 0 (atomSize e.ty)) e.val) ∧
         (∀ b, b < e.addr ∨ e.addr + atomSize e.ty ≤ b → Tbl.get 0 t.hbm.bytes b = Tbl.get 0 s.hbm.bytes b) ∧
         t.fab = { s.fab with combining := s.fab.combining.filter (· ≠ e) } ∧
         t = { s with hbm := t.hbm, fab := t.fab, obs := t.obs })) ∧
   ∀ (i : Fin 256) (s : State) (h : Held), s.fab.queue[i.val]? = some h →
     let s1 := { s with fab := { s.fab with queue := s.fab.queue.eraseIdx i.val } }
     let st := if h.refuse = 0 ∧ s1.staleReq h.pkt = true then 6 else h.refuse
     let s2 := { s1 with fab := { s1.fab with stale := satAdd 32 s.fab.stale (if st = h.refuse then 0 else 1) } }
     (s.holdOf (s.fab.queue.take i.val) h.pkt h.dup = none →
       (h.dup = true → exec (.homeQueueRelease i) s = .next (s1.answerDup h.pkt).goOn) ∧
       (h.dup = false → st ≠ 0 ∨ s2.busyTime h.pkt = none →
         exec (.homeQueueRelease i) s = .next (s2.serve h.pkt [] st).goOn) ∧
       (h.dup = false → st = 0 → ∀ b, s2.busyTime h.pkt = some b →
         (h.pkt.wseq = 0 → exec (.homeQueueRelease i) s = .next (b.2.putOff h.pkt 3 b.1 0 0).goOn) ∧
         (h.pkt.wseq ≠ 0 → exec (.homeQueueRelease i) s =
           .next (State.goOn { s with fab := { s.fab with queue := s.fab.queue.set i.val { h with why := .busy } } })))) ∧
     (∀ w, s.holdOf (s.fab.queue.take i.val) h.pkt h.dup = some w → exec (.homeQueueRelease i) s = .next (State.goOn { s with
       fab := { s.fab with queue := s.fab.queue.set i.val { h with why := w, after := s.waitingAt w } } })))

/-- R484 to R487, R489, R502: the requester. A response that matches a request sent and not yet answered completes it, and what
waited for its place in the window goes out; RETRY holds it, with every later numbered request to that home, for the time
given; BUSY holds it likewise; GAP goes back to the lowest unacknowledged number; EPOCH restarts the numbering with every
request to that home UNREACHABLE. A wait that passes sends the request again and doubles, up to 1 ms; after PATH_FAIL of them
the path is down; REACH_MS without a response is UNREACHABLE. What it says of a point that the spec leaves open is the model's
choice: log 68. -/
def Obligations.Requester : Prop :=
  (∀ (p : Pkt) (s : State) (r : Req), s.Arrives p → s.fab.numbered = true → p.dst = s.fab.device → p.version = 1 →
    p.kind = 2 →
    (s.fab.reqs.find? fun r =>
      r.pkt.dst == p.src && r.pkt.reqId == p.reqId && r.pkt.op == p.op && r.tries ≠ 0 && !r.dead) = some r →
    let s1 := (s.packetHeard p).onPeer p.src fun q => { q with timeouts := 0 }
    (p.status = 0xA → exec (.tlResponse p) s = .next (s1.newEpoch p.src p.srcEpoch)) ∧
    (p.status = 5 → r.hold = none → Does (.tlResponse p) s fun t =>
      t = s1.holdReq r (s.now + 8 * (p.aux % 65536)) (bits p.aux 31 16) (bit p.flags 2) 0 ∧
      (∀ q ∈ t.fab.reqs, q.num = r.num → q.hold = some (s.now + 8 * (p.aux % 65536))) ∧
      ∀ q ∈ t.fab.reqs, q.pkt.dst = p.src → r.num < q.num → q.pkt.wseq ≠ 0 → q.dead = false → q.hold ≠ none) ∧
    (p.status = 3 → p.aux ≠ 0 → (∀ t i, r.why ≠ .drain t i) → r.hold = none →
      exec (.tlResponse p) s = .next (s1.holdReq r (s.now + 8 * p.aux) 0 false (8 * p.aux))) ∧
    (p.status = 9 → r.hold = none → exec (.tlResponse p) s = .next (s1.goBack p.src)) ∧
    (p.status = 0 ∨ p.status = 1 ∨ p.status = 2 ∨ p.status = 4 ∨ p.status = 6 ∨ p.status = 7 ∨ p.status = 8 ∨
        (p.status = 3 ∧ (p.aux = 0 ∨ ∃ t i, r.why = .drain t i)) →
      let s2 := if pktFetches r.pkt && good p.status then s1.onPeer p.src fun q => { q with rseq := r.pkt.wseq } else s1
      exec (.tlResponse p) s = .next ((s2.complete r p.status p.data).pump p.src))) ∧
  ∀ (num : Nat) (s : State) (r : Req), s.req num = some r →
    (∀ till, r.hold = some till → till ≠ 0 → till ≤ s.now → r.routeHold = false →
      exec (.retryAfterExpiry num) s = .next ((s.emit r).pump r.pkt.dst)) ∧
    (r.pkt.dst ≠ selfDev → r.hold = none → r.routeHold = false → r.dead = false → r.sentAt + r.wait ≤ s.now →
      (s.peer r.pkt.dst).timeouts + 1 < s.fab.pathFail → Does (.rtoExpiry num) s fun t =>
        (t.peer r.pkt.dst).timeouts = (s.peer r.pkt.dst).timeouts + 1 ∧
        (∀ q ∈ t.fab.reqs, q.num = num → ∃ q0 ∈ s.fab.reqs, q0.num = num ∧ q.wait = max q0.wait (min 1000000 (2 * q0.wait))) ∧
        t = { s with fab := t.fab, ports := t.ports, txWait := t.txWait, sent := t.sent, obs := t.obs }) ∧
    (r.pkt.dst ≠ selfDev → r.hold = none → r.routeHold = false → r.dead = false → r.sentAt + r.wait ≤ s.now →
      s.fab.pathFail ≤ (s.peer r.pkt.dst).timeouts + 1 → Does (.rtoExpiry num) s fun t =>
        ∃ u : State, t = u.pathDown r.pkt.dst ∧ u.fab.pathsDown = s.fab.pathsDown ∧
          u = { s with fab := u.fab, ports := u.ports, txWait := u.txWait, sent := u.sent, obs := u.obs }) ∧
    (∀ f, r.first = some f → r.pkt.dst ≠ selfDev → r.dead = false → f + 1000000 * s.fab.reachMs ≤ s.now →
      exec (.reachTimeout num) s = .next ((s.complete r 0xB []).pump r.pkt.dst))

namespace Sys2Proof.Machine

/-- Of a next state: nothing but port p has changed. -/
structure PortOnly (s t : State) (p : Nat) : Prop where
  rest : t = { s with ports := t.ports }
  others : ∀ j, j ≠ p → t.port j = s.port j

end Sys2Proof.Machine

/-- R529 to R535, R551, R552, R555, R556, R562: what a port does with frames that are not the device's own traffic. A frame
that fails its check or is not accepted is counted and has no other effect. An ARP request, a neighbour solicitation and an
echo request for an address of the port are answered from it; for any other, only counted. PFC pauses and resumes classes, and
what the receive buffer has passed on may resume one at the partner. LLDP is sent every 5 s, and what a neighbour last said is
kept, for 20 s. What it says of a point that the spec leaves open is the model's choice: log 31. -/
def Obligations.PortFrames : Prop :=
  ∀ (p : PortIx) (s : State), s.ports.length = 18 →
    let x := s.port p.val
    (∀ f : Frame, f.fcsOk = false → Does (.frameDiscard p f) s fun t => PortOnly s t p.val ∧
      t.port p.val = { x with cnt := { x.cnt with fcsErrors := satAdd 32 x.cnt.fcsErrors 1 } }) ∧
    (∀ f : Frame, f.fcsOk = true → s.accepts p.val f = false → Does (.frameDiscard p f) s fun t => PortOnly s t p.val ∧
      t.port p.val = { x with cnt := { x.cnt with rxDiscards := satAdd 32 x.cnt.rxDiscards 1 } }) ∧
    (∀ (f : Frame) (sender target : List Byte), s.receives p.val f = true →
      (target ∈ s.ipv4s p.val → exec (.arpRequest p f sender target) s =
        .next ((s.rxCount p.val f.len).sendFrame p.val 1 0 (f.src ++ s.mac p.val ++
          [0x08, 0x06, 0, 1, 0x08, 0, 6, 4, 0, 2] ++ s.mac p.val ++ target ++ f.src ++ sender))) ∧
      (target ∉ s.ipv4s p.val → exec (.arpRequest p f sender target) s = .next (s.rxCount p.val f.len))) ∧
    (∀ (f : Frame) (h : IpHdr) (target : List Byte), f.ip = some h → s.receives p.val f = true →
      (target ∈ s.ipv6s p.val → exec (.neighborSolicitation p f target) s =
        .next ((s.rxCount p.val f.len).sendFrame p.val 2 0 (icmp6 f.src (s.mac p.val) target h.src 255 136
          ([0x60, 0, 0, 0] ++ target ++ [2, 1] ++ s.mac p.val)))) ∧
      (target ∉ s.ipv6s p.val → exec (.neighborSolicitation p f target) s = .next (s.rxCount p.val f.len))) ∧
    (∀ (f : Frame) (h : IpHdr) (body : List Byte), f.ip = some h → s.receives p.val f = true →
      (s.addressed p.val = true → exec (.icmpEchoRequest p f body) s =
        .next ((s.rxCount p.val f.len).sendFrame p.val 3 0
          (if h.v6 then icmp6 f.src (s.mac p.val) h.dst h.src 64 129 body
           else icmp4 f.src (s.mac p.val) h.dst h.src body))) ∧
      (s.addressed p.val = false → exec (.icmpEchoRequest p f body) s = .next (s.rxCount p.val f.len))) ∧
    (∀ (c : Fin 8) (q : BitVec 16), x.link = 2 → Does (.pfcReceive p [(c, q)] []) s fun t => ∃ u : State, t = u.txDrain p.val ∧
      PortOnly s u p.val ∧ u.port p.val = { x with
        cnt := { x.cnt with pfcRx := satAdd 32 x.cnt.pfcRx 1 }
        paused := x.paused.filter (·.1 ≠ c.val) ++ (if q = 0 then [] else [(c.val, s.now + x.pauseNs q.toNat)]) }) ∧
    (∀ (c : Fin 8) (n : Nat), x.link = 2 → 3 ≤ c.val → c.val ≤ 6 → Does (.pfcReceive p [] [(c, n)]) s fun t =>
      t = (State.rxClass { s with ports := setAt s.ports p.val fun _ =>
        { x with cnt := { x.cnt with pfcRx := satAdd 32 x.cnt.pfcRx 1 } } } p.val c.val 0 n).txDrain p.val) ∧
    (∀ c : Fin 8, (∃ e ∈ x.paused, e.1 = c.val ∧ e.2 ≤ s.now) → Does (.pfcPauseExpiry p c) s fun t => ∃ u : State,
      t = u.txDrain p.val ∧ PortOnly s u p.val ∧ u.port p.val = { x with paused := x.paused.filter (·.1 ≠ c.val) }) ∧
    (x.link = 2 → x.lldpDue ≤ s.now → Does (.lldpTransmit p) s fun t =>
      (t.port p.val).lldpDue = s.now + 5000000000 ∧ (∀ j, j ≠ p.val → t.port j = s.port j) ∧
      t = { s with ports := t.ports, txWait := t.txWait, sent := t.sent, freeIx := t.freeIx } ∧
      (x.direct = false → (∀ w ∈ s.txWait, w.1 ≠ p.val) → x.paused = [] →
        t.sent = s.sent ++ [.frame p.val 4 [] (s.lldpTlv p.val)])) ∧
    (∀ len, x.link = 2 → Does (.lldpReceive p none len) s fun t => PortOnly s t p.val ∧
      t.port p.val = { ((s.rxCount p.val len).port p.val) with nbr := none }) ∧
    (∀ (b : List Byte) len, x.link = 2 → Does (.lldpReceive p (some b) len) s fun t => PortOnly s t p.val ∧
      t.port p.val = { ((s.rxCount p.val len).port p.val) with
        nbr := some { device := field b 0 3 % 2 ^ 18, numbered := bit (field b 0 3) 18, epoch := field b 3 1,
                      port := field b 4 1, caps := field b 5 1, at_ := s.now } }) ∧
    (∀ b, x.nbr = some b → b.at_ + 20000000000 ≤ s.now → Does (.lldpNeighborExpiry p) s fun t => PortOnly s t p.val ∧
      t.port p.val = { x with nbr := none })

/-- R528, R539 to R550, R559: links. A bring-up tries the first lane set offered; one that trains is UP on its set, in direct
mode where both ends want it and the far end is near; a set that fails gives way to the next, four passes in all, and then the
port has failed. Loss of lock retrains the link; a lane above the symbol error limit is retired and the link comes down; the
eleventh uncorrectable codeword in 1 s retrains. In direct mode a replay sends again from a number on, and an acknowledgement
frees what it covers. What it says of a point that the spec leaves open is the model's choice: log 76. -/
def Obligations.PortLinks : Prop :=
  ∀ (p : PortIx) (s : State), s.ports.length = 18 →
    let x := s.port p.val
    (∀ sh2 l, x.link = 0 → x.trying = none → s.boot.rails = true → bit s.pwr.force 4 = false →
      (s.boot.bootSel = 2 → p.val < 2) →
      let y := { x with link := 1, typeNow := x.cfg.type, directEn := decide (x.cfg.direct = 1) && !x.fell, peerSh2 := sh2
                        setIx := 0, passes := 0, failed := [] }
      ((s.onPort p.val fun _ => y).laneSets p.val)[0]? = some l →
      Does (.linkBringUp p sh2) s fun t => PortOnly s t p.val ∧ t.port p.val = { y with trying := some l }) ∧
    (∀ sh2 l, x.link = 1 → x.trying = none → s.boot.rails = true → bit s.pwr.force 4 = false →
      (s.boot.bootSel = 2 → p.val < 2) → (s.laneSets p.val)[x.setIx]? = some l →
      Does (.linkBringUp p sh2) s fun t => PortOnly s t p.val ∧ t.port p.val = { x with trying := some l }) ∧
    (∀ sh2, x.link = 1 → x.trying = none → s.boot.rails = true → bit s.pwr.force 4 = false →
      (s.boot.bootSel = 2 → p.val < 2) → (s.laneSets p.val)[x.setIx]? = none →
      exec (.linkBringUp p sh2) s = .next (s.portFailed p.val)) ∧
    (∀ delay l, x.trying = some l → x.retraining = true ∨ x.failed = [] → Does (.linkTrained p delay) s fun t =>
      let y := t.port p.val
      y.link = 2 ∧ y.inUse = l ∧ y.trying = none ∧ y.retraining = false ∧ y.direct = (x.directWanted && decide (delay ≤ 250)) ∧
      t.flash = s.flash ∧ (∀ j, (t.port j).link = if j = p.val then 2 else (s.port j).link)) ∧
    (∀ l, x.trying = some l → x.retraining = false →
      let y := { x with trying := none, failed := x.failed.filter (· ≠ l) ++ [l], setIx := x.setIx + 1 }
      let n := (s.laneSets p.val).length
      (x.setIx + 1 < n → Does (.linkTrainFail p) s fun t => PortOnly s t p.val ∧ t.port p.val = y) ∧
      (n ≤ x.setIx + 1 → x.passes < 3 → Does (.linkTrainFail p) s fun t => PortOnly s t p.val ∧
        t.port p.val = { y with setIx := 0, passes := x.passes + 1 }) ∧
      (n ≤ x.setIx + 1 → 3 ≤ x.passes → exec (.linkTrainFail p) s = .next ((s.onPort p.val fun _ => y).portFailed p.val))) ∧
    (x.trying ≠ none → x.retraining = true → exec (.linkTrainFail p) s = .next (s.linkDown p.val)) ∧
    (∀ l : Fin 4, x.link = 2 → l.val ∈ x.inUse → (x.retrainTimes.filter fun t => s.now < t + 60000000000).length < 3 →
      Does (.laneLossOfLock p l) s fun t =>
        let y := t.port p.val
        y.link = 1 ∧ y.trying = some x.inUse ∧ y.retraining = true ∧ y.retrains = satAdd 16 x.retrains 1 ∧
        y.lanes = setAt x.lanes l.val (fun e => { e with lockLoss := satAdd 16 e.lockLoss 1 }) ∧
        (∀ w ∈ t.txWait, w.1 ≠ p.val) ∧ t = { s with ports := t.ports, txWait := t.txWait }) ∧
    (∀ (l : Fin 4) errs symbols words, x.link = 2 → x.direct = false → l.val ∈ x.inUse →
      (1000 * errs ≤ symbols → Does (.laneSerWindow p l errs symbols words) s fun t => PortOnly s t p.val ∧
        t.port p.val = { x with lanes := setAt x.lanes l.val (fun e => { e with symErr := satAdd 32 e.symErr errs })
                                cnt := { x.cnt with fecCorrected := satAdd 32 x.cnt.fecCorrected words } }) ∧
      (symbols < 1000 * errs → bit (Tbl.get 0 s.flash.lanes p.val) l.val = false →
        Does (.laneSerWindow p l errs symbols words) s fun t => bit (Tbl.get 0 t.flash.lanes p.val) l.val = true ∧
          (t.port p.val).link = 0 ∧ ∀ j, j ≠ p.val → Tbl.get 0 t.flash.lanes j = Tbl.get 0 s.flash.lanes j)) ∧
    (∀ l : Fin 4, x.link = 2 → x.direct = false →
      let ts := (x.uncorrTimes.filter fun t => s.now < t + 1000000000) ++ [s.now]
      let y := { x with uncorrTimes := ts, cnt := { x.cnt with fecUncorr := satAdd 32 x.cnt.fecUncorr 1 } }
      (ts.length ≤ 10 → Does (.uncorrectableCodeword p l) s fun t => PortOnly s t p.val ∧ t.port p.val = y) ∧
      (10 < ts.length → exec (.uncorrectableCodeword p l) s = .next ((s.onPort p.val fun _ => y).retrain p.val (some l.val)))) ∧
    (∀ seq : Fin 4096, x.link = 2 → x.direct = true → (∃ u ∈ x.unacked, u.1 = seq.val) →
      let keep := x.unacked.takeWhile fun u => u.1 ≠ seq.val
      let again := (x.unacked.drop keep.length).map fun u => (u.1, u.2.1, u.2.2 + 1)
      let rs := (x.replayTimes.filter fun t => s.now < t + 1000000000) ++ List.replicate again.length s.now
      1000000 * rs.length ≤ (x.frameTimes.filter fun t => s.now < t + 1000000000).length → (∀ u ∈ again, u.2.2 < 8) →
      Does (.directReplay p seq) s fun t => PortOnly s t p.val ∧ (t.port p.val).unacked = keep ++ again ∧
        (t.port p.val).cnt.replays = satAdd 32 x.cnt.replays again.length ∧ (t.port p.val).direct = true) ∧
    ∀ seq : Fin 4096, x.link = 2 → x.direct = true → (∃ u ∈ x.unacked, u.1 = seq.val) →
      Does (.directModeAck p seq) s fun t => ∃ u : State, t = u.txDrain p.val ∧ PortOnly s u p.val ∧
        u.port p.val = { x with unacked := (x.unacked.dropWhile fun u => u.1 ≠ seq.val).drop 1 }

/-- R705, R714, R718 to R725: time. A pulse's edge is captured and, under source 2 or 3, disciplines the counter, but for one
more than 1 µs off while LOCKED, which is counted; 3 s without the source is HOLDOVER, with the last rate correction; GP7 rises
at the second and falls 100 ms later; the loss of REFCLK takes every port down and forces P5; TIMECLK's loss is told; a Sync
heard by a slave gives an offset, a Delay_Req to a master is answered, and a master's timers send Sync and Announce. What it
says of a point that the spec leaves open is the model's choice: log 33, 34. -/
def Obligations.SharedTime : Prop :=
  (∀ (s : State) (sub : Nat), let c := s.now + sub % 5
    let pps := s.time.src = 2 ∨ s.time.src = 3
    (pps → s.time.st = 2 → 1000000 < (ppsOffset c).natAbs → Does (.ppsInEdge sub) s fun t =>
      t = { s with time := { s.time with capture := c, rejects := satAdd 16 s.time.rejects 1 } }) ∧
    (¬ pps → Does (.ppsInEdge sub) s fun t => t = { s with time := { s.time with capture := c, lastPps := some s.time.ns } }) ∧
    (pps → s.time.st ≠ 2 ∨ (ppsOffset c).natAbs ≤ 1000000 → exec (.ppsInEdge sub) s =
      .next (State.servo { s with time := { s.time with capture := c, lastPps := some s.time.ns } } (ppsOffset c))) ∧
    (pps → s.time.st ≠ 2 → s.hal.job ≠ 2 → 1000000 < (ppsOffset c).natAbs → Does (.ppsInEdge sub) s fun t =>
      t.time.steps = satAdd 16 s.time.steps 1 ∧
      t.time.ns = (((s.time.ns : Int) - ppsOffset c) % (2 ^ 64 : Nat)).toNat ∧ t.time.st = 1)) ∧
  (∀ s : State, s.time.src ≠ 0 → s.time.st = 1 ∨ s.time.st = 2 → s.time.heard + 3000000000 ≤ s.time.ns →
    Does .timeSourceSilence s fun t =>
      t.time = { s.time with st := 3, good := 0, holdovers := satAdd 16 s.time.holdovers 1 } ∧
      HalterOnly { s with time := t.time } t) ∧
  (∀ s : State, s.ppsOwns = true → (s.now + 4) % 1000000000 ≤ 8 → exec .ppsOutEdge s = .next { s with
    time := { s.time with ppsOut := some s.now }
    hal := { s.hal with gpOut := s.hal.gpOut ||| 128, gpLevel := s.hal.gpLevel ||| 128 } }) ∧
  (∀ (s : State) (a : Nat), s.ppsOwns = true → s.time.ppsOut = some a → a + 100000000 ≤ s.now →
    exec .ppsOutFall s = .next { s with
      time := { s.time with ppsOut := none }, hal := { s.hal with gpLevel := s.hal.gpLevel &&& 0x7F } }) ∧
  (∀ s : State, s.ports.length = 18 → s.boot.rails = true → bit s.pwr.force 4 = false → Does .refclkLoss s fun t =>
    t.time.refclk = false ∧ bit t.pwr.force 4 = true ∧ ∀ j, j < 18 → (t.port j).link = if (s.port j).link = 3 then 3 else 0) ∧
  (∀ s : State, exec .refclkReturn s = .next { s with time := { s.time with refclk := true } }) ∧
  (∀ s : State, s.time.timeclkOk = true → Does .timeclkLoss s fun t =>
    t.time = { s.time with timeclkOk := false } ∧ HalterOnly { s with time := t.time } t) ∧
  (∀ s : State, s.time.timeclkEn = true → s.time.timeclkOk = false → exec .timeclkReturn s = .next { s with
    time := { s.time with timeclkOk := true, timeclkSince := s.time.ns - 1000000000 } }) ∧
  ∀ (p : PortIx) (s : State), s.ports.length = 18 → (s.port p.val).link = 2 → bit s.time.ptpPorts p.val = true →
    let x := (s.port p.val).ptp
    let on (d : Nat) := d = s.time.ptpDomain
    (∀ len, let s1 := s.rxCount p.val len
      (∀ m d sub u, ¬ on d → exec (.ptpEventMessage p m d sub u len) s = .next s1) ∧
      (∀ q o d sub u, on d → x.st = 2 → exec (.ptpEventMessage p (.sync q o false) d sub u len) s =
        .next (s1.syncDone p.val o (s.now + sub % 5 : Nat))) ∧
      (∀ q o d sub u, on d → x.st = 2 → Does (.ptpEventMessage p (.sync q o true) d sub u len) s fun t => PortOnly s t p.val ∧
        t.port p.val = { (s1.port p.val) with ptp := { x with sync := some (q, s.now + sub % 5) } }) ∧
      (∀ q d sub u, on d → x.st = 1 → s.time.ptpDelay = 0 → exec (.ptpEventMessage p (.delayReq q) d sub u len) s =
        .next (s1.sendPtp p.val 9 q (s.now + sub % 5) (u.getD 0)))) ∧
    (x.st = 1 → exec (.ptpIntervalTimer p .sync) s = .next ((s.onPort p.val fun y =>
      { y with ptp := { y.ptp with syncSeq := (x.syncSeq + 1) % 65536 } }).sendPtp p.val 0 x.syncSeq s.now 0)) ∧
    (x.st = 1 → exec (.ptpIntervalTimer p .announce) s = .next (s.sendPtp p.val 0xB 0 s.now 0))

namespace Sys2Proof.Machine

/-- The command that a row of Halter's sessions carries (R588): its header, its code, the bits of the job states in which it is
accepted, and whether an OBSERVE session may send it. -/
def commandOf : Instr → Option (Hdr × Nat × Nat × Bool)
  | .nop h => some (h, 0x001, 15, true)
  | .sessionClose h => some (h, 0x002, 15, true)
  | .eventSubscribe h _ _ => some (h, 0x003, 15, true)
  | .modeSet h _ _ => some (h, 0x004, 15, false)
  | .repairDecide h _ => some (h, 0x005, 15, false)
  | .tierMove h _ _ => some (h, 0x006, 14, false)
  | .spareDecide h _ => some (h, 0x007, 14, false)
  | .splitDecide h _ => some (h, 0x008, 15, false)
  | .routeSet h _ _ => some (h, 0x009, 15, false)
  | .leadDecide h _ => some (h, 0x00A, 14, false)
  | .logDrainDecide h _ => some (h, 0x00B, 15, false)
  | .resAcquire h _ _ => some (h, 0x00C, 15, false)
  | .resRelease h _ => some (h, 0x00D, 15, false)
  | .resQuery h => some (h, 0x00E, 15, true)
  | .gpioSet h _ => some (h, 0x00F, 15, false)
  | .gpioGet h _ => some (h, 0x010, 15, true)
  | .timerSet h _ _ => some (h, 0x011, 15, false)
  | .capSet h _ => some (h, 0x012, 15, false)
  | .siteBudget h _ => some (h, 0x013, 15, false)
  | .funcReinit h _ => some (h, 0x014, 15, false)
  | .devReset h _ => some (h, 0x015, 15, false)
  | .trayPowerCycle h => some (h, 0x016, 15, false)
  | .memRead h _ _ _ => some (h, 0x101, 15, true)
  | .memWrite h _ _ => some (h, 0x102, 15, false)
  | .ctlRead h _ _ => some (h, 0x103, 15, true)
  | .programLoad h _ _ _ => some (h, 0x104, 9, false)
  | .tandemSet h _ _ _ _ => some (h, 0x105, 1, false)
  | .tagTableLoad h _ => some (h, 0x106, 1, false)
  | .pageTableLoad h _ _ _ _ _ _ => some (h, 0x107, 1, false)
  | .pageSet h _ _ => some (h, 0x108, 15, false)
  | .jobStart h => some (h, 0x109, 2, false)
  | .jobStop h => some (h, 0x10A, 4, false)
  | .jobRetry h => some (h, 0x10B, 8, false)
  | .jobUnload h => some (h, 0x10C, 10, false)
  | .tierPin h _ _ => some (h, 0x10D, 15, false)
  | .tierFlush h _ _ => some (h, 0x10E, 14, false)
  | .tierBuddy h _ _ => some (h, 0x10F, 14, false)
  | .snapshotShip h _ _ _ _ _ => some (h, 0x110, 4, false)
  | .paramSet h _ => some (h, 0x111, 15, false)
  | .logRead h _ => some (h, 0x201, 15, true)
  | .logAck h _ => some (h, 0x202, 15, false)
  | .info h => some (h, 0x203, 15, true)
  | .periscopeSet h _ => some (h, 0x204, 15, false)
  | .loupeReport h _ => some (h, 0x205, 15, true)
  | .quote h _ => some (h, 0x206, 15, true)
  | .fwStage h _ => some (h, 0x207, 15, false)
  | .fwActivate h _ _ => some (h, 0x208, 1, false)
  | .devNumberSet h _ _ => some (h, 0x301, 1, false)
  | .teamLoad h _ _ => some (h, 0x302, 1, false)
  | .standbySet h _ => some (h, 0x303, 14, false)
  | .regionTableLoad h _ _ => some (h, 0x304, 15, false)
  | .regionSet h _ _ => some (h, 0x305, 15, false)
  | .pathTableLoad h _ _ _ => some (h, 0x306, 15, false)
  | .groupLoad h _ _ _ _ _ => some (h, 0x307, 15, false)
  | .portSet h _ => some (h, 0x308, 15, false)
  | .portReset h _ => some (h, 0x309, 15, false)
  | .halterUnknownCode h code => if knownCode code.toNat then none else some (h, code.toNat, 15, true)
  | _ => none

end Sys2Proof.Machine

/-- R567, R572, R573, R575 to R577, R588: acceptance, for every command of a session. One of a session that is not open is
discarded and counted; a kept reply is sent again; a number 1,024 below the highest is REPLAYED; a full mailbox is BUSY, with a
retry-after time of 1 us to 1 s; the wrong mailbox INVALID; a role that may not DENIED; a job state that may not STATE. None of
them changes anything but Halter's state, the ports and what is sent. What it says of a point that the spec leaves open is the
model's choice: log 54. -/
def Obligations.HalterAcceptance : Prop :=
  ∀ (c : Instr) (h : Hdr) (code modes : Nat) (observe : Bool), commandOf c = some (h, code, modes, observe) → ∀ s : State,
    let used := s.mailboxUsed (code / 256)
    let cmd := hdrCmd h code s.now
    (s.session h.session = none →
      exec c s = .next { s.rxCount h.port h.len with hal := { s.hal with authFails := satAdd 16 s.hal.authFails 1 } }) ∧
    ∀ x, s.session h.session = some x →
      (∀ r, (x.replies.find? fun r => r.seq == h.seq) = some r → Does c s fun t => HalterOnly s t ∧
        t = (s.heardFrom h).reject h r.code r.status r.payload) ∧
      ((x.replies.find? fun r => r.seq == h.seq) = none →
        (h.seq + 1024 ≤ x.high → Does c s fun t => HalterOnly s t ∧ t = (s.heardFrom h).reject h code 9) ∧
        (x.high < h.seq + 1024 → h.mailbox = code / 256 → 64 ≤ used → Does c s fun t => HalterOnly s t ∧
          ∃ us, 1 ≤ us ∧ us ≤ 1000000 ∧
            t = State.reject { s.heardFrom h with freeIx := s.freeIx + 1 } h code 5 (toBytes 4 us)) ∧
        (x.high < h.seq + 1024 → h.mailbox ≠ code / 256 → Does c s fun t => HalterOnly s t ∧ t = (s.accept h).answer cmd 2) ∧
        (x.high < h.seq + 1024 → h.mailbox = code / 256 → used < 64 → observe = false → x.control = false →
          Does c s fun t => HalterOnly s t ∧ t = (s.accept h).answer cmd 8) ∧
        (x.high < h.seq + 1024 → h.mailbox = code / 256 → used < 64 → observe = true ∨ x.control = true →
          bit modes s.hal.job = false → Does c s fun t => HalterOnly s t ∧ t = (s.accept h).answer cmd 7))

/-- R562, R566, R568 to R570, R572, R586 to R589, R597 to R602, R786 to R793: sessions. A HELLO opens an exchange with the next
session number; its OFFER goes out when it is signed; a CONFIRM whose checks pass opens the session, and one that fails is
answered with the status of its failure and counted; an exchange ends 5 s after its OFFER. NOP answers, a close closes after
its reply, a subscription sets what is sent; an idle session closes, and a CONTROL session's FATAL and DECISION events are kept
for the next. Events are freed by their acknowledgement and sent again until then. What it says of a point that the spec leaves
open is the model's choice: log 6, 79. -/
def Obligations.HalterSessions : Prop :=
  (∀ (port addr exch flags : Nat) (body : List Byte) (s : State), s.boot.stage = .ready → body.length = 1216 → exch ≠ 0 →
    flags < 4 → port < 2 → (s.boot.exchanges.find? fun x => x.num == exch) = none →
    (s.boot.exchanges.length < 2 → Does (.hello port addr exch flags body) s fun t => ∃ x : Exchange,
      x.num = exch ∧ x.flags = flags ∧ x.hello = body ∧ x.session = s.hal.nextSession ∧ x.offered = none ∧
      slice x.offer 32 4 = toBytes 4 s.hal.nextSession ∧
      t = { s.rxCount port (openLen addr body) with
                   freeIx := t.freeIx, hal := { s.hal with nextSession := s.hal.nextSession + 1 }
                   boot := { s.boot with exchanges := s.boot.exchanges ++ [x], signing := s.boot.signing ++ [(0, exch)] } }) ∧
    (2 ≤ s.boot.exchanges.length → exec (.hello port addr exch flags body) s =
      .next ((s.rxCount port (openLen addr body)).sendOpen port addr exch 4 flags ([5, 0, 0, 0] ++ toBytes 4 1000000)))) ∧
  (∀ (s : State) (n : Nat) (l : List (Nat × Nat)) (x : Exchange), s.boot.signing = (0, n) :: l →
    (s.boot.exchanges.find? fun x => x.num == n) = some x →
    let sig := slice (Config.idSign (sha256 (x.hello ++ x.offer))) 0 16224
    Does .offerSigned s fun t => t.boot.signing = l ∧ (∀ y ∈ t.boot.exchanges, y.num = n → y.offered = some s.now) ∧
      SendsOnly { s with boot := t.boot } t ∧
      t = State.sendOpen { s with boot := t.boot } x.port x.addr n 2 x.flags (x.offer ++ sig)) ∧
  (∀ (port addr exch flags : Nat) (body : List Byte) (s : State) (x : Exchange),
    (s.boot.exchanges.find? fun x => x.num == exch && x.offered.isSome) = some x → flags < 4 →
    body.length = (if bit flags 1 then 128 else 64) →
    let k := x.keys
    let th2 := sha256 (x.hello ++ x.offer)
    let owner := match s.flash.owner with | some o => if bit flags 0 then o.1 else o.2 | none => []
    let st := s.finishStatus (bit flags 0) (bit flags 1) (body.take 32 == hmac k.2.2.1 th2)
      (slice body 32 32 == hmac owner th2) ((slice body 32 32).all (· == 0))
    let s1 := (s.rxCount port (openLen addr body)).onBoot fun b => { b with exchanges := b.exchanges.filter (·.num ≠ exch) }
    (st ≠ 0 → exec (.confirm port addr exch flags body) s =
      .next (s1.authFail.sendOpen port addr exch 4 flags ([BitVec.ofNat 8 st, 0, 0, 0] ++ List.replicate 32 0))) ∧
    (st = 0 → bit flags 1 = false → exec (.confirm port addr exch flags body) s =
      .next ((s1.sendOpen port addr exch 4 flags ([0, 0, 0, 0] ++ hmac k.2.2.1 (th2 ++ [1]))).openSession x (bit flags 0)
        port addr)) ∧
    (st = 0 → bit flags 1 = true →
      let un (i : Nat) : Bytes := List.zipWith (· ^^^ ·) (slice body (64 + i) 32) (slice k.2.2.2 i 32)
      Does (.confirm port addr exch flags body) s fun t => t.flash = { s.flash with owner := some (un 0, un 32) })) ∧
  (∀ (s : State) (exch : Nat), Does (.exchangeTimeout exch) s fun t =>
    t = { s with boot := { s.boot with exchanges := t.boot.exchanges } } ∧
    ∀ x, x ∈ t.boot.exchanges ↔ x ∈ s.boot.exchanges ∧ ¬ (x.num = exch ∧ ∃ a, x.offered = some a ∧ a + 5000000000 ≤ s.now)) ∧
  (∀ (h : Hdr) (s : State),
    (s.session h.session = none → exec (.eventAck h) s = .next (s.rxCount h.port h.len).authFail) ∧
    (∀ x, s.session h.session = some x →
      let seqs := (x.events.filter fun e => decide (e.num ≤ h.seq)).flatMap fun e => e.ev.recs.map (·.seq)
      let s1 := (s.heardFrom h).onSession h.session fun x => { x with events := x.events.filter fun e => h.seq < e.num }
      exec (.eventAck h) s = .next (State.refill
        { s1 with err := { s.err with ring := s.err.ring.filter fun r => !seqs.contains r.seq } } h.session)) ∧
    (Accepted s h 1 15 true → exec (.nop h) s = .next ((s.accept h).answer (hdrCmd h 1 s.now) 0)) ∧
    (Accepted s h 2 15 true → Does (.sessionClose h) s fun t => t.session h.session = none ∧
      t = ((s.accept h).answer (hdrCmd h 2 s.now) 0).closeSession h.session) ∧
    (∀ w i, Accepted s h 3 15 true → exec (.eventSubscribe h w i) s = .next
      (((s.accept h).onSession h.session fun x => { x with warn := w, info := i }).answer (hdrCmd h 3 s.now) 0)) ∧
    (∀ code : BitVec 16, knownCode code.toNat = false → Accepted s h code.toNat 15 true →
      exec (.halterUnknownCode h code) s = .next ((s.accept h).answer (hdrCmd h code.toNat s.now) 0xA))) ∧
  (∀ (s : State) (n num : Nat) (x : Session) (e : QEvent), s.session n = some x →
    (x.events.find? fun e => e.num == num) = some e → e.sentAt + e.wait ≤ s.now →
    exec (.eventRetransmit n num) s = .next ((s.onSession n fun x => { x with events := x.events.map fun q =>
      if q.num = num then { q with sentAt := s.now, wait := min 1000000000 (2 * q.wait) } else q }).sendMsg
        (.event x.port x.addr x.num num e.ev true))) ∧
  (∀ (s : State) (n : Nat) (x : Session), s.session n = some x → x.lastMsg + 1000000000 * s.hal.idleS ≤ s.now →
    Does (.sessionIdle n) s fun t => t.session n = none ∧
      t.hal = { s.hal with sessions := s.hal.sessions.filter (·.num ≠ n), heldEvents := t.hal.heldEvents } ∧
      t = { s with hal := t.hal } ∧
      (x.control = true → ∀ e ∈ x.events, evClass e.ev.code ≤ 1 → e.ev ∈ t.hal.heldEvents) ∧
      (x.control = false → t.hal.heldEvents = s.hal.heldEvents)) ∧
  (∀ (s : State) (port len : Nat), exec (.halterMessageDiscard port len) s =
    .next { s.rxCount port len with hal := { s.hal with authFails := satAdd 16 s.hal.authFails 1 } }) ∧
  ∀ s : State, s.hal.pull = true → 3072 < s.err.ring.length → s.err.lastRead + 1000000000 ≤ s.now →
    (∀ d ∈ s.hal.decisions, d.req.func ≠ 5) → Does .logDrainRequest s fun t => HalterOnly s t ∧
      t.hal.decisions = s.hal.decisions ++ [{ num := s.hal.nextDecision, req := .logDrain, created := s.now }]

/-- R590 to R597, R409, R411, R440, R485, R639, R642, R751: modes and decisions. MODE_SET sets the mode bit of its function
alone and replies with the old one. A decision that names a request still pending takes the host's choice; one that names none
is EXPIRED; at a request's deadline the hardware's action is taken and told. What it says of a point that the spec leaves open
is the model's choice: log 35, 55. -/
def Obligations.HalterDecisions : Prop :=
  ∀ (h : Hdr) (s : State),
    let A := s.accept h
    (∀ f, Accepted s h 4 15 false → f < 7 → f ≠ 5 →
      let ok (b : Bool) (s1 : State) : Prop := exec (.modeSet h f b) s =
        .next ((s1.extend 7 4 (sha256 [BitVec.ofNat 8 f, BitVec.ofNat 8 (b2n b)])).answer (hdrCmd h 4 s.now) 0
          [BitVec.ofNat 8 (b2n (bit s.hal.mode f))])
      ok true { A with hal := { A.hal with mode := s.hal.mode ||| 2 ^ f } } ∧
      ((∀ d ∈ s.hal.decisions, d.req.func ≠ f) →
        ok false { A with hal := { A.hal with mode := if bit s.hal.mode f then s.hal.mode - 2 ^ f else s.hal.mode } })) ∧
    (Accepted s h 4 15 false → Does (.modeSet h 5 true) s fun t => t.hal.pull = true ∧ bit t.hal.mode 5 = true) ∧
    (∀ f b, Accepted s h 4 15 false → 7 ≤ f → exec (.modeSet h f b) s = .next (A.answer (hdrCmd h 4 s.now) 2)) ∧
    (∀ d, s.named h.decision = some d →
      let D := A.dropDecision d.num
      let done (code : Nat) (s1 : State) : Host.Outcome State Fault Refusal := .next (s1.answer (hdrCmd h code s.now) 0)
      (Accepted s h 5 15 false → ∀ m off, d.req = .row m off →
        exec (.repairDecide h .shadow) s = done 5 (D.rowDecision m off 0) ∧
        exec (.repairDecide h .retire) s = done 5 (D.rowDecision m off 1) ∧ exec (.repairDecide h .leave) s = done 5 D) ∧
      (Accepted s h 5 15 false → ∀ m, d.req = .channel m →
        exec (.repairDecide h .mapOut) s = done 5 (D.failChannel m) ∧ exec (.repairDecide h .leave) s = done 5 D) ∧
      (Accepted s h 7 14 false → ∀ g k u, d.req = .spare g k →
        exec (.spareDecide h u) s = done 7 (D.slotDecided g k (if u then 2 else 1))) ∧
      (Accepted s h 8 15 false → ∀ (ws : List Nat) (w : List (BitVec 8)), d.req = .split ws → w.length = 16 → (∃ v ∈ w, v ≠ 0) →
        exec (.splitDecide h w) s =
          done 8 (State.allot { D with pwr := { s.pwr with hostWeights := some (w.map (·.toNat)) } } (w.map (·.toNat)) s.pwr.budget)) ∧
      (Accepted s h 9 15 false → h.decision ≠ 0 → ∀ dev p q k s1, d.req = .route dev p q → D.routeTo dev k = some s1 →
        exec (.routeSet h dev k) s = done 9 s1) ∧
      (Accepted s h 0xA 14 false → ∀ old b, d.req = .lead old →
        exec (.leadDecide h b) s = done 0xA (if b then D.takeover else D)) ∧
      (Accepted s h 0xB 15 false → ∀ b, d.req = .logDrain → exec (.logDrainDecide h b) s =
        done 0xB (State.pushLog { D with hal := { D.hal with pull := !b } })) ∧
      (Accepted s h 6 14 false → h.decision ≠ 0 → ∀ (p : BitVec 21) v, d.req = .tier p.toNat v →
        let c := { hdrCmd h 6 s.now with args := [p.toNat, 0] }
        (D.pend c).movePossible p.toNat false = true →
        exec (.tierMove h p false) s = .next ((D.pend c).orderedMove p.toNat false))) ∧
    (s.named h.decision = none →
      (∀ x, Accepted s h 5 15 false → exec (.repairDecide h x) s = .next (A.answer (hdrCmd h 5 s.now) 0xB)) ∧
      (∀ u, Accepted s h 7 14 false → exec (.spareDecide h u) s = .next (A.answer (hdrCmd h 7 s.now) 0xB)) ∧
      (∀ w, Accepted s h 8 15 false → exec (.splitDecide h w) s = .next (A.answer (hdrCmd h 8 s.now) 0xB)) ∧
      (∀ p b, Accepted s h 6 14 false → h.decision ≠ 0 → exec (.tierMove h p b) s = .next (A.answer (hdrCmd h 6 s.now) 0xB))) ∧
    (∀ p, Accepted s h 6 14 false → h.decision = 0 →
      let c := { hdrCmd h 6 s.now with args := [p.toNat, 1] }
      ((A.pend c).movePossible p.toNat true = true →
        exec (.tierMove h p true) s = .next ((A.pend c).orderedMove p.toNat true)) ∧
      ((A.pend c).movePossible p.toNat true = false → exec (.tierMove h p true) s = .next ((A.pend c).finish c 0xC))) ∧
    (∀ num d a, (s.hal.decisions.find? fun d => d.num == num) = some d → deadlineOf d.req.func = some a →
      d.created + a ≤ s.now → exec (.decisionDeadline num) s = .next (((s.dropDecision num).hardware d.req).raise
        { code := 3, payload := [num, d.req.func] }))

/-- R604, R605, R607 to R615, R617, R840 to R842: resources, pins and events. An enable grants its group whole or is refused; a
resource is released by its owner, a share once drained; a pin is driven as the mask says and reads its level; a timer runs to
its expiry. A source asserted is pending once and wakes a core that sleeps; a route moves a pending source with its target; a
core that is idle powers down and wakes on its line. What it says of a point that the spec leaves open is the model's choice:
log 78. -/
def Obligations.HalterResources : Prop :=
  (∀ (h : Hdr) (s : State),
    let A := s.accept h
    let slot := match s.session h.session with | some x => x.slot | none => 0
    (∀ owner res, Accepted s h 0xC 15 false → let r := A.acquire owner.toNat slot res
      exec (.resAcquire h owner res) s = .next (r.2.answer (hdrCmd h 0xC s.now) r.1)) ∧
    (∀ r, Accepted s h 0xC 15 false → r < 8 → (s.res r).owner = 0 → s.heldBy 1 = [] → s.hal.res.length = 20 →
      Does (.resAcquire h 1 [r]) s fun t => HalterOnly s t ∧ (t.res r).owner = 1 ∧ (t.res r).session = slot ∧
        (t.res r).grants = satAdd 16 (s.res r).grants 1 ∧ ∀ q, q ≠ r → t.res q = s.res q) ∧
    (∀ r, Accepted s h 0xD 15 false → r < 16 → (s.res r).owner ≠ 0 →
      ((s.res r).owner = 1 ∨ (s.res r).owner = 2 → (s.res r).session = slot) → s.hal.res.length = 20 →
      Does (.resRelease h r) s fun t => (t.res r).owner = 0 ∧ (∀ q, q ≠ r → t.res q = s.res q) ∧
        (r < 8 → bit t.hal.gpOut r = false) ∧
        (r ≠ 3 ∨ (s.res 3).owner ≠ 0x31 → HalterOnly { s with flash := t.flash } t)) ∧
    (∀ r, Accepted s h 0xD 15 false → 16 ≤ r → r < 20 → (s.res r).owner = 0x20 ∨ (s.res r).owner = 0x21 →
      s.hal.job ≠ 2 ∨ (s.res r).draining = true → s.hal.res.length = 20 → Does (.resRelease h r) s fun t => HalterOnly s t ∧ (t.res r).draining = true ∧
        (t.res r).owner = (s.res r).owner ∧ t.pendingOf 0xD ≠ []) ∧
    (Accepted s h 0xE 15 true → exec (.resQuery h) s =
      .next (A.answer (hdrCmd h 0xE s.now) 0 (s.hal.res.map fun e => BitVec.ofNat 8 e.owner))) ∧
    (∀ pay : List Byte, Accepted s h 0xF 15 false → pay.length = 8 → field pay 3 5 = 0 →
      (∀ r, r < 8 → bit (field pay 0 1) r = true → (s.res r).owner = 1 ∧ (s.res r).session = slot) →
      let m := field pay 0 1
      Does (.gpioSet h pay) s fun t => HalterOnly s t ∧
        t.hal.gpOut = ((s.hal.gpOut &&& (255 ^^^ m)) ||| (field pay 1 1 &&& m)) ∧
        t.hal.gpLevel = ((s.hal.gpLevel &&& (255 ^^^ m)) ||| (field pay 2 1 &&& m))) ∧
    (∀ inputs, Accepted s h 0x10 15 true → exec (.gpioGet h inputs) s = .next (A.answer (hdrCmd h 0x10 s.now) 0
      [BitVec.ofNat 8 ((s.hal.gpLevel &&& s.hal.gpOut) ||| (inputs.toNat &&& (255 ^^^ s.hal.gpOut)))])) ∧
    (∀ k ns, Accepted s h 0x11 15 false → k < 8 → (s.res (8 + k)).owner = 2 → (s.res (8 + k)).session = slot →
      Does (.timerSet h k ns) s fun t => HalterOnly s t ∧
        Tbl.get 0 t.hal.timers k = (if ns = 0 then 0 else s.now + ns + 1) ∧
        ∀ j, j ≠ k → Tbl.get 0 t.hal.timers j = Tbl.get 0 s.hal.timers j)) ∧
  (∀ (r : Fin 20) (s : State), (s.res r.val).draining = true → s.hal.res.length = 20 →
    Does (.resReleaseDone r) s fun t => (t.res r.val).owner = 0 ∧ (t.res r.val).draining = false ∧
      (∀ q, q ≠ r.val → t.res q = s.res q) ∧ ∀ c ∈ t.pendingOf 0xD, c.args ≠ [r.val]) ∧
  (∀ (i : Fin 512) (s : State), s.hal.evc.length = 512 → Does (.evcSourceAssert (.shared i)) s fun t =>
    let d : EvcRoute := { target := 0, enable := false }
    nth t.hal.evc i.val d = { nth s.hal.evc i.val d with pending := true } ∧
    (∀ j, j ≠ i.val → nth t.hal.evc j d = nth s.hal.evc j d) ∧
    t = { s with hal := { s.hal with evc := t.hal.evc, cores := t.hal.cores } }) ∧
  (∀ (n : Fin 512) (v : BitVec 32) (s : State), s.hal.evc.length = 512 →
    let d : EvcRoute := { target := 0, enable := false }
    (bits v.toNat 2 0 < 5 → bits v.toNat 31 5 = 0 → Does (.evcRouteWrite n v) s fun t =>
      nth t.hal.evc n.val d = { target := bits v.toNat 2 0, enable := bit v.toNat 3
                                pending := (nth s.hal.evc n.val d).pending && !bit v.toNat 4 } ∧
      (∀ j, j ≠ n.val → nth t.hal.evc j d = nth s.hal.evc j d) ∧
      t = { s with hal := { s.hal with evc := t.hal.evc, cores := t.hal.cores } }) ∧
    (5 ≤ bits v.toNat 2 0 ∨ bits v.toNat 31 5 ≠ 0 → exec (.evcRouteWrite n v) s = .next s)) ∧
  ∀ (k : Fin 5) (s : State), s.hal.cores.length = 5 →
    (k.val ≠ 0 → k.val ≠ 4 → (s.core k.val).st ≠ 2 → s.lineUp k.val = false → bit s.flash.cores k.val = true →
      Does (.corePowerDown k) s fun t => t = { s with hal := { s.hal with cores := t.hal.cores } } ∧
        t.core k.val = { s.core k.val with st := 2 } ∧ ∀ j, j ≠ k.val → t.core j = s.core j) ∧
    ((s.core k.val).st = 2 → s.lineUp k.val = true →
      (Does (.coreWake k true) s fun t => t = { s with hal := { s.hal with cores := t.hal.cores } } ∧
        t.core k.val = { s.core k.val with st := 0 } ∧ ∀ j, j ≠ k.val → t.core j = s.core j) ∧
      Does (.coreWake k false) s fun t => t.core k.val = { s.core k.val with st := 0, starts := (s.core k.val).starts + 1 } ∧
        t = { s with hal := { s.hal with cores := t.hal.cores }, err := t.err, freeIx := t.freeIx })

/-- R54, R241, R242, R364, R367, R370, R579 to R581: the job. A load is LOADED when its checks and copies are done; the top
lead starts, stops and retries the job, every device following its orders, and a lower lead passing them on; an unload leaves
NONE, with the Tandem area kept. TANDEM_SET lays two views that do not meet. A snapshot is shipped of a range of the active
view. What it says of a point that the spec leaves open is the model's choice: log 49, 50. -/
def Obligations.HalterJob : Prop :=
  ∀ (h : Hdr) (s : State),
    let A := s.accept h
    (∀ (l : Load) (tiles : List TileIx) mb b s1, Accepted s h 0x104 9 false → 1 ≤ mb → mb ≤ 254 → tiles ≠ [] →
      (tiles.map (·.val)).Nodup → (∀ k ∈ tiles, (s.slotOf k.val).isSome = true) →
      A.loadData l.src l.len l.check = (some b, s1) → exec (.programLoad h l tiles mb) s =
        .next (s1.pend { hdrCmd h 0x104 s.now with args := mb :: tiles.map (·.val), data := b })) ∧
    (∀ (c : PendCmd) q mb ts, s.pendingOf 0x104 = c :: q → c.args = mb :: ts → Does .programLoadDone s fun t =>
      t.hal.job = 1 ∧ t.step.tileSet = ts ∧ t.step.mbCount = mb ∧ t.step.program = c.data ∧ t.step.st = 0 ∧
      t.step.viewA = s.step.viewA ∧ t.step.viewU = s.step.viewU ∧ t.step.enabled = s.step.enabled ∧
      t.step.active = s.step.active ∧ t.step.committed = (if s.hal.job = 0 then 0 else s.step.committed) ∧
      t = State.finish ((s.loadJob c.data mb ts).extend 4 0x104 (sha256 c.data)) c 0) ∧
    (∀ pay a u n, Accepted s h 0x105 1 false → 1 ≤ n → n ≤ 4194304 → s.viewOk a n = true → s.viewOk u n = true →
      overlaps a (65536 * n) u (65536 * n) = false → exec (.tandemSet h pay a u n) s = .next ((State.extend { A with
        step := { s.step with viewA := a, viewU := u, units := n, enabled := true, active := [], written := [] } } 5 0x105
          (sha256 pay)).answer (hdrCmd h 0x105 s.now) 0)) ∧
    (Accepted s h 0x109 2 false → (s.topLead = true ∧ s.boot.bootSel ≠ 2 → exec (.jobStart h) s =
        .next (((A.openLedger 1 s.stepNo 0 0).toMembers 12 [0]).answer (hdrCmd h 0x109 s.now) 0)) ∧
      (s.topLead = false ∨ s.boot.bootSel = 2 → exec (.jobStart h) s = .next (A.answer (hdrCmd h 0x109 s.now) 7))) ∧
    (Accepted s h 0x10A 4 false → s.topLead = true → Does (.jobStop h) s fun t => t.red.stopping = true ∧
      t.pendingOf 0x10A = s.pendingOf 0x10A ++ [hdrCmd h 0x10A s.now] ∧ t.hal.job = s.hal.job) ∧
    (Accepted s h 0x10B 8 false → s.topLead = true → s.red.attempt < 255 →
      ((∃ o, s.red.deciding = some o ∧ o.commit = true) → exec (.jobRetry h) s = .next (A.answer (hdrCmd h 0x10B s.now) 7)) ∧
      ((∃ o, s.red.deciding = some o ∧ o.commit = false) → exec (.jobRetry h) s = .next ((State.toMembers
        { A with red := { s.red with repeatsRow := 0 } } 12 [2]).answer (hdrCmd h 0x10B s.now) 0))) ∧
    (Accepted s h 0x10B 8 false → s.topLead = true → s.red.attempt < 255 → s.red.deciding = none → Does (.jobRetry h) s fun t =>
      t = (State.leadDecide (State.toMembers { A with red := { s.red with repeatsRow := 0 } } 12 [2])
        { commit := false, step := s.red.step, attempt := s.red.attempt + 1, cause := s.red.cause
          patches := s.red.patches }).answer (hdrCmd h 0x10B s.now) 0) ∧
    (Accepted s h 0x10C 10 false → Does (.jobUnload h) s fun t => t.hal.job = 0 ∧ t.step.program = [] ∧
      t.step.tileSet = [] ∧ t.red.ledger = 0 ∧ t.step.viewA = s.step.viewA ∧ t.step.viewU = s.step.viewU ∧
      t.step.active = s.step.active ∧ ∀ k, k < 192 → (t.tile k).pn.main = [] ∧ (t.tile k).mxq = []) ∧
    (∀ (p : Pkt) (o : JobOrder),
      let q := ledPkt p 12 [jobOrderNum o]
      let u := s.heard q
      s.Takes q → s.refuses p.src = false →
      (s.fromAbove p.src = true → exec (.jobOrderReceived p o) s = .next (u.relayOrder o)) ∧
      (s.fromAbove p.src = false →
        (o = .start → s.hal.job = 1 → Does (.jobOrderReceived p o) s fun t => t.hal.job = 2 ∧ t.step.st = 1 ∧
          t.step.attempt = 0 ∧ t.step.written = []) ∧
        (o = .stop → s.hal.job = 2 → exec (.jobOrderReceived p o) s = .next { u with step := { u.step with stopping := true } }) ∧
        (o = .retry → s.hal.job = 3 → Does (.jobOrderReceived p o) s fun t => t.hal.job = 2) ∧
        (o = .failed → s.hal.job = 2 → Does (.jobOrderReceived p o) s fun t =>
          t = { u.follow 5 with hal := { u.hal with job := 3, jobSince := s.now } }))) ∧
    (∀ off len dst key at_, Accepted s h 0x110 4 false → s.step.ship = none → len ≠ 0 → s.step.enabled = true →
      s.step.viewA ≤ off → off + len ≤ s.step.viewA + 65536 * s.step.units → addrScope dst = 1 → key < 2 ^ 32 →
      at_ = 0 ∨ s.stepNo ≤ at_ → Does (.snapshotShip h off len dst key at_) s fun t => HalterOnly { s with step := t.step } t ∧
        t.step = { s.step with ship := some { cmd := hdrCmd h 0x110 s.now, off := off, len := len, dst := dst, key := key
                                              at_ := at_ } })

/-- R327 to R329, R426 to R428, R440, R445, R452, R536, R583: tables in memory. A tag table is loaded whole or refused; a page
table, its frames and its mirror are copied while the command is pending, and no page has been touched then; an entry is set
alone; pins change only the named pages, and one that is being evicted stays; a flush replies when nothing of its range is
dirty any more; a new buddy is copied to. What it says of a point that the spec leaves open is the model's choice: log 49, 51,
84. -/
def Obligations.HalterTables : Prop :=
  ∀ (h : Hdr) (s : State),
    let A := s.accept h
    (∀ (l : Load) b s1, Accepted s h 0x106 1 false → l.len % 64 = 0 → l.len / 64 ≤ 2 ^ 20 →
      A.loadData l.src l.len l.check = (some b, s1) →
      let es := (List.range (l.len / 64)).map fun i => slice b (64 * i) 64
      (es.all s1.tagOk = true → exec (.tagTableLoad h l) s = .next ((State.extend { s1 with red := { s1.red with
        tagCount := l.len / 64, tags := es.zipIdx.map fun e => (e.2, tagOf e.1) } } 5 0x106 (sha256 b)).answer
          (hdrCmd h 0x106 s.now) 0)) ∧
      (es.all s1.tagOk = false → exec (.tagTableLoad h l) s = .next (s1.answer (hdrCmd h 0x106 s.now) 2))) ∧
    (∀ (l f : Load) base mirror list buddy, Accepted s h 0x107 1 false → l.len = 2 ^ 25 → f.len % 8 = 0 → buddy < 2 ^ 18 →
      s.fixedHbm base (2 ^ 25) = true → s.fixedHbm mirror (2 ^ 25) = true → base / 2 ^ 36 ≠ mirror / 2 ^ 36 →
      f.len = 0 ∨ s.inHbm list f.len = true →
      let B := (A.meetRange l.src l.len).meetRange f.src f.len
      B.loadOk l = true → f.len = 0 ∨ B.loadOk f = true → B.framesOk (B.frameListAt f) = true →
      B.tableOk buddy (f.len / 8) (B.tableEntries l.src) = true →
      exec (.pageTableLoad h l f base mirror list buddy) s = .next (B.pend { hdrCmd h 0x107 s.now with
        args := [l.src, f.src, f.len, base, mirror, list, buddy] })) ∧
    (∀ (c : PendCmd) q src fsrc flen base mirror list buddy, s.pendingOf 0x107 = c :: q →
      c.args = [src, fsrc, flen, base, mirror, list, buddy] → Does .pageTableLoadDone s fun t =>
        t.tier.tableBase = base ∧ t.tier.tableMirror = mirror ∧ t.tier.frameList = list ∧ t.tier.buddyDev = buddy ∧
        t.tier.heat = [] ∧ t.tier.dirty = [] ∧ t.tier.moves = [] ∧
        t = State.finish ((s.loadPages src fsrc flen base mirror list buddy).extend 5 0x107
          (sha256 (s.hbmBytes src (2 ^ 25) ++ s.hbmBytes fsrc flen))) c 0) ∧
    (∀ (p : BitVec 21) (v : BitVec 128), Accepted s h 0x108 15 false →
      let e := pageOfBits v.toNat
      e.2 = false → s.pageOk s.tier.buddyDev e.1 = true → s.moveOf p.toNat = none →
      (e.1.st = 2 → s.frameBase e.1.frame ≠ noFrame ∧
        ∀ q ∈ s.tier.pages, q.1 ≠ p.toNat → 2 ≤ q.2.st → q.2.frame ≠ e.1.frame) →
      Does (.pageSet h p v) s fun t => t.page p.toNat = e.1 ∧ (∀ q, q ≠ p.toNat → t.page q = s.page q) ∧
        (s.hbm.flips = [] → HalterOnly { s with tier := t.tier, hbm := t.hbm, obs := t.obs } t)) ∧
    (∀ (ps : List (BitVec 21)) (pin : Bool), Accepted s h 0x10D 15 false →
      (∀ p ∈ ps, let e := s.page p.toNat
        if pin then e.stay = false else (e.st = 0 ∨ e.home ≠ 0) ∧ e.buddy = false) →
      Does (.tierPin h ps pin) s fun t =>
        (∀ p ∈ ps, let e := s.page p.toNat
          t.page p.toNat = { e with pin := pin, st := if pin = true ∧ e.st = 4 then 2 else e.st }) ∧
        (∀ q, (∀ p ∈ ps, q ≠ p.toNat) → t.page q = s.page q) ∧
        (s.hbm.flips = [] → HalterOnly { s with
          tier := { s.tier with pages := t.tier.pages, moves := t.tier.moves }, hbm := t.hbm, obs := t.obs } t)) ∧
    (∀ first count, Accepted s h 0x10E 14 false → first + count ≤ 2 ^ 21 →
      let ps := (s.tier.pages.map (·.1)).filter fun p =>
        decide (first ≤ p) && decide (p < first + count) && !(s.page p).buddy && (s.page p).home ≠ 0
      let ks := ps.flatMap fun p => ((List.range 32).filter fun g => s.granDirty p g || s.tier.wbs.contains (p, g)).map
        fun g => 32 * p + g
      (ks = [] → exec (.tierFlush h first count) s =
        .next ((A.pend (hdrCmd h 0x10E s.now)).finish (hdrCmd h 0x10E s.now) 0)) ∧
      (ks ≠ [] → exec (.tierFlush h first count) s = .next (ks.foldl (fun (s : State) k =>
        if s.granDirty (k / 32) (k % 32) then s.writeBack (k / 32) (k % 32) else s)
          (A.pend { hdrCmd h 0x10E s.now with args := ks })))) ∧
    (∀ dev (pages : List (BitVec 21 × BitVec 64 × BitVec 32)), Accepted s h 0x10F 14 false →
      (pages.map fun x => x.1.toNat).Nodup → Tbl.wf {} s.tier.pages = true →
      (∀ p, (s.page p).buddy = true ↔ ∃ x ∈ pages, x.1.toNat = p) →
      (∀ x ∈ pages, x.2.1 ≠ 0 ∧ s.homeOk x.2.1.toNat = true ∧ addrDev x.2.1.toNat = dev) →
      s.fab.owed = [] → s.hal.cmds = [] → (∀ r ∈ s.fab.reqs, r.why.reseeds = false ∧ ∀ p, r.why ≠ .buddy p) →
      Does (.tierBuddy h dev pages) s fun t => t.tier.buddyDev = dev ∧ t.tier.buddySt = 3 ∧
        (∀ x ∈ pages, t.page x.1.toNat = { s.page x.1.toNat with home := x.2.1.toNat, key := x.2.2.toNat }) ∧
        ∀ q, (∀ x ∈ pages, q ≠ x.1.toNat) → t.page q = s.page q) ∧
    (∀ pay (l : Load) o, Accepted s h 0x306 15 false → l.len = 2 ^ 25 → aligned o (2 ^ 21) = true →
      s.fixedHbm o (2 ^ 25) = true →
      let B := A.meetRange l.src l.len
      let C := B.hbmCopy l.src o (2 ^ 25)
      B.loadOk l = true → (∀ i ∈ B.partsIn l.src (2 ^ 25) 32, pathRecOk (B.hbmBytes (l.src + 32 * i) 32) = true) →
      exec (.pathTableLoad h pay l o) s = .next ((State.extend { C with fab := { C.fab with pathTable := o } } 6 0x306
        (sha256 pay)).answer (hdrCmd h 0x306 s.now) 0))

/-- R17 to R19, R62, R245, R526, R582, R584: memory and registers reached from the host. A MEM_WRITE to populated HBM whose
cells hold what was written stores its bytes and no other; a MEM_READ of it replies with the bytes that are there; either is
held while the memory holds it; a CTL_READ replies with the registers' words; a register write that sets a reserved bit or
writes a reserved value changes nothing. -/
def Obligations.HalterMemory : Prop :=
  (∀ (h : Hdr) (s : State) (x : Session), s.session h.session = some x → s.step.enabled = false → s.fab.combining = [] →
    let A := s.accept h
    (∀ a (data : List Byte), Accepted s h 0x102 15 false → data.length ≤ x.msgMax - 16 → data ≠ [] →
      s.inHbm a data.length = true → s.relaying a data.length = false → s.memHoldAt a data.length true = none →
      s.hbm.flips = [] → s.fab.reqs = [] →
      (∀ b, a ≤ b → b < a + data.length → (s.chan (s.chanAt b)).failing = false) →
      Does (.memWrite h a data) s fun t => Tbl.getList 0 t.hbm.bytes a data.length = data ∧
        (∀ b, b < a ∨ a + data.length ≤ b → Tbl.get 0 t.hbm.bytes b = Tbl.get 0 s.hbm.bytes b) ∧
        HalterOnly { s with hbm := t.hbm, obs := t.obs } t ∧ t.fab = s.fab) ∧
    (∀ a n, Accepted s h 0x101 15 true → n ≤ x.msgMax → n ≠ 0 → s.inHbm a n = true →
      let lo := a / 4 * 4
      let len := roundUp (a + n) 4 - lo
      s.inHbm lo len = true → s.relaying a n = false → s.memHoldAt a n false = none → s.hbm.flips = [] → s.fab.reqs = [] →
      (∀ b, lo ≤ b → b < lo + len → (s.chan (s.chanAt b)).failing = false ∧ (s.unitAt b).poison = false) →
      Does (.memRead h a n []) s fun t => t.hbm = s.hbm ∧ t.fab = s.fab ∧ ∃ o, t =
        State.answer { A with obs := o } (hdrCmd h 0x101 s.now) 0 (Tbl.getList 0 s.hbm.bytes a n)) ∧
    (∀ a (data : List Byte), Accepted s h 0x102 15 false → data.length ≤ x.msgMax - 16 → data ≠ [] →
      s.inHbm a data.length = true → s.relaying a data.length = false → s.memHoldAt a data.length true ≠ none →
      exec (.memWrite h a data) s =
        .next (A.pend { hdrCmd h 0x102 s.now with args := [a, data.length], data := data, held := true })) ∧
    (∀ a n, Accepted s h 0x101 15 true → n ≤ x.msgMax → n ≠ 0 → s.inHbm a n = true → s.relaying a n = false →
      s.memHoldAt a n false ≠ none →
      exec (.memRead h a n []) s = .next (A.pend { hdrCmd h 0x101 s.now with args := [a, n], held := true })) ∧
    (∀ o n, Accepted s h 0x103 15 true → n ≠ 0 → n ≤ min 4096 x.msgMax → o + n ≤ 2 ^ 28 →
      exec (.ctlRead h o n) s = .next ((A.ctlRead o n).2.answer (hdrCmd h 0x103 s.now) 0 (A.ctlRead o n).1))) ∧
  ∀ (o : BitVec 28) (v : BitVec 64) (s : State),
    (o.toNat % 8 = 0 → s.regBad o.toNat v.toNat = true → exec (.registerWrite o v) s = .next s) ∧
    (o.toNat % 8 = 0 → s.regBad o.toNat v.toNat = false → exec (.registerWrite o v) s = .next (s.regWrite o.toNat v.toNat)) ∧
    (∀ n, n < 1024 → o.toNat = 0xA1000 + 8 * n → s.regBad o.toNat v.toNat = false → Does (.registerWrite o v) s fun t =>
      Tbl.get 0 t.fab.arrive n = v.toNat ∧ (∀ j, j ≠ n → Tbl.get 0 t.fab.arrive j = Tbl.get 0 s.fab.arrive j) ∧
      t = { s with fab := { s.fab with arrive := t.fab.arrive } }) ∧
    (o.toNat % 8 = 0 → o.toNat < 0x28000 → exec (.registerWrite o v) s = .next s)

/-- R619, R622, R625 to R629, R639, R641, R649, R650 to R656, R711, R755, R781: power. Samples add to the energy and the
averages; VIN below 1.70 V for more than 10 us forces P5, and below 1.60 V for more than 5 us is a loss, recorded in flash; the
interval chooses the P-state and the allowances; the fast limiter paces every powered region down by 1 and, 10 us clear, up by
1; a change of P-state is made at its count; a region is admitted, powered on and off; a phase that faults is off for 1 ms; an
alert forces P5 until 10 ms after it ends. What it says of a point that the spec leaves open is the model's choice: log 7, 43,
58. -/
def Obligations.PowerDelivery : Prop :=
  (∀ (s : State) (mv : Nat), s.boot.rails = true →
    (1746 ≤ mv → bit s.pwr.force 2 = false → exec (.vinSample mv) s = .next { s with
      pwr := { s.pwr with vinLowAt := none, vinOkAt := some (s.pwr.vinOkAt.getD s.now), vinMin := mv }
      boot := { s.boot with vinLossAt := none } }) ∧
    (∀ a, mv < 1600 → s.boot.vinLossAt = some a → a + 5000 < s.now → Does (.vinSample mv) s fun t =>
      t.flash.newLoss = true ∧ t.flash.powerLoss.length = s.flash.powerLoss.length + 1 ∧ t.hal.job = 0 ∧ t.tiles = []) ∧
    (∀ a, 1600 ≤ mv → mv < 1700 → s.pwr.vinLowAt = some a → a + 10000 < s.now → Does (.vinSample mv) s fun t =>
      bit t.pwr.force 2 = true)) ∧
  (∀ (s : State) (vin vaux : Nat) (rs : List (Nat × Nat)), Does (.powerSample vin vaux rs) s fun t =>
    t = { s with pwr := t.pwr } ∧ t.pwr.energy = s.pwr.energy + (vin + vaux) ∧
    t.pwr.us = ((vin + vaux) :: s.pwr.us).take 1000 ∧ t.pwr.pstate = s.pwr.pstate) ∧
  (∀ s : State, s.assisted 3 = false → s.splitPending = false →
    let b := s.pwr.budget
    let ps := s.choose b
    exec .reinInterval s = .next ((State.allot { s with
      pwr := { s.pwr with choice := ps, lastCap := s.pwr.sustEff, hostWeights := none } }
        (s.weights (max ps s.pwr.pstateTop)) b).retarget)) ∧
  (∀ (s : State) (amps : Nat),
    let tooHigh := 99 * s.pwr.peakEff * 10 * s.pwr.us.length < 100 * sumOf s.pwr.us ∨ 7400 < amps
    (tooHigh → Does (.fastLimiter amps) s fun t => t = { s with pwr := t.pwr } ∧ t.pwr.engaged = true ∧
      (∀ g, g < s.pwr.regions.length → (t.pr g).pace = if (s.pr g).on then max 1 ((s.pr g).pace - 1) else (s.pr g).pace) ∧
      t.pwr.limits = if s.pwr.engaged then s.pwr.limits else satAdd 16 s.pwr.limits 1) ∧
    (¬ tooHigh → s.pwr.clearUs + 1 < 10 → exec (.fastLimiter amps) s = .next { s with
      pwr := { s.pwr with clearUs := s.pwr.clearUs + 1 } }) ∧
    (¬ tooHigh → 10 ≤ s.pwr.clearUs + 1 → Does (.fastLimiter amps) s fun t => t = { s with pwr := t.pwr } ∧
      t.pwr.engaged = false ∧ ∀ g, g < s.pwr.regions.length →
        (t.pr g).pace = if (s.pr g).pace < (s.pr g).paceTop then (s.pr g).pace + 1 else (s.pr g).pace)) ∧
  (∀ s : State, ∀ c, s.pwr.change = some c → c.waiting = [] → c.at_ ≤ s.now → Does .clockChange s fun t =>
    t = { s with pwr := t.pwr } ∧ t.pwr.pstate = c.dest ∧ t.pwr.changes = satAdd 32 s.pwr.changes 1) ∧
  (∀ (s : State), s.pwr.gp3.low = false → (nth s.hal.res 3 {}).owner = 0x31 → Does .regAlert s fun t =>
    t.boot.gp3 = false ∧ t.pwr.gp3.low = true ∧ t.pwr.gp3.began = s.now ∧ bit t.pwr.force 1 = true) ∧
  (∀ s : State, s.pwr.vr.low = false → Does .vrAlertFall s fun t =>
    t.boot.alertN = false ∧ t.pwr.vr.low = true ∧ t.pwr.vr.began = s.now ∧ bit t.pwr.force 0 = true) ∧
  (∀ (s : State) (status : Nat), s.pwr.vr.low = true → Does (.vrAlertRise false status) s fun t =>
    t.pwr = { s.pwr with vr := s.pwr.vr.rise s.now } ∧ t.boot = { s.boot with alertN := true } ∧
    t = { s with pwr := t.pwr, boot := t.boot, err := t.err, heat := t.heat }) ∧
  (∀ (s : State) (gp3 : Bool),
    let a := if gp3 then s.pwr.gp3 else s.pwr.vr
    let src := if gp3 then 1 else 0
    a.low = false → a.high + 10000000 ≤ s.now → bit s.pwr.force src = true → Does (.alertForceEnd gp3) s fun t =>
      bit t.pwr.force src = false ∧ t = { s with pwr := t.pwr } ∧ ∀ j, j ≠ src → bit t.pwr.force j = bit s.pwr.force j) ∧
  (∀ (s : State) (b : Nat), s.pwr.trayBudget = some b → s.pwr.stale = false → s.pwr.trayAt + 1000000 * s.pwr.staleMs ≤ s.now →
    Does .budgetStale s fun t => t.pwr = { s.pwr with stale := true } ∧ HalterOnly { s with pwr := t.pwr } t) ∧
  ∀ (g : RegionIx) (s : State), s.pwr.regions.length = 16 →
    let r := s.pr g.val
    (∀ c, s.pwr.change = some c → Does (.vlogicReport g) s fun t =>
      t = { s with pwr := { s.pwr with change := some { c with waiting := c.waiting.filter (· ≠ g.val) } } }) ∧
    (∀ k : Fin 24, bit (Tbl.get 0 s.flash.phases g.val) k.val = false → (∀ e ∈ r.off, e.1 ≠ k.val) →
      ((Tbl.get [] r.faults k.val).filter fun t => decide (s.now - t ≤ 3600000000000)).length < 2 →
      Does (.phaseCheck g [k]) s fun t => Tbl.get 0 (t.pr g.val).off k.val = s.now + 1000000 ∧ t.flash = s.flash ∧
        t = { s with pwr := t.pwr, err := t.err, heat := t.heat } ∧ ∀ j, j ≠ g.val → t.pr j = s.pr j) ∧
    (∀ k : Fin 24, Tbl.get 0 r.off k.val ≠ 0 → Tbl.get 0 r.off k.val ≤ s.now → Does (.phaseReenable g k) s fun t =>
      t = { s with pwr := t.pwr } ∧ Tbl.get 0 (t.pr g.val).off k.val = 0 ∧ ∀ j, j ≠ g.val → t.pr j = s.pr j) ∧
    (s.admits g.val = true → (∀ j, j < g.val → s.admits j = false) → Does (.regionAdmitTest g) s fun t =>
      t = { s with pwr := t.pwr } ∧ (∀ j, j ≠ g.val → t.pr j = s.pr j) ∧
      t.pr g.val = { r with ramping := true, rampAt := s.now, wanted := none, vset := Config.vtable g.val s.pwr.pstate }) ∧
    (r.ramping = true → r.rampAt + 33000 ≤ s.now → Does (.regionPowerOnDone g) s fun t =>
      t.pr g.val = { r with ramping := false, on := true } ∧ (∀ j, j ≠ g.val → t.pr j = s.pr j) ∧
      t.seeds = s.seeds + 13 ∧
      (s.hal.job ≠ 2 → ∀ k, t.tile k = if k / 12 = g.val then (s.tile k).cleared else s.tile k)) ∧
    (∀ a, r.wanted = some a → a + 50000 ≤ s.now → Does (.regionDefer g) s fun t =>
      t.pr g.val = { r with wanted := none, deferred := true } ∧ HalterOnly { s with pwr := t.pwr } t ∧
      ∀ j, j ≠ g.val → t.pr j = s.pr j) ∧
    (s.offDue g.val = true → Does (.regionPowerOff g) s fun t => (t.pr g.val).on = false ∧ (t.pr g.val).vset = 0 ∧
      t = { s with pwr := t.pwr, tiles := t.tiles } ∧ (∀ j, j ≠ g.val → t.pr j = s.pr j) ∧
      ∀ k, if k / 12 = g.val then (t.tile k).store = [] ∧ (t.tile k).seq = .stopped ∧ (t.tile k).acc = []
        else t.tile k = s.tile k) ∧
    (Does (.vminRead g) s fun t => t = { s with pwr := t.pwr } ∧ (∀ j, j ≠ g.val → t.pr j = s.pr j) ∧
      t.pr g.val = { r with vmin := { captured := r.vmin.min % 512 + 512 * (r.vmin.pst % 8) } })

/-- R648: each trip increments DROOP_TRIPS of the region whose detector tripped, and the die's stretches are counted with the
time they took. -/
def Obligations.DroopCounts : Prop :=
  (∀ (g : RegionIx) (k : SlotIx) (s : State), s.pwr.regions.length = 16 → s.pwr.dies.length = 2 →
    Does (.droopTrip g k) s fun t => t = { s with pwr := t.pwr } ∧
      t.pr g.val = { s.pr g.val with droopTrips := satAdd 32 (s.pr g.val).droopTrips 1 } ∧
      (∀ j, j ≠ g.val → t.pr j = s.pr j) ∧ (∀ d, d ≠ g.val / 8 → t.die d = s.die d) ∧
      (t.die (g.val / 8)).stage = 1 ∧ (t.die (g.val / 8)).stretches =
        if (s.die (g.val / 8)).stage = 0 then satAdd 32 (s.die (g.val / 8)).stretches 1 else (s.die (g.val / 8)).stretches) ∧
  (∀ (g : RegionIx) (k : SlotIx) (s : State), s.pwr.dies.length = 2 → Does (.droopClear g k) s fun t =>
    t = { s with pwr := { s.pwr with dies := t.pwr.dies } } ∧ (∀ d, d ≠ g.val / 8 → t.die d = s.die d) ∧
    (t.die (g.val / 8)).stretchNs = (s.die (g.val / 8)).stretchNs ∧
    (t.die (g.val / 8)).tripped = (s.die (g.val / 8)).tripped.filter (· ≠ 13 * (g.val % 8) + k.val)) ∧
  ∀ (d : DieIx) (s : State), s.pwr.dies.length = 2 → (s.die d.val).counting = true →
    ((s.die d.val).stage = 1 ∨ (s.die d.val).stage = 2 → Does (.stretchReturn d) s fun t =>
      t = { s with pwr := { s.pwr with dies := t.pwr.dies } } ∧
      t.die d.val = { s.die d.val with stage := (s.die d.val).stage + 1, since := s.now }) ∧
    ((s.die d.val).stage = 3 → Does (.stretchReturn d) s fun t =>
      t = { s with pwr := { s.pwr with dies := t.pwr.dies } } ∧
      t.die d.val = { s.die d.val with
        stage := 0, counting := false
        stretchNs := ((s.die d.val).stretchNs + (s.now - (s.die d.val).began)) % 2 ^ 64 })

/-- R315 to R317, R637, R638, R643 to R645: notices. HINT gives its region a notice of its tag, due after its lead time, among
at most four; one that falls due puts the region into its phase; with no change of P-state pending the boost found for a notice
starts at its time, no setpoint passing 0.70 V by it, and ends 2 us after the last due time. What it says of a point that the
spec leaves open is the model's choice: log 58. -/
def Obligations.Notices : Prop :=
  (∀ (k : TileIx) (w : BitVec 56) (s : State), s.pwr.regions.length = 16 → s.mayIssue k.val = true →
    (s.tile k.val).rowBusy = false →
    let i : Vi := ⟨0x50, w⟩
    let due := s.now + 4 * bits i.imm 18 8
    let l := (s.pr (k.val / 12)).notices
    i.bad [0] { vd := false, imm := true } = false → bits i.imm 7 6 = 0 → bits i.imm 31 19 = 0 → bits i.imm 18 8 ≤ 2000 →
      (l.length < 4 → Does (.hint k w) s fun t => ∃ n : Notice, n.tile = k.val ∧ n.tag = bits i.imm 5 0 ∧ n.due = due ∧
        (t.pr (k.val / 12)).notices = l ++ [n] ∧ (t.tile k.val).hintDrops = (s.tile k.val).hintDrops ∧
        (t.tile k.val).vreg = (s.tile k.val).vreg) ∧
      (l.length = 4 → (∀ n ∈ l, n.due ≤ due) → Does (.hint k w) s fun t => t.pwr = s.pwr ∧
        (t.tile k.val).hintDrops = satAdd 16 (s.tile k.val).hintDrops 1)) ∧
  ∀ (g : RegionIx) (s : State), s.pwr.regions.length = 16 →
    let r := s.pr g.val
    (∀ n, s.dueNotice g.val = some n → exec (.noticeDue g) s =
      .next (if n.tag = s.obs.phaseTag then (s.noticeDue g.val n).trigger 4 else s.noticeDue g.val n)) ∧
    (∀ n, s.dueNotice g.val = some n → (s.noticeDue g.val n).boot = s.boot ∧
      ((s.noticeDue g.val n).pr g.val).phase = n.tag ∧ ((s.noticeDue g.val n).pr g.val).hints = satAdd 32 r.hints 1 ∧
      ((s.noticeDue g.val n).pr g.val).notices = r.notices.erase n) ∧
    (∀ n, (r.notices.find? fun n => n.boost ≠ 0 && !n.boosting && n.boostAt ≤ s.now) = some n → s.pwr.change = none →
      Does (.boostStart g) s fun t => t = { s with pwr := t.pwr } ∧ (∀ j, j ≠ g.val → t.pr j = s.pr j) ∧
        t.pr g.val = { r with boost := max r.boost (min n.boost (700000 - r.vset * 2500)), allPhases := true
                              boostEnd := some (max (r.boostEnd.getD 0) (n.due + 2000))
                              notices := r.notices.map fun m => if m = n then { m with boosting := true } else m }) ∧
    (∀ a, r.boostEnd = some a → a ≤ s.now → Does (.boostEnd g) s fun t => t = { s with pwr := t.pwr } ∧
      (∀ j, j ≠ g.val → t.pr j = s.pr j) ∧ t.pr g.val = { r with boost := 0, allPhases := false, boostEnd := none })

/-- R668 to R673, R675 to R685, R687 to R689, R693, R694, R851: heat. A conversion gives its site a control value by the pair's
state; a valid report replaces what the tray has told; Groom's request is 8 bytes under a check; the coolant limit falls at
once; a stop ends 1 s after its condition; a privileged sensor that reads 105 degrees C twice trips the device; the warm floor
lowers the requested flow in steps of 100 mL/min, and idle activity changes by 5 W. What it says of a point that the spec
leaves open is the model's choice: log 22, 59. -/
def Obligations.HeatAndCoolant : Prop :=
  (∀ (q : Fin 214) (a b : Int) (s : State), s.heat.sites.length = 214 →
    let x := nth s.heat.sites q.val {}
    let okA := accepts x.failA x.seenA x.ta a
    let okB := accepts x.failB x.seenB x.tb b
    Does (.sensorConversion q a b) s fun t =>
      let y := nth t.heat.sites q.val {}
      (∀ j, j ≠ q.val → nth t.heat.sites j {} = nth s.heat.sites j {}) ∧
      (okA = true → okB = true → (a - b).natAbs ≤ 24 → x.suspect = false → y.ctrl = max a b ∧ y.st = 0 ∧
        t = { s with heat := { s.heat with sites := t.heat.sites } }) ∧
      (okA = true → okB = true → 24 < (a - b).natAbs → x.suspect = true → y.ctrl = max a b + 12 ∧ y.st = 1) ∧
      (okA = true → okB = false → y.ctrl = a + 12 ∧ y.st = 2) ∧ (okA = false → okB = true → y.ctrl = b + 12 ∧ y.st = 2) ∧
      (okA = false → okB = false → y.ctrl = s.heat.highest (siteNeighbours q.val) + 24 ∧ y.st = 3 ∧
        y.rejA = (if fitsSensor x.seenA x.ta a then 0 else x.rejA + 1) ∧
        y.rejB = if fitsSensor x.seenB x.tb b then 0 else x.rejB + 1)) ∧
  (∀ s : State, exec (.trayReport none) s = .next s.trayMiss.watchFlow) ∧
  (∀ (s : State) (b : List Byte), b.length = 16 → crc8 (b.take 15) = field b 15 1 → s.heat.lastSeq ≠ some (field b 1 1) →
    Does (.trayReport (some b)) s fun t => t.heat.lastSeq = some (field b 1 1) ∧ t.heat.missRun = 0 ∧
      t.heat.inlet = signed 16 (field b 2 2) ∧ t.heat.outlet = signed 16 (field b 4 2) ∧
      t.heat.trayFlow = some (field b 6 2) ∧ t.heat.status = field b 10 1 ∧ t.heat.sites = s.heat.sites) ∧
  (∀ s : State, Does .trayRequestRefresh s fun t => ∃ b : Bytes, t = { s with sent := s.sent ++ [.tray b] } ∧ b.length = 8 ∧
    b.take 2 = [1, 1] ∧ field b 2 2 = s.heat.flowReq % 65536 ∧ nth b 7 0 = BitVec.ofNat 8 (crc8 (b.take 7))) ∧
  (∀ s : State, s.boot.rails = true → Does .coolantLimitUpdate s fun t =>
    (∀ q, s.flow = some q → t.heat.wFlow = some ({ s.heat with flows := t.heat.flows } : Heat).capacity ∧
      t.heat.flows = (s.now, q) :: s.heat.flows.filter fun x => decide (s.now - x.1 < 100000000)) ∧
    (let w := min (t.heat.wFlow.getD 0xFFFF) (t.heat.wJunc.getD 0xFFFF)
     w ≤ s.pwr.coolant.getD 0xFFFF → t.pwr.coolant.getD 0xFFFF = w)) ∧
  (∀ s : State, (s.flowPin 0 = true ∨ s.flowPin 1 = true) → Does .flowPulse s fun t =>
    t = { s with heat := { s.heat with pulses := t.heat.pulses, lastPulse := s.now } } ∧
    t.heat.pulses = (s.heat.pulses.filter fun a => decide (s.now - a ≤ 100000000)) ++ [s.now]) ∧
  (∀ (s : State) (on : Bool), s.flowPin 2 = true →
    exec (.pumpFailInput on) s = .next { s with heat := { s.heat with pumpFail := on } }) ∧
  (∀ (s : State) a c, s.heat.stop = some a → s.heat.clearSince = some c → c + 1000000000 ≤ s.now →
    Does .coolantRestore s fun t => t.heat.stop = none ∧ bit t.pwr.force 3 = false) ∧
  (∀ (q : Fin 214) (s : State), 208 ≤ q.val → q.val ≤ 212 → 2 ≤ (nth s.heat.sites q.val {}).hotRun → s.boot.thermtrip = false →
    s.boot.vaux = true → Does (.thermalTrip q) s fun t => t.boot.thermtrip = true ∧ t.boot.rails = false ∧
      t.flash.newTrip = true ∧ t.flash.trips.length = s.flash.trips.length + 1 ∧ (s.boot.rails = true → t.tiles = [])) ∧
  (∀ s : State, s.hal.job ≠ 2 →
    let w := s.heat.warm
    let fl : Int := 4 * s.heat.warmFloor
    let base := if s.heat.flowReq = 0 then s.heat.filtered else s.heat.flowReq
    (w < fl → s.heat.flowMinWarm < base → Does .warmFloorCheck s fun t =>
      t.heat.flowReq = max s.heat.flowMinWarm (base - 100) ∧ t.heat.reason = 1) ∧
    (fl ≤ w → w ≤ fl + 20 → exec .warmFloorCheck s = .next { s with heat := { s.heat with belowSince := none } }) ∧
    (fl + 20 < w → s.heat.warmAct = false → s.heat.flowReq ≠ 0 → Does .warmFloorCheck s fun t =>
      t.heat.flowReq = if 1600 ≤ s.heat.flowReq + 100 then 0 else s.heat.flowReq + 100)) ∧
  ∀ s : State, s.heat.warmAct = true →
    let fl : Int := 4 * s.heat.warmFloor
    (s.heat.warm < fl → exec .idleActivityAdjust s =
      .next { s with heat := { s.heat with warmNow := min s.heat.warmW (s.heat.warmNow + 5) } }) ∧
    (fl + 12 < s.heat.warm → 5 < s.heat.warmNow → exec .idleActivityAdjust s =
      .next { s with heat := { s.heat with warmNow := s.heat.warmNow - 5 } }) ∧
    (fl + 12 < s.heat.warm → s.heat.warmNow ≤ 5 → s.pwr.regions.length = 16 → Does .idleActivityAdjust s fun t =>
      t.heat = { s.heat with warmAct := false, warmNow := 0 } ∧ t = { s with heat := t.heat, pwr := t.pwr } ∧
      ∀ g, g < 16 → t.pr g = { s.pr g with activity := false })

/-- R371, R467, R468, R471, R496, R497, R542, R559, R560, R585 to R588, R630 to R633: what the host sets. Caps and a site
budget take the values of their ranges; a parameter its value, and one outside its range is refused; a device number, a team, a
standby (which is asked at once for the decision that waits, if one does), the region table, a group and a port's settings are
taken as loaded; INFO answers who the device is. What it says of a point that the spec leaves open is the model's choice: log
37, 44, 49. -/
def Obligations.HalterSettings : Prop :=
  ∀ (h : Hdr) (s : State),
    let A := s.accept h
    (∀ pay : List Byte, Accepted s h 0x12 15 false →
      let pk := if field pay 0 2 = 0 then s.pwr.peak else field pay 0 2
      let su := if field pay 2 2 = 0 then s.pwr.sust else field pay 2 2
      pay.length = 8 → field pay 4 4 = 0 → (field pay 0 2 = 0 ∨ (600 ≤ pk ∧ pk ≤ 1250)) →
      (field pay 2 2 = 0 ∨ (300 ≤ su ∧ su ≤ 1050)) → su ≤ pk → Does (.capSet h pay) s fun t =>
        t.pwr = { s.pwr with peak := pk, sust := su, peakCut := false } ∧ HalterOnly { s with pwr := t.pwr } t) ∧
    (∀ pay : List Byte, Accepted s h 0x13 15 false → pay.length = 8 → field pay 2 6 = 0 →
      let w := field pay 0 2
      Does (.siteBudget h pay) s fun t => HalterOnly { s with pwr := t.pwr } t ∧
        t.pwr = { s.pwr with halBudget := if w = 0 then 0 else max 300 (min 1050 w) }) ∧
    (∀ pay : List Byte, Accepted s h 0x111 15 false → pay.length = 16 → field pay 2 6 = 0 →
      let n := field pay 0 2
      let v := field pay 8 8
      let cmd := hdrCmd h 0x111 s.now
      paramTable.any (fun p => p.1 == n) = true →
      ([0x0001, 0x0301, 0x0302, 0x0308].contains n = true → s.hal.job ≠ 0 →
        exec (.paramSet h pay) s = .next (A.answer cmd 7)) ∧
      ([0x0001, 0x0301, 0x0302, 0x0308].contains n = false ∨ s.hal.job = 0 →
        (A.paramOk n v = false → exec (.paramSet h pay) s = .next (A.answer cmd 2)) ∧
        (A.paramOk n v = true → exec (.paramSet h pay) s = .next
          ((State.extend (if n < 0x0400 then A.param1 n v else A.param2 n v) 7 0x111 (sha256 pay)).answer cmd 0)))) ∧
    (Accepted s h 0x203 15 true → Does (.info h) s fun t => HalterOnly s t ∧ t = A.answer (hdrCmd h 0x203 s.now) 0
      ([BitVec.ofNat 8 (b2n Config.sh2_216)] ++ slice Config.serial 0 16 ++ toBytes 4 s.boot.svn ++ toBytes 8 s.boot.build ++
        toBytes 4 (s.fab.device + 2 ^ 18 * b2n s.fab.numbered) ++ toBytes 1 s.flash.bootEpoch)) ∧
    (∀ (pay : List Byte) n, Accepted s h 0x301 1 false → n < 2 ^ 18 →
      (∀ p ∈ s.ports, ∀ x, p.nbr = some x → x.numbered = true → x.device ≠ n) → Does (.devNumberSet h pay n) s fun t =>
        t.fab = { s.fab with device := n, numbered := true } ∧ HalterOnly { s with fab := t.fab, boot := t.boot } t) ∧
    (∀ (l : Load) (tm : Team) b s1, Accepted s h 0x302 1 false → A.loadData l.src l.len l.check = (some b, s1) →
      teamOk tm = true → s1.teamBytes tm ≤ 2 ^ 20 → Does (.teamLoad h l tm) s fun t => t.red.team = tm.team ∧
        t.red.subLeads = tm.subLeads ∧ t.red.trees = tm.trees ∧ t.red.treesN = tm.treesN ∧ t.red.fanin = tm.fanin ∧
        t.red.credits = tm.credits ∧ t.red.headroom = tm.headroom ∧ t.red.ovfBump = tm.ovfBump ∧
        t.red.beatTimeout = tm.beatTimeout ∧ t.red.hardLimit = tm.hardLimit ∧ t.red.repeatLimit = tm.repeatLimit ∧
        t.red.leadDev = tm.leadDev ∧ t.red.lead = decide (tm.leadDev = s1.fab.device) ∧ t.red.leadAbove = tm.leadAbove ∧
        t.red.standbyDev = tm.standbyDev ∧ t.red.creditsUsed = [] ∧ t.red.waiting = []) ∧
    (∀ dev, Accepted s h 0x303 14 false → dev < 2 ^ 18 → ∃ b : State,
      b.red = { s.red with standbyDev := some dev, standby := !s.red.lead && decide (dev = s.fab.device), silent := false
                           lastHeart := if dev = s.fab.device then s.now else s.red.lastHeart } ∧
      HalterOnly { s with red := b.red } b ∧
      (s.red.deciding = none ∨ s.red.lead = false →
        exec (.standbySet h dev) s = .next (b.answer (hdrCmd h 0x303 s.now) 0)) ∧
      ∀ o, s.red.deciding = some o → s.red.lead = true →
        exec (.standbySet h dev) s = .next ((b.askStandby dev o).answer (hdrCmd h 0x303 s.now) 0)) ∧
    (∀ (pay : List Byte) (l : Load) b s1, Accepted s h 0x304 15 false → l.len = 131072 →
      A.loadData l.src l.len l.check = (some b, s1) →
      let es := (List.range 4096).map fun i => slice b (32 * i) 32
      let r := es.zipIdx.foldl (fun (r : Tbl RegionEnt) e => Tbl.set {} r e.2 (regionOf e.1)) []
      (es.all regionOk = true → regionsApart r = true → Does (.regionTableLoad h pay l) s fun t =>
        ∀ i, i < 4096 → Tbl.get {} t.fab.regions i = regionOf (slice b (32 * i) 32)) ∧
      (es.all regionOk = false ∨ regionsApart r = false →
        exec (.regionTableLoad h pay l) s = .next (s1.answer (hdrCmd h 0x304 s.now) 2))) ∧
    (∀ i (entry : List Byte), Accepted s h 0x305 15 false → i < 4096 → regionOk entry = true →
      regionsApart (Tbl.set {} s.fab.regions i (regionOf entry)) = true → Does (.regionSet h i entry) s fun t =>
        HalterOnly { s with fab := { s.fab with regions := t.fab.regions } } t ∧
        Tbl.get {} t.fab.regions i = regionOf entry ∧
        ∀ j, j ≠ i → Tbl.get {} t.fab.regions j = Tbl.get {} s.fab.regions j) ∧
    (∀ (pay : List Byte) group root parent (ch : List Nat), Accepted s h 0x307 15 false → group < 4096 → root < 2 ^ 18 →
      parent < 2 ^ 18 → ch.length ≤ 32 → (∀ d ∈ ch, d < 2 ^ 18) → Does (.groupLoad h pay group root parent ch) s fun t =>
        HalterOnly { s with fab := { s.fab with groups := t.fab.groups }, boot := t.boot } t ∧
        Tbl.get none t.fab.groups group = some { root := root, parent := parent, children := ch } ∧
        ∀ j, j ≠ group → Tbl.get none t.fab.groups j = Tbl.get none s.fab.groups j) ∧
    (∀ (pay : List Byte) cfg, Accepted s h 0x308 15 false → s.ports.length = 18 → pay.length = 32 → field pay 2 1 < 18 →
      field pay 3 5 = 0 → ((pay.drop 8).drop (portUses (field pay 0 2))).all (· == 0) = true →
      (s.port (field pay 2 1)).cfg.set (field pay 0 2) (pay.drop 8) = some cfg → Does (.portSet h pay) s fun t =>
        ∃ b : State, (b.port (field pay 2 1)).cfg = cfg ∧ (∀ j, j ≠ field pay 2 1 → b.port j = s.port j) ∧
        HalterOnly s b ∧ t = b.answer (hdrCmd h 0x308 s.now) 0) ∧
    (∀ p, Accepted s h 0x309 15 false → p < 18 →
      let c := { hdrCmd h 0x309 s.now with args := [p] }
      ((s.boot.bootSel = 2 ∧ 2 ≤ p) ∨ bit s.pwr.force 4 = true →
        exec (.portReset h p) s = .next ((A.pend c).finish c 0xC)) ∧
      (s.boot.bootSel ≠ 2 ∨ p < 2 → bit s.pwr.force 4 = false → exec (.portReset h p) s = .next ((A.pend c).linkDown p)))

/-- R583, R588, R589, R756 to R758, R783 to R786, R794 to R796, R798 to R800: recovery, quotes and images. FUNC_REINIT of a
tile clears it where no step runs, asks for a repeat where one does, brings a port's link up again, retrains a channel; it
replies when the outcome is there. A device reset leaves flash, and nothing of a tile, a step or a page. A power cycle is asked
of the tray; one that does not come within 10 s is reported. A quote is of the registers as they stand, once the key exists; an
image is staged while its slot is empty, and activated on trial. What it says of a point that the spec leaves open is the
model's choice: log 41, 44, 82. -/
def Obligations.HalterRecovery : Prop :=
  (∀ (h : Hdr) (s : State),
    let A := s.accept h
    (∀ pay : List Byte, Accepted s h 0x14 15 false → pay.length = 8 → field pay 1 3 = 0 →
      let k := field pay 0 1
      let i := field pay 4 4
      let c := { hdrCmd h 0x14 s.now with args := [k, i] }
      (k = 1 → i < 192 → (s.slotOf i).isSome = true → s.hal.job ≠ 2 → Does (.funcReinit h pay) s fun t =>
        t.tile i = (s.tile i).reinit ∧ (∀ j, j ≠ i → t.tile j = s.tile j) ∧ HalterOnly { s with tiles := t.tiles } t) ∧
      (k = 1 → i < 192 → (s.slotOf i).isSome = true → s.hal.job = 2 →
        exec (.funcReinit h pay) s = .next (A.pend c).requestRepeat) ∧
      (k = 2 → i < 18 → s.boot.bootSel ≠ 2 → bit s.pwr.force 4 = false →
        exec (.funcReinit h pay) s = .next ((A.pend c).linkDown i)) ∧
      (k = 3 → i < 96 → (s.chan i).failing = false → (s.chanRec i).mappedOut = false → Does (.funcReinit h pay) s fun t =>
        t.chan i = { s.chan i with retrain := some ((s.chan i).retrain.getD (s.now + 2000000)) } ∧
        (∀ j, j ≠ i → t.chan j = s.chan j) ∧ HalterOnly { s with hbm := { s.hbm with chans := t.hbm.chans } } t) ∧
      (k = 4 → i = 0 → exec (.funcReinit h pay) s = .next (State.combineAll
        { A.pend c with fab := { (A.pend c).fab with reinit := true } }).requestRepeat) ∧
      (k = 0 ∨ 4 < k → exec (.funcReinit h pay) s = .next (A.answer (hdrCmd h 0x14 s.now) 2))) ∧
    (∀ sel, Accepted s h 0x15 15 false → Does (.devReset h sel) s fun t => t.tiles = [] ∧ t.step = {} ∧ t.tier = {} ∧
      t.red = {} ∧ t.hal = halterAtReset s.flash ∧ t.flash = s.flash ∧ t.time = s.time.kept ∧ t.boot.rails = false ∧
      t.boot.bootSel = sel.toNat ∧ t.pkg = mapAtReset s.flash.slots ∧ t.pending = s.pending) ∧
    (Accepted s h 0x16 15 false → Does (.trayPowerCycle h) s fun t =>
      t.boot = { s.boot with powerCycleAt := some s.now } ∧ HalterOnly { s with boot := t.boot } t) ∧
    (∀ pay : List Byte, Accepted s h 0x206 15 true → pay.length = 40 → field pay 38 2 = 0 →
      let c := { hdrCmd h 0x206 s.now with data := slice pay 0 32, args := [0] }
      (field pay 32 4 = 0 → s.boot.akReady = false → exec (.quote h pay) s = .next (A.pend c)) ∧
      (field pay 32 4 = 0 → s.boot.akReady = true → exec (.quote h pay) s = .next ((A.pend c).quoteRead c)) ∧
      (field pay 32 4 ≠ 0 → exec (.quote h pay) s =
        .next (A.answerPart (hdrCmd h 0x206 s.now) (·.quote) (field pay 32 4) (field pay 36 2)))) ∧
    (∀ (pay : List Byte) b s1, Accepted s h 0x207 15 false → pay.length = 24 → field pay 12 4 = 0 → field pay 8 4 ≤ 2 ^ 25 →
      A.loadData (field pay 0 8) (field pay 8 4) (field pay 16 8) = (some b, s1) → Does (.fwStage h pay) s fun t =>
        t.flash.image s.flash.staging = {} ∧ t.pendingOf 0x207 ≠ []) ∧
    (∀ (pay : List Byte) sel, Accepted s h 0x208 1 false → pay.length = 8 → field pay 0 1 < 2 → field pay 1 7 = 0 →
      (s.flash.image s.flash.staging).staged = true → Does (.fwActivate h pay sel) s fun t =>
        t.flash = { s.flash with trial := some (s.flash.staging, bit (field pay 0 1) 0) } ∧ t.tiles = [] ∧
        t.boot.rails = false ∧ t.boot.stage = if sel = 3 then .boardTest else .reading s.flash.staging false)) ∧
  (∀ (s : State) (session seq : Nat) (cols : List (Fin 130)) (c : PendCmd),
    (s.hal.cmds.find? fun c => c.session == session && c.seq == seq && c.code == 0x14) = some c →
    (∀ p, c.args = [2, p] → (s.port p).link = 2 → exec (.funcReinitDone session seq cols) s = .next (s.finish c 0)) ∧
    (∀ p, c.args = [2, p] → (s.port p).link = 3 → exec (.funcReinitDone session seq cols) s = .next (s.finish c 0xC)) ∧
    (∀ i, c.args = [1, i] → s.hal.job ≠ 2 ∨ (s.step.st = 4 ∧ s.step.drained = true) →
      exec (.funcReinitDone session seq cols) s = .next (((s.tileTested i cols).finish c
        (if ((s.tileTested i cols).slotOf i).isSome then 0 else 0xC)).restart)) ∧
    (c.args = [4, 0] → s.fab.reqs = [] → exec (.funcReinitDone session seq cols) s =
      .next (State.finish { s with fab := { s.fab with reinit := false, cache := [] } } c 0))) ∧
  (∀ (s : State) a, s.boot.powerCycleAt = some a → a + 10000000000 ≤ s.now → Does .powerCycleTimeout s fun t =>
    t = { s with boot := { s.boot with powerCycleAt := none }, err := t.err }) ∧
  (∀ s : State, s.boot.akReady = false → s.boot.rails = true → Does .akReady s fun t => t.boot.akReady = true ∧
    t.boot.signing.length = s.boot.signing.length + (s.pendingOf 0x206).length ∧ t.flash = s.flash) ∧
  (∀ (s : State) k l c x, s.boot.signing = (1, k) :: l →
    (s.hal.cmds.find? fun c => c.code == 0x206 && c.session * 2 ^ 32 + c.seq == k) = some c → s.session c.session = some x →
    let d : Doc := { id := x.nextQuote, bytes := c.data ++ slice (Config.akSign s.boot.akSeed c.data) 0 17088 }
    Does .quoteSigned s fun t => t.boot.signing = l ∧ ∃ b : State, t = b.finishDoc c d ∧
      (∀ y, b.session c.session = some y → y.quote = some d ∧ y.nextQuote = x.nextQuote + 1)) ∧
  ∀ (s : State) (written : Bool) c l, s.pendingOf 0x207 = c :: l →
    (s.imageCause c.data ≠ 0 → exec (.fwStageDone written) s = .next (s.finish c 2)) ∧
    (s.imageCause c.data = 0 → written = false → exec (.fwStageDone written) s = .next (s.finish c 0xC)) ∧
    (s.imageCause c.data = 0 → written = true → Does (.fwStageDone written) s fun t =>
      t.flash.image s.flash.staging = { bytes := c.data, staged := true } ∧
      t.flash.image s.flash.bootSlot = s.flash.image s.flash.bootSlot)

/-- R41, R614, R688, R715, R755, R757, R768 to R781, R801 to R803, R846: the start. VAUX brings a cold start, whose strap is
sampled 0.4 ms later or at RST_N; a start reads an image on trial first, else the slot of the strap; an image that passes waits
for RST_N and PWRGD to ramp the rails, one that fails lets the other slot be tried, and where both fail the causes go to flash;
training builds the tile map from the retirement record; at READY, for which the pages that are to be retired are waited for, a
trial that is in time becomes the boot slot, and the version below which no image starts may rise; a trial that is late is
given up. RST_N, or the fall of PWRGD, ends what runs. What it says of a point that the spec leaves open is the model's choice:
log 42, 80, 81. -/
def Obligations.StartSequence : Prop :=
  ∀ s : State,
    (s.boot.vaux = false → Does .vauxUp s fun t => t.boot.vaux = true ∧ t.boot.stage = .waitSel ∧ t.boot.cold = true ∧
      t.time.ns = 0 ∧ t.flash = s.flash ∧ t.tiles = [] ∧ t.hal = halterAtReset s.flash) ∧
    (Does .vauxFall s fun t => t.boot.vaux = false ∧ t.boot.rails = false ∧ t.boot.stage = .off ∧ t.flash = s.flash ∧
      t.tiles = [] ∧ t.hbm.bytes = []) ∧
    (∀ sel : BitVec 2,
      let first := match s.flash.trial with
        | some r => r.1
        | none => if sel = 1 then 1 - s.flash.bootSlot else s.flash.bootSlot
      let stage : Stage := if sel = 3 then .boardTest else .reading first false
      (s.boot.stage = .waitSel → s.boot.cold = true → s.boot.rstN = true → 400000 ≤ s.now → Does (.bootSelSample sel) s fun t =>
        t.boot.bootSel = sel.toNat ∧ t.boot.stage = stage ∧ t.boot.cold = false ∧ t = { s with boot := t.boot }) ∧
      (s.boot.stage = .waitSel → s.boot.rstN = false → s.boot.cold = false ∨ 400000 ≤ s.now →
        Does (.rstNDeassert sel) s fun t => t.boot.bootSel = sel.toNat ∧ t.boot.stage = stage ∧ t.boot.rstN = true ∧
          t = { s with boot := t.boot }) ∧
      (s.boot.stage ≠ .waitSel → s.boot.rstN = false → exec (.rstNDeassert sel) s =
        .next (State.tryRamp { s with boot := { s.boot with rstN := true } }))) ∧
    (s.boot.vaux = true →
      let cool := [208, 209, 210, 211, 212].all fun q => decide ((nth s.heat.sites q {}).tb < 380)
      Does .rstNAssert s fun t => t.boot.rstN = false ∧ t.boot.rails = false ∧ t.boot.stage = .waitSel ∧ t.tiles = [] ∧
        t.hal = halterAtReset s.flash ∧ t.flash = s.flash ∧ t.time.ns = s.time.ns ∧
        t.boot.thermtrip = (s.boot.thermtrip && !cool)) ∧
    (exec .pwrgdRise s = .next (State.tryRamp { s with boot := { s.boot with pwrgd := true } })) ∧
    (s.boot.stage = .checked → s.boot.rstN = true → s.boot.thermtrip = false → s.boot.vaux = true →
      Does .pwrgdRise s fun t => t.boot.stage = .ramped ∧ t.boot.rails = true ∧ t.boot.rampAt = s.now ∧
        t.flash = { s.flash with bootEpoch := (s.flash.bootEpoch + 1) % 256 } ∧ t.heat.groomLog = []) ∧
    (s.boot.rails = true → Does .pwrgdFall s fun t => t.boot.pwrgd = false ∧ t.boot.rails = false ∧
      t.boot.stage = .checked ∧ t.flash.newLoss = true ∧ t.tiles = [] ∧ t.boot.slot = s.boot.slot) ∧
    (s.boot.rails = false → exec .pwrgdFall s = .next { s with boot := { s.boot with pwrgd := false } }) ∧
    (∀ k second, s.boot.stage = .reading k second →
      let b := (s.flash.image k).bytes
      (s.imageCause b = 0 → Does .imageCheckDone s fun t => t.boot.slot = k ∧ t.boot.svn = field b 4 4 ∧
        t.boot.build = field b 8 8 ∧ t.tiles = s.tiles ∧
        t.boot.stage = if s.boot.rstN && s.boot.pwrgd && !s.boot.thermtrip && s.boot.vaux then .ramped else .checked) ∧
      (s.imageCause b ≠ 0 → Does .imageCheckDone s fun t =>
        let causes := s.boot.failCauses ++ [(k, s.imageCause b)]
        t.boot.failCauses = causes ∧ (∀ c, s.flash.trial = some (k, c) → t.flash.trial = none) ∧
        t.boot.stage = (if second then .noImage else .reading (1 - k) true) ∧
        t.flash.causes = (if second then causes else s.flash.causes) ∧ t = { s with boot := t.boot, flash := t.flash })) ∧
    (s.boot.stage = .ramped → Does (.hbmTrainingDone [] []) s fun t => t.boot.stage = .trained ∧
      t.pkg = mapAtReset t.flash.slots ∧ t.boot.rails = s.boot.rails) ∧
    (∀ full cols, s.boot.stage = .ramped → Does (.hbmTrainingDone full cols) s fun t => t.boot.stage = .trained ∧
      t.pkg = mapAtReset t.flash.slots) ∧
    (s.boot.stage = .trained → (∀ c ∈ s.hbm.chans, c.2.retiring = []) → Does .ready s fun t => t.boot.stage = .ready ∧ t.flash.newLoss = false ∧
      t.flash.newTrip = false ∧ t.boot.readyMs = (s.now - s.boot.rampAt) / 1000000 ∧
      (∀ c, s.flash.trial = some (s.boot.slot, c) → s.now ≤ s.boot.rampAt + 30000000000 → t.flash.bootSlot = s.boot.slot ∧
        t.flash.trial = none ∧ t.flash.svnFloor = if c then max s.flash.svnFloor s.boot.svn else s.flash.svnFloor) ∧
      (s.flash.trial = none → t.flash = { s.flash with newLoss := false, newTrip := false })) ∧
    (s.boot.stage = .trained → (∃ c ∈ s.hbm.chans, c.2.retiring ≠ []) → exec .ready s = .next s) ∧
    (∀ c, s.flash.trial = some (s.boot.slot, c) → s.boot.stage = .ramped ∨ s.boot.stage = .trained →
      s.boot.rampAt + 30000000000 ≤ s.now → Does .trialTimeout s fun t =>
        t.flash = { s.flash with trial := none } ∧ t.boot.stage = .reading s.flash.bootSlot false ∧
        t.boot.fallback = true ∧ t.boot.rails = false ∧ t.tiles = [])

/-- R588, R742, R745, R747, R764, R810, R811, R813 to R822, R825 to R831, R843: the log and the observers. A read marks what it
carries, and an acknowledgement frees what has been carried; the trace pins send a record at a time. A watchdog restarts its
core, and the third within an hour retires one. Clearing clears, and keeps for the tick what the counters held. Periscope takes
a sample where its state, its triggers and the gap of 2 us let it, and counts what it drops; Loupe reports on two passes. What
it says of a point that the spec leaves open is the model's choice: log 46, 47. -/
def Obligations.LogsAndObservers : Prop :=
  (∀ (s : State) r q, s.err.trace = r :: q → s.err.traceAt + 5200 ≤ s.now → exec .traceRecordSent s =
    .next { s with err := { s.err with trace := q, traceAt := s.now }, sent := s.sent ++ [.trace r] }) ∧
  (∀ (h : Hdr) (s : State),
    let A := s.accept h
    (∀ (pay : List Byte) n x, Accepted s h 0x201 15 true → seqPay pay = some n → s.session h.session = some x →
      let rs := (s.err.ring.filter fun r => decide (n ≤ r.seq)).take (x.msgMax / 64)
      let mark (r : ErrRec) : ErrRec := if (rs.map fun r => r.seq).contains r.seq then { r with delivered := true } else r
      exec (.logRead h pay) s = .next (State.answer
        { A with err := { s.err with lastRead := s.now, ring := s.err.ring.map mark } } (hdrCmd h 0x201 s.now) 0
          (rs.flatMap recBytes))) ∧
    (∀ (pay : List Byte) n, Accepted s h 0x202 15 false → seqPay pay = some n → Does (.logAck h pay) s fun t =>
      t.err = { s.err with ring := s.err.ring.filter fun r => !(r.delivered && decide (r.seq ≤ n)) } ∧
      HalterOnly { s with err := t.err } t) ∧
    (∀ pay : List Byte, Accepted s h 0x204 15 false → field pay 0 1 = 2 → pay.length = 32 →
      (pay.drop 1).all (· == 0) = true → Does (.periscopeSet h pay) s fun t => HalterOnly { s with obs := t.obs } t ∧
        t.obs = { s.obs with pst := 0, triggers := 0 }) ∧
    (∀ pay : List Byte, Accepted s h 0x204 15 false → field pay 0 1 = 1 → s.armOk pay = true →
      (∀ r ∈ armRes pay, A.meets 0x10 0 r = 0) →
      exec (.periscopeSet h pay) s = .next ((A.arm pay).answer (hdrCmd h 0x204 s.now) 0) ∧ (A.arm pay).obs.pst = 1 ∧
        (A.arm pay).obs.sels = (List.range (field pay 7 1)).map fun i => field pay (32 + 4 * i) 4) ∧
    (∀ pay : List Byte, Accepted s h 0x205 15 true → pay.length = 8 → field pay 6 2 = 0 →
      (field pay 0 4 = 0 → exec (.loupeReport h pay) s = .next ((A.pend (hdrCmd h 0x205 s.now)).onObs fun o =>
        { o with loupe := o.loupe ++ [([h.session, h.seq, s.now, s.step.attempt, s.step.committed], A.edges.map Edge.enc)] })) ∧
      (field pay 0 4 ≠ 0 → exec (.loupeReport h pay) s =
        .next (A.answerPart (hdrCmd h 0x205 s.now) (·.report) (field pay 0 4) (field pay 4 2))))) ∧
  (∀ (session seq : Nat) (s : State) x c y,
    (s.obs.loupe.find? fun x => nth x.1 0 0 == session && nth x.1 1 0 == seq) = some x →
    nth x.1 2 0 + 1000000 * s.obs.gapMs ≤ s.now → (s.hal.cmds.find? fun c => c.session == session && c.seq == seq) = some c →
    s.session session = some y →
    let d : Doc := { id := y.nextReport
                     bytes := s.loupeReport (nth x.1 2 0) (nth x.1 3 0) (nth x.1 4 0) (x.2.map Edge.dec) }
    exec (.loupePass2 session seq) s = .next ((State.onSession
      { s with obs := { s.obs with loupe := s.obs.loupe.filter (· ≠ x) } } session fun z =>
        { z with report := some d, nextReport := y.nextReport + 1 }).finishDoc c d)) ∧
  (∀ (k : Fin 4) (s : State), s.hal.cores.length = 5 → bit s.flash.cores k.val = true →
    let dogs := (s.core k.val).dogs.filter fun a => decide (s.now - a ≤ 3600000000000)
    Does (.dorlenWatchdog k none) s fun t => t = { s with hal := { s.hal with cores := t.hal.cores }, err := t.err, flash := t.flash } ∧
      t.err.watchdogs = satAdd 16 s.err.watchdogs 1 ∧
      t.core k.val = { s.core k.val with st := 0, starts := (s.core k.val).starts + 1, dogs := dogs ++ [s.now] } ∧
      (∀ j, j ≠ k.val → t.core j = s.core j) ∧
      t.flash = { s.flash with cores := if 2 ≤ dogs.length then s.flash.cores - 2 ^ k.val else s.flash.cores }) ∧
  (∀ s : State, s.hal.cores.length = 5 → Does .groomWatchdog s fun t =>
    t = { s with hal := { s.hal with cores := t.hal.cores }, err := t.err } ∧ (t.core 4).st = 0 ∧
    (t.core 4).starts = (s.core 4).starts + 1 ∧ ∀ j, j ≠ 4 → t.core j = s.core j) ∧
  (∀ s : State, Does .opsClearTiles s fun t =>
    t = { s with tiles := t.tiles, obs := { s.obs with
      tilesWas := some (s.now, (List.range 192).map fun k => (s.tile k).ops) } } ∧
    ∀ k, t.tile k = if k < 192 then { s.tile k with ops := {} } else s.tile k) ∧
  (∀ s : State, exec .opsClearDevice s = .next { s with obs := { s.obs with
    devWas := some (s.now, s.obs.hbmRd ++ s.obs.hbmWr ++ [s.obs.fabTx, s.obs.fabRx, s.obs.fabReqs, s.obs.homeReqs])
    hbmRd := List.replicate 6 0, hbmWr := List.replicate 6 0, fabTx := 0, fabRx := 0, fabReqs := 0, homeReqs := 0 } }) ∧
  (∀ (s : State) r, s.obs.timer = some r → Tbl.get 0 s.hal.timers (r - 8) ≠ 0 → Tbl.get 0 s.hal.timers (r - 8) ≤ s.now + 1 →
    let at_ := Tbl.get 0 s.hal.timers (r - 8) + 1000 * s.obs.periodUs
    exec .periscopeTimer s = .next (State.trigger
      { s with hal := { s.hal with timers := Tbl.set 0 s.hal.timers (r - 8) at_ } } 0)) ∧
  ∀ (s : State) (up : Bool), s.obs.pin.isSome = true → bit s.obs.edge (if up then 0 else 1) = true →
    (bit s.obs.triggers 1 = false → exec (.periscopePin up) s = .next s) ∧
    (bit s.obs.triggers 1 = true → s.obs.pst = 2 → s.obs.lastSample ≠ some s.now →
      exec (.periscopePin up) s = .next { s with obs := { s.obs with
        dropped := satAdd 32 s.obs.dropped 1, droppedSince := satAdd 32 s.obs.droppedSince 1 } }) ∧
    (∀ a, bit s.obs.triggers 1 = true → s.obs.pst = 1 → s.obs.lastSample = some a → a < s.now → s.now < a + 2000 →
      exec (.periscopePin up) s = .next { s with obs := { s.obs with
        dropped := satAdd 32 s.obs.dropped 1, droppedSince := satAdd 32 s.obs.droppedSince 1 } }) ∧
    (bit s.obs.triggers 1 = true → s.obs.pst = 1 → s.obs.lastSample = none → s.fab.combining = [] → s.step.enabled = false →
      Does (.periscopePin up) s fun t => t.obs.samples = satAdd 32 s.obs.samples 1 ∧ t.obs.seq = (s.obs.seq + 1) % 2 ^ 32 ∧
        t.obs.droppedSince = 0 ∧ t.obs.lastSample = some s.now)

/-- R600: each session's event queue has 1,024 entries, 64 of them reserved: an event of class FATAL or DECISION takes any free
entry, one of class WARNING or INFO a general entry alone. -/
def Obligations.EventQueue : Prop :=
  ∀ (x : Session) (ev : Event) (now : Nat),
    let y := (x.queue ev now).1
    let general := x.used false
    let reserved := x.used true
    (evClass ev.code ≤ 1 → general < 960 ∨ reserved < 64 → y.events.length = x.events.length + 1) ∧
    (evClass ev.code ≤ 1 → general < 960 → y.used false = general + 1 ∧ y.used true = reserved) ∧
    (evClass ev.code ≤ 1 → 960 ≤ general → reserved < 64 → y.used false = general ∧ y.used true = reserved + 1) ∧
    (evClass ev.code ≤ 1 → 960 ≤ general → 64 ≤ reserved → y.events = x.events ∧ y.waiting = x.waiting ++ [ev]) ∧
    (1 < evClass ev.code → general < 960 → y.used false = general + 1 ∧ y.used true = reserved) ∧
    (1 < evClass ev.code → 960 ≤ general → y.events = x.events ∧ y.waiting = x.waiting) ∧
    (general ≤ 960 → reserved ≤ 64 → y.used false ≤ 960 ∧ y.used true ≤ 64 ∧ y.events.length ≤ 1024) ∧
    (∀ e ∈ x.events, e ∈ y.events)

/-- R738: a report is merged into a record of the same unit, instance, code and class that lies in the queue, or in the 256 most
recent records of the ring and has not been delivered: its COUNT (which stops at 0xFFFFFFFF) and its LAST change, and no
other field or record. One that no record may take is merged into none. -/
def Obligations.ReportsMerge : Prop :=
  ∀ (e : ErrLog) (r : ErrRec),
    let takes (a : ErrRec) : Prop :=
      a.unit = r.unit ∧ a.inst = r.inst ∧ a.code = r.code ∧ a.cls = r.cls ∧ a.delivered = false
    let merged (a : ErrRec) : ErrRec := { a with count := min 0xFFFFFFFF (a.count + 1), last := r.first }
    let old := e.ring.length - 256
    let y := e.report r
    ((∃ a ∈ e.queue, takes a) → ∃ i a, e.queue[i]? = some a ∧ takes a ∧ y.queue = setAt e.queue i merged ∧
      y = { e with queue := y.queue, coalesced := satAdd 32 e.coalesced 1 }) ∧
    ((∀ a ∈ e.queue, ¬ takes a) → (∃ a ∈ e.ring.drop old, takes a) → ∃ i a, old ≤ i ∧ e.ring[i]? = some a ∧ takes a ∧
      y.ring = setAt e.ring i merged ∧ y = { e with ring := y.ring, coalesced := satAdd 32 e.coalesced 1 }) ∧
    ((∀ a ∈ e.queue, ¬ takes a) → (∀ a ∈ e.ring.drop old, ¬ takes a) →
      y.ring = e.ring ∧ y.coalesced = e.coalesced ∧ y.queue.take e.queue.length = e.queue)

/-- R741: a record that moves from the queue to the ring takes the next number. One that finds the ring full replaces the oldest
delivered record; where there is none, a FATAL one replaces the oldest record of another class, which is counted as LOST,
and any other stays at its place in the queue. A FATAL record is written to flash too, the last 256 of them being kept. -/
def Obligations.LogRing : Prop :=
  ∀ (s : State) r q, s.err.queue = r :: q → (∀ a, s.err.movedAt = some a → a + 100 ≤ s.now) →
    let ring := s.err.ring
    let m : ErrRec := { r with seq := s.err.nextSeq, flags := if r.cls = 5 then r.flags ||| 2 else r.flags }
    let bare (a : ErrRec) : ErrRec := { a with delivered := false, carried := false }
    let moved (l : List ErrRec) (lost : Nat) (t : State) : Prop :=
      t.err.ring.map bare = (l ++ [m]).map bare ∧ t.err.lost = lost ∧ t.err.nextSeq = s.err.nextSeq + 1 ∧
      t.err.written = satAdd 32 s.err.written 1 ∧ (s.err.held = [] → t.err.queue = q) ∧
      t.flash = { s.flash with fatal :=
        if r.cls = 5 then (s.flash.fatal ++ [m]).drop (s.flash.fatal.length + 1 - 256) else s.flash.fatal } ∧
      HalterOnly { s with err := t.err, flash := t.flash } t
    (ring.length < 4096 → Does .logMove s (moved ring s.err.lost)) ∧
    (4096 ≤ ring.length → ∀ i, ring.findIdx? (·.delivered) = some i →
      Does .logMove s (moved (ring.take i ++ ring.drop (i + 1)) s.err.lost)) ∧
    (4096 ≤ ring.length → ring.findIdx? (·.delivered) = none → r.cls = 5 → ∀ i, ring.findIdx? (fun a => a.cls ≠ 5) = some i →
      Does .logMove s (moved (ring.take i ++ ring.drop (i + 1)) (satAdd 32 s.err.lost 1))) ∧
    (4096 ≤ ring.length → ring.findIdx? (·.delivered) = none → r.cls ≠ 5 →
      Does .logMove s fun t => t.err.queue.head? = some r)

/-- The command at the front of the queue is what a step runs, with the queue's rest; on an empty queue a tick of the time
domain passes (the model's choice, log 1). -/
def Obligations.StepTakesFront : Prop :=
  (∀ (c : Instr) (r : List Instr) (s : State), s.pending = c :: r → step s = exec c { s with pending := r }) ∧
  ∀ s : State, s.pending = [] → step s = .next s.tick

/-- Every command completes in every state, but RESERVED_OPCODE for a vector opcode that R282 lists, which the row has no word
for: it faults by name, unless the tile's sequencer may not issue (the model's choice, log 53). Nothing is refused. -/
def Obligations.EveryCommandCompletes : Prop :=
  (∀ (c : Instr) (s : State), (∀ k op a, c = .reservedOpcode k true op a → vectorOps.contains op.toNat = false) →
    ∃ t, exec c s = .next t) ∧
  ∀ (k : TileIx) (op : BitVec 8) (a : BitVec 22) (s : State), vectorOps.contains op.toNat = true →
    exec (.reservedOpcode k true op a) s =
      if s.mayIssue k.val = true then .fault .otherOpcode else .next s

/-- The state after reset has the shape, and the values that the spec gives (R41, R55, R260, R426, R499, R588, R612, R614, R715,
R768, R777): no command waits, no session is open, no job is loaded, the tile map binds tile 12 g + i of region g to slot i
with slot 12 the spare, DRAM to HBM and FABRIC hold resources 16 to 18, nothing of the region table is valid. -/
def Obligations.ResetState : Prop :=
  let r := State.reset
  r.Shape ∧ r.pending = [] ∧ r.hal.job = 0 ∧ r.hal.sessions = [] ∧ r.time.ns = 0 ∧ r.boot.stage = .waitSel ∧
  r.boot.rails = false ∧ r.hbm.bytes = [] ∧ r.tier.pages = [] ∧ r.fab.regions = [] ∧ r.err.ring = [] ∧
  (∀ k : TileIx, nth r.pkg.map k.val { slot := 15 } = { slot := k.val % 12, st := 0, epoch := 0 }) ∧
  (∀ g : RegionIx, (nth r.pkg.regions g.val { spare := 15 }).spare = 12) ∧
  ((List.range 20).map fun k => (r.res k).owner) = List.replicate 16 0 ++ [0x21, 0x21, 0x20, 0] ∧
  ∀ k : TileIx, r.tile k.val = {} ∧ r.mayIssue k.val = false

/-- From every state that has the shape, whether a run reaches it or not, a step gives a state that has it: memory and its
metadata in their canonical form, a job state and a step state that the spec lists, and the populations of the device. -/
def Obligations.StepKeepsShape : Prop := ∀ s t : State, s.Shape → step s = .next t → t.Shape

/-- No command takes back what only grows or stays (R38, R200, R566, R568, R773, R791): the queue that waits behind it, the
version below which no image starts, the owner's keys but in PROVISION, the slots and the columns of the retirement record. -/
def Obligations.CommandKeeps : Prop := ∀ (c : Instr) (s t : State), exec c s = .next t → s.Keeps t
end

