-- ==== Sys2Proof/Laws/Exec.lean ====
section
/-! SUPPORT. The meaning that the dispatch gives each command, as a rule for rewriting. -/

namespace Sys2Proof.Machine

variable (s : State)

@[simp] theorem exec_mm (t a) :
    exec (.mm t a) s = execMm t a s := rfl
@[simp] theorem exec_drain (t a) :
    exec (.drain t a) s = execDrain t a s := rfl
@[simp] theorem exec_topk (t a) :
    exec (.topk t a) s = execTopk t a s := rfl
@[simp] theorem exec_topkMerge (t a) :
    exec (.topkMerge t a) s = execTopkMerge t a s := rfl
@[simp] theorem exec_zero (t a) :
    exec (.zero t a) s = execZero t a s := rfl
@[simp] theorem exec_barrier (t a) :
    exec (.barrier t a) s = execBarrier t a s := rfl
@[simp] theorem exec_arrayCmdStart (t cols accBad sram) :
    exec (.arrayCmdStart t cols accBad sram) s = execArrayCmdStart t cols accBad sram s := rfl
@[simp] theorem exec_drainUnitStart (t stop accBad sram adds) :
    exec (.drainUnitStart t stop accBad sram adds) s = execDrainUnitStart t stop accBad sram adds s := rfl
@[simp] theorem exec_arrayCmdDone (t) :
    exec (.arrayCmdDone t) s = execArrayCmdDone t s := rfl
@[simp] theorem exec_drainUnitDone (t sumBad) :
    exec (.drainUnitDone t sumBad) s = execDrainUnitDone t sumBad s := rfl
@[simp] theorem exec_barrierDone (t) :
    exec (.barrierDone t) s = execBarrierDone t s := rfl
@[simp] theorem exec_drainResume (t stop sram adds) :
    exec (.drainResume t stop sram adds) s = execDrainResume t stop sram adds s := rfl
@[simp] theorem exec_sequencerResume (t) :
    exec (.sequencerResume t) s = execSequencerResume t s := rfl
@[simp] theorem exec_carouselMoveDone (g) :
    exec (.carouselMoveDone g) s = execCarouselMoveDone g s := rfl
@[simp] theorem exec_spareSelfTest (g cols) :
    exec (.spareSelfTest g cols) s = execSpareSelfTest g cols s := rfl
@[simp] theorem exec_meshFlitResend (d plane failed) :
    exec (.meshFlitResend d plane failed) s = execMeshFlitResend d plane failed s := rfl
@[simp] theorem exec_ucieLinkRetry (n lane repair) :
    exec (.ucieLinkRetry n lane repair) s = execUcieLinkRetry n lane repair s := rfl
@[simp] theorem exec_ucieRetrainDone (n ok) :
    exec (.ucieRetrainDone n ok) s = execUcieRetrainDone n ok s := rfl
@[simp] theorem exec_fmtCntClearCounts (k) :
    exec (.fmtCntClearCounts k) s = execFmtCntClearCounts k s := rfl
@[simp] theorem exec_fmtCntClearAlloc (k) :
    exec (.fmtCntClearAlloc k) s = execFmtCntClearAlloc k s := rfl
@[simp] theorem exec_push (t a) :
    exec (.push t a) s = execPush t a s := rfl
@[simp] theorem exec_pop (t a) :
    exec (.pop t a) s = execPop t a s := rfl
@[simp] theorem exec_peek (t a) :
    exec (.peek t a) s = execPeek t a s := rfl
@[simp] theorem exec_reset (t a) :
    exec (.reset t a) s = execReset t a s := rfl
@[simp] theorem exec_pannierCmdStart (t sram) :
    exec (.pannierCmdStart t sram) s = execPannierCmdStart t sram s := rfl
@[simp] theorem exec_pushDone (t) :
    exec (.pushDone t) s = execPushDone t s := rfl
@[simp] theorem exec_popDone (t) :
    exec (.popDone t) s = execPopDone t s := rfl
@[simp] theorem exec_spillDone (t) :
    exec (.spillDone t) s = execSpillDone t s := rfl
@[simp] theorem exec_restoreDone (t ok far) :
    exec (.restoreDone t ok far) s = execRestoreDone t ok far s := rfl
@[simp] theorem exec_popGraceExpiry (t) :
    exec (.popGraceExpiry t) s = execPopGraceExpiry t s := rfl
@[simp] theorem exec_mbDone (t index) :
    exec (.mbDone t index) s = execMbDone t index s := rfl
@[simp] theorem exec_commit (p step) :
    exec (.commit p step) s = execCommit p step s := rfl
@[simp] theorem exec_tandemSwap :
    exec (.tandemSwap) s = execTandemSwap s := rfl
@[simp] theorem exec_swapComplete :
    exec (.swapComplete) s = execSwapComplete s := rfl
@[simp] theorem exec_repeatOrder (p step attempt cause patches) :
    exec (.repeatOrder p step attempt cause patches) s = execRepeatOrder p step attempt cause patches s := rfl
@[simp] theorem exec_repeatDrained :
    exec (.repeatDrained) s = execRepeatDrained s := rfl
@[simp] theorem exec_repeatRestart :
    exec (.repeatRestart) s = execRepeatRestart s := rfl
@[simp] theorem exec_snapshotCopyDone :
    exec (.snapshotCopyDone) s = execSnapshotCopyDone s := rfl
@[simp] theorem exec_snapshotTimeout :
    exec (.snapshotTimeout) s = execSnapshotTimeout s := rfl
@[simp] theorem exec_vadd (t w) :
    exec (.vadd t w) s = execVadd t w s := rfl
@[simp] theorem exec_vsub (t w) :
    exec (.vsub t w) s = execVsub t w s := rfl
@[simp] theorem exec_vmul (t w) :
    exec (.vmul t w) s = execVmul t w s := rfl
@[simp] theorem exec_vfma (t w) :
    exec (.vfma t w) s = execVfma t w s := rfl
@[simp] theorem exec_vmax (t w) :
    exec (.vmax t w) s = execVmax t w s := rfl
@[simp] theorem exec_vmin (t w) :
    exec (.vmin t w) s = execVmin t w s := rfl
@[simp] theorem exec_vabs (t w) :
    exec (.vabs t w) s = execVabs t w s := rfl
@[simp] theorem exec_vneg (t w) :
    exec (.vneg t w) s = execVneg t w s := rfl
@[simp] theorem exec_vrcp (t w) :
    exec (.vrcp t w) s = execVrcp t w s := rfl
@[simp] theorem exec_vrsqrt (t w) :
    exec (.vrsqrt t w) s = execVrsqrt t w s := rfl
@[simp] theorem exec_vsqrt (t w) :
    exec (.vsqrt t w) s = execVsqrt t w s := rfl
@[simp] theorem exec_vexp (t w) :
    exec (.vexp t w) s = execVexp t w s := rfl
@[simp] theorem exec_vlog (t w) :
    exec (.vlog t w) s = execVlog t w s := rfl
@[simp] theorem exec_vtanh (t w) :
    exec (.vtanh t w) s = execVtanh t w s := rfl
@[simp] theorem exec_vsigm (t w) :
    exec (.vsigm t w) s = execVsigm t w s := rfl
@[simp] theorem exec_vcmpgt (t w) :
    exec (.vcmpgt t w) s = execVcmpgt t w s := rfl
@[simp] theorem exec_vcmpge (t w) :
    exec (.vcmpge t w) s = execVcmpge t w s := rfl
@[simp] theorem exec_vcmpeq (t w) :
    exec (.vcmpeq t w) s = execVcmpeq t w s := rfl
@[simp] theorem exec_vsel (t w) :
    exec (.vsel t w) s = execVsel t w s := rfl
@[simp] theorem exec_viadd (t w) :
    exec (.viadd t w) s = execViadd t w s := rfl
@[simp] theorem exec_visub (t w) :
    exec (.visub t w) s = execVisub t w s := rfl
@[simp] theorem exec_vand (t w) :
    exec (.vand t w) s = execVand t w s := rfl
@[simp] theorem exec_vor (t w) :
    exec (.vor t w) s = execVor t w s := rfl
@[simp] theorem exec_vxor (t w) :
    exec (.vxor t w) s = execVxor t w s := rfl
@[simp] theorem exec_vshl (t w) :
    exec (.vshl t w) s = execVshl t w s := rfl
@[simp] theorem exec_vshr (t w) :
    exec (.vshr t w) s = execVshr t w s := rfl
@[simp] theorem exec_vimul (t w) :
    exec (.vimul t w) s = execVimul t w s := rfl
@[simp] theorem exec_vmov (t w) :
    exec (.vmov t w) s = execVmov t w s := rfl
@[simp] theorem exec_vlane (t w) :
    exec (.vlane t w) s = execVlane t w s := rfl
@[simp] theorem exec_vcvt (t w) :
    exec (.vcvt t w) s = execVcvt t w s := rfl
@[simp] theorem exec_vpack (t w) :
    exec (.vpack t w) s = execVpack t w s := rfl
@[simp] theorem exec_vunpk (t w) :
    exec (.vunpk t w) s = execVunpk t w s := rfl
@[simp] theorem exec_vrsum (t w) :
    exec (.vrsum t w) s = execVrsum t w s := rfl
@[simp] theorem exec_vrmax (t w) :
    exec (.vrmax t w) s = execVrmax t w s := rfl
@[simp] theorem exec_vrand (t w) :
    exec (.vrand t w) s = execVrand t w s := rfl
@[simp] theorem exec_vdmask (t w) :
    exec (.vdmask t w) s = execVdmask t w s := rfl
@[simp] theorem exec_vmsel (t w) :
    exec (.vmsel t w) s = execVmsel t w s := rfl
@[simp] theorem exec_vld (t w sram) :
    exec (.vld t w sram) s = execVld t w sram s := rfl
@[simp] theorem exec_vst (t w) :
    exec (.vst t w) s = execVst t w s := rfl
@[simp] theorem exec_vldbc (t w sram) :
    exec (.vldbc t w sram) s = execVldbc t w sram s := rfl
@[simp] theorem exec_vldq (t w) :
    exec (.vldq t w) s = execVldq t w s := rfl
@[simp] theorem exec_vldqResume (t) :
    exec (.vldqResume t) s = execVldqResume t s := rfl
@[simp] theorem exec_vfence (t w) :
    exec (.vfence t w) s = execVfence t w s := rfl
@[simp] theorem exec_vfenceDone (t) :
    exec (.vfenceDone t) s = execVfenceDone t s := rfl
@[simp] theorem exec_vfmt (t w sram) :
    exec (.vfmt t w sram) s = execVfmt t w sram s := rfl
@[simp] theorem exec_venc (t w) :
    exec (.venc t w) s = execVenc t w s := rfl
@[simp] theorem exec_vdec (t w sram) :
    exec (.vdec t w sram) s = execVdec t w sram s := rfl
@[simp] theorem exec_rowf (t w sram) :
    exec (.rowf t w sram) s = execRowf t w sram s := rfl
@[simp] theorem exec_rowr (t w sram) :
    exec (.rowr t w sram) s = execRowr t w sram s := rfl
@[simp] theorem exec_rowInstrDone (t) :
    exec (.rowInstrDone t) s = execRowInstrDone t s := rfl
@[simp] theorem exec_hint (t w) :
    exec (.hint t w) s = execHint t w s := rfl
@[simp] theorem exec_noticeDue (g) :
    exec (.noticeDue g) s = execNoticeDue g s := rfl
@[simp] theorem exec_boostStart (g) :
    exec (.boostStart g) s = execBoostStart g s := rfl
@[simp] theorem exec_boostEnd (g) :
    exec (.boostEnd g) s = execBoostEnd g s := rfl
@[simp] theorem exec_reduce (p retry fail) :
    exec (.reduce p retry fail) s = execReduce p retry fail s := rfl
@[simp] theorem exec_reduceEnd (p sum blocks idx flags) :
    exec (.reduceEnd p sum blocks idx flags) s = execReduceEnd p sum blocks idx flags s := rfl
@[simp] theorem exec_reduceResult (p code) :
    exec (.reduceResult p code) s = execReduceResult p code s := rfl
@[simp] theorem exec_creditReturn (tree ctl) :
    exec (.creditReturn tree ctl) s = execCreditReturn tree ctl s := rfl
@[simp] theorem exec_ledgerReport (p step attempt m) :
    exec (.ledgerReport p step attempt m) s = execLedgerReport p step attempt m s := rfl
@[simp] theorem exec_ledgerRepeatRequest (p step attempt cause) :
    exec (.ledgerRepeatRequest p step attempt cause) s = execLedgerRepeatRequest p step attempt cause s := rfl
@[simp] theorem exec_resultBad (p step attempt tag) :
    exec (.resultBad p step attempt tag) s = execResultBad p step attempt tag s := rfl
@[simp] theorem exec_beatTimer :
    exec (.beatTimer) s = execBeatTimer s := rfl
@[simp] theorem exec_ledgerBeat (p live size) :
    exec (.ledgerBeat p live size) s = execLedgerBeat p live size s := rfl
@[simp] theorem exec_beatTimeout :
    exec (.beatTimeout) s = execBeatTimeout s := rfl
@[simp] theorem exec_hardLimitExpiry :
    exec (.hardLimitExpiry) s = execHardLimitExpiry s := rfl
@[simp] theorem exec_standbyDecision (p o) :
    exec (.standbyDecision p o) s = execStandbyDecision p o s := rfl
@[simp] theorem exec_standbyAck (p o) :
    exec (.standbyAck p o) s = execStandbyAck p o s := rfl
@[simp] theorem exec_heartbeatTimer :
    exec (.heartbeatTimer) s = execHeartbeatTimer s := rfl
@[simp] theorem exec_heartbeat (p) :
    exec (.heartbeat p) s = execHeartbeat p s := rfl
@[simp] theorem exec_standbyTakeover :
    exec (.standbyTakeover) s = execStandbyTakeover s := rfl
@[simp] theorem exec_pageRetireDone (m) :
    exec (.pageRetireDone m) s = execPageRetireDone m s := rfl
@[simp] theorem exec_relayoutDone (n) :
    exec (.relayoutDone n) s = execRelayoutDone n s := rfl
@[simp] theorem exec_hbmInterfaceError (m cleared) :
    exec (.hbmInterfaceError m cleared) s = execHbmInterfaceError m cleared s := rfl
@[simp] theorem exec_channelRetrainDone (m ok) :
    exec (.channelRetrainDone m ok) s = execChannelRetrainDone m ok s := rfl
@[simp] theorem exec_scrubRead (m errs) :
    exec (.scrubRead m errs) s = execScrubRead m errs s := rfl
@[simp] theorem exec_hbmTempRead (n temp) :
    exec (.hbmTempRead n temp) s = execHbmTempRead n temp s := rfl
@[simp] theorem exec_hbmRefresh (m lost) :
    exec (.hbmRefresh m lost) s = execHbmRefresh m lost s := rfl
@[simp] theorem exec_heatEpoch :
    exec (.heatEpoch) s = execHeatEpoch s := rfl
@[simp] theorem exec_promote :
    exec (.promote) s = execPromote s := rfl
@[simp] theorem exec_promoteGranule (p) :
    exec (.promoteGranule p) s = execPromoteGranule p s := rfl
@[simp] theorem exec_promoteAbandon (p) :
    exec (.promoteAbandon p) s = execPromoteAbandon p s := rfl
@[simp] theorem exec_evict :
    exec (.evict) s = execEvict s := rfl
@[simp] theorem exec_evictDone (p) :
    exec (.evictDone p) s = execEvictDone p s := rfl
@[simp] theorem exec_evictAbandon (p) :
    exec (.evictAbandon p) s = execEvictAbandon p s := rfl
@[simp] theorem exec_writebackAge (p g) :
    exec (.writebackAge p g) s = execWritebackAge p g s := rfl
@[simp] theorem exec_writebackAck (num) :
    exec (.writebackAck num) s = execWritebackAck num s := rfl
@[simp] theorem exec_buddyForwardAck (num) :
    exec (.buddyForwardAck num) s = execBuddyForwardAck num s := rfl
@[simp] theorem exec_buddyTimeout :
    exec (.buddyTimeout) s = execBuddyTimeout s := rfl
@[simp] theorem exec_buddyPoison (src off) :
    exec (.buddyPoison src off) s = execBuddyPoison src off s := rfl
@[simp] theorem exec_reseedDone :
    exec (.reseedDone) s = execReseedDone s := rfl
@[simp] theorem exec_stream (t a) :
    exec (.stream t a) s = execStream t a s := rfl
@[simp] theorem exec_streamDataDone (t ix) :
    exec (.streamDataDone t ix) s = execStreamDataDone t ix s := rfl
@[simp] theorem exec_streamDeadline (t ix) :
    exec (.streamDeadline t ix) s = execStreamDeadline t ix s := rfl
@[simp] theorem exec_streamStaleCopyDone (t ix) :
    exec (.streamStaleCopyDone t ix) s = execStreamStaleCopyDone t ix s := rfl
@[simp] theorem exec_tlRead (p busy errs) :
    exec (.tlRead p busy errs) s = execTlRead p busy errs s := rfl
@[simp] theorem exec_tlWrite (p busy errs) :
    exec (.tlWrite p busy errs) s = execTlWrite p busy errs s := rfl
@[simp] theorem exec_tlAdd (p busy) :
    exec (.tlAdd p busy) s = execTlAdd p busy s := rfl
@[simp] theorem exec_tlMin (p busy) :
    exec (.tlMin p busy) s = execTlMin p busy s := rfl
@[simp] theorem exec_tlMax (p busy) :
    exec (.tlMax p busy) s = execTlMax p busy s := rfl
@[simp] theorem exec_tlCas (p busy) :
    exec (.tlCas p busy) s = execTlCas p busy s := rfl
@[simp] theorem exec_tlInval (p) :
    exec (.tlInval p) s = execTlInval p s := rfl
@[simp] theorem exec_tlResponse (p) :
    exec (.tlResponse p) s = execTlResponse p s := rfl
@[simp] theorem exec_rtoExpiry (num) :
    exec (.rtoExpiry num) s = execRtoExpiry num s := rfl
@[simp] theorem exec_reachTimeout (num) :
    exec (.reachTimeout num) s = execReachTimeout num s := rfl
@[simp] theorem exec_retryAfterExpiry (num) :
    exec (.retryAfterExpiry num) s = execRetryAfterExpiry num s := rfl
@[simp] theorem exec_tokenExpiry (token) :
    exec (.tokenExpiry token) s = execTokenExpiry token s := rfl
@[simp] theorem exec_combineFlush :
    exec (.combineFlush) s = execCombineFlush s := rfl
@[simp] theorem exec_copy (t a) :
    exec (.copy t a) s = execCopy t a s := rfl
@[simp] theorem exec_ctrWait (t a) :
    exec (.ctrWait t a) s = execCtrWait t a s := rfl
@[simp] theorem exec_fence (t a) :
    exec (.fence t a) s = execFence t a s := rfl
@[simp] theorem exec_remote (t a) :
    exec (.remote t a) s = execRemote t a s := rfl
@[simp] theorem exec_fabricCmdStart (t sram) :
    exec (.fabricCmdStart t sram) s = execFabricCmdStart t sram s := rfl
@[simp] theorem exec_copyDone (t ix engines spoiled) :
    exec (.copyDone t ix engines spoiled) s = execCopyDone t ix engines spoiled s := rfl
@[simp] theorem exec_ctrWaitDone (t ix) :
    exec (.ctrWaitDone t ix) s = execCtrWaitDone t ix s := rfl
@[simp] theorem exec_ctrWaitTimeout (t ix) :
    exec (.ctrWaitTimeout t ix) s = execCtrWaitTimeout t ix s := rfl
@[simp] theorem exec_fenceDone (t ix) :
    exec (.fenceDone t ix) s = execFenceDone t ix s := rfl
@[simp] theorem exec_remoteDone (t ix) :
    exec (.remoteDone t ix) s = execRemoteDone t ix s := rfl
@[simp] theorem exec_frameDiscard (p f) :
    exec (.frameDiscard p f) s = execFrameDiscard p f s := rfl
@[simp] theorem exec_arpRequest (p f sender target) :
    exec (.arpRequest p f sender target) s = execArpRequest p f sender target s := rfl
@[simp] theorem exec_neighborSolicitation (p f target) :
    exec (.neighborSolicitation p f target) s = execNeighborSolicitation p f target s := rfl
@[simp] theorem exec_icmpEchoRequest (p f body) :
    exec (.icmpEchoRequest p f body) s = execIcmpEchoRequest p f body s := rfl
@[simp] theorem exec_pfcReceive (p times freed) :
    exec (.pfcReceive p times freed) s = execPfcReceive p times freed s := rfl
@[simp] theorem exec_lldpReceive (p tlv len) :
    exec (.lldpReceive p tlv len) s = execLldpReceive p tlv len s := rfl
@[simp] theorem exec_lldpTransmit (p) :
    exec (.lldpTransmit p) s = execLldpTransmit p s := rfl
@[simp] theorem exec_lldpNeighborExpiry (p) :
    exec (.lldpNeighborExpiry p) s = execLldpNeighborExpiry p s := rfl
@[simp] theorem exec_linkBringUp (p sh2) :
    exec (.linkBringUp p sh2) s = execLinkBringUp p sh2 s := rfl
@[simp] theorem exec_linkTrained (p delay) :
    exec (.linkTrained p delay) s = execLinkTrained p delay s := rfl
@[simp] theorem exec_linkTrainFail (p) :
    exec (.linkTrainFail p) s = execLinkTrainFail p s := rfl
@[simp] theorem exec_laneLossOfLock (p l) :
    exec (.laneLossOfLock p l) s = execLaneLossOfLock p l s := rfl
@[simp] theorem exec_laneSerWindow (p l errs symbols words) :
    exec (.laneSerWindow p l errs symbols words) s = execLaneSerWindow p l errs symbols words s := rfl
@[simp] theorem exec_directReplay (p seq) :
    exec (.directReplay p seq) s = execDirectReplay p seq s := rfl
@[simp] theorem exec_ptpEventMessage (p m domain sub unicast len) :
    exec (.ptpEventMessage p m domain sub unicast len) s = execPtpEventMessage p m domain sub unicast len s := rfl
@[simp] theorem exec_timeSourceSilence :
    exec (.timeSourceSilence) s = execTimeSourceSilence s := rfl
@[simp] theorem exec_hello (port addr exch flags body) :
    exec (.hello port addr exch flags body) s = execHello port addr exch flags body s := rfl
@[simp] theorem exec_offerSigned :
    exec (.offerSigned) s = execOfferSigned s := rfl
@[simp] theorem exec_confirm (port addr exch flags body) :
    exec (.confirm port addr exch flags body) s = execConfirm port addr exch flags body s := rfl
@[simp] theorem exec_exchangeTimeout (exch) :
    exec (.exchangeTimeout exch) s = execExchangeTimeout exch s := rfl
@[simp] theorem exec_eventAck (h) :
    exec (.eventAck h) s = execEventAck h s := rfl
@[simp] theorem exec_eventRetransmit (session num) :
    exec (.eventRetransmit session num) s = execEventRetransmit session num s := rfl
@[simp] theorem exec_sessionIdle (session) :
    exec (.sessionIdle session) s = execSessionIdle session s := rfl
@[simp] theorem exec_decisionDeadline (num) :
    exec (.decisionDeadline num) s = execDecisionDeadline num s := rfl
@[simp] theorem exec_nop (h) :
    exec (.nop h) s = execNop h s := rfl
@[simp] theorem exec_sessionClose (h) :
    exec (.sessionClose h) s = execSessionClose h s := rfl
@[simp] theorem exec_eventSubscribe (h warning info) :
    exec (.eventSubscribe h warning info) s = execEventSubscribe h warning info s := rfl
@[simp] theorem exec_modeSet (h f assisted) :
    exec (.modeSet h f assisted) s = execModeSet h f assisted s := rfl
@[simp] theorem exec_repairDecide (h choice) :
    exec (.repairDecide h choice) s = execRepairDecide h choice s := rfl
@[simp] theorem exec_tierMove (h page evict) :
    exec (.tierMove h page evict) s = execTierMove h page evict s := rfl
@[simp] theorem exec_spareDecide (h unback) :
    exec (.spareDecide h unback) s = execSpareDecide h unback s := rfl
@[simp] theorem exec_splitDecide (h weights) :
    exec (.splitDecide h weights) s = execSplitDecide h weights s := rfl
@[simp] theorem exec_routeSet (h dev path) :
    exec (.routeSet h dev path) s = execRouteSet h dev path s := rfl
@[simp] theorem exec_leadDecide (h takeover) :
    exec (.leadDecide h takeover) s = execLeadDecide h takeover s := rfl
@[simp] theorem exec_logDrainDecide (h push) :
    exec (.logDrainDecide h push) s = execLogDrainDecide h push s := rfl
@[simp] theorem exec_resAcquire (h owner res) :
    exec (.resAcquire h owner res) s = execResAcquire h owner res s := rfl
@[simp] theorem exec_resRelease (h r) :
    exec (.resRelease h r) s = execResRelease h r s := rfl
@[simp] theorem exec_resReleaseDone (r) :
    exec (.resReleaseDone r) s = execResReleaseDone r s := rfl
@[simp] theorem exec_resQuery (h) :
    exec (.resQuery h) s = execResQuery h s := rfl
@[simp] theorem exec_gpioSet (h pay) :
    exec (.gpioSet h pay) s = execGpioSet h pay s := rfl
@[simp] theorem exec_gpioGet (h inputs) :
    exec (.gpioGet h inputs) s = execGpioGet h inputs s := rfl
@[simp] theorem exec_timerSet (h timer ns) :
    exec (.timerSet h timer ns) s = execTimerSet h timer ns s := rfl
@[simp] theorem exec_capSet (h pay) :
    exec (.capSet h pay) s = execCapSet h pay s := rfl
@[simp] theorem exec_siteBudget (h pay) :
    exec (.siteBudget h pay) s = execSiteBudget h pay s := rfl
@[simp] theorem exec_funcReinit (h pay) :
    exec (.funcReinit h pay) s = execFuncReinit h pay s := rfl
@[simp] theorem exec_funcReinitDone (session seq cols) :
    exec (.funcReinitDone session seq cols) s = execFuncReinitDone session seq cols s := rfl
@[simp] theorem exec_devReset (h sel) :
    exec (.devReset h sel) s = execDevReset h sel s := rfl
@[simp] theorem exec_trayPowerCycle (h) :
    exec (.trayPowerCycle h) s = execTrayPowerCycle h s := rfl
@[simp] theorem exec_powerCycleTimeout :
    exec (.powerCycleTimeout) s = execPowerCycleTimeout s := rfl
@[simp] theorem exec_memRead (h a n errs) :
    exec (.memRead h a n errs) s = execMemRead h a n errs s := rfl
@[simp] theorem exec_memWrite (h a data) :
    exec (.memWrite h a data) s = execMemWrite h a data s := rfl
@[simp] theorem exec_ctlRead (h o n) :
    exec (.ctlRead h o n) s = execCtlRead h o n s := rfl
@[simp] theorem exec_programLoad (h load tiles mb) :
    exec (.programLoad h load tiles mb) s = execProgramLoad h load tiles mb s := rfl
@[simp] theorem exec_tandemSet (h pay a u units) :
    exec (.tandemSet h pay a u units) s = execTandemSet h pay a u units s := rfl
@[simp] theorem exec_tagTableLoad (h load) :
    exec (.tagTableLoad h load) s = execTagTableLoad h load s := rfl
@[simp] theorem exec_pageTableLoad (h table frames base mirror list buddy) :
    exec (.pageTableLoad h table frames base mirror list buddy) s = execPageTableLoad h table frames base mirror list buddy s := rfl
@[simp] theorem exec_pageSet (h page entry) :
    exec (.pageSet h page entry) s = execPageSet h page entry s := rfl
@[simp] theorem exec_jobStart (h) :
    exec (.jobStart h) s = execJobStart h s := rfl
@[simp] theorem exec_jobStop (h) :
    exec (.jobStop h) s = execJobStop h s := rfl
@[simp] theorem exec_jobRetry (h) :
    exec (.jobRetry h) s = execJobRetry h s := rfl
@[simp] theorem exec_jobUnload (h) :
    exec (.jobUnload h) s = execJobUnload h s := rfl
@[simp] theorem exec_tierPin (h pages pin) :
    exec (.tierPin h pages pin) s = execTierPin h pages pin s := rfl
@[simp] theorem exec_tierFlush (h first count) :
    exec (.tierFlush h first count) s = execTierFlush h first count s := rfl
@[simp] theorem exec_tierBuddy (h dev pages) :
    exec (.tierBuddy h dev pages) s = execTierBuddy h dev pages s := rfl
@[simp] theorem exec_snapshotShip (h off len dst key step) :
    exec (.snapshotShip h off len dst key step) s = execSnapshotShip h off len dst key step s := rfl
@[simp] theorem exec_paramSet (h pay) :
    exec (.paramSet h pay) s = execParamSet h pay s := rfl
@[simp] theorem exec_logRead (h pay) :
    exec (.logRead h pay) s = execLogRead h pay s := rfl
@[simp] theorem exec_logAck (h pay) :
    exec (.logAck h pay) s = execLogAck h pay s := rfl
@[simp] theorem exec_info (h) :
    exec (.info h) s = execInfo h s := rfl
@[simp] theorem exec_periscopeSet (h pay) :
    exec (.periscopeSet h pay) s = execPeriscopeSet h pay s := rfl
@[simp] theorem exec_loupeReport (h pay) :
    exec (.loupeReport h pay) s = execLoupeReport h pay s := rfl
@[simp] theorem exec_loupePass2 (session seq) :
    exec (.loupePass2 session seq) s = execLoupePass2 session seq s := rfl
@[simp] theorem exec_quote (h pay) :
    exec (.quote h pay) s = execQuote h pay s := rfl
@[simp] theorem exec_quoteSigned :
    exec (.quoteSigned) s = execQuoteSigned s := rfl
@[simp] theorem exec_fwStage (h pay) :
    exec (.fwStage h pay) s = execFwStage h pay s := rfl
@[simp] theorem exec_fwStageDone (written) :
    exec (.fwStageDone written) s = execFwStageDone written s := rfl
@[simp] theorem exec_fwActivate (h pay sel) :
    exec (.fwActivate h pay sel) s = execFwActivate h pay sel s := rfl
@[simp] theorem exec_devNumberSet (h pay n) :
    exec (.devNumberSet h pay n) s = execDevNumberSet h pay n s := rfl
@[simp] theorem exec_teamLoad (h load t) :
    exec (.teamLoad h load t) s = execTeamLoad h load t s := rfl
@[simp] theorem exec_standbySet (h dev) :
    exec (.standbySet h dev) s = execStandbySet h dev s := rfl
@[simp] theorem exec_regionTableLoad (h pay load) :
    exec (.regionTableLoad h pay load) s = execRegionTableLoad h pay load s := rfl
@[simp] theorem exec_regionSet (h ix entry) :
    exec (.regionSet h ix entry) s = execRegionSet h ix entry s := rfl
@[simp] theorem exec_pathTableLoad (h pay load offset) :
    exec (.pathTableLoad h pay load offset) s = execPathTableLoad h pay load offset s := rfl
@[simp] theorem exec_groupLoad (h pay group root parent children) :
    exec (.groupLoad h pay group root parent children) s = execGroupLoad h pay group root parent children s := rfl
@[simp] theorem exec_portSet (h pay) :
    exec (.portSet h pay) s = execPortSet h pay s := rfl
@[simp] theorem exec_portReset (h p) :
    exec (.portReset h p) s = execPortReset h p s := rfl
@[simp] theorem exec_evcSourceAssert (x) :
    exec (.evcSourceAssert x) s = execEvcSourceAssert x s := rfl
@[simp] theorem exec_evcRouteWrite (n v) :
    exec (.evcRouteWrite n v) s = execEvcRouteWrite n v s := rfl
@[simp] theorem exec_corePowerDown (core) :
    exec (.corePowerDown core) s = execCorePowerDown core s := rfl
@[simp] theorem exec_coreWake (core ok) :
    exec (.coreWake core ok) s = execCoreWake core ok s := rfl
@[simp] theorem exec_vinSample (mv) :
    exec (.vinSample mv) s = execVinSample mv s := rfl
@[simp] theorem exec_powerSample (vin vaux regions) :
    exec (.powerSample vin vaux regions) s = execPowerSample vin vaux regions s := rfl
@[simp] theorem exec_phaseCheck (g faulted) :
    exec (.phaseCheck g faulted) s = execPhaseCheck g faulted s := rfl
@[simp] theorem exec_phaseReenable (g k) :
    exec (.phaseReenable g k) s = execPhaseReenable g k s := rfl
@[simp] theorem exec_reinInterval :
    exec (.reinInterval) s = execReinInterval s := rfl
@[simp] theorem exec_fastLimiter (amps) :
    exec (.fastLimiter amps) s = execFastLimiter amps s := rfl
@[simp] theorem exec_vlogicReport (g) :
    exec (.vlogicReport g) s = execVlogicReport g s := rfl
@[simp] theorem exec_clockChange :
    exec (.clockChange) s = execClockChange s := rfl
@[simp] theorem exec_droopTrip (g k) :
    exec (.droopTrip g k) s = execDroopTrip g k s := rfl
@[simp] theorem exec_droopClear (g k) :
    exec (.droopClear g k) s = execDroopClear g k s := rfl
@[simp] theorem exec_stretchReturn (d) :
    exec (.stretchReturn d) s = execStretchReturn d s := rfl
@[simp] theorem exec_vminRead (g) :
    exec (.vminRead g) s = execVminRead g s := rfl
@[simp] theorem exec_regionAdmitTest (g) :
    exec (.regionAdmitTest g) s = execRegionAdmitTest g s := rfl
@[simp] theorem exec_regionPowerOnDone (g) :
    exec (.regionPowerOnDone g) s = execRegionPowerOnDone g s := rfl
@[simp] theorem exec_regionDefer (g) :
    exec (.regionDefer g) s = execRegionDefer g s := rfl
@[simp] theorem exec_regionPowerOff (g) :
    exec (.regionPowerOff g) s = execRegionPowerOff g s := rfl
@[simp] theorem exec_vrAlertFall :
    exec (.vrAlertFall) s = execVrAlertFall s := rfl
@[simp] theorem exec_regAlert :
    exec (.regAlert) s = execRegAlert s := rfl
@[simp] theorem exec_alertForceEnd (gp3) :
    exec (.alertForceEnd gp3) s = execAlertForceEnd gp3 s := rfl
@[simp] theorem exec_budgetStale :
    exec (.budgetStale) s = execBudgetStale s := rfl
@[simp] theorem exec_sensorConversion (q a b) :
    exec (.sensorConversion q a b) s = execSensorConversion q a b s := rfl
@[simp] theorem exec_trayReport (rep) :
    exec (.trayReport rep) s = execTrayReport rep s := rfl
@[simp] theorem exec_trayRequestRefresh :
    exec (.trayRequestRefresh) s = execTrayRequestRefresh s := rfl
@[simp] theorem exec_coolantLimitUpdate :
    exec (.coolantLimitUpdate) s = execCoolantLimitUpdate s := rfl
@[simp] theorem exec_flowPulse :
    exec (.flowPulse) s = execFlowPulse s := rfl
@[simp] theorem exec_pumpFailInput (active) :
    exec (.pumpFailInput active) s = execPumpFailInput active s := rfl
@[simp] theorem exec_coolantRestore :
    exec (.coolantRestore) s = execCoolantRestore s := rfl
@[simp] theorem exec_thermalTrip (q) :
    exec (.thermalTrip q) s = execThermalTrip q s := rfl
@[simp] theorem exec_warmFloorCheck :
    exec (.warmFloorCheck) s = execWarmFloorCheck s := rfl
@[simp] theorem exec_idleActivityAdjust :
    exec (.idleActivityAdjust) s = execIdleActivityAdjust s := rfl
@[simp] theorem exec_refclkLoss :
    exec (.refclkLoss) s = execRefclkLoss s := rfl
@[simp] theorem exec_timeclkLoss :
    exec (.timeclkLoss) s = execTimeclkLoss s := rfl
@[simp] theorem exec_timeclkReturn :
    exec (.timeclkReturn) s = execTimeclkReturn s := rfl
@[simp] theorem exec_ppsInEdge (sub) :
    exec (.ppsInEdge sub) s = execPpsInEdge sub s := rfl
@[simp] theorem exec_ppsOutEdge :
    exec (.ppsOutEdge) s = execPpsOutEdge s := rfl
@[simp] theorem exec_logMove :
    exec (.logMove) s = execLogMove s := rfl
@[simp] theorem exec_dorlenWatchdog (core running) :
    exec (.dorlenWatchdog core running) s = execDorlenWatchdog core running s := rfl
@[simp] theorem exec_groomWatchdog :
    exec (.groomWatchdog) s = execGroomWatchdog s := rfl
@[simp] theorem exec_vauxUp :
    exec (.vauxUp) s = execVauxUp s := rfl
@[simp] theorem exec_vauxFall :
    exec (.vauxFall) s = execVauxFall s := rfl
@[simp] theorem exec_rstNAssert :
    exec (.rstNAssert) s = execRstNAssert s := rfl
@[simp] theorem exec_rstNDeassert (sel) :
    exec (.rstNDeassert sel) s = execRstNDeassert sel s := rfl
@[simp] theorem exec_pwrgdRise :
    exec (.pwrgdRise) s = execPwrgdRise s := rfl
@[simp] theorem exec_pwrgdFall :
    exec (.pwrgdFall) s = execPwrgdFall s := rfl
@[simp] theorem exec_imageCheckDone :
    exec (.imageCheckDone) s = execImageCheckDone s := rfl
@[simp] theorem exec_hbmTrainingDone (full cols) :
    exec (.hbmTrainingDone full cols) s = execHbmTrainingDone full cols s := rfl
@[simp] theorem exec_akReady :
    exec (.akReady) s = execAkReady s := rfl
@[simp] theorem exec_ready :
    exec (.ready) s = execReady s := rfl
@[simp] theorem exec_trialTimeout :
    exec (.trialTimeout) s = execTrialTimeout s := rfl
@[simp] theorem exec_opsClearTiles :
    exec (.opsClearTiles) s = execOpsClearTiles s := rfl
@[simp] theorem exec_opsClearDevice :
    exec (.opsClearDevice) s = execOpsClearDevice s := rfl
@[simp] theorem exec_periscopeTimer :
    exec (.periscopeTimer) s = execPeriscopeTimer s := rfl
@[simp] theorem exec_periscopePin (rising) :
    exec (.periscopePin rising) s = execPeriscopePin rising s := rfl
@[simp] theorem exec_registerWrite (o v) :
    exec (.registerWrite o v) s = execRegisterWrite o v s := rfl
@[simp] theorem exec_bootSelSample (sel) :
    exec (.bootSelSample sel) s = execBootSelSample sel s := rfl
@[simp] theorem exec_refclkReturn :
    exec (.refclkReturn) s = execRefclkReturn s := rfl
@[simp] theorem exec_vrAlertRise (gp3 status) :
    exec (.vrAlertRise gp3 status) s = execVrAlertRise gp3 status s := rfl
@[simp] theorem exec_ppsOutFall :
    exec (.ppsOutFall) s = execPpsOutFall s := rfl
@[simp] theorem exec_programLoadDone :
    exec (.programLoadDone) s = execProgramLoadDone s := rfl
@[simp] theorem exec_pageTableLoadDone :
    exec (.pageTableLoadDone) s = execPageTableLoadDone s := rfl
@[simp] theorem exec_leadAnnounce (p old) :
    exec (.leadAnnounce p old) s = execLeadAnnounce p old s := rfl
@[simp] theorem exec_jobOrderReceived (p o) :
    exec (.jobOrderReceived p o) s = execJobOrderReceived p o s := rfl
@[simp] theorem exec_logDrainRequest :
    exec (.logDrainRequest) s = execLogDrainRequest s := rfl
@[simp] theorem exec_halterMessageDiscard (port len) :
    exec (.halterMessageDiscard port len) s = execHalterMessageDiscard port len s := rfl
@[simp] theorem exec_halterUnknownCode (h code) :
    exec (.halterUnknownCode h code) s = execHalterUnknownCode h code s := rfl
@[simp] theorem exec_reservedOpcode (t vec op a) :
    exec (.reservedOpcode t vec op a) s = execReservedOpcode t vec op a s := rfl
@[simp] theorem exec_rowShadowDone (m) :
    exec (.rowShadowDone m) s = execRowShadowDone m s := rfl
@[simp] theorem exec_homeQueueRelease (ix) :
    exec (.homeQueueRelease ix) s = execHomeQueueRelease ix s := rfl
@[simp] theorem exec_uncorrectableCodeword (p l) :
    exec (.uncorrectableCodeword p l) s = execUncorrectableCodeword p l s := rfl
@[simp] theorem exec_directModeAck (p seq) :
    exec (.directModeAck p seq) s = execDirectModeAck p seq s := rfl
@[simp] theorem exec_pfcPauseExpiry (p c) :
    exec (.pfcPauseExpiry p c) s = execPfcPauseExpiry p c s := rfl
@[simp] theorem exec_ptpIntervalTimer (p w) :
    exec (.ptpIntervalTimer p w) s = execPtpIntervalTimer p w s := rfl
@[simp] theorem exec_traceRecordSent :
    exec (.traceRecordSent) s = execTraceRecordSent s := rfl

end Sys2Proof.Machine
end

