-- ==== Sys2Proof/Laws/Tbl.lean ====
section
/-! SUPPORT. Laws of the sparse tables: a read after a write, and that every operation keeps the canonical form. -/

namespace Sys2Proof.Machine

variable {α : Type} [DecidableEq α] {d : α}

/-! ### A read after a write -/

omit [DecidableEq α] in
theorem Tbl.get_erase_self : ∀ (t : Tbl α) (i : Nat), Tbl.get d (Tbl.erase t i) i = d
  | [], _ => rfl
  | (k, v) :: t, i => by
    by_cases h : k = i
    · simpa [Tbl.erase, h] using Tbl.get_erase_self t i
    · simpa [Tbl.erase, h, Tbl.get] using Tbl.get_erase_self t i

omit [DecidableEq α] in
theorem Tbl.get_erase_ne {i j : Nat} (n : j ≠ i) : ∀ t : Tbl α, Tbl.get d (Tbl.erase t i) j = Tbl.get d t j
  | [] => rfl
  | (k, v) :: t => by
    have ih := Tbl.get_erase_ne n t
    by_cases h : k = i
    · subst h
      simpa [Tbl.erase, Tbl.get, Ne.symm n] using ih
    · by_cases g : k = j
      · simp [Tbl.erase, h, Tbl.get, g, n]
      · simpa [Tbl.erase, h, Tbl.get, g] using ih

omit [DecidableEq α] in
theorem Tbl.get_insert_self {i : Nat} {v : α} : ∀ t : Tbl α, (∀ e ∈ t, e.1 ≠ i) → Tbl.get d (Tbl.insert i v t) i = v
  | [], _ => by simp [Tbl.insert, Tbl.get]
  | (k, w) :: t, h => by
    have hk : k ≠ i := h (k, w) (List.mem_cons_self ..)
    have ih := Tbl.get_insert_self (v := v) t fun e he => h e (List.mem_cons_of_mem _ he)
    unfold Tbl.insert
    split
    · simp [Tbl.get]
    · simpa [Tbl.get, hk] using ih

omit [DecidableEq α] in
theorem Tbl.get_insert_ne {i j : Nat} {v : α} (n : j ≠ i) : ∀ t : Tbl α, Tbl.get d (Tbl.insert i v t) j = Tbl.get d t j
  | [] => by simp [Tbl.insert, Tbl.get, Ne.symm n]
  | (k, w) :: t => by
    have ih := Tbl.get_insert_ne (v := v) n t
    rw [Tbl.insert]
    split
    · simp [Tbl.get, Ne.symm n]
    · simp [Tbl.get, ih]

omit [DecidableEq α] in
theorem Tbl.mem_erase {t : Tbl α} {i : Nat} : ∀ e ∈ Tbl.erase t i, e.1 ≠ i := by
  intro e h
  simpa [Tbl.erase] using (List.mem_filter.mp h).2

/-- A read of the key just written. -/
@[simp] theorem Tbl.get_set_self (t : Tbl α) (i : Nat) (v : α) : Tbl.get d (Tbl.set d t i v) i = v := by
  unfold Tbl.set
  split
  · subst_vars; exact Tbl.get_erase_self t i
  · exact Tbl.get_insert_self _ Tbl.mem_erase

/-- A read of another key. -/
theorem Tbl.get_set_ne {i j : Nat} (n : j ≠ i) (t : Tbl α) (v : α) : Tbl.get d (Tbl.set d t i v) j = Tbl.get d t j := by
  unfold Tbl.set
  split
  · exact Tbl.get_erase_ne n t
  · rw [Tbl.get_insert_ne n, Tbl.get_erase_ne n]

/-- A read of any key after a write. -/
theorem Tbl.get_set (t : Tbl α) (i j : Nat) (v : α) : Tbl.get d (Tbl.set d t i v) j = if j = i then v else Tbl.get d t j := by
  split
  · subst_vars; exact Tbl.get_set_self t _ v
  · exact Tbl.get_set_ne (by assumption) t v

@[simp] theorem Tbl.get_upd_self (t : Tbl α) (i : Nat) (f : α → α) : Tbl.get d (Tbl.upd d t i f) i = f (Tbl.get d t i) :=
  Tbl.get_set_self t i _

theorem Tbl.get_upd_ne {i j : Nat} (n : j ≠ i) (t : Tbl α) (f : α → α) : Tbl.get d (Tbl.upd d t i f) j = Tbl.get d t j :=
  Tbl.get_set_ne n t _

/-- A read of any key after a list is written from key `i` on. -/
theorem Tbl.get_setList : ∀ (vs : List α) (t : Tbl α) (i j : Nat),
    Tbl.get d (Tbl.setList d t i vs) j = if i ≤ j ∧ j < i + vs.length then vs.getD (j - i) d else Tbl.get d t j
  | [], t, i, j => by
    rw [if_neg (by simp only [List.length_nil]; omega)]; rfl
  | v :: vs, t, i, j => by
    have e : Tbl.setList d t i (v :: vs) = Tbl.setList d (Tbl.set d t i v) (i + 1) vs := rfl
    rw [e, Tbl.get_setList vs, Tbl.get_set, List.length_cons]
    by_cases h : j = i
    · subst h
      rw [if_neg (by omega), if_pos rfl, if_pos (by omega), Nat.sub_self]; rfl
    · by_cases g : i + 1 ≤ j ∧ j < i + 1 + vs.length
      · have e : j - i = (j - (i + 1)) + 1 := by omega
        rw [if_pos g, if_pos (by omega), e, List.getD_cons_succ]
      · rw [if_neg g, if_neg h, if_neg (by omega)]

omit [DecidableEq α] in
@[simp] theorem Tbl.getList_length (t : Tbl α) : ∀ (n i : Nat), (Tbl.getList d t i n).length = n
  | 0, _ => rfl
  | n + 1, i => by simp [Tbl.getList, Tbl.getList_length t n]

omit [DecidableEq α] in
/-- The list read is that of the single reads. -/
theorem Tbl.getList_eq (t : Tbl α) : ∀ (n i : Nat), Tbl.getList d t i n = (List.range n).map fun k => Tbl.get d t (i + k)
  | 0, _ => rfl
  | n + 1, i => by
    rw [List.range_succ_eq_map]
    simp [Tbl.getList, Tbl.getList_eq t n, Nat.add_assoc, Nat.add_comm 1]

/-- A read of the whole list just written. -/
theorem Tbl.getList_setList (vs : List α) (t : Tbl α) (i : Nat) : Tbl.getList d (Tbl.setList d t i vs) i vs.length = vs := by
  rw [Tbl.getList_eq]
  apply List.ext_getElem
  · simp
  · intro k h h'
    simp only [List.getElem_map, List.getElem_range, Tbl.get_setList]
    rw [if_pos (by simpa using h')]
    simp [List.getD_eq_getElem?_getD, h']

/-- A read of a list that the write does not meet. -/
theorem Tbl.getList_setList_ne (vs : List α) (t : Tbl α) (i j n : Nat) (h : j + n ≤ i ∨ i + vs.length ≤ j) :
    Tbl.getList d (Tbl.setList d t i vs) j n = Tbl.getList d t j n := by
  rw [Tbl.getList_eq, Tbl.getList_eq]
  apply List.map_congr_left
  intro k hk
  rw [Tbl.get_setList, if_neg (by have := List.mem_range.mp hk; omega)]

/-! ### The canonical form -/

theorem Tbl.wfFrom_mono : ∀ {t : Tbl α} {lo lo' : Nat}, lo' ≤ lo → Tbl.wfFrom d lo t = true → Tbl.wfFrom d lo' t = true
  | [], _, _, _, _ => rfl
  | (k, v) :: t, lo, lo', h, hw => by
    simp only [Tbl.wfFrom, Bool.and_eq_true, decide_eq_true_eq] at hw ⊢
    exact ⟨⟨by omega, hw.1.2⟩, hw.2⟩

theorem Tbl.wfFrom_filter (p : Nat × α → Bool) : ∀ {t : Tbl α} {lo : Nat}, Tbl.wfFrom d lo t = true →
    Tbl.wfFrom d lo (t.filter p) = true
  | [], _, _ => rfl
  | (k, v) :: t, lo, h => by
    simp only [Tbl.wfFrom, Bool.and_eq_true, decide_eq_true_eq] at h
    have ih := Tbl.wfFrom_filter p h.2
    simp only [List.filter_cons]
    split
    · simp only [Tbl.wfFrom, Bool.and_eq_true, decide_eq_true_eq]; exact ⟨h.1, ih⟩
    · exact Tbl.wfFrom_mono (by omega) ih

theorem Tbl.wfFrom_insert {i : Nat} {v : α} (hv : v ≠ d) : ∀ {t : Tbl α} {lo : Nat}, lo ≤ i → (∀ e ∈ t, e.1 ≠ i) →
    Tbl.wfFrom d lo t = true → Tbl.wfFrom d lo (Tbl.insert i v t) = true
  | [], lo, h, _, _ => by simp [Tbl.insert, Tbl.wfFrom, h, hv]
  | (k, w) :: t, lo, h, n, hw => by
    have hk : k ≠ i := n (k, w) (List.mem_cons_self ..)
    simp only [Tbl.wfFrom, Bool.and_eq_true, decide_eq_true_eq] at hw
    unfold Tbl.insert
    split
    · simp only [Tbl.wfFrom, Bool.and_eq_true, decide_eq_true_eq]
      exact ⟨⟨h, hv⟩, ⟨by omega, hw.1.2⟩, hw.2⟩
    · simp only [Tbl.wfFrom, Bool.and_eq_true, decide_eq_true_eq]
      exact ⟨hw.1, Tbl.wfFrom_insert hv (by omega) (fun e he => n e (List.mem_cons_of_mem _ he)) hw.2⟩

theorem wf_set {t : Tbl α} {i : Nat} {v : α} (h : Tbl.wf d t = true) : Tbl.wf d (Tbl.set d t i v) = true := by
  unfold Tbl.set
  split
  · exact Tbl.wfFrom_filter _ h
  · exact Tbl.wfFrom_insert (by assumption) (Nat.zero_le _) Tbl.mem_erase (Tbl.wfFrom_filter _ h)

theorem wf_upd {t : Tbl α} {i : Nat} {f : α → α} (h : Tbl.wf d t = true) : Tbl.wf d (Tbl.upd d t i f) = true := wf_set h

theorem wf_setList : ∀ {vs : List α} {t : Tbl α} {i : Nat}, Tbl.wf d t = true → Tbl.wf d (Tbl.setList d t i vs) = true
  | [], _, _, h => h
  | _ :: vs, _, _, h => wf_setList (vs := vs) (wf_set h)

theorem wf_clear {t : Tbl α} {lo hi : Nat} (h : Tbl.wf d t = true) : Tbl.wf d (Tbl.clear t lo hi) = true :=
  Tbl.wfFrom_filter _ h

theorem wf_foldl {β : Type} {f : Tbl α → β → Tbl α} (hf : ∀ t x, Tbl.wf d t = true → Tbl.wf d (f t x) = true) :
    ∀ (l : List β) {t : Tbl α}, Tbl.wf d t = true → Tbl.wf d (l.foldl f t) = true
  | [], _, h => h
  | x :: l, _, h => wf_foldl hf l (hf _ x h)

theorem wf_copy {t : Tbl α} {src dst n : Nat} (h : Tbl.wf d t = true) : Tbl.wf d (Tbl.copy d t src dst n) = true :=
  wf_foldl (fun _ _ => wf_set) _ (wf_clear h)

end Sys2Proof.Machine
end

