-- ==== Sys2Proof/Laws/Keep.lean ====
section
/-! SUPPORT. The relation `Kept`, under which each operation of the model is shown to keep the shape of a state and what no
command takes back (Safety.lean), and its rules for folds, choices and record updates. -/

namespace Sys2Proof.Machine

variable {q : Prop} {b s : State}

/-- What of a state the claims of `Shape` and `Keeps` look at. -/
structure Kp where
  pending : List Instr
  floor : Nat
  owner : Option (Bytes × Bytes)
  slots : List Nat
  cols : List (Nat × Nat)
  bytes : Bool
  umeta : Bool
  job : Nat
  st : Nat
  ports : Nat
  map : Nat
  regs : Nat
  res : Nat
  evc : Nat
  cores : Nat
  sites : Nat
  pregs : Nat
  dies : Nat
  stk : Nat

/-- What of a state the claims of `Shape` and `Keeps` look at. -/
def State.kp (s : State) : Kp :=
  { pending := s.pending, floor := s.flash.svnFloor, owner := s.flash.owner, slots := s.flash.slots, cols := s.flash.cols
    bytes := Tbl.wf 0 s.hbm.bytes, umeta := Tbl.wf {} s.hbm.unitMeta, job := s.hal.job, st := s.step.st
    ports := s.ports.length, map := s.pkg.map.length, regs := s.pkg.regions.length, res := s.hal.res.length
    evc := s.hal.evc.length, cores := s.hal.cores.length, sites := s.heat.sites.length
    pregs := s.pwr.regions.length, dies := s.pwr.dies.length, stk := s.hbm.stk.length }

/-- What `Keeps` and `Shape` say of those parts. -/
structure Keep (q : Prop) (b : State) (k : Kp) : Prop where
  pending : k.pending = b.pending
  floor : b.flash.svnFloor ≤ k.floor
  owner : b.boot.bootSel ≠ 2 → k.owner = b.flash.owner
  slots : b.flash.slots ⊆ k.slots
  cols : b.flash.cols ⊆ k.cols
  shape : q → k.bytes = true ∧ k.umeta = true ∧ k.job < 4 ∧ k.st < 5 ∧ k.ports = 18 ∧ k.map = 192 ∧ k.regs = 16 ∧ k.res = 20 ∧
    k.evc = 512 ∧ k.cores = 5 ∧ k.sites = 214 ∧ k.pregs = 16 ∧ k.dies = 2 ∧ k.stk = 6

/-- State `s` keeps what `b` had, and, under `q`, has the shape. -/
def Kept (q : Prop) (b s : State) : Prop := Keep q b s.kp
/-- The answer of a command, where it is a next state, keeps `b`. -/
structure OutKept (q : Prop) (b : State) (o : Out) : Prop where
  ok : ∀ t, o = .next t → Kept q b t

theorem out_next {s : State} (h : Kept q b s) : OutKept q b (.next s) := ⟨by intro t e; cases e; exact h⟩
theorem out_fault (r) : OutKept q b (.fault r) := ⟨by intro t e; cases e⟩
theorem out_refused (r) : OutKept q b (.refused r) := ⟨by intro t e; cases e⟩

theorem foldl_kept {α : Type} {f : State → α → State} (hf : ∀ a x, Kept q b a → Kept q b (f a x)) :
    ∀ (l : List α) {s : State}, Kept q b s → Kept q b (l.foldl f s)
  | [], _, h => h
  | x :: l, _, h => foldl_kept hf l (hf _ x h)

theorem foldl_kept1 {α β : Type} {f : State × β → α → State × β} (hf : ∀ a x, Kept q b a.1 → Kept q b (f a x).1) :
    ∀ (l : List α) {s : State × β}, Kept q b s.1 → Kept q b (l.foldl f s).1
  | [], _, h => h
  | x :: l, _, h => foldl_kept1 hf l (hf _ x h)
theorem foldl_kept2 {α β : Type} {f : β × State → α → β × State} (hf : ∀ a x, Kept q b a.2 → Kept q b (f a x).2) :
    ∀ (l : List α) {s : β × State}, Kept q b s.2 → Kept q b (l.foldl f s).2
  | [], _, h => h
  | x :: l, _, h => foldl_kept2 hf l (hf _ x h)

theorem ite_kept {c : Prop} [Decidable c] {x y : State} (hx : c → Kept q b x) (hy : ¬ c → Kept q b y) :
    Kept q b (if c then x else y) := by split <;> simp_all
theorem ite_out {c : Prop} [Decidable c] {x y : Out} (hx : c → OutKept q b x) (hy : ¬ c → OutKept q b y) :
    OutKept q b (if c then x else y) := by split <;> simp_all

@[simp] theorem setAt_length {α : Type} (l : List α) (i : Nat) (f : α → α) : (setAt l i f).length = l.length := by
  simp [setAt]

/-- A change of Halter that keeps its populations and a legal job state. -/
structure HalOk (g h : Halter) : Prop where
  job : g.job < 4 → h.job < 4
  res : g.res.length = 20 → h.res.length = 20
  evc : g.evc.length = 512 → h.evc.length = 512
  cores : g.cores.length = 5 → h.cores.length = 5
/-- A change of HBM that keeps its canonical forms. -/
structure HbmOk (g h : Hbm) : Prop where
  bytes : Tbl.wf 0 g.bytes = true → Tbl.wf 0 h.bytes = true
  umeta : Tbl.wf {} g.unitMeta = true → Tbl.wf {} h.unitMeta = true
  stk : g.stk.length = 6 → h.stk.length = 6
/-- A change of the power state that keeps its populations. -/
structure PwrOk (g h : Power) : Prop where
  regs : g.regions.length = 16 → h.regions.length = 16
  dies : g.dies.length = 2 → h.dies.length = 2
/-- A change of the thermal state that keeps its population. -/
structure HeatOk (g h : Heat) : Prop where
  sites : g.sites.length = 214 → h.sites.length = 214
/-- A change of the package that keeps its populations. -/
structure PkgOk (g h : Package) : Prop where
  map : g.map.length = 192 → h.map.length = 192
  regs : g.regions.length = 16 → h.regions.length = 16
/-- A change of the step that keeps a legal state. -/
structure StepOk (g h : Step) : Prop where
  st : g.st < 5 → h.st < 5
/-- A change of flash that takes back nothing that `b` had. -/
structure FlashOk (b : State) (g h : Flash) : Prop where
  floor : b.flash.svnFloor ≤ g.svnFloor → b.flash.svnFloor ≤ h.svnFloor
  owner : (b.boot.bootSel ≠ 2 → g.owner = b.flash.owner) → b.boot.bootSel ≠ 2 → h.owner = b.flash.owner
  slots : b.flash.slots ⊆ g.slots → b.flash.slots ⊆ h.slots
  cols : b.flash.cols ⊆ g.cols → b.flash.cols ⊆ h.cols

theorem HalOk.rfl {g : Halter} : HalOk g g := ⟨id, id, id, id⟩
theorem HbmOk.rfl {g : Hbm} : HbmOk g g := ⟨id, id, id⟩
theorem PwrOk.rfl {g : Power} : PwrOk g g := ⟨id, id⟩
theorem HeatOk.rfl {g : Heat} : HeatOk g g := ⟨id⟩
theorem PkgOk.rfl {g : Package} : PkgOk g g := ⟨id, id⟩
theorem StepOk.rfl {g : Step} : StepOk g g := ⟨id⟩
theorem FlashOk.rfl {c : State} {g : Flash} : FlashOk c g g := ⟨id, id, id, id⟩

theorem set_any {f pk t e h bo fm ti hb tr fa st re ob pw he po se tw fi sd ge} (w : Kept q b s)
    (of : FlashOk b s.flash f) (ok : PkgOk s.pkg pk) (oh : HalOk s.hal h) (om : HbmOk s.hbm hb)
    (os : StepOk s.step st) (op : PwrOk s.pwr pw) (oe : HeatOk s.heat he) (oo : s.ports.length = 18 → po.length = 18) :
    Kept q b (State.mk s.pending f pk t e h bo fm ti hb tr fa st re ob pw he po se tw fi sd ge) :=
  ⟨w.1, of.1 w.2, of.2 w.3, of.3 w.4, of.4 w.5, fun hq => let ⟨a,c,d,e,f,g,i,j,k,l,m,n,p,r⟩ := w.6 hq
    ⟨om.1 a, om.2 c, oh.1 d, os.1 e, oo f, ok.1 g, ok.2 i, oh.2 j, oh.3 k, oh.4 l, oe.1 m, op.1 n, op.2 p, om.3 r⟩⟩
theorem on_hal {f : Halter → Halter} (h : Kept q b s) (o : HalOk s.hal (f s.hal)) : Kept q b (s.onHal f) :=
  set_any h .rfl .rfl o .rfl .rfl .rfl .rfl id
theorem on_pwr {f : Power → Power} (h : Kept q b s) (o : PwrOk s.pwr (f s.pwr)) : Kept q b (s.onPwr f) :=
  set_any h .rfl .rfl .rfl .rfl .rfl o .rfl id
theorem on_heat {f : Heat → Heat} (h : Kept q b s) (o : HeatOk s.heat (f s.heat)) : Kept q b (s.onHeat f) :=
  set_any h .rfl .rfl .rfl .rfl .rfl .rfl o id
theorem on_step {f : Step → Step} (h : Kept q b s) (o : StepOk s.step (f s.step)) : Kept q b (s.onStep f) :=
  set_any h .rfl .rfl .rfl .rfl o .rfl .rfl id
theorem set_job {x : Nat} (h : Kept q b s) (o : x < 4) : Kept q b (s.setJob x) :=
  set_any h .rfl .rfl ⟨fun _ => o, id, id, id⟩ .rfl .rfl .rfl .rfl id
/-- `Kept` of a state written out, by the parts that it looks at. -/
def MKept (q : Prop) (b : State) (p : List Instr) (f : Flash) (pk : Package) (h : Halter) (hb : Hbm) (st : Step) (pw : Power)
    (he : Heat) (po : List Port) : Prop :=
  Kept q b { pending := p, flash := f, pkg := pk, hal := h, hbm := hb, step := st, pwr := pw, heat := he, ports := po }
theorem kept_mk {p f pk t e h bo fm ti hb tr fa st re ob pw he po se tw fi sd ge} :
    Kept q b (State.mk p f pk t e h bo fm ti hb tr fa st re ob pw he po se tw fi sd ge) = MKept q b p f pk h hb st pw he po := rfl
theorem set_mk {f pk h hb st pw he po} (w : Kept q b s)
    (of : FlashOk b s.flash f) (ok : PkgOk s.pkg pk) (oh : HalOk s.hal h) (om : HbmOk s.hbm hb)
    (os : StepOk s.step st) (op : PwrOk s.pwr pw) (oe : HeatOk s.heat he) (oo : s.ports.length = 18 → po.length = 18) :
    MKept q b s.pending f pk h hb st pw he po := by
  rw [← @kept_mk q b s.pending f pk s.time s.err h s.boot s.fmt s.tiles hb s.tier s.fab st s.red s.obs pw he po s.sent s.txWait s.freeIx s.seeds s.gens]
  exact set_any w of ok oh om os op oe oo

theorem foldl_kept22 {α β γ : Type} {f : β × γ × State → α → β × γ × State} (hf : ∀ a x, Kept q b a.2.2 → Kept q b (f a x).2.2) :
    ∀ (l : List α) {s : β × γ × State}, Kept q b s.2.2 → Kept q b (l.foldl f s).2.2
  | [], _, h => h
  | x :: l, _, h => foldl_kept22 hf l (hf _ x h)
theorem foldl_kept21 {α β γ : Type} {f : β × State × γ → α → β × State × γ} (hf : ∀ a x, Kept q b a.2.1 → Kept q b (f a x).2.1) :
    ∀ (l : List α) {s : β × State × γ}, Kept q b s.2.1 → Kept q b (l.foldl f s).2.1
  | [], _, h => h
  | x :: l, _, h => foldl_kept21 hf l (hf _ x h)

/-- The state, where there is one, keeps `b`. -/
structure OptKept (q : Prop) (b : State) (o : Option State) : Prop where
  ok : ∀ t, o = some t → Kept q b t
theorem opt_some {s : State} (h : Kept q b s) : OptKept q b (some s) := ⟨by intro t e; cases e; exact h⟩
theorem opt_none : OptKept q b none := ⟨by intro t e; cases e⟩
theorem sub_app {α : Type} {l m n : List α} (h : l ⊆ m) : l ⊆ m ++ n := fun _ hx => List.mem_append_left _ (h hx)
theorem foldl_run {α : Type} (f : MmRun → α → MmRun) (hf : ∀ a x, Kept q b a.s → Kept q b (f a x).s) :
    ∀ (l : List α) {r : MmRun}, Kept q b r.s → Kept q b (l.foldl f r).s
  | [], _, h => h
  | x :: l, _, h => foldl_run f hf l (hf _ x h)
theorem pkgOk_reset (g : Package) (l : List Nat) : PkgOk g (mapAtReset l) := ⟨fun _ => by simp [mapAtReset], fun _ => by simp [mapAtReset]⟩
theorem halOk_reset (g : Halter) (f : Flash) : HalOk g (halterAtReset f) :=
  ⟨fun _ => Nat.zero_lt_succ _, fun _ => by simp [halterAtReset, resAtReset], fun _ => by simp [halterAtReset, evcAtReset], fun _ => by simp [halterAtReset]⟩
theorem hbmOk_reset (g : Hbm) : HbmOk g {} := ⟨fun _ => rfl, fun _ => rfl, fun _ => rfl⟩
theorem raw_obs {x} (h : Kept q b s) : Kept q b { s with obs := x } := h

/-- `Kept` says what `Keeps` and `Shape` say. -/
theorem kept_iff : Kept q b s ↔ State.Keeps b s ∧ (q → s.Shape) := by
  constructor
  · intro h
    refine ⟨⟨h.1, h.2, h.3, h.4, h.5⟩, fun w => ?_⟩
    obtain ⟨a1, a2, a3, a4, a5, a6, a7, a8, a9, a10, a11, a12, a13, a14⟩ := h.6 w
    exact ⟨a1, a2, a3, a4, a5, a6, a7, a8, a9, a10, a11, a12, a13, a14⟩
  · rintro ⟨h, w⟩
    exact ⟨h.1, h.2, h.3, h.4, h.5, fun hq =>
      let a := w hq
      ⟨a.1, a.2, a.3, a.4, a.5, a.6, a.7, a.8, a.9, a.10, a.11, a.12, a.13, a.14⟩⟩

/-- A state keeps what it had. -/
theorem kept_refl (h : q → s.Shape) : Kept q s s :=
  kept_iff.mpr ⟨⟨rfl, Nat.le_refl _, fun _ => rfl, fun _ h => h, fun _ h => h⟩, h⟩

end Sys2Proof.Machine
end

