-- ==== Sys2Proof/Laws/Keep1.lean ====
section
/-! SUPPORT. `Kept` for the operations and commands of the model, in the order in which they use each other: part 1 of 7. -/

namespace Sys2Proof.Machine

set_option linter.unusedSimpArgs false
set_option linter.unusedTactic false
set_option linter.unreachableTactic false

variable {q : Prop} {b : State}

theorem onFab_kept {x0 : State} (x1 : Fabric → Fabric) (h0 : Kept q b x0) : Kept q b (@State.onFab x0 x1) := by
  unfold State.onFab
  try dsimp only
  with_reducible repeat' first | assumption | split | intro _ | apply foldl_kept | simp only [kept_mk] | exact set_mk (by assumption) .rfl .rfl .rfl .rfl .rfl .rfl .rfl id | refine set_mk ?_ .rfl .rfl .rfl .rfl .rfl .rfl .rfl id

theorem heatEntry_kept {x0 : State} (x1 : Nat) (h0 : Kept q b x0) : Kept q b (@State.heatEntry x0 x1) := by
  unfold State.heatEntry
  try dsimp only
  with_reducible repeat' first | assumption | split | intro _ | apply foldl_kept | simp only [kept_mk] | exact set_mk (by assumption) .rfl .rfl .rfl .rfl .rfl .rfl .rfl id | refine set_mk ?_ .rfl .rfl .rfl .rfl .rfl .rfl .rfl id

theorem warm_kept {x0 : State} (x1 : Nat) (x2 : Nat) (h0 : Kept q b x0) : Kept q b (@State.warm x0 x1 x2) := by
  unfold State.warm
  try dsimp only
  with_reducible repeat' first | assumption | apply heatEntry_kept | split | intro _ | apply foldl_kept | simp only [kept_mk] | exact set_mk (by assumption) .rfl .rfl .rfl .rfl .rfl .rfl .rfl id | refine set_mk ?_ .rfl .rfl .rfl .rfl .rfl .rfl .rfl id

theorem cleanCell_kept {x0 : State} (x1 : Nat) (h0 : Kept q b x0) : Kept q b (@State.cleanCell x0 x1) := by
  unfold State.cleanCell
  try dsimp only
  repeat' (first
    | with_reducible assumption
    | with_reducible apply opt_some
    | with_reducible apply opt_none
    | with_reducible apply sub_app
    | with_reducible apply out_next
    | with_reducible apply out_fault
    | with_reducible apply out_refused
    | with_reducible apply foldl_kept
    | with_reducible apply foldl_kept1
    | with_reducible apply foldl_kept2
    | with_reducible apply foldl_kept21
    | with_reducible apply foldl_kept22
    | with_reducible exact HalOk.rfl
    | with_reducible exact HbmOk.rfl
    | with_reducible exact PwrOk.rfl
    | with_reducible exact HeatOk.rfl
    | with_reducible exact PkgOk.rfl
    | with_reducible exact StepOk.rfl
    | with_reducible exact FlashOk.rfl
    | with_reducible exact id
    | with_reducible refine HalOk.mk ?_ ?_ ?_ ?_
    | with_reducible refine HbmOk.mk ?_ ?_ ?_
    | with_reducible refine PwrOk.mk ?_ ?_
    | with_reducible refine HeatOk.mk ?_
    | with_reducible refine PkgOk.mk ?_ ?_
    | with_reducible refine StepOk.mk ?_
    | with_reducible refine FlashOk.mk ?_ ?_ ?_ ?_
    | exact id
    | with_reducible apply wf_upd
    | with_reducible apply wf_setList
    | with_reducible apply wf_copy
    | with_reducible apply wf_clear
    | decide
    | (simp only [setAt_length, List.length_map, List.length_zipIdx]; exact id)
    | split
    | intro _
    | dsimp only
    | with_reducible apply wf_foldl
    | with_reducible apply wf_set
    | simp only [kept_mk]
    | with_reducible refine set_mk ?_ ?_ ?_ ?_ ?_ ?_ ?_ ?_ ?_)

theorem onUnit_kept {x0 : State} (x1 : Nat) (x2 : UnitMeta → UnitMeta) (h0 : Kept q b x0) : Kept q b (@State.onUnit x0 x1 x2) := by
  unfold State.onUnit
  try dsimp only
  repeat' (first
    | with_reducible assumption
    | with_reducible apply opt_some
    | with_reducible apply opt_none
    | with_reducible apply sub_app
    | with_reducible apply out_next
    | with_reducible apply out_fault
    | with_reducible apply out_refused
    | with_reducible apply foldl_kept
    | with_reducible apply foldl_kept1
    | with_reducible apply foldl_kept2
    | with_reducible apply foldl_kept21
    | with_reducible apply foldl_kept22
    | with_reducible exact HalOk.rfl
    | with_reducible exact HbmOk.rfl
    | with_reducible exact PwrOk.rfl
    | with_reducible exact HeatOk.rfl
    | with_reducible exact PkgOk.rfl
    | with_reducible exact StepOk.rfl
    | with_reducible exact FlashOk.rfl
    | with_reducible exact id
    | with_reducible refine HalOk.mk ?_ ?_ ?_ ?_
    | with_reducible refine HbmOk.mk ?_ ?_ ?_
    | with_reducible refine PwrOk.mk ?_ ?_
    | with_reducible refine HeatOk.mk ?_
    | with_reducible refine PkgOk.mk ?_ ?_
    | with_reducible refine StepOk.mk ?_
    | with_reducible refine FlashOk.mk ?_ ?_ ?_ ?_
    | exact id
    | with_reducible apply wf_upd
    | with_reducible apply wf_setList
    | with_reducible apply wf_copy
    | with_reducible apply wf_clear
    | decide
    | (simp only [setAt_length, List.length_map, List.length_zipIdx]; exact id)
    | split
    | intro _
    | dsimp only
    | with_reducible apply wf_foldl
    | with_reducible apply wf_set
    | simp only [kept_mk]
    | with_reducible refine set_mk ?_ ?_ ?_ ?_ ?_ ?_ ?_ ?_ ?_)

theorem putCode_kept {x0 : State} (x1 : Nat) (x2 : List Nat) (x3 : Bool) (h0 : Kept q b x0) : Kept q b (@State.putCode x0 x1 x2 x3) := by
  unfold State.putCode
  try dsimp only
  repeat' (first
    | with_reducible assumption
    | with_reducible apply onUnit_kept
    | with_reducible apply opt_some
    | with_reducible apply opt_none
    | with_reducible apply sub_app
    | with_reducible apply out_next
    | with_reducible apply out_fault
    | with_reducible apply out_refused
    | with_reducible apply foldl_kept
    | with_reducible apply foldl_kept1
    | with_reducible apply foldl_kept2
    | with_reducible apply foldl_kept21
    | with_reducible apply foldl_kept22
    | with_reducible exact HalOk.rfl
    | with_reducible exact HbmOk.rfl
    | with_reducible exact PwrOk.rfl
    | with_reducible exact HeatOk.rfl
    | with_reducible exact PkgOk.rfl
    | with_reducible exact StepOk.rfl
    | with_reducible exact FlashOk.rfl
    | with_reducible exact id
    | with_reducible refine HalOk.mk ?_ ?_ ?_ ?_
    | with_reducible refine HbmOk.mk ?_ ?_ ?_
    | with_reducible refine PwrOk.mk ?_ ?_
    | with_reducible refine HeatOk.mk ?_
    | with_reducible refine PkgOk.mk ?_ ?_
    | with_reducible refine StepOk.mk ?_
    | with_reducible refine FlashOk.mk ?_ ?_ ?_ ?_
    | exact id
    | with_reducible apply wf_upd
    | with_reducible apply wf_setList
    | with_reducible apply wf_copy
    | with_reducible apply wf_clear
    | decide
    | (simp only [setAt_length, List.length_map, List.length_zipIdx]; exact id)
    | split
    | intro _
    | dsimp only
    | with_reducible apply wf_foldl
    | with_reducible apply wf_set
    | simp only [kept_mk]
    | with_reducible refine set_mk ?_ ?_ ?_ ?_ ?_ ?_ ?_ ?_ ?_)

theorem onChan_kept {x0 : State} (x1 : Nat) (x2 : Chan → Chan) (h0 : Kept q b x0) : Kept q b (@State.onChan x0 x1 x2) := by
  unfold State.onChan
  try dsimp only
  repeat' (first
    | with_reducible assumption
    | with_reducible apply opt_some
    | with_reducible apply opt_none
    | with_reducible apply sub_app
    | with_reducible apply out_next
    | with_reducible apply out_fault
    | with_reducible apply out_refused
    | with_reducible apply foldl_kept
    | with_reducible apply foldl_kept1
    | with_reducible apply foldl_kept2
    | with_reducible apply foldl_kept21
    | with_reducible apply foldl_kept22
    | with_reducible exact HalOk.rfl
    | with_reducible exact HbmOk.rfl
    | with_reducible exact PwrOk.rfl
    | with_reducible exact HeatOk.rfl
    | with_reducible exact PkgOk.rfl
    | with_reducible exact StepOk.rfl
    | with_reducible exact FlashOk.rfl
    | with_reducible exact id
    | with_reducible refine HalOk.mk ?_ ?_ ?_ ?_
    | with_reducible refine HbmOk.mk ?_ ?_ ?_
    | with_reducible refine PwrOk.mk ?_ ?_
    | with_reducible refine HeatOk.mk ?_
    | with_reducible refine PkgOk.mk ?_ ?_
    | with_reducible refine StepOk.mk ?_
    | with_reducible refine FlashOk.mk ?_ ?_ ?_ ?_
    | exact id
    | with_reducible apply wf_upd
    | with_reducible apply wf_setList
    | with_reducible apply wf_copy
    | with_reducible apply wf_clear
    | decide
    | (simp only [setAt_length, List.length_map, List.length_zipIdx]; exact id)
    | split
    | intro _
    | dsimp only
    | with_reducible apply wf_foldl
    | with_reducible apply wf_set
    | simp only [kept_mk]
    | with_reducible refine set_mk ?_ ?_ ?_ ?_ ?_ ?_ ?_ ?_ ?_)

theorem send_kept {x0 : State} (x1 : Sent) (h0 : Kept q b x0) : Kept q b (@State.send x0 x1) := by
  unfold State.send
  try dsimp only
  with_reducible repeat' first | assumption | split | intro _ | apply foldl_kept | simp only [kept_mk] | exact set_mk (by assumption) .rfl .rfl .rfl .rfl .rfl .rfl .rfl id | refine set_mk ?_ .rfl .rfl .rfl .rfl .rfl .rfl .rfl id

theorem onPort_kept {x0 : State} (x1 : Nat) (x2 : Port → Port) (h0 : Kept q b x0) : Kept q b (@State.onPort x0 x1 x2) := by
  unfold State.onPort
  try dsimp only
  repeat' (first
    | with_reducible assumption
    | with_reducible apply opt_some
    | with_reducible apply opt_none
    | with_reducible apply sub_app
    | with_reducible apply out_next
    | with_reducible apply out_fault
    | with_reducible apply out_refused
    | with_reducible apply foldl_kept
    | with_reducible apply foldl_kept1
    | with_reducible apply foldl_kept2
    | with_reducible apply foldl_kept21
    | with_reducible apply foldl_kept22
    | with_reducible exact HalOk.rfl
    | with_reducible exact HbmOk.rfl
    | with_reducible exact PwrOk.rfl
    | with_reducible exact HeatOk.rfl
    | with_reducible exact PkgOk.rfl
    | with_reducible exact StepOk.rfl
    | with_reducible exact FlashOk.rfl
    | with_reducible exact id
    | with_reducible refine HalOk.mk ?_ ?_ ?_ ?_
    | with_reducible refine HbmOk.mk ?_ ?_ ?_
    | with_reducible refine PwrOk.mk ?_ ?_
    | with_reducible refine HeatOk.mk ?_
    | with_reducible refine PkgOk.mk ?_ ?_
    | with_reducible refine StepOk.mk ?_
    | with_reducible refine FlashOk.mk ?_ ?_ ?_ ?_
    | exact id
    | with_reducible apply wf_upd
    | with_reducible apply wf_setList
    | with_reducible apply wf_copy
    | with_reducible apply wf_clear
    | decide
    | (simp only [setAt_length, List.length_map, List.length_zipIdx]; exact id)
    | split
    | intro _
    | dsimp only
    | with_reducible apply wf_foldl
    | with_reducible apply wf_set
    | simp only [kept_mk]
    | with_reducible refine set_mk ?_ ?_ ?_ ?_ ?_ ?_ ?_ ?_ ?_)

theorem sendOn_kept {x0 : State} (x1 : Nat) (x2 : Nat) (x3 : Nat) (x4 : Sent) (h0 : Kept q b x0) : Kept q b (@State.sendOn x0 x1 x2 x3 x4) := by
  unfold State.sendOn
  try dsimp only
  with_reducible repeat' first | assumption | apply send_kept | apply onPort_kept | split | intro _ | apply foldl_kept | simp only [kept_mk] | exact set_mk (by assumption) .rfl .rfl .rfl .rfl .rfl .rfl .rfl id | refine set_mk ?_ .rfl .rfl .rfl .rfl .rfl .rfl .rfl id

theorem draw_kept {x0 : State} (x1 : Nat) (h0 : Kept q b x0) : Kept q b ((@State.draw x0 x1)).2 := by
  unfold State.draw
  try dsimp only
  with_reducible repeat' first | assumption | split | intro _ | apply foldl_kept | simp only [kept_mk] | exact set_mk (by assumption) .rfl .rfl .rfl .rfl .rfl .rfl .rfl id | refine set_mk ?_ .rfl .rfl .rfl .rfl .rfl .rfl .rfl id

theorem sendMsg_kept {x0 : State} (x1 : Sent) (h0 : Kept q b x0) : Kept q b (@State.sendMsg x0 x1) := by
  unfold State.sendMsg
  with_reducible repeat' first | assumption | apply sendOn_kept | apply draw_kept | apply send_kept | split

theorem raise_kept {x0 : State} (x1 : Event) (h0 : Kept q b x0) : Kept q b (@State.raise x0 x1) := by
  unfold State.raise
  try dsimp only
  repeat' (first
    | with_reducible assumption
    | with_reducible apply sendMsg_kept
    | with_reducible apply opt_some
    | with_reducible apply opt_none
    | with_reducible apply sub_app
    | with_reducible apply out_next
    | with_reducible apply out_fault
    | with_reducible apply out_refused
    | with_reducible apply foldl_kept
    | with_reducible apply foldl_kept1
    | with_reducible apply foldl_kept2
    | with_reducible apply foldl_kept21
    | with_reducible apply foldl_kept22
    | with_reducible exact HalOk.rfl
    | with_reducible exact HbmOk.rfl
    | with_reducible exact PwrOk.rfl
    | with_reducible exact HeatOk.rfl
    | with_reducible exact PkgOk.rfl
    | with_reducible exact StepOk.rfl
    | with_reducible exact FlashOk.rfl
    | with_reducible exact id
    | with_reducible refine HalOk.mk ?_ ?_ ?_ ?_
    | with_reducible refine HbmOk.mk ?_ ?_ ?_
    | with_reducible refine PwrOk.mk ?_ ?_
    | with_reducible refine HeatOk.mk ?_
    | with_reducible refine PkgOk.mk ?_ ?_
    | with_reducible refine StepOk.mk ?_
    | with_reducible refine FlashOk.mk ?_ ?_ ?_ ?_
    | exact id
    | with_reducible apply wf_upd
    | with_reducible apply wf_setList
    | with_reducible apply wf_copy
    | with_reducible apply wf_clear
    | decide
    | (simp only [setAt_length, List.length_map, List.length_zipIdx]; exact id)
    | split
    | intro _
    | dsimp only
    | with_reducible apply wf_foldl
    | with_reducible apply wf_set
    | simp only [kept_mk]
    | with_reducible refine set_mk ?_ ?_ ?_ ?_ ?_ ?_ ?_ ?_ ?_)

theorem request_kept {x0 : State} (x1 : Request) (x2 : Nat) (x3 : List Nat) (h0 : Kept q b x0) : Kept q b (@State.request x0 x1 x2 x3) := by
  unfold State.request
  try dsimp only
  repeat' (first
    | with_reducible assumption
    | with_reducible apply raise_kept
    | with_reducible apply opt_some
    | with_reducible apply opt_none
    | with_reducible apply sub_app
    | with_reducible apply out_next
    | with_reducible apply out_fault
    | with_reducible apply out_refused
    | with_reducible apply foldl_kept
    | with_reducible apply foldl_kept1
    | with_reducible apply foldl_kept2
    | with_reducible apply foldl_kept21
    | with_reducible apply foldl_kept22
    | with_reducible exact HalOk.rfl
    | with_reducible exact HbmOk.rfl
    | with_reducible exact PwrOk.rfl
    | with_reducible exact HeatOk.rfl
    | with_reducible exact PkgOk.rfl
    | with_reducible exact StepOk.rfl
    | with_reducible exact FlashOk.rfl
    | with_reducible exact id
    | with_reducible refine HalOk.mk ?_ ?_ ?_ ?_
    | with_reducible refine HbmOk.mk ?_ ?_ ?_
    | with_reducible refine PwrOk.mk ?_ ?_
    | with_reducible refine HeatOk.mk ?_
    | with_reducible refine PkgOk.mk ?_ ?_
    | with_reducible refine StepOk.mk ?_
    | with_reducible refine FlashOk.mk ?_ ?_ ?_ ?_
    | exact id
    | with_reducible apply wf_upd
    | with_reducible apply wf_setList
    | with_reducible apply wf_copy
    | with_reducible apply wf_clear
    | decide
    | (simp only [setAt_length, List.length_map, List.length_zipIdx]; exact id)
    | split
    | intro _
    | dsimp only
    | with_reducible apply wf_foldl
    | with_reducible apply wf_set
    | simp only [kept_mk]
    | with_reducible refine set_mk ?_ ?_ ?_ ?_ ?_ ?_ ?_ ?_ ?_)

theorem report_kept {x0 : State} (x1 : Nat) (x2 : Nat) (x3 : Nat) (x4 : Nat) (x5 : optParam Nat 0) (x6 : optParam Nat 0) (x7 : optParam Nat 0) (h0 : Kept q b x0) : Kept q b (@State.report x0 x1 x2 x3 x4 x5 x6 x7) := by
  unfold State.report
  try dsimp only
  repeat' (first
    | with_reducible assumption
    | with_reducible apply opt_some
    | with_reducible apply opt_none
    | with_reducible apply sub_app
    | with_reducible apply out_next
    | with_reducible apply out_fault
    | with_reducible apply out_refused
    | with_reducible apply foldl_kept
    | with_reducible apply foldl_kept1
    | with_reducible apply foldl_kept2
    | with_reducible apply foldl_kept21
    | with_reducible apply foldl_kept22
    | with_reducible exact HalOk.rfl
    | with_reducible exact HbmOk.rfl
    | with_reducible exact PwrOk.rfl
    | with_reducible exact HeatOk.rfl
    | with_reducible exact PkgOk.rfl
    | with_reducible exact StepOk.rfl
    | with_reducible exact FlashOk.rfl
    | with_reducible exact id
    | with_reducible refine HalOk.mk ?_ ?_ ?_ ?_
    | with_reducible refine HbmOk.mk ?_ ?_ ?_
    | with_reducible refine PwrOk.mk ?_ ?_
    | with_reducible refine HeatOk.mk ?_
    | with_reducible refine PkgOk.mk ?_ ?_
    | with_reducible refine StepOk.mk ?_
    | with_reducible refine FlashOk.mk ?_ ?_ ?_ ?_
    | exact id
    | with_reducible apply wf_upd
    | with_reducible apply wf_setList
    | with_reducible apply wf_copy
    | with_reducible apply wf_clear
    | decide
    | (simp only [setAt_length, List.length_map, List.length_zipIdx]; exact id)
    | split
    | intro _
    | dsimp only
    | with_reducible apply wf_foldl
    | with_reducible apply wf_set
    | simp only [kept_mk]
    | with_reducible refine set_mk ?_ ?_ ?_ ?_ ?_ ?_ ?_ ?_ ?_)

theorem onPeer_kept {x0 : State} (x1 : Nat) (x2 : Peer → Peer) (h0 : Kept q b x0) : Kept q b (@State.onPeer x0 x1 x2) := by
  unfold State.onPeer
  try dsimp only
  with_reducible repeat' first | assumption | split | intro _ | apply foldl_kept | simp only [kept_mk] | exact set_mk (by assumption) .rfl .rfl .rfl .rfl .rfl .rfl .rfl id | refine set_mk ?_ .rfl .rfl .rfl .rfl .rfl .rfl .rfl id

theorem sendPkt_kept {x0 : State} (x1 : Pkt) (h0 : Kept q b x0) : Kept q b (@State.sendPkt x0 x1) := by
  unfold State.sendPkt
  with_reducible repeat' first | assumption | apply onPeer_kept | apply sendOn_kept | split

theorem transmit_kept {x0 : State} (x1 : Req) (h0 : Kept q b x0) : Kept q b (@State.transmit x0 x1) := by
  unfold State.transmit
  try dsimp only
  with_reducible repeat' first | assumption | apply sendPkt_kept | split | intro _ | apply foldl_kept | simp only [kept_mk] | exact set_mk (by assumption) .rfl .rfl .rfl .rfl .rfl .rfl .rfl id | refine set_mk ?_ .rfl .rfl .rfl .rfl .rfl .rfl .rfl id

theorem sendReq_kept {x0 : State} (x1 : Nat) (x2 : Nat) (x3 : Nat) (x4 : Bytes) (x5 : Nat) (x6 : Nat) (x7 : Nat) (x8 : Nat) (x9 : Purpose) (x10 : optParam (Option (Nat × Nat)) none) (x11 : optParam (Option Msg) none) (h0 : Kept q b x0) : Kept q b (@State.sendReq x0 x1 x2 x3 x4 x5 x6 x7 x8 x9 x10 x11) := by
  unfold State.sendReq
  try dsimp only
  with_reducible repeat' first | assumption | apply onPeer_kept | apply transmit_kept | split | intro _ | apply foldl_kept | simp only [kept_mk] | exact set_mk (by assumption) .rfl .rfl .rfl .rfl .rfl .rfl .rfl id | refine set_mk ?_ .rfl .rfl .rfl .rfl .rfl .rfl .rfl id

theorem say_kept {x0 : State} (x1 : Nat) (x2 : Nat) (x3 : Nat) (x4 : Msg) (x5 : optParam Bytes []) (x6 : optParam Bool true) (h0 : Kept q b x0) : Kept q b (@State.say x0 x1 x2 x3 x4 x5 x6) := by
  unfold State.say
  with_reducible repeat' first | assumption | apply send_kept | apply sendReq_kept | split

theorem requestRepeat_kept {x0 : State} (x1 : optParam Nat 8) (h0 : Kept q b x0) : Kept q b (@State.requestRepeat x0 x1) := by
  unfold State.requestRepeat
  try dsimp only
  repeat' (first
    | with_reducible assumption
    | with_reducible apply say_kept
    | with_reducible apply opt_some
    | with_reducible apply opt_none
    | with_reducible apply sub_app
    | with_reducible apply out_next
    | with_reducible apply out_fault
    | with_reducible apply out_refused
    | with_reducible apply foldl_kept
    | with_reducible apply foldl_kept1
    | with_reducible apply foldl_kept2
    | with_reducible apply foldl_kept21
    | with_reducible apply foldl_kept22
    | with_reducible exact HalOk.rfl
    | with_reducible exact HbmOk.rfl
    | with_reducible exact PwrOk.rfl
    | with_reducible exact HeatOk.rfl
    | with_reducible exact PkgOk.rfl
    | with_reducible exact StepOk.rfl
    | with_reducible exact FlashOk.rfl
    | with_reducible exact id
    | with_reducible refine HalOk.mk ?_ ?_ ?_ ?_
    | with_reducible refine HbmOk.mk ?_ ?_ ?_
    | with_reducible refine PwrOk.mk ?_ ?_
    | with_reducible refine HeatOk.mk ?_
    | with_reducible refine PkgOk.mk ?_ ?_
    | with_reducible refine StepOk.mk ?_
    | with_reducible refine FlashOk.mk ?_ ?_ ?_ ?_
    | exact id
    | with_reducible apply wf_upd
    | with_reducible apply wf_setList
    | with_reducible apply wf_copy
    | with_reducible apply wf_clear
    | decide
    | (simp only [setAt_length, List.length_map, List.length_zipIdx]; exact id)
    | split
    | intro _
    | dsimp only
    | with_reducible apply wf_foldl
    | with_reducible apply wf_set
    | simp only [kept_mk]
    | with_reducible refine set_mk ?_ ?_ ?_ ?_ ?_ ?_ ?_ ?_ ?_)

theorem failChannel_kept {x0 : State} (x1 : Nat) (h0 : Kept q b x0) : Kept q b (@State.failChannel x0 x1) := by
  unfold State.failChannel
  try dsimp only
  with_reducible repeat' first | assumption | apply report_kept | apply onChan_kept | apply requestRepeat_kept | apply beginRelayouts_kept | split

theorem channelFailure_kept {x0 : State} (x1 : Nat) (h0 : Kept q b x0) : Kept q b (@State.channelFailure x0 x1) := by
  unfold State.channelFailure
  with_reducible repeat' first | assumption | apply request_kept | apply failChannel_kept | split

theorem pageRetire_kept {x0 : State} (x1 : Nat) (x2 : Nat) (h0 : Kept q b x0) : Kept q b (@State.pageRetire x0 x1 x2) := by
  unfold State.pageRetire
  try dsimp only
  with_reducible repeat' first | assumption | apply channelFailure_kept | apply report_kept | apply onChan_kept | split

theorem shadowRow_kept {x0 : State} (x1 : Nat) (x2 : Nat) (h0 : Kept q b x0) : Kept q b (@State.shadowRow x0 x1 x2) := by
  unfold State.shadowRow
  try dsimp only
  with_reducible repeat' first | assumption | apply pageRetire_kept | apply onChan_kept | apply report_kept | split

theorem rowFailure_kept {x0 : State} (x1 : Nat) (x2 : Nat) (h0 : Kept q b x0) : Kept q b (@State.rowFailure x0 x1 x2) := by
  unfold State.rowFailure
  try dsimp only
  with_reducible repeat' first | assumption | apply onChan_kept | apply request_kept | apply shadowRow_kept | apply channelFailure_kept | split

theorem unitLost_kept {x0 : State} (x1 : Nat) (x2 : Nat) (x3 : Nat) (x4 : List Nat) (h0 : Kept q b x0) : Kept q b (@State.unitLost x0 x1 x2 x3 x4) := by
  unfold State.unitLost
  with_reducible repeat' first | assumption | apply onChan_kept | apply putCode_kept | apply send_kept | apply rowFailure_kept | apply report_kept | split

theorem unitFixed_kept {x0 : State} (x1 : Nat) (x2 : Nat) (x3 : Nat) (x4 : Nat) (x5 : List Nat) (h0 : Kept q b x0) : Kept q b (@State.unitFixed x0 x1 x2 x3 x4 x5) := by
  unfold State.unitFixed
  try dsimp only
  with_reducible repeat' first | assumption | apply onChan_kept | apply putCode_kept | apply report_kept | apply rowFailure_kept | split

theorem readUnit_kept {x0 : State} (x1 : Nat) (x2 : UnitErr) (h0 : Kept q b x0) : Kept q b (@State.readUnit x0 x1 x2) := by
  unfold State.readUnit
  try dsimp only
  with_reducible repeat' first | assumption | apply unitLost_kept | apply unitFixed_kept | apply report_kept | apply onChan_kept | split

theorem meetCell_kept {x0 : State} (x1 : Nat) (x2 : List (Nat × Nat)) (h0 : Kept q b x0) : Kept q b (@State.meetCell x0 x1 x2) := by
  unfold State.meetCell
  try dsimp only
  with_reducible repeat' first | assumption | apply cleanCell_kept | apply putCode_kept | apply readUnit_kept | split

theorem decodeAt_kept {x0 : State} (x1 : Nat) (x2 : Nat) (h0 : Kept q b x0) : Kept q b (@State.decodeAt x0 x1 x2) := by
  unfold State.decodeAt
  try dsimp only
  with_reducible repeat' first | assumption | apply meetCell_kept | split | intro _ | apply foldl_kept

theorem countHbm_kept {x0 : State} (x1 : Nat) (x2 : Nat) (x3 : Nat) (h0 : Kept q b x0) : Kept q b (@State.countHbm x0 x1 x2 x3) := by
  unfold State.countHbm
  try dsimp only
  with_reducible repeat' first | assumption | split | intro _ | apply foldl_kept | simp only [kept_mk] | exact set_mk (by assumption) .rfl .rfl .rfl .rfl .rfl .rfl .rfl id | refine set_mk ?_ .rfl .rfl .rfl .rfl .rfl .rfl .rfl id

theorem putHbm_kept {x0 : State} (x1 : Nat) (x2 : Bytes) (x3 : Nat) (x4 : Bool) (x5 : Bool) (h0 : Kept q b x0) : Kept q b (@State.putHbm x0 x1 x2 x3 x4 x5) := by
  unfold State.putHbm
  try dsimp only
  repeat' (first
    | with_reducible assumption
    | with_reducible apply decodeAt_kept
    | with_reducible apply onChan_kept
    | with_reducible apply cleanCell_kept
    | with_reducible apply onUnit_kept
    | with_reducible apply countHbm_kept
    | with_reducible apply opt_some
    | with_reducible apply opt_none
    | with_reducible apply sub_app
    | with_reducible apply out_next
    | with_reducible apply out_fault
    | with_reducible apply out_refused
    | with_reducible apply foldl_kept
    | with_reducible apply foldl_kept1
    | with_reducible apply foldl_kept2
    | with_reducible apply foldl_kept21
    | with_reducible apply foldl_kept22
    | with_reducible exact HalOk.rfl
    | with_reducible exact HbmOk.rfl
    | with_reducible exact PwrOk.rfl
    | with_reducible exact HeatOk.rfl
    | with_reducible exact PkgOk.rfl
    | with_reducible exact StepOk.rfl
    | with_reducible exact FlashOk.rfl
    | with_reducible exact id
    | with_reducible refine HalOk.mk ?_ ?_ ?_ ?_
    | with_reducible refine HbmOk.mk ?_ ?_ ?_
    | with_reducible refine PwrOk.mk ?_ ?_
    | with_reducible refine HeatOk.mk ?_
    | with_reducible refine PkgOk.mk ?_ ?_
    | with_reducible refine StepOk.mk ?_
    | with_reducible refine FlashOk.mk ?_ ?_ ?_ ?_
    | exact id
    | with_reducible apply wf_upd
    | with_reducible apply wf_setList
    | with_reducible apply wf_copy
    | with_reducible apply wf_clear
    | decide
    | (simp only [setAt_length, List.length_map, List.length_zipIdx]; exact id)
    | split
    | intro _
    | dsimp only
    | with_reducible apply wf_foldl
    | with_reducible apply wf_set
    | simp only [kept_mk]
    | with_reducible refine set_mk ?_ ?_ ?_ ?_ ?_ ?_ ?_ ?_ ?_)

theorem mendUnit_kept {x0 : State} (x1 : Nat) (x2 : Nat) (h0 : Kept q b x0) : Kept q b (@State.mendUnit x0 x1 x2) := by
  unfold State.mendUnit
  try dsimp only
  with_reducible repeat' first | assumption | apply decodeAt_kept | apply putHbm_kept | split

theorem readEntry_kept {x0 : State} (x1 : Nat) (h0 : Kept q b x0) : Kept q b (@State.readEntry x0 x1) := by
  unfold State.readEntry
  with_reducible repeat' first | assumption | apply mendUnit_kept | split

theorem touch_kept {x0 : State} (x1 : Nat) (x2 : Nat) (h0 : Kept q b x0) : Kept q b (@State.touch x0 x1 x2) := by
  unfold State.touch
  with_reducible repeat' first | assumption | apply warm_kept | apply readEntry_kept | split

theorem markDirty_kept {x0 : State} (x1 : Nat) (x2 : Nat) (h0 : Kept q b x0) : Kept q b (@State.markDirty x0 x1 x2) := by
  unfold State.markDirty
  try dsimp only
  with_reducible repeat' first | assumption | split | intro _ | apply foldl_kept | simp only [kept_mk] | exact set_mk (by assumption) .rfl .rfl .rfl .rfl .rfl .rfl .rfl id | refine set_mk ?_ .rfl .rfl .rfl .rfl .rfl .rfl .rfl id

theorem sendRun_kept {x0 : State} (x1 : Nat) (x2 : Bytes) (x3 : Nat) (x4 : Nat) (x5 : Nat) (x6 : Nat) (x7 : Nat) (x8 : Bool) (x9 : Purpose) (h0 : Kept q b x0) : Kept q b (@State.sendRun x0 x1 x2 x3 x4 x5 x6 x7 x8 x9) := by
  unfold State.sendRun
  try dsimp only
  with_reducible repeat' first | assumption | apply sendReq_kept | split | intro _ | apply foldl_kept

theorem onTile_kept {x0 : State} (x1 : Nat) (x2 : Tile → Tile) (h0 : Kept q b x0) : Kept q b (@State.onTile x0 x1 x2) := by
  unfold State.onTile
  try dsimp only
  with_reducible repeat' first | assumption | split | intro _ | apply foldl_kept | simp only [kept_mk] | exact set_mk (by assumption) .rfl .rfl .rfl .rfl .rfl .rfl .rfl id | refine set_mk ?_ .rfl .rfl .rfl .rfl .rfl .rfl .rfl id

theorem sendWrite_kept {x0 : State} (x1 : Nat) (x2 : Bytes) (x3 : Nat) (x4 : Nat) (x5 : Nat) (x6 : Nat) (x7 : Bool) (x8 : Purpose) (h0 : Kept q b x0) : Kept q b (@State.sendWrite x0 x1 x2 x3 x4 x5 x6 x7 x8) := by
  unfold State.sendWrite
  with_reducible repeat' first | assumption | apply sendRun_kept | split

theorem putSpan_kept {x0 : State} (x1 : Nat) (x2 : Bytes) (x3 : Nat) (x4 : optParam Bool false) (h0 : Kept q b x0) : Kept q b (@State.putSpan x0 x1 x2 x3 x4) := by
  unfold State.putSpan
  try dsimp only
  with_reducible repeat' first | assumption | apply touch_kept | apply putHbm_kept | apply markDirty_kept | apply sendRun_kept | apply onTile_kept | apply sendWrite_kept | split | intro _ | apply foldl_kept | simp only [kept_mk] | exact set_mk (by assumption) .rfl .rfl .rfl .rfl .rfl .rfl .rfl id | refine set_mk ?_ .rfl .rfl .rfl .rfl .rfl .rfl .rfl id

theorem onSender_kept {x0 : State} (x1 : Nat) (x2 : Sender → Sender) (h0 : Kept q b x0) : Kept q b (@State.onSender x0 x1 x2) := by
  unfold State.onSender
  with_reducible repeat' first | assumption | apply onFab_kept | split

theorem dropFab_kept {x0 : State} (x1 : Nat) (x2 : Nat) (h0 : Kept q b x0) : Kept q b (@State.dropFab x0 x1 x2) := by
  unfold State.dropFab
  with_reducible repeat' first | assumption | apply onTile_kept | split

theorem onSlot_kept {x0 : State} (x1 : Nat) (x2 : SlotErr → SlotErr) (h0 : Kept q b x0) : Kept q b (@State.onSlot x0 x1 x2) := by
  unfold State.onSlot
  try dsimp only
  with_reducible repeat' first | assumption | split | intro _ | apply foldl_kept | simp only [kept_mk] | exact set_mk (by assumption) .rfl .rfl .rfl .rfl .rfl .rfl .rfl id | refine set_mk ?_ .rfl .rfl .rfl .rfl .rfl .rfl .rfl id

theorem halt_kept {x0 : State} (h0 : Kept q b x0) : Kept q b (@State.halt x0) := by
  unfold State.halt
  try dsimp only
  repeat' (first
    | with_reducible assumption
    | with_reducible apply set_job
    | with_reducible apply opt_some
    | with_reducible apply opt_none
    | with_reducible apply sub_app
    | with_reducible apply out_next
    | with_reducible apply out_fault
    | with_reducible apply out_refused
    | with_reducible apply foldl_kept
    | with_reducible apply foldl_kept1
    | with_reducible apply foldl_kept2
    | with_reducible apply foldl_kept21
    | with_reducible apply foldl_kept22
    | with_reducible exact HalOk.rfl
    | with_reducible exact HbmOk.rfl
    | with_reducible exact PwrOk.rfl
    | with_reducible exact HeatOk.rfl
    | with_reducible exact PkgOk.rfl
    | with_reducible exact StepOk.rfl
    | with_reducible exact FlashOk.rfl
    | with_reducible exact id
    | with_reducible refine HalOk.mk ?_ ?_ ?_ ?_
    | with_reducible refine HbmOk.mk ?_ ?_ ?_
    | with_reducible refine PwrOk.mk ?_ ?_
    | with_reducible refine HeatOk.mk ?_
    | with_reducible refine PkgOk.mk ?_ ?_
    | with_reducible refine StepOk.mk ?_
    | with_reducible refine FlashOk.mk ?_ ?_ ?_ ?_
    | exact id
    | with_reducible apply wf_upd
    | with_reducible apply wf_setList
    | with_reducible apply wf_copy
    | with_reducible apply wf_clear
    | decide
    | (simp only [setAt_length, List.length_map, List.length_zipIdx]; exact id)
    | split
    | intro _
    | dsimp only
    | with_reducible apply wf_foldl
    | with_reducible apply wf_set
    | simp only [kept_mk]
    | with_reducible refine set_mk ?_ ?_ ?_ ?_ ?_ ?_ ?_ ?_ ?_)

theorem fault_kept {x0 : State} (x1 : Nat) (x2 : Nat) (x3 : optParam Nat 0) (x4 : optParam Nat 0) (h0 : Kept q b x0) : Kept q b (@State.fault x0 x1 x2 x3 x4) := by
  unfold State.fault
  try dsimp only
  repeat' (first
    | with_reducible assumption
    | with_reducible apply onTile_kept
    | with_reducible apply onSlot_kept
    | with_reducible apply report_kept
    | with_reducible apply raise_kept
    | with_reducible apply halt_kept
    | with_reducible apply requestRepeat_kept
    | with_reducible apply opt_some
    | with_reducible apply opt_none
    | with_reducible apply sub_app
    | with_reducible apply out_next
    | with_reducible apply out_fault
    | with_reducible apply out_refused
    | with_reducible apply foldl_kept
    | with_reducible apply foldl_kept1
    | with_reducible apply foldl_kept2
    | with_reducible apply foldl_kept21
    | with_reducible apply foldl_kept22
    | with_reducible exact HalOk.rfl
    | with_reducible exact HbmOk.rfl
    | with_reducible exact PwrOk.rfl
    | with_reducible exact HeatOk.rfl
    | with_reducible exact PkgOk.rfl
    | with_reducible exact StepOk.rfl
    | with_reducible exact FlashOk.rfl
    | with_reducible exact id
    | with_reducible refine HalOk.mk ?_ ?_ ?_ ?_
    | with_reducible refine HbmOk.mk ?_ ?_ ?_
    | with_reducible refine PwrOk.mk ?_ ?_
    | with_reducible refine HeatOk.mk ?_
    | with_reducible refine PkgOk.mk ?_ ?_
    | with_reducible refine StepOk.mk ?_
    | with_reducible refine FlashOk.mk ?_ ?_ ?_ ?_
    | exact id
    | with_reducible apply wf_upd
    | with_reducible apply wf_setList
    | with_reducible apply wf_copy
    | with_reducible apply wf_clear
    | decide
    | (simp only [setAt_length, List.length_map, List.length_zipIdx]; exact id)
    | split
    | intro _
    | dsimp only
    | with_reducible apply wf_foldl
    | with_reducible apply wf_set
    | simp only [kept_mk]
    | with_reducible refine set_mk ?_ ?_ ?_ ?_ ?_ ?_ ?_ ?_ ?_)

theorem fabFault_kept {x0 : State} (x1 : Nat) (x2 : Nat) (x3 : Nat) (h0 : Kept q b x0) : Kept q b (@State.fabFault x0 x1 x2 x3) := by
  unfold State.fabFault
  with_reducible repeat' first | assumption | apply onFab_kept | apply dropFab_kept | apply fault_kept | split

theorem onOps_kept {x0 : State} (x1 : Nat) (x2 : TileOps → TileOps) (h0 : Kept q b x0) : Kept q b (@State.onOps x0 x1 x2) := by
  unfold State.onOps
  with_reducible repeat' first | assumption | apply onTile_kept | split

theorem countFab_kept {x0 : State} (x1 : Nat) (x2 : Nat) (h0 : Kept q b x0) : Kept q b (@State.countFab x0 x1 x2) := by
  unfold State.countFab
  with_reducible repeat' first | assumption | apply onOps_kept | split

theorem draws_kept {x0 : State} (x1 : Nat) (x2 : Nat) (h0 : Kept q b x0) : Kept q b ((@State.draws x0 x1 x2)).2 := by
  unfold State.draws
  try dsimp only
  with_reducible repeat' first | assumption | split | intro _ | apply foldl_kept | simp only [kept_mk] | exact set_mk (by assumption) .rfl .rfl .rfl .rfl .rfl .rfl .rfl id | refine set_mk ?_ .rfl .rfl .rfl .rfl .rfl .rfl .rfl id

theorem farRead_kept {x0 : State} (x1 : Nat) (x2 : Nat) (x3 : Nat) (h0 : Kept q b x0) : Kept q b ((@State.farRead x0 x1 x2 x3)).2.2 := by
  unfold State.farRead
  try dsimp only
  with_reducible repeat' first | assumption | apply sendReq_kept | apply draws_kept | apply draw_kept | split | intro _ | apply foldl_kept

theorem getSpan_kept {x0 : State} (x1 : Nat) (x2 : Nat) (h0 : Kept q b x0) : Kept q b ((@State.getSpan x0 x1 x2)).2.2 := by
  unfold State.getSpan
  try dsimp only
  with_reducible repeat' first | assumption | apply touch_kept | apply decodeAt_kept | apply countHbm_kept | apply farRead_kept | apply draws_kept | split | intro _ | apply foldl_kept

theorem rawRead_kept {x0 : State} (x1 : Nat) (x2 : Nat) (h0 : Kept q b x0) : Kept q b ((@State.rawRead x0 x1 x2)).2.2 := by
  unfold State.rawRead
  try dsimp only
  with_reducible repeat' first | assumption | apply getSpan_kept | apply foldl_kept | apply foldl_kept1 | apply foldl_kept2 | apply foldl_kept21 | apply foldl_kept22 | split | intro _

theorem readUnits_kept {x0 : State} (x1 : Nat) (x2 : Nat) (h0 : Kept q b x0) : Kept q b ((@State.readUnits x0 x1 x2)).2 := by
  unfold State.readUnits
  with_reducible repeat' first | assumption | apply getSpan_kept | split

theorem copyRange_kept {x0 : State} (x1 : Nat) (x2 : Nat) (x3 : Nat) (h0 : Kept q b x0) : Kept q b (@State.copyRange x0 x1 x2 x3) := by
  unfold State.copyRange
  try dsimp only
  with_reducible repeat' first | assumption | apply readUnits_kept | apply putSpan_kept | split | intro _ | apply foldl_kept

theorem firstCopies_kept {x0 : State} (x1 : Nat) (x2 : Nat) (h0 : Kept q b x0) : Kept q b (@State.firstCopies x0 x1 x2) := by
  unfold State.firstCopies
  try dsimp only
  repeat' (first
    | with_reducible assumption
    | with_reducible apply copyRange_kept
    | with_reducible apply opt_some
    | with_reducible apply opt_none
    | with_reducible apply sub_app
    | with_reducible apply out_next
    | with_reducible apply out_fault
    | with_reducible apply out_refused
    | with_reducible apply foldl_kept
    | with_reducible apply foldl_kept1
    | with_reducible apply foldl_kept2
    | with_reducible apply foldl_kept21
    | with_reducible apply foldl_kept22
    | with_reducible exact HalOk.rfl
    | with_reducible exact HbmOk.rfl
    | with_reducible exact PwrOk.rfl
    | with_reducible exact HeatOk.rfl
    | with_reducible exact PkgOk.rfl
    | with_reducible exact StepOk.rfl
    | with_reducible exact FlashOk.rfl
    | with_reducible exact id
    | with_reducible refine HalOk.mk ?_ ?_ ?_ ?_
    | with_reducible refine HbmOk.mk ?_ ?_ ?_
    | with_reducible refine PwrOk.mk ?_ ?_
    | with_reducible refine HeatOk.mk ?_
    | with_reducible refine PkgOk.mk ?_ ?_
    | with_reducible refine StepOk.mk ?_
    | with_reducible refine FlashOk.mk ?_ ?_ ?_ ?_
    | exact id
    | with_reducible apply wf_upd
    | with_reducible apply wf_setList
    | with_reducible apply wf_copy
    | with_reducible apply wf_clear
    | decide
    | (simp only [setAt_length, List.length_map, List.length_zipIdx]; exact id)
    | split
    | intro _
    | dsimp only
    | with_reducible apply wf_foldl
    | with_reducible apply wf_set
    | simp only [kept_mk]
    | with_reducible refine set_mk ?_ ?_ ?_ ?_ ?_ ?_ ?_ ?_ ?_)

theorem rawWrite_kept {x0 : State} (x1 : Nat) (x2 : Bytes) (x3 : Nat) (x4 : optParam Bool false) (h0 : Kept q b x0) : Kept q b (@State.rawWrite x0 x1 x2 x3 x4) := by
  unfold State.rawWrite
  try dsimp only
  with_reducible repeat' first | assumption | apply putSpan_kept | apply firstCopies_kept | split | intro _ | apply foldl_kept

theorem combineOut_kept {x0 : State} (x1 : Combine) (h0 : Kept q b x0) : Kept q b (@State.combineOut x0 x1) := by
  unfold State.combineOut
  try dsimp only
  with_reducible repeat' first | assumption | apply rawRead_kept | apply rawWrite_kept | split | intro _ | apply foldl_kept | simp only [kept_mk] | exact set_mk (by assumption) .rfl .rfl .rfl .rfl .rfl .rfl .rfl id | refine set_mk ?_ .rfl .rfl .rfl .rfl .rfl .rfl .rfl id

theorem combineAt_kept {x0 : State} (x1 : Nat) (x2 : Nat) (h0 : Kept q b x0) : Kept q b (@State.combineAt x0 x1 x2) := by
  unfold State.combineAt
  try dsimp only
  with_reducible repeat' first | assumption | apply combineOut_kept | split | intro _ | apply foldl_kept

theorem moveRead_kept {x0 : State} (x1 : Nat) (x2 : Nat) (h0 : Kept q b x0) : Kept q b ((@State.moveRead x0 x1 x2)).2 := by
  unfold State.moveRead
  try dsimp only
  with_reducible repeat' first | assumption | apply combineAt_kept | apply readUnits_kept | apply foldl_kept | apply foldl_kept1 | apply foldl_kept2 | apply foldl_kept21 | apply foldl_kept22 | split | intro _

theorem ownUnits_kept {x0 : State} (x1 : Req) (x2 : Nat) (x3 : Bytes) (h0 : Kept q b x0) : ∀ r, State.ownUnits x0 x1 x2 x3 = some r → Kept q b r.2 := by
  intro r e
  unfold State.ownUnits at e
  split at e
  · split at e
    · cases e
    · cases e; show Kept q b (x0.draws 8 x1.pkt.aux).2; exact draws_kept _ _ h0
  · split at e
    · cases e; exact moveRead_kept (addrOff x1.pkt.addr) (x1.pkt.aux % 65536) h0
    · cases e; show Kept q b (x0.draw 8).2; exact draw_kept _ h0

theorem onFabCmd_kept {x0 : State} (x1 : Nat) (x2 : Nat) (x3 : FabCmd → FabCmd) (h0 : Kept q b x0) : Kept q b (@State.onFabCmd x0 x1 x2 x3) := by
  unfold State.onFabCmd
  with_reducible repeat' first | assumption | apply onTile_kept | split

theorem putUnits_kept {x0 : State} (x1 : Nat) (x2 : Nat) (x3 : Nat) (x4 : List MoveUnit) (h0 : Kept q b x0) : Kept q b (@State.putUnits x0 x1 x2 x3 x4) := by
  unfold State.putUnits
  try dsimp only
  with_reducible repeat' first | assumption | apply onTile_kept | apply onFabCmd_kept | split | intro _ | apply foldl_kept

theorem askUnits_kept {x0 : State} (x1 : Req) (x2 : Nat → Purpose) (h0 : Kept q b x0) : Kept q b (@State.askUnits x0 x1 x2) := by
  unfold State.askUnits
  try dsimp only
  with_reducible repeat' first | assumption | apply sendReq_kept | split | intro _ | apply foldl_kept

theorem noteRefused_kept {x0 : State} (x1 : Nat) (x2 : Nat) (x3 : Req) (x4 : Nat) (h0 : Kept q b x0) : Kept q b (@State.noteRefused x0 x1 x2 x3 x4) := by
  unfold State.noteRefused
  with_reducible repeat' first | assumption | apply onFab_kept | split

theorem fillCache_kept {x0 : State} (x1 : Nat) (x2 : Bytes) (h0 : Kept q b x0) : Kept q b (@State.fillCache x0 x1 x2) := by
  unfold State.fillCache
  with_reducible repeat' first | assumption | apply onFab_kept | split

theorem remoteDone_kept {x0 : State} (x1 : Nat) (x2 : Nat) (x3 : Nat) (x4 : Req) (x5 : Nat) (x6 : Bytes) (h0 : Kept q b x0) : Kept q b (@State.remoteDone x0 x1 x2 x3 x4 x5 x6) := by
  unfold State.remoteDone
  try dsimp only
  repeat' (first
    | with_reducible assumption
    | refine ownUnits_kept _ _ _ ?_ _ (by assumption)
    | with_reducible apply fabFault_kept
    | with_reducible apply countFab_kept
    | with_reducible apply ownUnits_kept
    | with_reducible apply putUnits_kept
    | with_reducible apply askUnits_kept
    | with_reducible apply draws_kept
    | with_reducible apply noteRefused_kept
    | with_reducible apply onFabCmd_kept
    | with_reducible apply onTile_kept
    | with_reducible apply fillCache_kept
    | with_reducible apply opt_some
    | with_reducible apply opt_none
    | with_reducible apply sub_app
    | with_reducible apply out_next
    | with_reducible apply out_fault
    | with_reducible apply out_refused
    | with_reducible apply foldl_kept
    | with_reducible apply foldl_kept1
    | with_reducible apply foldl_kept2
    | with_reducible apply foldl_kept21
    | with_reducible apply foldl_kept22
    | with_reducible exact HalOk.rfl
    | with_reducible exact HbmOk.rfl
    | with_reducible exact PwrOk.rfl
    | with_reducible exact HeatOk.rfl
    | with_reducible exact PkgOk.rfl
    | with_reducible exact StepOk.rfl
    | with_reducible exact FlashOk.rfl
    | with_reducible exact id
    | with_reducible refine HalOk.mk ?_ ?_ ?_ ?_
    | with_reducible refine HbmOk.mk ?_ ?_ ?_
    | with_reducible refine PwrOk.mk ?_ ?_
    | with_reducible refine HeatOk.mk ?_
    | with_reducible refine PkgOk.mk ?_ ?_
    | with_reducible refine StepOk.mk ?_
    | with_reducible refine FlashOk.mk ?_ ?_ ?_ ?_
    | exact id
    | with_reducible apply wf_upd
    | with_reducible apply wf_setList
    | with_reducible apply wf_copy
    | with_reducible apply wf_clear
    | decide
    | (simp only [setAt_length, List.length_map, List.length_zipIdx]; exact id)
    | split
    | intro _
    | dsimp only
    | with_reducible apply wf_foldl
    | with_reducible apply wf_set
    | simp only [kept_mk]
    | with_reducible refine set_mk ?_ ?_ ?_ ?_ ?_ ?_ ?_ ?_ ?_)

theorem cancelStream_kept {x0 : State} (x1 : Nat) (x2 : Nat) (h0 : Kept q b x0) : Kept q b (@State.cancelStream x0 x1 x2) := by
  unfold State.cancelStream
  with_reducible repeat' first | assumption | apply onFab_kept | split

theorem memWrite_kept {x0 : State} (x1 : Nat) (x2 : Bytes) (x3 : Nat) (x4 : optParam Bool false) (h0 : Kept q b x0) : Kept q b (@State.memWrite x0 x1 x2 x3 x4) := by
  unfold State.memWrite
  with_reducible repeat' first | assumption | apply rawWrite_kept | apply combineAt_kept | split

theorem streamDone_kept {x0 : State} (x1 : Nat) (x2 : Nat) (x3 : Nat) (x4 : Req) (x5 : Nat) (x6 : Bytes) (h0 : Kept q b x0) : Kept q b (@State.streamDone x0 x1 x2 x3 x4 x5 x6) := by
  unfold State.streamDone
  try dsimp only
  with_reducible repeat' first | assumption | apply fabFault_kept | apply onFabCmd_kept | apply sendReq_kept | apply cancelStream_kept | apply draw_kept | apply touch_kept | apply memWrite_kept | apply countFab_kept | split

theorem fillBytes_kept {x0 : State} (x1 : Nat) (x2 : Nat) (x3 : Bytes) (x4 : Bool) (h0 : Kept q b x0) : Kept q b (@State.fillBytes x0 x1 x2 x3 x4) := by
  unfold State.fillBytes
  try dsimp only
  with_reducible repeat' first | assumption | apply draw_kept | apply putHbm_kept | split | intro _ | apply foldl_kept

theorem onMove_kept {x0 : State} (x1 : Nat) (x2 : Move → Move) (h0 : Kept q b x0) : Kept q b (@State.onMove x0 x1 x2) := by
  unfold State.onMove
  try dsimp only
  with_reducible repeat' first | assumption | split | intro _ | apply foldl_kept | simp only [kept_mk] | exact set_mk (by assumption) .rfl .rfl .rfl .rfl .rfl .rfl .rfl id | refine set_mk ?_ .rfl .rfl .rfl .rfl .rfl .rfl .rfl id

theorem onSession_kept {x0 : State} (x1 : Nat) (x2 : Session → Session) (h0 : Kept q b x0) : Kept q b (@State.onSession x0 x1 x2) := by
  unfold State.onSession
  try dsimp only
  repeat' (first
    | with_reducible assumption
    | with_reducible apply opt_some
    | with_reducible apply opt_none
    | with_reducible apply sub_app
    | with_reducible apply out_next
    | with_reducible apply out_fault
    | with_reducible apply out_refused
    | with_reducible apply foldl_kept
    | with_reducible apply foldl_kept1
    | with_reducible apply foldl_kept2
    | with_reducible apply foldl_kept21
    | with_reducible apply foldl_kept22
    | with_reducible exact HalOk.rfl
    | with_reducible exact HbmOk.rfl
    | with_reducible exact PwrOk.rfl
    | with_reducible exact HeatOk.rfl
    | with_reducible exact PkgOk.rfl
    | with_reducible exact StepOk.rfl
    | with_reducible exact FlashOk.rfl
    | with_reducible exact id
    | with_reducible refine HalOk.mk ?_ ?_ ?_ ?_
    | with_reducible refine HbmOk.mk ?_ ?_ ?_
    | with_reducible refine PwrOk.mk ?_ ?_
    | with_reducible refine HeatOk.mk ?_
    | with_reducible refine PkgOk.mk ?_ ?_
    | with_reducible refine StepOk.mk ?_
    | with_reducible refine FlashOk.mk ?_ ?_ ?_ ?_
    | exact id
    | with_reducible apply wf_upd
    | with_reducible apply wf_setList
    | with_reducible apply wf_copy
    | with_reducible apply wf_clear
    | decide
    | (simp only [setAt_length, List.length_map, List.length_zipIdx]; exact id)
    | split
    | intro _
    | dsimp only
    | with_reducible apply wf_foldl
    | with_reducible apply wf_set
    | simp only [kept_mk]
    | with_reducible refine set_mk ?_ ?_ ?_ ?_ ?_ ?_ ?_ ?_ ?_)

theorem answer_kept {x0 : State} (x1 : PendCmd) (x2 : Nat) (x3 : optParam Bytes []) (h0 : Kept q b x0) : Kept q b (@State.answer x0 x1 x2 x3) := by
  unfold State.answer
  try dsimp only
  with_reducible repeat' first | assumption | apply onSession_kept | apply sendMsg_kept | split

theorem finish_kept {x0 : State} (x1 : PendCmd) (x2 : Nat) (x3 : optParam Bytes []) (h0 : Kept q b x0) : Kept q b (@State.finish x0 x1 x2 x3) := by
  unfold State.finish
  try dsimp only
  repeat' (first
    | with_reducible assumption
    | with_reducible apply draw_kept
    | with_reducible apply answer_kept
    | with_reducible apply opt_some
    | with_reducible apply opt_none
    | with_reducible apply sub_app
    | with_reducible apply out_next
    | with_reducible apply out_fault
    | with_reducible apply out_refused
    | with_reducible apply foldl_kept
    | with_reducible apply foldl_kept1
    | with_reducible apply foldl_kept2
    | with_reducible apply foldl_kept21
    | with_reducible apply foldl_kept22
    | with_reducible exact HalOk.rfl
    | with_reducible exact HbmOk.rfl
    | with_reducible exact PwrOk.rfl
    | with_reducible exact HeatOk.rfl
    | with_reducible exact PkgOk.rfl
    | with_reducible exact StepOk.rfl
    | with_reducible exact FlashOk.rfl
    | with_reducible exact id
    | with_reducible refine HalOk.mk ?_ ?_ ?_ ?_
    | with_reducible refine HbmOk.mk ?_ ?_ ?_
    | with_reducible refine PwrOk.mk ?_ ?_
    | with_reducible refine HeatOk.mk ?_
    | with_reducible refine PkgOk.mk ?_ ?_
    | with_reducible refine StepOk.mk ?_
    | with_reducible refine FlashOk.mk ?_ ?_ ?_ ?_
    | exact id
    | with_reducible apply wf_upd
    | with_reducible apply wf_setList
    | with_reducible apply wf_copy
    | with_reducible apply wf_clear
    | decide
    | (simp only [setAt_length, List.length_map, List.length_zipIdx]; exact id)
    | split
    | intro _
    | dsimp only
    | with_reducible apply wf_foldl
    | with_reducible apply wf_set
    | simp only [kept_mk]
    | with_reducible refine set_mk ?_ ?_ ?_ ?_ ?_ ?_ ?_ ?_ ?_)

theorem flushed_kept {x0 : State} (x1 : Nat) (h0 : Kept q b x0) : Kept q b (@State.flushed x0 x1) := by
  unfold State.flushed
  try dsimp only
  repeat' (first
    | with_reducible assumption
    | with_reducible apply finish_kept
    | with_reducible apply opt_some
    | with_reducible apply opt_none
    | with_reducible apply sub_app
    | with_reducible apply out_next
    | with_reducible apply out_fault
    | with_reducible apply out_refused
    | with_reducible apply foldl_kept
    | with_reducible apply foldl_kept1
    | with_reducible apply foldl_kept2
    | with_reducible apply foldl_kept21
    | with_reducible apply foldl_kept22
    | with_reducible exact HalOk.rfl
    | with_reducible exact HbmOk.rfl
    | with_reducible exact PwrOk.rfl
    | with_reducible exact HeatOk.rfl
    | with_reducible exact PkgOk.rfl
    | with_reducible exact StepOk.rfl
    | with_reducible exact FlashOk.rfl
    | with_reducible exact id
    | with_reducible refine HalOk.mk ?_ ?_ ?_ ?_
    | with_reducible refine HbmOk.mk ?_ ?_ ?_
    | with_reducible refine PwrOk.mk ?_ ?_
    | with_reducible refine HeatOk.mk ?_
    | with_reducible refine PkgOk.mk ?_ ?_
    | with_reducible refine StepOk.mk ?_
    | with_reducible refine FlashOk.mk ?_ ?_ ?_ ?_
    | exact id
    | with_reducible apply wf_upd
    | with_reducible apply wf_setList
    | with_reducible apply wf_copy
    | with_reducible apply wf_clear
    | decide
    | (simp only [setAt_length, List.length_map, List.length_zipIdx]; exact id)
    | split
    | intro _
    | dsimp only
    | with_reducible apply wf_foldl
    | with_reducible apply wf_set
    | simp only [kept_mk]
    | with_reducible refine set_mk ?_ ?_ ?_ ?_ ?_ ?_ ?_ ?_ ?_)

theorem granuleDone_kept {x0 : State} (x1 : Nat) (x2 : Nat) (h0 : Kept q b x0) : Kept q b (@State.granuleDone x0 x1 x2) := by
  unfold State.granuleDone
  try dsimp only
  with_reducible repeat' first | assumption | apply flushed_kept | split | intro _ | apply foldl_kept | simp only [kept_mk] | exact set_mk (by assumption) .rfl .rfl .rfl .rfl .rfl .rfl .rfl id | refine set_mk ?_ .rfl .rfl .rfl .rfl .rfl .rfl .rfl id

theorem sendUnits_kept {x0 : State} (x1 : Nat) (x2 : List MoveUnit) (x3 : Nat) (x4 : Nat) (x5 : Nat) (x6 : Nat) (x7 : Purpose) (h0 : Kept q b x0) : Kept q b (@State.sendUnits x0 x1 x2 x3 x4 x5 x6 x7) := by
  unfold State.sendUnits
  try dsimp only
  with_reducible repeat' first | assumption | apply sendReq_kept | split | intro _ | apply foldl_kept

theorem sendBack_kept {x0 : State} (x1 : Nat) (x2 : Nat) (x3 : Nat) (h0 : Kept q b x0) : Kept q b (@State.sendBack x0 x1 x2 x3) := by
  unfold State.sendBack
  try dsimp only
  with_reducible repeat' first | assumption | apply readUnits_kept | apply sendUnits_kept | apply onUnit_kept | split | intro _ | apply foldl_kept

theorem writeBack_kept {x0 : State} (x1 : Nat) (x2 : Nat) (h0 : Kept q b x0) : Kept q b (@State.writeBack x0 x1 x2) := by
  unfold State.writeBack
  try dsimp only
  with_reducible repeat' first | assumption | apply granuleDone_kept | apply sendBack_kept | split | intro _ | apply foldl_kept | simp only [kept_mk] | exact set_mk (by assumption) .rfl .rfl .rfl .rfl .rfl .rfl .rfl id | refine set_mk ?_ .rfl .rfl .rfl .rfl .rfl .rfl .rfl id

theorem evictPass_kept {x0 : State} (x1 : Nat) (h0 : Kept q b x0) : Kept q b (@State.evictPass x0 x1) := by
  unfold State.evictPass
  try dsimp only
  with_reducible repeat' first | assumption | apply onMove_kept | apply writeBack_kept | split | intro _ | apply foldl_kept

theorem granuleWritten_kept {x0 : State} (x1 : Nat) (x2 : Nat) (h0 : Kept q b x0) : Kept q b (@State.granuleWritten x0 x1 x2) := by
  unfold State.granuleWritten
  try dsimp only
  with_reducible repeat' first | assumption | apply granuleDone_kept | apply evictPass_kept | split

theorem onTier_kept {x0 : State} (x1 : Tier → Tier) (h0 : Kept q b x0) : Kept q b (@State.onTier x0 x1) := by
  unfold State.onTier
  try dsimp only
  with_reducible repeat' first | assumption | split | intro _ | apply foldl_kept | simp only [kept_mk] | exact set_mk (by assumption) .rfl .rfl .rfl .rfl .rfl .rfl .rfl id | refine set_mk ?_ .rfl .rfl .rfl .rfl .rfl .rfl .rfl id

theorem granuleRefused_kept {x0 : State} (x1 : Nat) (x2 : Nat) (x3 : Nat) (x4 : Nat) (h0 : Kept q b x0) : Kept q b (@State.granuleRefused x0 x1 x2 x3 x4) := by
  unfold State.granuleRefused
  try dsimp only
  with_reducible repeat' first | assumption | apply onTier_kept | apply onUnit_kept | apply markDirty_kept | apply onMove_kept | split | intro _ | apply foldl_kept

theorem sendGranule_kept {x0 : State} (x1 : Nat) (x2 : Nat) (x3 : Purpose) (h0 : Kept q b x0) : Kept q b (@State.sendGranule x0 x1 x2 x3) := by
  unfold State.sendGranule
  with_reducible repeat' first | assumption | apply readUnits_kept | apply sendUnits_kept | split

theorem askOld_kept {x0 : State} (x1 : Nat) (x2 : Nat) (x3 : Nat) (h0 : Kept q b x0) : Kept q b (@State.askOld x0 x1 x2 x3) := by
  unfold State.askOld
  try dsimp only
  with_reducible repeat' first | assumption | apply sendReq_kept | split | intro _ | apply foldl_kept

theorem reseedNext_kept {x0 : State} (h0 : Kept q b x0) : Kept q b (@State.reseedNext x0) := by
  unfold State.reseedNext
  try dsimp only
  with_reducible repeat' first | assumption | apply onTier_kept | apply sendGranule_kept | apply askOld_kept | split | intro _ | apply foldl_kept

theorem reseedPass_kept {x0 : State} (x1 : Nat) (x2 : Nat) (x3 : Bytes) (x4 : Bool) (h0 : Kept q b x0) : Kept q b (@State.reseedPass x0 x1 x2 x3 x4) := by
  unfold State.reseedPass
  with_reducible repeat' first | assumption | apply sendRun_kept | split

theorem lostChannel_kept {x0 : State} (x1 : MapOut) (h0 : Kept q b x0) : Kept q b (@State.lostChannel x0 x1) := by
  unfold State.lostChannel
  try dsimp only
  repeat' (first
    | with_reducible assumption
    | with_reducible apply raise_kept
    | with_reducible apply report_kept
    | with_reducible apply opt_some
    | with_reducible apply opt_none
    | with_reducible apply sub_app
    | with_reducible apply out_next
    | with_reducible apply out_fault
    | with_reducible apply out_refused
    | with_reducible apply foldl_kept
    | with_reducible apply foldl_kept1
    | with_reducible apply foldl_kept2
    | with_reducible apply foldl_kept21
    | with_reducible apply foldl_kept22
    | with_reducible exact HalOk.rfl
    | with_reducible exact HbmOk.rfl
    | with_reducible exact PwrOk.rfl
    | with_reducible exact HeatOk.rfl
    | with_reducible exact PkgOk.rfl
    | with_reducible exact StepOk.rfl
    | with_reducible exact FlashOk.rfl
    | with_reducible exact id
    | with_reducible refine HalOk.mk ?_ ?_ ?_ ?_
    | with_reducible refine HbmOk.mk ?_ ?_ ?_
    | with_reducible refine PwrOk.mk ?_ ?_
    | with_reducible refine HeatOk.mk ?_
    | with_reducible refine PkgOk.mk ?_ ?_
    | with_reducible refine StepOk.mk ?_
    | with_reducible refine FlashOk.mk ?_ ?_ ?_ ?_
    | exact id
    | with_reducible apply wf_upd
    | with_reducible apply wf_setList
    | with_reducible apply wf_copy
    | with_reducible apply wf_clear
    | decide
    | (simp only [setAt_length, List.length_map, List.length_zipIdx]; exact id)
    | split
    | intro _
    | dsimp only
    | with_reducible apply wf_foldl
    | with_reducible apply wf_set
    | simp only [kept_mk]
    | with_reducible refine set_mk ?_ ?_ ?_ ?_ ?_ ?_ ?_ ?_ ?_)

theorem lostUnits_kept {x0 : State} (x1 : List Nat) (h0 : Kept q b x0) : Kept q b (@State.lostUnits x0 x1) := by
  unfold State.lostUnits
  try dsimp only
  repeat' (first
    | with_reducible assumption
    | with_reducible apply report_kept
    | with_reducible apply raise_kept
    | with_reducible apply opt_some
    | with_reducible apply opt_none
    | with_reducible apply sub_app
    | with_reducible apply out_next
    | with_reducible apply out_fault
    | with_reducible apply out_refused
    | with_reducible apply foldl_kept
    | with_reducible apply foldl_kept1
    | with_reducible apply foldl_kept2
    | with_reducible apply foldl_kept21
    | with_reducible apply foldl_kept22
    | with_reducible exact HalOk.rfl
    | with_reducible exact HbmOk.rfl
    | with_reducible exact PwrOk.rfl
    | with_reducible exact HeatOk.rfl
    | with_reducible exact PkgOk.rfl
    | with_reducible exact StepOk.rfl
    | with_reducible exact FlashOk.rfl
    | with_reducible exact id
    | with_reducible refine HalOk.mk ?_ ?_ ?_ ?_
    | with_reducible refine HbmOk.mk ?_ ?_ ?_
    | with_reducible refine PwrOk.mk ?_ ?_
    | with_reducible refine HeatOk.mk ?_
    | with_reducible refine PkgOk.mk ?_ ?_
    | with_reducible refine StepOk.mk ?_
    | with_reducible refine FlashOk.mk ?_ ?_ ?_ ?_
    | exact id
    | with_reducible apply wf_upd
    | with_reducible apply wf_setList
    | with_reducible apply wf_copy
    | with_reducible apply wf_clear
    | decide
    | (simp only [setAt_length, List.length_map, List.length_zipIdx]; exact id)
    | split
    | intro _
    | dsimp only
    | with_reducible apply wf_foldl
    | with_reducible apply wf_set
    | simp only [kept_mk]
    | with_reducible refine set_mk ?_ ?_ ?_ ?_ ?_ ?_ ?_ ?_ ?_)

theorem endRestore_kept {x0 : State} (h0 : Kept q b x0) : Kept q b (@State.endRestore x0) := by
  unfold State.endRestore
  try dsimp only
  repeat' (first
    | with_reducible assumption
    | with_reducible apply lostChannel_kept
    | with_reducible apply lostUnits_kept
    | with_reducible apply opt_some
    | with_reducible apply opt_none
    | with_reducible apply sub_app
    | with_reducible apply out_next
    | with_reducible apply out_fault
    | with_reducible apply out_refused
    | with_reducible apply foldl_kept
    | with_reducible apply foldl_kept1
    | with_reducible apply foldl_kept2
    | with_reducible apply foldl_kept21
    | with_reducible apply foldl_kept22
    | with_reducible exact HalOk.rfl
    | with_reducible exact HbmOk.rfl
    | with_reducible exact PwrOk.rfl
    | with_reducible exact HeatOk.rfl
    | with_reducible exact PkgOk.rfl
    | with_reducible exact StepOk.rfl
    | with_reducible exact FlashOk.rfl
    | with_reducible exact id
    | with_reducible refine HalOk.mk ?_ ?_ ?_ ?_
    | with_reducible refine HbmOk.mk ?_ ?_ ?_
    | with_reducible refine PwrOk.mk ?_ ?_
    | with_reducible refine HeatOk.mk ?_
    | with_reducible refine PkgOk.mk ?_ ?_
    | with_reducible refine StepOk.mk ?_
    | with_reducible refine FlashOk.mk ?_ ?_ ?_ ?_
    | exact id
    | with_reducible apply wf_upd
    | with_reducible apply wf_setList
    | with_reducible apply wf_copy
    | with_reducible apply wf_clear
    | decide
    | (simp only [setAt_length, List.length_map, List.length_zipIdx]; exact id)
    | split
    | intro _
    | dsimp only
    | with_reducible apply wf_foldl
    | with_reducible apply wf_set
    | simp only [kept_mk]
    | with_reducible refine set_mk ?_ ?_ ?_ ?_ ?_ ?_ ?_ ?_ ?_)

theorem restoreDone_kept {x0 : State} (x1 : Nat) (x2 : Bool) (x3 : Bytes) (h0 : Kept q b x0) : Kept q b (@State.restoreDone x0 x1 x2 x3) := by
  unfold State.restoreDone
  with_reducible repeat' first | assumption | apply endRestore_kept | apply putHbm_kept | split

theorem reqEffect_kept {x0 : State} (x1 : Req) (x2 : Nat) (x3 : Bytes) (h0 : Kept q b x0) : Kept q b (@State.reqEffect x0 x1 x2 x3) := by
  unfold State.reqEffect
  try dsimp only
  repeat' (first
    | with_reducible assumption
    | refine ownUnits_kept _ _ _ ?_ _ (by assumption)
    | with_reducible apply remoteDone_kept
    | with_reducible apply fabFault_kept
    | with_reducible apply onFabCmd_kept
    | with_reducible apply ownUnits_kept
    | with_reducible apply askUnits_kept
    | with_reducible apply countFab_kept
    | with_reducible apply noteRefused_kept
    | with_reducible apply streamDone_kept
    | with_reducible apply draws_kept
    | with_reducible apply fillBytes_kept
    | with_reducible apply onMove_kept
    | with_reducible apply granuleWritten_kept
    | with_reducible apply granuleRefused_kept
    | with_reducible apply onFab_kept
    | with_reducible apply reseedNext_kept
    | with_reducible apply reseedPass_kept
    | with_reducible apply restoreDone_kept
    | with_reducible apply opt_some
    | with_reducible apply opt_none
    | with_reducible apply sub_app
    | with_reducible apply out_next
    | with_reducible apply out_fault
    | with_reducible apply out_refused
    | with_reducible apply foldl_kept
    | with_reducible apply foldl_kept1
    | with_reducible apply foldl_kept2
    | with_reducible apply foldl_kept21
    | with_reducible apply foldl_kept22
    | with_reducible exact HalOk.rfl
    | with_reducible exact HbmOk.rfl
    | with_reducible exact PwrOk.rfl
    | with_reducible exact HeatOk.rfl
    | with_reducible exact PkgOk.rfl
    | with_reducible exact StepOk.rfl
    | with_reducible exact FlashOk.rfl
    | with_reducible exact id
    | with_reducible refine HalOk.mk ?_ ?_ ?_ ?_
    | with_reducible refine HbmOk.mk ?_ ?_ ?_
    | with_reducible refine PwrOk.mk ?_ ?_
    | with_reducible refine HeatOk.mk ?_
    | with_reducible refine PkgOk.mk ?_ ?_
    | with_reducible refine StepOk.mk ?_
    | with_reducible refine FlashOk.mk ?_ ?_ ?_ ?_
    | exact id
    | with_reducible apply wf_upd
    | with_reducible apply wf_setList
    | with_reducible apply wf_copy
    | with_reducible apply wf_clear
    | decide
    | (simp only [setAt_length, List.length_map, List.length_zipIdx]; exact id)
    | split
    | intro _
    | dsimp only
    | with_reducible apply wf_foldl
    | with_reducible apply wf_set
    | simp only [kept_mk]
    | with_reducible refine set_mk ?_ ?_ ?_ ?_ ?_ ?_ ?_ ?_ ?_)

theorem settle_kept {x0 : State} (x1 : Req) (x2 : Nat) (x3 : Bytes) (h0 : Kept q b x0) : Kept q b (@State.settle x0 x1 x2 x3) := by
  unfold State.settle
  try dsimp only
  repeat' (first
    | with_reducible assumption
    | with_reducible apply onFab_kept
    | with_reducible apply reqEffect_kept
    | with_reducible apply opt_some
    | with_reducible apply opt_none
    | with_reducible apply sub_app
    | with_reducible apply out_next
    | with_reducible apply out_fault
    | with_reducible apply out_refused
    | with_reducible apply foldl_kept
    | with_reducible apply foldl_kept1
    | with_reducible apply foldl_kept2
    | with_reducible apply foldl_kept21
    | with_reducible apply foldl_kept22
    | with_reducible exact HalOk.rfl
    | with_reducible exact HbmOk.rfl
    | with_reducible exact PwrOk.rfl
    | with_reducible exact HeatOk.rfl
    | with_reducible exact PkgOk.rfl
    | with_reducible exact StepOk.rfl
    | with_reducible exact FlashOk.rfl
    | with_reducible exact id
    | with_reducible refine HalOk.mk ?_ ?_ ?_ ?_
    | with_reducible refine HbmOk.mk ?_ ?_ ?_
    | with_reducible refine PwrOk.mk ?_ ?_
    | with_reducible refine HeatOk.mk ?_
    | with_reducible refine PkgOk.mk ?_ ?_
    | with_reducible refine StepOk.mk ?_
    | with_reducible refine FlashOk.mk ?_ ?_ ?_ ?_
    | exact id
    | with_reducible apply wf_upd
    | with_reducible apply wf_setList
    | with_reducible apply wf_copy
    | with_reducible apply wf_clear
    | decide
    | (simp only [setAt_length, List.length_map, List.length_zipIdx]; exact id)
    | split
    | intro _
    | dsimp only
    | with_reducible apply wf_foldl
    | with_reducible apply wf_set
    | simp only [kept_mk]
    | with_reducible refine set_mk ?_ ?_ ?_ ?_ ?_ ?_ ?_ ?_ ?_)

theorem respond_kept {x0 : State} (x1 : Pkt) (x2 : Nat) (x3 : optParam Bytes []) (h0 : Kept q b x0) : Kept q b (@State.respond x0 x1 x2 x3) := by
  unfold State.respond
  try dsimp only
  with_reducible repeat' first | assumption | apply onFab_kept | apply onSender_kept | apply settle_kept | apply sendPkt_kept | split | intro _ | apply foldl_kept | simp only [kept_mk] | exact set_mk (by assumption) .rfl .rfl .rfl .rfl .rfl .rfl .rfl id | refine set_mk ?_ .rfl .rfl .rfl .rfl .rfl .rfl .rfl id

theorem answerDup_kept {x0 : State} (x1 : Pkt) (h0 : Kept q b x0) : Kept q b (@State.answerDup x0 x1) := by
  unfold State.answerDup
  with_reducible repeat' first | assumption | apply respond_kept | split

theorem busyTime_kept {x0 : State} (x1 : Pkt) (h0 : Kept q b x0) : ∀ r, State.busyTime x0 x1 = some r → Kept q b r.2 := by
  intro r e
  unfold State.busyTime at e
  split at e
  · cases e
  · split at e
    · cases e; exact h0
    · split at e
      · cases e; show Kept q b (x0.draw 32).2; exact draw_kept _ h0
      · cases e

theorem putOff_kept {x0 : State} (x1 : Pkt) (x2 : Nat) (x3 : Nat) (x4 : Nat) (x5 : Nat) (h0 : Kept q b x0) : Kept q b (@State.putOff x0 x1 x2 x3 x4 x5) := by
  unfold State.putOff
  with_reducible repeat' first | assumption | apply onFab_kept | apply sendPkt_kept | split

theorem mcastOut_kept {x0 : State} (x1 : Pkt) (x2 : Nat) (h0 : Kept q b x0) : Kept q b (@State.mcastOut x0 x1 x2) := by
  unfold State.mcastOut
  try dsimp only
  with_reducible repeat' first | assumption | apply sendReq_kept | split | intro _ | apply foldl_kept

theorem dropOffsets_kept {x0 : State} (x1 : Nat) (x2 : Nat) (h0 : Kept q b x0) : Kept q b (@State.dropOffsets x0 x1 x2) := by
  unfold State.dropOffsets
  with_reducible repeat' first | assumption | apply onFab_kept | split

theorem readOutcome_kept (x0 : Bytes × State) (h0 : Kept q b x0.2) : Kept q b ((@readOutcome x0)).1 := h0

theorem onPr_kept {x0 : State} (x1 : Nat) (x2 : PwrRegion → PwrRegion) (h0 : Kept q b x0) : Kept q b (@State.onPr x0 x1 x2) := by
  unfold State.onPr
  try dsimp only
  repeat' (first
    | with_reducible assumption
    | with_reducible apply opt_some
    | with_reducible apply opt_none
    | with_reducible apply sub_app
    | with_reducible apply out_next
    | with_reducible apply out_fault
    | with_reducible apply out_refused
    | with_reducible apply foldl_kept
    | with_reducible apply foldl_kept1
    | with_reducible apply foldl_kept2
    | with_reducible apply foldl_kept21
    | with_reducible apply foldl_kept22
    | with_reducible exact HalOk.rfl
    | with_reducible exact HbmOk.rfl
    | with_reducible exact PwrOk.rfl
    | with_reducible exact HeatOk.rfl
    | with_reducible exact PkgOk.rfl
    | with_reducible exact StepOk.rfl
    | with_reducible exact FlashOk.rfl
    | with_reducible exact id
    | with_reducible refine HalOk.mk ?_ ?_ ?_ ?_
    | with_reducible refine HbmOk.mk ?_ ?_ ?_
    | with_reducible refine PwrOk.mk ?_ ?_
    | with_reducible refine HeatOk.mk ?_
    | with_reducible refine PkgOk.mk ?_ ?_
    | with_reducible refine StepOk.mk ?_
    | with_reducible refine FlashOk.mk ?_ ?_ ?_ ?_
    | exact id
    | with_reducible apply wf_upd
    | with_reducible apply wf_setList
    | with_reducible apply wf_copy
    | with_reducible apply wf_clear
    | decide
    | (simp only [setAt_length, List.length_map, List.length_zipIdx]; exact id)
    | split
    | intro _
    | dsimp only
    | with_reducible apply wf_foldl
    | with_reducible apply wf_set
    | simp only [kept_mk]
    | with_reducible refine set_mk ?_ ?_ ?_ ?_ ?_ ?_ ?_ ?_ ?_)

theorem vminRead_kept {x0 : State} (x1 : Nat) (h0 : Kept q b x0) : Kept q b (@State.vminRead x0 x1) := by
  unfold State.vminRead
  with_reducible repeat' first | assumption | apply onPr_kept | split

theorem regRead_kept {x0 : State} (x1 : Nat) (h0 : Kept q b x0) : Kept q b ((@State.regRead x0 x1)).2 := by
  unfold State.regRead
  with_reducible repeat' first | assumption | apply draw_kept | apply vminRead_kept | split

theorem regReads_kept {x0 : State} (x1 : Nat) (x2 : Nat) (h0 : Kept q b x0) : Kept q b ((@State.regReads x0 x1 x2)).2 := by
  induction x2 generalizing x0 x1 with
  | zero =>
  unfold State.regReads
  with_reducible repeat' first | assumption | apply regRead_kept | split
  | succ n ih =>
  unfold State.regReads
  with_reducible repeat' first | assumption | apply ih | apply regRead_kept | split

theorem ctlRead_kept {x0 : State} (x1 : Nat) (x2 : Nat) (h0 : Kept q b x0) : Kept q b ((@State.ctlRead x0 x1 x2)).2 := by
  unfold State.ctlRead
  with_reducible repeat' first | assumption | apply regReads_kept | split

theorem writeOutcome_kept (x0 : State × Bool) (h0 : Kept q b x0.1) : Kept q b ((@writeOutcome x0)).1 := h0

theorem onPn_kept {x0 : State} (x1 : Nat) (x2 : Pannier → Pannier) (h0 : Kept q b x0) : Kept q b (@State.onPn x0 x1 x2) := by
  unfold State.onPn
  with_reducible repeat' first | assumption | apply onTile_kept | split

theorem pnWrite_kept {x0 : State} (x1 : Nat) (x2 : Nat) (x3 : Nat) (h0 : Kept q b x0) : Kept q b (@State.pnWrite x0 x1 x2 x3) := by
  unfold State.pnWrite
  try dsimp only
  with_reducible repeat' first | assumption | apply onPn_kept | split

theorem tryCommit_kept {x0 : State} (h0 : Kept q b x0) : Kept q b (@State.tryCommit x0) := by
  unfold State.tryCommit
  try dsimp only
  repeat' (first
    | with_reducible assumption
    | with_reducible apply on_step
    | with_reducible apply opt_some
    | with_reducible apply opt_none
    | with_reducible apply sub_app
    | with_reducible apply out_next
    | with_reducible apply out_fault
    | with_reducible apply out_refused
    | with_reducible apply foldl_kept
    | with_reducible apply foldl_kept1
    | with_reducible apply foldl_kept2
    | with_reducible apply foldl_kept21
    | with_reducible apply foldl_kept22
    | with_reducible exact HalOk.rfl
    | with_reducible exact HbmOk.rfl
    | with_reducible exact PwrOk.rfl
    | with_reducible exact HeatOk.rfl
    | with_reducible exact PkgOk.rfl
    | with_reducible exact StepOk.rfl
    | with_reducible exact FlashOk.rfl
    | with_reducible exact id
    | with_reducible refine HalOk.mk ?_ ?_ ?_ ?_
    | with_reducible refine HbmOk.mk ?_ ?_ ?_
    | with_reducible refine PwrOk.mk ?_ ?_
    | with_reducible refine HeatOk.mk ?_
    | with_reducible refine PkgOk.mk ?_ ?_
    | with_reducible refine StepOk.mk ?_
    | with_reducible refine FlashOk.mk ?_ ?_ ?_ ?_
    | exact id
    | with_reducible apply wf_upd
    | with_reducible apply wf_setList
    | with_reducible apply wf_copy
    | with_reducible apply wf_clear
    | decide
    | (simp only [setAt_length, List.length_map, List.length_zipIdx]; exact id)
    | split
    | intro _
    | dsimp only
    | with_reducible apply wf_foldl
    | with_reducible apply wf_set
    | simp only [kept_mk]
    | with_reducible refine set_mk ?_ ?_ ?_ ?_ ?_ ?_ ?_ ?_ ?_)

theorem onTag_kept {x0 : State} (x1 : Nat) (x2 : TagSt → TagSt) (h0 : Kept q b x0) : Kept q b (@State.onTag x0 x1 x2) := by
  unfold State.onTag
  try dsimp only
  with_reducible repeat' first | assumption | split | intro _ | apply foldl_kept | simp only [kept_mk] | exact set_mk (by assumption) .rfl .rfl .rfl .rfl .rfl .rfl .rfl id | refine set_mk ?_ .rfl .rfl .rfl .rfl .rfl .rfl .rfl id

theorem tellLead_kept {x0 : State} (x1 : Nat) (x2 : List Nat) (h0 : Kept q b x0) : Kept q b (@State.tellLead x0 x1 x2) := by
  unfold State.tellLead
  with_reducible repeat' first | assumption | apply say_kept | split

theorem raiseCause_kept {x0 : State} (x1 : Nat) (h0 : Kept q b x0) : Kept q b (@State.raiseCause x0 x1) := by
  unfold State.raiseCause
  with_reducible repeat' first | assumption | apply tellLead_kept | split

end Sys2Proof.Machine
end

