-- ==== Sys2Proof/Laws/Keep2.lean ====
section
/-! SUPPORT. `Kept` for the operations and commands of the model, in the order in which they use each other: part 2 of 7. -/

namespace Sys2Proof.Machine

set_option linter.unusedSimpArgs false
set_option linter.unusedTactic false
set_option linter.unreachableTactic false

variable {q : Prop} {b : State}

theorem sayUp_kept {x0 : State} (x1 : Nat) (x2 : Nat) (x3 : Nat) (x4 : Msg) (x5 : optParam Bool true) (h0 : Kept q b x0) : Kept q b (@State.sayUp x0 x1 x2 x3 x4 x5) := by
  unfold State.sayUp
  try dsimp only
  with_reducible repeat' first | assumption | apply say_kept | split | intro _ | apply foldl_kept | simp only [kept_mk] | exact set_mk (by assumption) .rfl .rfl .rfl .rfl .rfl .rfl .rfl id | refine set_mk ?_ .rfl .rfl .rfl .rfl .rfl .rfl .rfl id

theorem finalEnd_kept {x0 : State} (x1 : Nat) (x2 : EndRec) (h0 : Kept q b x0) : Kept q b (@State.finalEnd x0 x1 x2) := by
  unfold State.finalEnd
  try dsimp only
  with_reducible repeat' first | assumption | apply say_kept | apply tellLead_kept | apply onTag_kept | split | intro _ | apply foldl_kept | simp only [kept_mk] | exact set_mk (by assumption) .rfl .rfl .rfl .rfl .rfl .rfl .rfl id | refine set_mk ?_ .rfl .rfl .rfl .rfl .rfl .rfl .rfl id

theorem endCheck_kept {x0 : State} (x1 : Nat) (h0 : Kept q b x0) : Kept q b (@State.endCheck x0 x1) := by
  unfold State.endCheck
  try dsimp only
  with_reducible repeat' first | assumption | apply onTag_kept | apply raiseCause_kept | apply sayUp_kept | apply finalEnd_kept | apply tellLead_kept | split | intro _ | apply foldl_kept

theorem endTag_kept {x0 : State} (x1 : Nat) (h0 : Kept q b x0) : Kept q b (@State.endTag x0 x1) := by
  unfold State.endTag
  try dsimp only
  with_reducible repeat' first | assumption | apply onTag_kept | apply raiseCause_kept | apply sayUp_kept | apply endCheck_kept | split

theorem endTags_kept {x0 : State} (h0 : Kept q b x0) : Kept q b (@State.endTags x0) := by
  unfold State.endTags
  try dsimp only
  with_reducible repeat' first | assumption | apply endTag_kept | split | intro _ | apply foldl_kept

theorem passCount_kept {x0 : State} (h0 : Kept q b x0) : Kept q b (@State.passCount x0) := by
  unfold State.passCount
  try dsimp only
  with_reducible repeat' first | assumption | apply sayUp_kept | apply tellLead_kept | split | intro _ | apply foldl_kept | simp only [kept_mk] | exact set_mk (by assumption) .rfl .rfl .rfl .rfl .rfl .rfl .rfl id | refine set_mk ?_ .rfl .rfl .rfl .rfl .rfl .rfl .rfl id

theorem stepReport_kept {x0 : State} (h0 : Kept q b x0) : Kept q b (@State.stepReport x0) := by
  unfold State.stepReport
  try dsimp only
  repeat' (first
    | with_reducible assumption
    | with_reducible apply endTags_kept
    | with_reducible apply report_kept
    | with_reducible apply halt_kept
    | with_reducible apply raise_kept
    | with_reducible apply tellLead_kept
    | with_reducible apply passCount_kept
    | with_reducible apply on_step
    | with_reducible apply opt_some
    | with_reducible apply opt_none
    | with_reducible apply sub_app
    | with_reducible apply out_next
    | with_reducible apply out_fault
    | with_reducible apply out_refused
    | with_reducible apply foldl_kept
    | with_reducible apply foldl_kept1
    | with_reducible apply foldl_kept2
    | with_reducible apply foldl_kept21
    | with_reducible apply foldl_kept22
    | with_reducible exact HalOk.rfl
    | with_reducible exact HbmOk.rfl
    | with_reducible exact PwrOk.rfl
    | with_reducible exact HeatOk.rfl
    | with_reducible exact PkgOk.rfl
    | with_reducible exact StepOk.rfl
    | with_reducible exact FlashOk.rfl
    | with_reducible exact id
    | with_reducible refine HalOk.mk ?_ ?_ ?_ ?_
    | with_reducible refine HbmOk.mk ?_ ?_ ?_
    | with_reducible refine PwrOk.mk ?_ ?_
    | with_reducible refine HeatOk.mk ?_
    | with_reducible refine PkgOk.mk ?_ ?_
    | with_reducible refine StepOk.mk ?_
    | with_reducible refine FlashOk.mk ?_ ?_ ?_ ?_
    | exact id
    | with_reducible apply wf_upd
    | with_reducible apply wf_setList
    | with_reducible apply wf_copy
    | with_reducible apply wf_clear
    | decide
    | (simp only [setAt_length, List.length_map, List.length_zipIdx]; exact id)
    | split
    | intro _
    | dsimp only
    | with_reducible apply wf_foldl
    | with_reducible apply wf_set
    | simp only [kept_mk]
    | with_reducible refine set_mk ?_ ?_ ?_ ?_ ?_ ?_ ?_ ?_ ?_)

theorem mbDone_kept {x0 : State} (x1 : Nat) (x2 : Nat) (h0 : Kept q b x0) : Kept q b (@State.mbDone x0 x1 x2) := by
  unfold State.mbDone
  try dsimp only
  repeat' (first
    | with_reducible assumption
    | with_reducible apply report_kept
    | with_reducible apply onTile_kept
    | with_reducible apply tryCommit_kept
    | with_reducible apply stepReport_kept
    | with_reducible apply on_step
    | with_reducible apply opt_some
    | with_reducible apply opt_none
    | with_reducible apply sub_app
    | with_reducible apply out_next
    | with_reducible apply out_fault
    | with_reducible apply out_refused
    | with_reducible apply foldl_kept
    | with_reducible apply foldl_kept1
    | with_reducible apply foldl_kept2
    | with_reducible apply foldl_kept21
    | with_reducible apply foldl_kept22
    | with_reducible exact HalOk.rfl
    | with_reducible exact HbmOk.rfl
    | with_reducible exact PwrOk.rfl
    | with_reducible exact HeatOk.rfl
    | with_reducible exact PkgOk.rfl
    | with_reducible exact StepOk.rfl
    | with_reducible exact FlashOk.rfl
    | with_reducible exact id
    | with_reducible refine HalOk.mk ?_ ?_ ?_ ?_
    | with_reducible refine HbmOk.mk ?_ ?_ ?_
    | with_reducible refine PwrOk.mk ?_ ?_
    | with_reducible refine HeatOk.mk ?_
    | with_reducible refine PkgOk.mk ?_ ?_
    | with_reducible refine StepOk.mk ?_
    | with_reducible refine FlashOk.mk ?_ ?_ ?_ ?_
    | exact id
    | with_reducible apply wf_upd
    | with_reducible apply wf_setList
    | with_reducible apply wf_copy
    | with_reducible apply wf_clear
    | decide
    | (simp only [setAt_length, List.length_map, List.length_zipIdx]; exact id)
    | split
    | intro _
    | dsimp only
    | with_reducible apply wf_foldl
    | with_reducible apply wf_set
    | simp only [kept_mk]
    | with_reducible refine set_mk ?_ ?_ ?_ ?_ ?_ ?_ ?_ ?_ ?_)

theorem clearTileOps_kept {x0 : State} (h0 : Kept q b x0) : Kept q b (@State.clearTileOps x0) := by
  unfold State.clearTileOps
  try dsimp only
  with_reducible repeat' first | assumption | apply onOps_kept | split | intro _ | apply foldl_kept | simp only [kept_mk] | exact set_mk (by assumption) .rfl .rfl .rfl .rfl .rfl .rfl .rfl id | refine set_mk ?_ .rfl .rfl .rfl .rfl .rfl .rfl .rfl id

theorem clearDevOps_kept {x0 : State} (h0 : Kept q b x0) : Kept q b (@State.clearDevOps x0) := by
  unfold State.clearDevOps
  try dsimp only
  with_reducible repeat' first | assumption | split | intro _ | apply foldl_kept | simp only [kept_mk] | exact set_mk (by assumption) .rfl .rfl .rfl .rfl .rfl .rfl .rfl id | refine set_mk ?_ .rfl .rfl .rfl .rfl .rfl .rfl .rfl id

theorem regWrite_kept {x0 : State} (x1 : Nat) (x2 : Nat) (h0 : Kept q b x0) : Kept q b (@State.regWrite x0 x1 x2) := by
  unfold State.regWrite
  try dsimp only
  with_reducible repeat' first | assumption | apply pnWrite_kept | apply mbDone_kept | apply clearTileOps_kept | apply clearDevOps_kept | split | intro _ | apply foldl_kept | simp only [kept_mk] | exact set_mk (by assumption) .rfl .rfl .rfl .rfl .rfl .rfl .rfl id | refine set_mk ?_ .rfl .rfl .rfl .rfl .rfl .rfl .rfl id

theorem ctlWrite_kept {x0 : State} (x1 : Nat) (x2 : Bytes) (h0 : Kept q b x0) : Kept q b ((@State.ctlWrite x0 x1 x2)).1 := by
  unfold State.ctlWrite
  try dsimp only
  with_reducible repeat' first | assumption | apply regWrite_kept | split | intro _ | apply foldl_kept

theorem applyCtl_kept {x0 : State} (x1 : Pkt) (x2 : Nat) (x3 : Nat) (h0 : Kept q b x0) : Kept q b ((@State.applyCtl x0 x1 x2 x3)).1 := by
  unfold State.applyCtl
  with_reducible repeat' first | assumption | apply readOutcome_kept | apply ctlRead_kept | apply writeOutcome_kept | apply ctlWrite_kept | split

theorem homeRead_kept {x0 : State} (x1 : Nat) (x2 : Nat) (x3 : Nat) (h0 : Kept q b x0) : Kept q b ((@State.homeRead x0 x1 x2 x3)).2.2 := by
  unfold State.homeRead
  try dsimp only
  with_reducible repeat' first | assumption | apply combineAt_kept | apply sendReq_kept | apply touch_kept | apply getSpan_kept | apply foldl_kept | apply foldl_kept1 | apply foldl_kept2 | apply foldl_kept21 | apply foldl_kept22 | split | intro _

theorem homeAtomic_kept {x0 : State} (x1 : Pkt) (h0 : Kept q b x0) : Kept q b ((@State.homeAtomic x0 x1)).1 := by
  unfold State.homeAtomic
  try dsimp only
  with_reducible repeat' first | assumption | apply combineOut_kept | apply rawRead_kept | apply onFab_kept | apply combineAt_kept | apply rawWrite_kept | split | intro _ | apply foldl_kept

theorem applyMem_kept {x0 : State} (x1 : Pkt) (x2 : Nat) (x3 : Nat) (x4 : Nat) (h0 : Kept q b x0) : Kept q b ((@State.applyMem x0 x1 x2 x3 x4)).1 := by
  unfold State.applyMem
  with_reducible repeat' first | assumption | apply homeRead_kept | apply memWrite_kept | apply sendReq_kept | apply touch_kept | apply homeAtomic_kept | split

theorem readErrs_kept {x0 : State} (x1 : Nat) (x2 : Nat) (x3 : List UnitErr) (h0 : Kept q b x0) : Kept q b (@State.readErrs x0 x1 x2 x3) := by
  unfold State.readErrs
  try dsimp only
  with_reducible repeat' first | assumption | apply readUnit_kept | split | intro _ | apply foldl_kept

theorem rangeErrs_kept {x0 : State} (x1 : Nat) (x2 : Nat) (x3 : List UnitErr) (h0 : Kept q b x0) : Kept q b (@State.rangeErrs x0 x1 x2 x3) := by
  unfold State.rangeErrs
  with_reducible repeat' first | assumption | apply readErrs_kept | split

theorem applyReq_kept {x0 : State} (x1 : Pkt) (x2 : List UnitErr) (x3 : Nat) (x4 : Nat) (h0 : Kept q b x0) : Kept q b ((@State.applyReq x0 x1 x2 x3 x4)).1 := by
  unfold State.applyReq
  try dsimp only
  with_reducible repeat' first | assumption | apply mcastOut_kept | apply dropOffsets_kept | apply applyCtl_kept | apply applyMem_kept | apply rangeErrs_kept | split

theorem claim_kept {x0 : State} (x1 : Nat) (x2 : Purpose) (h0 : Kept q b x0) : Kept q b (@State.claim x0 x1 x2) := by
  unfold State.claim
  try dsimp only
  with_reducible repeat' first | assumption | split | intro _ | apply foldl_kept | simp only [kept_mk] | exact set_mk (by assumption) .rfl .rfl .rfl .rfl .rfl .rfl .rfl id | refine set_mk ?_ .rfl .rfl .rfl .rfl .rfl .rfl .rfl id

theorem serve_kept {x0 : State} (x1 : Pkt) (x2 : List UnitErr) (x3 : Nat) (h0 : Kept q b x0) : Kept q b (@State.serve x0 x1 x2 x3) := by
  unfold State.serve
  try dsimp only
  with_reducible repeat' first | assumption | apply applyReq_kept | apply claim_kept | apply respond_kept | apply onFab_kept | split

theorem release_kept {x0 : State} (x1 : Nat) (h0 : Kept q b x0) : Kept q b (@State.release x0 x1) := by
  unfold State.release
  split
  · exact h0
  · rename_i hd _
    dsimp only
    split
    · exact onFab_kept _ h0
    · have h1 : Kept q b (x0.onFab fun f => { f with queue := f.queue.eraseIdx x1 }) := onFab_kept _ h0
      generalize (x0.onFab fun f => { f with queue := f.queue.eraseIdx x1 }) = t at h1 ⊢
      split
      · exact answerDup_kept _ h1
      · generalize (if hd.refuse = 0 && t.staleReq hd.pkt then 6 else hd.refuse) = st
        have h2 : Kept q b (t.onFab fun f => { f with stale := satAdd 32 f.stale (b2n (st ≠ hd.refuse)) }) := onFab_kept _ h1
        generalize (t.onFab fun f => { f with stale := satAdd 32 f.stale (b2n (st ≠ hd.refuse)) }) = t2 at h2 ⊢
        split
        · rename_i e
          split at e
          · split
            · exact putOff_kept _ _ _ _ _ (busyTime_kept _ h2 _ e)
            · exact onFab_kept _ h0
          · cases e
        · exact serve_kept _ _ _ h2

theorem serveHeld_kept (x0 : Nat) (x1 : Nat) (x2 : Nat → Bool) (x3 : Nat) {x4 : State} (h4 : Kept q b x4) : Kept q b (@State.serveHeld x0 x1 x2 x3 x4) := by
  induction x3 generalizing x4 with
  | zero =>
  unfold State.serveHeld
  with_reducible repeat' first | assumption | apply release_kept | split
  | succ n ih =>
  unfold State.serveHeld
  with_reducible repeat' first | assumption | apply ih | apply release_kept | split

theorem applyHeld_kept {x0 : State} (x1 : Nat) (x2 : Nat → Bool) (x3 : List MoveUnit) (h0 : Kept q b x0) : Kept q b (@State.applyHeld x0 x1 x2 x3) := by
  unfold State.applyHeld
  try dsimp only
  with_reducible repeat' first | assumption | apply putSpan_kept | apply serveHeld_kept | split | intro _ | apply foldl_kept

theorem dropMove_kept {x0 : State} (x1 : Nat) (h0 : Kept q b x0) : Kept q b (@State.dropMove x0 x1) := by
  unfold State.dropMove
  try dsimp only
  with_reducible repeat' first | assumption | split | intro _ | apply foldl_kept | simp only [kept_mk] | exact set_mk (by assumption) .rfl .rfl .rfl .rfl .rfl .rfl .rfl id | refine set_mk ?_ .rfl .rfl .rfl .rfl .rfl .rfl .rfl id

theorem onPage_kept {x0 : State} (x1 : Nat) (x2 : Page → Page) (h0 : Kept q b x0) : Kept q b (@State.onPage x0 x1 x2) := by
  unfold State.onPage
  try dsimp only
  with_reducible repeat' first | assumption | apply putHbm_kept | split | intro _ | apply foldl_kept | simp only [kept_mk] | exact set_mk (by assumption) .rfl .rfl .rfl .rfl .rfl .rfl .rfl id | refine set_mk ?_ .rfl .rfl .rfl .rfl .rfl .rfl .rfl id

theorem leaveFrame_kept {x0 : State} (x1 : Nat) (h0 : Kept q b x0) : Kept q b (@State.leaveFrame x0 x1) := by
  unfold State.leaveFrame
  try dsimp only
  with_reducible repeat' first | assumption | apply dropMove_kept | apply onPage_kept | apply heatEntry_kept | split | intro _ | apply foldl_kept | simp only [kept_mk] | exact set_mk (by assumption) .rfl .rfl .rfl .rfl .rfl .rfl .rfl id | refine set_mk ?_ .rfl .rfl .rfl .rfl .rfl .rfl .rfl id

theorem abandonFill_kept {x0 : State} (x1 : Nat) (h0 : Kept q b x0) : Kept q b (@State.abandonFill x0 x1) := by
  unfold State.abandonFill
  with_reducible repeat' first | assumption | apply onFab_kept | apply applyHeld_kept | apply leaveFrame_kept | split

theorem retireSlot_kept {x0 : State} (x1 : Nat) (h0 : Kept q b x0) : Kept q b (@State.retireSlot x0 x1) := by
  unfold State.retireSlot
  try dsimp only
  repeat' (first
    | with_reducible assumption
    | with_reducible apply opt_some
    | with_reducible apply opt_none
    | with_reducible apply sub_app
    | with_reducible apply out_next
    | with_reducible apply out_fault
    | with_reducible apply out_refused
    | with_reducible apply foldl_kept
    | with_reducible apply foldl_kept1
    | with_reducible apply foldl_kept2
    | with_reducible apply foldl_kept21
    | with_reducible apply foldl_kept22
    | with_reducible exact HalOk.rfl
    | with_reducible exact HbmOk.rfl
    | with_reducible exact PwrOk.rfl
    | with_reducible exact HeatOk.rfl
    | with_reducible exact PkgOk.rfl
    | with_reducible exact StepOk.rfl
    | with_reducible exact FlashOk.rfl
    | with_reducible exact id
    | with_reducible refine HalOk.mk ?_ ?_ ?_ ?_
    | with_reducible refine HbmOk.mk ?_ ?_ ?_
    | with_reducible refine PwrOk.mk ?_ ?_
    | with_reducible refine HeatOk.mk ?_
    | with_reducible refine PkgOk.mk ?_ ?_
    | with_reducible refine StepOk.mk ?_
    | with_reducible refine FlashOk.mk ?_ ?_ ?_ ?_
    | exact id
    | with_reducible apply wf_upd
    | with_reducible apply wf_setList
    | with_reducible apply wf_copy
    | with_reducible apply wf_clear
    | decide
    | (simp only [setAt_length, List.length_map, List.length_zipIdx]; exact id)
    | split
    | intro _
    | dsimp only
    | with_reducible apply wf_foldl
    | with_reducible apply wf_set
    | simp only [kept_mk]
    | with_reducible refine set_mk ?_ ?_ ?_ ?_ ?_ ?_ ?_ ?_ ?_)

theorem onEntry_kept {x0 : State} (x1 : Nat) (x2 : MapEntry → MapEntry) (h0 : Kept q b x0) : Kept q b (@State.onEntry x0 x1 x2) := by
  unfold State.onEntry
  try dsimp only
  repeat' (first
    | with_reducible assumption
    | with_reducible apply opt_some
    | with_reducible apply opt_none
    | with_reducible apply sub_app
    | with_reducible apply out_next
    | with_reducible apply out_fault
    | with_reducible apply out_refused
    | with_reducible apply foldl_kept
    | with_reducible apply foldl_kept1
    | with_reducible apply foldl_kept2
    | with_reducible apply foldl_kept21
    | with_reducible apply foldl_kept22
    | with_reducible exact HalOk.rfl
    | with_reducible exact HbmOk.rfl
    | with_reducible exact PwrOk.rfl
    | with_reducible exact HeatOk.rfl
    | with_reducible exact PkgOk.rfl
    | with_reducible exact StepOk.rfl
    | with_reducible exact FlashOk.rfl
    | with_reducible exact id
    | with_reducible refine HalOk.mk ?_ ?_ ?_ ?_
    | with_reducible refine HbmOk.mk ?_ ?_ ?_
    | with_reducible refine PwrOk.mk ?_ ?_
    | with_reducible refine HeatOk.mk ?_
    | with_reducible refine PkgOk.mk ?_ ?_
    | with_reducible refine StepOk.mk ?_
    | with_reducible refine FlashOk.mk ?_ ?_ ?_ ?_
    | exact id
    | with_reducible apply wf_upd
    | with_reducible apply wf_setList
    | with_reducible apply wf_copy
    | with_reducible apply wf_clear
    | decide
    | (simp only [setAt_length, List.length_map, List.length_zipIdx]; exact id)
    | split
    | intro _
    | dsimp only
    | with_reducible apply wf_foldl
    | with_reducible apply wf_set
    | simp only [kept_mk]
    | with_reducible refine set_mk ?_ ?_ ?_ ?_ ?_ ?_ ?_ ?_ ?_)

theorem onRegion_kept {x0 : State} (x1 : Nat) (x2 : RegionSlots → RegionSlots) (h0 : Kept q b x0) : Kept q b (@State.onRegion x0 x1 x2) := by
  unfold State.onRegion
  try dsimp only
  repeat' (first
    | with_reducible assumption
    | with_reducible apply opt_some
    | with_reducible apply opt_none
    | with_reducible apply sub_app
    | with_reducible apply out_next
    | with_reducible apply out_fault
    | with_reducible apply out_refused
    | with_reducible apply foldl_kept
    | with_reducible apply foldl_kept1
    | with_reducible apply foldl_kept2
    | with_reducible apply foldl_kept21
    | with_reducible apply foldl_kept22
    | with_reducible exact HalOk.rfl
    | with_reducible exact HbmOk.rfl
    | with_reducible exact PwrOk.rfl
    | with_reducible exact HeatOk.rfl
    | with_reducible exact PkgOk.rfl
    | with_reducible exact StepOk.rfl
    | with_reducible exact FlashOk.rfl
    | with_reducible exact id
    | with_reducible refine HalOk.mk ?_ ?_ ?_ ?_
    | with_reducible refine HbmOk.mk ?_ ?_ ?_
    | with_reducible refine PwrOk.mk ?_ ?_
    | with_reducible refine HeatOk.mk ?_
    | with_reducible refine PkgOk.mk ?_ ?_
    | with_reducible refine StepOk.mk ?_
    | with_reducible refine FlashOk.mk ?_ ?_ ?_ ?_
    | exact id
    | with_reducible apply wf_upd
    | with_reducible apply wf_setList
    | with_reducible apply wf_copy
    | with_reducible apply wf_clear
    | decide
    | (simp only [setAt_length, List.length_map, List.length_zipIdx]; exact id)
    | split
    | intro _
    | dsimp only
    | with_reducible apply wf_foldl
    | with_reducible apply wf_set
    | simp only [kept_mk]
    | with_reducible refine set_mk ?_ ?_ ?_ ?_ ?_ ?_ ?_ ?_ ?_)

theorem settled_kept {x0 : State} (x1 : Nat) (x2 : Nat) (h0 : Kept q b x0) : Kept q b (@State.settled x0 x1 x2) := by
  unfold State.settled
  with_reducible repeat' first | assumption | apply onRegion_kept | split

theorem unback_kept {x0 : State} (x1 : Nat) (h0 : Kept q b x0) : Kept q b (@State.unback x0 x1) := by
  unfold State.unback
  with_reducible repeat' first | assumption | apply onEntry_kept | apply onTile_kept | apply report_kept | apply halt_kept | apply raise_kept | split

theorem bind_kept {x0 : State} (x1 : Nat) (x2 : Nat) (x3 : Nat) (h0 : Kept q b x0) : Kept q b (@State.bind x0 x1 x2 x3) := by
  unfold State.bind
  with_reducible repeat' first | assumption | apply onEntry_kept | apply onRegion_kept | split

theorem substitute_kept {x0 : State} (x1 : Nat) (x2 : Nat) (x3 : Bool) (h0 : Kept q b x0) : Kept q b (@State.substitute x0 x1 x2 x3) := by
  unfold State.substitute
  try dsimp only
  with_reducible repeat' first | assumption | apply settled_kept | apply retireSlot_kept | apply unback_kept | apply onTile_kept | apply bind_kept | split

theorem settleSlots_kept {x0 : State} (h0 : Kept q b x0) : Kept q b (@State.settleSlots x0) := by
  unfold State.settleSlots
  try dsimp only
  with_reducible repeat' first | assumption | apply substitute_kept | split | intro _ | apply foldl_kept

theorem startSeq_kept {x0 : State} (x1 : Nat) (h0 : Kept q b x0) : Kept q b (@State.startSeq x0 x1) := by
  unfold State.startSeq
  with_reducible repeat' first | assumption | apply onTile_kept | split

theorem startRegion_kept {x0 : State} (x1 : Nat) (h0 : Kept q b x0) : Kept q b (@State.startRegion x0 x1) := by
  unfold State.startRegion
  try dsimp only
  with_reducible repeat' first | assumption | apply startSeq_kept | split | intro _ | apply foldl_kept

theorem moveEnded_kept {x0 : State} (x1 : Nat) (h0 : Kept q b x0) : Kept q b (@State.moveEnded x0 x1) := by
  unfold State.moveEnded
  try dsimp only
  with_reducible repeat' first | assumption | apply settleSlots_kept | apply startRegion_kept | split

theorem slotFail_slotOther_kept {x0 : State} (x1 : Nat) (x2 : Nat) (x3 : Nat) (h0 : Kept q b x0) : Kept q b (@State.slotFail.slotOther x0 x1 x2 x3) := by
  unfold State.slotFail.slotOther
  try dsimp only
  with_reducible repeat' first | assumption | apply retireSlot_kept | apply onRegion_kept | apply onTile_kept | apply unback_kept | apply request_kept | apply requestRepeat_kept | apply substitute_kept | split

theorem slotFail_kept {x0 : State} (x1 : Nat) (x2 : Nat) (h0 : Kept q b x0) : Kept q b (@State.slotFail x0 x1 x2) := by
  unfold State.slotFail
  try dsimp only
  with_reducible repeat' first | assumption | apply report_kept | apply retireSlot_kept | apply onEntry_kept | apply moveEnded_kept | apply onTile_kept | apply onRegion_kept | apply bind_kept | apply slotFail_slotOther_kept | split

theorem sramUncorrectable_kept {x0 : State} (x1 : Nat) (h0 : Kept q b x0) : Kept q b (@State.sramUncorrectable x0 x1) := by
  unfold State.sramUncorrectable
  try dsimp only
  with_reducible repeat' first | assumption | apply onSlot_kept | apply report_kept | apply slotFail_kept | split

theorem accStruck_kept {x0 : State} (x1 : Nat) (x2 : Nat) (x3 : Nat) (h0 : Kept q b x0) : Kept q b (@State.accStruck x0 x1 x2 x3) := by
  unfold State.accStruck
  try dsimp only
  with_reducible repeat' first | assumption | apply onTile_kept | apply sramUncorrectable_kept | split | intro _ | apply foldl_kept

theorem quiet_kept {x0 : State} (x1 : Nat) (h0 : Kept q b x0) : Kept q b (@State.quiet x0 x1) := by
  unfold State.quiet
  try dsimp only
  repeat' (first
    | with_reducible assumption
    | with_reducible apply on_hal
    | with_reducible apply opt_some
    | with_reducible apply opt_none
    | with_reducible apply sub_app
    | with_reducible apply out_next
    | with_reducible apply out_fault
    | with_reducible apply out_refused
    | with_reducible apply foldl_kept
    | with_reducible apply foldl_kept1
    | with_reducible apply foldl_kept2
    | with_reducible apply foldl_kept21
    | with_reducible apply foldl_kept22
    | with_reducible exact HalOk.rfl
    | with_reducible exact HbmOk.rfl
    | with_reducible exact PwrOk.rfl
    | with_reducible exact HeatOk.rfl
    | with_reducible exact PkgOk.rfl
    | with_reducible exact StepOk.rfl
    | with_reducible exact FlashOk.rfl
    | with_reducible exact id
    | with_reducible refine HalOk.mk ?_ ?_ ?_ ?_
    | with_reducible refine HbmOk.mk ?_ ?_ ?_
    | with_reducible refine PwrOk.mk ?_ ?_
    | with_reducible refine HeatOk.mk ?_
    | with_reducible refine PkgOk.mk ?_ ?_
    | with_reducible refine StepOk.mk ?_
    | with_reducible refine FlashOk.mk ?_ ?_ ?_ ?_
    | exact id
    | with_reducible apply wf_upd
    | with_reducible apply wf_setList
    | with_reducible apply wf_copy
    | with_reducible apply wf_clear
    | decide
    | (simp only [setAt_length, List.length_map, List.length_zipIdx]; exact id)
    | split
    | intro _
    | dsimp only
    | with_reducible apply wf_foldl
    | with_reducible apply wf_set
    | simp only [kept_mk]
    | with_reducible refine set_mk ?_ ?_ ?_ ?_ ?_ ?_ ?_ ?_ ?_)

theorem stopUse_kept {x0 : State} (x1 : Nat) (h0 : Kept q b x0) : Kept q b (@State.stopUse x0 x1) := by
  unfold State.stopUse
  try dsimp only
  with_reducible repeat' first | assumption | apply quiet_kept | split | intro _ | apply foldl_kept | simp only [kept_mk] | exact set_mk (by assumption) .rfl .rfl .rfl .rfl .rfl .rfl .rfl id | refine set_mk ?_ .rfl .rfl .rfl .rfl .rfl .rfl .rfl id

theorem onRes_kept {x0 : State} (x1 : Nat) (x2 : ResOwn → ResOwn) (h0 : Kept q b x0) : Kept q b (@State.onRes x0 x1 x2) := by
  unfold State.onRes
  try dsimp only
  repeat' (first
    | with_reducible assumption
    | with_reducible apply on_hal
    | with_reducible apply opt_some
    | with_reducible apply opt_none
    | with_reducible apply sub_app
    | with_reducible apply out_next
    | with_reducible apply out_fault
    | with_reducible apply out_refused
    | with_reducible apply foldl_kept
    | with_reducible apply foldl_kept1
    | with_reducible apply foldl_kept2
    | with_reducible apply foldl_kept21
    | with_reducible apply foldl_kept22
    | with_reducible exact HalOk.rfl
    | with_reducible exact HbmOk.rfl
    | with_reducible exact PwrOk.rfl
    | with_reducible exact HeatOk.rfl
    | with_reducible exact PkgOk.rfl
    | with_reducible exact StepOk.rfl
    | with_reducible exact FlashOk.rfl
    | with_reducible exact id
    | with_reducible refine HalOk.mk ?_ ?_ ?_ ?_
    | with_reducible refine HbmOk.mk ?_ ?_ ?_
    | with_reducible refine PwrOk.mk ?_ ?_
    | with_reducible refine HeatOk.mk ?_
    | with_reducible refine PkgOk.mk ?_ ?_
    | with_reducible refine StepOk.mk ?_
    | with_reducible refine FlashOk.mk ?_ ?_ ?_ ?_
    | exact id
    | with_reducible apply wf_upd
    | with_reducible apply wf_setList
    | with_reducible apply wf_copy
    | with_reducible apply wf_clear
    | decide
    | (simp only [setAt_length, List.length_map, List.length_zipIdx]; exact id)
    | split
    | intro _
    | dsimp only
    | with_reducible apply wf_foldl
    | with_reducible apply wf_set
    | simp only [kept_mk]
    | with_reducible refine set_mk ?_ ?_ ?_ ?_ ?_ ?_ ?_ ?_ ?_)

theorem grant_kept {x0 : State} (x1 : Nat) (x2 : Nat) (x3 : Nat) (h0 : Kept q b x0) : Kept q b (@State.grant x0 x1 x2 x3) := by
  unfold State.grant
  try dsimp only
  repeat' (first
    | with_reducible assumption
    | with_reducible apply stopUse_kept
    | with_reducible apply onRes_kept
    | with_reducible apply raise_kept
    | with_reducible apply opt_some
    | with_reducible apply opt_none
    | with_reducible apply sub_app
    | with_reducible apply out_next
    | with_reducible apply out_fault
    | with_reducible apply out_refused
    | with_reducible apply foldl_kept
    | with_reducible apply foldl_kept1
    | with_reducible apply foldl_kept2
    | with_reducible apply foldl_kept21
    | with_reducible apply foldl_kept22
    | with_reducible exact HalOk.rfl
    | with_reducible exact HbmOk.rfl
    | with_reducible exact PwrOk.rfl
    | with_reducible exact HeatOk.rfl
    | with_reducible exact PkgOk.rfl
    | with_reducible exact StepOk.rfl
    | with_reducible exact FlashOk.rfl
    | with_reducible exact id
    | with_reducible refine HalOk.mk ?_ ?_ ?_ ?_
    | with_reducible refine HbmOk.mk ?_ ?_ ?_
    | with_reducible refine PwrOk.mk ?_ ?_
    | with_reducible refine HeatOk.mk ?_
    | with_reducible refine PkgOk.mk ?_ ?_
    | with_reducible refine StepOk.mk ?_
    | with_reducible refine FlashOk.mk ?_ ?_ ?_ ?_
    | exact id
    | with_reducible apply wf_upd
    | with_reducible apply wf_setList
    | with_reducible apply wf_copy
    | with_reducible apply wf_clear
    | decide
    | (simp only [setAt_length, List.length_map, List.length_zipIdx]; exact id)
    | split
    | intro _
    | dsimp only
    | with_reducible apply wf_foldl
    | with_reducible apply wf_set
    | simp only [kept_mk]
    | with_reducible refine set_mk ?_ ?_ ?_ ?_ ?_ ?_ ?_ ?_ ?_)

theorem spill_kept {x0 : State} (x1 : Nat) (h0 : Kept q b x0) : Kept q b (@State.spill x0 x1) := by
  unfold State.spill
  try dsimp only
  with_reducible repeat' first | assumption | apply onPn_kept | split

theorem spillAll_kept {x0 : State} (h0 : Kept q b x0) : Kept q b (@State.spillAll x0) := by
  unfold State.spillAll
  with_reducible repeat' first | assumption | apply spill_kept | intro _ | apply foldl_kept

theorem acquire_kept {x0 : State} (x1 : Nat) (x2 : Nat) (x3 : List Nat) (h0 : Kept q b x0) : Kept q b ((@State.acquire x0 x1 x2 x3)).2 := by
  unfold State.acquire
  try dsimp only
  with_reducible repeat' first | assumption | apply grant_kept | apply spillAll_kept | split | intro _ | apply foldl_kept

theorem wantRegion_kept {x0 : State} (x1 : Nat) (x2 : Bool) (h0 : Kept q b x0) : Kept q b (@State.wantRegion x0 x1 x2) := by
  unfold State.wantRegion
  try dsimp only
  with_reducible repeat' first | assumption | apply onPr_kept | split

theorem activity_kept {x0 : State} (x1 : Bool) (h0 : Kept q b x0) : Kept q b (@State.activity x0 x1) := by
  unfold State.activity
  try dsimp only
  repeat' (first
    | with_reducible assumption
    | with_reducible apply wantRegion_kept
    | with_reducible apply onPr_kept
    | with_reducible apply on_heat
    | with_reducible apply opt_some
    | with_reducible apply opt_none
    | with_reducible apply sub_app
    | with_reducible apply out_next
    | with_reducible apply out_fault
    | with_reducible apply out_refused
    | with_reducible apply foldl_kept
    | with_reducible apply foldl_kept1
    | with_reducible apply foldl_kept2
    | with_reducible apply foldl_kept21
    | with_reducible apply foldl_kept22
    | with_reducible exact HalOk.rfl
    | with_reducible exact HbmOk.rfl
    | with_reducible exact PwrOk.rfl
    | with_reducible exact HeatOk.rfl
    | with_reducible exact PkgOk.rfl
    | with_reducible exact StepOk.rfl
    | with_reducible exact FlashOk.rfl
    | with_reducible exact id
    | with_reducible refine HalOk.mk ?_ ?_ ?_ ?_
    | with_reducible refine HbmOk.mk ?_ ?_ ?_
    | with_reducible refine PwrOk.mk ?_ ?_
    | with_reducible refine HeatOk.mk ?_
    | with_reducible refine PkgOk.mk ?_ ?_
    | with_reducible refine StepOk.mk ?_
    | with_reducible refine FlashOk.mk ?_ ?_ ?_ ?_
    | exact id
    | with_reducible apply wf_upd
    | with_reducible apply wf_setList
    | with_reducible apply wf_copy
    | with_reducible apply wf_clear
    | decide
    | (simp only [setAt_length, List.length_map, List.length_zipIdx]; exact id)
    | split
    | intro _
    | dsimp only
    | with_reducible apply wf_foldl
    | with_reducible apply wf_set
    | simp only [kept_mk]
    | with_reducible refine set_mk ?_ ?_ ?_ ?_ ?_ ?_ ?_ ?_ ?_)

theorem adderFail_kept {x0 : State} (x1 : Nat) (h0 : Kept q b x0) : Kept q b (@State.adderFail x0 x1) := by
  unfold State.adderFail
  try dsimp only
  repeat' (first
    | with_reducible assumption
    | with_reducible apply report_kept
    | with_reducible apply opt_some
    | with_reducible apply opt_none
    | with_reducible apply sub_app
    | with_reducible apply out_next
    | with_reducible apply out_fault
    | with_reducible apply out_refused
    | with_reducible apply foldl_kept
    | with_reducible apply foldl_kept1
    | with_reducible apply foldl_kept2
    | with_reducible apply foldl_kept21
    | with_reducible apply foldl_kept22
    | with_reducible exact HalOk.rfl
    | with_reducible exact HbmOk.rfl
    | with_reducible exact PwrOk.rfl
    | with_reducible exact HeatOk.rfl
    | with_reducible exact PkgOk.rfl
    | with_reducible exact StepOk.rfl
    | with_reducible exact FlashOk.rfl
    | with_reducible exact id
    | with_reducible refine HalOk.mk ?_ ?_ ?_ ?_
    | with_reducible refine HbmOk.mk ?_ ?_ ?_
    | with_reducible refine PwrOk.mk ?_ ?_
    | with_reducible refine HeatOk.mk ?_
    | with_reducible refine PkgOk.mk ?_ ?_
    | with_reducible refine StepOk.mk ?_
    | with_reducible refine FlashOk.mk ?_ ?_ ?_ ?_
    | exact id
    | with_reducible apply wf_upd
    | with_reducible apply wf_setList
    | with_reducible apply wf_copy
    | with_reducible apply wf_clear
    | decide
    | (simp only [setAt_length, List.length_map, List.length_zipIdx]; exact id)
    | split
    | intro _
    | dsimp only
    | with_reducible apply wf_foldl
    | with_reducible apply wf_set
    | simp only [kept_mk]
    | with_reducible refine set_mk ?_ ?_ ?_ ?_ ?_ ?_ ?_ ?_ ?_)

theorem adderRetry_kept {x0 : State} (x1 : Nat) (h0 : Kept q b x0) : Kept q b (@State.adderRetry x0 x1) := by
  unfold State.adderRetry
  try dsimp only
  with_reducible repeat' first | assumption | apply report_kept | split | intro _ | apply foldl_kept | simp only [kept_mk] | exact set_mk (by assumption) .rfl .rfl .rfl .rfl .rfl .rfl .rfl id | refine set_mk ?_ .rfl .rfl .rfl .rfl .rfl .rfl .rfl id

theorem setVolts_kept {x0 : State} (x1 : Nat) (h0 : Kept q b x0) : Kept q b (@State.setVolts x0 x1) := by
  unfold State.setVolts
  try dsimp only
  with_reducible repeat' first | assumption | apply onPr_kept | split | intro _ | apply foldl_kept

theorem announce_kept {x0 : State} (x1 : Nat) (x2 : Nat) (h0 : Kept q b x0) : Kept q b (@State.announce x0 x1 x2) := by
  unfold State.announce
  try dsimp only
  repeat' (first
    | with_reducible assumption
    | with_reducible apply setVolts_kept
    | with_reducible apply on_pwr
    | with_reducible apply opt_some
    | with_reducible apply opt_none
    | with_reducible apply sub_app
    | with_reducible apply out_next
    | with_reducible apply out_fault
    | with_reducible apply out_refused
    | with_reducible apply foldl_kept
    | with_reducible apply foldl_kept1
    | with_reducible apply foldl_kept2
    | with_reducible apply foldl_kept21
    | with_reducible apply foldl_kept22
    | with_reducible exact HalOk.rfl
    | with_reducible exact HbmOk.rfl
    | with_reducible exact PwrOk.rfl
    | with_reducible exact HeatOk.rfl
    | with_reducible exact PkgOk.rfl
    | with_reducible exact StepOk.rfl
    | with_reducible exact FlashOk.rfl
    | with_reducible exact id
    | with_reducible refine HalOk.mk ?_ ?_ ?_ ?_
    | with_reducible refine HbmOk.mk ?_ ?_ ?_
    | with_reducible refine PwrOk.mk ?_ ?_
    | with_reducible refine HeatOk.mk ?_
    | with_reducible refine PkgOk.mk ?_ ?_
    | with_reducible refine StepOk.mk ?_
    | with_reducible refine FlashOk.mk ?_ ?_ ?_ ?_
    | exact id
    | with_reducible apply wf_upd
    | with_reducible apply wf_setList
    | with_reducible apply wf_copy
    | with_reducible apply wf_clear
    | decide
    | (simp only [setAt_length, List.length_map, List.length_zipIdx]; exact id)
    | split
    | intro _
    | dsimp only
    | with_reducible apply wf_foldl
    | with_reducible apply wf_set
    | simp only [kept_mk]
    | with_reducible refine set_mk ?_ ?_ ?_ ?_ ?_ ?_ ?_ ?_ ?_)

theorem retarget_kept {x0 : State} (x1 : optParam Bool false) (h0 : Kept q b x0) : Kept q b (@State.retarget x0 x1) := by
  unfold State.retarget
  try dsimp only
  repeat' (first
    | with_reducible assumption
    | with_reducible apply setVolts_kept
    | with_reducible apply announce_kept
    | with_reducible apply on_pwr
    | with_reducible apply opt_some
    | with_reducible apply opt_none
    | with_reducible apply sub_app
    | with_reducible apply out_next
    | with_reducible apply out_fault
    | with_reducible apply out_refused
    | with_reducible apply foldl_kept
    | with_reducible apply foldl_kept1
    | with_reducible apply foldl_kept2
    | with_reducible apply foldl_kept21
    | with_reducible apply foldl_kept22
    | with_reducible exact HalOk.rfl
    | with_reducible exact HbmOk.rfl
    | with_reducible exact PwrOk.rfl
    | with_reducible exact HeatOk.rfl
    | with_reducible exact PkgOk.rfl
    | with_reducible exact StepOk.rfl
    | with_reducible exact FlashOk.rfl
    | with_reducible exact id
    | with_reducible refine HalOk.mk ?_ ?_ ?_ ?_
    | with_reducible refine HbmOk.mk ?_ ?_ ?_
    | with_reducible refine PwrOk.mk ?_ ?_
    | with_reducible refine HeatOk.mk ?_
    | with_reducible refine PkgOk.mk ?_ ?_
    | with_reducible refine StepOk.mk ?_
    | with_reducible refine FlashOk.mk ?_ ?_ ?_ ?_
    | exact id
    | with_reducible apply wf_upd
    | with_reducible apply wf_setList
    | with_reducible apply wf_copy
    | with_reducible apply wf_clear
    | decide
    | (simp only [setAt_length, List.length_map, List.length_zipIdx]; exact id)
    | split
    | intro _
    | dsimp only
    | with_reducible apply wf_foldl
    | with_reducible apply wf_set
    | simp only [kept_mk]
    | with_reducible refine set_mk ?_ ?_ ?_ ?_ ?_ ?_ ?_ ?_ ?_)

theorem forceOn_kept {x0 : State} (x1 : Nat) (h0 : Kept q b x0) : Kept q b (@State.forceOn x0 x1) := by
  unfold State.forceOn
  try dsimp only
  repeat' (first
    | with_reducible assumption
    | with_reducible apply retarget_kept
    | with_reducible apply on_pwr
    | with_reducible apply opt_some
    | with_reducible apply opt_none
    | with_reducible apply sub_app
    | with_reducible apply out_next
    | with_reducible apply out_fault
    | with_reducible apply out_refused
    | with_reducible apply foldl_kept
    | with_reducible apply foldl_kept1
    | with_reducible apply foldl_kept2
    | with_reducible apply foldl_kept21
    | with_reducible apply foldl_kept22
    | with_reducible exact HalOk.rfl
    | with_reducible exact HbmOk.rfl
    | with_reducible exact PwrOk.rfl
    | with_reducible exact HeatOk.rfl
    | with_reducible exact PkgOk.rfl
    | with_reducible exact StepOk.rfl
    | with_reducible exact FlashOk.rfl
    | with_reducible exact id
    | with_reducible refine HalOk.mk ?_ ?_ ?_ ?_
    | with_reducible refine HbmOk.mk ?_ ?_ ?_
    | with_reducible refine PwrOk.mk ?_ ?_
    | with_reducible refine HeatOk.mk ?_
    | with_reducible refine PkgOk.mk ?_ ?_
    | with_reducible refine StepOk.mk ?_
    | with_reducible refine FlashOk.mk ?_ ?_ ?_ ?_
    | exact id
    | with_reducible apply wf_upd
    | with_reducible apply wf_setList
    | with_reducible apply wf_copy
    | with_reducible apply wf_clear
    | decide
    | (simp only [setAt_length, List.length_map, List.length_zipIdx]; exact id)
    | split
    | intro _
    | dsimp only
    | with_reducible apply wf_foldl
    | with_reducible apply wf_set
    | simp only [kept_mk]
    | with_reducible refine set_mk ?_ ?_ ?_ ?_ ?_ ?_ ?_ ?_ ?_)

theorem alert_kept {x0 : State} (x1 : Nat) (x2 : Alert) (h0 : Kept q b x0) : Kept q b (@State.alert x0 x1 x2) := by
  unfold State.alert
  try dsimp only
  repeat' (first
    | with_reducible assumption
    | with_reducible apply raise_kept
    | with_reducible apply forceOn_kept
    | with_reducible apply on_pwr
    | with_reducible apply opt_some
    | with_reducible apply opt_none
    | with_reducible apply sub_app
    | with_reducible apply out_next
    | with_reducible apply out_fault
    | with_reducible apply out_refused
    | with_reducible apply foldl_kept
    | with_reducible apply foldl_kept1
    | with_reducible apply foldl_kept2
    | with_reducible apply foldl_kept21
    | with_reducible apply foldl_kept22
    | with_reducible exact HalOk.rfl
    | with_reducible exact HbmOk.rfl
    | with_reducible exact PwrOk.rfl
    | with_reducible exact HeatOk.rfl
    | with_reducible exact PkgOk.rfl
    | with_reducible exact StepOk.rfl
    | with_reducible exact FlashOk.rfl
    | with_reducible exact id
    | with_reducible refine HalOk.mk ?_ ?_ ?_ ?_
    | with_reducible refine HbmOk.mk ?_ ?_ ?_
    | with_reducible refine PwrOk.mk ?_ ?_
    | with_reducible refine HeatOk.mk ?_
    | with_reducible refine PkgOk.mk ?_ ?_
    | with_reducible refine StepOk.mk ?_
    | with_reducible refine FlashOk.mk ?_ ?_ ?_ ?_
    | exact id
    | with_reducible apply wf_upd
    | with_reducible apply wf_setList
    | with_reducible apply wf_copy
    | with_reducible apply wf_clear
    | decide
    | (simp only [setAt_length, List.length_map, List.length_zipIdx]; exact id)
    | split
    | intro _
    | dsimp only
    | with_reducible apply wf_foldl
    | with_reducible apply wf_set
    | simp only [kept_mk]
    | with_reducible refine set_mk ?_ ?_ ?_ ?_ ?_ ?_ ?_ ?_ ?_)

theorem allTiles_kept {x0 : State} (x1 : Nat → Tile → Tile) (h0 : Kept q b x0) : Kept q b (@State.allTiles x0 x1) := by
  unfold State.allTiles
  try dsimp only
  with_reducible repeat' first | assumption | apply onTile_kept | split | intro _ | apply foldl_kept

theorem paceBy_kept {x0 : State} (x1 : Nat) (x2 : Nat) (h0 : Kept q b x0) : Kept q b (@State.paceBy x0 x1 x2) := by
  unfold State.paceBy
  with_reducible repeat' first | assumption | apply onPr_kept | split

theorem pace_kept {x0 : State} (x1 : Nat) (h0 : Kept q b x0) : Kept q b (@State.pace x0 x1) := by
  unfold State.pace
  with_reducible repeat' first | assumption | apply paceBy_kept | split

theorem allot_kept {x0 : State} (x1 : List Nat) (x2 : Nat) (h0 : Kept q b x0) : Kept q b (@State.allot x0 x1 x2) := by
  unfold State.allot
  try dsimp only
  with_reducible repeat' first | assumption | apply onPr_kept | apply pace_kept | split | intro _ | apply foldl_kept

theorem answerBusy_kept {x0 : State} (x1 : PendCmd) (h0 : Kept q b x0) : Kept q b (@State.answerBusy x0 x1) := by
  unfold State.answerBusy
  with_reducible repeat' first | assumption | apply draw_kept | apply answer_kept | split

theorem answerPart_kept {x0 : State} (x1 : PendCmd) (x2 : Session → Option Doc) (x3 : Nat) (x4 : Nat) (h0 : Kept q b x0) : Kept q b (@State.answerPart x0 x1 x2 x3 x4) := by
  unfold State.answerPart
  with_reducible repeat' first | assumption | apply answer_kept | split

theorem forceOff_kept {x0 : State} (x1 : Nat) (h0 : Kept q b x0) : Kept q b (@State.forceOff x0 x1) := by
  unfold State.forceOff
  try dsimp only
  repeat' (first
    | with_reducible assumption
    | with_reducible apply retarget_kept
    | with_reducible apply on_pwr
    | with_reducible apply opt_some
    | with_reducible apply opt_none
    | with_reducible apply sub_app
    | with_reducible apply out_next
    | with_reducible apply out_fault
    | with_reducible apply out_refused
    | with_reducible apply foldl_kept
    | with_reducible apply foldl_kept1
    | with_reducible apply foldl_kept2
    | with_reducible apply foldl_kept21
    | with_reducible apply foldl_kept22
    | with_reducible exact HalOk.rfl
    | with_reducible exact HbmOk.rfl
    | with_reducible exact PwrOk.rfl
    | with_reducible exact HeatOk.rfl
    | with_reducible exact PkgOk.rfl
    | with_reducible exact StepOk.rfl
    | with_reducible exact FlashOk.rfl
    | with_reducible exact id
    | with_reducible refine HalOk.mk ?_ ?_ ?_ ?_
    | with_reducible refine HbmOk.mk ?_ ?_ ?_
    | with_reducible refine PwrOk.mk ?_ ?_
    | with_reducible refine HeatOk.mk ?_
    | with_reducible refine PkgOk.mk ?_ ?_
    | with_reducible refine StepOk.mk ?_
    | with_reducible refine FlashOk.mk ?_ ?_ ?_ ?_
    | exact id
    | with_reducible apply wf_upd
    | with_reducible apply wf_setList
    | with_reducible apply wf_copy
    | with_reducible apply wf_clear
    | decide
    | (simp only [setAt_length, List.length_map, List.length_zipIdx]; exact id)
    | split
    | intro _
    | dsimp only
    | with_reducible apply wf_foldl
    | with_reducible apply wf_set
    | simp only [kept_mk]
    | with_reducible refine set_mk ?_ ?_ ?_ ?_ ?_ ?_ ?_ ?_ ?_)

theorem free_kept {x0 : State} (x1 : Nat) (h0 : Kept q b x0) : Kept q b (@State.free x0 x1) := by
  unfold State.free
  try dsimp only
  repeat' (first
    | with_reducible assumption
    | with_reducible apply forceOff_kept
    | with_reducible apply onRes_kept
    | with_reducible apply quiet_kept
    | with_reducible apply on_pwr
    | with_reducible apply opt_some
    | with_reducible apply opt_none
    | with_reducible apply sub_app
    | with_reducible apply out_next
    | with_reducible apply out_fault
    | with_reducible apply out_refused
    | with_reducible apply foldl_kept
    | with_reducible apply foldl_kept1
    | with_reducible apply foldl_kept2
    | with_reducible apply foldl_kept21
    | with_reducible apply foldl_kept22
    | with_reducible exact HalOk.rfl
    | with_reducible exact HbmOk.rfl
    | with_reducible exact PwrOk.rfl
    | with_reducible exact HeatOk.rfl
    | with_reducible exact PkgOk.rfl
    | with_reducible exact StepOk.rfl
    | with_reducible exact FlashOk.rfl
    | with_reducible exact id
    | with_reducible refine HalOk.mk ?_ ?_ ?_ ?_
    | with_reducible refine HbmOk.mk ?_ ?_ ?_
    | with_reducible refine PwrOk.mk ?_ ?_
    | with_reducible refine HeatOk.mk ?_
    | with_reducible refine PkgOk.mk ?_ ?_
    | with_reducible refine StepOk.mk ?_
    | with_reducible refine FlashOk.mk ?_ ?_ ?_ ?_
    | exact id
    | with_reducible apply wf_upd
    | with_reducible apply wf_setList
    | with_reducible apply wf_copy
    | with_reducible apply wf_clear
    | decide
    | (simp only [setAt_length, List.length_map, List.length_zipIdx]; exact id)
    | split
    | intro _
    | dsimp only
    | with_reducible apply wf_foldl
    | with_reducible apply wf_set
    | simp only [kept_mk]
    | with_reducible refine set_mk ?_ ?_ ?_ ?_ ?_ ?_ ?_ ?_ ?_)

theorem onObs_kept {x0 : State} (x1 : Observe → Observe) (h0 : Kept q b x0) : Kept q b (@State.onObs x0 x1) := by
  unfold State.onObs
  try dsimp only
  with_reducible repeat' first | assumption | split | intro _ | apply foldl_kept | simp only [kept_mk] | exact set_mk (by assumption) .rfl .rfl .rfl .rfl .rfl .rfl .rfl id | refine set_mk ?_ .rfl .rfl .rfl .rfl .rfl .rfl .rfl id

theorem arm_kept {x0 : State} (x1 : Bytes) (h0 : Kept q b x0) : Kept q b (@State.arm x0 x1) := by
  unfold State.arm
  try dsimp only
  repeat' (first
    | with_reducible assumption
    | with_reducible apply grant_kept
    | with_reducible apply free_kept
    | with_reducible apply onObs_kept
    | with_reducible apply on_hal
    | with_reducible apply opt_some
    | with_reducible apply opt_none
    | with_reducible apply sub_app
    | with_reducible apply out_next
    | with_reducible apply out_fault
    | with_reducible apply out_refused
    | with_reducible apply foldl_kept
    | with_reducible apply foldl_kept1
    | with_reducible apply foldl_kept2
    | with_reducible apply foldl_kept21
    | with_reducible apply foldl_kept22
    | with_reducible exact HalOk.rfl
    | with_reducible exact HbmOk.rfl
    | with_reducible exact PwrOk.rfl
    | with_reducible exact HeatOk.rfl
    | with_reducible exact PkgOk.rfl
    | with_reducible exact StepOk.rfl
    | with_reducible exact FlashOk.rfl
    | with_reducible exact id
    | with_reducible refine HalOk.mk ?_ ?_ ?_ ?_
    | with_reducible refine HbmOk.mk ?_ ?_ ?_
    | with_reducible refine PwrOk.mk ?_ ?_
    | with_reducible refine HeatOk.mk ?_
    | with_reducible refine PkgOk.mk ?_ ?_
    | with_reducible refine StepOk.mk ?_
    | with_reducible refine FlashOk.mk ?_ ?_ ?_ ?_
    | exact id
    | with_reducible apply wf_upd
    | with_reducible apply wf_setList
    | with_reducible apply wf_copy
    | with_reducible apply wf_clear
    | decide
    | (simp only [setAt_length, List.length_map, List.length_zipIdx]; exact id)
    | split
    | intro _
    | dsimp only
    | with_reducible apply wf_foldl
    | with_reducible apply wf_set
    | simp only [kept_mk]
    | with_reducible refine set_mk ?_ ?_ ?_ ?_ ?_ ?_ ?_ ?_ ?_)

theorem askGranule_kept {x0 : State} (x1 : Nat) (x2 : Nat) (h0 : Kept q b x0) : Kept q b (@State.askGranule x0 x1 x2) := by
  unfold State.askGranule
  try dsimp only
  with_reducible repeat' first | assumption | apply sendReq_kept | split | intro _ | apply foldl_kept

theorem askStandby_kept {x0 : State} (x1 : Nat) (x2 : Order) (h0 : Kept q b x0) : Kept q b (@State.askStandby x0 x1 x2) := by
  unfold State.askStandby
  with_reducible repeat' first | assumption | apply say_kept | split

theorem authFail_kept {x0 : State} (h0 : Kept q b x0) : Kept q b (@State.authFail x0) := by
  unfold State.authFail
  try dsimp only
  repeat' (first
    | with_reducible assumption
    | with_reducible apply on_hal
    | with_reducible apply opt_some
    | with_reducible apply opt_none
    | with_reducible apply sub_app
    | with_reducible apply out_next
    | with_reducible apply out_fault
    | with_reducible apply out_refused
    | with_reducible apply foldl_kept
    | with_reducible apply foldl_kept1
    | with_reducible apply foldl_kept2
    | with_reducible apply foldl_kept21
    | with_reducible apply foldl_kept22
    | with_reducible exact HalOk.rfl
    | with_reducible exact HbmOk.rfl
    | with_reducible exact PwrOk.rfl
    | with_reducible exact HeatOk.rfl
    | with_reducible exact PkgOk.rfl
    | with_reducible exact StepOk.rfl
    | with_reducible exact FlashOk.rfl
    | with_reducible exact id
    | with_reducible refine HalOk.mk ?_ ?_ ?_ ?_
    | with_reducible refine HbmOk.mk ?_ ?_ ?_
    | with_reducible refine PwrOk.mk ?_ ?_
    | with_reducible refine HeatOk.mk ?_
    | with_reducible refine PkgOk.mk ?_ ?_
    | with_reducible refine StepOk.mk ?_
    | with_reducible refine FlashOk.mk ?_ ?_ ?_ ?_
    | exact id
    | with_reducible apply wf_upd
    | with_reducible apply wf_setList
    | with_reducible apply wf_copy
    | with_reducible apply wf_clear
    | decide
    | (simp only [setAt_length, List.length_map, List.length_zipIdx]; exact id)
    | split
    | intro _
    | dsimp only
    | with_reducible apply wf_foldl
    | with_reducible apply wf_set
    | simp only [kept_mk]
    | with_reducible refine set_mk ?_ ?_ ?_ ?_ ?_ ?_ ?_ ?_ ?_)

theorem count_kept {x0 : State} (x1 : Nat) (x2 : EncCounts) (h0 : Kept q b x0) : Kept q b (@State.count x0 x1 x2) := by
  unfold State.count
  try dsimp only
  with_reducible repeat' first | assumption | split | intro _ | apply foldl_kept | simp only [kept_mk] | exact set_mk (by assumption) .rfl .rfl .rfl .rfl .rfl .rfl .rfl id | refine set_mk ?_ .rfl .rfl .rfl .rfl .rfl .rfl .rfl id

theorem auxRow_kept {x0 : State} (x1 : Nat) (x2 : MxCmd) (x3 : Nat) (h0 : Kept q b x0) : Kept q b ((@State.auxRow x0 x1 x2 x3)).2.1 := by
  unfold State.auxRow
  try dsimp only
  with_reducible repeat' first | assumption | apply count_kept | split

theorem restore_kept {x0 : State} (x1 : Nat) (h0 : Kept q b x0) : Kept q b (@State.restore x0 x1) := by
  unfold State.restore
  try dsimp only
  with_reducible repeat' first | assumption | apply onPn_kept | split

theorem balance_kept {x0 : State} (x1 : Nat) (h0 : Kept q b x0) : Kept q b (@State.balance x0 x1) :=
  spill_kept x1 (restore_kept x1 h0)

theorem reframe_kept {x0 : State} (x1 : Nat) (x2 : Nat) (h0 : Kept q b x0) : Kept q b (@State.reframe x0 x1 x2) := by
  unfold State.reframe
  with_reducible repeat' first | assumption | apply onPage_kept | apply copyRange_kept | split

theorem startEvict_kept {x0 : State} (x1 : Nat) (x2 : Option Nat) (x3 : optParam Bool false) (h0 : Kept q b x0) : Kept q b (@State.startEvict x0 x1 x2 x3) := by
  unfold State.startEvict
  try dsimp only
  with_reducible repeat' first | assumption | apply onPage_kept | apply evictPass_kept | split | intro _ | apply foldl_kept | simp only [kept_mk] | exact set_mk (by assumption) .rfl .rfl .rfl .rfl .rfl .rfl .rfl id | refine set_mk ?_ .rfl .rfl .rfl .rfl .rfl .rfl .rfl id

theorem pinOut_kept {x0 : State} (x1 : Nat) (x2 : Nat) (h0 : Kept q b x0) : Kept q b (@State.pinOut x0 x1 x2) := by
  unfold State.pinOut
  try dsimp only
  repeat' (first
    | with_reducible assumption
    | with_reducible apply reframe_kept
    | with_reducible apply startEvict_kept
    | with_reducible apply leaveFrame_kept
    | with_reducible apply opt_some
    | with_reducible apply opt_none
    | with_reducible apply sub_app
    | with_reducible apply out_next
    | with_reducible apply out_fault
    | with_reducible apply out_refused
    | with_reducible apply foldl_kept
    | with_reducible apply foldl_kept1
    | with_reducible apply foldl_kept2
    | with_reducible apply foldl_kept21
    | with_reducible apply foldl_kept22
    | with_reducible exact HalOk.rfl
    | with_reducible exact HbmOk.rfl
    | with_reducible exact PwrOk.rfl
    | with_reducible exact HeatOk.rfl
    | with_reducible exact PkgOk.rfl
    | with_reducible exact StepOk.rfl
    | with_reducible exact FlashOk.rfl
    | with_reducible exact id
    | with_reducible refine HalOk.mk ?_ ?_ ?_ ?_
    | with_reducible refine HbmOk.mk ?_ ?_ ?_
    | with_reducible refine PwrOk.mk ?_ ?_
    | with_reducible refine HeatOk.mk ?_
    | with_reducible refine PkgOk.mk ?_ ?_
    | with_reducible refine StepOk.mk ?_
    | with_reducible refine FlashOk.mk ?_ ?_ ?_ ?_
    | exact id
    | with_reducible apply wf_upd
    | with_reducible apply wf_setList
    | with_reducible apply wf_copy
    | with_reducible apply wf_clear
    | decide
    | (simp only [setAt_length, List.length_map, List.length_zipIdx]; exact id)
    | split
    | intro _
    | dsimp only
    | with_reducible apply wf_foldl
    | with_reducible apply wf_set
    | simp only [kept_mk]
    | with_reducible refine set_mk ?_ ?_ ?_ ?_ ?_ ?_ ?_ ?_ ?_)

theorem clearFrames_kept {x0 : State} (x1 : Nat) (h0 : Kept q b x0) : Kept q b (@State.clearFrames x0 x1) := by
  unfold State.clearFrames
  try dsimp only
  with_reducible repeat' first | assumption | apply pinOut_kept | apply startEvict_kept | apply onMove_kept | split | intro _ | apply foldl_kept

theorem beginShrink_kept {x0 : State} (x1 : Nat) (x2 : Nat) (h0 : Kept q b x0) : Kept q b (@State.beginShrink x0 x1 x2) := by
  unfold State.beginShrink
  try dsimp only
  repeat' (first
    | with_reducible assumption
    | with_reducible apply clearFrames_kept
    | with_reducible apply opt_some
    | with_reducible apply opt_none
    | with_reducible apply sub_app
    | with_reducible apply out_next
    | with_reducible apply out_fault
    | with_reducible apply out_refused
    | with_reducible apply foldl_kept
    | with_reducible apply foldl_kept1
    | with_reducible apply foldl_kept2
    | with_reducible apply foldl_kept21
    | with_reducible apply foldl_kept22
    | with_reducible exact HalOk.rfl
    | with_reducible exact HbmOk.rfl
    | with_reducible exact PwrOk.rfl
    | with_reducible exact HeatOk.rfl
    | with_reducible exact PkgOk.rfl
    | with_reducible exact StepOk.rfl
    | with_reducible exact FlashOk.rfl
    | with_reducible exact id
    | with_reducible refine HalOk.mk ?_ ?_ ?_ ?_
    | with_reducible refine HbmOk.mk ?_ ?_ ?_
    | with_reducible refine PwrOk.mk ?_ ?_
    | with_reducible refine HeatOk.mk ?_
    | with_reducible refine PkgOk.mk ?_ ?_
    | with_reducible refine StepOk.mk ?_
    | with_reducible refine FlashOk.mk ?_ ?_ ?_ ?_
    | exact id
    | with_reducible apply wf_upd
    | with_reducible apply wf_setList
    | with_reducible apply wf_copy
    | with_reducible apply wf_clear
    | decide
    | (simp only [setAt_length, List.length_map, List.length_zipIdx]; exact id)
    | split
    | intro _
    | dsimp only
    | with_reducible apply wf_foldl
    | with_reducible apply wf_set
    | simp only [kept_mk]
    | with_reducible refine set_mk ?_ ?_ ?_ ?_ ?_ ?_ ?_ ?_ ?_)

theorem beginRelayout_kept {x0 : State} (x1 : Nat) (h0 : Kept q b x0) : Kept q b (@State.beginRelayout x0 x1) := by
  unfold State.beginRelayout
  try dsimp only
  repeat' (first
    | with_reducible assumption
    | with_reducible apply beginShrink_kept
    | with_reducible apply opt_some
    | with_reducible apply opt_none
    | with_reducible apply sub_app
    | with_reducible apply out_next
    | with_reducible apply out_fault
    | with_reducible apply out_refused
    | with_reducible apply foldl_kept
    | with_reducible apply foldl_kept1
    | with_reducible apply foldl_kept2
    | with_reducible apply foldl_kept21
    | with_reducible apply foldl_kept22
    | with_reducible exact HalOk.rfl
    | with_reducible exact HbmOk.rfl
    | with_reducible exact PwrOk.rfl
    | with_reducible exact HeatOk.rfl
    | with_reducible exact PkgOk.rfl
    | with_reducible exact StepOk.rfl
    | with_reducible exact FlashOk.rfl
    | with_reducible exact id
    | with_reducible refine HalOk.mk ?_ ?_ ?_ ?_
    | with_reducible refine HbmOk.mk ?_ ?_ ?_
    | with_reducible refine PwrOk.mk ?_ ?_
    | with_reducible refine HeatOk.mk ?_
    | with_reducible refine PkgOk.mk ?_ ?_
    | with_reducible refine StepOk.mk ?_
    | with_reducible refine FlashOk.mk ?_ ?_ ?_ ?_
    | exact id
    | with_reducible apply wf_upd
    | with_reducible apply wf_setList
    | with_reducible apply wf_copy
    | with_reducible apply wf_clear
    | decide
    | (simp only [setAt_length, List.length_map, List.length_zipIdx]; exact id)
    | split
    | intro _
    | dsimp only
    | with_reducible apply wf_foldl
    | with_reducible apply wf_set
    | simp only [kept_mk]
    | with_reducible refine set_mk ?_ ?_ ?_ ?_ ?_ ?_ ?_ ?_ ?_)

theorem beginRelayouts_kept {x0 : State} (h0 : Kept q b x0) : Kept q b (@State.beginRelayouts x0) := by
  unfold State.beginRelayouts
  try dsimp only
  with_reducible repeat' first | assumption | apply beginRelayout_kept | split | intro _ | apply foldl_kept

theorem beginRestore_kept {x0 : State} (h0 : Kept q b x0) : Kept q b (@State.beginRestore x0) := by
  unfold State.beginRestore
  try dsimp only
  repeat' (first
    | with_reducible assumption
    | with_reducible apply endRestore_kept
    | with_reducible apply sendReq_kept
    | with_reducible apply opt_some
    | with_reducible apply opt_none
    | with_reducible apply sub_app
    | with_reducible apply out_next
    | with_reducible apply out_fault
    | with_reducible apply out_refused
    | with_reducible apply foldl_kept
    | with_reducible apply foldl_kept1
    | with_reducible apply foldl_kept2
    | with_reducible apply foldl_kept21
    | with_reducible apply foldl_kept22
    | with_reducible exact HalOk.rfl
    | with_reducible exact HbmOk.rfl
    | with_reducible exact PwrOk.rfl
    | with_reducible exact HeatOk.rfl
    | with_reducible exact PkgOk.rfl
    | with_reducible exact StepOk.rfl
    | with_reducible exact FlashOk.rfl
    | with_reducible exact id
    | with_reducible refine HalOk.mk ?_ ?_ ?_ ?_
    | with_reducible refine HbmOk.mk ?_ ?_ ?_
    | with_reducible refine PwrOk.mk ?_ ?_
    | with_reducible refine HeatOk.mk ?_
    | with_reducible refine PkgOk.mk ?_ ?_
    | with_reducible refine StepOk.mk ?_
    | with_reducible refine FlashOk.mk ?_ ?_ ?_ ?_
    | exact id
    | with_reducible apply wf_upd
    | with_reducible apply wf_setList
    | with_reducible apply wf_copy
    | with_reducible apply wf_clear
    | decide
    | (simp only [setAt_length, List.length_map, List.length_zipIdx]; exact id)
    | split
    | intro _
    | dsimp only
    | with_reducible apply wf_foldl
    | with_reducible apply wf_set
    | simp only [kept_mk]
    | with_reducible refine set_mk ?_ ?_ ?_ ?_ ?_ ?_ ?_ ?_ ?_)

theorem onTime_kept {x0 : State} (x1 : Time → Time) (h0 : Kept q b x0) : Kept q b (@State.onTime x0 x1) := by
  unfold State.onTime
  try dsimp only
  with_reducible repeat' first | assumption | split | intro _ | apply foldl_kept | simp only [kept_mk] | exact set_mk (by assumption) .rfl .rfl .rfl .rfl .rfl .rfl .rfl id | refine set_mk ?_ .rfl .rfl .rfl .rfl .rfl .rfl .rfl id

theorem bmca_kept {x0 : State} (h0 : Kept q b x0) : Kept q b (@State.bmca x0) := by
  unfold State.bmca
  try dsimp only
  with_reducible repeat' first | assumption | apply onTime_kept | apply onPort_kept | split | intro _ | apply foldl_kept

theorem onRed_kept {x0 : State} (x1 : Red → Red) (h0 : Kept q b x0) : Kept q b (@State.onRed x0 x1) := by
  unfold State.onRed
  try dsimp only
  with_reducible repeat' first | assumption | split | intro _ | apply foldl_kept | simp only [kept_mk] | exact set_mk (by assumption) .rfl .rfl .rfl .rfl .rfl .rfl .rfl id | refine set_mk ?_ .rfl .rfl .rfl .rfl .rfl .rfl .rfl id

theorem book_kept {x0 : State} (x1 : Nat) (x2 : LedgerMsg) (h0 : Kept q b x0) : Kept q b (@State.book x0 x1 x2) := by
  unfold State.book
  with_reducible repeat' first | assumption | apply onRed_kept | apply raise_kept | split

theorem cancelAll_kept {x0 : State} (h0 : Kept q b x0) : Kept q b (@State.cancelAll x0) := by
  unfold State.cancelAll
  try dsimp only
  with_reducible repeat' first | assumption | apply finish_kept | split | intro _ | apply foldl_kept

theorem shipEnd_kept {x0 : State} (x1 : Ship) (x2 : Nat) (h0 : Kept q b x0) : Kept q b (@State.shipEnd x0 x1 x2) := by
  unfold State.shipEnd
  try dsimp only
  repeat' (first
    | with_reducible assumption
    | with_reducible apply finish_kept
    | with_reducible apply on_step
    | with_reducible apply opt_some
    | with_reducible apply opt_none
    | with_reducible apply sub_app
    | with_reducible apply out_next
    | with_reducible apply out_fault
    | with_reducible apply out_refused
    | with_reducible apply foldl_kept
    | with_reducible apply foldl_kept1
    | with_reducible apply foldl_kept2
    | with_reducible apply foldl_kept21
    | with_reducible apply foldl_kept22
    | with_reducible exact HalOk.rfl
    | with_reducible exact HbmOk.rfl
    | with_reducible exact PwrOk.rfl
    | with_reducible exact HeatOk.rfl
    | with_reducible exact PkgOk.rfl
    | with_reducible exact StepOk.rfl
    | with_reducible exact FlashOk.rfl
    | with_reducible exact id
    | with_reducible refine HalOk.mk ?_ ?_ ?_ ?_
    | with_reducible refine HbmOk.mk ?_ ?_ ?_
    | with_reducible refine PwrOk.mk ?_ ?_
    | with_reducible refine HeatOk.mk ?_
    | with_reducible refine PkgOk.mk ?_ ?_
    | with_reducible refine StepOk.mk ?_
    | with_reducible refine FlashOk.mk ?_ ?_ ?_ ?_
    | exact id
    | with_reducible apply wf_upd
    | with_reducible apply wf_setList
    | with_reducible apply wf_copy
    | with_reducible apply wf_clear
    | decide
    | (simp only [setAt_length, List.length_map, List.length_zipIdx]; exact id)
    | split
    | intro _
    | dsimp only
    | with_reducible apply wf_foldl
    | with_reducible apply wf_set
    | simp only [kept_mk]
    | with_reducible refine set_mk ?_ ?_ ?_ ?_ ?_ ?_ ?_ ?_ ?_)

theorem finishAll_kept {x0 : State} (x1 : Nat) (x2 : Nat) (x3 : optParam Bytes []) (h0 : Kept q b x0) : Kept q b (@State.finishAll x0 x1 x2 x3) := by
  unfold State.finishAll
  try dsimp only
  with_reducible repeat' first | assumption | apply finish_kept | split | intro _ | apply foldl_kept

theorem cancelJob_kept {x0 : State} (h0 : Kept q b x0) : Kept q b (@State.cancelJob x0) := by
  unfold State.cancelJob
  with_reducible repeat' first | assumption | apply shipEnd_kept | apply finishAll_kept | split

theorem carousel_kept {x0 : State} (h0 : Kept q b x0) : Kept q b (@State.carousel x0) := by
  unfold State.carousel
  try dsimp only
  with_reducible repeat' first | assumption | apply onEntry_kept | apply onRegion_kept | apply onTile_kept | split | intro _ | apply foldl_kept

theorem tellAbove_kept {x0 : State} (x1 : Nat) (x2 : List Nat) (h0 : Kept q b x0) : Kept q b (@State.tellAbove x0 x1 x2) := by
  unfold State.tellAbove
  with_reducible repeat' first | assumption | apply say_kept | split

theorem toMembers_kept {x0 : State} (x1 : Nat) (x2 : List Nat) (h0 : Kept q b x0) : Kept q b (@State.toMembers x0 x1 x2) := by
  unfold State.toMembers
  try dsimp only
  with_reducible repeat' first | assumption | apply say_kept | split | intro _ | apply foldl_kept

theorem failLedger_kept {x0 : State} (x1 : Nat) (h0 : Kept q b x0) : Kept q b (@State.failLedger x0 x1) := by
  unfold State.failLedger
  with_reducible repeat' first | assumption | apply onRed_kept | apply report_kept | apply raise_kept | apply toMembers_kept | split

theorem openLedger_kept {x0 : State} (x1 : Nat) (x2 : Nat) (x3 : Nat) (x4 : Nat) (h0 : Kept q b x0) : Kept q b (@State.openLedger x0 x1 x2 x3 x4) := by
  unfold State.openLedger
  with_reducible repeat' first | assumption | apply onRed_kept | split

theorem issue_kept {x0 : State} (x1 : Order) (h0 : Kept q b x0) : Kept q b (@State.issue x0 x1) := by
  unfold State.issue
  try dsimp only
  with_reducible repeat' first | assumption | apply toMembers_kept | apply onRed_kept | apply openLedger_kept | apply raise_kept | split

theorem leadDecide_kept {x0 : State} (x1 : Order) (h0 : Kept q b x0) : Kept q b (@State.leadDecide x0 x1) := by
  unfold State.leadDecide
  try dsimp only
  with_reducible repeat' first | assumption | apply onRed_kept | apply askStandby_kept | apply issue_kept | split

theorem causeAt_kept {x0 : State} (x1 : Nat) (h0 : Kept q b x0) : Kept q b (@State.causeAt x0 x1) := by
  unfold State.causeAt
  with_reducible repeat' first | assumption | apply tellAbove_kept | apply failLedger_kept | apply leadDecide_kept | split

theorem checkCommit_kept {x0 : State} (h0 : Kept q b x0) : Kept q b (@State.checkCommit x0) := by
  unfold State.checkCommit
  try dsimp only
  with_reducible repeat' first | assumption | apply leadDecide_kept | split

theorem clampBudget_kept {x0 : State} (x1 : Nat) (x2 : Nat) (h0 : Kept q b x0) : Kept q b ((@State.clampBudget x0 x1 x2)).2 := by
  unfold State.clampBudget
  try dsimp only
  with_reducible repeat' first | assumption | apply raise_kept | split

theorem clearCounts_kept {x0 : State} (h0 : Kept q b x0) : Kept q b (@State.clearCounts x0) := by
  unfold State.clearCounts
  try dsimp only
  repeat' (first
    | with_reducible assumption
    | with_reducible apply allTiles_kept
    | with_reducible apply on_step
    | with_reducible apply opt_some
    | with_reducible apply opt_none
    | with_reducible apply sub_app
    | with_reducible apply out_next
    | with_reducible apply out_fault
    | with_reducible apply out_refused
    | with_reducible apply foldl_kept
    | with_reducible apply foldl_kept1
    | with_reducible apply foldl_kept2
    | with_reducible apply foldl_kept21
    | with_reducible apply foldl_kept22
    | with_reducible exact HalOk.rfl
    | with_reducible exact HbmOk.rfl
    | with_reducible exact PwrOk.rfl
    | with_reducible exact HeatOk.rfl
    | with_reducible exact PkgOk.rfl
    | with_reducible exact StepOk.rfl
    | with_reducible exact FlashOk.rfl
    | with_reducible exact id
    | with_reducible refine HalOk.mk ?_ ?_ ?_ ?_
    | with_reducible refine HbmOk.mk ?_ ?_ ?_
    | with_reducible refine PwrOk.mk ?_ ?_
    | with_reducible refine HeatOk.mk ?_
    | with_reducible refine PkgOk.mk ?_ ?_
    | with_reducible refine StepOk.mk ?_
    | with_reducible refine FlashOk.mk ?_ ?_ ?_ ?_
    | exact id
    | with_reducible apply wf_upd
    | with_reducible apply wf_setList
    | with_reducible apply wf_copy
    | with_reducible apply wf_clear
    | decide
    | (simp only [setAt_length, List.length_map, List.length_zipIdx]; exact id)
    | split
    | intro _
    | dsimp only
    | with_reducible apply wf_foldl
    | with_reducible apply wf_set
    | simp only [kept_mk]
    | with_reducible refine set_mk ?_ ?_ ?_ ?_ ?_ ?_ ?_ ?_ ?_)

theorem closeSession_kept {x0 : State} (x1 : Nat) (h0 : Kept q b x0) : Kept q b (@State.closeSession x0 x1) := by
  unfold State.closeSession
  try dsimp only
  repeat' (first
    | with_reducible assumption
    | with_reducible apply on_hal
    | with_reducible apply opt_some
    | with_reducible apply opt_none
    | with_reducible apply sub_app
    | with_reducible apply out_next
    | with_reducible apply out_fault
    | with_reducible apply out_refused
    | with_reducible apply foldl_kept
    | with_reducible apply foldl_kept1
    | with_reducible apply foldl_kept2
    | with_reducible apply foldl_kept21
    | with_reducible apply foldl_kept22
    | with_reducible exact HalOk.rfl
    | with_reducible exact HbmOk.rfl
    | with_reducible exact PwrOk.rfl
    | with_reducible exact HeatOk.rfl
    | with_reducible exact PkgOk.rfl
    | with_reducible exact StepOk.rfl
    | with_reducible exact FlashOk.rfl
    | with_reducible exact id
    | with_reducible refine HalOk.mk ?_ ?_ ?_ ?_
    | with_reducible refine HbmOk.mk ?_ ?_ ?_
    | with_reducible refine PwrOk.mk ?_ ?_
    | with_reducible refine HeatOk.mk ?_
    | with_reducible refine PkgOk.mk ?_ ?_
    | with_reducible refine StepOk.mk ?_
    | with_reducible refine FlashOk.mk ?_ ?_ ?_ ?_
    | exact id
    | with_reducible apply wf_upd
    | with_reducible apply wf_setList
    | with_reducible apply wf_copy
    | with_reducible apply wf_clear
    | decide
    | (simp only [setAt_length, List.length_map, List.length_zipIdx]; exact id)
    | split
    | intro _
    | dsimp only
    | with_reducible apply wf_foldl
    | with_reducible apply wf_set
    | simp only [kept_mk]
    | with_reducible refine set_mk ?_ ?_ ?_ ?_ ?_ ?_ ?_ ?_ ?_)

theorem colError_kept {x0 : State} (x1 : Nat) (x2 : Nat) (x3 : Bool) (h0 : Kept q b x0) : Kept q b (@State.colError x0 x1 x2 x3) := by
  unfold State.colError
  try dsimp only
  with_reducible repeat' first | assumption | apply onSlot_kept | apply retireCol_kept | apply report_kept | split

theorem combineAll_kept {x0 : State} (h0 : Kept q b x0) : Kept q b (@State.combineAll x0) := by
  unfold State.combineAll
  try dsimp only
  with_reducible repeat' first | assumption | apply combineOut_kept | split | intro _ | apply foldl_kept

theorem rxCount_kept {x0 : State} (x1 : Nat) (x2 : Nat) (h0 : Kept q b x0) : Kept q b (@State.rxCount x0 x1 x2) := by
  unfold State.rxCount
  with_reducible repeat' first | assumption | apply onPort_kept | split

theorem heardFrom_kept {x0 : State} (x1 : Hdr) (h0 : Kept q b x0) : Kept q b (@State.heardFrom x0 x1) := by
  unfold State.heardFrom
  with_reducible repeat' first | assumption | apply onSession_kept | apply rxCount_kept | split

theorem reject_kept {x0 : State} (x1 : Hdr) (x2 : Nat) (x3 : Nat) (x4 : optParam Bytes []) (h0 : Kept q b x0) : Kept q b (@State.reject x0 x1 x2 x3 x4) := by
  unfold State.reject
  with_reducible repeat' first | assumption | apply sendMsg_kept | split

theorem command_kept {x0 : State} (x1 : Hdr) (x2 : Nat) (x3 : Nat) (x4 : Bool) (x5 : PendCmd → State → State) (h0 : Kept q b x0) (h5 : ∀ y0 y1, Kept q b y1 → Kept q b (x5 y0 y1)) : Kept q b (@State.command x0 x1 x2 x3 x4 x5) := by
  unfold State.command
  try dsimp only
  with_reducible repeat' first | assumption | apply authFail_kept | apply rxCount_kept | apply heardFrom_kept | apply reject_kept | apply draw_kept | apply onSession_kept | apply answer_kept | apply h5 | split

theorem commitLocal_kept {x0 : State} (x1 : Nat) (h0 : Kept q b x0) : Kept q b (@State.commitLocal x0 x1) := by
  unfold State.commitLocal
  try dsimp only
  repeat' (first
    | with_reducible assumption
    | with_reducible apply report_kept
    | with_reducible apply tryCommit_kept
    | with_reducible apply on_step
    | with_reducible apply opt_some
    | with_reducible apply opt_none
    | with_reducible apply sub_app
    | with_reducible apply out_next
    | with_reducible apply out_fault
    | with_reducible apply out_refused
    | with_reducible apply foldl_kept
    | with_reducible apply foldl_kept1
    | with_reducible apply foldl_kept2
    | with_reducible apply foldl_kept21
    | with_reducible apply foldl_kept22
    | with_reducible exact HalOk.rfl
    | with_reducible exact HbmOk.rfl
    | with_reducible exact PwrOk.rfl
    | with_reducible exact HeatOk.rfl
    | with_reducible exact PkgOk.rfl
    | with_reducible exact StepOk.rfl
    | with_reducible exact FlashOk.rfl
    | with_reducible exact id
    | with_reducible refine HalOk.mk ?_ ?_ ?_ ?_
    | with_reducible refine HbmOk.mk ?_ ?_ ?_
    | with_reducible refine PwrOk.mk ?_ ?_
    | with_reducible refine HeatOk.mk ?_
    | with_reducible refine PkgOk.mk ?_ ?_
    | with_reducible refine StepOk.mk ?_
    | with_reducible refine FlashOk.mk ?_ ?_ ?_ ?_
    | exact id
    | with_reducible apply wf_upd
    | with_reducible apply wf_setList
    | with_reducible apply wf_copy
    | with_reducible apply wf_clear
    | decide
    | (simp only [setAt_length, List.length_map, List.length_zipIdx]; exact id)
    | split
    | intro _
    | dsimp only
    | with_reducible apply wf_foldl
    | with_reducible apply wf_set
    | simp only [kept_mk]
    | with_reducible refine set_mk ?_ ?_ ?_ ?_ ?_ ?_ ?_ ?_ ?_)

theorem memReply_kept {x0 : State} (x1 : PendCmd) (h0 : Kept q b x0) : Kept q b (@State.memReply x0 x1) := by
  unfold State.memReply
  with_reducible repeat' first | assumption | apply finish_kept | split

theorem payMem_kept {x0 : State} (h0 : Kept q b x0) : Kept q b (@State.payMem x0) := by
  unfold State.payMem
  try dsimp only
  with_reducible repeat' first | assumption | apply memReply_kept | split | intro _ | apply foldl_kept

end Sys2Proof.Machine
end

