-- ==== Sys2Proof/Laws/Keep3.lean ====
section
/-! SUPPORT. `Kept` for the operations and commands of the model, in the order in which they use each other: part 3 of 7. -/

namespace Sys2Proof.Machine

set_option linter.unusedSimpArgs false
set_option linter.unusedTactic false
set_option linter.unreachableTactic false

variable {q : Prop} {b : State}

theorem payOne_kept {x0 : State} (x1 : Owed) (h0 : Kept q b x0) : Kept q b (@State.payOne x0 x1) := by
  unfold State.payOne
  with_reducible repeat' first | assumption | apply onFab_kept | apply onSender_kept | apply respond_kept | split

theorem payOwed_kept {x0 : State} (h0 : Kept q b x0) : Kept q b (@State.payOwed x0) := by
  unfold State.payOwed
  try dsimp only
  with_reducible repeat' first | assumption | apply payMem_kept | apply payOne_kept | split | intro _ | apply foldl_kept

theorem reqDone_kept {x0 : State} (x1 : Req) (x2 : Nat) (x3 : Bytes) (h0 : Kept q b x0) : Kept q b (@State.reqDone x0 x1 x2 x3) := by
  unfold State.reqDone
  with_reducible repeat' first | assumption | apply payOwed_kept | apply settle_kept | split

theorem loadSender_kept {x0 : State} (x1 : Nat) (h0 : Kept q b x0) : Kept q b (@State.loadSender x0 x1) := by
  unfold State.loadSender
  with_reducible repeat' first | assumption | apply onFab_kept | apply onSender_kept | split

theorem saveSender_kept {x0 : State} (x1 : Nat) (x2 : Sender) (h0 : Kept q b x0) : Kept q b (@State.saveSender x0 x1 x2) := by
  unfold State.saveSender
  with_reducible repeat' first | assumption | apply putHbm_kept | apply onFab_kept | split

theorem context_kept {x0 : State} (x1 : Nat) (h0 : Kept q b x0) : OptKept q b (@State.context x0 x1) := by
  unfold State.context
  with_reducible repeat' first | assumption | apply loadSender_kept | apply saveSender_kept | apply opt_some | exact opt_none | split

theorem retry_kept {x0 : State} (x1 : Pkt) (x2 : Option Nat) (h0 : Kept q b x0) : Kept q b (@State.retry x0 x1 x2) := by
  unfold State.retry
  try dsimp only
  with_reducible repeat' first | assumption | apply draw_kept | apply onFab_kept | apply putOff_kept | split

theorem enqueue_kept {x0 : State} (x1 : Held) (h0 : Kept q b x0) : Kept q b (@State.enqueue x0 x1) := by
  unfold State.enqueue
  with_reducible repeat' first | assumption | apply onFab_kept | split

theorem enter_kept {x0 : State} (x1 : Pkt) (x2 : Bool) (x3 : Bool) (x4 : List UnitErr) (h0 : Kept q b x0) : Kept q b (@State.enter x0 x1 x2 x3 x4) := by
  have h1 := raw_obs (x := { x0.obs with homeReqs := sat64 x0.obs.homeReqs 1 }) h0
  have nx : ∀ {s : State}, Kept q b s → Kept q b (if x1.wseq = 0 then s else s.onSender x1.src fun x => { x with next := nextWseq x1.wseq }) := by
    intro s h; split
    · exact h
    · exact onSender_kept _ _ h
  unfold State.enter
  generalize ({ x0 with obs := { x0.obs with homeReqs := sat64 x0.obs.homeReqs 1 } } : State) = s1 at h1 ⊢
  extract_lets nxt s0 st s2 s3
  have h2 : Kept q b s2 := onFab_kept _ h1
  have h3 : Kept q b s3 := nx h2
  split
  · exact respond_kept _ _ _ (nx h1)
  · split
    · rename_i e; exact putOff_kept _ _ _ _ _ (busyTime_kept _ h1 _ e)
    · split
      · exact respond_kept _ _ _ h3
      · split
        · exact enqueue_kept _ h3
        · exact serve_kept _ _ _ (onFab_kept _ h3)

theorem home_kept {x0 : State} (x1 : Pkt) (x2 : Bool) (x3 : List UnitErr) (h0 : Kept q b x0) : Kept q b (@State.home x0 x1 x2 x3) := by
  unfold State.home
  extract_lets own
  split
  · exact sendPkt_kept _ h0
  · split
    · exact putOff_kept _ _ _ _ _ (draw_kept _ h0)
    · split
      · exact retry_kept _ _ h0
      · rename_i s e
        have hs := (context_kept x1.src h0).ok _ e
        clear e
        extract_lets s1 e s2 s3 nx s4
        have h1 : Kept q b s1 := by
          show Kept q b (if _ then _ else _)
          split
          · exact hs
          · exact onSender_kept _ _ hs
        have h2 : Kept q b s2 := by
          dsimp only [s2]
          split
          · exact onFab_kept _ h1
          · exact h1
        have h3 : Kept q b s3 := onSender_kept _ _ h2
        have h4 : Kept q b s4 := onFab_kept _ h3
        clear_value s4 nx s3 s2 s1
        split
        · exact retry_kept _ _ h1
        · split
          · exact enter_kept _ _ _ _ h2
          · split
            · exact respond_kept _ _ _ h2
            · split
              · split
                · exact retry_kept _ _ h3
                · exact enter_kept _ _ _ _ h3
              · split
                · exact h3
                · split
                  · split
                    · exact enqueue_kept _ h4
                    · exact answerDup_kept _ h4
                  · exact putOff_kept _ _ _ _ _ h3

theorem emit_kept {x0 : State} (x1 : Req) (h0 : Kept q b x0) : Kept q b (@State.emit x0 x1) := by
  unfold State.emit
  with_reducible repeat' first | assumption | apply onFab_kept | apply home_kept | apply transmit_kept | split

theorem localReq_kept {x0 : State} (x1 : Nat) (x2 : Nat) (x3 : Bytes) (x4 : Nat) (x5 : Nat) (x6 : Nat) (x7 : Nat) (x8 : Purpose) (h0 : Kept q b x0) : Kept q b (@State.localReq x0 x1 x2 x3 x4 x5 x6 x7 x8) := by
  unfold State.localReq
  try dsimp only
  with_reducible repeat' first | assumption | apply onPeer_kept | apply onFab_kept | apply emit_kept | split

theorem fabReq_kept {x0 : State} (x1 : Nat) (x2 : Nat) (x3 : Bytes) (x4 : Nat) (x5 : Nat) (x6 : Nat) (x7 : Nat) (x8 : Purpose) (h0 : Kept q b x0) : Kept q b (@State.fabReq x0 x1 x2 x3 x4 x5 x6 x7 x8) := by
  unfold State.fabReq
  with_reducible repeat' first | assumption | apply localReq_kept | apply sendReq_kept | split

theorem copyOut_kept {x0 : State} (x1 : Nat) (x2 : Nat) (x3 : Bytes) (x4 : Nat) (x5 : List MoveUnit) (h0 : Kept q b x0) : Kept q b (@State.copyOut x0 x1 x2 x3 x4 x5) := by
  unfold State.copyOut
  try dsimp only
  with_reducible repeat' first | assumption | apply fabReq_kept | split | intro _ | apply foldl_kept

theorem copyReadDone_kept {x0 : State} (x1 : Nat) (x2 : Nat) (x3 : Nat) (x4 : Req) (x5 : Nat) (x6 : Bytes) (h0 : Kept q b x0) : Kept q b (@State.copyReadDone x0 x1 x2 x3 x4 x5 x6) := by
  unfold State.copyReadDone
  try dsimp only
  with_reducible repeat' first | assumption | apply draw_kept | apply copyOut_kept | apply askUnits_kept | apply draws_kept | apply onFabCmd_kept | apply onFab_kept | split

theorem complete_kept {x0 : State} (x1 : Req) (x2 : Nat) (x3 : Bytes) (h0 : Kept q b x0) : Kept q b (@State.complete x0 x1 x2 x3) := by
  unfold State.complete
  with_reducible repeat' first | assumption | apply copyReadDone_kept | apply reqDone_kept | split

theorem coolEvents_kept {x0 : State} (h0 : Kept q b x0) : Kept q b (@State.coolEvents x0) := by
  unfold State.coolEvents
  try dsimp only
  repeat' (first
    | with_reducible assumption
    | with_reducible apply raise_kept
    | with_reducible apply on_heat
    | with_reducible apply opt_some
    | with_reducible apply opt_none
    | with_reducible apply sub_app
    | with_reducible apply out_next
    | with_reducible apply out_fault
    | with_reducible apply out_refused
    | with_reducible apply foldl_kept
    | with_reducible apply foldl_kept1
    | with_reducible apply foldl_kept2
    | with_reducible apply foldl_kept21
    | with_reducible apply foldl_kept22
    | with_reducible exact HalOk.rfl
    | with_reducible exact HbmOk.rfl
    | with_reducible exact PwrOk.rfl
    | with_reducible exact HeatOk.rfl
    | with_reducible exact PkgOk.rfl
    | with_reducible exact StepOk.rfl
    | with_reducible exact FlashOk.rfl
    | with_reducible exact id
    | with_reducible refine HalOk.mk ?_ ?_ ?_ ?_
    | with_reducible refine HbmOk.mk ?_ ?_ ?_
    | with_reducible refine PwrOk.mk ?_ ?_
    | with_reducible refine HeatOk.mk ?_
    | with_reducible refine PkgOk.mk ?_ ?_
    | with_reducible refine StepOk.mk ?_
    | with_reducible refine FlashOk.mk ?_ ?_ ?_ ?_
    | exact id
    | with_reducible apply wf_upd
    | with_reducible apply wf_setList
    | with_reducible apply wf_copy
    | with_reducible apply wf_clear
    | decide
    | (simp only [setAt_length, List.length_map, List.length_zipIdx]; exact id)
    | split
    | intro _
    | dsimp only
    | with_reducible apply wf_foldl
    | with_reducible apply wf_set
    | simp only [kept_mk]
    | with_reducible refine set_mk ?_ ?_ ?_ ?_ ?_ ?_ ?_ ?_ ?_)

theorem coolLimit_kept {x0 : State} (h0 : Kept q b x0) : Kept q b (@State.coolLimit x0) := by
  unfold State.coolLimit
  try dsimp only
  repeat' (first
    | with_reducible assumption
    | with_reducible apply on_pwr
    | with_reducible apply on_heat
    | with_reducible apply opt_some
    | with_reducible apply opt_none
    | with_reducible apply sub_app
    | with_reducible apply out_next
    | with_reducible apply out_fault
    | with_reducible apply out_refused
    | with_reducible apply foldl_kept
    | with_reducible apply foldl_kept1
    | with_reducible apply foldl_kept2
    | with_reducible apply foldl_kept21
    | with_reducible apply foldl_kept22
    | with_reducible exact HalOk.rfl
    | with_reducible exact HbmOk.rfl
    | with_reducible exact PwrOk.rfl
    | with_reducible exact HeatOk.rfl
    | with_reducible exact PkgOk.rfl
    | with_reducible exact StepOk.rfl
    | with_reducible exact FlashOk.rfl
    | with_reducible exact id
    | with_reducible refine HalOk.mk ?_ ?_ ?_ ?_
    | with_reducible refine HbmOk.mk ?_ ?_ ?_
    | with_reducible refine PwrOk.mk ?_ ?_
    | with_reducible refine HeatOk.mk ?_
    | with_reducible refine PkgOk.mk ?_ ?_
    | with_reducible refine StepOk.mk ?_
    | with_reducible refine FlashOk.mk ?_ ?_ ?_ ?_
    | exact id
    | with_reducible apply wf_upd
    | with_reducible apply wf_setList
    | with_reducible apply wf_copy
    | with_reducible apply wf_clear
    | decide
    | (simp only [setAt_length, List.length_map, List.length_zipIdx]; exact id)
    | split
    | intro _
    | dsimp only
    | with_reducible apply wf_foldl
    | with_reducible apply wf_set
    | simp only [kept_mk]
    | with_reducible refine set_mk ?_ ?_ ?_ ?_ ?_ ?_ ?_ ?_ ?_)

theorem trayReq_kept {x0 : State} (h0 : Kept q b x0) : Kept q b (@State.trayReq x0) := by
  unfold State.trayReq
  with_reducible repeat' first | assumption | apply send_kept | split

theorem coolStop_kept {x0 : State} (x1 : Nat) (x2 : Nat) (x3 : Int) (h0 : Kept q b x0) : Kept q b (@State.coolStop x0 x1 x2 x3) := by
  unfold State.coolStop
  try dsimp only
  repeat' (first
    | with_reducible assumption
    | with_reducible apply forceOn_kept
    | with_reducible apply report_kept
    | with_reducible apply requestRepeat_kept
    | with_reducible apply raise_kept
    | with_reducible apply trayReq_kept
    | with_reducible apply on_pwr
    | with_reducible apply on_heat
    | with_reducible apply opt_some
    | with_reducible apply opt_none
    | with_reducible apply sub_app
    | with_reducible apply out_next
    | with_reducible apply out_fault
    | with_reducible apply out_refused
    | with_reducible apply foldl_kept
    | with_reducible apply foldl_kept1
    | with_reducible apply foldl_kept2
    | with_reducible apply foldl_kept21
    | with_reducible apply foldl_kept22
    | with_reducible exact HalOk.rfl
    | with_reducible exact HbmOk.rfl
    | with_reducible exact PwrOk.rfl
    | with_reducible exact HeatOk.rfl
    | with_reducible exact PkgOk.rfl
    | with_reducible exact StepOk.rfl
    | with_reducible exact FlashOk.rfl
    | with_reducible exact id
    | with_reducible refine HalOk.mk ?_ ?_ ?_ ?_
    | with_reducible refine HbmOk.mk ?_ ?_ ?_
    | with_reducible refine PwrOk.mk ?_ ?_
    | with_reducible refine HeatOk.mk ?_
    | with_reducible refine PkgOk.mk ?_ ?_
    | with_reducible refine StepOk.mk ?_
    | with_reducible refine FlashOk.mk ?_ ?_ ?_ ?_
    | exact id
    | with_reducible apply wf_upd
    | with_reducible apply wf_setList
    | with_reducible apply wf_copy
    | with_reducible apply wf_clear
    | decide
    | (simp only [setAt_length, List.length_map, List.length_zipIdx]; exact id)
    | split
    | intro _
    | dsimp only
    | with_reducible apply wf_foldl
    | with_reducible apply wf_set
    | simp only [kept_mk]
    | with_reducible refine set_mk ?_ ?_ ?_ ?_ ?_ ?_ ?_ ?_ ?_)

theorem copyFlush_kept {x0 : State} (x1 : Nat) (x2 : FabCmd) (h0 : Kept q b x0) : Kept q b (@State.copyFlush x0 x1 x2) := by
  unfold State.copyFlush
  with_reducible repeat' first | assumption | apply onFabCmd_kept | apply copyOut_kept | split

theorem copyFlushAll_kept {x0 : State} (h0 : Kept q b x0) : Kept q b (@State.copyFlushAll x0) := by
  unfold State.copyFlushAll
  try dsimp only
  with_reducible repeat' first | assumption | apply copyFlush_kept | split | intro _ | apply foldl_kept

theorem countPn_kept {x0 : State} (x1 : Nat) (x2 : Nat) (h0 : Kept q b x0) : Kept q b (@State.countPn x0 x1 x2) := by
  unfold State.countPn
  with_reducible repeat' first | assumption | apply onOps_kept | split

theorem countStale_kept {x0 : State} (h0 : Kept q b x0) : Kept q b (@State.countStale x0) := by
  unfold State.countStale
  try dsimp only
  with_reducible repeat' first | assumption | split | intro _ | apply foldl_kept | simp only [kept_mk] | exact set_mk (by assumption) .rfl .rfl .rfl .rfl .rfl .rfl .rfl id | refine set_mk ?_ .rfl .rfl .rfl .rfl .rfl .rfl .rfl id

theorem dead_kept {x0 : State} (x1 : Bool) (h0 : Kept q b x0) : Kept q b (@State.dead x0 x1) := by
  unfold State.dead
  simp only [kept_mk]
  exact set_mk h0 .rfl (pkgOk_reset _ _) (halOk_reset _ _) (hbmOk_reset _) ⟨fun _ => by decide⟩ ⟨fun _ => rfl, fun _ => rfl⟩
    ⟨fun _ => List.length_replicate⟩ (fun _ => rfl)

theorem deliverHeld_kept {x0 : State} (x1 : Nat) (h0 : Kept q b x0) : Kept q b (@State.deliverHeld x0 x1) := by
  unfold State.deliverHeld
  try dsimp only
  repeat' (first
    | with_reducible assumption
    | with_reducible apply sendMsg_kept
    | with_reducible apply onSession_kept
    | with_reducible apply on_hal
    | with_reducible apply opt_some
    | with_reducible apply opt_none
    | with_reducible apply sub_app
    | with_reducible apply out_next
    | with_reducible apply out_fault
    | with_reducible apply out_refused
    | with_reducible apply foldl_kept
    | with_reducible apply foldl_kept1
    | with_reducible apply foldl_kept2
    | with_reducible apply foldl_kept21
    | with_reducible apply foldl_kept22
    | with_reducible exact HalOk.rfl
    | with_reducible exact HbmOk.rfl
    | with_reducible exact PwrOk.rfl
    | with_reducible exact HeatOk.rfl
    | with_reducible exact PkgOk.rfl
    | with_reducible exact StepOk.rfl
    | with_reducible exact FlashOk.rfl
    | with_reducible exact id
    | with_reducible refine HalOk.mk ?_ ?_ ?_ ?_
    | with_reducible refine HbmOk.mk ?_ ?_ ?_
    | with_reducible refine PwrOk.mk ?_ ?_
    | with_reducible refine HeatOk.mk ?_
    | with_reducible refine PkgOk.mk ?_ ?_
    | with_reducible refine StepOk.mk ?_
    | with_reducible refine FlashOk.mk ?_ ?_ ?_ ?_
    | exact id
    | with_reducible apply wf_upd
    | with_reducible apply wf_setList
    | with_reducible apply wf_copy
    | with_reducible apply wf_clear
    | decide
    | (simp only [setAt_length, List.length_map, List.length_zipIdx]; exact id)
    | split
    | intro _
    | dsimp only
    | with_reducible apply wf_foldl
    | with_reducible apply wf_set
    | simp only [kept_mk]
    | with_reducible refine set_mk ?_ ?_ ?_ ?_ ?_ ?_ ?_ ?_ ?_)

theorem deviceReset_kept {x0 : State} (h0 : Kept q b x0) : Kept q b (@State.deviceReset x0) := by
  unfold State.deviceReset
  simp only [kept_mk]
  exact set_mk h0 .rfl (pkgOk_reset _ _) (halOk_reset _ _) (hbmOk_reset _) ⟨fun _ => by decide⟩ ⟨fun _ => rfl, fun _ => rfl⟩
    ⟨fun h => by simpa [Heat.kept] using h⟩ (fun _ => rfl)

theorem disturb_kept {x0 : State} (x1 : Nat) (x2 : List (Nat × Nat)) (h0 : Kept q b x0) : Kept q b (@State.disturb x0 x1 x2) := by
  unfold State.disturb
  try dsimp only
  repeat' (first
    | with_reducible assumption
    | with_reducible apply opt_some
    | with_reducible apply opt_none
    | with_reducible apply sub_app
    | with_reducible apply out_next
    | with_reducible apply out_fault
    | with_reducible apply out_refused
    | with_reducible apply foldl_kept
    | with_reducible apply foldl_kept1
    | with_reducible apply foldl_kept2
    | with_reducible apply foldl_kept21
    | with_reducible apply foldl_kept22
    | with_reducible exact HalOk.rfl
    | with_reducible exact HbmOk.rfl
    | with_reducible exact PwrOk.rfl
    | with_reducible exact HeatOk.rfl
    | with_reducible exact PkgOk.rfl
    | with_reducible exact StepOk.rfl
    | with_reducible exact FlashOk.rfl
    | with_reducible exact id
    | with_reducible refine HalOk.mk ?_ ?_ ?_ ?_
    | with_reducible refine HbmOk.mk ?_ ?_ ?_
    | with_reducible refine PwrOk.mk ?_ ?_
    | with_reducible refine HeatOk.mk ?_
    | with_reducible refine PkgOk.mk ?_ ?_
    | with_reducible refine StepOk.mk ?_
    | with_reducible refine FlashOk.mk ?_ ?_ ?_ ?_
    | exact id
    | with_reducible apply wf_upd
    | with_reducible apply wf_setList
    | with_reducible apply wf_copy
    | with_reducible apply wf_clear
    | decide
    | (simp only [setAt_length, List.length_map, List.length_zipIdx]; exact id)
    | split
    | intro _
    | dsimp only
    | with_reducible apply wf_foldl
    | with_reducible apply wf_set
    | simp only [kept_mk]
    | with_reducible refine set_mk ?_ ?_ ?_ ?_ ?_ ?_ ?_ ?_ ?_)

theorem memFetch_kept {x0 : State} (x1 : Nat) (x2 : Nat) (x3 : Nat) (x4 : Nat) (h0 : Kept q b x0) : Kept q b ((@State.memFetch x0 x1 x2 x3 x4)).2.2 := by
  unfold State.memFetch
  try dsimp only
  with_reducible repeat' first | assumption | apply combineAt_kept | apply touch_kept | apply sendReq_kept | apply getSpan_kept | apply foldl_kept | apply foldl_kept1 | apply foldl_kept2 | apply foldl_kept21 | apply foldl_kept22 | split | intro _

theorem pend_kept {x0 : State} (x1 : PendCmd) (h0 : Kept q b x0) : Kept q b (@State.pend x0 x1) := by
  unfold State.pend
  try dsimp only
  repeat' (first
    | with_reducible assumption
    | with_reducible apply answer_kept
    | with_reducible apply on_hal
    | with_reducible apply opt_some
    | with_reducible apply opt_none
    | with_reducible apply sub_app
    | with_reducible apply out_next
    | with_reducible apply out_fault
    | with_reducible apply out_refused
    | with_reducible apply foldl_kept
    | with_reducible apply foldl_kept1
    | with_reducible apply foldl_kept2
    | with_reducible apply foldl_kept21
    | with_reducible apply foldl_kept22
    | with_reducible exact HalOk.rfl
    | with_reducible exact HbmOk.rfl
    | with_reducible exact PwrOk.rfl
    | with_reducible exact HeatOk.rfl
    | with_reducible exact PkgOk.rfl
    | with_reducible exact StepOk.rfl
    | with_reducible exact FlashOk.rfl
    | with_reducible exact id
    | with_reducible refine HalOk.mk ?_ ?_ ?_ ?_
    | with_reducible refine HbmOk.mk ?_ ?_ ?_
    | with_reducible refine PwrOk.mk ?_ ?_
    | with_reducible refine HeatOk.mk ?_
    | with_reducible refine PkgOk.mk ?_ ?_
    | with_reducible refine StepOk.mk ?_
    | with_reducible refine FlashOk.mk ?_ ?_ ?_ ?_
    | exact id
    | with_reducible apply wf_upd
    | with_reducible apply wf_setList
    | with_reducible apply wf_copy
    | with_reducible apply wf_clear
    | decide
    | (simp only [setAt_length, List.length_map, List.length_zipIdx]; exact id)
    | split
    | intro _
    | dsimp only
    | with_reducible apply wf_foldl
    | with_reducible apply wf_set
    | simp only [kept_mk]
    | with_reducible refine set_mk ?_ ?_ ?_ ?_ ?_ ?_ ?_ ?_ ?_)

theorem doMemRead_kept {x0 : State} (x1 : PendCmd) (x2 : Nat) (x3 : Nat) (x4 : List UnitErr) (h0 : Kept q b x0) : Kept q b (@State.doMemRead x0 x1 x2 x3 x4) := by
  unfold State.doMemRead
  try dsimp only
  with_reducible repeat' first | assumption | apply rangeErrs_kept | apply memFetch_kept | apply answer_kept | apply pend_kept | split

theorem doMemWrite_kept {x0 : State} (x1 : PendCmd) (x2 : Nat) (x3 : Bytes) (h0 : Kept q b x0) : Kept q b (@State.doMemWrite x0 x1 x2 x3) := by
  unfold State.doMemWrite
  try dsimp only
  with_reducible repeat' first | assumption | apply claim_kept | apply memWrite_kept | apply answer_kept | apply pend_kept | split

theorem onMx_kept {x0 : State} (x1 : Nat) (x2 : Nat) (x3 : MxCmd → MxCmd) (h0 : Kept q b x0) : Kept q b (@State.onMx x0 x1 x2 x3) := by
  unfold State.onMx
  with_reducible repeat' first | assumption | apply onTile_kept | split

theorem drainAwait_kept {x0 : State} (x1 : Nat) (x2 : MxCmd) (x3 : Nat) (h0 : Kept q b x0) : Kept q b (@State.drainAwait x0 x1 x2 x3) := by
  unfold State.drainAwait
  try dsimp only
  with_reducible repeat' first | assumption | apply claim_kept | apply onMx_kept | split

theorem tickTile_kept {x0 : State} (x1 : Nat) (h0 : Kept q b x0) : Kept q b (@State.tickTile x0 x1) := by
  unfold State.tickTile
  with_reducible repeat' first | assumption | apply onTile_kept | split

theorem drainWrite_kept {x0 : State} (x1 : Nat) (x2 : MxCmd) (x3 : Nat) (x4 : Bytes) (x5 : Nat) (x6 : Bool) (h0 : Kept q b x0) : Kept q b ((@State.drainWrite x0 x1 x2 x3 x4 x5 x6)).1 := by
  unfold State.drainWrite
  try dsimp only
  with_reducible repeat' first | assumption | apply onOps_kept | apply claim_kept | apply memWrite_kept | apply onMx_kept | apply sendWrite_kept | split

theorem memRead_kept {x0 : State} (x1 : Nat) (x2 : Nat) (h0 : Kept q b x0) : Kept q b ((@State.memRead x0 x1 x2)).2.2 := by
  unfold State.memRead
  with_reducible repeat' first | assumption | apply rawRead_kept | apply combineAt_kept | split

theorem upset_kept {x0 : State} (x1 : Nat) (x2 : Bool) (h0 : Kept q b x0) : Kept q b ((@State.upset x0 x1 x2)).2.2 := by
  unfold State.upset
  try dsimp only
  with_reducible repeat' first | assumption | split | intro _ | apply foldl_kept | simp only [kept_mk] | exact set_mk (by assumption) .rfl .rfl .rfl .rfl .rfl .rfl .rfl id | refine set_mk ?_ .rfl .rfl .rfl .rfl .rfl .rfl .rfl id

theorem tellOvf_kept {x0 : State} (x1 : Nat) (x2 : Gx) (h0 : Kept q b x0) : Kept q b (@State.tellOvf x0 x1 x2) := by
  unfold State.tellOvf
  with_reducible repeat' first | assumption | apply tellLead_kept | split

theorem sendUp_kept {x0 : State} (x1 : Nat) (x2 : Gx) (h0 : Kept q b x0) : Kept q b (@State.sendUp x0 x1 x2) := by
  unfold State.sendUp
  try dsimp only
  with_reducible repeat' first | assumption | apply say_kept | split | intro _ | apply foldl_kept | simp only [kept_mk] | exact set_mk (by assumption) .rfl .rfl .rfl .rfl .rfl .rfl .rfl id | refine set_mk ?_ .rfl .rfl .rfl .rfl .rfl .rfl .rfl id

theorem resultDown_kept {x0 : State} (x1 : Nat) (x2 : Nat) (x3 : Gx) (h0 : Kept q b x0) : Kept q b (@State.resultDown x0 x1 x2 x3) := by
  unfold State.resultDown
  try dsimp only
  with_reducible repeat' first | assumption | apply say_kept | split | intro _ | apply foldl_kept

theorem putExp_kept {x0 : State} (x1 : Nat) (x2 : Nat) (x3 : Nat) (x4 : Nat) (x5 : Nat) (h0 : Kept q b x0) : Kept q b (@State.putExp x0 x1 x2 x3 x4 x5) := by
  unfold State.putExp
  with_reducible repeat' first | assumption | apply memWrite_kept | split

theorem takeResult_kept {x0 : State} (x1 : Nat) (x2 : Nat) (x3 : Gx) (h0 : Kept q b x0) : Kept q b (@State.takeResult x0 x1 x2 x3) := by
  unfold State.takeResult
  with_reducible repeat' first | assumption | apply tellLead_kept | apply onTag_kept | apply memWrite_kept | apply putExp_kept | split

theorem nodeOut_kept {x0 : State} (x1 : Nat) (x2 : Gx) (h0 : Kept q b x0) : Kept q b (@State.nodeOut x0 x1 x2) := by
  unfold State.nodeOut
  try dsimp only
  with_reducible repeat' first | assumption | apply onTag_kept | apply tellOvf_kept | apply sendUp_kept | apply resultDown_kept | apply tellLead_kept | apply takeResult_kept | split

theorem nodeIn_kept {x0 : State} (x1 : Nat) (x2 : Nat) (x3 : Gx) (x4 : Bool) (x5 : Bool) (h0 : Kept q b x0) : Kept q b (@State.nodeIn x0 x1 x2 x3 x4 x5) := by
  unfold State.nodeIn
  try dsimp only
  with_reducible repeat' first | assumption | apply adderFail_kept | apply adderRetry_kept | apply nodeOut_kept | apply onTag_kept | split

theorem ownTotal_kept {x0 : State} (x1 : Nat) (x2 : Gx) (h0 : Kept q b x0) : Kept q b (@State.ownTotal x0 x1 x2) := by
  unfold State.ownTotal
  try dsimp only
  with_reducible repeat' first | assumption | apply onTag_kept | apply sendUp_kept | apply upset_kept | apply nodeIn_kept | split

theorem holdAdd_kept {x0 : State} (x1 : Nat) (x2 : Gx) (h0 : Kept q b x0) : Kept q b ((@State.holdAdd x0 x1 x2)).1 := by
  unfold State.holdAdd
  try dsimp only
  with_reducible repeat' first | assumption | apply memRead_kept | apply upset_kept | apply adderFail_kept | apply adderRetry_kept | apply tellOvf_kept | apply memWrite_kept | apply onTag_kept | apply ownTotal_kept | split

theorem reduceRow_kept {x0 : State} (x1 : Nat) (x2 : MxCmd) (x3 : Nat) (x4 : List Nat) (x5 : List Nat) (x6 : Bool) (h0 : Kept q b x0) : Kept q b ((@State.reduceRow x0 x1 x2 x3 x4 x5 x6)).1 := by
  unfold State.reduceRow
  try dsimp only
  with_reducible repeat' first | assumption | apply count_kept | apply onOps_kept | apply onTag_kept | apply holdAdd_kept | apply foldl_kept | apply foldl_kept1 | apply foldl_kept2 | apply foldl_kept21 | apply foldl_kept22 | split | intro _

theorem encBlock_kept {x0 : State} (x1 : Desc) (x2 : List Nat) (x3 : List Nat) (x4 : Nat) (x5 : Bool) (h0 : Kept q b x0) : Kept q b ((@State.encBlock x0 x1 x2 x3 x4 x5)).2.1 := by
  unfold State.encBlock
  try dsimp only
  with_reducible repeat' first | assumption | apply memRead_kept | apply count_kept | apply memWrite_kept | split

theorem encBlocks_kept (x0 : Desc) (x1 : Bool) (x2 : Nat) {x3 : State} (x4 : List Nat) (x5 : List Nat) (x6 : Nat) (h3 : Kept q b x3) : Kept q b ((@State.encBlocks x0 x1 x2 x3 x4 x5 x6)).2.1 := by
  induction x2 generalizing x3 x4 x5 x6 with
  | zero =>
  unfold State.encBlocks
  try dsimp only
  with_reducible repeat' first | assumption | apply encBlock_kept | split
  | succ n ih =>
  unfold State.encBlocks
  try dsimp only
  with_reducible repeat' first | assumption | apply ih | apply encBlock_kept | split

theorem encElems_kept {x0 : State} (x1 : Desc) (x2 : List Nat) (x3 : List Nat) (h0 : Kept q b x0) : Kept q b ((@State.encElems x0 x1 x2 x3)).2 := by
  unfold State.encElems
  with_reducible repeat' first | assumption | apply count_kept | split

theorem encRow_kept {x0 : State} (x1 : Desc) (x2 : List Nat) (x3 : List Nat) (x4 : Nat) (x5 : optParam Bool false) (h0 : Kept q b x0) : Kept q b ((@State.encRow x0 x1 x2 x3 x4 x5)).2.1 := by
  unfold State.encRow
  with_reducible repeat' first | assumption | apply encBlocks_kept | apply encElems_kept | split

theorem drainRow_kept {x0 : State} (x1 : Nat) (x2 : MxCmd) (x3 : List Nat) (x4 : Nat) (h0 : Kept q b x0) : Kept q b ((@State.drainRow x0 x1 x2 x3 x4)).1 := by
  unfold State.drainRow
  try dsimp only
  with_reducible repeat' first | assumption | apply auxRow_kept | apply tickTile_kept | apply onTile_kept | apply drainWrite_kept | apply drainAwait_kept | apply onOps_kept | apply reduceRow_kept | apply encRow_kept | split

theorem dropMx_kept {x0 : State} (x1 : Nat) (x2 : Nat) (h0 : Kept q b x0) : Kept q b (@State.dropMx x0 x1 x2) := by
  unfold State.dropMx
  with_reducible repeat' first | assumption | apply onTile_kept | split

theorem faultMx_kept {x0 : State} (x1 : Nat) (x2 : MxCmd) (x3 : Nat) (h0 : Kept q b x0) : Kept q b (@State.faultMx x0 x1 x2 x3) := by
  unfold State.faultMx
  with_reducible repeat' first | assumption | apply fault_kept | apply dropMx_kept | split

theorem drainRows_kept (x0 : Nat) (x1 : MxCmd) (x2 : List Nat) (x3 : Option Nat) (x4 : Sram) (x5 : Nat) {x6 : State} (x7 : Nat) (x8 : Nat) (h6 : Kept q b x6) : Kept q b (@State.drainRows x0 x1 x2 x3 x4 x5 x6 x7 x8) := by
  induction x5 generalizing x0 x1 x2 x3 x4 x6 x7 x8 with
  | zero =>
  unfold State.drainRows
  try dsimp only
  with_reducible repeat' first | assumption | apply onMx_kept | apply faultMx_kept | apply drainRow_kept | split
  | succ n ih =>
  unfold State.drainRows
  try dsimp only
  with_reducible repeat' first | assumption | apply ih | apply onMx_kept | apply faultMx_kept | apply drainRow_kept | split

theorem drainRun_kept {x0 : State} (x1 : Nat) (x2 : MxCmd) (x3 : Option Nat) (x4 : Sram) (h0 : Kept q b x0) : Kept q b (@State.drainRun x0 x1 x2 x3 x4) := by
  unfold State.drainRun
  try dsimp only
  with_reducible repeat' first | assumption | apply faultMx_kept | apply drainRows_kept | split

theorem dropDecision_kept {x0 : State} (x1 : Nat) (h0 : Kept q b x0) : Kept q b (@State.dropDecision x0 x1) := by
  unfold State.dropDecision
  try dsimp only
  repeat' (first
    | with_reducible assumption
    | with_reducible apply on_hal
    | with_reducible apply opt_some
    | with_reducible apply opt_none
    | with_reducible apply sub_app
    | with_reducible apply out_next
    | with_reducible apply out_fault
    | with_reducible apply out_refused
    | with_reducible apply foldl_kept
    | with_reducible apply foldl_kept1
    | with_reducible apply foldl_kept2
    | with_reducible apply foldl_kept21
    | with_reducible apply foldl_kept22
    | with_reducible exact HalOk.rfl
    | with_reducible exact HbmOk.rfl
    | with_reducible exact PwrOk.rfl
    | with_reducible exact HeatOk.rfl
    | with_reducible exact PkgOk.rfl
    | with_reducible exact StepOk.rfl
    | with_reducible exact FlashOk.rfl
    | with_reducible exact id
    | with_reducible refine HalOk.mk ?_ ?_ ?_ ?_
    | with_reducible refine HbmOk.mk ?_ ?_ ?_
    | with_reducible refine PwrOk.mk ?_ ?_
    | with_reducible refine HeatOk.mk ?_
    | with_reducible refine PkgOk.mk ?_ ?_
    | with_reducible refine StepOk.mk ?_
    | with_reducible refine FlashOk.mk ?_ ?_ ?_ ?_
    | exact id
    | with_reducible apply wf_upd
    | with_reducible apply wf_setList
    | with_reducible apply wf_copy
    | with_reducible apply wf_clear
    | decide
    | (simp only [setAt_length, List.length_map, List.length_zipIdx]; exact id)
    | split
    | intro _
    | dsimp only
    | with_reducible apply wf_foldl
    | with_reducible apply wf_set
    | simp only [kept_mk]
    | with_reducible refine set_mk ?_ ?_ ?_ ?_ ?_ ?_ ?_ ?_ ?_)

theorem dropHint_kept {x0 : State} (x1 : Nat) (h0 : Kept q b x0) : Kept q b (@State.dropHint x0 x1) := by
  unfold State.dropHint
  with_reducible repeat' first | assumption | apply onTile_kept | split

theorem dropLines_kept {x0 : State} (x1 : Nat) (x2 : Nat) (h0 : Kept q b x0) : Kept q b (@State.dropLines x0 x1 x2) := by
  unfold State.dropLines
  with_reducible repeat' first | assumption | apply onFab_kept | split

theorem dropPn_kept {x0 : State} (x1 : Nat) (h0 : Kept q b x0) : Kept q b (@State.dropPn x0 x1) := by
  unfold State.dropPn
  with_reducible repeat' first | assumption | apply onTile_kept | split

theorem dropTrigger_kept {x0 : State} (h0 : Kept q b x0) : Kept q b (@State.dropTrigger x0) := by
  unfold State.dropTrigger
  with_reducible repeat' first | assumption | apply onObs_kept | split

theorem encOut_kept (x0 : Nat) (x1 : Desc) (x2 : Nat) {x3 : State} (x4 : List Nat) (x5 : Nat) (h3 : Kept q b x3) : Kept q b ((@State.encOut x0 x1 x2 x3 x4 x5)).2.1 := by
  induction x2 generalizing x0 x1 x3 x4 x5 with
  | zero =>
  unfold State.encOut
  try dsimp only
  with_reducible repeat' first | assumption | apply encRow_kept | apply tickTile_kept | split
  | succ n ih =>
  unfold State.encOut
  try dsimp only
  with_reducible repeat' first | assumption | apply ih | apply encRow_kept | apply tickTile_kept | split

theorem txDiscard_kept {x0 : State} (x1 : Nat) (h0 : Kept q b x0) : Kept q b (@State.txDiscard x0 x1) := by
  unfold State.txDiscard
  try dsimp only
  with_reducible repeat' first | assumption | split | intro _ | apply foldl_kept | simp only [kept_mk] | exact set_mk (by assumption) .rfl .rfl .rfl .rfl .rfl .rfl .rfl id | refine set_mk ?_ .rfl .rfl .rfl .rfl .rfl .rfl .rfl id

theorem linkDown_kept {x0 : State} (x1 : Nat) (x2 : optParam Nat 0) (h0 : Kept q b x0) : Kept q b (@State.linkDown x0 x1 x2) := by
  unfold State.linkDown
  with_reducible repeat' first | assumption | apply txDiscard_kept | apply onPort_kept | split

theorem retireLane_kept {x0 : State} (x1 : Nat) (x2 : Nat) (h0 : Kept q b x0) : Kept q b (@State.retireLane x0 x1 x2) := by
  unfold State.retireLane
  try dsimp only
  repeat' (first
    | with_reducible assumption
    | with_reducible apply linkDown_kept
    | with_reducible apply raise_kept
    | with_reducible apply report_kept
    | with_reducible apply opt_some
    | with_reducible apply opt_none
    | with_reducible apply sub_app
    | with_reducible apply out_next
    | with_reducible apply out_fault
    | with_reducible apply out_refused
    | with_reducible apply foldl_kept
    | with_reducible apply foldl_kept1
    | with_reducible apply foldl_kept2
    | with_reducible apply foldl_kept21
    | with_reducible apply foldl_kept22
    | with_reducible exact HalOk.rfl
    | with_reducible exact HbmOk.rfl
    | with_reducible exact PwrOk.rfl
    | with_reducible exact HeatOk.rfl
    | with_reducible exact PkgOk.rfl
    | with_reducible exact StepOk.rfl
    | with_reducible exact FlashOk.rfl
    | with_reducible exact id
    | with_reducible refine HalOk.mk ?_ ?_ ?_ ?_
    | with_reducible refine HbmOk.mk ?_ ?_ ?_
    | with_reducible refine PwrOk.mk ?_ ?_
    | with_reducible refine HeatOk.mk ?_
    | with_reducible refine PkgOk.mk ?_ ?_
    | with_reducible refine StepOk.mk ?_
    | with_reducible refine FlashOk.mk ?_ ?_ ?_ ?_
    | exact id
    | with_reducible apply wf_upd
    | with_reducible apply wf_setList
    | with_reducible apply wf_copy
    | with_reducible apply wf_clear
    | decide
    | (simp only [setAt_length, List.length_map, List.length_zipIdx]; exact id)
    | split
    | intro _
    | dsimp only
    | with_reducible apply wf_foldl
    | with_reducible apply wf_set
    | simp only [kept_mk]
    | with_reducible refine set_mk ?_ ?_ ?_ ?_ ?_ ?_ ?_ ?_ ?_)

theorem endBringUp_kept {x0 : State} (x1 : Nat) (h0 : Kept q b x0) : Kept q b (@State.endBringUp x0 x1) := by
  unfold State.endBringUp
  try dsimp only
  with_reducible repeat' first | assumption | apply onPort_kept | apply retireLane_kept | split | intro _ | apply foldl_kept

theorem endPhase_kept {x0 : State} (x1 : Nat) (h0 : Kept q b x0) : Kept q b (@State.endPhase x0 x1) := by
  unfold State.endPhase
  try dsimp only
  repeat' (first
    | with_reducible assumption
    | with_reducible apply onPr_kept
    | with_reducible apply opt_some
    | with_reducible apply opt_none
    | with_reducible apply sub_app
    | with_reducible apply out_next
    | with_reducible apply out_fault
    | with_reducible apply out_refused
    | with_reducible apply foldl_kept
    | with_reducible apply foldl_kept1
    | with_reducible apply foldl_kept2
    | with_reducible apply foldl_kept21
    | with_reducible apply foldl_kept22
    | with_reducible exact HalOk.rfl
    | with_reducible exact HbmOk.rfl
    | with_reducible exact PwrOk.rfl
    | with_reducible exact HeatOk.rfl
    | with_reducible exact PkgOk.rfl
    | with_reducible exact StepOk.rfl
    | with_reducible exact FlashOk.rfl
    | with_reducible exact id
    | with_reducible refine HalOk.mk ?_ ?_ ?_ ?_
    | with_reducible refine HbmOk.mk ?_ ?_ ?_
    | with_reducible refine PwrOk.mk ?_ ?_
    | with_reducible refine HeatOk.mk ?_
    | with_reducible refine PkgOk.mk ?_ ?_
    | with_reducible refine StepOk.mk ?_
    | with_reducible refine FlashOk.mk ?_ ?_ ?_ ?_
    | exact id
    | with_reducible apply wf_upd
    | with_reducible apply wf_setList
    | with_reducible apply wf_copy
    | with_reducible apply wf_clear
    | decide
    | (simp only [setAt_length, List.length_map, List.length_zipIdx]; exact id)
    | split
    | intro _
    | dsimp only
    | with_reducible apply wf_foldl
    | with_reducible apply wf_set
    | simp only [kept_mk]
    | with_reducible refine set_mk ?_ ?_ ?_ ?_ ?_ ?_ ?_ ?_ ?_)

theorem endShrink_kept {x0 : State} (x1 : Nat) (x2 : Nat) (x3 : Nat) (h0 : Kept q b x0) : Kept q b (@State.endShrink x0 x1 x2 x3) := by
  unfold State.endShrink
  try dsimp only
  repeat' (first
    | with_reducible assumption
    | with_reducible apply raise_kept
    | with_reducible apply opt_some
    | with_reducible apply opt_none
    | with_reducible apply sub_app
    | with_reducible apply out_next
    | with_reducible apply out_fault
    | with_reducible apply out_refused
    | with_reducible apply foldl_kept
    | with_reducible apply foldl_kept1
    | with_reducible apply foldl_kept2
    | with_reducible apply foldl_kept21
    | with_reducible apply foldl_kept22
    | with_reducible exact HalOk.rfl
    | with_reducible exact HbmOk.rfl
    | with_reducible exact PwrOk.rfl
    | with_reducible exact HeatOk.rfl
    | with_reducible exact PkgOk.rfl
    | with_reducible exact StepOk.rfl
    | with_reducible exact FlashOk.rfl
    | with_reducible exact id
    | with_reducible refine HalOk.mk ?_ ?_ ?_ ?_
    | with_reducible refine HbmOk.mk ?_ ?_ ?_
    | with_reducible refine PwrOk.mk ?_ ?_
    | with_reducible refine HeatOk.mk ?_
    | with_reducible refine PkgOk.mk ?_ ?_
    | with_reducible refine StepOk.mk ?_
    | with_reducible refine FlashOk.mk ?_ ?_ ?_ ?_
    | exact id
    | with_reducible apply wf_upd
    | with_reducible apply wf_setList
    | with_reducible apply wf_copy
    | with_reducible apply wf_clear
    | decide
    | (simp only [setAt_length, List.length_map, List.length_zipIdx]; exact id)
    | split
    | intro _
    | dsimp only
    | with_reducible apply wf_foldl
    | with_reducible apply wf_set
    | simp only [kept_mk]
    | with_reducible refine set_mk ?_ ?_ ?_ ?_ ?_ ?_ ?_ ?_ ?_)

theorem groupsOpen_kept {x0 : State} (x1 : Nat) (x2 : MxCmd) (h0 : Kept q b x0) : Kept q b (@State.groupsOpen x0 x1 x2) := by
  unfold State.groupsOpen
  try dsimp only
  with_reducible repeat' first | assumption | apply draws_kept | apply onTile_kept | split | intro _ | apply foldl_kept

theorem stopTile_kept {x0 : State} (x1 : Nat) (h0 : Kept q b x0) : Kept q b (@State.stopTile x0 x1) := by
  unfold State.stopTile
  try dsimp only
  with_reducible repeat' first | assumption | apply groupsOpen_kept | apply onTile_kept | split | intro _ | apply foldl_kept

theorem endTiles_kept {x0 : State} (h0 : Kept q b x0) : Kept q b (@State.endTiles x0) := by
  unfold State.endTiles
  try dsimp only
  with_reducible repeat' first | assumption | apply stopTile_kept | apply allTiles_kept | split | intro _ | apply foldl_kept

theorem engineFault_kept {x0 : State} (x1 : Nat) (h0 : Kept q b x0) : Kept q b (@State.engineFault x0 x1) := by
  unfold State.engineFault
  try dsimp only
  repeat' (first
    | with_reducible assumption
    | with_reducible apply report_kept
    | with_reducible apply opt_some
    | with_reducible apply opt_none
    | with_reducible apply sub_app
    | with_reducible apply out_next
    | with_reducible apply out_fault
    | with_reducible apply out_refused
    | with_reducible apply foldl_kept
    | with_reducible apply foldl_kept1
    | with_reducible apply foldl_kept2
    | with_reducible apply foldl_kept21
    | with_reducible apply foldl_kept22
    | with_reducible exact HalOk.rfl
    | with_reducible exact HbmOk.rfl
    | with_reducible exact PwrOk.rfl
    | with_reducible exact HeatOk.rfl
    | with_reducible exact PkgOk.rfl
    | with_reducible exact StepOk.rfl
    | with_reducible exact FlashOk.rfl
    | with_reducible exact id
    | with_reducible refine HalOk.mk ?_ ?_ ?_ ?_
    | with_reducible refine HbmOk.mk ?_ ?_ ?_
    | with_reducible refine PwrOk.mk ?_ ?_
    | with_reducible refine HeatOk.mk ?_
    | with_reducible refine PkgOk.mk ?_ ?_
    | with_reducible refine StepOk.mk ?_
    | with_reducible refine FlashOk.mk ?_ ?_ ?_ ?_
    | exact id
    | with_reducible apply wf_upd
    | with_reducible apply wf_setList
    | with_reducible apply wf_copy
    | with_reducible apply wf_clear
    | decide
    | (simp only [setAt_length, List.length_map, List.length_zipIdx]; exact id)
    | split
    | intro _
    | dsimp only
    | with_reducible apply wf_foldl
    | with_reducible apply wf_set
    | simp only [kept_mk]
    | with_reducible refine set_mk ?_ ?_ ?_ ?_ ?_ ?_ ?_ ?_ ?_)

theorem enterPhase_kept {x0 : State} (x1 : Nat) (x2 : Nat) (h0 : Kept q b x0) : Kept q b (@State.enterPhase x0 x1 x2) := by
  unfold State.enterPhase
  with_reducible repeat' first | assumption | apply onPr_kept | apply endPhase_kept | split

theorem onBoot_kept {x0 : State} (x1 : Boot → Boot) (h0 : Kept q b x0) : Kept q b (@State.onBoot x0 x1) := by
  unfold State.onBoot
  try dsimp only
  with_reducible repeat' first | assumption | split | intro _ | apply foldl_kept | simp only [kept_mk] | exact set_mk (by assumption) .rfl .rfl .rfl .rfl .rfl .rfl .rfl id | refine set_mk ?_ .rfl .rfl .rfl .rfl .rfl .rfl .rfl id

theorem extend_kept {x0 : State} (x1 : Nat) (x2 : Nat) (x3 : Bytes) (h0 : Kept q b x0) : Kept q b (@State.extend x0 x1 x2 x3) := by
  unfold State.extend
  with_reducible repeat' first | assumption | apply onBoot_kept | split

theorem voidStream_kept {x0 : State} (x1 : FabCmd) (h0 : Kept q b x0) : Kept q b (@State.voidStream x0 x1) := by
  unfold State.voidStream
  try dsimp only
  with_reducible repeat' first | assumption | apply draws_kept | apply draw_kept | apply memWrite_kept | split

theorem spoil_kept {x0 : State} (x1 : Nat) (x2 : FabCmd) (h0 : Kept q b x0) : Kept q b (@State.spoil x0 x1 x2) := by
  unfold State.spoil
  with_reducible repeat' first | assumption | apply fault_kept | split

theorem post_kept {x0 : State} (x1 : Nat) (h0 : Kept q b x0) : Kept q b (@State.post x0 x1) := by
  unfold State.post
  with_reducible repeat' first | assumption | apply onTile_kept | split

theorem postIf_kept {x0 : State} (x1 : Nat) (x2 : Bytes) (h0 : Kept q b x0) : Kept q b (@State.postIf x0 x1 x2) := by
  unfold State.postIf
  with_reducible repeat' first | assumption | apply post_kept | split

theorem finishStream_kept {x0 : State} (x1 : Nat) (x2 : FabCmd) (x3 : Nat) (x4 : Nat) (x5 : Nat) (h0 : Kept q b x0) : Kept q b (@State.finishStream x0 x1 x2 x3 x4 x5) := by
  unfold State.finishStream
  with_reducible repeat' first | assumption | apply voidStream_kept | apply dropFab_kept | apply onTile_kept | apply onTier_kept | apply raise_kept | apply spoil_kept | apply postIf_kept | split

theorem fallBack_kept {x0 : State} (x1 : Nat) (x2 : FabCmd) (x3 : Nat) (x4 : Bool) (h0 : Kept q b x0) : Kept q b (@State.fallBack x0 x1 x2 x3 x4) := by
  unfold State.fallBack
  with_reducible repeat' first | assumption | apply finishStream_kept | apply cancelStream_kept | apply onFabCmd_kept | split

theorem fallbackEvent_kept {x0 : State} (x1 : Nat) (h0 : Kept q b x0) : Kept q b (@State.fallbackEvent x0 x1) := by
  unfold State.fallbackEvent
  with_reducible repeat' first | assumption | apply raise_kept | split

theorem faultPn_kept {x0 : State} (x1 : Nat) (x2 : PnCmd) (x3 : Nat) (h0 : Kept q b x0) : Kept q b (@State.faultPn x0 x1 x2 x3) := by
  unfold State.faultPn
  with_reducible repeat' first | assumption | apply fault_kept | apply dropPn_kept | split

theorem finishDoc_kept {x0 : State} (x1 : PendCmd) (x2 : Doc) (h0 : Kept q b x0) : Kept q b (@State.finishDoc x0 x1 x2) := by
  unfold State.finishDoc
  with_reducible repeat' first | assumption | apply finish_kept | split

theorem finishFab_kept {x0 : State} (x1 : Nat) (x2 : FabCmd) (x3 : Nat) (h0 : Kept q b x0) : Kept q b (@State.finishFab x0 x1 x2 x3) := by
  unfold State.finishFab
  with_reducible repeat' first | assumption | apply draws_kept | apply spoil_kept | apply postIf_kept | apply dropFab_kept | apply onTile_kept | split

theorem follow_kept {x0 : State} (x1 : Nat) (h0 : Kept q b x0) : Kept q b (@State.follow x0 x1) := by
  unfold State.follow
  with_reducible repeat' first | assumption | apply onRed_kept | split

theorem pump_kept {x0 : State} (x1 : Nat) (h0 : Kept q b x0) : Kept q b (@State.pump x0 x1) := by
  unfold State.pump
  try dsimp only
  with_reducible repeat' first | assumption | apply emit_kept | apply foldl_kept | apply foldl_kept1 | apply foldl_kept2 | apply foldl_kept21 | apply foldl_kept22 | split | intro _

theorem goBack_kept {x0 : State} (x1 : Nat) (h0 : Kept q b x0) : Kept q b (@State.goBack x0 x1) := by
  unfold State.goBack
  with_reducible repeat' first | assumption | apply pump_kept | apply onFab_kept | split

theorem memAgain_kept {x0 : State} (x1 : PendCmd) (h0 : Kept q b x0) : Kept q b (@State.memAgain x0 x1) := by
  unfold State.memAgain
  try dsimp only
  repeat' (first
    | with_reducible assumption
    | with_reducible apply answer_kept
    | with_reducible apply answerBusy_kept
    | with_reducible apply doMemRead_kept
    | with_reducible apply doMemWrite_kept
    | with_reducible apply opt_some
    | with_reducible apply opt_none
    | with_reducible apply sub_app
    | with_reducible apply out_next
    | with_reducible apply out_fault
    | with_reducible apply out_refused
    | with_reducible apply foldl_kept
    | with_reducible apply foldl_kept1
    | with_reducible apply foldl_kept2
    | with_reducible apply foldl_kept21
    | with_reducible apply foldl_kept22
    | with_reducible exact HalOk.rfl
    | with_reducible exact HbmOk.rfl
    | with_reducible exact PwrOk.rfl
    | with_reducible exact HeatOk.rfl
    | with_reducible exact PkgOk.rfl
    | with_reducible exact StepOk.rfl
    | with_reducible exact FlashOk.rfl
    | with_reducible exact id
    | with_reducible refine HalOk.mk ?_ ?_ ?_ ?_
    | with_reducible refine HbmOk.mk ?_ ?_ ?_
    | with_reducible refine PwrOk.mk ?_ ?_
    | with_reducible refine HeatOk.mk ?_
    | with_reducible refine PkgOk.mk ?_ ?_
    | with_reducible refine StepOk.mk ?_
    | with_reducible refine FlashOk.mk ?_ ?_ ?_ ?_
    | exact id
    | with_reducible apply wf_upd
    | with_reducible apply wf_setList
    | with_reducible apply wf_copy
    | with_reducible apply wf_clear
    | decide
    | (simp only [setAt_length, List.length_map, List.length_zipIdx]; exact id)
    | split
    | intro _
    | dsimp only
    | with_reducible apply wf_foldl
    | with_reducible apply wf_set
    | simp only [kept_mk]
    | with_reducible refine set_mk ?_ ?_ ?_ ?_ ?_ ?_ ?_ ?_ ?_)

theorem goOn_kept {x0 : State} (h0 : Kept q b x0) : Kept q b (@State.goOn x0) := by
  unfold State.goOn
  try dsimp only
  with_reducible repeat' first | assumption | apply copyFlushAll_kept | apply memAgain_kept | split | intro _ | apply foldl_kept

theorem handOver_kept {x0 : State} (h0 : Kept q b x0) : Kept q b (@State.handOver x0) := by
  unfold State.handOver
  try dsimp only
  repeat' (first
    | with_reducible assumption
    | with_reducible apply opt_some
    | with_reducible apply opt_none
    | with_reducible apply sub_app
    | with_reducible apply out_next
    | with_reducible apply out_fault
    | with_reducible apply out_refused
    | with_reducible apply foldl_kept
    | with_reducible apply foldl_kept1
    | with_reducible apply foldl_kept2
    | with_reducible apply foldl_kept21
    | with_reducible apply foldl_kept22
    | with_reducible exact HalOk.rfl
    | with_reducible exact HbmOk.rfl
    | with_reducible exact PwrOk.rfl
    | with_reducible exact HeatOk.rfl
    | with_reducible exact PkgOk.rfl
    | with_reducible exact StepOk.rfl
    | with_reducible exact FlashOk.rfl
    | with_reducible exact id
    | with_reducible refine HalOk.mk ?_ ?_ ?_ ?_
    | with_reducible refine HbmOk.mk ?_ ?_ ?_
    | with_reducible refine PwrOk.mk ?_ ?_
    | with_reducible refine HeatOk.mk ?_
    | with_reducible refine PkgOk.mk ?_ ?_
    | with_reducible refine StepOk.mk ?_
    | with_reducible refine FlashOk.mk ?_ ?_ ?_ ?_
    | exact id
    | with_reducible apply wf_upd
    | with_reducible apply wf_setList
    | with_reducible apply wf_copy
    | with_reducible apply wf_clear
    | decide
    | (simp only [setAt_length, List.length_map, List.length_zipIdx]; exact id)
    | split
    | intro _
    | dsimp only
    | with_reducible apply wf_foldl
    | with_reducible apply wf_set
    | simp only [kept_mk]
    | with_reducible refine set_mk ?_ ?_ ?_ ?_ ?_ ?_ ?_ ?_ ?_)

theorem rowDecision_kept {x0 : State} (x1 : Nat) (x2 : Nat) (x3 : Nat) (h0 : Kept q b x0) : Kept q b (@State.rowDecision x0 x1 x2 x3) := by
  unfold State.rowDecision
  with_reducible repeat' first | assumption | apply shadowRow_kept | apply pageRetire_kept | split

theorem startPromote_kept {x0 : State} (x1 : Nat) (x2 : Nat) (h0 : Kept q b x0) : Kept q b (@State.startPromote x0 x1 x2) := by
  unfold State.startPromote
  with_reducible repeat' first | assumption | apply onPage_kept | apply askGranule_kept | apply onTier_kept | split

theorem promoteNow_kept {x0 : State} (x1 : Nat) (h0 : Kept q b x0) : Kept q b (@State.promoteNow x0 x1) := by
  unfold State.promoteNow
  with_reducible repeat' first | assumption | apply startPromote_kept | apply startEvict_kept | split

theorem startAll_kept {x0 : State} (h0 : Kept q b x0) : Kept q b (@State.startAll x0) := by
  unfold State.startAll
  try dsimp only
  with_reducible repeat' first | assumption | apply startRegion_kept | split | intro _ | apply foldl_kept

theorem restart_kept {x0 : State} (h0 : Kept q b x0) : Kept q b (@State.restart x0) := by
  unfold State.restart
  try dsimp only
  repeat' (first
    | with_reducible assumption
    | with_reducible apply startAll_kept
    | with_reducible apply on_step
    | with_reducible apply opt_some
    | with_reducible apply opt_none
    | with_reducible apply sub_app
    | with_reducible apply out_next
    | with_reducible apply out_fault
    | with_reducible apply out_refused
    | with_reducible apply foldl_kept
    | with_reducible apply foldl_kept1
    | with_reducible apply foldl_kept2
    | with_reducible apply foldl_kept21
    | with_reducible apply foldl_kept22
    | with_reducible exact HalOk.rfl
    | with_reducible exact HbmOk.rfl
    | with_reducible exact PwrOk.rfl
    | with_reducible exact HeatOk.rfl
    | with_reducible exact PkgOk.rfl
    | with_reducible exact StepOk.rfl
    | with_reducible exact FlashOk.rfl
    | with_reducible exact id
    | with_reducible refine HalOk.mk ?_ ?_ ?_ ?_
    | with_reducible refine HbmOk.mk ?_ ?_ ?_
    | with_reducible refine PwrOk.mk ?_ ?_
    | with_reducible refine HeatOk.mk ?_
    | with_reducible refine PkgOk.mk ?_ ?_
    | with_reducible refine StepOk.mk ?_
    | with_reducible refine FlashOk.mk ?_ ?_ ?_ ?_
    | exact id
    | with_reducible apply wf_upd
    | with_reducible apply wf_setList
    | with_reducible apply wf_copy
    | with_reducible apply wf_clear
    | decide
    | (simp only [setAt_length, List.length_map, List.length_zipIdx]; exact id)
    | split
    | intro _
    | dsimp only
    | with_reducible apply wf_foldl
    | with_reducible apply wf_set
    | simp only [kept_mk]
    | with_reducible refine set_mk ?_ ?_ ?_ ?_ ?_ ?_ ?_ ?_ ?_)

theorem slotDecided_kept {x0 : State} (x1 : Nat) (x2 : Nat) (x3 : Nat) (h0 : Kept q b x0) : Kept q b (@State.slotDecided x0 x1 x2 x3) := by
  unfold State.slotDecided
  try dsimp only
  with_reducible repeat' first | assumption | apply onRegion_kept | apply restart_kept | apply settleSlots_kept | split

theorem takePath_kept {x0 : State} (x1 : Nat) (x2 : Nat) (h0 : Kept q b x0) : Kept q b (@State.takePath x0 x1 x2) := by
  unfold State.takePath
  try dsimp only
  with_reducible repeat' first | assumption | apply onPeer_kept | apply onFab_kept | apply transmit_kept | apply pump_kept | split | intro _ | apply foldl_kept

theorem pushLogN_kept (x0 : Nat) {x1 : State} (h1 : Kept q b x1) : Kept q b (@State.pushLogN x0 x1) := by
  induction x0 generalizing x1 with
  | zero =>
  unfold State.pushLogN
  try dsimp only
  with_reducible repeat' first | assumption | apply sendMsg_kept | apply onSession_kept | split | intro _ | apply foldl_kept | simp only [kept_mk] | exact set_mk (by assumption) .rfl .rfl .rfl .rfl .rfl .rfl .rfl id | refine set_mk ?_ .rfl .rfl .rfl .rfl .rfl .rfl .rfl id
  | succ n ih =>
  unfold State.pushLogN
  try dsimp only
  with_reducible repeat' first | assumption | apply ih | apply sendMsg_kept | apply onSession_kept | split | intro _ | apply foldl_kept | simp only [kept_mk] | exact set_mk (by assumption) .rfl .rfl .rfl .rfl .rfl .rfl .rfl id | refine set_mk ?_ .rfl .rfl .rfl .rfl .rfl .rfl .rfl id

theorem pushLog_kept {x0 : State} (h0 : Kept q b x0) : Kept q b (@State.pushLog x0) := by
  unfold State.pushLog
  with_reducible repeat' first | assumption | apply pushLogN_kept | split

theorem takeover_kept {x0 : State} (h0 : Kept q b x0) : Kept q b (@State.takeover x0) := by
  unfold State.takeover
  try dsimp only
  with_reducible repeat' first | assumption | apply onRed_kept | apply say_kept | apply raise_kept | apply openLedger_kept | apply issue_kept | apply toMembers_kept | apply causeAt_kept | split | intro _ | apply foldl_kept

theorem hardware_kept {x0 : State} (x1 : Request) (h0 : Kept q b x0) : Kept q b (@State.hardware x0 x1) := by
  unfold State.hardware
  try dsimp only
  repeat' (first
    | with_reducible assumption
    | with_reducible apply rowDecision_kept
    | with_reducible apply failChannel_kept
    | with_reducible apply promoteNow_kept
    | with_reducible apply slotDecided_kept
    | with_reducible apply allot_kept
    | with_reducible apply takePath_kept
    | with_reducible apply pushLog_kept
    | with_reducible apply takeover_kept
    | with_reducible apply on_hal
    | with_reducible apply on_pwr
    | with_reducible apply opt_some
    | with_reducible apply opt_none
    | with_reducible apply sub_app
    | with_reducible apply out_next
    | with_reducible apply out_fault
    | with_reducible apply out_refused
    | with_reducible apply foldl_kept
    | with_reducible apply foldl_kept1
    | with_reducible apply foldl_kept2
    | with_reducible apply foldl_kept21
    | with_reducible apply foldl_kept22
    | with_reducible exact HalOk.rfl
    | with_reducible exact HbmOk.rfl
    | with_reducible exact PwrOk.rfl
    | with_reducible exact HeatOk.rfl
    | with_reducible exact PkgOk.rfl
    | with_reducible exact StepOk.rfl
    | with_reducible exact FlashOk.rfl
    | with_reducible exact id
    | with_reducible refine HalOk.mk ?_ ?_ ?_ ?_
    | with_reducible refine HbmOk.mk ?_ ?_ ?_
    | with_reducible refine PwrOk.mk ?_ ?_
    | with_reducible refine HeatOk.mk ?_
    | with_reducible refine PkgOk.mk ?_ ?_
    | with_reducible refine StepOk.mk ?_
    | with_reducible refine FlashOk.mk ?_ ?_ ?_ ?_
    | exact id
    | with_reducible apply wf_upd
    | with_reducible apply wf_setList
    | with_reducible apply wf_copy
    | with_reducible apply wf_clear
    | decide
    | (simp only [setAt_length, List.length_map, List.length_zipIdx]; exact id)
    | split
    | intro _
    | dsimp only
    | with_reducible apply wf_foldl
    | with_reducible apply wf_set
    | simp only [kept_mk]
    | with_reducible refine set_mk ?_ ?_ ?_ ?_ ?_ ?_ ?_ ?_ ?_)

theorem moveWrite_kept {x0 : State} (x1 : Nat) (x2 : List MoveUnit) (h0 : Kept q b x0) : Kept q b (@State.moveWrite x0 x1 x2) := by
  unfold State.moveWrite
  try dsimp only
  with_reducible repeat' first | assumption | apply memWrite_kept | split | intro _ | apply foldl_kept

theorem hbmCopy_kept {x0 : State} (x1 : Nat) (x2 : Nat) (x3 : Nat) (h0 : Kept q b x0) : Kept q b (@State.hbmCopy x0 x1 x2 x3) := by
  unfold State.hbmCopy
  with_reducible repeat' first | assumption | apply moveRead_kept | apply moveWrite_kept | split

theorem holdReq_kept {x0 : State} (x1 : Req) (x2 : Nat) (x3 : Nat) (x4 : Bool) (x5 : Nat) (h0 : Kept q b x0) : Kept q b (@State.holdReq x0 x1 x2 x3 x4 x5) := by
  unfold State.holdReq
  with_reducible repeat' first | assumption | apply onFab_kept | split

theorem issueMx_kept {x0 : State} (x1 : Nat) (x2 : Nat) (x3 : Nat) (h0 : Kept q b x0) : Kept q b (@State.issueMx x0 x1 x2 x3) := by
  unfold State.issueMx
  try dsimp only
  with_reducible repeat' first | assumption | apply onTile_kept | apply fault_kept | split

theorem issuePn_kept {x0 : State} (x1 : Nat) (x2 : Nat) (x3 : Nat) (h0 : Kept q b x0) : Kept q b (@State.issuePn x0 x1 x2 x3) := by
  unfold State.issuePn
  try dsimp only
  with_reducible repeat' first | assumption | apply onTile_kept | apply fault_kept | split

theorem issueFab_kept {x0 : State} (x1 : Nat) (x2 : Nat) (x3 : Nat) (h0 : Kept q b x0) : Kept q b (@State.issueFab x0 x1 x2 x3) := by
  unfold State.issueFab
  try dsimp only
  with_reducible repeat' first | assumption | apply onTile_kept | apply fault_kept | split

theorem issueAny_kept {x0 : State} (x1 : Nat) (x2 : Nat) (x3 : Nat) (h0 : Kept q b x0) : Kept q b (@State.issueAny x0 x1 x2 x3) := by
  unfold State.issueAny
  try dsimp only
  with_reducible repeat' first | assumption | apply fault_kept | apply issueMx_kept | apply issuePn_kept | apply issueFab_kept | split

theorem setFlowReq_kept {x0 : State} (x1 : Nat) (x2 : Nat) (h0 : Kept q b x0) : Kept q b (@State.setFlowReq x0 x1 x2) := by
  unfold State.setFlowReq
  try dsimp only
  repeat' (first
    | with_reducible assumption
    | with_reducible apply trayReq_kept
    | with_reducible apply on_heat
    | with_reducible apply opt_some
    | with_reducible apply opt_none
    | with_reducible apply sub_app
    | with_reducible apply out_next
    | with_reducible apply out_fault
    | with_reducible apply out_refused
    | with_reducible apply foldl_kept
    | with_reducible apply foldl_kept1
    | with_reducible apply foldl_kept2
    | with_reducible apply foldl_kept21
    | with_reducible apply foldl_kept22
    | with_reducible exact HalOk.rfl
    | with_reducible exact HbmOk.rfl
    | with_reducible exact PwrOk.rfl
    | with_reducible exact HeatOk.rfl
    | with_reducible exact PkgOk.rfl
    | with_reducible exact StepOk.rfl
    | with_reducible exact FlashOk.rfl
    | with_reducible exact id
    | with_reducible refine HalOk.mk ?_ ?_ ?_ ?_
    | with_reducible refine HbmOk.mk ?_ ?_ ?_
    | with_reducible refine PwrOk.mk ?_ ?_
    | with_reducible refine HeatOk.mk ?_
    | with_reducible refine PkgOk.mk ?_ ?_
    | with_reducible refine StepOk.mk ?_
    | with_reducible refine FlashOk.mk ?_ ?_ ?_ ?_
    | exact id
    | with_reducible apply wf_upd
    | with_reducible apply wf_setList
    | with_reducible apply wf_copy
    | with_reducible apply wf_clear
    | decide
    | (simp only [setAt_length, List.length_map, List.length_zipIdx]; exact id)
    | split
    | intro _
    | dsimp only
    | with_reducible apply wf_foldl
    | with_reducible apply wf_set
    | simp only [kept_mk]
    | with_reducible refine set_mk ?_ ?_ ?_ ?_ ?_ ?_ ?_ ?_ ?_)

theorem jobStarted_kept {x0 : State} (h0 : Kept q b x0) : Kept q b (@State.jobStarted x0) := by
  unfold State.jobStarted
  try dsimp only
  repeat' (first
    | with_reducible assumption
    | with_reducible apply setFlowReq_kept
    | with_reducible apply activity_kept
    | with_reducible apply on_heat
    | with_reducible apply opt_some
    | with_reducible apply opt_none
    | with_reducible apply sub_app
    | with_reducible apply out_next
    | with_reducible apply out_fault
    | with_reducible apply out_refused
    | with_reducible apply foldl_kept
    | with_reducible apply foldl_kept1
    | with_reducible apply foldl_kept2
    | with_reducible apply foldl_kept21
    | with_reducible apply foldl_kept22
    | with_reducible exact HalOk.rfl
    | with_reducible exact HbmOk.rfl
    | with_reducible exact PwrOk.rfl
    | with_reducible exact HeatOk.rfl
    | with_reducible exact PkgOk.rfl
    | with_reducible exact StepOk.rfl
    | with_reducible exact FlashOk.rfl
    | with_reducible exact id
    | with_reducible refine HalOk.mk ?_ ?_ ?_ ?_
    | with_reducible refine HbmOk.mk ?_ ?_ ?_
    | with_reducible refine PwrOk.mk ?_ ?_
    | with_reducible refine HeatOk.mk ?_
    | with_reducible refine PkgOk.mk ?_ ?_
    | with_reducible refine StepOk.mk ?_
    | with_reducible refine FlashOk.mk ?_ ?_ ?_ ?_
    | exact id
    | with_reducible apply wf_upd
    | with_reducible apply wf_setList
    | with_reducible apply wf_copy
    | with_reducible apply wf_clear
    | decide
    | (simp only [setAt_length, List.length_map, List.length_zipIdx]; exact id)
    | split
    | intro _
    | dsimp only
    | with_reducible apply wf_foldl
    | with_reducible apply wf_set
    | simp only [kept_mk]
    | with_reducible refine set_mk ?_ ?_ ?_ ?_ ?_ ?_ ?_ ?_ ?_)

theorem junction_kept {x0 : State} (h0 : Kept q b x0) : Kept q b (@State.junction x0) := by
  unfold State.junction
  try dsimp only
  repeat' (first
    | with_reducible assumption
    | with_reducible apply raise_kept
    | with_reducible apply on_heat
    | with_reducible apply opt_some
    | with_reducible apply opt_none
    | with_reducible apply sub_app
    | with_reducible apply out_next
    | with_reducible apply out_fault
    | with_reducible apply out_refused
    | with_reducible apply foldl_kept
    | with_reducible apply foldl_kept1
    | with_reducible apply foldl_kept2
    | with_reducible apply foldl_kept21
    | with_reducible apply foldl_kept22
    | with_reducible exact HalOk.rfl
    | with_reducible exact HbmOk.rfl
    | with_reducible exact PwrOk.rfl
    | with_reducible exact HeatOk.rfl
    | with_reducible exact PkgOk.rfl
    | with_reducible exact StepOk.rfl
    | with_reducible exact FlashOk.rfl
    | with_reducible exact id
    | with_reducible refine HalOk.mk ?_ ?_ ?_ ?_
    | with_reducible refine HbmOk.mk ?_ ?_ ?_
    | with_reducible refine PwrOk.mk ?_ ?_
    | with_reducible refine HeatOk.mk ?_
    | with_reducible refine PkgOk.mk ?_ ?_
    | with_reducible refine StepOk.mk ?_
    | with_reducible refine FlashOk.mk ?_ ?_ ?_ ?_
    | exact id
    | with_reducible apply wf_upd
    | with_reducible apply wf_setList
    | with_reducible apply wf_copy
    | with_reducible apply wf_clear
    | decide
    | (simp only [setAt_length, List.length_map, List.length_zipIdx]; exact id)
    | split
    | intro _
    | dsimp only
    | with_reducible apply wf_foldl
    | with_reducible apply wf_set
    | simp only [kept_mk]
    | with_reducible refine set_mk ?_ ?_ ?_ ?_ ?_ ?_ ?_ ?_ ?_)

end Sys2Proof.Machine
end

