-- ==== Sys2Proof/Laws/Keep4.lean ====
section
/-! SUPPORT. `Kept` for the operations and commands of the model, in the order in which they use each other: part 4 of 7. -/

namespace Sys2Proof.Machine

set_option linter.unusedSimpArgs false
set_option linter.unusedTactic false
set_option linter.unreachableTactic false

variable {q : Prop} {b : State}

theorem tierDone_kept {x0 : State} (x1 : Nat) (x2 : Bool) (x3 : Nat) (h0 : Kept q b x0) : Kept q b (@State.tierDone x0 x1 x2 x3) := by
  unfold State.tierDone
  try dsimp only
  with_reducible repeat' first | assumption | apply finish_kept | split | intro _ | apply foldl_kept

theorem keepPage_kept {x0 : State} (x1 : Nat) (h0 : Kept q b x0) : Kept q b (@State.keepPage x0 x1) := by
  unfold State.keepPage
  try dsimp only
  with_reducible repeat' first | assumption | apply tierDone_kept | apply dropMove_kept | apply onPage_kept | split

theorem retire_kept {x0 : State} (x1 : Nat) (x2 : Nat) (h0 : Kept q b x0) : Kept q b (@State.retire x0 x1 x2) := by
  unfold State.retire
  with_reducible repeat' first | assumption | apply onOps_kept | split

theorem lanes3_kept {x0 : State} (x1 : Nat) (x2 : Vi) (x3 : Nat) (x4 : Nat → Nat → Nat → Nat) (h0 : Kept q b x0) : Kept q b (@State.lanes3 x0 x1 x2 x3 x4) := by
  unfold State.lanes3
  with_reducible repeat' first | assumption | apply retire_kept | apply onTile_kept | split

theorem late_kept {x0 : State} (h0 : Kept q b x0) : Kept q b (@State.late x0) := by
  unfold State.late
  with_reducible repeat' first | assumption | apply causeAt_kept | apply raiseCause_kept | split

theorem onLink_kept {x0 : State} (x1 : Nat) (x2 : LinkRec → LinkRec) (h0 : Kept q b x0) : Kept q b (@State.onLink x0 x1 x2) := by
  unfold State.onLink
  try dsimp only
  repeat' (first
    | with_reducible assumption
    | with_reducible apply opt_some
    | with_reducible apply opt_none
    | with_reducible apply sub_app
    | with_reducible apply out_next
    | with_reducible apply out_fault
    | with_reducible apply out_refused
    | with_reducible apply foldl_kept
    | with_reducible apply foldl_kept1
    | with_reducible apply foldl_kept2
    | with_reducible apply foldl_kept21
    | with_reducible apply foldl_kept22
    | with_reducible exact HalOk.rfl
    | with_reducible exact HbmOk.rfl
    | with_reducible exact PwrOk.rfl
    | with_reducible exact HeatOk.rfl
    | with_reducible exact PkgOk.rfl
    | with_reducible exact StepOk.rfl
    | with_reducible exact FlashOk.rfl
    | with_reducible exact id
    | with_reducible refine HalOk.mk ?_ ?_ ?_ ?_
    | with_reducible refine HbmOk.mk ?_ ?_ ?_
    | with_reducible refine PwrOk.mk ?_ ?_
    | with_reducible refine HeatOk.mk ?_
    | with_reducible refine PkgOk.mk ?_ ?_
    | with_reducible refine StepOk.mk ?_
    | with_reducible refine FlashOk.mk ?_ ?_ ?_ ?_
    | exact id
    | with_reducible apply wf_upd
    | with_reducible apply wf_setList
    | with_reducible apply wf_copy
    | with_reducible apply wf_clear
    | decide
    | (simp only [setAt_length, List.length_map, List.length_zipIdx]; exact id)
    | split
    | intro _
    | dsimp only
    | with_reducible apply wf_foldl
    | with_reducible apply wf_set
    | simp only [kept_mk]
    | with_reducible refine set_mk ?_ ?_ ?_ ?_ ?_ ?_ ?_ ?_ ?_)

theorem linkThird_kept {x0 : State} (x1 : Nat) (x2 : Bool) (h0 : Kept q b x0) : Kept q b (@State.linkThird x0 x1 x2) := by
  unfold State.linkThird
  try dsimp only
  with_reducible repeat' first | assumption | apply report_kept | apply onLink_kept | split | intro _ | apply foldl_kept | simp only [kept_mk] | exact set_mk (by assumption) .rfl .rfl .rfl .rfl .rfl .rfl .rfl id | refine set_mk ?_ .rfl .rfl .rfl .rfl .rfl .rfl .rfl id

theorem lldpSoon_kept {x0 : State} (x1 : Nat) (h0 : Kept q b x0) : Kept q b (@State.lldpSoon x0 x1) := by
  unfold State.lldpSoon
  with_reducible repeat' first | assumption | apply onPort_kept | split

theorem retireCol_kept {x0 : State} (x1 : Nat) (x2 : Nat) (x3 : Nat) (h0 : Kept q b x0) : Kept q b (@State.retireCol x0 x1 x2 x3) := by
  unfold State.retireCol
  try dsimp only
  repeat' (first
    | with_reducible assumption
    | with_reducible apply report_kept
    | with_reducible apply slotFail_kept
    | with_reducible apply opt_some
    | with_reducible apply opt_none
    | with_reducible apply sub_app
    | with_reducible apply out_next
    | with_reducible apply out_fault
    | with_reducible apply out_refused
    | with_reducible apply foldl_kept
    | with_reducible apply foldl_kept1
    | with_reducible apply foldl_kept2
    | with_reducible apply foldl_kept21
    | with_reducible apply foldl_kept22
    | with_reducible exact HalOk.rfl
    | with_reducible exact HbmOk.rfl
    | with_reducible exact PwrOk.rfl
    | with_reducible exact HeatOk.rfl
    | with_reducible exact PkgOk.rfl
    | with_reducible exact StepOk.rfl
    | with_reducible exact FlashOk.rfl
    | with_reducible exact id
    | with_reducible refine HalOk.mk ?_ ?_ ?_ ?_
    | with_reducible refine HbmOk.mk ?_ ?_ ?_
    | with_reducible refine PwrOk.mk ?_ ?_
    | with_reducible refine HeatOk.mk ?_
    | with_reducible refine PkgOk.mk ?_ ?_
    | with_reducible refine StepOk.mk ?_
    | with_reducible refine FlashOk.mk ?_ ?_ ?_ ?_
    | exact id
    | with_reducible apply wf_upd
    | with_reducible apply wf_setList
    | with_reducible apply wf_copy
    | with_reducible apply wf_clear
    | decide
    | (simp only [setAt_length, List.length_map, List.length_zipIdx]; exact id)
    | split
    | intro _
    | dsimp only
    | with_reducible apply wf_foldl
    | with_reducible apply wf_set
    | simp only [kept_mk]
    | with_reducible refine set_mk ?_ ?_ ?_ ?_ ?_ ?_ ?_ ?_ ?_)

theorem loadCols_kept {x0 : State} (x1 : Nat) (h0 : Kept q b x0) : Kept q b (@State.loadCols x0 x1) := by
  unfold State.loadCols
  try dsimp only
  with_reducible repeat' first | assumption | apply retireCol_kept | apply onSlot_kept | split | intro _ | apply foldl_kept

theorem loadData_kept {x0 : State} (x1 : Nat) (x2 : Nat) (x3 : Nat) (h0 : Kept q b x0) : Kept q b ((@State.loadData x0 x1 x2 x3)).2 := by
  unfold State.loadData
  with_reducible repeat' first | assumption | apply memRead_kept | split

theorem phasesZero_kept {x0 : State} (h0 : Kept q b x0) : Kept q b (@State.phasesZero x0) := by
  unfold State.phasesZero
  try dsimp only
  with_reducible repeat' first | assumption | apply enterPhase_kept | split | intro _ | apply foldl_kept

theorem wantTiles_kept {x0 : State} (h0 : Kept q b x0) : Kept q b (@State.wantTiles x0) := by
  unfold State.wantTiles
  try dsimp only
  with_reducible repeat' first | assumption | apply wantRegion_kept | split | intro _ | apply foldl_kept

theorem loadJob_kept {x0 : State} (x1 : Bytes) (x2 : Nat) (x3 : List Nat) (h0 : Kept q b x0) : Kept q b (@State.loadJob x0 x1 x2 x3) := by
  have h := cancelJob_kept (clearCounts_kept (endTiles_kept h0))
  unfold State.loadJob
  dsimp only
  with_reducible apply wantTiles_kept
  with_reducible apply set_job
  · with_reducible apply onRed_kept
    with_reducible apply phasesZero_kept
    with_reducible apply on_pwr
    · with_reducible apply on_step
      · exact h
      · exact ⟨fun _ => (by decide : (0:Nat) < 5)⟩
    · refine ⟨?_, ?_⟩ <;> (dsimp only; with_reducible exact id)
  · decide

theorem loadPages_kept {x0 : State} (x1 : Nat) (x2 : Nat) (x3 : Nat) (x4 : Nat) (x5 : Nat) (x6 : Nat) (x7 : Nat) (h0 : Kept q b x0) : Kept q b (@State.loadPages x0 x1 x2 x3 x4 x5 x6 x7) := by
  unfold State.loadPages
  with_reducible repeat' first | assumption | apply hbmCopy_kept | apply onTier_kept | split

theorem sramCorrected_kept {x0 : State} (x1 : Nat) (h0 : Kept q b x0) : Kept q b (@State.sramCorrected x0 x1) := by
  unfold State.sramCorrected
  try dsimp only
  with_reducible repeat' first | assumption | apply onSlot_kept | apply report_kept | apply slotFail_kept | split

theorem sramRead_kept {x0 : State} (x1 : Nat) (x2 : Sram) (h0 : Kept q b x0) : Kept q b ((@State.sramRead x0 x1 x2)).1 := by
  unfold State.sramRead
  try dsimp only
  with_reducible repeat' first | assumption | apply sramCorrected_kept | apply sramUncorrectable_kept | split

theorem lsAccess_kept {x0 : State} (x1 : Nat) (x2 : Vi) (x3 : Nat) (x4 : Bool) (x5 : Sram) (x6 : State → Nat → State) (h0 : Kept q b x0) (h6 : ∀ y0 y1, Kept q b y0 → Kept q b (x6 y0 y1)) : Kept q b (@State.lsAccess x0 x1 x2 x3 x4 x5 x6) := by
  unfold State.lsAccess
  try dsimp only
  with_reducible repeat' first | assumption | apply fault_kept | apply sramRead_kept | apply h6 | split

theorem poisonChan_kept {x0 : State} (x1 : Nat) (x2 : Nat) (h0 : Kept q b x0) : Kept q b (@State.poisonChan x0 x1 x2) := by
  unfold State.poisonChan
  try dsimp only
  with_reducible repeat' first | assumption | apply onUnit_kept | apply send_kept | split | intro _ | apply foldl_kept

theorem onChanRec_kept {x0 : State} (x1 : Nat) (x2 : ChanRec → ChanRec) (h0 : Kept q b x0) : Kept q b (@State.onChanRec x0 x1 x2) := by
  unfold State.onChanRec
  try dsimp only
  repeat' (first
    | with_reducible assumption
    | with_reducible apply opt_some
    | with_reducible apply opt_none
    | with_reducible apply sub_app
    | with_reducible apply out_next
    | with_reducible apply out_fault
    | with_reducible apply out_refused
    | with_reducible apply foldl_kept
    | with_reducible apply foldl_kept1
    | with_reducible apply foldl_kept2
    | with_reducible apply foldl_kept21
    | with_reducible apply foldl_kept22
    | with_reducible exact HalOk.rfl
    | with_reducible exact HbmOk.rfl
    | with_reducible exact PwrOk.rfl
    | with_reducible exact HeatOk.rfl
    | with_reducible exact PkgOk.rfl
    | with_reducible exact StepOk.rfl
    | with_reducible exact FlashOk.rfl
    | with_reducible exact id
    | with_reducible refine HalOk.mk ?_ ?_ ?_ ?_
    | with_reducible refine HbmOk.mk ?_ ?_ ?_
    | with_reducible refine PwrOk.mk ?_ ?_
    | with_reducible refine HeatOk.mk ?_
    | with_reducible refine PkgOk.mk ?_ ?_
    | with_reducible refine StepOk.mk ?_
    | with_reducible refine FlashOk.mk ?_ ?_ ?_ ?_
    | exact id
    | with_reducible apply wf_upd
    | with_reducible apply wf_setList
    | with_reducible apply wf_copy
    | with_reducible apply wf_clear
    | decide
    | (simp only [setAt_length, List.length_map, List.length_zipIdx]; exact id)
    | split
    | intro _
    | dsimp only
    | with_reducible apply wf_foldl
    | with_reducible apply wf_set
    | simp only [kept_mk]
    | with_reducible refine set_mk ?_ ?_ ?_ ?_ ?_ ?_ ?_ ?_ ?_)

theorem mapOut_kept {x0 : State} (x1 : Nat) (x2 : Nat) (h0 : Kept q b x0) : Kept q b (@State.mapOut x0 x1 x2) := by
  unfold State.mapOut
  try dsimp only
  repeat' (first
    | with_reducible assumption
    | with_reducible apply poisonChan_kept
    | with_reducible apply onChan_kept
    | with_reducible apply onChanRec_kept
    | with_reducible apply report_kept
    | with_reducible apply opt_some
    | with_reducible apply opt_none
    | with_reducible apply sub_app
    | with_reducible apply out_next
    | with_reducible apply out_fault
    | with_reducible apply out_refused
    | with_reducible apply foldl_kept
    | with_reducible apply foldl_kept1
    | with_reducible apply foldl_kept2
    | with_reducible apply foldl_kept21
    | with_reducible apply foldl_kept22
    | with_reducible exact HalOk.rfl
    | with_reducible exact HbmOk.rfl
    | with_reducible exact PwrOk.rfl
    | with_reducible exact HeatOk.rfl
    | with_reducible exact PkgOk.rfl
    | with_reducible exact StepOk.rfl
    | with_reducible exact FlashOk.rfl
    | with_reducible exact id
    | with_reducible refine HalOk.mk ?_ ?_ ?_ ?_
    | with_reducible refine HbmOk.mk ?_ ?_ ?_
    | with_reducible refine PwrOk.mk ?_ ?_
    | with_reducible refine HeatOk.mk ?_
    | with_reducible refine PkgOk.mk ?_ ?_
    | with_reducible refine StepOk.mk ?_
    | with_reducible refine FlashOk.mk ?_ ?_ ?_ ?_
    | exact id
    | with_reducible apply wf_upd
    | with_reducible apply wf_setList
    | with_reducible apply wf_copy
    | with_reducible apply wf_clear
    | decide
    | (simp only [setAt_length, List.length_map, List.length_zipIdx]; exact id)
    | split
    | intro _
    | dsimp only
    | with_reducible apply wf_foldl
    | with_reducible apply wf_set
    | simp only [kept_mk]
    | with_reducible refine set_mk ?_ ?_ ?_ ?_ ?_ ?_ ?_ ?_ ?_)

theorem measureStart_kept {x0 : State} (h0 : Kept q b x0) : Kept q b (@State.measureStart x0) := by
  unfold State.measureStart
  with_reducible repeat' first | assumption | apply onBoot_kept | apply extend_kept | split

theorem meetRange_kept {x0 : State} (x1 : Nat) (x2 : Nat) (h0 : Kept q b x0) : Kept q b (@State.meetRange x0 x1 x2) := by
  unfold State.meetRange
  try dsimp only
  with_reducible repeat' first | assumption | apply combineAt_kept | apply decodeAt_kept | split | intro _ | apply foldl_kept

theorem newEpoch_kept {x0 : State} (x1 : Nat) (x2 : Nat) (h0 : Kept q b x0) : Kept q b (@State.newEpoch x0 x1 x2) := by
  unfold State.newEpoch
  try dsimp only
  with_reducible repeat' first | assumption | apply onPeer_kept | apply complete_kept | split | intro _ | apply foldl_kept

theorem newMeans_kept {x0 : State} (x1 : Nat) (h0 : Kept q b x0) : Kept q b (@State.newMeans x0 x1) := by
  unfold State.newMeans
  try dsimp only
  repeat' (first
    | with_reducible assumption
    | with_reducible apply opt_some
    | with_reducible apply opt_none
    | with_reducible apply sub_app
    | with_reducible apply out_next
    | with_reducible apply out_fault
    | with_reducible apply out_refused
    | with_reducible apply foldl_kept
    | with_reducible apply foldl_kept1
    | with_reducible apply foldl_kept2
    | with_reducible apply foldl_kept21
    | with_reducible apply foldl_kept22
    | with_reducible exact HalOk.rfl
    | with_reducible exact HbmOk.rfl
    | with_reducible exact PwrOk.rfl
    | with_reducible exact HeatOk.rfl
    | with_reducible exact PkgOk.rfl
    | with_reducible exact StepOk.rfl
    | with_reducible exact FlashOk.rfl
    | with_reducible exact id
    | with_reducible refine HalOk.mk ?_ ?_ ?_ ?_
    | with_reducible refine HbmOk.mk ?_ ?_ ?_
    | with_reducible refine PwrOk.mk ?_ ?_
    | with_reducible refine HeatOk.mk ?_
    | with_reducible refine PkgOk.mk ?_ ?_
    | with_reducible refine StepOk.mk ?_
    | with_reducible refine FlashOk.mk ?_ ?_ ?_ ?_
    | exact id
    | with_reducible apply wf_upd
    | with_reducible apply wf_setList
    | with_reducible apply wf_copy
    | with_reducible apply wf_clear
    | decide
    | (simp only [setAt_length, List.length_map, List.length_zipIdx]; exact id)
    | split
    | intro _
    | dsimp only
    | with_reducible apply wf_foldl
    | with_reducible apply wf_set
    | simp only [kept_mk]
    | with_reducible refine set_mk ?_ ?_ ?_ ?_ ?_ ?_ ?_ ?_ ?_)

theorem notice_kept {x0 : State} (x1 : Nat) (x2 : Nat) (x3 : Nat) (x4 : Nat) (h0 : Kept q b x0) : Kept q b (@State.notice x0 x1 x2 x3 x4) := by
  unfold State.notice
  try dsimp only
  with_reducible repeat' first | assumption | apply onPr_kept | apply dropHint_kept | split

theorem retryDeferred_kept {x0 : State} (x1 : Nat) (h0 : Kept q b x0) : Kept q b (@State.retryDeferred x0 x1) := by
  unfold State.retryDeferred
  try dsimp only
  with_reducible repeat' first | assumption | apply onPr_kept | split | intro _ | apply foldl_kept

theorem noticeDue_kept {x0 : State} (x1 : Nat) (x2 : Notice) (h0 : Kept q b x0) : Kept q b (@State.noticeDue x0 x1 x2) := by
  unfold State.noticeDue
  with_reducible repeat' first | assumption | apply enterPhase_kept | apply onPr_kept | apply paceBy_kept | apply retryDeferred_kept | split

theorem onCore_kept {x0 : State} (x1 : Nat) (x2 : CoreSt → CoreSt) (h0 : Kept q b x0) : Kept q b (@State.onCore x0 x1 x2) := by
  unfold State.onCore
  try dsimp only
  repeat' (first
    | with_reducible assumption
    | with_reducible apply on_hal
    | with_reducible apply opt_some
    | with_reducible apply opt_none
    | with_reducible apply sub_app
    | with_reducible apply out_next
    | with_reducible apply out_fault
    | with_reducible apply out_refused
    | with_reducible apply foldl_kept
    | with_reducible apply foldl_kept1
    | with_reducible apply foldl_kept2
    | with_reducible apply foldl_kept21
    | with_reducible apply foldl_kept22
    | with_reducible exact HalOk.rfl
    | with_reducible exact HbmOk.rfl
    | with_reducible exact PwrOk.rfl
    | with_reducible exact HeatOk.rfl
    | with_reducible exact PkgOk.rfl
    | with_reducible exact StepOk.rfl
    | with_reducible exact FlashOk.rfl
    | with_reducible exact id
    | with_reducible refine HalOk.mk ?_ ?_ ?_ ?_
    | with_reducible refine HbmOk.mk ?_ ?_ ?_
    | with_reducible refine PwrOk.mk ?_ ?_
    | with_reducible refine HeatOk.mk ?_
    | with_reducible refine PkgOk.mk ?_ ?_
    | with_reducible refine StepOk.mk ?_
    | with_reducible refine FlashOk.mk ?_ ?_ ?_ ?_
    | exact id
    | with_reducible apply wf_upd
    | with_reducible apply wf_setList
    | with_reducible apply wf_copy
    | with_reducible apply wf_clear
    | decide
    | (simp only [setAt_length, List.length_map, List.length_zipIdx]; exact id)
    | split
    | intro _
    | dsimp only
    | with_reducible apply wf_foldl
    | with_reducible apply wf_set
    | simp only [kept_mk]
    | with_reducible refine set_mk ?_ ?_ ?_ ?_ ?_ ?_ ?_ ?_ ?_)

theorem onDie_kept {x0 : State} (x1 : Nat) (x2 : PwrDie → PwrDie) (h0 : Kept q b x0) : Kept q b (@State.onDie x0 x1 x2) := by
  unfold State.onDie
  try dsimp only
  repeat' (first
    | with_reducible assumption
    | with_reducible apply on_pwr
    | with_reducible apply opt_some
    | with_reducible apply opt_none
    | with_reducible apply sub_app
    | with_reducible apply out_next
    | with_reducible apply out_fault
    | with_reducible apply out_refused
    | with_reducible apply foldl_kept
    | with_reducible apply foldl_kept1
    | with_reducible apply foldl_kept2
    | with_reducible apply foldl_kept21
    | with_reducible apply foldl_kept22
    | with_reducible exact HalOk.rfl
    | with_reducible exact HbmOk.rfl
    | with_reducible exact PwrOk.rfl
    | with_reducible exact HeatOk.rfl
    | with_reducible exact PkgOk.rfl
    | with_reducible exact StepOk.rfl
    | with_reducible exact FlashOk.rfl
    | with_reducible exact id
    | with_reducible refine HalOk.mk ?_ ?_ ?_ ?_
    | with_reducible refine HbmOk.mk ?_ ?_ ?_
    | with_reducible refine PwrOk.mk ?_ ?_
    | with_reducible refine HeatOk.mk ?_
    | with_reducible refine PkgOk.mk ?_ ?_
    | with_reducible refine StepOk.mk ?_
    | with_reducible refine FlashOk.mk ?_ ?_ ?_ ?_
    | exact id
    | with_reducible apply wf_upd
    | with_reducible apply wf_setList
    | with_reducible apply wf_copy
    | with_reducible apply wf_clear
    | decide
    | (simp only [setAt_length, List.length_map, List.length_zipIdx]; exact id)
    | split
    | intro _
    | dsimp only
    | with_reducible apply wf_foldl
    | with_reducible apply wf_set
    | simp only [kept_mk]
    | with_reducible refine set_mk ?_ ?_ ?_ ?_ ?_ ?_ ?_ ?_ ?_)

theorem onExchange_kept {x0 : State} (x1 : Nat) (x2 : Exchange → Exchange) (h0 : Kept q b x0) : Kept q b (@State.onExchange x0 x1 x2) := by
  unfold State.onExchange
  with_reducible repeat' first | assumption | apply onBoot_kept | split

theorem onPnHead_kept {x0 : State} (x1 : Nat) (x2 : PnCmd → PnCmd) (h0 : Kept q b x0) : Kept q b (@State.onPnHead x0 x1 x2) := by
  unfold State.onPnHead
  with_reducible repeat' first | assumption | apply onTile_kept | split

theorem onPtp_kept {x0 : State} (x1 : Nat) (x2 : PtpPort → PtpPort) (h0 : Kept q b x0) : Kept q b (@State.onPtp x0 x1 x2) := by
  unfold State.onPtp
  with_reducible repeat' first | assumption | apply onPort_kept | split

theorem openSession_kept {x0 : State} (x1 : Exchange) (x2 : Bool) (x3 : Nat) (x4 : Nat) (h0 : Kept q b x0) : Kept q b (@State.openSession x0 x1 x2 x3 x4) := by
  unfold State.openSession
  try dsimp only
  repeat' (first
    | with_reducible assumption
    | with_reducible apply pushLog_kept
    | with_reducible apply deliverHeld_kept
    | with_reducible apply on_hal
    | with_reducible apply opt_some
    | with_reducible apply opt_none
    | with_reducible apply sub_app
    | with_reducible apply out_next
    | with_reducible apply out_fault
    | with_reducible apply out_refused
    | with_reducible apply foldl_kept
    | with_reducible apply foldl_kept1
    | with_reducible apply foldl_kept2
    | with_reducible apply foldl_kept21
    | with_reducible apply foldl_kept22
    | with_reducible exact HalOk.rfl
    | with_reducible exact HbmOk.rfl
    | with_reducible exact PwrOk.rfl
    | with_reducible exact HeatOk.rfl
    | with_reducible exact PkgOk.rfl
    | with_reducible exact StepOk.rfl
    | with_reducible exact FlashOk.rfl
    | with_reducible exact id
    | with_reducible refine HalOk.mk ?_ ?_ ?_ ?_
    | with_reducible refine HbmOk.mk ?_ ?_ ?_
    | with_reducible refine PwrOk.mk ?_ ?_
    | with_reducible refine HeatOk.mk ?_
    | with_reducible refine PkgOk.mk ?_ ?_
    | with_reducible refine StepOk.mk ?_
    | with_reducible refine FlashOk.mk ?_ ?_ ?_ ?_
    | exact id
    | with_reducible apply wf_upd
    | with_reducible apply wf_setList
    | with_reducible apply wf_copy
    | with_reducible apply wf_clear
    | decide
    | (simp only [setAt_length, List.length_map, List.length_zipIdx]; exact id)
    | split
    | intro _
    | dsimp only
    | with_reducible apply wf_foldl
    | with_reducible apply wf_set
    | simp only [kept_mk]
    | with_reducible refine set_mk ?_ ?_ ?_ ?_ ?_ ?_ ?_ ?_ ?_)

theorem orderedMove_kept {x0 : State} (x1 : Nat) (x2 : Bool) (h0 : Kept q b x0) : Kept q b (@State.orderedMove x0 x1 x2) := by
  unfold State.orderedMove
  with_reducible repeat' first | assumption | apply startEvict_kept | apply promoteNow_kept | split

theorem param1_kept {x0 : State} (x1 : Nat) (x2 : Nat) (h0 : Kept q b x0) : Kept q b (@State.param1 x0 x1 x2) := by
  unfold State.param1
  try dsimp only
  repeat' (first
    | with_reducible assumption
    | with_reducible apply on_hal
    | with_reducible apply opt_some
    | with_reducible apply opt_none
    | with_reducible apply sub_app
    | with_reducible apply out_next
    | with_reducible apply out_fault
    | with_reducible apply out_refused
    | with_reducible apply foldl_kept
    | with_reducible apply foldl_kept1
    | with_reducible apply foldl_kept2
    | with_reducible apply foldl_kept21
    | with_reducible apply foldl_kept22
    | with_reducible exact HalOk.rfl
    | with_reducible exact HbmOk.rfl
    | with_reducible exact PwrOk.rfl
    | with_reducible exact HeatOk.rfl
    | with_reducible exact PkgOk.rfl
    | with_reducible exact StepOk.rfl
    | with_reducible exact FlashOk.rfl
    | with_reducible exact id
    | with_reducible refine HalOk.mk ?_ ?_ ?_ ?_
    | with_reducible refine HbmOk.mk ?_ ?_ ?_
    | with_reducible refine PwrOk.mk ?_ ?_
    | with_reducible refine HeatOk.mk ?_
    | with_reducible refine PkgOk.mk ?_ ?_
    | with_reducible refine StepOk.mk ?_
    | with_reducible refine FlashOk.mk ?_ ?_ ?_ ?_
    | exact id
    | with_reducible apply wf_upd
    | with_reducible apply wf_setList
    | with_reducible apply wf_copy
    | with_reducible apply wf_clear
    | decide
    | (simp only [setAt_length, List.length_map, List.length_zipIdx]; exact id)
    | split
    | intro _
    | dsimp only
    | with_reducible apply wf_foldl
    | with_reducible apply wf_set
    | simp only [kept_mk]
    | with_reducible refine set_mk ?_ ?_ ?_ ?_ ?_ ?_ ?_ ?_ ?_)

theorem ptpChanged_kept {x0 : State} (h0 : Kept q b x0) : Kept q b (@State.ptpChanged x0) := by
  unfold State.ptpChanged
  try dsimp only
  repeat' (first
    | with_reducible assumption
    | with_reducible apply bmca_kept
    | with_reducible apply opt_some
    | with_reducible apply opt_none
    | with_reducible apply sub_app
    | with_reducible apply out_next
    | with_reducible apply out_fault
    | with_reducible apply out_refused
    | with_reducible apply foldl_kept
    | with_reducible apply foldl_kept1
    | with_reducible apply foldl_kept2
    | with_reducible apply foldl_kept21
    | with_reducible apply foldl_kept22
    | with_reducible exact HalOk.rfl
    | with_reducible exact HbmOk.rfl
    | with_reducible exact PwrOk.rfl
    | with_reducible exact HeatOk.rfl
    | with_reducible exact PkgOk.rfl
    | with_reducible exact StepOk.rfl
    | with_reducible exact FlashOk.rfl
    | with_reducible exact id
    | with_reducible refine HalOk.mk ?_ ?_ ?_ ?_
    | with_reducible refine HbmOk.mk ?_ ?_ ?_
    | with_reducible refine PwrOk.mk ?_ ?_
    | with_reducible refine HeatOk.mk ?_
    | with_reducible refine PkgOk.mk ?_ ?_
    | with_reducible refine StepOk.mk ?_
    | with_reducible refine FlashOk.mk ?_ ?_ ?_ ?_
    | exact id
    | with_reducible apply wf_upd
    | with_reducible apply wf_setList
    | with_reducible apply wf_copy
    | with_reducible apply wf_clear
    | decide
    | (simp only [setAt_length, List.length_map, List.length_zipIdx]; exact id)
    | split
    | intro _
    | dsimp only
    | with_reducible apply wf_foldl
    | with_reducible apply wf_set
    | simp only [kept_mk]
    | with_reducible refine set_mk ?_ ?_ ?_ ?_ ?_ ?_ ?_ ?_ ?_)

theorem param2_kept {x0 : State} (x1 : Nat) (x2 : Nat) (h0 : Kept q b x0) : Kept q b (@State.param2 x0 x1 x2) := by
  unfold State.param2
  try dsimp only
  repeat' (first
    | with_reducible assumption
    | with_reducible apply onTime_kept
    | with_reducible apply ptpChanged_kept
    | with_reducible apply onObs_kept
    | with_reducible apply on_pwr
    | with_reducible apply on_heat
    | with_reducible apply opt_some
    | with_reducible apply opt_none
    | with_reducible apply sub_app
    | with_reducible apply out_next
    | with_reducible apply out_fault
    | with_reducible apply out_refused
    | with_reducible apply foldl_kept
    | with_reducible apply foldl_kept1
    | with_reducible apply foldl_kept2
    | with_reducible apply foldl_kept21
    | with_reducible apply foldl_kept22
    | with_reducible exact HalOk.rfl
    | with_reducible exact HbmOk.rfl
    | with_reducible exact PwrOk.rfl
    | with_reducible exact HeatOk.rfl
    | with_reducible exact PkgOk.rfl
    | with_reducible exact StepOk.rfl
    | with_reducible exact FlashOk.rfl
    | with_reducible exact id
    | with_reducible refine HalOk.mk ?_ ?_ ?_ ?_
    | with_reducible refine HbmOk.mk ?_ ?_ ?_
    | with_reducible refine PwrOk.mk ?_ ?_
    | with_reducible refine HeatOk.mk ?_
    | with_reducible refine PkgOk.mk ?_ ?_
    | with_reducible refine StepOk.mk ?_
    | with_reducible refine FlashOk.mk ?_ ?_ ?_ ?_
    | exact id
    | with_reducible apply wf_upd
    | with_reducible apply wf_setList
    | with_reducible apply wf_copy
    | with_reducible apply wf_clear
    | decide
    | (simp only [setAt_length, List.length_map, List.length_zipIdx]; exact id)
    | split
    | intro _
    | dsimp only
    | with_reducible apply wf_foldl
    | with_reducible apply wf_set
    | simp only [kept_mk]
    | with_reducible refine set_mk ?_ ?_ ?_ ?_ ?_ ?_ ?_ ?_ ?_)

theorem passUp_kept {x0 : State} (x1 : LedgerMsg) (h0 : Kept q b x0) : Kept q b (@State.passUp x0 x1) := by
  unfold State.passUp
  try dsimp only
  with_reducible repeat' first | assumption | apply tellAbove_kept | split

theorem patch_kept {x0 : State} (x1 : Patch) (h0 : Kept q b x0) : Kept q b (@State.patch x0 x1) := by
  unfold State.patch
  try dsimp only
  with_reducible repeat' first | assumption | apply putExp_kept | split | intro _ | apply foldl_kept

theorem pathDown_kept {x0 : State} (x1 : Nat) (h0 : Kept q b x0) : Kept q b (@State.pathDown x0 x1) := by
  unfold State.pathDown
  try dsimp only
  with_reducible repeat' first | assumption | apply onFab_kept | apply request_kept | apply takePath_kept | split

theorem peek_kept {x0 : State} (x1 : Nat) (h0 : Kept q b x0) : Kept q b ((@State.peek x0 x1)).2 := by
  unfold State.peek
  with_reducible repeat' first | assumption | apply draw_kept | split

theorem peeks_kept {x0 : State} (x1 : List Nat) (h0 : Kept q b x0) : Kept q b ((@State.peeks x0 x1)).2 := by
  unfold State.peeks
  try dsimp only
  with_reducible repeat' first | assumption | apply peek_kept | apply foldl_kept | apply foldl_kept1 | apply foldl_kept2 | apply foldl_kept21 | apply foldl_kept22 | split | intro _

theorem regionOff_kept {x0 : State} (x1 : Nat) (h0 : Kept q b x0) : Kept q b (@State.regionOff x0 x1) := by
  unfold State.regionOff
  try dsimp only
  with_reducible repeat' first | assumption | apply onTile_kept | apply onPr_kept | split | intro _ | apply foldl_kept

theorem retirePhase_kept {x0 : State} (x1 : Nat) (x2 : Nat) (h0 : Kept q b x0) : Kept q b (@State.retirePhase x0 x1 x2) := by
  unfold State.retirePhase
  try dsimp only
  repeat' (first
    | with_reducible assumption
    | with_reducible apply raise_kept
    | with_reducible apply report_kept
    | with_reducible apply onPr_kept
    | with_reducible apply regionOff_kept
    | with_reducible apply retireSlot_kept
    | with_reducible apply onRegion_kept
    | with_reducible apply unback_kept
    | with_reducible apply opt_some
    | with_reducible apply opt_none
    | with_reducible apply sub_app
    | with_reducible apply out_next
    | with_reducible apply out_fault
    | with_reducible apply out_refused
    | with_reducible apply foldl_kept
    | with_reducible apply foldl_kept1
    | with_reducible apply foldl_kept2
    | with_reducible apply foldl_kept21
    | with_reducible apply foldl_kept22
    | with_reducible exact HalOk.rfl
    | with_reducible exact HbmOk.rfl
    | with_reducible exact PwrOk.rfl
    | with_reducible exact HeatOk.rfl
    | with_reducible exact PkgOk.rfl
    | with_reducible exact StepOk.rfl
    | with_reducible exact FlashOk.rfl
    | with_reducible exact id
    | with_reducible refine HalOk.mk ?_ ?_ ?_ ?_
    | with_reducible refine HbmOk.mk ?_ ?_ ?_
    | with_reducible refine PwrOk.mk ?_ ?_
    | with_reducible refine HeatOk.mk ?_
    | with_reducible refine PkgOk.mk ?_ ?_
    | with_reducible refine StepOk.mk ?_
    | with_reducible refine FlashOk.mk ?_ ?_ ?_ ?_
    | exact id
    | with_reducible apply wf_upd
    | with_reducible apply wf_setList
    | with_reducible apply wf_copy
    | with_reducible apply wf_clear
    | decide
    | (simp only [setAt_length, List.length_map, List.length_zipIdx]; exact id)
    | split
    | intro _
    | dsimp only
    | with_reducible apply wf_foldl
    | with_reducible apply wf_set
    | simp only [kept_mk]
    | with_reducible refine set_mk ?_ ?_ ?_ ?_ ?_ ?_ ?_ ?_ ?_)

theorem phaseFault_kept {x0 : State} (x1 : Nat) (x2 : Nat) (h0 : Kept q b x0) : Kept q b (@State.phaseFault x0 x1 x2) := by
  unfold State.phaseFault
  try dsimp only
  with_reducible repeat' first | assumption | apply report_kept | apply onPr_kept | apply retirePhase_kept | split

theorem placeRec_kept {x0 : State} (x1 : Nat) (x2 : Nat) (x3 : Nat) (h0 : Kept q b x0) : Kept q b (@State.placeRec x0 x1 x2 x3) := by
  unfold State.placeRec
  with_reducible repeat' first | assumption | apply onPn_kept | split

theorem popStart_kept {x0 : State} (x1 : Nat) (x2 : PnCmd) (h0 : Kept q b x0) : Kept q b (@State.popStart x0 x1 x2) := by
  unfold State.popStart
  try dsimp only
  with_reducible repeat' first | assumption | apply faultPn_kept | apply onPn_kept | apply restore_kept | apply onPnHead_kept | split

theorem resetEnds_kept {x0 : State} (x1 : Nat) (x2 : Nat) (h0 : Kept q b x0) : Kept q b (@State.resetEnds x0 x1 x2) := by
  unfold State.resetEnds
  try dsimp only
  with_reducible repeat' first | assumption | apply finish_kept | split | intro _ | apply foldl_kept

theorem portFailed_kept {x0 : State} (x1 : Nat) (h0 : Kept q b x0) : Kept q b (@State.portFailed x0 x1) := by
  unfold State.portFailed
  with_reducible repeat' first | assumption | apply resetEnds_kept | apply raise_kept | apply report_kept | apply linkDown_kept | apply endBringUp_kept | split

theorem portReset_kept {x0 : State} (x1 : Nat) (h0 : Kept q b x0) : Kept q b ((@State.portReset x0 x1)).1 := by
  unfold State.portReset
  with_reducible repeat' first | assumption | apply linkDown_kept | split

theorem proposePage_kept {x0 : State} (x1 : Nat) (h0 : Kept q b x0) : Kept q b (@State.proposePage x0 x1) := by
  unfold State.proposePage
  try dsimp only
  repeat' (first
    | with_reducible assumption
    | with_reducible apply request_kept
    | with_reducible apply opt_some
    | with_reducible apply opt_none
    | with_reducible apply sub_app
    | with_reducible apply out_next
    | with_reducible apply out_fault
    | with_reducible apply out_refused
    | with_reducible apply foldl_kept
    | with_reducible apply foldl_kept1
    | with_reducible apply foldl_kept2
    | with_reducible apply foldl_kept21
    | with_reducible apply foldl_kept22
    | with_reducible exact HalOk.rfl
    | with_reducible exact HbmOk.rfl
    | with_reducible exact PwrOk.rfl
    | with_reducible exact HeatOk.rfl
    | with_reducible exact PkgOk.rfl
    | with_reducible exact StepOk.rfl
    | with_reducible exact FlashOk.rfl
    | with_reducible exact id
    | with_reducible refine HalOk.mk ?_ ?_ ?_ ?_
    | with_reducible refine HbmOk.mk ?_ ?_ ?_
    | with_reducible refine PwrOk.mk ?_ ?_
    | with_reducible refine HeatOk.mk ?_
    | with_reducible refine PkgOk.mk ?_ ?_
    | with_reducible refine StepOk.mk ?_
    | with_reducible refine FlashOk.mk ?_ ?_ ?_ ?_
    | exact id
    | with_reducible apply wf_upd
    | with_reducible apply wf_setList
    | with_reducible apply wf_copy
    | with_reducible apply wf_clear
    | decide
    | (simp only [setAt_length, List.length_map, List.length_zipIdx]; exact id)
    | split
    | intro _
    | dsimp only
    | with_reducible apply wf_foldl
    | with_reducible apply wf_set
    | simp only [kept_mk]
    | with_reducible refine set_mk ?_ ?_ ?_ ?_ ?_ ?_ ?_ ?_ ?_)

theorem proposals_kept {x0 : State} (h0 : Kept q b x0) : Kept q b (@State.proposals x0) := by
  unfold State.proposals
  try dsimp only
  with_reducible repeat' first | assumption | apply proposePage_kept | split | intro _ | apply foldl_kept

theorem timeStep_kept {x0 : State} (x1 : Int) (h0 : Kept q b x0) : Kept q b (@State.timeStep x0 x1) := by
  unfold State.timeStep
  try dsimp only
  repeat' (first
    | with_reducible assumption
    | with_reducible apply onTime_kept
    | with_reducible apply raise_kept
    | with_reducible apply opt_some
    | with_reducible apply opt_none
    | with_reducible apply sub_app
    | with_reducible apply out_next
    | with_reducible apply out_fault
    | with_reducible apply out_refused
    | with_reducible apply foldl_kept
    | with_reducible apply foldl_kept1
    | with_reducible apply foldl_kept2
    | with_reducible apply foldl_kept21
    | with_reducible apply foldl_kept22
    | with_reducible exact HalOk.rfl
    | with_reducible exact HbmOk.rfl
    | with_reducible exact PwrOk.rfl
    | with_reducible exact HeatOk.rfl
    | with_reducible exact PkgOk.rfl
    | with_reducible exact StepOk.rfl
    | with_reducible exact FlashOk.rfl
    | with_reducible exact id
    | with_reducible refine HalOk.mk ?_ ?_ ?_ ?_
    | with_reducible refine HbmOk.mk ?_ ?_ ?_
    | with_reducible refine PwrOk.mk ?_ ?_
    | with_reducible refine HeatOk.mk ?_
    | with_reducible refine PkgOk.mk ?_ ?_
    | with_reducible refine StepOk.mk ?_
    | with_reducible refine FlashOk.mk ?_ ?_ ?_ ?_
    | exact id
    | with_reducible apply wf_upd
    | with_reducible apply wf_setList
    | with_reducible apply wf_copy
    | with_reducible apply wf_clear
    | decide
    | (simp only [setAt_length, List.length_map, List.length_zipIdx]; exact id)
    | split
    | intro _
    | dsimp only
    | with_reducible apply wf_foldl
    | with_reducible apply wf_set
    | simp only [kept_mk]
    | with_reducible refine set_mk ?_ ?_ ?_ ?_ ?_ ?_ ?_ ?_ ?_)

theorem servo_kept {x0 : State} (x1 : Int) (h0 : Kept q b x0) : Kept q b (@State.servo x0 x1) := by
  unfold State.servo
  try dsimp only
  with_reducible repeat' first | assumption | apply onTime_kept | apply timeStep_kept | apply draw_kept | apply raise_kept | split

theorem ptpOffset_kept {x0 : State} (x1 : Int) (h0 : Kept q b x0) : Kept q b (@State.ptpOffset x0 x1) := by
  unfold State.ptpOffset
  try dsimp only
  with_reducible repeat' first | assumption | apply servo_kept | apply onTime_kept | apply timeStep_kept | split

theorem ringWrite_kept {x0 : State} (x1 : Nat) (x2 : Nat) (x3 : Nat) (x4 : Bytes) (x5 : Nat) (x6 : Bool) (h0 : Kept q b x0) : Kept q b (@State.ringWrite x0 x1 x2 x3 x4 x5 x6) := by
  unfold State.ringWrite
  try dsimp only
  with_reducible repeat' first | assumption | apply memWrite_kept | split

theorem pushStart_kept {x0 : State} (x1 : Nat) (x2 : PnCmd) (x3 : Sram) (h0 : Kept q b x0) : Kept q b (@State.pushStart x0 x1 x2 x3) := by
  unfold State.pushStart
  try dsimp only
  with_reducible repeat' first | assumption | apply spill_kept | apply faultPn_kept | apply ringWrite_kept | apply onPnHead_kept | split

theorem putImage_kept {x0 : State} (x1 : Nat) (x2 : Image) (h0 : Kept q b x0) : Kept q b (@State.putImage x0 x1 x2) := by
  unfold State.putImage
  try dsimp only
  repeat' (first
    | with_reducible assumption
    | with_reducible apply opt_some
    | with_reducible apply opt_none
    | with_reducible apply sub_app
    | with_reducible apply out_next
    | with_reducible apply out_fault
    | with_reducible apply out_refused
    | with_reducible apply foldl_kept
    | with_reducible apply foldl_kept1
    | with_reducible apply foldl_kept2
    | with_reducible apply foldl_kept21
    | with_reducible apply foldl_kept22
    | with_reducible exact HalOk.rfl
    | with_reducible exact HbmOk.rfl
    | with_reducible exact PwrOk.rfl
    | with_reducible exact HeatOk.rfl
    | with_reducible exact PkgOk.rfl
    | with_reducible exact StepOk.rfl
    | with_reducible exact FlashOk.rfl
    | with_reducible exact id
    | with_reducible refine HalOk.mk ?_ ?_ ?_ ?_
    | with_reducible refine HbmOk.mk ?_ ?_ ?_
    | with_reducible refine PwrOk.mk ?_ ?_
    | with_reducible refine HeatOk.mk ?_
    | with_reducible refine PkgOk.mk ?_ ?_
    | with_reducible refine StepOk.mk ?_
    | with_reducible refine FlashOk.mk ?_ ?_ ?_ ?_
    | exact id
    | with_reducible apply wf_upd
    | with_reducible apply wf_setList
    | with_reducible apply wf_copy
    | with_reducible apply wf_clear
    | decide
    | (simp only [setAt_length, List.length_map, List.length_zipIdx]; exact id)
    | split
    | intro _
    | dsimp only
    | with_reducible apply wf_foldl
    | with_reducible apply wf_set
    | simp only [kept_mk]
    | with_reducible refine set_mk ?_ ?_ ?_ ?_ ?_ ?_ ?_ ?_ ?_)

theorem putReg_kept {x0 : State} (x1 : Nat) (x2 : Nat) (x3 : List Nat) (x4 : optParam Nat 0) (h0 : Kept q b x0) : Kept q b (@State.putReg x0 x1 x2 x3 x4) := by
  unfold State.putReg
  with_reducible repeat' first | assumption | apply retire_kept | apply onTile_kept | split

theorem quoteRead_kept {x0 : State} (x1 : PendCmd) (h0 : Kept q b x0) : Kept q b (@State.quoteRead x0 x1) := by
  unfold State.quoteRead
  try dsimp only
  repeat' (first
    | with_reducible assumption
    | with_reducible apply onBoot_kept
    | with_reducible apply on_hal
    | with_reducible apply opt_some
    | with_reducible apply opt_none
    | with_reducible apply sub_app
    | with_reducible apply out_next
    | with_reducible apply out_fault
    | with_reducible apply out_refused
    | with_reducible apply foldl_kept
    | with_reducible apply foldl_kept1
    | with_reducible apply foldl_kept2
    | with_reducible apply foldl_kept21
    | with_reducible apply foldl_kept22
    | with_reducible exact HalOk.rfl
    | with_reducible exact HbmOk.rfl
    | with_reducible exact PwrOk.rfl
    | with_reducible exact HeatOk.rfl
    | with_reducible exact PkgOk.rfl
    | with_reducible exact StepOk.rfl
    | with_reducible exact FlashOk.rfl
    | with_reducible exact id
    | with_reducible refine HalOk.mk ?_ ?_ ?_ ?_
    | with_reducible refine HbmOk.mk ?_ ?_ ?_
    | with_reducible refine PwrOk.mk ?_ ?_
    | with_reducible refine HeatOk.mk ?_
    | with_reducible refine PkgOk.mk ?_ ?_
    | with_reducible refine StepOk.mk ?_
    | with_reducible refine FlashOk.mk ?_ ?_ ?_ ?_
    | exact id
    | with_reducible apply wf_upd
    | with_reducible apply wf_setList
    | with_reducible apply wf_copy
    | with_reducible apply wf_clear
    | decide
    | (simp only [setAt_length, List.length_map, List.length_zipIdx]; exact id)
    | split
    | intro _
    | dsimp only
    | with_reducible apply wf_foldl
    | with_reducible apply wf_set
    | simp only [kept_mk]
    | with_reducible refine set_mk ?_ ?_ ?_ ?_ ?_ ?_ ?_ ?_ ?_)

theorem railsOff_kept {x0 : State} (h0 : Kept q b x0) : Kept q b (@State.railsOff x0) := by
  unfold State.railsOff
  with_reducible repeat' first | assumption | apply onBoot_kept | apply deviceReset_kept | split

theorem raiseHeld_kept {x0 : State} (x1 : Event) (h0 : Kept q b x0) : Kept q b (@State.raiseHeld x0 x1) := by
  unfold State.raiseHeld
  try dsimp only
  repeat' (first
    | with_reducible assumption
    | with_reducible apply raise_kept
    | with_reducible apply opt_some
    | with_reducible apply opt_none
    | with_reducible apply sub_app
    | with_reducible apply out_next
    | with_reducible apply out_fault
    | with_reducible apply out_refused
    | with_reducible apply foldl_kept
    | with_reducible apply foldl_kept1
    | with_reducible apply foldl_kept2
    | with_reducible apply foldl_kept21
    | with_reducible apply foldl_kept22
    | with_reducible exact HalOk.rfl
    | with_reducible exact HbmOk.rfl
    | with_reducible exact PwrOk.rfl
    | with_reducible exact HeatOk.rfl
    | with_reducible exact PkgOk.rfl
    | with_reducible exact StepOk.rfl
    | with_reducible exact FlashOk.rfl
    | with_reducible exact id
    | with_reducible refine HalOk.mk ?_ ?_ ?_ ?_
    | with_reducible refine HbmOk.mk ?_ ?_ ?_
    | with_reducible refine PwrOk.mk ?_ ?_
    | with_reducible refine HeatOk.mk ?_
    | with_reducible refine PkgOk.mk ?_ ?_
    | with_reducible refine StepOk.mk ?_
    | with_reducible refine FlashOk.mk ?_ ?_ ?_ ?_
    | exact id
    | with_reducible apply wf_upd
    | with_reducible apply wf_setList
    | with_reducible apply wf_copy
    | with_reducible apply wf_clear
    | decide
    | (simp only [setAt_length, List.length_map, List.length_zipIdx]; exact id)
    | split
    | intro _
    | dsimp only
    | with_reducible apply wf_foldl
    | with_reducible apply wf_set
    | simp only [kept_mk]
    | with_reducible refine set_mk ?_ ?_ ?_ ?_ ?_ ?_ ?_ ?_ ?_)

theorem readFar_kept {x0 : State} (x1 : Nat) (x2 : Nat) (x3 : Bytes) (h0 : Kept q b x0) : Kept q b ((@State.readFar x0 x1 x2 x3)).2.2 := by
  unfold State.readFar
  with_reducible repeat' first | assumption | apply memRead_kept | split

theorem recompute_kept {x0 : State} (x1 : Nat) (x2 : PnCmd) (x3 : PnRec) (h0 : Kept q b x0) : Kept q b (@State.recompute x0 x1 x2 x3) := by
  unfold State.recompute
  with_reducible repeat' first | assumption | apply onPn_kept | apply balance_kept | apply postIf_kept | apply dropPn_kept | split

theorem refillN_kept (x0 : Nat) {x1 : State} (x2 : Nat) (h1 : Kept q b x1) : Kept q b (@State.refillN x0 x1 x2) := by
  induction x0 generalizing x1 x2 with
  | zero =>
  unfold State.refillN
  with_reducible repeat' first | assumption | apply onSession_kept | apply sendMsg_kept | split
  | succ n ih =>
  unfold State.refillN
  with_reducible repeat' first | assumption | apply ih | apply onSession_kept | apply sendMsg_kept | split

theorem refill_kept {x0 : State} (x1 : Nat) (h0 : Kept q b x0) : Kept q b (@State.refill x0 x1) := by
  unfold State.refill
  with_reducible repeat' first | assumption | apply pushLog_kept | apply refillN_kept | split

theorem regionSample_kept {x0 : State} (x1 : Nat) (x2 : Nat) (x3 : Nat) (h0 : Kept q b x0) : Kept q b (@State.regionSample x0 x1 x2 x3) := by
  unfold State.regionSample
  with_reducible repeat' first | assumption | apply onPr_kept | split

theorem relayOrder_kept {x0 : State} (x1 : JobOrder) (h0 : Kept q b x0) : Kept q b (@State.relayOrder x0 x1) := by
  unfold State.relayOrder
  with_reducible repeat' first | assumption | apply toMembers_kept | apply openLedger_kept | apply onRed_kept | split

theorem remoteRead_kept {x0 : State} (x1 : Nat) (x2 : FabCmd) (x3 : Nat) (x4 : Nat) (h0 : Kept q b x0) : Kept q b (@State.remoteRead x0 x1 x2 x3 x4) := by
  unfold State.remoteRead
  try dsimp only
  with_reducible repeat' first | assumption | apply onTile_kept | apply countFab_kept | apply fabReq_kept | split

theorem repeatDrained_kept {x0 : State} (h0 : Kept q b x0) : Kept q b (@State.repeatDrained x0) := by
  unfold State.repeatDrained
  try dsimp only
  repeat' (first
    | with_reducible assumption
    | with_reducible apply clearCounts_kept
    | with_reducible apply combineAll_kept
    | with_reducible apply allTiles_kept
    | with_reducible apply patch_kept
    | with_reducible apply beginRelayouts_kept
    | with_reducible apply settleSlots_kept
    | with_reducible apply phasesZero_kept
    | with_reducible apply beginRestore_kept
    | with_reducible apply on_step
    | with_reducible apply opt_some
    | with_reducible apply opt_none
    | with_reducible apply sub_app
    | with_reducible apply out_next
    | with_reducible apply out_fault
    | with_reducible apply out_refused
    | with_reducible apply foldl_kept
    | with_reducible apply foldl_kept1
    | with_reducible apply foldl_kept2
    | with_reducible apply foldl_kept21
    | with_reducible apply foldl_kept22
    | with_reducible exact HalOk.rfl
    | with_reducible exact HbmOk.rfl
    | with_reducible exact PwrOk.rfl
    | with_reducible exact HeatOk.rfl
    | with_reducible exact PkgOk.rfl
    | with_reducible exact StepOk.rfl
    | with_reducible exact FlashOk.rfl
    | with_reducible exact id
    | with_reducible refine HalOk.mk ?_ ?_ ?_ ?_
    | with_reducible refine HbmOk.mk ?_ ?_ ?_
    | with_reducible refine PwrOk.mk ?_ ?_
    | with_reducible refine HeatOk.mk ?_
    | with_reducible refine PkgOk.mk ?_ ?_
    | with_reducible refine StepOk.mk ?_
    | with_reducible refine FlashOk.mk ?_ ?_ ?_ ?_
    | exact id
    | with_reducible apply wf_upd
    | with_reducible apply wf_setList
    | with_reducible apply wf_copy
    | with_reducible apply wf_clear
    | decide
    | (simp only [setAt_length, List.length_map, List.length_zipIdx]; exact id)
    | split
    | intro _
    | dsimp only
    | with_reducible apply wf_foldl
    | with_reducible apply wf_set
    | simp only [kept_mk]
    | with_reducible refine set_mk ?_ ?_ ?_ ?_ ?_ ?_ ?_ ?_ ?_)

theorem repeatLocal_kept {x0 : State} (x1 : Nat) (x2 : Nat) (x3 : Nat) (x4 : List Patch) (h0 : Kept q b x0) : Kept q b (@State.repeatLocal x0 x1 x2 x3 x4) := by
  unfold State.repeatLocal
  try dsimp only
  repeat' (first
    | with_reducible assumption
    | with_reducible apply report_kept
    | with_reducible apply combineAll_kept
    | with_reducible apply stopTile_kept
    | with_reducible apply on_step
    | with_reducible apply opt_some
    | with_reducible apply opt_none
    | with_reducible apply sub_app
    | with_reducible apply out_next
    | with_reducible apply out_fault
    | with_reducible apply out_refused
    | with_reducible apply foldl_kept
    | with_reducible apply foldl_kept1
    | with_reducible apply foldl_kept2
    | with_reducible apply foldl_kept21
    | with_reducible apply foldl_kept22
    | with_reducible exact HalOk.rfl
    | with_reducible exact HbmOk.rfl
    | with_reducible exact PwrOk.rfl
    | with_reducible exact HeatOk.rfl
    | with_reducible exact PkgOk.rfl
    | with_reducible exact StepOk.rfl
    | with_reducible exact FlashOk.rfl
    | with_reducible exact id
    | with_reducible refine HalOk.mk ?_ ?_ ?_ ?_
    | with_reducible refine HbmOk.mk ?_ ?_ ?_
    | with_reducible refine PwrOk.mk ?_ ?_
    | with_reducible refine HeatOk.mk ?_
    | with_reducible refine PkgOk.mk ?_ ?_
    | with_reducible refine StepOk.mk ?_
    | with_reducible refine FlashOk.mk ?_ ?_ ?_ ?_
    | exact id
    | with_reducible apply wf_upd
    | with_reducible apply wf_setList
    | with_reducible apply wf_copy
    | with_reducible apply wf_clear
    | decide
    | (simp only [setAt_length, List.length_map, List.length_zipIdx]; exact id)
    | split
    | intro _
    | dsimp only
    | with_reducible apply wf_foldl
    | with_reducible apply wf_set
    | simp only [kept_mk]
    | with_reducible refine set_mk ?_ ?_ ?_ ?_ ?_ ?_ ?_ ?_ ?_)

theorem restoreLost_kept {x0 : State} (x1 : Nat) (x2 : PnCmd) (x3 : PnRec) (h0 : Kept q b x0) : Kept q b (@State.restoreLost x0 x1 x2 x3) := by
  unfold State.restoreLost
  try dsimp only
  with_reducible repeat' first | assumption | apply recompute_kept | split | intro _ | apply foldl_kept | simp only [kept_mk] | exact set_mk (by assumption) .rfl .rfl .rfl .rfl .rfl .rfl .rfl id | refine set_mk ?_ .rfl .rfl .rfl .rfl .rfl .rfl .rfl id

theorem restored_kept {x0 : State} (x1 : Nat) (x2 : PnRec) (x3 : Bytes) (x4 : Bool) (h0 : Kept q b x0) : Kept q b (@State.restored x0 x1 x2 x3 x4) := by
  unfold State.restored
  try dsimp only
  with_reducible repeat' first | assumption | apply placeRec_kept | apply ringWrite_kept | apply onPnHead_kept | split

theorem retrain_kept {x0 : State} (x1 : Nat) (x2 : Option Nat) (h0 : Kept q b x0) : Kept q b (@State.retrain x0 x1 x2) := by
  unfold State.retrain
  try dsimp only
  with_reducible repeat' first | assumption | apply onPort_kept | apply retireLane_kept | apply linkDown_kept | split

theorem ringRead_kept {x0 : State} (x1 : Nat) (x2 : Nat) (x3 : Nat) (x4 : Nat) (h0 : Kept q b x0) : Kept q b ((@State.ringRead x0 x1 x2 x3 x4)).2.2 := by
  unfold State.ringRead
  try dsimp only
  with_reducible repeat' first | assumption | apply memRead_kept | split

theorem routeTo_kept {x0 : State} (x1 : Nat) (x2 : Nat) (h0 : Kept q b x0) : OptKept q b (@State.routeTo x0 x1 x2) := by
  unfold State.routeTo
  with_reducible repeat' first | assumption | apply takePath_kept | apply onFab_kept | apply opt_some | exact opt_none | split

theorem rowErrors_kept {x0 : State} (x1 : Nat) (x2 : List (List Nat)) (h0 : Kept q b x0) : Kept q b (@State.rowErrors x0 x1 x2) := by
  unfold State.rowErrors
  try dsimp only
  with_reducible repeat' first | assumption | apply colError_kept | apply retireCol_kept | split | intro _ | apply foldl_kept

theorem rowRun_kept {x0 : State} (x1 : Nat) (x2 : RowD) (x3 : Bool) (x4 : Desc) (x5 : Desc) (x6 : Desc) (h0 : Kept q b x0) : Kept q b ((@State.rowRun x0 x1 x2 x3 x4 x5 x6)).1 := by
  unfold State.rowRun
  try dsimp only
  with_reducible repeat' first | assumption | apply count_kept | apply encOut_kept | apply onTile_kept | split

theorem runMerge_kept {x0 : State} (x1 : Nat) (x2 : MxCmd) (x3 : Sram) (h0 : Kept q b x0) : Kept q b (@State.runMerge x0 x1 x2 x3) := by
  unfold State.runMerge
  try dsimp only
  with_reducible repeat' first | assumption | apply faultMx_kept | apply drainWrite_kept | apply onMx_kept | apply drainAwait_kept | split

theorem mmRow_kept (x0 : Nat) (x1 : MxCmd) (x2 : List Nat) (x3 : List ColErr) (x4 : Nat) (x5 : Nat) (x6 : Nat) (x7 : Nat) (x8 : List (List Elem)) (x9 : Sram) {x10 : MmRun} (x11 : Nat) (h10 : Kept q b x10.s) : Kept q b ((@mmRow x0 x1 x2 x3 x4 x5 x6 x7 x8 x9 x10 x11)).s := by
  unfold mmRow
  try dsimp only
  with_reducible repeat' first | assumption | apply count_kept | apply rowErrors_kept | apply onTile_kept | split

theorem mmBand_kept (x0 : Nat) (x1 : MxCmd) (x2 : List Nat) (x3 : List ColErr) (x4 : Sram) {x5 : MmRun} (x6 : Nat) (h5 : Kept q b x5.s) : Kept q b ((@mmBand x0 x1 x2 x3 x4 x5 x6)).s := by
  unfold mmBand
  split
  · assumption
  · extract_lets dep0 k0 dep s0 ls band load r1
    have h0 : Kept q b s0 := by
      dsimp only [s0]
      split
      · exact loadCols_kept _ h5
      · exact h5
    have h1 : Kept q b r1.s := count_kept _ _ h0
    clear_value r1 s0
    split
    · exact h0
    · exact foldl_run _ (fun a x h => mmRow_kept _ _ _ _ _ _ _ _ _ _ _ h) _ h1

theorem runMm_kept {x0 : State} (x1 : Nat) (x2 : MxCmd) (x3 : List ColErr) (x4 : Nat) (x5 : Sram) (h0 : Kept q b x0) : Kept q b (@State.runMm x0 x1 x2 x3 x4 x5) := by
  unfold State.runMm
  extract_lets n mk mask s1 rows s2 pace s3 bands r s4
  have h1 : Kept q b s1 := by
    show Kept q b (if _ then _ else _)
    split
    · exact onTile_kept _ _ h0
    · exact h0
  have h2 : Kept q b s2 := onMx_kept _ _ _ h1
  have h3 : Kept q b s3 := accStruck_kept _ _ _ h2
  have h4 : Kept q b s4 := onTile_kept _ _ (foldl_run _ (fun a x h => mmBand_kept _ _ _ _ _ _ h) _ h3)
  clear_value s4 s3 s2 s1
  split
  · exact faultMx_kept _ _ _ h0
  · split
    · exact onTile_kept _ _ h2
    · split
      · exact faultMx_kept _ _ _ h4
      · exact h4

theorem rxClass_kept {x0 : State} (x1 : Nat) (x2 : Nat) (x3 : Nat) (x4 : Nat) (h0 : Kept q b x0) : Kept q b (@State.rxClass x0 x1 x2 x3 x4) := by
  unfold State.rxClass
  try dsimp only
  with_reducible repeat' first | assumption | apply onPort_kept | split | intro _ | apply foldl_kept | simp only [kept_mk] | exact set_mk (by assumption) .rfl .rfl .rfl .rfl .rfl .rfl .rfl id | refine set_mk ?_ .rfl .rfl .rfl .rfl .rfl .rfl .rfl id

theorem rxDiscard_kept {x0 : State} (x1 : Nat) (h0 : Kept q b x0) : Kept q b (@State.rxDiscard x0 x1) := by
  unfold State.rxDiscard
  with_reducible repeat' first | assumption | apply onPort_kept | split

theorem rxPacket_kept {x0 : State} (x1 : Pkt) (x2 : State → Out) (h0 : Kept q b x0) (h2 : ∀ y0, Kept q b y0 → OutKept q b (x2 y0)) : OutKept q b (@State.rxPacket x0 x1 x2) := by
  unfold State.rxPacket
  with_reducible repeat' first | assumption | apply rxDiscard_kept | apply rxClass_kept | apply rxCount_kept | apply out_next | exact out_fault _ | apply h2 | split

theorem seedSlot_kept {x0 : State} (x1 : Nat) (h0 : Kept q b x0) : Kept q b (@State.seedSlot x0 x1) := by
  unfold State.seedSlot
  try dsimp only
  with_reducible repeat' first | assumption | split | intro _ | apply foldl_kept | simp only [kept_mk] | exact set_mk (by assumption) .rfl .rfl .rfl .rfl .rfl .rfl .rfl id | refine set_mk ?_ .rfl .rfl .rfl .rfl .rfl .rfl .rfl id

theorem sendCtl_kept (x0 : Nat) (x1 : Nat) {x2 : State} (h2 : Kept q b x2) : Kept q b (@State.sendCtl x0 x1 x2) := by
  induction x1 generalizing x2 with
  | zero =>
  unfold State.sendCtl
  try dsimp only
  with_reducible repeat' first | assumption | apply say_kept | split | intro _ | apply foldl_kept | simp only [kept_mk] | exact set_mk (by assumption) .rfl .rfl .rfl .rfl .rfl .rfl .rfl id | refine set_mk ?_ .rfl .rfl .rfl .rfl .rfl .rfl .rfl id
  | succ n ih =>
  unfold State.sendCtl
  try dsimp only
  with_reducible repeat' first | assumption | apply ih | apply say_kept | split | intro _ | apply foldl_kept | simp only [kept_mk] | exact set_mk (by assumption) .rfl .rfl .rfl .rfl .rfl .rfl .rfl id | refine set_mk ?_ .rfl .rfl .rfl .rfl .rfl .rfl .rfl id

theorem sendFrame_kept {x0 : State} (x1 : Nat) (x2 : Nat) (x3 : Nat) (x4 : Bytes) (h0 : Kept q b x0) : Kept q b (@State.sendFrame x0 x1 x2 x3 x4) := by
  unfold State.sendFrame
  with_reducible repeat' first | assumption | apply sendOn_kept | split

theorem sendHeld_kept (x0 : Nat) (x1 : Nat) {x2 : State} (h2 : Kept q b x2) : Kept q b (@State.sendHeld x0 x1 x2) := by
  induction x1 generalizing x2 with
  | zero =>
  unfold State.sendHeld
  try dsimp only
  with_reducible repeat' first | assumption | apply say_kept | apply endTag_kept | apply endCheck_kept | split | intro _ | apply foldl_kept | simp only [kept_mk] | exact set_mk (by assumption) .rfl .rfl .rfl .rfl .rfl .rfl .rfl id | refine set_mk ?_ .rfl .rfl .rfl .rfl .rfl .rfl .rfl id
  | succ n ih =>
  unfold State.sendHeld
  try dsimp only
  with_reducible repeat' first | assumption | apply ih | apply say_kept | apply endTag_kept | apply endCheck_kept | split | intro _ | apply foldl_kept | simp only [kept_mk] | exact set_mk (by assumption) .rfl .rfl .rfl .rfl .rfl .rfl .rfl id | refine set_mk ?_ .rfl .rfl .rfl .rfl .rfl .rfl .rfl id

theorem sendOpen_kept {x0 : State} (x1 : Nat) (x2 : Nat) (x3 : Nat) (x4 : Nat) (x5 : Nat) (x6 : Bytes) (h0 : Kept q b x0) : Kept q b (@State.sendOpen x0 x1 x2 x3 x4 x5 x6) := by
  unfold State.sendOpen
  try dsimp only
  with_reducible repeat' first | assumption | apply sendMsg_kept | split | intro _ | apply foldl_kept

theorem sendPtp_kept {x0 : State} (x1 : Nat) (x2 : Nat) (x3 : Nat) (x4 : Nat) (x5 : Nat) (h0 : Kept q b x0) : Kept q b (@State.sendPtp x0 x1 x2 x3 x4 x5) := by
  unfold State.sendPtp
  with_reducible repeat' first | assumption | apply draw_kept | apply sendOn_kept | split

theorem settleReq_kept {x0 : State} (x1 : Hdr) (x2 : PendCmd) (x3 : State → Request → Option State) (h0 : Kept q b x0) (h3 : ∀ y0 y1, Kept q b y0 → OptKept q b (x3 y0 y1)) : Kept q b (@State.settleReq x0 x1 x2 x3) := by
  unfold State.settleReq
  split
  · exact answer_kept _ _ _ h0
  · split
    · rename_i e; exact answer_kept _ _ _ ((h3 _ _ (dropDecision_kept _ h0)).ok _ e)
    · exact answer_kept _ _ _ h0

theorem shipBegin_kept {x0 : State} (h0 : Kept q b x0) : Kept q b (@State.shipBegin x0) := by
  unfold State.shipBegin
  try dsimp only
  repeat' (first
    | with_reducible assumption
    | with_reducible apply moveRead_kept
    | with_reducible apply sendUnits_kept
    | with_reducible apply on_step
    | with_reducible apply opt_some
    | with_reducible apply opt_none
    | with_reducible apply sub_app
    | with_reducible apply out_next
    | with_reducible apply out_fault
    | with_reducible apply out_refused
    | with_reducible apply foldl_kept
    | with_reducible apply foldl_kept1
    | with_reducible apply foldl_kept2
    | with_reducible apply foldl_kept21
    | with_reducible apply foldl_kept22
    | with_reducible exact HalOk.rfl
    | with_reducible exact HbmOk.rfl
    | with_reducible exact PwrOk.rfl
    | with_reducible exact HeatOk.rfl
    | with_reducible exact PkgOk.rfl
    | with_reducible exact StepOk.rfl
    | with_reducible exact FlashOk.rfl
    | with_reducible exact id
    | with_reducible refine HalOk.mk ?_ ?_ ?_ ?_
    | with_reducible refine HbmOk.mk ?_ ?_ ?_
    | with_reducible refine PwrOk.mk ?_ ?_
    | with_reducible refine HeatOk.mk ?_
    | with_reducible refine PkgOk.mk ?_ ?_
    | with_reducible refine StepOk.mk ?_
    | with_reducible refine FlashOk.mk ?_ ?_ ?_ ?_
    | exact id
    | with_reducible apply wf_upd
    | with_reducible apply wf_setList
    | with_reducible apply wf_copy
    | with_reducible apply wf_clear
    | decide
    | (simp only [setAt_length, List.length_map, List.length_zipIdx]; exact id)
    | split
    | intro _
    | dsimp only
    | with_reducible apply wf_foldl
    | with_reducible apply wf_set
    | simp only [kept_mk]
    | with_reducible refine set_mk ?_ ?_ ?_ ?_ ?_ ?_ ?_ ?_ ?_)

theorem staleDrop_kept {x0 : State} (x1 : Nat) (x2 : Nat) (x3 : Bool) (h0 : Kept q b x0) : Kept q b (@State.staleDrop x0 x1 x2 x3) := by
  unfold State.staleDrop
  with_reducible repeat' first | assumption | apply send_kept | apply countStale_kept | split

theorem startCopy_kept {x0 : State} (x1 : Nat) (x2 : FabCmd) (h0 : Kept q b x0) : Kept q b (@State.startCopy x0 x1 x2) := by
  unfold State.startCopy
  try dsimp only
  with_reducible repeat' first | assumption | apply sendReq_kept | apply localReq_kept | apply copyFlush_kept | split | intro _ | apply foldl_kept

theorem startFrom_kept {x0 : State} (x1 : Nat) (h0 : Kept q b x0) : Kept q b (@State.startFrom x0 x1) := by
  unfold State.startFrom
  with_reducible repeat' first | assumption | apply onBoot_kept | apply extend_kept | split

theorem startJob_kept {x0 : State} (h0 : Kept q b x0) : Kept q b (@State.startJob x0) := by
  unfold State.startJob
  try dsimp only
  repeat' (first
    | with_reducible assumption
    | with_reducible apply clearCounts_kept
    | with_reducible apply startAll_kept
    | with_reducible apply wantTiles_kept
    | with_reducible apply phasesZero_kept
    | with_reducible apply jobStarted_kept
    | with_reducible apply on_step
    | with_reducible apply set_job
    | with_reducible apply opt_some
    | with_reducible apply opt_none
    | with_reducible apply sub_app
    | with_reducible apply out_next
    | with_reducible apply out_fault
    | with_reducible apply out_refused
    | with_reducible apply foldl_kept
    | with_reducible apply foldl_kept1
    | with_reducible apply foldl_kept2
    | with_reducible apply foldl_kept21
    | with_reducible apply foldl_kept22
    | with_reducible exact HalOk.rfl
    | with_reducible exact HbmOk.rfl
    | with_reducible exact PwrOk.rfl
    | with_reducible exact HeatOk.rfl
    | with_reducible exact PkgOk.rfl
    | with_reducible exact StepOk.rfl
    | with_reducible exact FlashOk.rfl
    | with_reducible exact id
    | with_reducible refine HalOk.mk ?_ ?_ ?_ ?_
    | with_reducible refine HbmOk.mk ?_ ?_ ?_
    | with_reducible refine PwrOk.mk ?_ ?_
    | with_reducible refine HeatOk.mk ?_
    | with_reducible refine PkgOk.mk ?_ ?_
    | with_reducible refine StepOk.mk ?_
    | with_reducible refine FlashOk.mk ?_ ?_ ?_ ?_
    | exact id
    | with_reducible apply wf_upd
    | with_reducible apply wf_setList
    | with_reducible apply wf_copy
    | with_reducible apply wf_clear
    | decide
    | (simp only [setAt_length, List.length_map, List.length_zipIdx]; exact id)
    | split
    | intro _
    | dsimp only
    | with_reducible apply wf_foldl
    | with_reducible apply wf_set
    | simp only [kept_mk]
    | with_reducible refine set_mk ?_ ?_ ?_ ?_ ?_ ?_ ?_ ?_ ?_)

theorem startRemote_kept {x0 : State} (x1 : Nat) (x2 : FabCmd) (h0 : Kept q b x0) : Kept q b (@State.startRemote x0 x1 x2) := by
  unfold State.startRemote
  try dsimp only
  with_reducible repeat' first | assumption | apply dropLines_kept | apply dropOffsets_kept | apply remoteRead_kept | apply fabReq_kept | split | intro _ | apply foldl_kept

theorem startStream_kept {x0 : State} (x1 : Nat) (x2 : FabCmd) (h0 : Kept q b x0) : Kept q b (@State.startStream x0 x1 x2) := by
  unfold State.startStream
  try dsimp only
  with_reducible repeat' first | assumption | apply fabFault_kept | apply onFabCmd_kept | apply combineAt_kept | apply sendReq_kept | apply readUnits_kept | apply moveWrite_kept | apply countFab_kept | split | intro _ | apply foldl_kept

theorem stopPeriscope_kept {x0 : State} (h0 : Kept q b x0) : Kept q b (@State.stopPeriscope x0) := by
  unfold State.stopPeriscope
  try dsimp only
  repeat' (first
    | with_reducible assumption
    | with_reducible apply onObs_kept
    | with_reducible apply on_hal
    | with_reducible apply opt_some
    | with_reducible apply opt_none
    | with_reducible apply sub_app
    | with_reducible apply out_next
    | with_reducible apply out_fault
    | with_reducible apply out_refused
    | with_reducible apply foldl_kept
    | with_reducible apply foldl_kept1
    | with_reducible apply foldl_kept2
    | with_reducible apply foldl_kept21
    | with_reducible apply foldl_kept22
    | with_reducible exact HalOk.rfl
    | with_reducible exact HbmOk.rfl
    | with_reducible exact PwrOk.rfl
    | with_reducible exact HeatOk.rfl
    | with_reducible exact PkgOk.rfl
    | with_reducible exact StepOk.rfl
    | with_reducible exact FlashOk.rfl
    | with_reducible exact id
    | with_reducible refine HalOk.mk ?_ ?_ ?_ ?_
    | with_reducible refine HbmOk.mk ?_ ?_ ?_
    | with_reducible refine PwrOk.mk ?_ ?_
    | with_reducible refine HeatOk.mk ?_
    | with_reducible refine PkgOk.mk ?_ ?_
    | with_reducible refine StepOk.mk ?_
    | with_reducible refine FlashOk.mk ?_ ?_ ?_ ?_
    | exact id
    | with_reducible apply wf_upd
    | with_reducible apply wf_setList
    | with_reducible apply wf_copy
    | with_reducible apply wf_clear
    | decide
    | (simp only [setAt_length, List.length_map, List.length_zipIdx]; exact id)
    | split
    | intro _
    | dsimp only
    | with_reducible apply wf_foldl
    | with_reducible apply wf_set
    | simp only [kept_mk]
    | with_reducible refine set_mk ?_ ?_ ?_ ?_ ?_ ?_ ?_ ?_ ?_)

theorem swapComplete_kept {x0 : State} (h0 : Kept q b x0) : Kept q b (@State.swapComplete x0) := by
  unfold State.swapComplete
  try dsimp only
  repeat' (first
    | with_reducible assumption
    | with_reducible apply clearCounts_kept
    | with_reducible apply shipBegin_kept
    | with_reducible apply finishAll_kept
    | with_reducible apply startAll_kept
    | with_reducible apply requestRepeat_kept
    | with_reducible apply on_step
    | with_reducible apply set_job
    | with_reducible apply opt_some
    | with_reducible apply opt_none
    | with_reducible apply sub_app
    | with_reducible apply out_next
    | with_reducible apply out_fault
    | with_reducible apply out_refused
    | with_reducible apply foldl_kept
    | with_reducible apply foldl_kept1
    | with_reducible apply foldl_kept2
    | with_reducible apply foldl_kept21
    | with_reducible apply foldl_kept22
    | with_reducible exact HalOk.rfl
    | with_reducible exact HbmOk.rfl
    | with_reducible exact PwrOk.rfl
    | with_reducible exact HeatOk.rfl
    | with_reducible exact PkgOk.rfl
    | with_reducible exact StepOk.rfl
    | with_reducible exact FlashOk.rfl
    | with_reducible exact id
    | with_reducible refine HalOk.mk ?_ ?_ ?_ ?_
    | with_reducible refine HbmOk.mk ?_ ?_ ?_
    | with_reducible refine PwrOk.mk ?_ ?_
    | with_reducible refine HeatOk.mk ?_
    | with_reducible refine PkgOk.mk ?_ ?_
    | with_reducible refine StepOk.mk ?_
    | with_reducible refine FlashOk.mk ?_ ?_ ?_ ?_
    | exact id
    | with_reducible apply wf_upd
    | with_reducible apply wf_setList
    | with_reducible apply wf_copy
    | with_reducible apply wf_clear
    | decide
    | (simp only [setAt_length, List.length_map, List.length_zipIdx]; exact id)
    | split
    | intro _
    | dsimp only
    | with_reducible apply wf_foldl
    | with_reducible apply wf_set
    | simp only [kept_mk]
    | with_reducible refine set_mk ?_ ?_ ?_ ?_ ?_ ?_ ?_ ?_ ?_)

theorem syncDone_kept {x0 : State} (x1 : Nat) (x2 : Int) (x3 : Int) (h0 : Kept q b x0) : Kept q b (@State.syncDone x0 x1 x2 x3) := by
  unfold State.syncDone
  with_reducible repeat' first | assumption | apply ptpOffset_kept | apply onPtp_kept | split

theorem tick_kept {x0 : State} (h0 : Kept q b x0) : Kept q b (@State.tick x0) := by
  unfold State.tick
  with_reducible repeat' first | assumption | apply onTime_kept | split

theorem tileTested_kept {x0 : State} (x1 : Nat) (x2 : List (Fin 130)) (h0 : Kept q b x0) : Kept q b (@State.tileTested x0 x1 x2) := by
  unfold State.tileTested
  try dsimp only
  repeat' (first
    | with_reducible assumption
    | with_reducible apply retireCol_kept
    | with_reducible apply onTile_kept
    | with_reducible apply settleSlots_kept
    | with_reducible apply on_step
    | with_reducible apply opt_some
    | with_reducible apply opt_none
    | with_reducible apply sub_app
    | with_reducible apply out_next
    | with_reducible apply out_fault
    | with_reducible apply out_refused
    | with_reducible apply foldl_kept
    | with_reducible apply foldl_kept1
    | with_reducible apply foldl_kept2
    | with_reducible apply foldl_kept21
    | with_reducible apply foldl_kept22
    | with_reducible exact HalOk.rfl
    | with_reducible exact HbmOk.rfl
    | with_reducible exact PwrOk.rfl
    | with_reducible exact HeatOk.rfl
    | with_reducible exact PkgOk.rfl
    | with_reducible exact StepOk.rfl
    | with_reducible exact FlashOk.rfl
    | with_reducible exact id
    | with_reducible refine HalOk.mk ?_ ?_ ?_ ?_
    | with_reducible refine HbmOk.mk ?_ ?_ ?_
    | with_reducible refine PwrOk.mk ?_ ?_
    | with_reducible refine HeatOk.mk ?_
    | with_reducible refine PkgOk.mk ?_ ?_
    | with_reducible refine StepOk.mk ?_
    | with_reducible refine FlashOk.mk ?_ ?_ ?_ ?_
    | exact id
    | with_reducible apply wf_upd
    | with_reducible apply wf_setList
    | with_reducible apply wf_copy
    | with_reducible apply wf_clear
    | decide
    | (simp only [setAt_length, List.length_map, List.length_zipIdx]; exact id)
    | split
    | intro _
    | dsimp only
    | with_reducible apply wf_foldl
    | with_reducible apply wf_set
    | simp only [kept_mk]
    | with_reducible refine set_mk ?_ ?_ ?_ ?_ ?_ ?_ ?_ ?_ ?_)

theorem trayMiss_kept {x0 : State} (h0 : Kept q b x0) : Kept q b (@State.trayMiss x0) := by
  unfold State.trayMiss
  try dsimp only
  repeat' (first
    | with_reducible assumption
    | with_reducible apply raise_kept
    | with_reducible apply on_heat
    | with_reducible apply opt_some
    | with_reducible apply opt_none
    | with_reducible apply sub_app
    | with_reducible apply out_next
    | with_reducible apply out_fault
    | with_reducible apply out_refused
    | with_reducible apply foldl_kept
    | with_reducible apply foldl_kept1
    | with_reducible apply foldl_kept2
    | with_reducible apply foldl_kept21
    | with_reducible apply foldl_kept22
    | with_reducible exact HalOk.rfl
    | with_reducible exact HbmOk.rfl
    | with_reducible exact PwrOk.rfl
    | with_reducible exact HeatOk.rfl
    | with_reducible exact PkgOk.rfl
    | with_reducible exact StepOk.rfl
    | with_reducible exact FlashOk.rfl
    | with_reducible exact id
    | with_reducible refine HalOk.mk ?_ ?_ ?_ ?_
    | with_reducible refine HbmOk.mk ?_ ?_ ?_
    | with_reducible refine PwrOk.mk ?_ ?_
    | with_reducible refine HeatOk.mk ?_
    | with_reducible refine PkgOk.mk ?_ ?_
    | with_reducible refine StepOk.mk ?_
    | with_reducible refine FlashOk.mk ?_ ?_ ?_ ?_
    | exact id
    | with_reducible apply wf_upd
    | with_reducible apply wf_setList
    | with_reducible apply wf_copy
    | with_reducible apply wf_clear
    | decide
    | (simp only [setAt_length, List.length_map, List.length_zipIdx]; exact id)
    | split
    | intro _
    | dsimp only
    | with_reducible apply wf_foldl
    | with_reducible apply wf_set
    | simp only [kept_mk]
    | with_reducible refine set_mk ?_ ?_ ?_ ?_ ?_ ?_ ?_ ?_ ?_)

theorem trialReady_kept {x0 : State} (h0 : Kept q b x0) : Kept q b (@State.trialReady x0) := by
  unfold State.trialReady
  split
  · split
    · exact h0
    · dsimp only
      split
      · rename_i e
        simp only [Bool.and_eq_true, decide_eq_true_eq] at e
        refine raiseHeld_kept _ ?_
        simp only [kept_mk]
        exact set_mk h0 ⟨fun h => Nat.le_trans h (Nat.le_of_lt e.2), id, id, id⟩ .rfl .rfl .rfl .rfl .rfl .rfl id
      · simp only [kept_mk]
        exact set_mk h0 ⟨id, id, id, id⟩ .rfl .rfl .rfl .rfl .rfl .rfl id
  · exact h0

theorem trigger_take_kept {x0 : State} (x1 : Nat) (h0 : Kept q b x0) : Kept q b (@State.trigger.take x0 x1) := by
  unfold State.trigger.take
  with_reducible repeat' first | assumption | apply peeks_kept | apply memWrite_kept | apply onObs_kept | split

theorem trigger_kept {x0 : State} (x1 : Nat) (h0 : Kept q b x0) : Kept q b (@State.trigger x0 x1) := by
  unfold State.trigger
  try dsimp only
  with_reducible repeat' first | assumption | apply dropTrigger_kept | apply memRead_kept | apply memWrite_kept | apply trigger_take_kept | split

theorem tryRamp_kept {x0 : State} (h0 : Kept q b x0) : Kept q b (@State.tryRamp x0) := by
  unfold State.tryRamp
  try dsimp only
  repeat' (first
    | with_reducible assumption
    | with_reducible apply handOver_kept
    | with_reducible apply measureStart_kept
    | with_reducible apply onBoot_kept
    | with_reducible apply opt_some
    | with_reducible apply opt_none
    | with_reducible apply sub_app
    | with_reducible apply out_next
    | with_reducible apply out_fault
    | with_reducible apply out_refused
    | with_reducible apply foldl_kept
    | with_reducible apply foldl_kept1
    | with_reducible apply foldl_kept2
    | with_reducible apply foldl_kept21
    | with_reducible apply foldl_kept22
    | with_reducible exact HalOk.rfl
    | with_reducible exact HbmOk.rfl
    | with_reducible exact PwrOk.rfl
    | with_reducible exact HeatOk.rfl
    | with_reducible exact PkgOk.rfl
    | with_reducible exact StepOk.rfl
    | with_reducible exact FlashOk.rfl
    | with_reducible exact id
    | with_reducible refine HalOk.mk ?_ ?_ ?_ ?_
    | with_reducible refine HbmOk.mk ?_ ?_ ?_
    | with_reducible refine PwrOk.mk ?_ ?_
    | with_reducible refine HeatOk.mk ?_
    | with_reducible refine PkgOk.mk ?_ ?_
    | with_reducible refine StepOk.mk ?_
    | with_reducible refine FlashOk.mk ?_ ?_ ?_ ?_
    | exact id
    | with_reducible apply wf_upd
    | with_reducible apply wf_setList
    | with_reducible apply wf_copy
    | with_reducible apply wf_clear
    | decide
    | (simp only [setAt_length, List.length_map, List.length_zipIdx]; exact id)
    | split
    | intro _
    | dsimp only
    | with_reducible apply wf_foldl
    | with_reducible apply wf_set
    | simp only [kept_mk]
    | with_reducible refine set_mk ?_ ?_ ?_ ?_ ?_ ?_ ?_ ?_ ?_)

theorem txDrain_kept {x0 : State} (x1 : Nat) (h0 : Kept q b x0) : Kept q b (@State.txDrain x0 x1) := by
  unfold State.txDrain
  try dsimp only
  with_reducible repeat' first | assumption | apply sendOn_kept | split | intro _ | apply foldl_kept | simp only [kept_mk] | exact set_mk (by assumption) .rfl .rfl .rfl .rfl .rfl .rfl .rfl id | refine set_mk ?_ .rfl .rfl .rfl .rfl .rfl .rfl .rfl id

theorem upsetBy_kept {x0 : State} (x1 : List AddErr) (h0 : Kept q b x0) : Kept q b (@State.upsetBy x0 x1) := by
  unfold State.upsetBy
  try dsimp only
  with_reducible repeat' first | assumption | split | intro _ | apply foldl_kept | simp only [kept_mk] | exact set_mk (by assumption) .rfl .rfl .rfl .rfl .rfl .rfl .rfl id | refine set_mk ?_ .rfl .rfl .rfl .rfl .rfl .rfl .rfl id

theorem vecHold_kept {x0 : State} (x1 : Nat) (x2 : VecWait) (h0 : Kept q b x0) : Kept q b (@State.vecHold x0 x1 x2) := by
  unfold State.vecHold
  with_reducible repeat' first | assumption | apply onTile_kept | split

end Sys2Proof.Machine
end

