-- ==== Sys2Proof/Laws/Keep5.lean ====
section
/-! SUPPORT. `Kept` for the operations and commands of the model, in the order in which they use each other: part 5 of 7. -/

namespace Sys2Proof.Machine

set_option linter.unusedSimpArgs false
set_option linter.unusedTactic false
set_option linter.unreachableTactic false

variable {q : Prop} {b : State}

theorem vecRow_kept (x0 : Nat) (x1 : Vi) {x2 : State} (x3 : Bool) (x4 : State → State) (x5 : optParam Sram Sram.clean) (x6 : optParam Bool false) (h2 : Kept q b x2) (h4 : ∀ y0, Kept q b y0 → Kept q b (x4 y0)) : OutKept q b (@vecRow x0 x1 x2 x3 x4 x5 x6) := by
  unfold vecRow
  with_reducible repeat' first | assumption | apply vecHold_kept | apply fault_kept | apply tickTile_kept | apply out_next | exact out_fault _ | apply h4 | split

theorem vec2_kept (x0 : TileIx) (x1 : Vi) {x2 : State} (x3 : Nat → Nat → Nat → Nat) (h2 : Kept q b x2) : OutKept q b (@vec2 x0 x1 x2 x3) := by
  unfold vec2
  try dsimp only
  with_reducible repeat' first | assumption | apply vecRow_kept | apply lanes3_kept | apply out_next | exact out_fault _ | split | intro _ | apply foldl_kept

theorem execVadd_kept (x0 : TileIx) (x1 : BitVec 56) {x2 : State} (h2 : Kept q b x2) : OutKept q b (@execVadd x0 x1 x2) := by
  unfold execVadd
  with_reducible repeat' first | assumption | apply vec2_kept | apply out_next | exact out_fault _ | split

theorem execVsub_kept (x0 : TileIx) (x1 : BitVec 56) {x2 : State} (h2 : Kept q b x2) : OutKept q b (@execVsub x0 x1 x2) := by
  unfold execVsub
  with_reducible repeat' first | assumption | apply vec2_kept | apply out_next | exact out_fault _ | split

theorem execVmul_kept (x0 : TileIx) (x1 : BitVec 56) {x2 : State} (h2 : Kept q b x2) : OutKept q b (@execVmul x0 x1 x2) := by
  unfold execVmul
  with_reducible repeat' first | assumption | apply vec2_kept | apply out_next | exact out_fault _ | split

theorem execVfma_kept (x0 : TileIx) (x1 : BitVec 56) {x2 : State} (h2 : Kept q b x2) : OutKept q b (@execVfma x0 x1 x2) := by
  unfold execVfma
  try dsimp only
  with_reducible repeat' first | assumption | apply vecRow_kept | apply lanes3_kept | apply out_next | exact out_fault _ | split | intro _ | apply foldl_kept

theorem execVmax_kept (x0 : TileIx) (x1 : BitVec 56) {x2 : State} (h2 : Kept q b x2) : OutKept q b (@execVmax x0 x1 x2) := by
  unfold execVmax
  with_reducible repeat' first | assumption | apply vec2_kept | apply out_next | exact out_fault _ | split

theorem execVmin_kept (x0 : TileIx) (x1 : BitVec 56) {x2 : State} (h2 : Kept q b x2) : OutKept q b (@execVmin x0 x1 x2) := by
  unfold execVmin
  with_reducible repeat' first | assumption | apply vec2_kept | apply out_next | exact out_fault _ | split

theorem vec1_kept (x0 : TileIx) (x1 : Vi) {x2 : State} (x3 : Nat → Nat → Nat) (h2 : Kept q b x2) : OutKept q b (@vec1 x0 x1 x2 x3) := by
  unfold vec1
  try dsimp only
  with_reducible repeat' first | assumption | apply vecRow_kept | apply lanes3_kept | apply out_next | exact out_fault _ | split | intro _ | apply foldl_kept

theorem execVabs_kept (x0 : TileIx) (x1 : BitVec 56) {x2 : State} (h2 : Kept q b x2) : OutKept q b (@execVabs x0 x1 x2) := by
  unfold execVabs
  with_reducible repeat' first | assumption | apply vec1_kept | apply out_next | exact out_fault _ | split

theorem execVneg_kept (x0 : TileIx) (x1 : BitVec 56) {x2 : State} (h2 : Kept q b x2) : OutKept q b (@execVneg x0 x1 x2) := by
  unfold execVneg
  with_reducible repeat' first | assumption | apply vec1_kept | apply out_next | exact out_fault _ | split

theorem execVrcp_kept (x0 : TileIx) (x1 : BitVec 56) {x2 : State} (h2 : Kept q b x2) : OutKept q b (@execVrcp x0 x1 x2) := by
  unfold execVrcp
  with_reducible repeat' first | assumption | apply vec1_kept | apply out_next | exact out_fault _ | split

theorem execVrsqrt_kept (x0 : TileIx) (x1 : BitVec 56) {x2 : State} (h2 : Kept q b x2) : OutKept q b (@execVrsqrt x0 x1 x2) := by
  unfold execVrsqrt
  with_reducible repeat' first | assumption | apply vec1_kept | apply out_next | exact out_fault _ | split

theorem execVsqrt_kept (x0 : TileIx) (x1 : BitVec 56) {x2 : State} (h2 : Kept q b x2) : OutKept q b (@execVsqrt x0 x1 x2) := by
  unfold execVsqrt
  with_reducible repeat' first | assumption | apply vec1_kept | apply out_next | exact out_fault _ | split

theorem execVexp_kept (x0 : TileIx) (x1 : BitVec 56) {x2 : State} (h2 : Kept q b x2) : OutKept q b (@execVexp x0 x1 x2) := by
  unfold execVexp
  with_reducible repeat' first | assumption | apply vec1_kept | apply out_next | exact out_fault _ | split

theorem execVlog_kept (x0 : TileIx) (x1 : BitVec 56) {x2 : State} (h2 : Kept q b x2) : OutKept q b (@execVlog x0 x1 x2) := by
  unfold execVlog
  with_reducible repeat' first | assumption | apply vec1_kept | apply out_next | exact out_fault _ | split

theorem execVtanh_kept (x0 : TileIx) (x1 : BitVec 56) {x2 : State} (h2 : Kept q b x2) : OutKept q b (@execVtanh x0 x1 x2) := by
  unfold execVtanh
  with_reducible repeat' first | assumption | apply vec1_kept | apply out_next | exact out_fault _ | split

theorem execVsigm_kept (x0 : TileIx) (x1 : BitVec 56) {x2 : State} (h2 : Kept q b x2) : OutKept q b (@execVsigm x0 x1 x2) := by
  unfold execVsigm
  with_reducible repeat' first | assumption | apply vec1_kept | apply out_next | exact out_fault _ | split

theorem vecCmp_kept (x0 : TileIx) (x1 : Vi) {x2 : State} (x3 : Num → Num → Bool) (x4 : Int → Int → Bool) (h2 : Kept q b x2) : OutKept q b (@vecCmp x0 x1 x2 x3 x4) := by
  unfold vecCmp
  try dsimp only
  with_reducible repeat' first | assumption | apply vecRow_kept | apply lanes3_kept | apply out_next | exact out_fault _ | split | intro _ | apply foldl_kept

theorem execVcmpgt_kept (x0 : TileIx) (x1 : BitVec 56) {x2 : State} (h2 : Kept q b x2) : OutKept q b (@execVcmpgt x0 x1 x2) := by
  unfold execVcmpgt
  with_reducible repeat' first | assumption | apply vecCmp_kept | apply out_next | exact out_fault _ | split

theorem execVcmpge_kept (x0 : TileIx) (x1 : BitVec 56) {x2 : State} (h2 : Kept q b x2) : OutKept q b (@execVcmpge x0 x1 x2) := by
  unfold execVcmpge
  with_reducible repeat' first | assumption | apply vecCmp_kept | apply out_next | exact out_fault _ | split

theorem execVcmpeq_kept (x0 : TileIx) (x1 : BitVec 56) {x2 : State} (h2 : Kept q b x2) : OutKept q b (@execVcmpeq x0 x1 x2) := by
  unfold execVcmpeq
  with_reducible repeat' first | assumption | apply vecCmp_kept | apply out_next | exact out_fault _ | split

theorem execVsel_kept (x0 : TileIx) (x1 : BitVec 56) {x2 : State} (h2 : Kept q b x2) : OutKept q b (@execVsel x0 x1 x2) := by
  unfold execVsel
  try dsimp only
  with_reducible repeat' first | assumption | apply vecRow_kept | apply lanes3_kept | apply out_next | exact out_fault _ | split | intro _ | apply foldl_kept

theorem vecInt_kept (x0 : TileIx) (x1 : Vi) {x2 : State} (x3 : Nat → Nat → Nat) (h2 : Kept q b x2) : OutKept q b (@vecInt x0 x1 x2 x3) := by
  unfold vecInt
  try dsimp only
  with_reducible repeat' first | assumption | apply vecRow_kept | apply lanes3_kept | apply out_next | exact out_fault _ | split | intro _ | apply foldl_kept

theorem execViadd_kept (x0 : TileIx) (x1 : BitVec 56) {x2 : State} (h2 : Kept q b x2) : OutKept q b (@execViadd x0 x1 x2) := by
  unfold execViadd
  with_reducible repeat' first | assumption | apply vecInt_kept | apply out_next | exact out_fault _ | split

theorem execVisub_kept (x0 : TileIx) (x1 : BitVec 56) {x2 : State} (h2 : Kept q b x2) : OutKept q b (@execVisub x0 x1 x2) := by
  unfold execVisub
  with_reducible repeat' first | assumption | apply vecInt_kept | apply out_next | exact out_fault _ | split

theorem execVand_kept (x0 : TileIx) (x1 : BitVec 56) {x2 : State} (h2 : Kept q b x2) : OutKept q b (@execVand x0 x1 x2) := by
  unfold execVand
  with_reducible repeat' first | assumption | apply vecInt_kept | apply out_next | exact out_fault _ | split

theorem execVor_kept (x0 : TileIx) (x1 : BitVec 56) {x2 : State} (h2 : Kept q b x2) : OutKept q b (@execVor x0 x1 x2) := by
  unfold execVor
  with_reducible repeat' first | assumption | apply vecInt_kept | apply out_next | exact out_fault _ | split

theorem execVxor_kept (x0 : TileIx) (x1 : BitVec 56) {x2 : State} (h2 : Kept q b x2) : OutKept q b (@execVxor x0 x1 x2) := by
  unfold execVxor
  with_reducible repeat' first | assumption | apply vecInt_kept | apply out_next | exact out_fault _ | split

theorem execVshl_kept (x0 : TileIx) (x1 : BitVec 56) {x2 : State} (h2 : Kept q b x2) : OutKept q b (@execVshl x0 x1 x2) := by
  unfold execVshl
  with_reducible repeat' first | assumption | apply vecInt_kept | apply out_next | exact out_fault _ | split

theorem execVshr_kept (x0 : TileIx) (x1 : BitVec 56) {x2 : State} (h2 : Kept q b x2) : OutKept q b (@execVshr x0 x1 x2) := by
  unfold execVshr
  with_reducible repeat' first | assumption | apply vecInt_kept | apply out_next | exact out_fault _ | split

theorem execVimul_kept (x0 : TileIx) (x1 : BitVec 56) {x2 : State} (h2 : Kept q b x2) : OutKept q b (@execVimul x0 x1 x2) := by
  unfold execVimul
  with_reducible repeat' first | assumption | apply vecInt_kept | apply out_next | exact out_fault _ | split

theorem execVmov_kept (x0 : TileIx) (x1 : BitVec 56) {x2 : State} (h2 : Kept q b x2) : OutKept q b (@execVmov x0 x1 x2) := by
  unfold execVmov
  try dsimp only
  with_reducible repeat' first | assumption | apply vecRow_kept | apply lanes3_kept | apply out_next | exact out_fault _ | split | intro _ | apply foldl_kept

theorem execVlane_kept (x0 : TileIx) (x1 : BitVec 56) {x2 : State} (h2 : Kept q b x2) : OutKept q b (@execVlane x0 x1 x2) := by
  unfold execVlane
  try dsimp only
  with_reducible repeat' first | assumption | apply vecRow_kept | apply putReg_kept | apply out_next | exact out_fault _ | split | intro _ | apply foldl_kept

theorem execVcvt_kept (x0 : TileIx) (x1 : BitVec 56) {x2 : State} (h2 : Kept q b x2) : OutKept q b (@execVcvt x0 x1 x2) := by
  unfold execVcvt
  try dsimp only
  with_reducible repeat' first | assumption | apply vecRow_kept | apply putReg_kept | apply out_next | exact out_fault _ | split | intro _ | apply foldl_kept

theorem execVpack_kept (x0 : TileIx) (x1 : BitVec 56) {x2 : State} (h2 : Kept q b x2) : OutKept q b (@execVpack x0 x1 x2) := by
  unfold execVpack
  try dsimp only
  with_reducible repeat' first | assumption | apply vecRow_kept | apply putReg_kept | apply count_kept | apply out_next | exact out_fault _ | split | intro _ | apply foldl_kept

theorem execVunpk_kept (x0 : TileIx) (x1 : BitVec 56) {x2 : State} (h2 : Kept q b x2) : OutKept q b (@execVunpk x0 x1 x2) := by
  unfold execVunpk
  try dsimp only
  with_reducible repeat' first | assumption | apply vecRow_kept | apply putReg_kept | apply out_next | exact out_fault _ | split | intro _ | apply foldl_kept

theorem execVrsum_kept (x0 : TileIx) (x1 : BitVec 56) {x2 : State} (h2 : Kept q b x2) : OutKept q b (@execVrsum x0 x1 x2) := by
  unfold execVrsum
  try dsimp only
  with_reducible repeat' first | assumption | apply vecRow_kept | apply putReg_kept | apply out_next | exact out_fault _ | split | intro _ | apply foldl_kept

theorem execVrmax_kept (x0 : TileIx) (x1 : BitVec 56) {x2 : State} (h2 : Kept q b x2) : OutKept q b (@execVrmax x0 x1 x2) := by
  unfold execVrmax
  try dsimp only
  with_reducible repeat' first | assumption | apply vecRow_kept | apply putReg_kept | apply out_next | exact out_fault _ | split | intro _ | apply foldl_kept

theorem execVrand_kept (x0 : TileIx) (x1 : BitVec 56) {x2 : State} (h2 : Kept q b x2) : OutKept q b (@execVrand x0 x1 x2) := by
  unfold execVrand
  try dsimp only
  with_reducible repeat' first | assumption | apply vecRow_kept | apply putReg_kept | apply out_next | exact out_fault _ | split | intro _ | apply foldl_kept

theorem execVdmask_kept (x0 : TileIx) (x1 : BitVec 56) {x2 : State} (h2 : Kept q b x2) : OutKept q b (@execVdmask x0 x1 x2) := by
  unfold execVdmask
  try dsimp only
  with_reducible repeat' first | assumption | apply vecRow_kept | apply putReg_kept | apply out_next | exact out_fault _ | split | intro _ | apply foldl_kept

theorem execVmsel_kept (x0 : TileIx) (x1 : BitVec 56) {x2 : State} (h2 : Kept q b x2) : OutKept q b (@execVmsel x0 x1 x2) := by
  unfold execVmsel
  try dsimp only
  with_reducible repeat' first | assumption | apply vecRow_kept | apply putReg_kept | apply out_next | exact out_fault _ | split | intro _ | apply foldl_kept

theorem execVld_kept (x0 : TileIx) (x1 : BitVec 56) (x2 : Sram) {x3 : State} (h3 : Kept q b x3) : OutKept q b (@execVld x0 x1 x2 x3) := by
  unfold execVld
  try dsimp only
  with_reducible repeat' first | assumption | apply vecRow_kept | apply lsAccess_kept | apply putReg_kept | apply out_next | exact out_fault _ | split | intro _ | apply foldl_kept

theorem execVst_kept (x0 : TileIx) (x1 : BitVec 56) {x2 : State} (h2 : Kept q b x2) : OutKept q b (@execVst x0 x1 x2) := by
  unfold execVst
  try dsimp only
  with_reducible repeat' first | assumption | apply vecRow_kept | apply lsAccess_kept | apply retire_kept | apply onTile_kept | apply out_next | exact out_fault _ | split | intro _ | apply foldl_kept

theorem execVldbc_kept (x0 : TileIx) (x1 : BitVec 56) (x2 : Sram) {x3 : State} (h3 : Kept q b x3) : OutKept q b (@execVldbc x0 x1 x2 x3) := by
  unfold execVldbc
  try dsimp only
  with_reducible repeat' first | assumption | apply vecRow_kept | apply lsAccess_kept | apply putReg_kept | apply out_next | exact out_fault _ | split | intro _ | apply foldl_kept

theorem vldq_kept {x0 : State} (x1 : Nat) (x2 : Nat) (h0 : Kept q b x0) : Kept q b (@State.vldq x0 x1 x2) := by
  unfold State.vldq
  with_reducible repeat' first | assumption | apply onTile_kept | apply fault_kept | apply putReg_kept | split

theorem execVldq_kept (x0 : TileIx) (x1 : BitVec 56) {x2 : State} (h2 : Kept q b x2) : OutKept q b (@execVldq x0 x1 x2) := by
  unfold execVldq
  try dsimp only
  with_reducible repeat' first | assumption | apply vecRow_kept | apply vldq_kept | apply out_next | exact out_fault _ | split | intro _ | apply foldl_kept

theorem execVfence_kept (x0 : TileIx) (x1 : BitVec 56) {x2 : State} (h2 : Kept q b x2) : OutKept q b (@execVfence x0 x1 x2) := by
  unfold execVfence
  try dsimp only
  with_reducible repeat' first | assumption | apply vecRow_kept | apply retire_kept | apply onTile_kept | apply out_next | exact out_fault _ | split | intro _ | apply foldl_kept

theorem execVfmt_kept (x0 : TileIx) (x1 : BitVec 56) (x2 : Sram) {x3 : State} (h3 : Kept q b x3) : OutKept q b (@execVfmt x0 x1 x2 x3) := by
  unfold execVfmt
  try dsimp only
  with_reducible repeat' first | assumption | apply vecRow_kept | apply sramRead_kept | apply fault_kept | apply retire_kept | apply onTile_kept | apply out_next | exact out_fault _ | split | intro _ | apply foldl_kept

theorem execVenc_kept (x0 : TileIx) (x1 : BitVec 56) {x2 : State} (h2 : Kept q b x2) : OutKept q b (@execVenc x0 x1 x2) := by
  unfold execVenc
  try dsimp only
  with_reducible repeat' first | assumption | apply vecRow_kept | apply fault_kept | apply encRow_kept | apply retire_kept | apply onTile_kept | apply out_next | exact out_fault _ | split | intro _ | apply foldl_kept

theorem execVdec_kept (x0 : TileIx) (x1 : BitVec 56) (x2 : Sram) {x3 : State} (h3 : Kept q b x3) : OutKept q b (@execVdec x0 x1 x2 x3) := by
  unfold execVdec
  try dsimp only
  with_reducible repeat' first | assumption | apply vecRow_kept | apply sramRead_kept | apply fault_kept | apply count_kept | apply putReg_kept | apply onTile_kept | apply out_next | exact out_fault _ | split | intro _ | apply foldl_kept

theorem rowInstr_kept (x0 : Nat) (x1 : Vi) (x2 : Bool) (x3 : Sram) {x4 : State} (h4 : Kept q b x4) : OutKept q b (@rowInstr x0 x1 x2 x3 x4) := by
  unfold rowInstr
  try dsimp only
  with_reducible repeat' first | assumption | apply vecRow_kept | apply sramRead_kept | apply fault_kept | apply rowRun_kept | apply draws_kept | apply draw_kept | apply retire_kept | apply onTile_kept | apply out_next | exact out_fault _ | split | intro _ | apply foldl_kept

theorem execRowf_kept (x0 : TileIx) (x1 : BitVec 56) (x2 : Sram) {x3 : State} (h3 : Kept q b x3) : OutKept q b (@execRowf x0 x1 x2 x3) := by
  unfold execRowf
  with_reducible repeat' first | assumption | apply rowInstr_kept | apply out_next | exact out_fault _ | split

theorem execRowr_kept (x0 : TileIx) (x1 : BitVec 56) (x2 : Sram) {x3 : State} (h3 : Kept q b x3) : OutKept q b (@execRowr x0 x1 x2 x3) := by
  unfold execRowr
  with_reducible repeat' first | assumption | apply rowInstr_kept | apply out_next | exact out_fault _ | split

theorem execHint_kept (x0 : TileIx) (x1 : BitVec 56) {x2 : State} (h2 : Kept q b x2) : OutKept q b (@execHint x0 x1 x2) := by
  unfold execHint
  try dsimp only
  with_reducible repeat' first | assumption | apply vecRow_kept | apply retire_kept | apply notice_kept | apply out_next | exact out_fault _ | split | intro _ | apply foldl_kept

theorem vecAgain_kept (x0 : TileIx) (x1 : VecWait) {x2 : State} (h2 : Kept q b x2) : OutKept q b (@vecAgain x0 x1 x2) := by
  unfold vecAgain
  with_reducible repeat' first | assumption | apply execVadd_kept | apply execVsub_kept | apply execVmul_kept | apply execVfma_kept | apply execVmax_kept | apply execVmin_kept | apply execVabs_kept | apply execVneg_kept | apply execVrcp_kept | apply execVrsqrt_kept | apply execVsqrt_kept | apply execVexp_kept | apply execVlog_kept | apply execVtanh_kept | apply execVsigm_kept | apply execVcmpgt_kept | apply execVcmpge_kept | apply execVcmpeq_kept | apply execVsel_kept | apply execViadd_kept | apply execVisub_kept | apply execVand_kept | apply execVor_kept | apply execVxor_kept | apply execVshl_kept | apply execVshr_kept | apply execVimul_kept | apply execVmov_kept | apply execVlane_kept | apply execVcvt_kept | apply execVpack_kept | apply execVunpk_kept | apply execVrsum_kept | apply execVrmax_kept | apply execVrand_kept | apply execVdmask_kept | apply execVmsel_kept | apply execVld_kept | apply execVst_kept | apply execVldbc_kept | apply execVldq_kept | apply execVfence_kept | apply execVfmt_kept | apply execVenc_kept | apply execVdec_kept | apply execRowf_kept | apply execRowr_kept | apply execHint_kept | apply fault_kept | apply out_next | exact out_fault _ | split

theorem vecDrain_kept (x0 : TileIx) (x1 : List VecWait) {x2 : State} (h2 : Kept q b x2) : Kept q b (@State.vecDrain x0 x1 x2) := by
  induction x1 generalizing x2 with
  | nil => exact h2
  | cons v vs ih =>
    unfold State.vecDrain
    dsimp only
    split
    · exact onTile_kept _ _ h2
    · split
      · rename_i e
        have h := (vecAgain_kept x0 v (onTile_kept _ _ h2)).ok _ e
        split
        · exact ih (onTile_kept _ _ h)
        · exact onTile_kept _ _ h
      · exact h2

theorem vinLost_kept {x0 : State} (h0 : Kept q b x0) : Kept q b (@State.vinLost x0) := by
  unfold State.vinLost
  try dsimp only
  repeat' (first
    | with_reducible assumption
    | with_reducible apply tryRamp_kept
    | with_reducible apply railsOff_kept
    | with_reducible apply opt_some
    | with_reducible apply opt_none
    | with_reducible apply sub_app
    | with_reducible apply out_next
    | with_reducible apply out_fault
    | with_reducible apply out_refused
    | with_reducible apply foldl_kept
    | with_reducible apply foldl_kept1
    | with_reducible apply foldl_kept2
    | with_reducible apply foldl_kept21
    | with_reducible apply foldl_kept22
    | with_reducible exact HalOk.rfl
    | with_reducible exact HbmOk.rfl
    | with_reducible exact PwrOk.rfl
    | with_reducible exact HeatOk.rfl
    | with_reducible exact PkgOk.rfl
    | with_reducible exact StepOk.rfl
    | with_reducible exact FlashOk.rfl
    | with_reducible exact id
    | with_reducible refine HalOk.mk ?_ ?_ ?_ ?_
    | with_reducible refine HbmOk.mk ?_ ?_ ?_
    | with_reducible refine PwrOk.mk ?_ ?_
    | with_reducible refine HeatOk.mk ?_
    | with_reducible refine PkgOk.mk ?_ ?_
    | with_reducible refine StepOk.mk ?_
    | with_reducible refine FlashOk.mk ?_ ?_ ?_ ?_
    | exact id
    | with_reducible apply wf_upd
    | with_reducible apply wf_setList
    | with_reducible apply wf_copy
    | with_reducible apply wf_clear
    | decide
    | (simp only [setAt_length, List.length_map, List.length_zipIdx]; exact id)
    | split
    | intro _
    | dsimp only
    | with_reducible apply wf_foldl
    | with_reducible apply wf_set
    | simp only [kept_mk]
    | with_reducible refine set_mk ?_ ?_ ?_ ?_ ?_ ?_ ?_ ?_ ?_)

theorem wakeCore_kept {x0 : State} (x1 : Nat) (h0 : Kept q b x0) : Kept q b (@State.wakeCore x0 x1) := by
  unfold State.wakeCore
  with_reducible repeat' first | assumption | apply onCore_kept | split

theorem watchBeats_kept {x0 : State} (h0 : Kept q b x0) : Kept q b (@State.watchBeats x0) := by
  unfold State.watchBeats
  with_reducible repeat' first | assumption | apply onRed_kept | split

theorem watchFlow_kept {x0 : State} (h0 : Kept q b x0) : Kept q b (@State.watchFlow x0) := by
  unfold State.watchFlow
  try dsimp only
  repeat' (first
    | with_reducible assumption
    | with_reducible apply coolStop_kept
    | with_reducible apply on_heat
    | with_reducible apply opt_some
    | with_reducible apply opt_none
    | with_reducible apply sub_app
    | with_reducible apply out_next
    | with_reducible apply out_fault
    | with_reducible apply out_refused
    | with_reducible apply foldl_kept
    | with_reducible apply foldl_kept1
    | with_reducible apply foldl_kept2
    | with_reducible apply foldl_kept21
    | with_reducible apply foldl_kept22
    | with_reducible exact HalOk.rfl
    | with_reducible exact HbmOk.rfl
    | with_reducible exact PwrOk.rfl
    | with_reducible exact HeatOk.rfl
    | with_reducible exact PkgOk.rfl
    | with_reducible exact StepOk.rfl
    | with_reducible exact FlashOk.rfl
    | with_reducible exact id
    | with_reducible refine HalOk.mk ?_ ?_ ?_ ?_
    | with_reducible refine HbmOk.mk ?_ ?_ ?_
    | with_reducible refine PwrOk.mk ?_ ?_
    | with_reducible refine HeatOk.mk ?_
    | with_reducible refine PkgOk.mk ?_ ?_
    | with_reducible refine StepOk.mk ?_
    | with_reducible refine FlashOk.mk ?_ ?_ ?_ ?_
    | exact id
    | with_reducible apply wf_upd
    | with_reducible apply wf_setList
    | with_reducible apply wf_copy
    | with_reducible apply wf_clear
    | decide
    | (simp only [setAt_length, List.length_map, List.length_zipIdx]; exact id)
    | split
    | intro _
    | dsimp only
    | with_reducible apply wf_foldl
    | with_reducible apply wf_set
    | simp only [kept_mk]
    | with_reducible refine set_mk ?_ ?_ ?_ ?_ ?_ ?_ ?_ ?_ ?_)

theorem watchdog_kept {x0 : State} (x1 : Nat) (h0 : Kept q b x0) : Kept q b (@State.watchdog x0 x1) := by
  unfold State.watchdog
  try dsimp only
  with_reducible repeat' first | assumption | apply onCore_kept | split | intro _ | apply foldl_kept | simp only [kept_mk] | exact set_mk (by assumption) .rfl .rfl .rfl .rfl .rfl .rfl .rfl id | refine set_mk ?_ .rfl .rfl .rfl .rfl .rfl .rfl .rfl id

theorem issueRow_kept (x0 : Nat) (x1 : Nat) (x2 : Nat) {x3 : State} (h3 : Kept q b x3) : OutKept q b (@issueRow x0 x1 x2 x3) := by
  unfold issueRow
  with_reducible repeat' first | assumption | apply issueAny_kept | apply out_next | split

theorem execMm_kept (x0 : TileIx) (x1 : BitVec 22) {x2 : State} (h2 : Kept q b x2) : OutKept q b (@execMm x0 x1 x2) := by
  unfold execMm
  try dsimp only
  with_reducible repeat' first | assumption | apply issueRow_kept | apply issueMx_kept | apply out_next | exact out_fault _ | split | intro _ | apply foldl_kept

theorem execDrain_kept (x0 : TileIx) (x1 : BitVec 22) {x2 : State} (h2 : Kept q b x2) : OutKept q b (@execDrain x0 x1 x2) := by
  unfold execDrain
  try dsimp only
  with_reducible repeat' first | assumption | apply issueRow_kept | apply issueMx_kept | apply out_next | exact out_fault _ | split | intro _ | apply foldl_kept

theorem execTopk_kept (x0 : TileIx) (x1 : BitVec 22) {x2 : State} (h2 : Kept q b x2) : OutKept q b (@execTopk x0 x1 x2) := by
  unfold execTopk
  try dsimp only
  with_reducible repeat' first | assumption | apply issueRow_kept | apply issueMx_kept | apply out_next | exact out_fault _ | split | intro _ | apply foldl_kept

theorem execTopkMerge_kept (x0 : TileIx) (x1 : BitVec 22) {x2 : State} (h2 : Kept q b x2) : OutKept q b (@execTopkMerge x0 x1 x2) := by
  unfold execTopkMerge
  try dsimp only
  with_reducible repeat' first | assumption | apply issueRow_kept | apply issueMx_kept | apply out_next | exact out_fault _ | split | intro _ | apply foldl_kept

theorem execZero_kept (x0 : TileIx) (x1 : BitVec 22) {x2 : State} (h2 : Kept q b x2) : OutKept q b (@execZero x0 x1 x2) := by
  unfold execZero
  try dsimp only
  with_reducible repeat' first | assumption | apply issueRow_kept | apply issueMx_kept | apply out_next | exact out_fault _ | split | intro _ | apply foldl_kept

theorem execBarrier_kept (x0 : TileIx) (x1 : BitVec 22) {x2 : State} (h2 : Kept q b x2) : OutKept q b (@execBarrier x0 x1 x2) := by
  unfold execBarrier
  try dsimp only
  with_reducible repeat' first | assumption | apply issueRow_kept | apply issueMx_kept | apply out_next | exact out_fault _ | split | intro _ | apply foldl_kept

theorem execArrayCmdStart_kept (x0 : TileIx) (x1 : List ColErr) (x2 : BitVec 8) (x3 : Sram) {x4 : State} (h4 : Kept q b x4) : OutKept q b (@execArrayCmdStart x0 x1 x2 x3 x4) := by
  unfold execArrayCmdStart
  try dsimp only
  with_reducible repeat' first | assumption | apply onMx_kept | apply colError_kept | apply onTile_kept | apply sramRead_kept | apply runMm_kept | apply out_next | exact out_fault _ | split | intro _ | apply foldl_kept

theorem execDrainUnitStart_kept (x0 : TileIx) (x1 : Option Nat) (x2 : BitVec 8) (x3 : Sram) (x4 : List AddErr) {x5 : State} (h5 : Kept q b x5) : OutKept q b (@execDrainUnitStart x0 x1 x2 x3 x4 x5) := by
  unfold execDrainUnitStart
  try dsimp only
  with_reducible repeat' first | assumption | apply sramRead_kept | apply onMx_kept | apply runMerge_kept | apply faultMx_kept | apply accStruck_kept | apply upsetBy_kept | apply drainRun_kept | apply out_next | exact out_fault _ | split

theorem execArrayCmdDone_kept (x0 : TileIx) {x1 : State} (h1 : Kept q b x1) : OutKept q b (@execArrayCmdDone x0 x1) := by
  unfold execArrayCmdDone
  with_reducible repeat' first | assumption | apply postIf_kept | apply dropMx_kept | apply out_next | exact out_fault _ | split

theorem execDrainUnitDone_kept (x0 : TileIx) (x1 : Bool) {x2 : State} (h2 : Kept q b x2) : OutKept q b (@execDrainUnitDone x0 x1 x2) := by
  unfold execDrainUnitDone
  with_reducible repeat' first | assumption | apply raiseCause_kept | apply postIf_kept | apply dropMx_kept | apply out_next | exact out_fault _ | split

theorem execBarrierDone_kept (x0 : TileIx) {x1 : State} (h1 : Kept q b x1) : OutKept q b (@execBarrierDone x0 x1) := by
  unfold execBarrierDone
  with_reducible repeat' first | assumption | apply postIf_kept | apply dropMx_kept | apply out_next | exact out_fault _ | split

theorem execDrainResume_kept (x0 : TileIx) (x1 : Option Nat) (x2 : Sram) (x3 : List AddErr) {x4 : State} (h4 : Kept q b x4) : OutKept q b (@execDrainResume x0 x1 x2 x3 x4) := by
  unfold execDrainResume
  with_reducible repeat' first | assumption | apply onOps_kept | apply sramRead_kept | apply onMx_kept | apply upsetBy_kept | apply drainRun_kept | apply out_next | exact out_fault _ | split

theorem execSequencerResume_kept (x0 : TileIx) {x1 : State} (h1 : Kept q b x1) : OutKept q b (@execSequencerResume x0 x1) := by
  unfold execSequencerResume
  with_reducible repeat' first | assumption | apply issueAny_kept | apply onTile_kept | apply out_next | exact out_fault _ | split

theorem execCarouselMoveDone_kept (x0 : RegionIx) {x1 : State} (h1 : Kept q b x1) : OutKept q b (@execCarouselMoveDone x0 x1) := by
  unfold execCarouselMoveDone
  with_reducible repeat' first | assumption | apply bind_kept | apply onRegion_kept | apply onTile_kept | apply newMeans_kept | apply moveEnded_kept | apply out_next | exact out_fault _ | split

theorem execSpareSelfTest_kept (x0 : RegionIx) (x1 : List (Fin 130)) {x2 : State} (h2 : Kept q b x2) : OutKept q b (@execSpareSelfTest x0 x1 x2) := by
  unfold execSpareSelfTest
  try dsimp only
  with_reducible repeat' first | assumption | apply onRegion_kept | apply retireCol_kept | apply out_next | exact out_fault _ | split | intro _ | apply foldl_kept

theorem execMeshFlitResend_kept (x0 : DieIx) (x1 : Fin 8) (x2 : Bool) {x3 : State} (h3 : Kept q b x3) : OutKept q b (@execMeshFlitResend x0 x1 x2 x3) := by
  unfold execMeshFlitResend
  try dsimp only
  repeat' (first
    | with_reducible assumption
    | with_reducible apply report_kept
    | with_reducible apply opt_some
    | with_reducible apply opt_none
    | with_reducible apply sub_app
    | with_reducible apply out_next
    | with_reducible apply out_fault
    | with_reducible apply out_refused
    | with_reducible apply foldl_kept
    | with_reducible apply foldl_kept1
    | with_reducible apply foldl_kept2
    | with_reducible apply foldl_kept21
    | with_reducible apply foldl_kept22
    | with_reducible exact HalOk.rfl
    | with_reducible exact HbmOk.rfl
    | with_reducible exact PwrOk.rfl
    | with_reducible exact HeatOk.rfl
    | with_reducible exact PkgOk.rfl
    | with_reducible exact StepOk.rfl
    | with_reducible exact FlashOk.rfl
    | with_reducible exact id
    | with_reducible refine HalOk.mk ?_ ?_ ?_ ?_
    | with_reducible refine HbmOk.mk ?_ ?_ ?_
    | with_reducible refine PwrOk.mk ?_ ?_
    | with_reducible refine HeatOk.mk ?_
    | with_reducible refine PkgOk.mk ?_ ?_
    | with_reducible refine StepOk.mk ?_
    | with_reducible refine FlashOk.mk ?_ ?_ ?_ ?_
    | exact id
    | with_reducible apply wf_upd
    | with_reducible apply wf_setList
    | with_reducible apply wf_copy
    | with_reducible apply wf_clear
    | decide
    | (simp only [setAt_length, List.length_map, List.length_zipIdx]; exact id)
    | split
    | intro _
    | dsimp only
    | with_reducible apply wf_foldl
    | with_reducible apply wf_set
    | simp only [kept_mk]
    | with_reducible refine set_mk ?_ ?_ ?_ ?_ ?_ ?_ ?_ ?_ ?_)

theorem execUcieLinkRetry_kept (x0 : Fin 3) (x1 : Fin 64) (x2 : Bool) {x3 : State} (h3 : Kept q b x3) : OutKept q b (@execUcieLinkRetry x0 x1 x2 x3) := by
  unfold execUcieLinkRetry
  try dsimp only
  with_reducible repeat' first | assumption | apply report_kept | apply linkThird_kept | apply out_next | exact out_fault _ | split | intro _ | apply foldl_kept | simp only [kept_mk] | exact set_mk (by assumption) .rfl .rfl .rfl .rfl .rfl .rfl .rfl id | refine set_mk ?_ .rfl .rfl .rfl .rfl .rfl .rfl .rfl id

theorem execUcieRetrainDone_kept (x0 : Fin 3) (x1 : Bool) {x2 : State} (h2 : Kept q b x2) : OutKept q b (@execUcieRetrainDone x0 x1 x2) := by
  unfold execUcieRetrainDone
  try dsimp only
  with_reducible repeat' first | assumption | apply onLink_kept | apply out_next | exact out_fault _ | split | intro _ | apply foldl_kept | simp only [kept_mk] | exact set_mk (by assumption) .rfl .rfl .rfl .rfl .rfl .rfl .rfl id | refine set_mk ?_ .rfl .rfl .rfl .rfl .rfl .rfl .rfl id

theorem execFmtCntClearCounts_kept (x0 : Fin 256) {x1 : State} (h1 : Kept q b x1) : OutKept q b (@execFmtCntClearCounts x0 x1) := by
  unfold execFmtCntClearCounts
  try dsimp only
  with_reducible repeat' first | assumption | apply out_next | exact out_fault _ | split | intro _ | apply foldl_kept | simp only [kept_mk] | exact set_mk (by assumption) .rfl .rfl .rfl .rfl .rfl .rfl .rfl id | refine set_mk ?_ .rfl .rfl .rfl .rfl .rfl .rfl .rfl id

theorem execFmtCntClearAlloc_kept (x0 : Fin 256) {x1 : State} (h1 : Kept q b x1) : OutKept q b (@execFmtCntClearAlloc x0 x1) := by
  unfold execFmtCntClearAlloc
  try dsimp only
  with_reducible repeat' first | assumption | apply out_next | exact out_fault _ | split | intro _ | apply foldl_kept | simp only [kept_mk] | exact set_mk (by assumption) .rfl .rfl .rfl .rfl .rfl .rfl .rfl id | refine set_mk ?_ .rfl .rfl .rfl .rfl .rfl .rfl .rfl id

theorem execPush_kept (x0 : TileIx) (x1 : BitVec 22) {x2 : State} (h2 : Kept q b x2) : OutKept q b (@execPush x0 x1 x2) := by
  unfold execPush
  try dsimp only
  with_reducible repeat' first | assumption | apply issueRow_kept | apply issuePn_kept | apply out_next | exact out_fault _ | split | intro _ | apply foldl_kept

theorem execPop_kept (x0 : TileIx) (x1 : BitVec 22) {x2 : State} (h2 : Kept q b x2) : OutKept q b (@execPop x0 x1 x2) := by
  unfold execPop
  try dsimp only
  with_reducible repeat' first | assumption | apply issueRow_kept | apply issuePn_kept | apply out_next | exact out_fault _ | split | intro _ | apply foldl_kept

theorem execPeek_kept (x0 : TileIx) (x1 : BitVec 22) {x2 : State} (h2 : Kept q b x2) : OutKept q b (@execPeek x0 x1 x2) := by
  unfold execPeek
  try dsimp only
  with_reducible repeat' first | assumption | apply issueRow_kept | apply issuePn_kept | apply out_next | exact out_fault _ | split | intro _ | apply foldl_kept

theorem execReset_kept (x0 : TileIx) (x1 : BitVec 22) {x2 : State} (h2 : Kept q b x2) : OutKept q b (@execReset x0 x1 x2) := by
  unfold execReset
  try dsimp only
  with_reducible repeat' first | assumption | apply issueRow_kept | apply issuePn_kept | apply out_next | exact out_fault _ | split | intro _ | apply foldl_kept

theorem execPannierCmdStart_kept (x0 : TileIx) (x1 : Sram) {x2 : State} (h2 : Kept q b x2) : OutKept q b (@execPannierCmdStart x0 x1 x2) := by
  unfold execPannierCmdStart
  try dsimp only
  with_reducible repeat' first | assumption | apply onPnHead_kept | apply onPn_kept | apply postIf_kept | apply dropPn_kept | apply faultPn_kept | apply pushStart_kept | apply sramRead_kept | apply popStart_kept | apply out_next | exact out_fault _ | split

theorem execPushDone_kept (x0 : TileIx) {x1 : State} (h1 : Kept q b x1) : OutKept q b (@execPushDone x0 x1) := by
  unfold execPushDone
  with_reducible repeat' first | assumption | apply onPn_kept | apply postIf_kept | apply countPn_kept | apply dropPn_kept | apply spill_kept | apply out_next | exact out_fault _ | split

theorem execPopDone_kept (x0 : TileIx) {x1 : State} (h1 : Kept q b x1) : OutKept q b (@execPopDone x0 x1) := by
  unfold execPopDone
  try dsimp only
  with_reducible repeat' first | assumption | apply ringRead_kept | apply faultPn_kept | apply recompute_kept | apply onTile_kept | apply onPn_kept | apply postIf_kept | apply countPn_kept | apply dropPn_kept | apply balance_kept | apply out_next | exact out_fault _ | split

theorem execSpillDone_kept (x0 : TileIx) {x1 : State} (h1 : Kept q b x1) : OutKept q b (@execSpillDone x0 x1) := by
  unfold execSpillDone
  try dsimp only
  with_reducible repeat' first | assumption | apply onPn_kept | apply ringRead_kept | apply memWrite_kept | apply pushStart_kept | apply spill_kept | apply out_next | exact out_fault _ | split

theorem execRestoreDone_kept (x0 : TileIx) (x1 : Bool) (x2 : List Byte) {x3 : State} (h3 : Kept q b x3) : OutKept q b (@execRestoreDone x0 x1 x2 x3) := by
  unfold execRestoreDone
  try dsimp only
  with_reducible repeat' first | assumption | apply placeRec_kept | apply restoreLost_kept | apply readFar_kept | apply restore_kept | apply restored_kept | apply out_next | exact out_fault _ | split

theorem execPopGraceExpiry_kept (x0 : TileIx) {x1 : State} (h1 : Kept q b x1) : OutKept q b (@execPopGraceExpiry x0 x1) := by
  unfold execPopGraceExpiry
  with_reducible repeat' first | assumption | apply restoreLost_kept | apply out_next | exact out_fault _ | split

theorem execMbDone_kept (x0 : TileIx) (x1 : BitVec 8) {x2 : State} (h2 : Kept q b x2) : OutKept q b (@execMbDone x0 x1 x2) := by
  unfold execMbDone
  with_reducible repeat' first | assumption | apply mbDone_kept | apply out_next | exact out_fault _ | split

theorem msgRow_kept (x0 : Nat) (x1 : Msg) (x2 : Pkt) (x3 : State → State) (x4 : State → State) {x5 : State} (h3 : ∀ y0, Kept q b y0 → Kept q b (x3 y0)) (h4 : ∀ y0, Kept q b y0 → Kept q b (x4 y0)) (h5 : Kept q b x5) : OutKept q b (@msgRow x0 x1 x2 x3 x4 x5) := by
  unfold msgRow
  extract_lets p
  split
  · exact out_next (h4 _ h5)
  · refine rxPacket_kept _ _ h5 fun s h => ?_
    split
    · exact out_next h
    · extract_lets ob t fresh t2
      have h1 : Kept q b t := raw_obs h
      have h2 : Kept q b t2 := home_kept p false [] h1
      clear_value fresh t2 t
      split
      · exact out_next h1
      · split
        · exact out_next (sendPkt_kept _ h1)
        · split
          · exact out_next h1
          · refine out_next ?_
            split
            · exact h2
            · split
              · exact h4 _ h2
              · split
                · exact h3 _ h2
                · exact h2

theorem ledgerRow_kept (x0 : Nat) (x1 : List Nat) (x2 : Pkt) (x3 : State → State) {x4 : State} (h3 : ∀ y0, Kept q b y0 → Kept q b (x3 y0)) (h4 : Kept q b x4) : OutKept q b (@ledgerRow x0 x1 x2 x3 x4) := by
  unfold ledgerRow
  try dsimp only
  repeat' (first
    | with_reducible assumption
    | with_reducible apply msgRow_kept
    | with_reducible apply opt_some
    | with_reducible apply opt_none
    | with_reducible apply sub_app
    | with_reducible apply out_next
    | with_reducible apply out_fault
    | with_reducible apply out_refused
    | with_reducible apply foldl_kept
    | with_reducible apply foldl_kept1
    | with_reducible apply foldl_kept2
    | with_reducible apply foldl_kept21
    | with_reducible apply foldl_kept22
    | with_reducible apply h3
    | with_reducible exact HalOk.rfl
    | with_reducible exact HbmOk.rfl
    | with_reducible exact PwrOk.rfl
    | with_reducible exact HeatOk.rfl
    | with_reducible exact PkgOk.rfl
    | with_reducible exact StepOk.rfl
    | with_reducible exact FlashOk.rfl
    | with_reducible exact id
    | with_reducible refine HalOk.mk ?_ ?_ ?_ ?_
    | with_reducible refine HbmOk.mk ?_ ?_ ?_
    | with_reducible refine PwrOk.mk ?_ ?_
    | with_reducible refine HeatOk.mk ?_
    | with_reducible refine PkgOk.mk ?_ ?_
    | with_reducible refine StepOk.mk ?_
    | with_reducible refine FlashOk.mk ?_ ?_ ?_ ?_
    | exact id
    | with_reducible apply wf_upd
    | with_reducible apply wf_setList
    | with_reducible apply wf_copy
    | with_reducible apply wf_clear
    | decide
    | (simp only [setAt_length, List.length_map, List.length_zipIdx]; exact id)
    | split
    | intro _
    | dsimp only
    | with_reducible apply wf_foldl
    | with_reducible apply wf_set
    | simp only [kept_mk]
    | with_reducible refine set_mk ?_ ?_ ?_ ?_ ?_ ?_ ?_ ?_ ?_)

theorem execCommit_kept (x0 : Pkt) (x1 : Nat) {x2 : State} (h2 : Kept q b x2) : OutKept q b (@execCommit x0 x1 x2) := by
  unfold execCommit
  try dsimp only
  with_reducible repeat' first | assumption | apply ledgerRow_kept | apply commitLocal_kept | apply report_kept | apply leadDecide_kept | apply out_next | exact out_fault _ | split | intro _ | apply foldl_kept

theorem execTandemSwap_kept {x0 : State} (h0 : Kept q b x0) : OutKept q b (@execTandemSwap x0) := by
  unfold execTandemSwap
  try dsimp only
  repeat' (first
    | with_reducible assumption
    | with_reducible apply combineAll_kept
    | with_reducible apply allTiles_kept
    | with_reducible apply retryDeferred_kept
    | with_reducible apply phasesZero_kept
    | with_reducible apply carousel_kept
    | with_reducible apply settleSlots_kept
    | with_reducible apply on_step
    | with_reducible apply opt_some
    | with_reducible apply opt_none
    | with_reducible apply sub_app
    | with_reducible apply out_next
    | with_reducible apply out_fault
    | with_reducible apply out_refused
    | with_reducible apply foldl_kept
    | with_reducible apply foldl_kept1
    | with_reducible apply foldl_kept2
    | with_reducible apply foldl_kept21
    | with_reducible apply foldl_kept22
    | with_reducible exact HalOk.rfl
    | with_reducible exact HbmOk.rfl
    | with_reducible exact PwrOk.rfl
    | with_reducible exact HeatOk.rfl
    | with_reducible exact PkgOk.rfl
    | with_reducible exact StepOk.rfl
    | with_reducible exact FlashOk.rfl
    | with_reducible exact id
    | with_reducible refine HalOk.mk ?_ ?_ ?_ ?_
    | with_reducible refine HbmOk.mk ?_ ?_ ?_
    | with_reducible refine PwrOk.mk ?_ ?_
    | with_reducible refine HeatOk.mk ?_
    | with_reducible refine PkgOk.mk ?_ ?_
    | with_reducible refine StepOk.mk ?_
    | with_reducible refine FlashOk.mk ?_ ?_ ?_ ?_
    | exact id
    | with_reducible apply wf_upd
    | with_reducible apply wf_setList
    | with_reducible apply wf_copy
    | with_reducible apply wf_clear
    | decide
    | (simp only [setAt_length, List.length_map, List.length_zipIdx]; exact id)
    | split
    | intro _
    | dsimp only
    | with_reducible apply wf_foldl
    | with_reducible apply wf_set
    | simp only [kept_mk]
    | with_reducible refine set_mk ?_ ?_ ?_ ?_ ?_ ?_ ?_ ?_ ?_)

theorem execSwapComplete_kept {x0 : State} (h0 : Kept q b x0) : OutKept q b (@execSwapComplete x0) := by
  unfold execSwapComplete
  with_reducible repeat' first | assumption | apply trigger_kept | apply swapComplete_kept | apply out_next | exact out_fault _ | split

theorem execRepeatOrder_kept (x0 : Pkt) (x1 : Nat) (x2 : Nat) (x3 : Nat) (x4 : List Patch) {x5 : State} (h5 : Kept q b x5) : OutKept q b (@execRepeatOrder x0 x1 x2 x3 x4 x5) := by
  unfold execRepeatOrder
  try dsimp only
  with_reducible repeat' first | assumption | apply ledgerRow_kept | apply repeatLocal_kept | apply report_kept | apply leadDecide_kept | apply out_next | exact out_fault _ | split | intro _ | apply foldl_kept

theorem execRepeatDrained_kept {x0 : State} (h0 : Kept q b x0) : OutKept q b (@execRepeatDrained x0) := by
  unfold execRepeatDrained
  with_reducible repeat' first | assumption | apply trigger_kept | apply repeatDrained_kept | apply out_next | exact out_fault _ | split

theorem execRepeatRestart_kept {x0 : State} (h0 : Kept q b x0) : OutKept q b (@execRepeatRestart x0) := by
  unfold execRepeatRestart
  with_reducible repeat' first | assumption | apply restart_kept | apply out_next | exact out_fault _ | split

theorem execSnapshotCopyDone_kept {x0 : State} (h0 : Kept q b x0) : OutKept q b (@execSnapshotCopyDone x0) := by
  unfold execSnapshotCopyDone
  with_reducible repeat' first | assumption | apply shipEnd_kept | apply out_next | exact out_fault _ | split

theorem execSnapshotTimeout_kept {x0 : State} (h0 : Kept q b x0) : OutKept q b (@execSnapshotTimeout x0) := by
  unfold execSnapshotTimeout
  with_reducible repeat' first | assumption | apply shipEnd_kept | apply out_next | exact out_fault _ | split

theorem execVldqResume_kept (x0 : TileIx) {x1 : State} (h1 : Kept q b x1) : OutKept q b (@execVldqResume x0 x1) := by
  unfold execVldqResume
  with_reducible repeat' first | assumption | apply vldq_kept | apply out_next | exact out_fault _ | split

theorem execVfenceDone_kept (x0 : TileIx) {x1 : State} (h1 : Kept q b x1) : OutKept q b (@execVfenceDone x0 x1) := by
  unfold execVfenceDone
  with_reducible repeat' first | assumption | apply onTile_kept | apply out_next | exact out_fault _ | split

theorem execRowInstrDone_kept (x0 : TileIx) {x1 : State} (h1 : Kept q b x1) : OutKept q b (@execRowInstrDone x0 x1) := by
  unfold execRowInstrDone
  with_reducible repeat' first | assumption | apply vecDrain_kept | apply onTile_kept | apply out_next | exact out_fault _ | split

theorem execNoticeDue_kept (x0 : RegionIx) {x1 : State} (h1 : Kept q b x1) : OutKept q b (@execNoticeDue x0 x1) := by
  unfold execNoticeDue
  with_reducible repeat' first | assumption | apply noticeDue_kept | apply trigger_kept | apply out_next | exact out_fault _ | split

theorem execBoostStart_kept (x0 : RegionIx) {x1 : State} (h1 : Kept q b x1) : OutKept q b (@execBoostStart x0 x1) := by
  unfold execBoostStart
  with_reducible repeat' first | assumption | apply onPr_kept | apply out_next | exact out_fault _ | split

theorem execBoostEnd_kept (x0 : RegionIx) {x1 : State} (h1 : Kept q b x1) : OutKept q b (@execBoostEnd x0 x1) := by
  unfold execBoostEnd
  with_reducible repeat' first | assumption | apply onPr_kept | apply out_next | exact out_fault _ | split

theorem execReduce_kept (x0 : Pkt) (x1 : Bool) (x2 : Bool) {x3 : State} (h3 : Kept q b x3) : OutKept q b (@execReduce x0 x1 x2 x3) := by
  unfold execReduce
  try dsimp only
  with_reducible repeat' first | assumption | apply msgRow_kept | apply staleDrop_kept | apply send_kept | apply nodeIn_kept | apply out_next | exact out_fault _ | split | intro _ | apply foldl_kept

theorem execReduceEnd_kept (x0 : Pkt) (x1 : Nat) (x2 : Nat) (x3 : Nat) (x4 : Nat) {x5 : State} (h5 : Kept q b x5) : OutKept q b (@execReduceEnd x0 x1 x2 x3 x4 x5) := by
  unfold execReduceEnd
  try dsimp only
  with_reducible repeat' first | assumption | apply countStale_kept | apply staleDrop_kept | apply msgRow_kept | apply finalEnd_kept | apply send_kept | apply endCheck_kept | apply onTag_kept | apply out_next | exact out_fault _ | split | intro _ | apply foldl_kept

theorem execReduceResult_kept (x0 : Pkt) (x1 : Nat) {x2 : State} (h2 : Kept q b x2) : OutKept q b (@execReduceResult x0 x1 x2) := by
  unfold execReduceResult
  try dsimp only
  with_reducible repeat' first | assumption | apply msgRow_kept | apply countStale_kept | apply takeResult_kept | apply resultDown_kept | apply out_next | exact out_fault _ | split | intro _ | apply foldl_kept

end Sys2Proof.Machine
end

