-- ==== Sys2Proof/Laws/Keep6.lean ====
section
/-! SUPPORT. `Kept` for the operations and commands of the model, in the order in which they use each other: part 6 of 7. -/

namespace Sys2Proof.Machine

set_option linter.unusedSimpArgs false
set_option linter.unusedTactic false
set_option linter.unreachableTactic false

variable {q : Prop} {b : State}

theorem execCreditReturn_kept (x0 : Nat) (x1 : Bool) {x2 : State} (h2 : Kept q b x2) : OutKept q b (@execCreditReturn x0 x1 x2) := by
  unfold execCreditReturn
  try dsimp only
  with_reducible repeat' first | assumption | apply sendCtl_kept | apply sendHeld_kept | apply out_next | exact out_fault _ | split | intro _ | apply foldl_kept | simp only [kept_mk] | exact set_mk (by assumption) .rfl .rfl .rfl .rfl .rfl .rfl .rfl id | refine set_mk ?_ .rfl .rfl .rfl .rfl .rfl .rfl .rfl id

theorem execLedgerReport_kept (x0 : Pkt) (x1 : Nat) (x2 : Nat) (x3 : LedgerMsg) {x4 : State} (h4 : Kept q b x4) : OutKept q b (@execLedgerReport x0 x1 x2 x3 x4) := by
  unfold execLedgerReport
  try dsimp only
  with_reducible repeat' first | assumption | apply ledgerRow_kept | apply send_kept | apply passCount_kept | apply checkCommit_kept | apply passUp_kept | apply book_kept | apply out_next | exact out_fault _ | split | intro _ | apply foldl_kept | simp only [kept_mk] | exact set_mk (by assumption) .rfl .rfl .rfl .rfl .rfl .rfl .rfl id | refine set_mk ?_ .rfl .rfl .rfl .rfl .rfl .rfl .rfl id

theorem execLedgerRepeatRequest_kept (x0 : Pkt) (x1 : Nat) (x2 : Nat) (x3 : Nat) {x4 : State} (h4 : Kept q b x4) : OutKept q b (@execLedgerRepeatRequest x0 x1 x2 x3 x4) := by
  unfold execLedgerRepeatRequest
  try dsimp only
  with_reducible repeat' first | assumption | apply ledgerRow_kept | apply causeAt_kept | apply out_next | exact out_fault _ | split | intro _ | apply foldl_kept

theorem execResultBad_kept (x0 : Pkt) (x1 : Nat) (x2 : Nat) (x3 : Nat) {x4 : State} (h4 : Kept q b x4) : OutKept q b (@execResultBad x0 x1 x2 x3 x4) := by
  unfold execResultBad
  try dsimp only
  with_reducible repeat' first | assumption | apply ledgerRow_kept | apply causeAt_kept | apply out_next | exact out_fault _ | split | intro _ | apply foldl_kept

theorem execBeatTimer_kept {x0 : State} (h0 : Kept q b x0) : OutKept q b (@execBeatTimer x0) := by
  unfold execBeatTimer
  with_reducible repeat' first | assumption | apply watchBeats_kept | apply sayUp_kept | apply out_next | exact out_fault _ | split

theorem execLedgerBeat_kept (x0 : Pkt) (x1 : Nat) (x2 : Nat) {x3 : State} (h3 : Kept q b x3) : OutKept q b (@execLedgerBeat x0 x1 x2 x3) := by
  unfold execLedgerBeat
  try dsimp only
  repeat' (first
    | with_reducible assumption
    | with_reducible apply msgRow_kept
    | with_reducible apply send_kept
    | with_reducible apply watchBeats_kept
    | with_reducible apply onRed_kept
    | with_reducible apply opt_some
    | with_reducible apply opt_none
    | with_reducible apply sub_app
    | with_reducible apply out_next
    | with_reducible apply out_fault
    | with_reducible apply out_refused
    | with_reducible apply foldl_kept
    | with_reducible apply foldl_kept1
    | with_reducible apply foldl_kept2
    | with_reducible apply foldl_kept21
    | with_reducible apply foldl_kept22
    | with_reducible exact HalOk.rfl
    | with_reducible exact HbmOk.rfl
    | with_reducible exact PwrOk.rfl
    | with_reducible exact HeatOk.rfl
    | with_reducible exact PkgOk.rfl
    | with_reducible exact StepOk.rfl
    | with_reducible exact FlashOk.rfl
    | with_reducible exact id
    | with_reducible refine HalOk.mk ?_ ?_ ?_ ?_
    | with_reducible refine HbmOk.mk ?_ ?_ ?_
    | with_reducible refine PwrOk.mk ?_ ?_
    | with_reducible refine HeatOk.mk ?_
    | with_reducible refine PkgOk.mk ?_ ?_
    | with_reducible refine StepOk.mk ?_
    | with_reducible refine FlashOk.mk ?_ ?_ ?_ ?_
    | exact id
    | with_reducible apply wf_upd
    | with_reducible apply wf_setList
    | with_reducible apply wf_copy
    | with_reducible apply wf_clear
    | decide
    | (simp only [setAt_length, List.length_map, List.length_zipIdx]; exact id)
    | split
    | intro _
    | dsimp only
    | with_reducible apply wf_foldl
    | with_reducible apply wf_set
    | simp only [kept_mk]
    | with_reducible refine set_mk ?_ ?_ ?_ ?_ ?_ ?_ ?_ ?_ ?_)

theorem execBeatTimeout_kept {x0 : State} (h0 : Kept q b x0) : OutKept q b (@execBeatTimeout x0) := by
  unfold execBeatTimeout
  with_reducible repeat' first | assumption | apply late_kept | apply out_next | exact out_fault _ | split

theorem execHardLimitExpiry_kept {x0 : State} (h0 : Kept q b x0) : OutKept q b (@execHardLimitExpiry x0) := by
  unfold execHardLimitExpiry
  with_reducible repeat' first | assumption | apply causeAt_kept | apply out_next | exact out_fault _ | split

theorem execStandbyDecision_kept (x0 : Pkt) (x1 : Order) {x2 : State} (h2 : Kept q b x2) : OutKept q b (@execStandbyDecision x0 x1 x2) := by
  unfold execStandbyDecision
  try dsimp only
  with_reducible repeat' first | assumption | apply ledgerRow_kept | apply say_kept | apply onRed_kept | apply out_next | exact out_fault _ | split | intro _ | apply foldl_kept

theorem execStandbyAck_kept (x0 : Pkt) (x1 : Order) {x2 : State} (h2 : Kept q b x2) : OutKept q b (@execStandbyAck x0 x1 x2) := by
  unfold execStandbyAck
  try dsimp only
  with_reducible repeat' first | assumption | apply ledgerRow_kept | apply issue_kept | apply out_next | exact out_fault _ | split | intro _ | apply foldl_kept

theorem execHeartbeatTimer_kept {x0 : State} (h0 : Kept q b x0) : OutKept q b (@execHeartbeatTimer x0) := by
  unfold execHeartbeatTimer
  with_reducible repeat' first | assumption | apply say_kept | apply out_next | exact out_fault _ | split

theorem execHeartbeat_kept (x0 : Pkt) {x1 : State} (h1 : Kept q b x1) : OutKept q b (@execHeartbeat x0 x1) := by
  unfold execHeartbeat
  try dsimp only
  with_reducible repeat' first | assumption | apply ledgerRow_kept | apply onRed_kept | apply out_next | exact out_fault _ | split | intro _ | apply foldl_kept

theorem execStandbyTakeover_kept {x0 : State} (h0 : Kept q b x0) : OutKept q b (@execStandbyTakeover x0) := by
  unfold execStandbyTakeover
  with_reducible repeat' first | assumption | apply onRed_kept | apply request_kept | apply takeover_kept | apply out_next | exact out_fault _ | split

theorem execPageRetireDone_kept (x0 : ChanIx) {x1 : State} (h1 : Kept q b x1) : OutKept q b (@execPageRetireDone x0 x1) := by
  unfold execPageRetireDone
  try dsimp only
  with_reducible repeat' first | assumption | apply onChanRec_kept | apply beginShrink_kept | apply onChan_kept | apply report_kept | apply endShrink_kept | apply out_next | exact out_fault _ | split

theorem execRelayoutDone_kept (x0 : StackIx) {x1 : State} (h1 : Kept q b x1) : OutKept q b (@execRelayoutDone x0 x1) := by
  unfold execRelayoutDone
  extract_lets n s1 old due s2 s3 s4 hb s5
  split
  · exact out_next h1
  · have h2 : Kept q b s1 := beginRelayout_kept _ h1
    have h3 : Kept q b s2 := foldl_kept (fun _ _ h => poisonChan_kept _ _ h) _ h2
    have h4 : Kept q b s3 := foldl_kept (fun _ _ h => mapOut_kept _ _ h) _ h3
    have h5 : Kept q b s4 := endShrink_kept _ _ _ h4
    have h6 : Kept q b s5 :=
      set_any h5 .rfl .rfl .rfl ⟨id, id, fun h => by simpa [setAt_length] using h⟩ .rfl .rfl .rfl id
    clear_value s5 s4 s3 s2 s1
    split
    · exact out_next h2
    · refine out_next ?_
      split
      · exact h6
      · exact beginRestore_kept h6

theorem execHbmInterfaceError_kept (x0 : ChanIx) (x1 : Bool) {x2 : State} (h2 : Kept q b x2) : OutKept q b (@execHbmInterfaceError x0 x1 x2) := by
  unfold execHbmInterfaceError
  with_reducible repeat' first | assumption | apply onChan_kept | apply report_kept | apply out_next | exact out_fault _ | split

theorem execChannelRetrainDone_kept (x0 : ChanIx) (x1 : Bool) {x2 : State} (h2 : Kept q b x2) : OutKept q b (@execChannelRetrainDone x0 x1 x2) := by
  unfold execChannelRetrainDone
  try dsimp only
  repeat' (first
    | with_reducible assumption
    | with_reducible apply onChan_kept
    | with_reducible apply report_kept
    | with_reducible apply channelFailure_kept
    | with_reducible apply opt_some
    | with_reducible apply opt_none
    | with_reducible apply sub_app
    | with_reducible apply out_next
    | with_reducible apply out_fault
    | with_reducible apply out_refused
    | with_reducible apply foldl_kept
    | with_reducible apply foldl_kept1
    | with_reducible apply foldl_kept2
    | with_reducible apply foldl_kept21
    | with_reducible apply foldl_kept22
    | with_reducible exact HalOk.rfl
    | with_reducible exact HbmOk.rfl
    | with_reducible exact PwrOk.rfl
    | with_reducible exact HeatOk.rfl
    | with_reducible exact PkgOk.rfl
    | with_reducible exact StepOk.rfl
    | with_reducible exact FlashOk.rfl
    | with_reducible exact id
    | with_reducible refine HalOk.mk ?_ ?_ ?_ ?_
    | with_reducible refine HbmOk.mk ?_ ?_ ?_
    | with_reducible refine PwrOk.mk ?_ ?_
    | with_reducible refine HeatOk.mk ?_
    | with_reducible refine PkgOk.mk ?_ ?_
    | with_reducible refine StepOk.mk ?_
    | with_reducible refine FlashOk.mk ?_ ?_ ?_ ?_
    | exact id
    | with_reducible apply wf_upd
    | with_reducible apply wf_setList
    | with_reducible apply wf_copy
    | with_reducible apply wf_clear
    | decide
    | (simp only [setAt_length, List.length_map, List.length_zipIdx]; exact id)
    | split
    | intro _
    | dsimp only
    | with_reducible apply wf_foldl
    | with_reducible apply wf_set
    | simp only [kept_mk]
    | with_reducible refine set_mk ?_ ?_ ?_ ?_ ?_ ?_ ?_ ?_ ?_)

theorem execScrubRead_kept (x0 : ChanIx) (x1 : List UnitErr) {x2 : State} (h2 : Kept q b x2) : OutKept q b (@execScrubRead x0 x1 x2) := by
  unfold execScrubRead
  try dsimp only
  with_reducible repeat' first | assumption | apply onChan_kept | apply decodeAt_kept | apply readErrs_kept | apply countHbm_kept | apply out_next | exact out_fault _ | split

theorem execHbmTempRead_kept (x0 : StackIx) (x1 : BitVec 8) {x2 : State} (h2 : Kept q b x2) : OutKept q b (@execHbmTempRead x0 x1 x2) := by
  unfold execHbmTempRead
  try dsimp only
  repeat' (first
    | with_reducible assumption
    | with_reducible apply opt_some
    | with_reducible apply opt_none
    | with_reducible apply sub_app
    | with_reducible apply out_next
    | with_reducible apply out_fault
    | with_reducible apply out_refused
    | with_reducible apply foldl_kept
    | with_reducible apply foldl_kept1
    | with_reducible apply foldl_kept2
    | with_reducible apply foldl_kept21
    | with_reducible apply foldl_kept22
    | with_reducible exact HalOk.rfl
    | with_reducible exact HbmOk.rfl
    | with_reducible exact PwrOk.rfl
    | with_reducible exact HeatOk.rfl
    | with_reducible exact PkgOk.rfl
    | with_reducible exact StepOk.rfl
    | with_reducible exact FlashOk.rfl
    | with_reducible exact id
    | with_reducible refine HalOk.mk ?_ ?_ ?_ ?_
    | with_reducible refine HbmOk.mk ?_ ?_ ?_
    | with_reducible refine PwrOk.mk ?_ ?_
    | with_reducible refine HeatOk.mk ?_
    | with_reducible refine PkgOk.mk ?_ ?_
    | with_reducible refine StepOk.mk ?_
    | with_reducible refine FlashOk.mk ?_ ?_ ?_ ?_
    | exact id
    | with_reducible apply wf_upd
    | with_reducible apply wf_setList
    | with_reducible apply wf_copy
    | with_reducible apply wf_clear
    | decide
    | (simp only [setAt_length, List.length_map, List.length_zipIdx]; exact id)
    | split
    | intro _
    | dsimp only
    | with_reducible apply wf_foldl
    | with_reducible apply wf_set
    | simp only [kept_mk]
    | with_reducible refine set_mk ?_ ?_ ?_ ?_ ?_ ?_ ?_ ?_ ?_)

theorem execHbmRefresh_kept (x0 : ChanIx) (x1 : List UnitErr) {x2 : State} (h2 : Kept q b x2) : OutKept q b (@execHbmRefresh x0 x1 x2) := by
  unfold execHbmRefresh
  try dsimp only
  with_reducible repeat' first | assumption | apply disturb_kept | apply out_next | exact out_fault _ | split | intro _ | apply foldl_kept

theorem execHeatEpoch_kept {x0 : State} (h0 : Kept q b x0) : OutKept q b (@execHeatEpoch x0) := by
  unfold execHeatEpoch
  with_reducible repeat' first | assumption | apply onTier_kept | apply out_next | exact out_fault _ | split

theorem execPromote_kept {x0 : State} (h0 : Kept q b x0) : OutKept q b (@execPromote x0) := by
  unfold execPromote
  with_reducible repeat' first | assumption | apply startPromote_kept | apply proposals_kept | apply out_next | exact out_fault _ | split

theorem execPromoteGranule_kept (x0 : BitVec 21) {x1 : State} (h1 : Kept q b x1) : OutKept q b (@execPromoteGranule x0 x1) := by
  unfold execPromoteGranule
  try dsimp only
  with_reducible repeat' first | assumption | apply applyHeld_kept | apply onMove_kept | apply askGranule_kept | apply dropMove_kept | apply onPage_kept | apply tierDone_kept | apply onTier_kept | apply out_next | exact out_fault _ | split

theorem execPromoteAbandon_kept (x0 : BitVec 21) {x1 : State} (h1 : Kept q b x1) : OutKept q b (@execPromoteAbandon x0 x1) := by
  unfold execPromoteAbandon
  try dsimp only
  with_reducible repeat' first | assumption | apply tierDone_kept | apply abandonFill_kept | apply out_next | exact out_fault _ | split | intro _ | apply foldl_kept | simp only [kept_mk] | exact set_mk (by assumption) .rfl .rfl .rfl .rfl .rfl .rfl .rfl id | refine set_mk ?_ .rfl .rfl .rfl .rfl .rfl .rfl .rfl id

theorem execEvict_kept {x0 : State} (h0 : Kept q b x0) : OutKept q b (@execEvict x0) := by
  unfold execEvict
  with_reducible repeat' first | assumption | apply orderedMove_kept | apply proposals_kept | apply startEvict_kept | apply out_next | exact out_fault _ | split

theorem execEvictDone_kept (x0 : BitVec 21) {x1 : State} (h1 : Kept q b x1) : OutKept q b (@execEvictDone x0 x1) := by
  unfold execEvictDone
  try dsimp only
  with_reducible repeat' first | assumption | apply evictPass_kept | apply onTier_kept | apply leaveFrame_kept | apply tierDone_kept | apply raise_kept | apply startPromote_kept | apply out_next | exact out_fault _ | split

theorem execEvictAbandon_kept (x0 : BitVec 21) {x1 : State} (h1 : Kept q b x1) : OutKept q b (@execEvictAbandon x0 x1) := by
  unfold execEvictAbandon
  try dsimp only
  with_reducible repeat' first | assumption | apply keepPage_kept | apply out_next | exact out_fault _ | split

theorem execWritebackAge_kept (x0 : BitVec 21) (x1 : Fin 32) {x2 : State} (h2 : Kept q b x2) : OutKept q b (@execWritebackAge x0 x1 x2) := by
  unfold execWritebackAge
  try dsimp only
  with_reducible repeat' first | assumption | apply writeBack_kept | apply out_next | exact out_fault _ | split

theorem execWritebackAck_kept (x0 : Nat) {x1 : State} (h1 : Kept q b x1) : OutKept q b (@execWritebackAck x0 x1) := by
  unfold execWritebackAck
  with_reducible repeat' first | assumption | apply pump_kept | apply complete_kept | apply out_next | exact out_fault _ | split

theorem execBuddyForwardAck_kept (x0 : Nat) {x1 : State} (h1 : Kept q b x1) : OutKept q b (@execBuddyForwardAck x0 x1) := by
  unfold execBuddyForwardAck
  with_reducible repeat' first | assumption | apply pump_kept | apply complete_kept | apply out_next | exact out_fault _ | split

theorem execBuddyTimeout_kept {x0 : State} (h0 : Kept q b x0) : OutKept q b (@execBuddyTimeout x0) := by
  unfold execBuddyTimeout
  try dsimp only
  repeat' (first
    | with_reducible assumption
    | with_reducible apply onTier_kept
    | with_reducible apply onFab_kept
    | with_reducible apply raise_kept
    | with_reducible apply payOwed_kept
    | with_reducible apply opt_some
    | with_reducible apply opt_none
    | with_reducible apply sub_app
    | with_reducible apply out_next
    | with_reducible apply out_fault
    | with_reducible apply out_refused
    | with_reducible apply foldl_kept
    | with_reducible apply foldl_kept1
    | with_reducible apply foldl_kept2
    | with_reducible apply foldl_kept21
    | with_reducible apply foldl_kept22
    | with_reducible exact HalOk.rfl
    | with_reducible exact HbmOk.rfl
    | with_reducible exact PwrOk.rfl
    | with_reducible exact HeatOk.rfl
    | with_reducible exact PkgOk.rfl
    | with_reducible exact StepOk.rfl
    | with_reducible exact FlashOk.rfl
    | with_reducible exact id
    | with_reducible refine HalOk.mk ?_ ?_ ?_ ?_
    | with_reducible refine HbmOk.mk ?_ ?_ ?_
    | with_reducible refine PwrOk.mk ?_ ?_
    | with_reducible refine HeatOk.mk ?_
    | with_reducible refine PkgOk.mk ?_ ?_
    | with_reducible refine StepOk.mk ?_
    | with_reducible refine FlashOk.mk ?_ ?_ ?_ ?_
    | exact id
    | with_reducible apply wf_upd
    | with_reducible apply wf_setList
    | with_reducible apply wf_copy
    | with_reducible apply wf_clear
    | decide
    | (simp only [setAt_length, List.length_map, List.length_zipIdx]; exact id)
    | split
    | intro _
    | dsimp only
    | with_reducible apply wf_foldl
    | with_reducible apply wf_set
    | simp only [kept_mk]
    | with_reducible refine set_mk ?_ ?_ ?_ ?_ ?_ ?_ ?_ ?_ ?_)

theorem execBuddyPoison_kept (x0 : Nat) (x1 : BitVec 44) {x2 : State} (h2 : Kept q b x2) : OutKept q b (@execBuddyPoison x0 x1 x2) := by
  unfold execBuddyPoison
  with_reducible repeat' first | assumption | apply sendGranule_kept | apply out_next | exact out_fault _ | split

theorem execReseedDone_kept {x0 : State} (h0 : Kept q b x0) : OutKept q b (@execReseedDone x0) := by
  unfold execReseedDone
  try dsimp only
  with_reducible repeat' first | assumption | apply onTier_kept | apply out_next | exact out_fault _ | split

theorem execStream_kept (x0 : TileIx) (x1 : BitVec 22) {x2 : State} (h2 : Kept q b x2) : OutKept q b (@execStream x0 x1 x2) := by
  unfold execStream
  try dsimp only
  with_reducible repeat' first | assumption | apply issueRow_kept | apply issueFab_kept | apply out_next | exact out_fault _ | split | intro _ | apply foldl_kept

theorem execStreamDataDone_kept (x0 : TileIx) (x1 : Fin 16) {x2 : State} (h2 : Kept q b x2) : OutKept q b (@execStreamDataDone x0 x1 x2) := by
  unfold execStreamDataDone
  with_reducible repeat' first | assumption | apply fallBack_kept | apply finishStream_kept | apply out_next | exact out_fault _ | split

theorem execStreamDeadline_kept (x0 : TileIx) (x1 : Fin 16) {x2 : State} (h2 : Kept q b x2) : OutKept q b (@execStreamDeadline x0 x1 x2) := by
  unfold execStreamDeadline
  with_reducible repeat' first | assumption | apply fallBack_kept | apply out_next | exact out_fault _ | split

theorem execStreamStaleCopyDone_kept (x0 : TileIx) (x1 : Fin 16) {x2 : State} (h2 : Kept q b x2) : OutKept q b (@execStreamStaleCopyDone x0 x1 x2) := by
  unfold execStreamStaleCopyDone
  try dsimp only
  with_reducible repeat' first | assumption | apply fabFault_kept | apply moveRead_kept | apply finishStream_kept | apply countFab_kept | apply moveWrite_kept | apply out_next | exact out_fault _ | split

theorem tlRow_kept (x0 : Nat) (x1 : Pkt) (x2 : Bool) (x3 : List UnitErr) {x4 : State} (h4 : Kept q b x4) : OutKept q b (@tlRow x0 x1 x2 x3 x4) := by
  unfold tlRow
  try dsimp only
  with_reducible repeat' first | assumption | apply rxPacket_kept | apply respond_kept | apply sendPkt_kept | apply proposals_kept | apply home_kept | apply out_next | exact out_fault _ | split | intro _ | apply foldl_kept | simp only [kept_mk] | exact set_mk (by assumption) .rfl .rfl .rfl .rfl .rfl .rfl .rfl id | refine set_mk ?_ .rfl .rfl .rfl .rfl .rfl .rfl .rfl id

theorem execTlRead_kept (x0 : Pkt) (x1 : Bool) (x2 : List UnitErr) {x3 : State} (h3 : Kept q b x3) : OutKept q b (@execTlRead x0 x1 x2 x3) := by
  unfold execTlRead
  with_reducible repeat' first | assumption | apply tlRow_kept | apply out_next | exact out_fault _ | split

theorem execTlWrite_kept (x0 : Pkt) (x1 : Bool) (x2 : List UnitErr) {x3 : State} (h3 : Kept q b x3) : OutKept q b (@execTlWrite x0 x1 x2 x3) := by
  unfold execTlWrite
  with_reducible repeat' first | assumption | apply tlRow_kept | apply out_next | exact out_fault _ | split

theorem execTlAdd_kept (x0 : Pkt) (x1 : Bool) {x2 : State} (h2 : Kept q b x2) : OutKept q b (@execTlAdd x0 x1 x2) := by
  unfold execTlAdd
  with_reducible repeat' first | assumption | apply tlRow_kept | apply out_next | exact out_fault _ | split

theorem execTlMin_kept (x0 : Pkt) (x1 : Bool) {x2 : State} (h2 : Kept q b x2) : OutKept q b (@execTlMin x0 x1 x2) := by
  unfold execTlMin
  with_reducible repeat' first | assumption | apply tlRow_kept | apply out_next | exact out_fault _ | split

theorem execTlMax_kept (x0 : Pkt) (x1 : Bool) {x2 : State} (h2 : Kept q b x2) : OutKept q b (@execTlMax x0 x1 x2) := by
  unfold execTlMax
  with_reducible repeat' first | assumption | apply tlRow_kept | apply out_next | exact out_fault _ | split

theorem execTlCas_kept (x0 : Pkt) (x1 : Bool) {x2 : State} (h2 : Kept q b x2) : OutKept q b (@execTlCas x0 x1 x2) := by
  unfold execTlCas
  with_reducible repeat' first | assumption | apply tlRow_kept | apply out_next | exact out_fault _ | split

theorem execTlInval_kept (x0 : Pkt) {x1 : State} (h1 : Kept q b x1) : OutKept q b (@execTlInval x0 x1) := by
  unfold execTlInval
  with_reducible repeat' first | assumption | apply tlRow_kept | apply out_next | exact out_fault _ | split

theorem execTlResponse_kept (x0 : Pkt) {x1 : State} (h1 : Kept q b x1) : OutKept q b (@execTlResponse x0 x1) := by
  unfold execTlResponse
  try dsimp only
  with_reducible repeat' first | assumption | apply rxPacket_kept | apply onPeer_kept | apply newEpoch_kept | apply holdReq_kept | apply goBack_kept | apply pump_kept | apply complete_kept | apply out_next | exact out_fault _ | split | intro _ | apply foldl_kept | simp only [kept_mk] | exact set_mk (by assumption) .rfl .rfl .rfl .rfl .rfl .rfl .rfl id | refine set_mk ?_ .rfl .rfl .rfl .rfl .rfl .rfl .rfl id

theorem execRtoExpiry_kept (x0 : Nat) {x1 : State} (h1 : Kept q b x1) : OutKept q b (@execRtoExpiry x0 x1) := by
  unfold execRtoExpiry
  with_reducible repeat' first | assumption | apply transmit_kept | apply onFab_kept | apply onPeer_kept | apply pathDown_kept | apply out_next | exact out_fault _ | split

theorem execReachTimeout_kept (x0 : Nat) {x1 : State} (h1 : Kept q b x1) : OutKept q b (@execReachTimeout x0 x1) := by
  unfold execReachTimeout
  with_reducible repeat' first | assumption | apply pump_kept | apply complete_kept | apply out_next | exact out_fault _ | split

theorem execRetryAfterExpiry_kept (x0 : Nat) {x1 : State} (h1 : Kept q b x1) : OutKept q b (@execRetryAfterExpiry x0 x1) := by
  unfold execRetryAfterExpiry
  with_reducible repeat' first | assumption | apply pump_kept | apply emit_kept | apply out_next | exact out_fault _ | split

theorem execTokenExpiry_kept (x0 : BitVec 16) {x1 : State} (h1 : Kept q b x1) : OutKept q b (@execTokenExpiry x0 x1) := by
  unfold execTokenExpiry
  with_reducible repeat' first | assumption | apply onFab_kept | apply out_next | exact out_fault _ | split

theorem execCombineFlush_kept {x0 : State} (h0 : Kept q b x0) : OutKept q b (@execCombineFlush x0) := by
  unfold execCombineFlush
  with_reducible repeat' first | assumption | apply combineOut_kept | apply out_next | exact out_fault _ | split

theorem execCopy_kept (x0 : TileIx) (x1 : BitVec 22) {x2 : State} (h2 : Kept q b x2) : OutKept q b (@execCopy x0 x1 x2) := by
  unfold execCopy
  try dsimp only
  with_reducible repeat' first | assumption | apply issueRow_kept | apply issueFab_kept | apply out_next | exact out_fault _ | split | intro _ | apply foldl_kept

theorem execCtrWait_kept (x0 : TileIx) (x1 : BitVec 22) {x2 : State} (h2 : Kept q b x2) : OutKept q b (@execCtrWait x0 x1 x2) := by
  unfold execCtrWait
  try dsimp only
  with_reducible repeat' first | assumption | apply issueRow_kept | apply issueFab_kept | apply out_next | exact out_fault _ | split | intro _ | apply foldl_kept

theorem execFence_kept (x0 : TileIx) (x1 : BitVec 22) {x2 : State} (h2 : Kept q b x2) : OutKept q b (@execFence x0 x1 x2) := by
  unfold execFence
  try dsimp only
  with_reducible repeat' first | assumption | apply issueRow_kept | apply issueFab_kept | apply out_next | exact out_fault _ | split | intro _ | apply foldl_kept

theorem execRemote_kept (x0 : TileIx) (x1 : BitVec 22) {x2 : State} (h2 : Kept q b x2) : OutKept q b (@execRemote x0 x1 x2) := by
  unfold execRemote
  try dsimp only
  with_reducible repeat' first | assumption | apply issueRow_kept | apply issueFab_kept | apply out_next | exact out_fault _ | split | intro _ | apply foldl_kept

theorem execFabricCmdStart_kept (x0 : TileIx) (x1 : Sram) {x2 : State} (h2 : Kept q b x2) : OutKept q b (@execFabricCmdStart x0 x1 x2) := by
  unfold execFabricCmdStart
  try dsimp only
  with_reducible repeat' first | assumption | apply onFabCmd_kept | apply fault_kept | apply dropFab_kept | apply sramRead_kept | apply startStream_kept | apply startCopy_kept | apply startRemote_kept | apply out_next | exact out_fault _ | split

theorem execCopyDone_kept (x0 : TileIx) (x1 : Fin 16) (x2 : List (Fin 16)) (x3 : Bool) {x4 : State} (h4 : Kept q b x4) : OutKept q b (@execCopyDone x0 x1 x2 x3 x4) := by
  unfold execCopyDone
  try dsimp only
  with_reducible repeat' first | assumption | apply copyFlush_kept | apply engineFault_kept | apply finishFab_kept | apply out_next | exact out_fault _ | split | intro _ | apply foldl_kept

theorem execCtrWaitDone_kept (x0 : TileIx) (x1 : Fin 16) {x2 : State} (h2 : Kept q b x2) : OutKept q b (@execCtrWaitDone x0 x1 x2) := by
  unfold execCtrWaitDone
  with_reducible repeat' first | assumption | apply finishFab_kept | apply out_next | exact out_fault _ | split

theorem execCtrWaitTimeout_kept (x0 : TileIx) (x1 : Fin 16) {x2 : State} (h2 : Kept q b x2) : OutKept q b (@execCtrWaitTimeout x0 x1 x2) := by
  unfold execCtrWaitTimeout
  with_reducible repeat' first | assumption | apply finishFab_kept | apply out_next | exact out_fault _ | split

theorem execFenceDone_kept (x0 : TileIx) (x1 : Fin 16) {x2 : State} (h2 : Kept q b x2) : OutKept q b (@execFenceDone x0 x1 x2) := by
  unfold execFenceDone
  with_reducible repeat' first | assumption | apply onFab_kept | apply finishFab_kept | apply out_next | exact out_fault _ | split

theorem execRemoteDone_kept (x0 : TileIx) (x1 : Fin 16) {x2 : State} (h2 : Kept q b x2) : OutKept q b (@execRemoteDone x0 x1 x2) := by
  unfold execRemoteDone
  with_reducible repeat' first | assumption | apply finishFab_kept | apply out_next | exact out_fault _ | split

theorem execFrameDiscard_kept (x0 : PortIx) (x1 : Frame) {x2 : State} (h2 : Kept q b x2) : OutKept q b (@execFrameDiscard x0 x1 x2) := by
  unfold execFrameDiscard
  with_reducible repeat' first | assumption | apply onPort_kept | apply rxDiscard_kept | apply out_next | exact out_fault _ | split

theorem execArpRequest_kept (x0 : PortIx) (x1 : Frame) (x2 : List Byte) (x3 : List Byte) {x4 : State} (h4 : Kept q b x4) : OutKept q b (@execArpRequest x0 x1 x2 x3 x4) := by
  unfold execArpRequest
  try dsimp only
  with_reducible repeat' first | assumption | apply rxCount_kept | apply sendFrame_kept | apply out_next | exact out_fault _ | split

theorem execNeighborSolicitation_kept (x0 : PortIx) (x1 : Frame) (x2 : List Byte) {x3 : State} (h3 : Kept q b x3) : OutKept q b (@execNeighborSolicitation x0 x1 x2 x3) := by
  unfold execNeighborSolicitation
  try dsimp only
  with_reducible repeat' first | assumption | apply rxCount_kept | apply sendFrame_kept | apply out_next | exact out_fault _ | split

theorem execIcmpEchoRequest_kept (x0 : PortIx) (x1 : Frame) (x2 : List Byte) {x3 : State} (h3 : Kept q b x3) : OutKept q b (@execIcmpEchoRequest x0 x1 x2 x3) := by
  unfold execIcmpEchoRequest
  try dsimp only
  with_reducible repeat' first | assumption | apply rxCount_kept | apply sendFrame_kept | apply out_next | exact out_fault _ | split

theorem execPfcReceive_kept (x0 : PortIx) (x1 : List (Fin 8 × BitVec 16)) (x2 : List (Fin 8 × Nat)) {x3 : State} (h3 : Kept q b x3) : OutKept q b (@execPfcReceive x0 x1 x2 x3) := by
  unfold execPfcReceive
  try dsimp only
  with_reducible repeat' first | assumption | apply onPort_kept | apply rxClass_kept | apply txDrain_kept | apply out_next | exact out_fault _ | split | intro _ | apply foldl_kept

theorem execLldpReceive_kept (x0 : PortIx) (x1 : Option (List Byte)) (x2 : Nat) {x3 : State} (h3 : Kept q b x3) : OutKept q b (@execLldpReceive x0 x1 x2 x3) := by
  unfold execLldpReceive
  with_reducible repeat' first | assumption | apply rxCount_kept | apply onPort_kept | apply out_next | exact out_fault _ | split

theorem execLldpTransmit_kept (x0 : PortIx) {x1 : State} (h1 : Kept q b x1) : OutKept q b (@execLldpTransmit x0 x1) := by
  unfold execLldpTransmit
  try dsimp only
  with_reducible repeat' first | assumption | apply onPort_kept | apply draw_kept | apply sendOn_kept | apply out_next | exact out_fault _ | split

theorem execLldpNeighborExpiry_kept (x0 : PortIx) {x1 : State} (h1 : Kept q b x1) : OutKept q b (@execLldpNeighborExpiry x0 x1) := by
  unfold execLldpNeighborExpiry
  with_reducible repeat' first | assumption | apply onPort_kept | apply out_next | exact out_fault _ | split

theorem execLinkBringUp_kept (x0 : PortIx) (x1 : Bool) {x2 : State} (h2 : Kept q b x2) : OutKept q b (@execLinkBringUp x0 x1 x2) := by
  unfold execLinkBringUp
  try dsimp only
  with_reducible repeat' first | assumption | apply onPort_kept | apply portFailed_kept | apply out_next | exact out_fault _ | split

theorem execLinkTrained_kept (x0 : PortIx) (x1 : Nat) {x2 : State} (h2 : Kept q b x2) : OutKept q b (@execLinkTrained x0 x1 x2) := by
  unfold execLinkTrained
  try dsimp only
  with_reducible repeat' first | assumption | apply onPort_kept | apply report_kept | apply endBringUp_kept | apply fallbackEvent_kept | apply resetEnds_kept | apply out_next | exact out_fault _ | split

theorem execLinkTrainFail_kept (x0 : PortIx) {x1 : State} (h1 : Kept q b x1) : OutKept q b (@execLinkTrainFail x0 x1) := by
  unfold execLinkTrainFail
  try dsimp only
  with_reducible repeat' first | assumption | apply linkDown_kept | apply onPort_kept | apply portFailed_kept | apply out_next | exact out_fault _ | split

theorem execLaneLossOfLock_kept (x0 : PortIx) (x1 : Fin 4) {x2 : State} (h2 : Kept q b x2) : OutKept q b (@execLaneLossOfLock x0 x1 x2) := by
  unfold execLaneLossOfLock
  try dsimp only
  with_reducible repeat' first | assumption | apply onPort_kept | apply retrain_kept | apply out_next | exact out_fault _ | split

theorem execLaneSerWindow_kept (x0 : PortIx) (x1 : Fin 4) (x2 : Nat) (x3 : Nat) (x4 : Nat) {x5 : State} (h5 : Kept q b x5) : OutKept q b (@execLaneSerWindow x0 x1 x2 x3 x4 x5) := by
  unfold execLaneSerWindow
  try dsimp only
  with_reducible repeat' first | assumption | apply onPort_kept | apply retireLane_kept | apply out_next | exact out_fault _ | split

theorem execDirectReplay_kept (x0 : PortIx) (x1 : Fin 4096) {x2 : State} (h2 : Kept q b x2) : OutKept q b (@execDirectReplay x0 x1 x2) := by
  unfold execDirectReplay
  try dsimp only
  with_reducible repeat' first | assumption | apply onPort_kept | apply fallbackEvent_kept | apply retrain_kept | apply out_next | exact out_fault _ | split

theorem execPtpEventMessage_kept (x0 : PortIx) (x1 : PtpMsg) (x2 : Nat) (x3 : Nat) (x4 : Option Nat) (x5 : Nat) {x6 : State} (h6 : Kept q b x6) : OutKept q b (@execPtpEventMessage x0 x1 x2 x3 x4 x5 x6) := by
  unfold execPtpEventMessage
  try dsimp only
  with_reducible repeat' first | assumption | apply rxCount_kept | apply bmca_kept | apply onPtp_kept | apply syncDone_kept | apply sendPtp_kept | apply out_next | exact out_fault _ | split

theorem execTimeSourceSilence_kept {x0 : State} (h0 : Kept q b x0) : OutKept q b (@execTimeSourceSilence x0) := by
  unfold execTimeSourceSilence
  try dsimp only
  with_reducible repeat' first | assumption | apply onTime_kept | apply raise_kept | apply out_next | exact out_fault _ | split

theorem execHello_kept (x0 : Nat) (x1 : Nat) (x2 : Nat) (x3 : Nat) (x4 : List Byte) {x5 : State} (h5 : Kept q b x5) : OutKept q b (@execHello x0 x1 x2 x3 x4 x5) := by
  unfold execHello
  try dsimp only
  repeat' (first
    | with_reducible assumption
    | with_reducible apply rxCount_kept
    | with_reducible apply sendOpen_kept
    | with_reducible apply onExchange_kept
    | with_reducible apply draws_kept
    | with_reducible apply onBoot_kept
    | with_reducible apply on_hal
    | with_reducible apply opt_some
    | with_reducible apply opt_none
    | with_reducible apply sub_app
    | with_reducible apply out_next
    | with_reducible apply out_fault
    | with_reducible apply out_refused
    | with_reducible apply foldl_kept
    | with_reducible apply foldl_kept1
    | with_reducible apply foldl_kept2
    | with_reducible apply foldl_kept21
    | with_reducible apply foldl_kept22
    | with_reducible exact HalOk.rfl
    | with_reducible exact HbmOk.rfl
    | with_reducible exact PwrOk.rfl
    | with_reducible exact HeatOk.rfl
    | with_reducible exact PkgOk.rfl
    | with_reducible exact StepOk.rfl
    | with_reducible exact FlashOk.rfl
    | with_reducible exact id
    | with_reducible refine HalOk.mk ?_ ?_ ?_ ?_
    | with_reducible refine HbmOk.mk ?_ ?_ ?_
    | with_reducible refine PwrOk.mk ?_ ?_
    | with_reducible refine HeatOk.mk ?_
    | with_reducible refine PkgOk.mk ?_ ?_
    | with_reducible refine StepOk.mk ?_
    | with_reducible refine FlashOk.mk ?_ ?_ ?_ ?_
    | exact id
    | with_reducible apply wf_upd
    | with_reducible apply wf_setList
    | with_reducible apply wf_copy
    | with_reducible apply wf_clear
    | decide
    | (simp only [setAt_length, List.length_map, List.length_zipIdx]; exact id)
    | split
    | intro _
    | dsimp only
    | with_reducible apply wf_foldl
    | with_reducible apply wf_set
    | simp only [kept_mk]
    | with_reducible refine set_mk ?_ ?_ ?_ ?_ ?_ ?_ ?_ ?_ ?_)

theorem execOfferSigned_kept {x0 : State} (h0 : Kept q b x0) : OutKept q b (@execOfferSigned x0) := by
  unfold execOfferSigned
  try dsimp only
  with_reducible repeat' first | assumption | apply onBoot_kept | apply onExchange_kept | apply sendOpen_kept | apply out_next | exact out_fault _ | split

theorem execConfirm_kept (x0 : Nat) (x1 : Nat) (x2 : Nat) (x3 : Nat) (x4 : List Byte) {x5 : State} (h5 : Kept q x5 x5) : OutKept q x5 (@execConfirm x0 x1 x2 x3 x4 x5) := by
  unfold execConfirm
  extract_lets sr claim control proof owner s1 src
  have h5r : Kept q x5 sr := rxCount_kept _ _ h5
  have h1 : Kept q x5 s1 := onBoot_kept _ h5r
  have er : sr.boot = x5.boot := rfl
  clear_value s1 sr claim control
  split
  · exact out_next h5r
  · rename_i x _
    refine ite_out (fun _ => out_next h5r) (fun _ => ?_)
    · extract_lets k th2 st un s2
      have hs : st = 0 → claim = true → x5.boot.bootSel = 2 := by
        intro e c
        simp only [st, State.finishStatus, c, er] at e
        by_cases h : x5.boot.bootSel = 2
        · exact h
        · simp only [ne_eq, h, not_false_eq_true, decide_true, Bool.and_true, Bool.not_true, Bool.false_and, Bool.or_false] at e
          split at e
          · cases e
          · split at e
            · cases e
            · simp at e
      have h2 : st = 0 → Kept q x5 s2 := by
        intro e
        dsimp only [s2]
        split
        · rename_i c
          refine raiseHeld_kept _ ?_
          simp only [kept_mk]
          exact set_mk h1 ⟨id, fun _ hb => absurd (hs e c) hb, id, id⟩ .rfl .rfl .rfl .rfl .rfl .rfl id
        · exact h1
      clear_value s2 st
      refine ite_out (fun _ => ?_) (fun e => ?_)
      · exact out_next (sendOpen_kept _ _ _ _ _ _ (authFail_kept h1))
      · exact out_next (openSession_kept _ _ _ _ (sendOpen_kept _ _ _ _ _ _ (h2 (Decidable.not_not.mp e))))

theorem execExchangeTimeout_kept (x0 : Nat) {x1 : State} (h1 : Kept q b x1) : OutKept q b (@execExchangeTimeout x0 x1) := by
  unfold execExchangeTimeout
  with_reducible repeat' first | assumption | apply onBoot_kept | apply out_next | exact out_fault _ | split

theorem execEventAck_kept (x0 : Hdr) {x1 : State} (h1 : Kept q b x1) : OutKept q b (@execEventAck x0 x1) := by
  unfold execEventAck
  try dsimp only
  with_reducible repeat' first | assumption | apply authFail_kept | apply rxCount_kept | apply heardFrom_kept | apply onSession_kept | apply refill_kept | apply out_next | exact out_fault _ | split | intro _ | apply foldl_kept | simp only [kept_mk] | exact set_mk (by assumption) .rfl .rfl .rfl .rfl .rfl .rfl .rfl id | refine set_mk ?_ .rfl .rfl .rfl .rfl .rfl .rfl .rfl id

theorem execEventRetransmit_kept (x0 : Nat) (x1 : Nat) {x2 : State} (h2 : Kept q b x2) : OutKept q b (@execEventRetransmit x0 x1 x2) := by
  unfold execEventRetransmit
  with_reducible repeat' first | assumption | apply onSession_kept | apply sendMsg_kept | apply out_next | exact out_fault _ | split

theorem execSessionIdle_kept (x0 : Nat) {x1 : State} (h1 : Kept q b x1) : OutKept q b (@execSessionIdle x0 x1) := by
  unfold execSessionIdle
  with_reducible repeat' first | assumption | apply closeSession_kept | apply out_next | exact out_fault _ | split

theorem execDecisionDeadline_kept (x0 : Nat) {x1 : State} (h1 : Kept q b x1) : OutKept q b (@execDecisionDeadline x0 x1) := by
  unfold execDecisionDeadline
  with_reducible repeat' first | assumption | apply raise_kept | apply hardware_kept | apply dropDecision_kept | apply out_next | exact out_fault _ | split

theorem execNop_kept (x0 : Hdr) {x1 : State} (h1 : Kept q b x1) : OutKept q b (@execNop x0 x1) := by
  unfold execNop
  try dsimp only
  with_reducible repeat' first | assumption | apply command_kept | apply answer_kept | apply out_next | exact out_fault _ | split | intro _ | apply foldl_kept

theorem execSessionClose_kept (x0 : Hdr) {x1 : State} (h1 : Kept q b x1) : OutKept q b (@execSessionClose x0 x1) := by
  unfold execSessionClose
  try dsimp only
  with_reducible repeat' first | assumption | apply command_kept | apply closeSession_kept | apply answer_kept | apply out_next | exact out_fault _ | split | intro _ | apply foldl_kept

theorem execEventSubscribe_kept (x0 : Hdr) (x1 : Bool) (x2 : Bool) {x3 : State} (h3 : Kept q b x3) : OutKept q b (@execEventSubscribe x0 x1 x2 x3) := by
  unfold execEventSubscribe
  try dsimp only
  with_reducible repeat' first | assumption | apply command_kept | apply answer_kept | apply onSession_kept | apply out_next | exact out_fault _ | split | intro _ | apply foldl_kept

theorem execModeSet_kept (x0 : Hdr) (x1 : Nat) (x2 : Bool) {x3 : State} (h3 : Kept q b x3) : OutKept q b (@execModeSet x0 x1 x2 x3) := by
  unfold execModeSet
  try dsimp only
  repeat' (first
    | with_reducible assumption
    | with_reducible apply command_kept
    | with_reducible apply answer_kept
    | with_reducible apply hardware_kept
    | with_reducible apply dropDecision_kept
    | with_reducible apply pushLog_kept
    | with_reducible apply extend_kept
    | with_reducible apply on_hal
    | with_reducible apply opt_some
    | with_reducible apply opt_none
    | with_reducible apply sub_app
    | with_reducible apply out_next
    | with_reducible apply out_fault
    | with_reducible apply out_refused
    | with_reducible apply foldl_kept
    | with_reducible apply foldl_kept1
    | with_reducible apply foldl_kept2
    | with_reducible apply foldl_kept21
    | with_reducible apply foldl_kept22
    | with_reducible exact HalOk.rfl
    | with_reducible exact HbmOk.rfl
    | with_reducible exact PwrOk.rfl
    | with_reducible exact HeatOk.rfl
    | with_reducible exact PkgOk.rfl
    | with_reducible exact StepOk.rfl
    | with_reducible exact FlashOk.rfl
    | with_reducible exact id
    | with_reducible refine HalOk.mk ?_ ?_ ?_ ?_
    | with_reducible refine HbmOk.mk ?_ ?_ ?_
    | with_reducible refine PwrOk.mk ?_ ?_
    | with_reducible refine HeatOk.mk ?_
    | with_reducible refine PkgOk.mk ?_ ?_
    | with_reducible refine StepOk.mk ?_
    | with_reducible refine FlashOk.mk ?_ ?_ ?_ ?_
    | exact id
    | with_reducible apply wf_upd
    | with_reducible apply wf_setList
    | with_reducible apply wf_copy
    | with_reducible apply wf_clear
    | decide
    | (simp only [setAt_length, List.length_map, List.length_zipIdx]; exact id)
    | split
    | intro _
    | dsimp only
    | with_reducible apply wf_foldl
    | with_reducible apply wf_set
    | simp only [kept_mk]
    | with_reducible refine set_mk ?_ ?_ ?_ ?_ ?_ ?_ ?_ ?_ ?_)

theorem execRepairDecide_kept (x0 : Hdr) (x1 : Repair) {x2 : State} (h2 : Kept q b x2) : OutKept q b (@execRepairDecide x0 x1 x2) := by
  unfold execRepairDecide
  try dsimp only
  with_reducible repeat' first | assumption | apply command_kept | apply settleReq_kept | apply rowDecision_kept | apply failChannel_kept | apply out_next | exact out_fault _ | apply opt_some | exact opt_none | split | intro _ | apply foldl_kept

theorem execTierMove_kept (x0 : Hdr) (x1 : BitVec 21) (x2 : Bool) {x3 : State} (h3 : Kept q b x3) : OutKept q b (@execTierMove x0 x1 x2 x3) := by
  unfold execTierMove
  try dsimp only
  with_reducible repeat' first | assumption | apply command_kept | apply pend_kept | apply orderedMove_kept | apply finish_kept | apply answer_kept | apply dropDecision_kept | apply out_next | exact out_fault _ | split | intro _ | apply foldl_kept

theorem execSpareDecide_kept (x0 : Hdr) (x1 : Bool) {x2 : State} (h2 : Kept q b x2) : OutKept q b (@execSpareDecide x0 x1 x2) := by
  unfold execSpareDecide
  try dsimp only
  with_reducible repeat' first | assumption | apply command_kept | apply settleReq_kept | apply slotDecided_kept | apply out_next | exact out_fault _ | apply opt_some | exact opt_none | split | intro _ | apply foldl_kept

theorem execSplitDecide_kept (x0 : Hdr) (x1 : List (BitVec 8)) {x2 : State} (h2 : Kept q b x2) : OutKept q b (@execSplitDecide x0 x1 x2) := by
  unfold execSplitDecide
  try dsimp only
  repeat' (first
    | with_reducible assumption
    | with_reducible apply command_kept
    | with_reducible apply settleReq_kept
    | with_reducible apply allot_kept
    | with_reducible apply on_pwr
    | with_reducible apply opt_some
    | with_reducible apply opt_none
    | with_reducible apply sub_app
    | with_reducible apply out_next
    | with_reducible apply out_fault
    | with_reducible apply out_refused
    | with_reducible apply foldl_kept
    | with_reducible apply foldl_kept1
    | with_reducible apply foldl_kept2
    | with_reducible apply foldl_kept21
    | with_reducible apply foldl_kept22
    | with_reducible exact HalOk.rfl
    | with_reducible exact HbmOk.rfl
    | with_reducible exact PwrOk.rfl
    | with_reducible exact HeatOk.rfl
    | with_reducible exact PkgOk.rfl
    | with_reducible exact StepOk.rfl
    | with_reducible exact FlashOk.rfl
    | with_reducible exact id
    | with_reducible refine HalOk.mk ?_ ?_ ?_ ?_
    | with_reducible refine HbmOk.mk ?_ ?_ ?_
    | with_reducible refine PwrOk.mk ?_ ?_
    | with_reducible refine HeatOk.mk ?_
    | with_reducible refine PkgOk.mk ?_ ?_
    | with_reducible refine StepOk.mk ?_
    | with_reducible refine FlashOk.mk ?_ ?_ ?_ ?_
    | exact id
    | with_reducible apply wf_upd
    | with_reducible apply wf_setList
    | with_reducible apply wf_copy
    | with_reducible apply wf_clear
    | decide
    | (simp only [setAt_length, List.length_map, List.length_zipIdx]; exact id)
    | split
    | intro _
    | dsimp only
    | with_reducible apply wf_foldl
    | with_reducible apply wf_set
    | simp only [kept_mk]
    | with_reducible refine set_mk ?_ ?_ ?_ ?_ ?_ ?_ ?_ ?_ ?_)

theorem execRouteSet_kept (x0 : Hdr) (x1 : Nat) (x2 : Nat) {x3 : State} (h3 : Kept q b x3) : OutKept q b (@execRouteSet x0 x1 x2 x3) := by
  unfold execRouteSet
  refine out_next (command_kept _ _ _ _ _ h3 fun c s h => ?_)
  split
  · split
    · rename_i e; exact answer_kept _ _ _ ((routeTo_kept _ _ h).ok _ e)
    · exact answer_kept _ _ _ h
  · refine settleReq_kept _ _ _ h fun s r h => ?_
    split
    · split
      · exact routeTo_kept _ _ h
      · exact opt_none
    · exact opt_none

theorem execLeadDecide_kept (x0 : Hdr) (x1 : Bool) {x2 : State} (h2 : Kept q b x2) : OutKept q b (@execLeadDecide x0 x1 x2) := by
  unfold execLeadDecide
  try dsimp only
  with_reducible repeat' first | assumption | apply command_kept | apply settleReq_kept | apply takeover_kept | apply out_next | exact out_fault _ | apply opt_some | exact opt_none | split | intro _ | apply foldl_kept

theorem execLogDrainDecide_kept (x0 : Hdr) (x1 : Bool) {x2 : State} (h2 : Kept q b x2) : OutKept q b (@execLogDrainDecide x0 x1 x2) := by
  unfold execLogDrainDecide
  try dsimp only
  repeat' (first
    | with_reducible assumption
    | with_reducible apply command_kept
    | with_reducible apply settleReq_kept
    | with_reducible apply pushLog_kept
    | with_reducible apply on_hal
    | with_reducible apply opt_some
    | with_reducible apply opt_none
    | with_reducible apply sub_app
    | with_reducible apply out_next
    | with_reducible apply out_fault
    | with_reducible apply out_refused
    | with_reducible apply foldl_kept
    | with_reducible apply foldl_kept1
    | with_reducible apply foldl_kept2
    | with_reducible apply foldl_kept21
    | with_reducible apply foldl_kept22
    | with_reducible exact HalOk.rfl
    | with_reducible exact HbmOk.rfl
    | with_reducible exact PwrOk.rfl
    | with_reducible exact HeatOk.rfl
    | with_reducible exact PkgOk.rfl
    | with_reducible exact StepOk.rfl
    | with_reducible exact FlashOk.rfl
    | with_reducible exact id
    | with_reducible refine HalOk.mk ?_ ?_ ?_ ?_
    | with_reducible refine HbmOk.mk ?_ ?_ ?_
    | with_reducible refine PwrOk.mk ?_ ?_
    | with_reducible refine HeatOk.mk ?_
    | with_reducible refine PkgOk.mk ?_ ?_
    | with_reducible refine StepOk.mk ?_
    | with_reducible refine FlashOk.mk ?_ ?_ ?_ ?_
    | exact id
    | with_reducible apply wf_upd
    | with_reducible apply wf_setList
    | with_reducible apply wf_copy
    | with_reducible apply wf_clear
    | decide
    | (simp only [setAt_length, List.length_map, List.length_zipIdx]; exact id)
    | split
    | intro _
    | dsimp only
    | with_reducible apply wf_foldl
    | with_reducible apply wf_set
    | simp only [kept_mk]
    | with_reducible refine set_mk ?_ ?_ ?_ ?_ ?_ ?_ ?_ ?_ ?_)

theorem execResAcquire_kept (x0 : Hdr) (x1 : BitVec 8) (x2 : List Nat) {x3 : State} (h3 : Kept q b x3) : OutKept q b (@execResAcquire x0 x1 x2 x3) := by
  unfold execResAcquire
  try dsimp only
  with_reducible repeat' first | assumption | apply command_kept | apply acquire_kept | apply answer_kept | apply out_next | exact out_fault _ | split | intro _ | apply foldl_kept

theorem execResRelease_kept (x0 : Hdr) (x1 : Nat) {x2 : State} (h2 : Kept q b x2) : OutKept q b (@execResRelease x0 x1 x2) := by
  unfold execResRelease
  try dsimp only
  with_reducible repeat' first | assumption | apply command_kept | apply answer_kept | apply draw_kept | apply onRes_kept | apply pend_kept | apply finish_kept | apply free_kept | apply out_next | exact out_fault _ | split | intro _ | apply foldl_kept

theorem execResReleaseDone_kept (x0 : Fin 20) {x1 : State} (h1 : Kept q b x1) : OutKept q b (@execResReleaseDone x0 x1) := by
  unfold execResReleaseDone
  try dsimp only
  with_reducible repeat' first | assumption | apply free_kept | apply finish_kept | apply out_next | exact out_fault _ | split | intro _ | apply foldl_kept

theorem execResQuery_kept (x0 : Hdr) {x1 : State} (h1 : Kept q b x1) : OutKept q b (@execResQuery x0 x1) := by
  unfold execResQuery
  try dsimp only
  with_reducible repeat' first | assumption | apply command_kept | apply answer_kept | apply out_next | exact out_fault _ | split | intro _ | apply foldl_kept

theorem execGpioSet_kept (x0 : Hdr) (x1 : List Byte) {x2 : State} (h2 : Kept q b x2) : OutKept q b (@execGpioSet x0 x1 x2) := by
  unfold execGpioSet
  try dsimp only
  repeat' (first
    | with_reducible assumption
    | with_reducible apply command_kept
    | with_reducible apply answer_kept
    | with_reducible apply on_hal
    | with_reducible apply opt_some
    | with_reducible apply opt_none
    | with_reducible apply sub_app
    | with_reducible apply out_next
    | with_reducible apply out_fault
    | with_reducible apply out_refused
    | with_reducible apply foldl_kept
    | with_reducible apply foldl_kept1
    | with_reducible apply foldl_kept2
    | with_reducible apply foldl_kept21
    | with_reducible apply foldl_kept22
    | with_reducible exact HalOk.rfl
    | with_reducible exact HbmOk.rfl
    | with_reducible exact PwrOk.rfl
    | with_reducible exact HeatOk.rfl
    | with_reducible exact PkgOk.rfl
    | with_reducible exact StepOk.rfl
    | with_reducible exact FlashOk.rfl
    | with_reducible exact id
    | with_reducible refine HalOk.mk ?_ ?_ ?_ ?_
    | with_reducible refine HbmOk.mk ?_ ?_ ?_
    | with_reducible refine PwrOk.mk ?_ ?_
    | with_reducible refine HeatOk.mk ?_
    | with_reducible refine PkgOk.mk ?_ ?_
    | with_reducible refine StepOk.mk ?_
    | with_reducible refine FlashOk.mk ?_ ?_ ?_ ?_
    | exact id
    | with_reducible apply wf_upd
    | with_reducible apply wf_setList
    | with_reducible apply wf_copy
    | with_reducible apply wf_clear
    | decide
    | (simp only [setAt_length, List.length_map, List.length_zipIdx]; exact id)
    | split
    | intro _
    | dsimp only
    | with_reducible apply wf_foldl
    | with_reducible apply wf_set
    | simp only [kept_mk]
    | with_reducible refine set_mk ?_ ?_ ?_ ?_ ?_ ?_ ?_ ?_ ?_)

theorem execGpioGet_kept (x0 : Hdr) (x1 : BitVec 8) {x2 : State} (h2 : Kept q b x2) : OutKept q b (@execGpioGet x0 x1 x2) := by
  unfold execGpioGet
  try dsimp only
  with_reducible repeat' first | assumption | apply command_kept | apply answer_kept | apply out_next | exact out_fault _ | split | intro _ | apply foldl_kept

theorem execTimerSet_kept (x0 : Hdr) (x1 : Nat) (x2 : Nat) {x3 : State} (h3 : Kept q b x3) : OutKept q b (@execTimerSet x0 x1 x2 x3) := by
  unfold execTimerSet
  try dsimp only
  repeat' (first
    | with_reducible assumption
    | with_reducible apply command_kept
    | with_reducible apply answer_kept
    | with_reducible apply on_hal
    | with_reducible apply opt_some
    | with_reducible apply opt_none
    | with_reducible apply sub_app
    | with_reducible apply out_next
    | with_reducible apply out_fault
    | with_reducible apply out_refused
    | with_reducible apply foldl_kept
    | with_reducible apply foldl_kept1
    | with_reducible apply foldl_kept2
    | with_reducible apply foldl_kept21
    | with_reducible apply foldl_kept22
    | with_reducible exact HalOk.rfl
    | with_reducible exact HbmOk.rfl
    | with_reducible exact PwrOk.rfl
    | with_reducible exact HeatOk.rfl
    | with_reducible exact PkgOk.rfl
    | with_reducible exact StepOk.rfl
    | with_reducible exact FlashOk.rfl
    | with_reducible exact id
    | with_reducible refine HalOk.mk ?_ ?_ ?_ ?_
    | with_reducible refine HbmOk.mk ?_ ?_ ?_
    | with_reducible refine PwrOk.mk ?_ ?_
    | with_reducible refine HeatOk.mk ?_
    | with_reducible refine PkgOk.mk ?_ ?_
    | with_reducible refine StepOk.mk ?_
    | with_reducible refine FlashOk.mk ?_ ?_ ?_ ?_
    | exact id
    | with_reducible apply wf_upd
    | with_reducible apply wf_setList
    | with_reducible apply wf_copy
    | with_reducible apply wf_clear
    | decide
    | (simp only [setAt_length, List.length_map, List.length_zipIdx]; exact id)
    | split
    | intro _
    | dsimp only
    | with_reducible apply wf_foldl
    | with_reducible apply wf_set
    | simp only [kept_mk]
    | with_reducible refine set_mk ?_ ?_ ?_ ?_ ?_ ?_ ?_ ?_ ?_)

theorem execCapSet_kept (x0 : Hdr) (x1 : List Byte) {x2 : State} (h2 : Kept q b x2) : OutKept q b (@execCapSet x0 x1 x2) := by
  unfold execCapSet
  try dsimp only
  repeat' (first
    | with_reducible assumption
    | with_reducible apply command_kept
    | with_reducible apply answer_kept
    | with_reducible apply on_pwr
    | with_reducible apply opt_some
    | with_reducible apply opt_none
    | with_reducible apply sub_app
    | with_reducible apply out_next
    | with_reducible apply out_fault
    | with_reducible apply out_refused
    | with_reducible apply foldl_kept
    | with_reducible apply foldl_kept1
    | with_reducible apply foldl_kept2
    | with_reducible apply foldl_kept21
    | with_reducible apply foldl_kept22
    | with_reducible exact HalOk.rfl
    | with_reducible exact HbmOk.rfl
    | with_reducible exact PwrOk.rfl
    | with_reducible exact HeatOk.rfl
    | with_reducible exact PkgOk.rfl
    | with_reducible exact StepOk.rfl
    | with_reducible exact FlashOk.rfl
    | with_reducible exact id
    | with_reducible refine HalOk.mk ?_ ?_ ?_ ?_
    | with_reducible refine HbmOk.mk ?_ ?_ ?_
    | with_reducible refine PwrOk.mk ?_ ?_
    | with_reducible refine HeatOk.mk ?_
    | with_reducible refine PkgOk.mk ?_ ?_
    | with_reducible refine StepOk.mk ?_
    | with_reducible refine FlashOk.mk ?_ ?_ ?_ ?_
    | exact id
    | with_reducible apply wf_upd
    | with_reducible apply wf_setList
    | with_reducible apply wf_copy
    | with_reducible apply wf_clear
    | decide
    | (simp only [setAt_length, List.length_map, List.length_zipIdx]; exact id)
    | split
    | intro _
    | dsimp only
    | with_reducible apply wf_foldl
    | with_reducible apply wf_set
    | simp only [kept_mk]
    | with_reducible refine set_mk ?_ ?_ ?_ ?_ ?_ ?_ ?_ ?_ ?_)

theorem execSiteBudget_kept (x0 : Hdr) (x1 : List Byte) {x2 : State} (h2 : Kept q b x2) : OutKept q b (@execSiteBudget x0 x1 x2) := by
  unfold execSiteBudget
  try dsimp only
  repeat' (first
    | with_reducible assumption
    | with_reducible apply command_kept
    | with_reducible apply answer_kept
    | with_reducible apply clampBudget_kept
    | with_reducible apply on_pwr
    | with_reducible apply opt_some
    | with_reducible apply opt_none
    | with_reducible apply sub_app
    | with_reducible apply out_next
    | with_reducible apply out_fault
    | with_reducible apply out_refused
    | with_reducible apply foldl_kept
    | with_reducible apply foldl_kept1
    | with_reducible apply foldl_kept2
    | with_reducible apply foldl_kept21
    | with_reducible apply foldl_kept22
    | with_reducible exact HalOk.rfl
    | with_reducible exact HbmOk.rfl
    | with_reducible exact PwrOk.rfl
    | with_reducible exact HeatOk.rfl
    | with_reducible exact PkgOk.rfl
    | with_reducible exact StepOk.rfl
    | with_reducible exact FlashOk.rfl
    | with_reducible exact id
    | with_reducible refine HalOk.mk ?_ ?_ ?_ ?_
    | with_reducible refine HbmOk.mk ?_ ?_ ?_
    | with_reducible refine PwrOk.mk ?_ ?_
    | with_reducible refine HeatOk.mk ?_
    | with_reducible refine PkgOk.mk ?_ ?_
    | with_reducible refine StepOk.mk ?_
    | with_reducible refine FlashOk.mk ?_ ?_ ?_ ?_
    | exact id
    | with_reducible apply wf_upd
    | with_reducible apply wf_setList
    | with_reducible apply wf_copy
    | with_reducible apply wf_clear
    | decide
    | (simp only [setAt_length, List.length_map, List.length_zipIdx]; exact id)
    | split
    | intro _
    | dsimp only
    | with_reducible apply wf_foldl
    | with_reducible apply wf_set
    | simp only [kept_mk]
    | with_reducible refine set_mk ?_ ?_ ?_ ?_ ?_ ?_ ?_ ?_ ?_)

theorem execFuncReinit_kept (x0 : Hdr) (x1 : List Byte) {x2 : State} (h2 : Kept q b x2) : OutKept q b (@execFuncReinit x0 x1 x2) := by
  unfold execFuncReinit
  try dsimp only
  with_reducible repeat' first | assumption | apply command_kept | apply pend_kept | apply answer_kept | apply finish_kept | apply requestRepeat_kept | apply onTile_kept | apply portReset_kept | apply onChan_kept | apply combineAll_kept | apply out_next | exact out_fault _ | split | intro _ | apply foldl_kept | simp only [kept_mk] | exact set_mk (by assumption) .rfl .rfl .rfl .rfl .rfl .rfl .rfl id | refine set_mk ?_ .rfl .rfl .rfl .rfl .rfl .rfl .rfl id

theorem execFuncReinitDone_kept (x0 : Nat) (x1 : Nat) (x2 : List (Fin 130)) {x3 : State} (h3 : Kept q b x3) : OutKept q b (@execFuncReinitDone x0 x1 x2 x3) := by
  unfold execFuncReinitDone
  try dsimp only
  with_reducible repeat' first | assumption | apply tileTested_kept | apply restart_kept | apply finish_kept | apply out_next | exact out_fault _ | split | intro _ | apply foldl_kept | simp only [kept_mk] | exact set_mk (by assumption) .rfl .rfl .rfl .rfl .rfl .rfl .rfl id | refine set_mk ?_ .rfl .rfl .rfl .rfl .rfl .rfl .rfl id

theorem execDevReset_kept (x0 : Hdr) (x1 : BitVec 2) {x2 : State} (h2 : Kept q b x2) : OutKept q b (@execDevReset x0 x1 x2) := by
  unfold execDevReset
  try dsimp only
  with_reducible repeat' first | assumption | apply command_kept | apply startFrom_kept | apply deviceReset_kept | apply cancelAll_kept | apply answer_kept | apply out_next | exact out_fault _ | split | intro _ | apply foldl_kept

theorem execTrayPowerCycle_kept (x0 : Hdr) {x1 : State} (h1 : Kept q b x1) : OutKept q b (@execTrayPowerCycle x0 x1) := by
  unfold execTrayPowerCycle
  try dsimp only
  with_reducible repeat' first | assumption | apply command_kept | apply onBoot_kept | apply send_kept | apply answer_kept | apply out_next | exact out_fault _ | split | intro _ | apply foldl_kept

theorem execPowerCycleTimeout_kept {x0 : State} (h0 : Kept q b x0) : OutKept q b (@execPowerCycleTimeout x0) := by
  unfold execPowerCycleTimeout
  with_reducible repeat' first | assumption | apply report_kept | apply onBoot_kept | apply out_next | exact out_fault _ | split

theorem execMemRead_kept (x0 : Hdr) (x1 : Nat) (x2 : Nat) (x3 : List UnitErr) {x4 : State} (h4 : Kept q b x4) : OutKept q b (@execMemRead x0 x1 x2 x3 x4) := by
  unfold execMemRead
  try dsimp only
  with_reducible repeat' first | assumption | apply command_kept | apply answer_kept | apply answerBusy_kept | apply pend_kept | apply doMemRead_kept | apply out_next | exact out_fault _ | split | intro _ | apply foldl_kept

theorem execMemWrite_kept (x0 : Hdr) (x1 : Nat) (x2 : List Byte) {x3 : State} (h3 : Kept q b x3) : OutKept q b (@execMemWrite x0 x1 x2 x3) := by
  unfold execMemWrite
  try dsimp only
  with_reducible repeat' first | assumption | apply command_kept | apply answer_kept | apply answerBusy_kept | apply pend_kept | apply doMemWrite_kept | apply out_next | exact out_fault _ | split | intro _ | apply foldl_kept

theorem execCtlRead_kept (x0 : Hdr) (x1 : Nat) (x2 : Nat) {x3 : State} (h3 : Kept q b x3) : OutKept q b (@execCtlRead x0 x1 x2 x3) := by
  unfold execCtlRead
  try dsimp only
  with_reducible repeat' first | assumption | apply command_kept | apply answer_kept | apply ctlRead_kept | apply out_next | exact out_fault _ | split | intro _ | apply foldl_kept

end Sys2Proof.Machine
end

