-- ==== Sys2Proof/Laws/Keep7.lean ====
section
/-! SUPPORT. `Kept` for the operations and commands of the model, in the order in which they use each other: part 7 of 7. -/

namespace Sys2Proof.Machine

set_option linter.unusedSimpArgs false
set_option linter.unusedTactic false
set_option linter.unreachableTactic false

variable {q : Prop} {b : State}

theorem execProgramLoad_kept (x0 : Hdr) (x1 : Load) (x2 : List TileIx) (x3 : Nat) {x4 : State} (h4 : Kept q b x4) : OutKept q b (@execProgramLoad x0 x1 x2 x3 x4) := by
  unfold execProgramLoad
  try dsimp only
  with_reducible repeat' first | assumption | apply command_kept | apply answer_kept | apply loadData_kept | apply pend_kept | apply out_next | exact out_fault _ | split | intro _ | apply foldl_kept

theorem execTandemSet_kept (x0 : Hdr) (x1 : List Byte) (x2 : Nat) (x3 : Nat) (x4 : Nat) {x5 : State} (h5 : Kept q b x5) : OutKept q b (@execTandemSet x0 x1 x2 x3 x4 x5) := by
  unfold execTandemSet
  try dsimp only
  repeat' (first
    | with_reducible assumption
    | with_reducible apply command_kept
    | with_reducible apply answer_kept
    | with_reducible apply extend_kept
    | with_reducible apply on_step
    | with_reducible apply opt_some
    | with_reducible apply opt_none
    | with_reducible apply sub_app
    | with_reducible apply out_next
    | with_reducible apply out_fault
    | with_reducible apply out_refused
    | with_reducible apply foldl_kept
    | with_reducible apply foldl_kept1
    | with_reducible apply foldl_kept2
    | with_reducible apply foldl_kept21
    | with_reducible apply foldl_kept22
    | with_reducible exact HalOk.rfl
    | with_reducible exact HbmOk.rfl
    | with_reducible exact PwrOk.rfl
    | with_reducible exact HeatOk.rfl
    | with_reducible exact PkgOk.rfl
    | with_reducible exact StepOk.rfl
    | with_reducible exact FlashOk.rfl
    | with_reducible exact id
    | with_reducible refine HalOk.mk ?_ ?_ ?_ ?_
    | with_reducible refine HbmOk.mk ?_ ?_ ?_
    | with_reducible refine PwrOk.mk ?_ ?_
    | with_reducible refine HeatOk.mk ?_
    | with_reducible refine PkgOk.mk ?_ ?_
    | with_reducible refine StepOk.mk ?_
    | with_reducible refine FlashOk.mk ?_ ?_ ?_ ?_
    | exact id
    | with_reducible apply wf_upd
    | with_reducible apply wf_setList
    | with_reducible apply wf_copy
    | with_reducible apply wf_clear
    | decide
    | (simp only [setAt_length, List.length_map, List.length_zipIdx]; exact id)
    | split
    | intro _
    | dsimp only
    | with_reducible apply wf_foldl
    | with_reducible apply wf_set
    | simp only [kept_mk]
    | with_reducible refine set_mk ?_ ?_ ?_ ?_ ?_ ?_ ?_ ?_ ?_)

theorem execTagTableLoad_kept (x0 : Hdr) (x1 : Load) {x2 : State} (h2 : Kept q b x2) : OutKept q b (@execTagTableLoad x0 x1 x2) := by
  unfold execTagTableLoad
  try dsimp only
  with_reducible repeat' first | assumption | apply command_kept | apply answer_kept | apply loadData_kept | apply onRed_kept | apply extend_kept | apply out_next | exact out_fault _ | split | intro _ | apply foldl_kept

theorem execPageTableLoad_kept (x0 : Hdr) (x1 : Load) (x2 : Load) (x3 : Nat) (x4 : Nat) (x5 : Nat) (x6 : Nat) {x7 : State} (h7 : Kept q b x7) : OutKept q b (@execPageTableLoad x0 x1 x2 x3 x4 x5 x6 x7) := by
  unfold execPageTableLoad
  try dsimp only
  with_reducible repeat' first | assumption | apply command_kept | apply meetRange_kept | apply answer_kept | apply pend_kept | apply out_next | exact out_fault _ | split | intro _ | apply foldl_kept

theorem execPageSet_kept (x0 : Hdr) (x1 : BitVec 21) (x2 : BitVec 128) {x3 : State} (h3 : Kept q b x3) : OutKept q b (@execPageSet x0 x1 x2 x3) := by
  unfold execPageSet
  try dsimp only
  with_reducible repeat' first | assumption | apply command_kept | apply answer_kept | apply tierDone_kept | apply dropMove_kept | apply abandonFill_kept | apply onPage_kept | apply onTier_kept | apply out_next | exact out_fault _ | split | intro _ | apply foldl_kept

theorem execJobStart_kept (x0 : Hdr) {x1 : State} (h1 : Kept q b x1) : OutKept q b (@execJobStart x0 x1) := by
  unfold execJobStart
  try dsimp only
  with_reducible repeat' first | assumption | apply command_kept | apply answer_kept | apply toMembers_kept | apply openLedger_kept | apply out_next | exact out_fault _ | split | intro _ | apply foldl_kept

theorem execJobStop_kept (x0 : Hdr) {x1 : State} (h1 : Kept q b x1) : OutKept q b (@execJobStop x0 x1) := by
  unfold execJobStop
  try dsimp only
  with_reducible repeat' first | assumption | apply command_kept | apply answer_kept | apply toMembers_kept | apply onRed_kept | apply pend_kept | apply out_next | exact out_fault _ | split | intro _ | apply foldl_kept

theorem execJobRetry_kept (x0 : Hdr) {x1 : State} (h1 : Kept q b x1) : OutKept q b (@execJobRetry x0 x1) := by
  unfold execJobRetry
  try dsimp only
  with_reducible repeat' first | assumption | apply command_kept | apply answer_kept | apply toMembers_kept | apply onRed_kept | apply leadDecide_kept | apply out_next | exact out_fault _ | split | intro _ | apply foldl_kept

theorem execJobUnload_kept (x0 : Hdr) {x1 : State} (h1 : Kept q b x1) : OutKept q b (@execJobUnload x0 x1) := by
  unfold execJobUnload
  refine out_next (command_kept _ _ _ _ _ h1 fun c s h => answer_kept _ _ _ (set_job (onRed_kept _ (on_step (cancelJob_kept (clearCounts_kept (endTiles_kept h))) ?_)) (by decide)))
  exact ⟨fun _ => Nat.zero_lt_succ _⟩

theorem execTierPin_kept (x0 : Hdr) (x1 : List (BitVec 21)) (x2 : Bool) {x3 : State} (h3 : Kept q b x3) : OutKept q b (@execTierPin x0 x1 x2 x3) := by
  unfold execTierPin
  try dsimp only
  with_reducible repeat' first | assumption | apply command_kept | apply answer_kept | apply onPage_kept | apply keepPage_kept | apply out_next | exact out_fault _ | split | intro _ | apply foldl_kept

theorem execTierFlush_kept (x0 : Hdr) (x1 : Nat) (x2 : Nat) {x3 : State} (h3 : Kept q b x3) : OutKept q b (@execTierFlush x0 x1 x2 x3) := by
  unfold execTierFlush
  try dsimp only
  with_reducible repeat' first | assumption | apply command_kept | apply answer_kept | apply pend_kept | apply finish_kept | apply writeBack_kept | apply out_next | exact out_fault _ | split | intro _ | apply foldl_kept

theorem execTierBuddy_kept (x0 : Hdr) (x1 : Nat) (x2 : List (BitVec 21 × BitVec 64 × BitVec 32)) {x3 : State} (h3 : Kept q b x3) : OutKept q b (@execTierBuddy x0 x1 x2 x3) := by
  unfold execTierBuddy
  try dsimp only
  repeat' (first
    | with_reducible assumption
    | with_reducible apply command_kept
    | with_reducible apply answer_kept
    | with_reducible apply onFab_kept
    | with_reducible apply onPage_kept
    | with_reducible apply payOwed_kept
    | with_reducible apply onTier_kept
    | with_reducible apply reseedNext_kept
    | with_reducible apply on_hal
    | with_reducible apply opt_some
    | with_reducible apply opt_none
    | with_reducible apply sub_app
    | with_reducible apply out_next
    | with_reducible apply out_fault
    | with_reducible apply out_refused
    | with_reducible apply foldl_kept
    | with_reducible apply foldl_kept1
    | with_reducible apply foldl_kept2
    | with_reducible apply foldl_kept21
    | with_reducible apply foldl_kept22
    | with_reducible exact HalOk.rfl
    | with_reducible exact HbmOk.rfl
    | with_reducible exact PwrOk.rfl
    | with_reducible exact HeatOk.rfl
    | with_reducible exact PkgOk.rfl
    | with_reducible exact StepOk.rfl
    | with_reducible exact FlashOk.rfl
    | with_reducible exact id
    | with_reducible refine HalOk.mk ?_ ?_ ?_ ?_
    | with_reducible refine HbmOk.mk ?_ ?_ ?_
    | with_reducible refine PwrOk.mk ?_ ?_
    | with_reducible refine HeatOk.mk ?_
    | with_reducible refine PkgOk.mk ?_ ?_
    | with_reducible refine StepOk.mk ?_
    | with_reducible refine FlashOk.mk ?_ ?_ ?_ ?_
    | exact id
    | with_reducible apply wf_upd
    | with_reducible apply wf_setList
    | with_reducible apply wf_copy
    | with_reducible apply wf_clear
    | decide
    | (simp only [setAt_length, List.length_map, List.length_zipIdx]; exact id)
    | split
    | intro _
    | dsimp only
    | with_reducible apply wf_foldl
    | with_reducible apply wf_set
    | simp only [kept_mk]
    | with_reducible refine set_mk ?_ ?_ ?_ ?_ ?_ ?_ ?_ ?_ ?_)

theorem execSnapshotShip_kept (x0 : Hdr) (x1 : Nat) (x2 : Nat) (x3 : Nat) (x4 : Nat) (x5 : Nat) {x6 : State} (h6 : Kept q b x6) : OutKept q b (@execSnapshotShip x0 x1 x2 x3 x4 x5 x6) := by
  unfold execSnapshotShip
  try dsimp only
  repeat' (first
    | with_reducible assumption
    | with_reducible apply command_kept
    | with_reducible apply answer_kept
    | with_reducible apply pend_kept
    | with_reducible apply on_step
    | with_reducible apply opt_some
    | with_reducible apply opt_none
    | with_reducible apply sub_app
    | with_reducible apply out_next
    | with_reducible apply out_fault
    | with_reducible apply out_refused
    | with_reducible apply foldl_kept
    | with_reducible apply foldl_kept1
    | with_reducible apply foldl_kept2
    | with_reducible apply foldl_kept21
    | with_reducible apply foldl_kept22
    | with_reducible exact HalOk.rfl
    | with_reducible exact HbmOk.rfl
    | with_reducible exact PwrOk.rfl
    | with_reducible exact HeatOk.rfl
    | with_reducible exact PkgOk.rfl
    | with_reducible exact StepOk.rfl
    | with_reducible exact FlashOk.rfl
    | with_reducible exact id
    | with_reducible refine HalOk.mk ?_ ?_ ?_ ?_
    | with_reducible refine HbmOk.mk ?_ ?_ ?_
    | with_reducible refine PwrOk.mk ?_ ?_
    | with_reducible refine HeatOk.mk ?_
    | with_reducible refine PkgOk.mk ?_ ?_
    | with_reducible refine StepOk.mk ?_
    | with_reducible refine FlashOk.mk ?_ ?_ ?_ ?_
    | exact id
    | with_reducible apply wf_upd
    | with_reducible apply wf_setList
    | with_reducible apply wf_copy
    | with_reducible apply wf_clear
    | decide
    | (simp only [setAt_length, List.length_map, List.length_zipIdx]; exact id)
    | split
    | intro _
    | dsimp only
    | with_reducible apply wf_foldl
    | with_reducible apply wf_set
    | simp only [kept_mk]
    | with_reducible refine set_mk ?_ ?_ ?_ ?_ ?_ ?_ ?_ ?_ ?_)

theorem execParamSet_kept (x0 : Hdr) (x1 : List Byte) {x2 : State} (h2 : Kept q b x2) : OutKept q b (@execParamSet x0 x1 x2) := by
  unfold execParamSet
  try dsimp only
  with_reducible repeat' first | assumption | apply command_kept | apply answer_kept | apply param1_kept | apply param2_kept | apply extend_kept | apply out_next | exact out_fault _ | split | intro _ | apply foldl_kept

theorem execLogRead_kept (x0 : Hdr) (x1 : List Byte) {x2 : State} (h2 : Kept q b x2) : OutKept q b (@execLogRead x0 x1 x2) := by
  unfold execLogRead
  try dsimp only
  with_reducible repeat' first | assumption | apply command_kept | apply answer_kept | apply out_next | exact out_fault _ | split | intro _ | apply foldl_kept | simp only [kept_mk] | exact set_mk (by assumption) .rfl .rfl .rfl .rfl .rfl .rfl .rfl id | refine set_mk ?_ .rfl .rfl .rfl .rfl .rfl .rfl .rfl id

theorem execLogAck_kept (x0 : Hdr) (x1 : List Byte) {x2 : State} (h2 : Kept q b x2) : OutKept q b (@execLogAck x0 x1 x2) := by
  unfold execLogAck
  try dsimp only
  with_reducible repeat' first | assumption | apply command_kept | apply answer_kept | apply out_next | exact out_fault _ | split | intro _ | apply foldl_kept | simp only [kept_mk] | exact set_mk (by assumption) .rfl .rfl .rfl .rfl .rfl .rfl .rfl id | refine set_mk ?_ .rfl .rfl .rfl .rfl .rfl .rfl .rfl id

theorem execInfo_kept (x0 : Hdr) {x1 : State} (h1 : Kept q b x1) : OutKept q b (@execInfo x0 x1) := by
  unfold execInfo
  try dsimp only
  with_reducible repeat' first | assumption | apply command_kept | apply answer_kept | apply out_next | exact out_fault _ | split | intro _ | apply foldl_kept

theorem execPeriscopeSet_kept (x0 : Hdr) (x1 : List Byte) {x2 : State} (h2 : Kept q b x2) : OutKept q b (@execPeriscopeSet x0 x1 x2) := by
  unfold execPeriscopeSet
  try dsimp only
  with_reducible repeat' first | assumption | apply command_kept | apply answer_kept | apply arm_kept | apply stopPeriscope_kept | apply onObs_kept | apply free_kept | apply out_next | exact out_fault _ | split | intro _ | apply foldl_kept

theorem execLoupeReport_kept (x0 : Hdr) (x1 : List Byte) {x2 : State} (h2 : Kept q b x2) : OutKept q b (@execLoupeReport x0 x1 x2) := by
  unfold execLoupeReport
  try dsimp only
  with_reducible repeat' first | assumption | apply command_kept | apply answer_kept | apply answerPart_kept | apply onObs_kept | apply pend_kept | apply out_next | exact out_fault _ | split | intro _ | apply foldl_kept

theorem execLoupePass2_kept (x0 : Nat) (x1 : Nat) {x2 : State} (h2 : Kept q b x2) : OutKept q b (@execLoupePass2 x0 x1 x2) := by
  unfold execLoupePass2
  try dsimp only
  with_reducible repeat' first | assumption | apply onObs_kept | apply finishDoc_kept | apply onSession_kept | apply out_next | exact out_fault _ | split

theorem execQuote_kept (x0 : Hdr) (x1 : List Byte) {x2 : State} (h2 : Kept q b x2) : OutKept q b (@execQuote x0 x1 x2) := by
  unfold execQuote
  try dsimp only
  with_reducible repeat' first | assumption | apply command_kept | apply answer_kept | apply answerPart_kept | apply pend_kept | apply quoteRead_kept | apply out_next | exact out_fault _ | split | intro _ | apply foldl_kept

theorem execQuoteSigned_kept {x0 : State} (h0 : Kept q b x0) : OutKept q b (@execQuoteSigned x0) := by
  unfold execQuoteSigned
  try dsimp only
  with_reducible repeat' first | assumption | apply onBoot_kept | apply finishDoc_kept | apply onSession_kept | apply out_next | exact out_fault _ | split

theorem execFwStage_kept (x0 : Hdr) (x1 : List Byte) {x2 : State} (h2 : Kept q b x2) : OutKept q b (@execFwStage x0 x1 x2) := by
  unfold execFwStage
  try dsimp only
  with_reducible repeat' first | assumption | apply command_kept | apply answer_kept | apply loadData_kept | apply putImage_kept | apply pend_kept | apply out_next | exact out_fault _ | split | intro _ | apply foldl_kept

theorem execFwStageDone_kept (x0 : Bool) {x1 : State} (h1 : Kept q b x1) : OutKept q b (@execFwStageDone x0 x1) := by
  unfold execFwStageDone
  with_reducible repeat' first | assumption | apply finish_kept | apply putImage_kept | apply out_next | exact out_fault _ | split

theorem execFwActivate_kept (x0 : Hdr) (x1 : List Byte) (x2 : BitVec 2) {x3 : State} (h3 : Kept q b x3) : OutKept q b (@execFwActivate x0 x1 x2 x3) := by
  unfold execFwActivate
  try dsimp only
  repeat' (first
    | with_reducible assumption
    | with_reducible apply command_kept
    | with_reducible apply answer_kept
    | with_reducible apply cancelAll_kept
    | with_reducible apply startFrom_kept
    | with_reducible apply deviceReset_kept
    | with_reducible apply opt_some
    | with_reducible apply opt_none
    | with_reducible apply sub_app
    | with_reducible apply out_next
    | with_reducible apply out_fault
    | with_reducible apply out_refused
    | with_reducible apply foldl_kept
    | with_reducible apply foldl_kept1
    | with_reducible apply foldl_kept2
    | with_reducible apply foldl_kept21
    | with_reducible apply foldl_kept22
    | with_reducible exact HalOk.rfl
    | with_reducible exact HbmOk.rfl
    | with_reducible exact PwrOk.rfl
    | with_reducible exact HeatOk.rfl
    | with_reducible exact PkgOk.rfl
    | with_reducible exact StepOk.rfl
    | with_reducible exact FlashOk.rfl
    | with_reducible exact id
    | with_reducible refine HalOk.mk ?_ ?_ ?_ ?_
    | with_reducible refine HbmOk.mk ?_ ?_ ?_
    | with_reducible refine PwrOk.mk ?_ ?_
    | with_reducible refine HeatOk.mk ?_
    | with_reducible refine PkgOk.mk ?_ ?_
    | with_reducible refine StepOk.mk ?_
    | with_reducible refine FlashOk.mk ?_ ?_ ?_ ?_
    | exact id
    | with_reducible apply wf_upd
    | with_reducible apply wf_setList
    | with_reducible apply wf_copy
    | with_reducible apply wf_clear
    | decide
    | (simp only [setAt_length, List.length_map, List.length_zipIdx]; exact id)
    | split
    | intro _
    | dsimp only
    | with_reducible apply wf_foldl
    | with_reducible apply wf_set
    | simp only [kept_mk]
    | with_reducible refine set_mk ?_ ?_ ?_ ?_ ?_ ?_ ?_ ?_ ?_)

theorem execDevNumberSet_kept (x0 : Hdr) (x1 : List Byte) (x2 : Nat) {x3 : State} (h3 : Kept q b x3) : OutKept q b (@execDevNumberSet x0 x1 x2 x3) := by
  unfold execDevNumberSet
  try dsimp only
  with_reducible repeat' first | assumption | apply command_kept | apply answer_kept | apply onFab_kept | apply lldpSoon_kept | apply extend_kept | apply out_next | exact out_fault _ | split | intro _ | apply foldl_kept

theorem execTeamLoad_kept (x0 : Hdr) (x1 : Load) (x2 : Team) {x3 : State} (h3 : Kept q b x3) : OutKept q b (@execTeamLoad x0 x1 x2 x3) := by
  unfold execTeamLoad
  try dsimp only
  with_reducible repeat' first | assumption | apply command_kept | apply loadData_kept | apply answer_kept | apply onRed_kept | apply extend_kept | apply out_next | exact out_fault _ | split | intro _ | apply foldl_kept

theorem execStandbySet_kept (x0 : Hdr) (x1 : Nat) {x2 : State} (h2 : Kept q b x2) : OutKept q b (@execStandbySet x0 x1 x2) := by
  unfold execStandbySet
  try dsimp only
  with_reducible repeat' first | assumption | apply command_kept | apply answer_kept | apply onRed_kept | apply askStandby_kept | apply out_next | exact out_fault _ | split | intro _ | apply foldl_kept

theorem execRegionTableLoad_kept (x0 : Hdr) (x1 : List Byte) (x2 : Load) {x3 : State} (h3 : Kept q b x3) : OutKept q b (@execRegionTableLoad x0 x1 x2 x3) := by
  unfold execRegionTableLoad
  refine out_next (command_kept _ _ _ _ _ h3 fun c s h => ?_)
  split
  · exact answer_kept _ _ _ h
  · have hr := loadData_kept x2.src x2.len x2.check h
    generalize State.loadData s x2.src x2.len x2.check = r at hr ⊢
    dsimp only
    split
    · exact answer_kept _ _ _ hr
    · split
      · exact answer_kept _ _ _ hr
      · exact answer_kept _ _ _ (extend_kept _ _ _ (onFab_kept _ hr))

theorem execRegionSet_kept (x0 : Hdr) (x1 : Nat) (x2 : List Byte) {x3 : State} (h3 : Kept q b x3) : OutKept q b (@execRegionSet x0 x1 x2 x3) := by
  unfold execRegionSet
  try dsimp only
  with_reducible repeat' first | assumption | apply command_kept | apply answer_kept | apply onFab_kept | apply out_next | exact out_fault _ | split | intro _ | apply foldl_kept

theorem execPathTableLoad_kept (x0 : Hdr) (x1 : List Byte) (x2 : Load) (x3 : Nat) {x4 : State} (h4 : Kept q b x4) : OutKept q b (@execPathTableLoad x0 x1 x2 x3 x4) := by
  unfold execPathTableLoad
  try dsimp only
  with_reducible repeat' first | assumption | apply command_kept | apply meetRange_kept | apply answer_kept | apply onFab_kept | apply hbmCopy_kept | apply extend_kept | apply out_next | exact out_fault _ | split | intro _ | apply foldl_kept

theorem execGroupLoad_kept (x0 : Hdr) (x1 : List Byte) (x2 : Nat) (x3 : Nat) (x4 : Nat) (x5 : List Nat) {x6 : State} (h6 : Kept q b x6) : OutKept q b (@execGroupLoad x0 x1 x2 x3 x4 x5 x6) := by
  unfold execGroupLoad
  try dsimp only
  with_reducible repeat' first | assumption | apply command_kept | apply answer_kept | apply onFab_kept | apply extend_kept | apply out_next | exact out_fault _ | split | intro _ | apply foldl_kept

theorem execPortSet_kept (x0 : Hdr) (x1 : List Byte) {x2 : State} (h2 : Kept q b x2) : OutKept q b (@execPortSet x0 x1 x2) := by
  unfold execPortSet
  try dsimp only
  with_reducible repeat' first | assumption | apply command_kept | apply answer_kept | apply onPort_kept | apply lldpSoon_kept | apply out_next | exact out_fault _ | split | intro _ | apply foldl_kept

theorem execPortReset_kept (x0 : Hdr) (x1 : Nat) {x2 : State} (h2 : Kept q b x2) : OutKept q b (@execPortReset x0 x1 x2) := by
  unfold execPortReset
  try dsimp only
  with_reducible repeat' first | assumption | apply command_kept | apply answer_kept | apply portReset_kept | apply pend_kept | apply finish_kept | apply out_next | exact out_fault _ | split | intro _ | apply foldl_kept

theorem execEvcSourceAssert_kept (x0 : EvcSource) {x1 : State} (h1 : Kept q b x1) : OutKept q b (@execEvcSourceAssert x0 x1) := by
  unfold execEvcSourceAssert
  try dsimp only
  repeat' (first
    | with_reducible assumption
    | with_reducible apply wakeCore_kept
    | with_reducible apply onCore_kept
    | with_reducible apply on_hal
    | with_reducible apply opt_some
    | with_reducible apply opt_none
    | with_reducible apply sub_app
    | with_reducible apply out_next
    | with_reducible apply out_fault
    | with_reducible apply out_refused
    | with_reducible apply foldl_kept
    | with_reducible apply foldl_kept1
    | with_reducible apply foldl_kept2
    | with_reducible apply foldl_kept21
    | with_reducible apply foldl_kept22
    | with_reducible exact HalOk.rfl
    | with_reducible exact HbmOk.rfl
    | with_reducible exact PwrOk.rfl
    | with_reducible exact HeatOk.rfl
    | with_reducible exact PkgOk.rfl
    | with_reducible exact StepOk.rfl
    | with_reducible exact FlashOk.rfl
    | with_reducible exact id
    | with_reducible refine HalOk.mk ?_ ?_ ?_ ?_
    | with_reducible refine HbmOk.mk ?_ ?_ ?_
    | with_reducible refine PwrOk.mk ?_ ?_
    | with_reducible refine HeatOk.mk ?_
    | with_reducible refine PkgOk.mk ?_ ?_
    | with_reducible refine StepOk.mk ?_
    | with_reducible refine FlashOk.mk ?_ ?_ ?_ ?_
    | exact id
    | with_reducible apply wf_upd
    | with_reducible apply wf_setList
    | with_reducible apply wf_copy
    | with_reducible apply wf_clear
    | decide
    | (simp only [setAt_length, List.length_map, List.length_zipIdx]; exact id)
    | split
    | intro _
    | dsimp only
    | with_reducible apply wf_foldl
    | with_reducible apply wf_set
    | simp only [kept_mk]
    | with_reducible refine set_mk ?_ ?_ ?_ ?_ ?_ ?_ ?_ ?_ ?_)

theorem execEvcRouteWrite_kept (x0 : Fin 512) (x1 : BitVec 32) {x2 : State} (h2 : Kept q b x2) : OutKept q b (@execEvcRouteWrite x0 x1 x2) := by
  unfold execEvcRouteWrite
  try dsimp only
  repeat' (first
    | with_reducible assumption
    | with_reducible apply wakeCore_kept
    | with_reducible apply on_hal
    | with_reducible apply opt_some
    | with_reducible apply opt_none
    | with_reducible apply sub_app
    | with_reducible apply out_next
    | with_reducible apply out_fault
    | with_reducible apply out_refused
    | with_reducible apply foldl_kept
    | with_reducible apply foldl_kept1
    | with_reducible apply foldl_kept2
    | with_reducible apply foldl_kept21
    | with_reducible apply foldl_kept22
    | with_reducible exact HalOk.rfl
    | with_reducible exact HbmOk.rfl
    | with_reducible exact PwrOk.rfl
    | with_reducible exact HeatOk.rfl
    | with_reducible exact PkgOk.rfl
    | with_reducible exact StepOk.rfl
    | with_reducible exact FlashOk.rfl
    | with_reducible exact id
    | with_reducible refine HalOk.mk ?_ ?_ ?_ ?_
    | with_reducible refine HbmOk.mk ?_ ?_ ?_
    | with_reducible refine PwrOk.mk ?_ ?_
    | with_reducible refine HeatOk.mk ?_
    | with_reducible refine PkgOk.mk ?_ ?_
    | with_reducible refine StepOk.mk ?_
    | with_reducible refine FlashOk.mk ?_ ?_ ?_ ?_
    | exact id
    | with_reducible apply wf_upd
    | with_reducible apply wf_setList
    | with_reducible apply wf_copy
    | with_reducible apply wf_clear
    | decide
    | (simp only [setAt_length, List.length_map, List.length_zipIdx]; exact id)
    | split
    | intro _
    | dsimp only
    | with_reducible apply wf_foldl
    | with_reducible apply wf_set
    | simp only [kept_mk]
    | with_reducible refine set_mk ?_ ?_ ?_ ?_ ?_ ?_ ?_ ?_ ?_)

theorem execCorePowerDown_kept (x0 : Fin 5) {x1 : State} (h1 : Kept q b x1) : OutKept q b (@execCorePowerDown x0 x1) := by
  unfold execCorePowerDown
  with_reducible repeat' first | assumption | apply onCore_kept | apply out_next | exact out_fault _ | split

theorem execCoreWake_kept (x0 : Fin 5) (x1 : Bool) {x2 : State} (h2 : Kept q b x2) : OutKept q b (@execCoreWake x0 x1 x2) := by
  unfold execCoreWake
  with_reducible repeat' first | assumption | apply onCore_kept | apply draw_kept | apply report_kept | apply out_next | exact out_fault _ | split

theorem execVinSample_kept (x0 : Nat) {x1 : State} (h1 : Kept q b x1) : OutKept q b (@execVinSample x0 x1) := by
  unfold execVinSample
  try dsimp only
  repeat' (first
    | with_reducible assumption
    | with_reducible apply onBoot_kept
    | with_reducible apply vinLost_kept
    | with_reducible apply raise_kept
    | with_reducible apply forceOn_kept
    | with_reducible apply forceOff_kept
    | with_reducible apply on_pwr
    | with_reducible apply opt_some
    | with_reducible apply opt_none
    | with_reducible apply sub_app
    | with_reducible apply out_next
    | with_reducible apply out_fault
    | with_reducible apply out_refused
    | with_reducible apply foldl_kept
    | with_reducible apply foldl_kept1
    | with_reducible apply foldl_kept2
    | with_reducible apply foldl_kept21
    | with_reducible apply foldl_kept22
    | with_reducible exact HalOk.rfl
    | with_reducible exact HbmOk.rfl
    | with_reducible exact PwrOk.rfl
    | with_reducible exact HeatOk.rfl
    | with_reducible exact PkgOk.rfl
    | with_reducible exact StepOk.rfl
    | with_reducible exact FlashOk.rfl
    | with_reducible exact id
    | with_reducible refine HalOk.mk ?_ ?_ ?_ ?_
    | with_reducible refine HbmOk.mk ?_ ?_ ?_
    | with_reducible refine PwrOk.mk ?_ ?_
    | with_reducible refine HeatOk.mk ?_
    | with_reducible refine PkgOk.mk ?_ ?_
    | with_reducible refine StepOk.mk ?_
    | with_reducible refine FlashOk.mk ?_ ?_ ?_ ?_
    | exact id
    | with_reducible apply wf_upd
    | with_reducible apply wf_setList
    | with_reducible apply wf_copy
    | with_reducible apply wf_clear
    | decide
    | (simp only [setAt_length, List.length_map, List.length_zipIdx]; exact id)
    | split
    | intro _
    | dsimp only
    | with_reducible apply wf_foldl
    | with_reducible apply wf_set
    | simp only [kept_mk]
    | with_reducible refine set_mk ?_ ?_ ?_ ?_ ?_ ?_ ?_ ?_ ?_)

theorem execPowerSample_kept (x0 : Nat) (x1 : Nat) (x2 : List (Nat × Nat)) {x3 : State} (h3 : Kept q b x3) : OutKept q b (@execPowerSample x0 x1 x2 x3) := by
  unfold execPowerSample
  try dsimp only
  repeat' (first
    | with_reducible assumption
    | with_reducible apply regionSample_kept
    | with_reducible apply on_pwr
    | with_reducible apply opt_some
    | with_reducible apply opt_none
    | with_reducible apply sub_app
    | with_reducible apply out_next
    | with_reducible apply out_fault
    | with_reducible apply out_refused
    | with_reducible apply foldl_kept
    | with_reducible apply foldl_kept1
    | with_reducible apply foldl_kept2
    | with_reducible apply foldl_kept21
    | with_reducible apply foldl_kept22
    | with_reducible exact HalOk.rfl
    | with_reducible exact HbmOk.rfl
    | with_reducible exact PwrOk.rfl
    | with_reducible exact HeatOk.rfl
    | with_reducible exact PkgOk.rfl
    | with_reducible exact StepOk.rfl
    | with_reducible exact FlashOk.rfl
    | with_reducible exact id
    | with_reducible refine HalOk.mk ?_ ?_ ?_ ?_
    | with_reducible refine HbmOk.mk ?_ ?_ ?_
    | with_reducible refine PwrOk.mk ?_ ?_
    | with_reducible refine HeatOk.mk ?_
    | with_reducible refine PkgOk.mk ?_ ?_
    | with_reducible refine StepOk.mk ?_
    | with_reducible refine FlashOk.mk ?_ ?_ ?_ ?_
    | exact id
    | with_reducible apply wf_upd
    | with_reducible apply wf_setList
    | with_reducible apply wf_copy
    | with_reducible apply wf_clear
    | decide
    | (simp only [setAt_length, List.length_map, List.length_zipIdx]; exact id)
    | split
    | intro _
    | dsimp only
    | with_reducible apply wf_foldl
    | with_reducible apply wf_set
    | simp only [kept_mk]
    | with_reducible refine set_mk ?_ ?_ ?_ ?_ ?_ ?_ ?_ ?_ ?_)

theorem execPhaseCheck_kept (x0 : RegionIx) (x1 : List (Fin 24)) {x2 : State} (h2 : Kept q b x2) : OutKept q b (@execPhaseCheck x0 x1 x2) := by
  unfold execPhaseCheck
  try dsimp only
  with_reducible repeat' first | assumption | apply phaseFault_kept | apply out_next | exact out_fault _ | split | intro _ | apply foldl_kept

theorem execPhaseReenable_kept (x0 : RegionIx) (x1 : Fin 24) {x2 : State} (h2 : Kept q b x2) : OutKept q b (@execPhaseReenable x0 x1 x2) := by
  unfold execPhaseReenable
  try dsimp only
  with_reducible repeat' first | assumption | apply onPr_kept | apply out_next | exact out_fault _ | split

theorem execReinInterval_kept {x0 : State} (h0 : Kept q b x0) : OutKept q b (@execReinInterval x0) := by
  unfold execReinInterval
  try dsimp only
  repeat' (first
    | with_reducible assumption
    | with_reducible apply request_kept
    | with_reducible apply retarget_kept
    | with_reducible apply allot_kept
    | with_reducible apply on_pwr
    | with_reducible apply opt_some
    | with_reducible apply opt_none
    | with_reducible apply sub_app
    | with_reducible apply out_next
    | with_reducible apply out_fault
    | with_reducible apply out_refused
    | with_reducible apply foldl_kept
    | with_reducible apply foldl_kept1
    | with_reducible apply foldl_kept2
    | with_reducible apply foldl_kept21
    | with_reducible apply foldl_kept22
    | with_reducible exact HalOk.rfl
    | with_reducible exact HbmOk.rfl
    | with_reducible exact PwrOk.rfl
    | with_reducible exact HeatOk.rfl
    | with_reducible exact PkgOk.rfl
    | with_reducible exact StepOk.rfl
    | with_reducible exact FlashOk.rfl
    | with_reducible exact id
    | with_reducible refine HalOk.mk ?_ ?_ ?_ ?_
    | with_reducible refine HbmOk.mk ?_ ?_ ?_
    | with_reducible refine PwrOk.mk ?_ ?_
    | with_reducible refine HeatOk.mk ?_
    | with_reducible refine PkgOk.mk ?_ ?_
    | with_reducible refine StepOk.mk ?_
    | with_reducible refine FlashOk.mk ?_ ?_ ?_ ?_
    | exact id
    | with_reducible apply wf_upd
    | with_reducible apply wf_setList
    | with_reducible apply wf_copy
    | with_reducible apply wf_clear
    | decide
    | (simp only [setAt_length, List.length_map, List.length_zipIdx]; exact id)
    | split
    | intro _
    | dsimp only
    | with_reducible apply wf_foldl
    | with_reducible apply wf_set
    | simp only [kept_mk]
    | with_reducible refine set_mk ?_ ?_ ?_ ?_ ?_ ?_ ?_ ?_ ?_)

theorem execFastLimiter_kept (x0 : Nat) {x1 : State} (h1 : Kept q b x1) : OutKept q b (@execFastLimiter x0 x1) := by
  unfold execFastLimiter
  try dsimp only
  repeat' (first
    | with_reducible assumption
    | with_reducible apply on_pwr
    | with_reducible apply opt_some
    | with_reducible apply opt_none
    | with_reducible apply sub_app
    | with_reducible apply out_next
    | with_reducible apply out_fault
    | with_reducible apply out_refused
    | with_reducible apply foldl_kept
    | with_reducible apply foldl_kept1
    | with_reducible apply foldl_kept2
    | with_reducible apply foldl_kept21
    | with_reducible apply foldl_kept22
    | with_reducible exact HalOk.rfl
    | with_reducible exact HbmOk.rfl
    | with_reducible exact PwrOk.rfl
    | with_reducible exact HeatOk.rfl
    | with_reducible exact PkgOk.rfl
    | with_reducible exact StepOk.rfl
    | with_reducible exact FlashOk.rfl
    | with_reducible exact id
    | with_reducible refine HalOk.mk ?_ ?_ ?_ ?_
    | with_reducible refine HbmOk.mk ?_ ?_ ?_
    | with_reducible refine PwrOk.mk ?_ ?_
    | with_reducible refine HeatOk.mk ?_
    | with_reducible refine PkgOk.mk ?_ ?_
    | with_reducible refine StepOk.mk ?_
    | with_reducible refine FlashOk.mk ?_ ?_ ?_ ?_
    | exact id
    | with_reducible apply wf_upd
    | with_reducible apply wf_setList
    | with_reducible apply wf_copy
    | with_reducible apply wf_clear
    | decide
    | (simp only [setAt_length, List.length_map, List.length_zipIdx]; exact id)
    | split
    | intro _
    | dsimp only
    | with_reducible apply wf_foldl
    | with_reducible apply wf_set
    | simp only [kept_mk]
    | with_reducible refine set_mk ?_ ?_ ?_ ?_ ?_ ?_ ?_ ?_ ?_)

theorem execVlogicReport_kept (x0 : RegionIx) {x1 : State} (h1 : Kept q b x1) : OutKept q b (@execVlogicReport x0 x1) := by
  unfold execVlogicReport
  try dsimp only
  repeat' (first
    | with_reducible assumption
    | with_reducible apply on_pwr
    | with_reducible apply opt_some
    | with_reducible apply opt_none
    | with_reducible apply sub_app
    | with_reducible apply out_next
    | with_reducible apply out_fault
    | with_reducible apply out_refused
    | with_reducible apply foldl_kept
    | with_reducible apply foldl_kept1
    | with_reducible apply foldl_kept2
    | with_reducible apply foldl_kept21
    | with_reducible apply foldl_kept22
    | with_reducible exact HalOk.rfl
    | with_reducible exact HbmOk.rfl
    | with_reducible exact PwrOk.rfl
    | with_reducible exact HeatOk.rfl
    | with_reducible exact PkgOk.rfl
    | with_reducible exact StepOk.rfl
    | with_reducible exact FlashOk.rfl
    | with_reducible exact id
    | with_reducible refine HalOk.mk ?_ ?_ ?_ ?_
    | with_reducible refine HbmOk.mk ?_ ?_ ?_
    | with_reducible refine PwrOk.mk ?_ ?_
    | with_reducible refine HeatOk.mk ?_
    | with_reducible refine PkgOk.mk ?_ ?_
    | with_reducible refine StepOk.mk ?_
    | with_reducible refine FlashOk.mk ?_ ?_ ?_ ?_
    | exact id
    | with_reducible apply wf_upd
    | with_reducible apply wf_setList
    | with_reducible apply wf_copy
    | with_reducible apply wf_clear
    | decide
    | (simp only [setAt_length, List.length_map, List.length_zipIdx]; exact id)
    | split
    | intro _
    | dsimp only
    | with_reducible apply wf_foldl
    | with_reducible apply wf_set
    | simp only [kept_mk]
    | with_reducible refine set_mk ?_ ?_ ?_ ?_ ?_ ?_ ?_ ?_ ?_)

theorem execClockChange_kept {x0 : State} (h0 : Kept q b x0) : OutKept q b (@execClockChange x0) := by
  unfold execClockChange
  try dsimp only
  repeat' (first
    | with_reducible assumption
    | with_reducible apply retarget_kept
    | with_reducible apply setVolts_kept
    | with_reducible apply on_pwr
    | with_reducible apply opt_some
    | with_reducible apply opt_none
    | with_reducible apply sub_app
    | with_reducible apply out_next
    | with_reducible apply out_fault
    | with_reducible apply out_refused
    | with_reducible apply foldl_kept
    | with_reducible apply foldl_kept1
    | with_reducible apply foldl_kept2
    | with_reducible apply foldl_kept21
    | with_reducible apply foldl_kept22
    | with_reducible exact HalOk.rfl
    | with_reducible exact HbmOk.rfl
    | with_reducible exact PwrOk.rfl
    | with_reducible exact HeatOk.rfl
    | with_reducible exact PkgOk.rfl
    | with_reducible exact StepOk.rfl
    | with_reducible exact FlashOk.rfl
    | with_reducible exact id
    | with_reducible refine HalOk.mk ?_ ?_ ?_ ?_
    | with_reducible refine HbmOk.mk ?_ ?_ ?_
    | with_reducible refine PwrOk.mk ?_ ?_
    | with_reducible refine HeatOk.mk ?_
    | with_reducible refine PkgOk.mk ?_ ?_
    | with_reducible refine StepOk.mk ?_
    | with_reducible refine FlashOk.mk ?_ ?_ ?_ ?_
    | exact id
    | with_reducible apply wf_upd
    | with_reducible apply wf_setList
    | with_reducible apply wf_copy
    | with_reducible apply wf_clear
    | decide
    | (simp only [setAt_length, List.length_map, List.length_zipIdx]; exact id)
    | split
    | intro _
    | dsimp only
    | with_reducible apply wf_foldl
    | with_reducible apply wf_set
    | simp only [kept_mk]
    | with_reducible refine set_mk ?_ ?_ ?_ ?_ ?_ ?_ ?_ ?_ ?_)

theorem execDroopTrip_kept (x0 : RegionIx) (x1 : SlotIx) {x2 : State} (h2 : Kept q b x2) : OutKept q b (@execDroopTrip x0 x1 x2) := by
  unfold execDroopTrip
  with_reducible repeat' first | assumption | apply onPr_kept | apply onDie_kept | apply out_next | exact out_fault _ | split

theorem execDroopClear_kept (x0 : RegionIx) (x1 : SlotIx) {x2 : State} (h2 : Kept q b x2) : OutKept q b (@execDroopClear x0 x1 x2) := by
  unfold execDroopClear
  with_reducible repeat' first | assumption | apply onDie_kept | apply out_next | exact out_fault _ | split

theorem execStretchReturn_kept (x0 : DieIx) {x1 : State} (h1 : Kept q b x1) : OutKept q b (@execStretchReturn x0 x1) := by
  unfold execStretchReturn
  try dsimp only
  with_reducible repeat' first | assumption | apply onDie_kept | apply out_next | exact out_fault _ | split

theorem execVminRead_kept (x0 : RegionIx) {x1 : State} (h1 : Kept q b x1) : OutKept q b (@execVminRead x0 x1) := by
  unfold execVminRead
  with_reducible repeat' first | assumption | apply vminRead_kept | apply out_next | exact out_fault _ | split

theorem execRegionAdmitTest_kept (x0 : RegionIx) {x1 : State} (h1 : Kept q b x1) : OutKept q b (@execRegionAdmitTest x0 x1) := by
  unfold execRegionAdmitTest
  with_reducible repeat' first | assumption | apply onPr_kept | apply out_next | exact out_fault _ | split

theorem execRegionPowerOnDone_kept (x0 : RegionIx) {x1 : State} (h1 : Kept q b x1) : OutKept q b (@execRegionPowerOnDone x0 x1) := by
  unfold execRegionPowerOnDone
  try dsimp only
  with_reducible repeat' first | assumption | apply seedSlot_kept | apply onTile_kept | apply onPr_kept | apply startRegion_kept | apply out_next | exact out_fault _ | split | intro _ | apply foldl_kept

theorem execRegionDefer_kept (x0 : RegionIx) {x1 : State} (h1 : Kept q b x1) : OutKept q b (@execRegionDefer x0 x1) := by
  unfold execRegionDefer
  with_reducible repeat' first | assumption | apply onPr_kept | apply raise_kept | apply out_next | exact out_fault _ | split

theorem execRegionPowerOff_kept (x0 : RegionIx) {x1 : State} (h1 : Kept q b x1) : OutKept q b (@execRegionPowerOff x0 x1) := by
  unfold execRegionPowerOff
  with_reducible repeat' first | assumption | apply regionOff_kept | apply out_next | exact out_fault _ | split

theorem execVrAlertFall_kept {x0 : State} (h0 : Kept q b x0) : OutKept q b (@execVrAlertFall x0) := by
  unfold execVrAlertFall
  try dsimp only
  repeat' (first
    | with_reducible assumption
    | with_reducible apply alert_kept
    | with_reducible apply on_pwr
    | with_reducible apply opt_some
    | with_reducible apply opt_none
    | with_reducible apply sub_app
    | with_reducible apply out_next
    | with_reducible apply out_fault
    | with_reducible apply out_refused
    | with_reducible apply foldl_kept
    | with_reducible apply foldl_kept1
    | with_reducible apply foldl_kept2
    | with_reducible apply foldl_kept21
    | with_reducible apply foldl_kept22
    | with_reducible exact HalOk.rfl
    | with_reducible exact HbmOk.rfl
    | with_reducible exact PwrOk.rfl
    | with_reducible exact HeatOk.rfl
    | with_reducible exact PkgOk.rfl
    | with_reducible exact StepOk.rfl
    | with_reducible exact FlashOk.rfl
    | with_reducible exact id
    | with_reducible refine HalOk.mk ?_ ?_ ?_ ?_
    | with_reducible refine HbmOk.mk ?_ ?_ ?_
    | with_reducible refine PwrOk.mk ?_ ?_
    | with_reducible refine HeatOk.mk ?_
    | with_reducible refine PkgOk.mk ?_ ?_
    | with_reducible refine StepOk.mk ?_
    | with_reducible refine FlashOk.mk ?_ ?_ ?_ ?_
    | exact id
    | with_reducible apply wf_upd
    | with_reducible apply wf_setList
    | with_reducible apply wf_copy
    | with_reducible apply wf_clear
    | decide
    | (simp only [setAt_length, List.length_map, List.length_zipIdx]; exact id)
    | split
    | intro _
    | dsimp only
    | with_reducible apply wf_foldl
    | with_reducible apply wf_set
    | simp only [kept_mk]
    | with_reducible refine set_mk ?_ ?_ ?_ ?_ ?_ ?_ ?_ ?_ ?_)

theorem execRegAlert_kept {x0 : State} (h0 : Kept q b x0) : OutKept q b (@execRegAlert x0) := by
  unfold execRegAlert
  try dsimp only
  repeat' (first
    | with_reducible assumption
    | with_reducible apply alert_kept
    | with_reducible apply on_pwr
    | with_reducible apply opt_some
    | with_reducible apply opt_none
    | with_reducible apply sub_app
    | with_reducible apply out_next
    | with_reducible apply out_fault
    | with_reducible apply out_refused
    | with_reducible apply foldl_kept
    | with_reducible apply foldl_kept1
    | with_reducible apply foldl_kept2
    | with_reducible apply foldl_kept21
    | with_reducible apply foldl_kept22
    | with_reducible exact HalOk.rfl
    | with_reducible exact HbmOk.rfl
    | with_reducible exact PwrOk.rfl
    | with_reducible exact HeatOk.rfl
    | with_reducible exact PkgOk.rfl
    | with_reducible exact StepOk.rfl
    | with_reducible exact FlashOk.rfl
    | with_reducible exact id
    | with_reducible refine HalOk.mk ?_ ?_ ?_ ?_
    | with_reducible refine HbmOk.mk ?_ ?_ ?_
    | with_reducible refine PwrOk.mk ?_ ?_
    | with_reducible refine HeatOk.mk ?_
    | with_reducible refine PkgOk.mk ?_ ?_
    | with_reducible refine StepOk.mk ?_
    | with_reducible refine FlashOk.mk ?_ ?_ ?_ ?_
    | exact id
    | with_reducible apply wf_upd
    | with_reducible apply wf_setList
    | with_reducible apply wf_copy
    | with_reducible apply wf_clear
    | decide
    | (simp only [setAt_length, List.length_map, List.length_zipIdx]; exact id)
    | split
    | intro _
    | dsimp only
    | with_reducible apply wf_foldl
    | with_reducible apply wf_set
    | simp only [kept_mk]
    | with_reducible refine set_mk ?_ ?_ ?_ ?_ ?_ ?_ ?_ ?_ ?_)

theorem execAlertForceEnd_kept (x0 : Bool) {x1 : State} (h1 : Kept q b x1) : OutKept q b (@execAlertForceEnd x0 x1) := by
  unfold execAlertForceEnd
  try dsimp only
  with_reducible repeat' first | assumption | apply forceOff_kept | apply out_next | exact out_fault _ | split

theorem execBudgetStale_kept {x0 : State} (h0 : Kept q b x0) : OutKept q b (@execBudgetStale x0) := by
  unfold execBudgetStale
  try dsimp only
  repeat' (first
    | with_reducible assumption
    | with_reducible apply raise_kept
    | with_reducible apply on_pwr
    | with_reducible apply opt_some
    | with_reducible apply opt_none
    | with_reducible apply sub_app
    | with_reducible apply out_next
    | with_reducible apply out_fault
    | with_reducible apply out_refused
    | with_reducible apply foldl_kept
    | with_reducible apply foldl_kept1
    | with_reducible apply foldl_kept2
    | with_reducible apply foldl_kept21
    | with_reducible apply foldl_kept22
    | with_reducible exact HalOk.rfl
    | with_reducible exact HbmOk.rfl
    | with_reducible exact PwrOk.rfl
    | with_reducible exact HeatOk.rfl
    | with_reducible exact PkgOk.rfl
    | with_reducible exact StepOk.rfl
    | with_reducible exact FlashOk.rfl
    | with_reducible exact id
    | with_reducible refine HalOk.mk ?_ ?_ ?_ ?_
    | with_reducible refine HbmOk.mk ?_ ?_ ?_
    | with_reducible refine PwrOk.mk ?_ ?_
    | with_reducible refine HeatOk.mk ?_
    | with_reducible refine PkgOk.mk ?_ ?_
    | with_reducible refine StepOk.mk ?_
    | with_reducible refine FlashOk.mk ?_ ?_ ?_ ?_
    | exact id
    | with_reducible apply wf_upd
    | with_reducible apply wf_setList
    | with_reducible apply wf_copy
    | with_reducible apply wf_clear
    | decide
    | (simp only [setAt_length, List.length_map, List.length_zipIdx]; exact id)
    | split
    | intro _
    | dsimp only
    | with_reducible apply wf_foldl
    | with_reducible apply wf_set
    | simp only [kept_mk]
    | with_reducible refine set_mk ?_ ?_ ?_ ?_ ?_ ?_ ?_ ?_ ?_)

theorem execSensorConversion_kept (x0 : Fin 214) (x1 : Int) (x2 : Int) {x3 : State} (h3 : Kept q b x3) : OutKept q b (@execSensorConversion x0 x1 x2 x3) := by
  unfold execSensorConversion
  try dsimp only
  repeat' (first
    | with_reducible assumption
    | with_reducible apply raise_kept
    | with_reducible apply report_kept
    | with_reducible apply on_heat
    | with_reducible apply opt_some
    | with_reducible apply opt_none
    | with_reducible apply sub_app
    | with_reducible apply out_next
    | with_reducible apply out_fault
    | with_reducible apply out_refused
    | with_reducible apply foldl_kept
    | with_reducible apply foldl_kept1
    | with_reducible apply foldl_kept2
    | with_reducible apply foldl_kept21
    | with_reducible apply foldl_kept22
    | with_reducible exact HalOk.rfl
    | with_reducible exact HbmOk.rfl
    | with_reducible exact PwrOk.rfl
    | with_reducible exact HeatOk.rfl
    | with_reducible exact PkgOk.rfl
    | with_reducible exact StepOk.rfl
    | with_reducible exact FlashOk.rfl
    | with_reducible exact id
    | with_reducible refine HalOk.mk ?_ ?_ ?_ ?_
    | with_reducible refine HbmOk.mk ?_ ?_ ?_
    | with_reducible refine PwrOk.mk ?_ ?_
    | with_reducible refine HeatOk.mk ?_
    | with_reducible refine PkgOk.mk ?_ ?_
    | with_reducible refine StepOk.mk ?_
    | with_reducible refine FlashOk.mk ?_ ?_ ?_ ?_
    | exact id
    | with_reducible apply wf_upd
    | with_reducible apply wf_setList
    | with_reducible apply wf_copy
    | with_reducible apply wf_clear
    | decide
    | (simp only [setAt_length, List.length_map, List.length_zipIdx]; exact id)
    | split
    | intro _
    | dsimp only
    | with_reducible apply wf_foldl
    | with_reducible apply wf_set
    | simp only [kept_mk]
    | with_reducible refine set_mk ?_ ?_ ?_ ?_ ?_ ?_ ?_ ?_ ?_)

theorem execTrayReport_kept (x0 : Option (List Byte)) {x1 : State} (h1 : Kept q b x1) : OutKept q b (@execTrayReport x0 x1) := by
  unfold execTrayReport
  try dsimp only
  repeat' (first
    | with_reducible assumption
    | with_reducible apply watchFlow_kept
    | with_reducible apply trayMiss_kept
    | with_reducible apply clampBudget_kept
    | with_reducible apply on_pwr
    | with_reducible apply on_heat
    | with_reducible apply opt_some
    | with_reducible apply opt_none
    | with_reducible apply sub_app
    | with_reducible apply out_next
    | with_reducible apply out_fault
    | with_reducible apply out_refused
    | with_reducible apply foldl_kept
    | with_reducible apply foldl_kept1
    | with_reducible apply foldl_kept2
    | with_reducible apply foldl_kept21
    | with_reducible apply foldl_kept22
    | with_reducible exact HalOk.rfl
    | with_reducible exact HbmOk.rfl
    | with_reducible exact PwrOk.rfl
    | with_reducible exact HeatOk.rfl
    | with_reducible exact PkgOk.rfl
    | with_reducible exact StepOk.rfl
    | with_reducible exact FlashOk.rfl
    | with_reducible exact id
    | with_reducible refine HalOk.mk ?_ ?_ ?_ ?_
    | with_reducible refine HbmOk.mk ?_ ?_ ?_
    | with_reducible refine PwrOk.mk ?_ ?_
    | with_reducible refine HeatOk.mk ?_
    | with_reducible refine PkgOk.mk ?_ ?_
    | with_reducible refine StepOk.mk ?_
    | with_reducible refine FlashOk.mk ?_ ?_ ?_ ?_
    | exact id
    | with_reducible apply wf_upd
    | with_reducible apply wf_setList
    | with_reducible apply wf_copy
    | with_reducible apply wf_clear
    | decide
    | (simp only [setAt_length, List.length_map, List.length_zipIdx]; exact id)
    | split
    | intro _
    | dsimp only
    | with_reducible apply wf_foldl
    | with_reducible apply wf_set
    | simp only [kept_mk]
    | with_reducible refine set_mk ?_ ?_ ?_ ?_ ?_ ?_ ?_ ?_ ?_)

theorem execTrayRequestRefresh_kept {x0 : State} (h0 : Kept q b x0) : OutKept q b (@execTrayRequestRefresh x0) := by
  unfold execTrayRequestRefresh
  with_reducible repeat' first | assumption | apply trayReq_kept | apply out_next | exact out_fault _ | split

theorem execCoolantLimitUpdate_kept {x0 : State} (h0 : Kept q b x0) : OutKept q b (@execCoolantLimitUpdate x0) := by
  unfold execCoolantLimitUpdate
  try dsimp only
  repeat' (first
    | with_reducible assumption
    | with_reducible apply watchFlow_kept
    | with_reducible apply coolEvents_kept
    | with_reducible apply coolLimit_kept
    | with_reducible apply junction_kept
    | with_reducible apply on_heat
    | with_reducible apply opt_some
    | with_reducible apply opt_none
    | with_reducible apply sub_app
    | with_reducible apply out_next
    | with_reducible apply out_fault
    | with_reducible apply out_refused
    | with_reducible apply foldl_kept
    | with_reducible apply foldl_kept1
    | with_reducible apply foldl_kept2
    | with_reducible apply foldl_kept21
    | with_reducible apply foldl_kept22
    | with_reducible exact HalOk.rfl
    | with_reducible exact HbmOk.rfl
    | with_reducible exact PwrOk.rfl
    | with_reducible exact HeatOk.rfl
    | with_reducible exact PkgOk.rfl
    | with_reducible exact StepOk.rfl
    | with_reducible exact FlashOk.rfl
    | with_reducible exact id
    | with_reducible refine HalOk.mk ?_ ?_ ?_ ?_
    | with_reducible refine HbmOk.mk ?_ ?_ ?_
    | with_reducible refine PwrOk.mk ?_ ?_
    | with_reducible refine HeatOk.mk ?_
    | with_reducible refine PkgOk.mk ?_ ?_
    | with_reducible refine StepOk.mk ?_
    | with_reducible refine FlashOk.mk ?_ ?_ ?_ ?_
    | exact id
    | with_reducible apply wf_upd
    | with_reducible apply wf_setList
    | with_reducible apply wf_copy
    | with_reducible apply wf_clear
    | decide
    | (simp only [setAt_length, List.length_map, List.length_zipIdx]; exact id)
    | split
    | intro _
    | dsimp only
    | with_reducible apply wf_foldl
    | with_reducible apply wf_set
    | simp only [kept_mk]
    | with_reducible refine set_mk ?_ ?_ ?_ ?_ ?_ ?_ ?_ ?_ ?_)

theorem execFlowPulse_kept {x0 : State} (h0 : Kept q b x0) : OutKept q b (@execFlowPulse x0) := by
  unfold execFlowPulse
  try dsimp only
  repeat' (first
    | with_reducible assumption
    | with_reducible apply on_heat
    | with_reducible apply opt_some
    | with_reducible apply opt_none
    | with_reducible apply sub_app
    | with_reducible apply out_next
    | with_reducible apply out_fault
    | with_reducible apply out_refused
    | with_reducible apply foldl_kept
    | with_reducible apply foldl_kept1
    | with_reducible apply foldl_kept2
    | with_reducible apply foldl_kept21
    | with_reducible apply foldl_kept22
    | with_reducible exact HalOk.rfl
    | with_reducible exact HbmOk.rfl
    | with_reducible exact PwrOk.rfl
    | with_reducible exact HeatOk.rfl
    | with_reducible exact PkgOk.rfl
    | with_reducible exact StepOk.rfl
    | with_reducible exact FlashOk.rfl
    | with_reducible exact id
    | with_reducible refine HalOk.mk ?_ ?_ ?_ ?_
    | with_reducible refine HbmOk.mk ?_ ?_ ?_
    | with_reducible refine PwrOk.mk ?_ ?_
    | with_reducible refine HeatOk.mk ?_
    | with_reducible refine PkgOk.mk ?_ ?_
    | with_reducible refine StepOk.mk ?_
    | with_reducible refine FlashOk.mk ?_ ?_ ?_ ?_
    | exact id
    | with_reducible apply wf_upd
    | with_reducible apply wf_setList
    | with_reducible apply wf_copy
    | with_reducible apply wf_clear
    | decide
    | (simp only [setAt_length, List.length_map, List.length_zipIdx]; exact id)
    | split
    | intro _
    | dsimp only
    | with_reducible apply wf_foldl
    | with_reducible apply wf_set
    | simp only [kept_mk]
    | with_reducible refine set_mk ?_ ?_ ?_ ?_ ?_ ?_ ?_ ?_ ?_)

theorem execPumpFailInput_kept (x0 : Bool) {x1 : State} (h1 : Kept q b x1) : OutKept q b (@execPumpFailInput x0 x1) := by
  unfold execPumpFailInput
  try dsimp only
  repeat' (first
    | with_reducible assumption
    | with_reducible apply on_heat
    | with_reducible apply opt_some
    | with_reducible apply opt_none
    | with_reducible apply sub_app
    | with_reducible apply out_next
    | with_reducible apply out_fault
    | with_reducible apply out_refused
    | with_reducible apply foldl_kept
    | with_reducible apply foldl_kept1
    | with_reducible apply foldl_kept2
    | with_reducible apply foldl_kept21
    | with_reducible apply foldl_kept22
    | with_reducible exact HalOk.rfl
    | with_reducible exact HbmOk.rfl
    | with_reducible exact PwrOk.rfl
    | with_reducible exact HeatOk.rfl
    | with_reducible exact PkgOk.rfl
    | with_reducible exact StepOk.rfl
    | with_reducible exact FlashOk.rfl
    | with_reducible exact id
    | with_reducible refine HalOk.mk ?_ ?_ ?_ ?_
    | with_reducible refine HbmOk.mk ?_ ?_ ?_
    | with_reducible refine PwrOk.mk ?_ ?_
    | with_reducible refine HeatOk.mk ?_
    | with_reducible refine PkgOk.mk ?_ ?_
    | with_reducible refine StepOk.mk ?_
    | with_reducible refine FlashOk.mk ?_ ?_ ?_ ?_
    | exact id
    | with_reducible apply wf_upd
    | with_reducible apply wf_setList
    | with_reducible apply wf_copy
    | with_reducible apply wf_clear
    | decide
    | (simp only [setAt_length, List.length_map, List.length_zipIdx]; exact id)
    | split
    | intro _
    | dsimp only
    | with_reducible apply wf_foldl
    | with_reducible apply wf_set
    | simp only [kept_mk]
    | with_reducible refine set_mk ?_ ?_ ?_ ?_ ?_ ?_ ?_ ?_ ?_)

theorem execCoolantRestore_kept {x0 : State} (h0 : Kept q b x0) : OutKept q b (@execCoolantRestore x0) := by
  unfold execCoolantRestore
  try dsimp only
  repeat' (first
    | with_reducible assumption
    | with_reducible apply restart_kept
    | with_reducible apply raise_kept
    | with_reducible apply trayReq_kept
    | with_reducible apply forceOff_kept
    | with_reducible apply on_heat
    | with_reducible apply opt_some
    | with_reducible apply opt_none
    | with_reducible apply sub_app
    | with_reducible apply out_next
    | with_reducible apply out_fault
    | with_reducible apply out_refused
    | with_reducible apply foldl_kept
    | with_reducible apply foldl_kept1
    | with_reducible apply foldl_kept2
    | with_reducible apply foldl_kept21
    | with_reducible apply foldl_kept22
    | with_reducible exact HalOk.rfl
    | with_reducible exact HbmOk.rfl
    | with_reducible exact PwrOk.rfl
    | with_reducible exact HeatOk.rfl
    | with_reducible exact PkgOk.rfl
    | with_reducible exact StepOk.rfl
    | with_reducible exact FlashOk.rfl
    | with_reducible exact id
    | with_reducible refine HalOk.mk ?_ ?_ ?_ ?_
    | with_reducible refine HbmOk.mk ?_ ?_ ?_
    | with_reducible refine PwrOk.mk ?_ ?_
    | with_reducible refine HeatOk.mk ?_
    | with_reducible refine PkgOk.mk ?_ ?_
    | with_reducible refine StepOk.mk ?_
    | with_reducible refine FlashOk.mk ?_ ?_ ?_ ?_
    | exact id
    | with_reducible apply wf_upd
    | with_reducible apply wf_setList
    | with_reducible apply wf_copy
    | with_reducible apply wf_clear
    | decide
    | (simp only [setAt_length, List.length_map, List.length_zipIdx]; exact id)
    | split
    | intro _
    | dsimp only
    | with_reducible apply wf_foldl
    | with_reducible apply wf_set
    | simp only [kept_mk]
    | with_reducible refine set_mk ?_ ?_ ?_ ?_ ?_ ?_ ?_ ?_ ?_)

theorem execThermalTrip_kept (x0 : Fin 214) {x1 : State} (h1 : Kept q b x1) : OutKept q b (@execThermalTrip x0 x1) := by
  unfold execThermalTrip
  try dsimp only
  repeat' (first
    | with_reducible assumption
    | with_reducible apply onBoot_kept
    | with_reducible apply railsOff_kept
    | with_reducible apply trayReq_kept
    | with_reducible apply on_heat
    | with_reducible apply opt_some
    | with_reducible apply opt_none
    | with_reducible apply sub_app
    | with_reducible apply out_next
    | with_reducible apply out_fault
    | with_reducible apply out_refused
    | with_reducible apply foldl_kept
    | with_reducible apply foldl_kept1
    | with_reducible apply foldl_kept2
    | with_reducible apply foldl_kept21
    | with_reducible apply foldl_kept22
    | with_reducible exact HalOk.rfl
    | with_reducible exact HbmOk.rfl
    | with_reducible exact PwrOk.rfl
    | with_reducible exact HeatOk.rfl
    | with_reducible exact PkgOk.rfl
    | with_reducible exact StepOk.rfl
    | with_reducible exact FlashOk.rfl
    | with_reducible exact id
    | with_reducible refine HalOk.mk ?_ ?_ ?_ ?_
    | with_reducible refine HbmOk.mk ?_ ?_ ?_
    | with_reducible refine PwrOk.mk ?_ ?_
    | with_reducible refine HeatOk.mk ?_
    | with_reducible refine PkgOk.mk ?_ ?_
    | with_reducible refine StepOk.mk ?_
    | with_reducible refine FlashOk.mk ?_ ?_ ?_ ?_
    | exact id
    | with_reducible apply wf_upd
    | with_reducible apply wf_setList
    | with_reducible apply wf_copy
    | with_reducible apply wf_clear
    | decide
    | (simp only [setAt_length, List.length_map, List.length_zipIdx]; exact id)
    | split
    | intro _
    | dsimp only
    | with_reducible apply wf_foldl
    | with_reducible apply wf_set
    | simp only [kept_mk]
    | with_reducible refine set_mk ?_ ?_ ?_ ?_ ?_ ?_ ?_ ?_ ?_)

theorem execWarmFloorCheck_kept {x0 : State} (h0 : Kept q b x0) : OutKept q b (@execWarmFloorCheck x0) := by
  unfold execWarmFloorCheck
  split
  · exact out_next h0
  · extract_lets h w fl base s1 m s2 long s3 f
    have h1 : Kept q b s1 := by
      show Kept q b (if _ then _ else _)
      split
      · exact setFlowReq_kept _ _ h0
      · exact h0
    have h2 : Kept q b s2 := on_heat h1 ⟨id⟩
    have h3 : Kept q b s3 := by
      show Kept q b (if _ then _ else _)
      split
      · exact activity_kept _ h2
      · exact h2
    clear_value s3 s2 s1
    split
    · refine out_next ?_
      split
      · exact setFlowReq_kept _ _ h3
      · exact setFlowReq_kept _ _ h3
    · exact out_next h3

theorem execIdleActivityAdjust_kept {x0 : State} (h0 : Kept q b x0) : OutKept q b (@execIdleActivityAdjust x0) := by
  unfold execIdleActivityAdjust
  try dsimp only
  repeat' (first
    | with_reducible assumption
    | with_reducible apply activity_kept
    | with_reducible apply on_heat
    | with_reducible apply opt_some
    | with_reducible apply opt_none
    | with_reducible apply sub_app
    | with_reducible apply out_next
    | with_reducible apply out_fault
    | with_reducible apply out_refused
    | with_reducible apply foldl_kept
    | with_reducible apply foldl_kept1
    | with_reducible apply foldl_kept2
    | with_reducible apply foldl_kept21
    | with_reducible apply foldl_kept22
    | with_reducible exact HalOk.rfl
    | with_reducible exact HbmOk.rfl
    | with_reducible exact PwrOk.rfl
    | with_reducible exact HeatOk.rfl
    | with_reducible exact PkgOk.rfl
    | with_reducible exact StepOk.rfl
    | with_reducible exact FlashOk.rfl
    | with_reducible exact id
    | with_reducible refine HalOk.mk ?_ ?_ ?_ ?_
    | with_reducible refine HbmOk.mk ?_ ?_ ?_
    | with_reducible refine PwrOk.mk ?_ ?_
    | with_reducible refine HeatOk.mk ?_
    | with_reducible refine PkgOk.mk ?_ ?_
    | with_reducible refine StepOk.mk ?_
    | with_reducible refine FlashOk.mk ?_ ?_ ?_ ?_
    | exact id
    | with_reducible apply wf_upd
    | with_reducible apply wf_setList
    | with_reducible apply wf_copy
    | with_reducible apply wf_clear
    | decide
    | (simp only [setAt_length, List.length_map, List.length_zipIdx]; exact id)
    | split
    | intro _
    | dsimp only
    | with_reducible apply wf_foldl
    | with_reducible apply wf_set
    | simp only [kept_mk]
    | with_reducible refine set_mk ?_ ?_ ?_ ?_ ?_ ?_ ?_ ?_ ?_)

theorem execRefclkLoss_kept {x0 : State} (h0 : Kept q b x0) : OutKept q b (@execRefclkLoss x0) := by
  unfold execRefclkLoss
  try dsimp only
  with_reducible repeat' first | assumption | apply onTime_kept | apply linkDown_kept | apply report_kept | apply forceOn_kept | apply raise_kept | apply out_next | exact out_fault _ | split | intro _ | apply foldl_kept

theorem execTimeclkLoss_kept {x0 : State} (h0 : Kept q b x0) : OutKept q b (@execTimeclkLoss x0) := by
  unfold execTimeclkLoss
  with_reducible repeat' first | assumption | apply raise_kept | apply onTime_kept | apply out_next | exact out_fault _ | split

theorem execTimeclkReturn_kept {x0 : State} (h0 : Kept q b x0) : OutKept q b (@execTimeclkReturn x0) := by
  unfold execTimeclkReturn
  with_reducible repeat' first | assumption | apply onTime_kept | apply out_next | exact out_fault _ | split

theorem execPpsInEdge_kept (x0 : Nat) {x1 : State} (h1 : Kept q b x1) : OutKept q b (@execPpsInEdge x0 x1) := by
  unfold execPpsInEdge
  try dsimp only
  with_reducible repeat' first | assumption | apply onTime_kept | apply servo_kept | apply out_next | exact out_fault _ | split

theorem execPpsOutEdge_kept {x0 : State} (h0 : Kept q b x0) : OutKept q b (@execPpsOutEdge x0) := by
  unfold execPpsOutEdge
  try dsimp only
  repeat' (first
    | with_reducible assumption
    | with_reducible apply opt_some
    | with_reducible apply opt_none
    | with_reducible apply sub_app
    | with_reducible apply out_next
    | with_reducible apply out_fault
    | with_reducible apply out_refused
    | with_reducible apply foldl_kept
    | with_reducible apply foldl_kept1
    | with_reducible apply foldl_kept2
    | with_reducible apply foldl_kept21
    | with_reducible apply foldl_kept22
    | with_reducible exact HalOk.rfl
    | with_reducible exact HbmOk.rfl
    | with_reducible exact PwrOk.rfl
    | with_reducible exact HeatOk.rfl
    | with_reducible exact PkgOk.rfl
    | with_reducible exact StepOk.rfl
    | with_reducible exact FlashOk.rfl
    | with_reducible exact id
    | with_reducible refine HalOk.mk ?_ ?_ ?_ ?_
    | with_reducible refine HbmOk.mk ?_ ?_ ?_
    | with_reducible refine PwrOk.mk ?_ ?_
    | with_reducible refine HeatOk.mk ?_
    | with_reducible refine PkgOk.mk ?_ ?_
    | with_reducible refine StepOk.mk ?_
    | with_reducible refine FlashOk.mk ?_ ?_ ?_ ?_
    | exact id
    | with_reducible apply wf_upd
    | with_reducible apply wf_setList
    | with_reducible apply wf_copy
    | with_reducible apply wf_clear
    | decide
    | (simp only [setAt_length, List.length_map, List.length_zipIdx]; exact id)
    | split
    | intro _
    | dsimp only
    | with_reducible apply wf_foldl
    | with_reducible apply wf_set
    | simp only [kept_mk]
    | with_reducible refine set_mk ?_ ?_ ?_ ?_ ?_ ?_ ?_ ?_ ?_)

theorem execLogMove_kept {x0 : State} (h0 : Kept q b x0) : OutKept q b (@execLogMove x0) := by
  unfold execLogMove
  try dsimp only
  repeat' (first
    | with_reducible assumption
    | with_reducible apply pushLog_kept
    | with_reducible apply opt_some
    | with_reducible apply opt_none
    | with_reducible apply sub_app
    | with_reducible apply out_next
    | with_reducible apply out_fault
    | with_reducible apply out_refused
    | with_reducible apply foldl_kept
    | with_reducible apply foldl_kept1
    | with_reducible apply foldl_kept2
    | with_reducible apply foldl_kept21
    | with_reducible apply foldl_kept22
    | with_reducible exact HalOk.rfl
    | with_reducible exact HbmOk.rfl
    | with_reducible exact PwrOk.rfl
    | with_reducible exact HeatOk.rfl
    | with_reducible exact PkgOk.rfl
    | with_reducible exact StepOk.rfl
    | with_reducible exact FlashOk.rfl
    | with_reducible exact id
    | with_reducible refine HalOk.mk ?_ ?_ ?_ ?_
    | with_reducible refine HbmOk.mk ?_ ?_ ?_
    | with_reducible refine PwrOk.mk ?_ ?_
    | with_reducible refine HeatOk.mk ?_
    | with_reducible refine PkgOk.mk ?_ ?_
    | with_reducible refine StepOk.mk ?_
    | with_reducible refine FlashOk.mk ?_ ?_ ?_ ?_
    | exact id
    | with_reducible apply wf_upd
    | with_reducible apply wf_setList
    | with_reducible apply wf_copy
    | with_reducible apply wf_clear
    | decide
    | (simp only [setAt_length, List.length_map, List.length_zipIdx]; exact id)
    | split
    | intro _
    | dsimp only
    | with_reducible apply wf_foldl
    | with_reducible apply wf_set
    | simp only [kept_mk]
    | with_reducible refine set_mk ?_ ?_ ?_ ?_ ?_ ?_ ?_ ?_ ?_)

theorem execDorlenWatchdog_kept (x0 : Fin 4) (x1 : Option (Nat × Nat)) {x2 : State} (h2 : Kept q b x2) : OutKept q b (@execDorlenWatchdog x0 x1 x2) := by
  unfold execDorlenWatchdog
  try dsimp only
  repeat' (first
    | with_reducible assumption
    | with_reducible apply report_kept
    | with_reducible apply watchdog_kept
    | with_reducible apply finish_kept
    | with_reducible apply opt_some
    | with_reducible apply opt_none
    | with_reducible apply sub_app
    | with_reducible apply out_next
    | with_reducible apply out_fault
    | with_reducible apply out_refused
    | with_reducible apply foldl_kept
    | with_reducible apply foldl_kept1
    | with_reducible apply foldl_kept2
    | with_reducible apply foldl_kept21
    | with_reducible apply foldl_kept22
    | with_reducible exact HalOk.rfl
    | with_reducible exact HbmOk.rfl
    | with_reducible exact PwrOk.rfl
    | with_reducible exact HeatOk.rfl
    | with_reducible exact PkgOk.rfl
    | with_reducible exact StepOk.rfl
    | with_reducible exact FlashOk.rfl
    | with_reducible exact id
    | with_reducible refine HalOk.mk ?_ ?_ ?_ ?_
    | with_reducible refine HbmOk.mk ?_ ?_ ?_
    | with_reducible refine PwrOk.mk ?_ ?_
    | with_reducible refine HeatOk.mk ?_
    | with_reducible refine PkgOk.mk ?_ ?_
    | with_reducible refine StepOk.mk ?_
    | with_reducible refine FlashOk.mk ?_ ?_ ?_ ?_
    | exact id
    | with_reducible apply wf_upd
    | with_reducible apply wf_setList
    | with_reducible apply wf_copy
    | with_reducible apply wf_clear
    | decide
    | (simp only [setAt_length, List.length_map, List.length_zipIdx]; exact id)
    | split
    | intro _
    | dsimp only
    | with_reducible apply wf_foldl
    | with_reducible apply wf_set
    | simp only [kept_mk]
    | with_reducible refine set_mk ?_ ?_ ?_ ?_ ?_ ?_ ?_ ?_ ?_)

theorem execGroomWatchdog_kept {x0 : State} (h0 : Kept q b x0) : OutKept q b (@execGroomWatchdog x0) := by
  unfold execGroomWatchdog
  with_reducible repeat' first | assumption | apply report_kept | apply watchdog_kept | apply out_next | exact out_fault _ | split

theorem execVauxUp_kept {x0 : State} (h0 : Kept q b x0) : OutKept q b (@execVauxUp x0) := by
  unfold execVauxUp
  with_reducible repeat' first | assumption | apply dead_kept | apply out_next | exact out_fault _ | split

theorem execVauxFall_kept {x0 : State} (h0 : Kept q b x0) : OutKept q b (@execVauxFall x0) := by
  unfold execVauxFall
  with_reducible repeat' first | assumption | apply dead_kept | apply out_next | exact out_fault _ | split

theorem execRstNAssert_kept {x0 : State} (h0 : Kept q b x0) : OutKept q b (@execRstNAssert x0) := by
  unfold execRstNAssert
  try dsimp only
  repeat' (first
    | with_reducible assumption
    | with_reducible apply onBoot_kept
    | with_reducible apply deviceReset_kept
    | with_reducible apply on_heat
    | with_reducible apply opt_some
    | with_reducible apply opt_none
    | with_reducible apply sub_app
    | with_reducible apply out_next
    | with_reducible apply out_fault
    | with_reducible apply out_refused
    | with_reducible apply foldl_kept
    | with_reducible apply foldl_kept1
    | with_reducible apply foldl_kept2
    | with_reducible apply foldl_kept21
    | with_reducible apply foldl_kept22
    | with_reducible exact HalOk.rfl
    | with_reducible exact HbmOk.rfl
    | with_reducible exact PwrOk.rfl
    | with_reducible exact HeatOk.rfl
    | with_reducible exact PkgOk.rfl
    | with_reducible exact StepOk.rfl
    | with_reducible exact FlashOk.rfl
    | with_reducible exact id
    | with_reducible refine HalOk.mk ?_ ?_ ?_ ?_
    | with_reducible refine HbmOk.mk ?_ ?_ ?_
    | with_reducible refine PwrOk.mk ?_ ?_
    | with_reducible refine HeatOk.mk ?_
    | with_reducible refine PkgOk.mk ?_ ?_
    | with_reducible refine StepOk.mk ?_
    | with_reducible refine FlashOk.mk ?_ ?_ ?_ ?_
    | exact id
    | with_reducible apply wf_upd
    | with_reducible apply wf_setList
    | with_reducible apply wf_copy
    | with_reducible apply wf_clear
    | decide
    | (simp only [setAt_length, List.length_map, List.length_zipIdx]; exact id)
    | split
    | intro _
    | dsimp only
    | with_reducible apply wf_foldl
    | with_reducible apply wf_set
    | simp only [kept_mk]
    | with_reducible refine set_mk ?_ ?_ ?_ ?_ ?_ ?_ ?_ ?_ ?_)

theorem execRstNDeassert_kept (x0 : BitVec 2) {x1 : State} (h1 : Kept q b x1) : OutKept q b (@execRstNDeassert x0 x1) := by
  unfold execRstNDeassert
  try dsimp only
  with_reducible repeat' first | assumption | apply onBoot_kept | apply startFrom_kept | apply tryRamp_kept | apply out_next | exact out_fault _ | split

theorem execPwrgdRise_kept {x0 : State} (h0 : Kept q b x0) : OutKept q b (@execPwrgdRise x0) := by
  unfold execPwrgdRise
  with_reducible repeat' first | assumption | apply tryRamp_kept | apply onBoot_kept | apply out_next | exact out_fault _ | split

theorem execPwrgdFall_kept {x0 : State} (h0 : Kept q b x0) : OutKept q b (@execPwrgdFall x0) := by
  unfold execPwrgdFall
  with_reducible repeat' first | assumption | apply onBoot_kept | apply vinLost_kept | apply out_next | exact out_fault _ | split

theorem execImageCheckDone_kept {x0 : State} (h0 : Kept q b x0) : OutKept q b (@execImageCheckDone x0) := by
  unfold execImageCheckDone
  try dsimp only
  repeat' (first
    | with_reducible assumption
    | with_reducible apply tryRamp_kept
    | with_reducible apply onBoot_kept
    | with_reducible apply opt_some
    | with_reducible apply opt_none
    | with_reducible apply sub_app
    | with_reducible apply out_next
    | with_reducible apply out_fault
    | with_reducible apply out_refused
    | with_reducible apply foldl_kept
    | with_reducible apply foldl_kept1
    | with_reducible apply foldl_kept2
    | with_reducible apply foldl_kept21
    | with_reducible apply foldl_kept22
    | with_reducible exact HalOk.rfl
    | with_reducible exact HbmOk.rfl
    | with_reducible exact PwrOk.rfl
    | with_reducible exact HeatOk.rfl
    | with_reducible exact PkgOk.rfl
    | with_reducible exact StepOk.rfl
    | with_reducible exact FlashOk.rfl
    | with_reducible exact id
    | with_reducible refine HalOk.mk ?_ ?_ ?_ ?_
    | with_reducible refine HbmOk.mk ?_ ?_ ?_
    | with_reducible refine PwrOk.mk ?_ ?_
    | with_reducible refine HeatOk.mk ?_
    | with_reducible refine PkgOk.mk ?_ ?_
    | with_reducible refine StepOk.mk ?_
    | with_reducible refine FlashOk.mk ?_ ?_ ?_ ?_
    | exact id
    | with_reducible apply wf_upd
    | with_reducible apply wf_setList
    | with_reducible apply wf_copy
    | with_reducible apply wf_clear
    | decide
    | (simp only [setAt_length, List.length_map, List.length_zipIdx]; exact id)
    | split
    | intro _
    | dsimp only
    | with_reducible apply wf_foldl
    | with_reducible apply wf_set
    | simp only [kept_mk]
    | with_reducible refine set_mk ?_ ?_ ?_ ?_ ?_ ?_ ?_ ?_ ?_)

theorem execHbmTrainingDone_kept (x0 : List (ChanIx × Nat)) (x1 : List (Fin 208 × Fin 130)) {x2 : State} (h2 : Kept q b x2) : OutKept q b (@execHbmTrainingDone x0 x1 x2) := by
  unfold execHbmTrainingDone
  split
  · exact out_next h2
  · extract_lets s1 s2
    have h1 : Kept q b s1 := by
      refine foldl_kept (fun s m h => foldl_kept (fun s row h => ?_) _ h) _ h2
      dsimp only
      split
      · with_reducible apply pageRetire_kept
        exact onChanRec_kept _ _ h
      · with_reducible apply onBoot_kept
        with_reducible apply report_kept
        with_reducible apply onChanRec_kept
        with_reducible apply onChanRec_kept
        exact h
    have h3 : Kept q b s2 := foldl_kept (fun s c h => retireCol_kept _ _ _ h) _ h1
    clear_value s2
    refine out_next (onBoot_kept _ ?_)
    simp only [kept_mk]
    exact set_mk h3 .rfl (pkgOk_reset _ _) .rfl .rfl .rfl .rfl .rfl id

theorem execAkReady_kept {x0 : State} (h0 : Kept q b x0) : OutKept q b (@execAkReady x0) := by
  unfold execAkReady
  try dsimp only
  with_reducible repeat' first | assumption | apply onBoot_kept | apply quoteRead_kept | apply out_next | exact out_fault _ | split | intro _ | apply foldl_kept

theorem execReady_kept {x0 : State} (h0 : Kept q b x0) : OutKept q b (@execReady x0) := by
  unfold execReady
  try dsimp only
  repeat' (first
    | with_reducible assumption
    | with_reducible apply onBoot_kept
    | with_reducible apply trialReady_kept
    | with_reducible apply onPort_kept
    | with_reducible apply raiseHeld_kept
    | with_reducible apply opt_some
    | with_reducible apply opt_none
    | with_reducible apply sub_app
    | with_reducible apply out_next
    | with_reducible apply out_fault
    | with_reducible apply out_refused
    | with_reducible apply foldl_kept
    | with_reducible apply foldl_kept1
    | with_reducible apply foldl_kept2
    | with_reducible apply foldl_kept21
    | with_reducible apply foldl_kept22
    | with_reducible exact HalOk.rfl
    | with_reducible exact HbmOk.rfl
    | with_reducible exact PwrOk.rfl
    | with_reducible exact HeatOk.rfl
    | with_reducible exact PkgOk.rfl
    | with_reducible exact StepOk.rfl
    | with_reducible exact FlashOk.rfl
    | with_reducible exact id
    | with_reducible refine HalOk.mk ?_ ?_ ?_ ?_
    | with_reducible refine HbmOk.mk ?_ ?_ ?_
    | with_reducible refine PwrOk.mk ?_ ?_
    | with_reducible refine HeatOk.mk ?_
    | with_reducible refine PkgOk.mk ?_ ?_
    | with_reducible refine StepOk.mk ?_
    | with_reducible refine FlashOk.mk ?_ ?_ ?_ ?_
    | exact id
    | with_reducible apply wf_upd
    | with_reducible apply wf_setList
    | with_reducible apply wf_copy
    | with_reducible apply wf_clear
    | decide
    | (simp only [setAt_length, List.length_map, List.length_zipIdx]; exact id)
    | split
    | intro _
    | dsimp only
    | with_reducible apply wf_foldl
    | with_reducible apply wf_set
    | simp only [kept_mk]
    | with_reducible refine set_mk ?_ ?_ ?_ ?_ ?_ ?_ ?_ ?_ ?_)

theorem execTrialTimeout_kept {x0 : State} (h0 : Kept q b x0) : OutKept q b (@execTrialTimeout x0) := by
  unfold execTrialTimeout
  try dsimp only
  repeat' (first
    | with_reducible assumption
    | with_reducible apply deviceReset_kept
    | with_reducible apply onBoot_kept
    | with_reducible apply opt_some
    | with_reducible apply opt_none
    | with_reducible apply sub_app
    | with_reducible apply out_next
    | with_reducible apply out_fault
    | with_reducible apply out_refused
    | with_reducible apply foldl_kept
    | with_reducible apply foldl_kept1
    | with_reducible apply foldl_kept2
    | with_reducible apply foldl_kept21
    | with_reducible apply foldl_kept22
    | with_reducible exact HalOk.rfl
    | with_reducible exact HbmOk.rfl
    | with_reducible exact PwrOk.rfl
    | with_reducible exact HeatOk.rfl
    | with_reducible exact PkgOk.rfl
    | with_reducible exact StepOk.rfl
    | with_reducible exact FlashOk.rfl
    | with_reducible exact id
    | with_reducible refine HalOk.mk ?_ ?_ ?_ ?_
    | with_reducible refine HbmOk.mk ?_ ?_ ?_
    | with_reducible refine PwrOk.mk ?_ ?_
    | with_reducible refine HeatOk.mk ?_
    | with_reducible refine PkgOk.mk ?_ ?_
    | with_reducible refine StepOk.mk ?_
    | with_reducible refine FlashOk.mk ?_ ?_ ?_ ?_
    | exact id
    | with_reducible apply wf_upd
    | with_reducible apply wf_setList
    | with_reducible apply wf_copy
    | with_reducible apply wf_clear
    | decide
    | (simp only [setAt_length, List.length_map, List.length_zipIdx]; exact id)
    | split
    | intro _
    | dsimp only
    | with_reducible apply wf_foldl
    | with_reducible apply wf_set
    | simp only [kept_mk]
    | with_reducible refine set_mk ?_ ?_ ?_ ?_ ?_ ?_ ?_ ?_ ?_)

theorem execOpsClearTiles_kept {x0 : State} (h0 : Kept q b x0) : OutKept q b (@execOpsClearTiles x0) := by
  unfold execOpsClearTiles
  with_reducible repeat' first | assumption | apply clearTileOps_kept | apply out_next | exact out_fault _ | split

theorem execOpsClearDevice_kept {x0 : State} (h0 : Kept q b x0) : OutKept q b (@execOpsClearDevice x0) := by
  unfold execOpsClearDevice
  with_reducible repeat' first | assumption | apply clearDevOps_kept | apply out_next | exact out_fault _ | split

theorem execPeriscopeTimer_kept {x0 : State} (h0 : Kept q b x0) : OutKept q b (@execPeriscopeTimer x0) := by
  unfold execPeriscopeTimer
  try dsimp only
  repeat' (first
    | with_reducible assumption
    | with_reducible apply trigger_kept
    | with_reducible apply on_hal
    | with_reducible apply opt_some
    | with_reducible apply opt_none
    | with_reducible apply sub_app
    | with_reducible apply out_next
    | with_reducible apply out_fault
    | with_reducible apply out_refused
    | with_reducible apply foldl_kept
    | with_reducible apply foldl_kept1
    | with_reducible apply foldl_kept2
    | with_reducible apply foldl_kept21
    | with_reducible apply foldl_kept22
    | with_reducible exact HalOk.rfl
    | with_reducible exact HbmOk.rfl
    | with_reducible exact PwrOk.rfl
    | with_reducible exact HeatOk.rfl
    | with_reducible exact PkgOk.rfl
    | with_reducible exact StepOk.rfl
    | with_reducible exact FlashOk.rfl
    | with_reducible exact id
    | with_reducible refine HalOk.mk ?_ ?_ ?_ ?_
    | with_reducible refine HbmOk.mk ?_ ?_ ?_
    | with_reducible refine PwrOk.mk ?_ ?_
    | with_reducible refine HeatOk.mk ?_
    | with_reducible refine PkgOk.mk ?_ ?_
    | with_reducible refine StepOk.mk ?_
    | with_reducible refine FlashOk.mk ?_ ?_ ?_ ?_
    | exact id
    | with_reducible apply wf_upd
    | with_reducible apply wf_setList
    | with_reducible apply wf_copy
    | with_reducible apply wf_clear
    | decide
    | (simp only [setAt_length, List.length_map, List.length_zipIdx]; exact id)
    | split
    | intro _
    | dsimp only
    | with_reducible apply wf_foldl
    | with_reducible apply wf_set
    | simp only [kept_mk]
    | with_reducible refine set_mk ?_ ?_ ?_ ?_ ?_ ?_ ?_ ?_ ?_)

theorem execPeriscopePin_kept (x0 : Bool) {x1 : State} (h1 : Kept q b x1) : OutKept q b (@execPeriscopePin x0 x1) := by
  unfold execPeriscopePin
  with_reducible repeat' first | assumption | apply trigger_kept | apply out_next | exact out_fault _ | split

theorem execRegisterWrite_kept (x0 : BitVec 28) (x1 : BitVec 64) {x2 : State} (h2 : Kept q b x2) : OutKept q b (@execRegisterWrite x0 x1 x2) := by
  unfold execRegisterWrite
  with_reducible repeat' first | assumption | apply ctlWrite_kept | apply out_next | exact out_fault _ | split

theorem execBootSelSample_kept (x0 : BitVec 2) {x1 : State} (h1 : Kept q b x1) : OutKept q b (@execBootSelSample x0 x1) := by
  unfold execBootSelSample
  with_reducible repeat' first | assumption | apply startFrom_kept | apply out_next | exact out_fault _ | split

theorem execRefclkReturn_kept {x0 : State} (h0 : Kept q b x0) : OutKept q b (@execRefclkReturn x0) := by
  unfold execRefclkReturn
  with_reducible repeat' first | assumption | apply onTime_kept | apply out_next | exact out_fault _ | split

theorem execVrAlertRise_kept (x0 : Bool) (x1 : Nat) {x2 : State} (h2 : Kept q b x2) : OutKept q b (@execVrAlertRise x0 x1 x2) := by
  unfold execVrAlertRise
  try dsimp only
  repeat' (first
    | with_reducible assumption
    | with_reducible apply report_kept
    | with_reducible apply on_pwr
    | with_reducible apply opt_some
    | with_reducible apply opt_none
    | with_reducible apply sub_app
    | with_reducible apply out_next
    | with_reducible apply out_fault
    | with_reducible apply out_refused
    | with_reducible apply foldl_kept
    | with_reducible apply foldl_kept1
    | with_reducible apply foldl_kept2
    | with_reducible apply foldl_kept21
    | with_reducible apply foldl_kept22
    | with_reducible exact HalOk.rfl
    | with_reducible exact HbmOk.rfl
    | with_reducible exact PwrOk.rfl
    | with_reducible exact HeatOk.rfl
    | with_reducible exact PkgOk.rfl
    | with_reducible exact StepOk.rfl
    | with_reducible exact FlashOk.rfl
    | with_reducible exact id
    | with_reducible refine HalOk.mk ?_ ?_ ?_ ?_
    | with_reducible refine HbmOk.mk ?_ ?_ ?_
    | with_reducible refine PwrOk.mk ?_ ?_
    | with_reducible refine HeatOk.mk ?_
    | with_reducible refine PkgOk.mk ?_ ?_
    | with_reducible refine StepOk.mk ?_
    | with_reducible refine FlashOk.mk ?_ ?_ ?_ ?_
    | exact id
    | with_reducible apply wf_upd
    | with_reducible apply wf_setList
    | with_reducible apply wf_copy
    | with_reducible apply wf_clear
    | decide
    | (simp only [setAt_length, List.length_map, List.length_zipIdx]; exact id)
    | split
    | intro _
    | dsimp only
    | with_reducible apply wf_foldl
    | with_reducible apply wf_set
    | simp only [kept_mk]
    | with_reducible refine set_mk ?_ ?_ ?_ ?_ ?_ ?_ ?_ ?_ ?_)

theorem execPpsOutFall_kept {x0 : State} (h0 : Kept q b x0) : OutKept q b (@execPpsOutFall x0) := by
  unfold execPpsOutFall
  try dsimp only
  repeat' (first
    | with_reducible assumption
    | with_reducible apply opt_some
    | with_reducible apply opt_none
    | with_reducible apply sub_app
    | with_reducible apply out_next
    | with_reducible apply out_fault
    | with_reducible apply out_refused
    | with_reducible apply foldl_kept
    | with_reducible apply foldl_kept1
    | with_reducible apply foldl_kept2
    | with_reducible apply foldl_kept21
    | with_reducible apply foldl_kept22
    | with_reducible exact HalOk.rfl
    | with_reducible exact HbmOk.rfl
    | with_reducible exact PwrOk.rfl
    | with_reducible exact HeatOk.rfl
    | with_reducible exact PkgOk.rfl
    | with_reducible exact StepOk.rfl
    | with_reducible exact FlashOk.rfl
    | with_reducible exact id
    | with_reducible refine HalOk.mk ?_ ?_ ?_ ?_
    | with_reducible refine HbmOk.mk ?_ ?_ ?_
    | with_reducible refine PwrOk.mk ?_ ?_
    | with_reducible refine HeatOk.mk ?_
    | with_reducible refine PkgOk.mk ?_ ?_
    | with_reducible refine StepOk.mk ?_
    | with_reducible refine FlashOk.mk ?_ ?_ ?_ ?_
    | exact id
    | with_reducible apply wf_upd
    | with_reducible apply wf_setList
    | with_reducible apply wf_copy
    | with_reducible apply wf_clear
    | decide
    | (simp only [setAt_length, List.length_map, List.length_zipIdx]; exact id)
    | split
    | intro _
    | dsimp only
    | with_reducible apply wf_foldl
    | with_reducible apply wf_set
    | simp only [kept_mk]
    | with_reducible refine set_mk ?_ ?_ ?_ ?_ ?_ ?_ ?_ ?_ ?_)

theorem execProgramLoadDone_kept {x0 : State} (h0 : Kept q b x0) : OutKept q b (@execProgramLoadDone x0) := by
  unfold execProgramLoadDone
  with_reducible repeat' first | assumption | apply finish_kept | apply extend_kept | apply loadJob_kept | apply out_next | exact out_fault _ | split

theorem execPageTableLoadDone_kept {x0 : State} (h0 : Kept q b x0) : OutKept q b (@execPageTableLoadDone x0) := by
  unfold execPageTableLoadDone
  with_reducible repeat' first | assumption | apply finish_kept | apply extend_kept | apply loadPages_kept | apply out_next | exact out_fault _ | split

theorem execLeadAnnounce_kept (x0 : Pkt) (x1 : Nat) {x2 : State} (h2 : Kept q b x2) : OutKept q b (@execLeadAnnounce x0 x1 x2) := by
  unfold execLeadAnnounce
  try dsimp only
  with_reducible repeat' first | assumption | apply ledgerRow_kept | apply onRed_kept | apply out_next | exact out_fault _ | split | intro _ | apply foldl_kept

theorem execJobOrderReceived_kept (x0 : Pkt) (x1 : JobOrder) {x2 : State} (h2 : Kept q b x2) : OutKept q b (@execJobOrderReceived x0 x1 x2) := by
  unfold execJobOrderReceived
  try dsimp only
  repeat' (first
    | with_reducible assumption
    | with_reducible apply ledgerRow_kept
    | with_reducible apply relayOrder_kept
    | with_reducible apply startJob_kept
    | with_reducible apply follow_kept
    | with_reducible apply jobStarted_kept
    | with_reducible apply halt_kept
    | with_reducible apply on_step
    | with_reducible apply set_job
    | with_reducible apply opt_some
    | with_reducible apply opt_none
    | with_reducible apply sub_app
    | with_reducible apply out_next
    | with_reducible apply out_fault
    | with_reducible apply out_refused
    | with_reducible apply foldl_kept
    | with_reducible apply foldl_kept1
    | with_reducible apply foldl_kept2
    | with_reducible apply foldl_kept21
    | with_reducible apply foldl_kept22
    | with_reducible exact HalOk.rfl
    | with_reducible exact HbmOk.rfl
    | with_reducible exact PwrOk.rfl
    | with_reducible exact HeatOk.rfl
    | with_reducible exact PkgOk.rfl
    | with_reducible exact StepOk.rfl
    | with_reducible exact FlashOk.rfl
    | with_reducible exact id
    | with_reducible refine HalOk.mk ?_ ?_ ?_ ?_
    | with_reducible refine HbmOk.mk ?_ ?_ ?_
    | with_reducible refine PwrOk.mk ?_ ?_
    | with_reducible refine HeatOk.mk ?_
    | with_reducible refine PkgOk.mk ?_ ?_
    | with_reducible refine StepOk.mk ?_
    | with_reducible refine FlashOk.mk ?_ ?_ ?_ ?_
    | exact id
    | with_reducible apply wf_upd
    | with_reducible apply wf_setList
    | with_reducible apply wf_copy
    | with_reducible apply wf_clear
    | decide
    | (simp only [setAt_length, List.length_map, List.length_zipIdx]; exact id)
    | split
    | intro _
    | dsimp only
    | with_reducible apply wf_foldl
    | with_reducible apply wf_set
    | simp only [kept_mk]
    | with_reducible refine set_mk ?_ ?_ ?_ ?_ ?_ ?_ ?_ ?_ ?_)

theorem execLogDrainRequest_kept {x0 : State} (h0 : Kept q b x0) : OutKept q b (@execLogDrainRequest x0) := by
  unfold execLogDrainRequest
  try dsimp only
  with_reducible repeat' first | assumption | apply request_kept | apply out_next | exact out_fault _ | split

theorem execHalterMessageDiscard_kept (x0 : Nat) (x1 : Nat) {x2 : State} (h2 : Kept q b x2) : OutKept q b (@execHalterMessageDiscard x0 x1 x2) := by
  unfold execHalterMessageDiscard
  with_reducible repeat' first | assumption | apply authFail_kept | apply rxCount_kept | apply out_next | exact out_fault _ | split

theorem execHalterUnknownCode_kept (x0 : Hdr) (x1 : BitVec 16) {x2 : State} (h2 : Kept q b x2) : OutKept q b (@execHalterUnknownCode x0 x1 x2) := by
  unfold execHalterUnknownCode
  try dsimp only
  with_reducible repeat' first | assumption | apply command_kept | apply answer_kept | apply out_next | exact out_fault _ | split | intro _ | apply foldl_kept

theorem execReservedOpcode_kept (x0 : TileIx) (x1 : Bool) (x2 : BitVec 8) (x3 : BitVec 22) {x4 : State} (h4 : Kept q b x4) : OutKept q b (@execReservedOpcode x0 x1 x2 x3 x4) := by
  unfold execReservedOpcode
  try dsimp only
  with_reducible repeat' first | assumption | apply vecHold_kept | apply fault_kept | apply issueAny_kept | apply out_next | exact out_fault _ | split

theorem execRowShadowDone_kept (x0 : ChanIx) {x1 : State} (h1 : Kept q b x1) : OutKept q b (@execRowShadowDone x0 x1) := by
  unfold execRowShadowDone
  with_reducible repeat' first | assumption | apply onChan_kept | apply onChanRec_kept | apply out_next | exact out_fault _ | split

theorem execHomeQueueRelease_kept (x0 : Fin 256) {x1 : State} (h1 : Kept q b x1) : OutKept q b (@execHomeQueueRelease x0 x1) := by
  unfold execHomeQueueRelease
  with_reducible repeat' first | assumption | apply goOn_kept | apply release_kept | apply out_next | exact out_fault _ | split

theorem execUncorrectableCodeword_kept (x0 : PortIx) (x1 : Fin 4) {x2 : State} (h2 : Kept q b x2) : OutKept q b (@execUncorrectableCodeword x0 x1 x2) := by
  unfold execUncorrectableCodeword
  try dsimp only
  with_reducible repeat' first | assumption | apply onPort_kept | apply retrain_kept | apply out_next | exact out_fault _ | split

theorem execDirectModeAck_kept (x0 : PortIx) (x1 : Fin 4096) {x2 : State} (h2 : Kept q b x2) : OutKept q b (@execDirectModeAck x0 x1 x2) := by
  unfold execDirectModeAck
  try dsimp only
  with_reducible repeat' first | assumption | apply txDrain_kept | apply onPort_kept | apply out_next | exact out_fault _ | split

theorem execPfcPauseExpiry_kept (x0 : PortIx) (x1 : Fin 8) {x2 : State} (h2 : Kept q b x2) : OutKept q b (@execPfcPauseExpiry x0 x1 x2) := by
  unfold execPfcPauseExpiry
  with_reducible repeat' first | assumption | apply txDrain_kept | apply onPort_kept | apply out_next | exact out_fault _ | split

theorem execPtpIntervalTimer_kept (x0 : PortIx) (x1 : PtpTimer) {x2 : State} (h2 : Kept q b x2) : OutKept q b (@execPtpIntervalTimer x0 x1 x2) := by
  unfold execPtpIntervalTimer
  try dsimp only
  with_reducible repeat' first | assumption | apply sendPtp_kept | apply onPtp_kept | apply bmca_kept | apply out_next | exact out_fault _ | split

theorem execTraceRecordSent_kept {x0 : State} (h0 : Kept q b x0) : OutKept q b (@execTraceRecordSent x0) := by
  unfold execTraceRecordSent
  try dsimp only
  with_reducible repeat' first | assumption | apply send_kept | apply out_next | exact out_fault _ | split | intro _ | apply foldl_kept | simp only [kept_mk] | exact set_mk (by assumption) .rfl .rfl .rfl .rfl .rfl .rfl .rfl id | refine set_mk ?_ .rfl .rfl .rfl .rfl .rfl .rfl .rfl id

end Sys2Proof.Machine
end

