-- ==== Sys2Proof/Laws/Message.lean ====
section
/-! SUPPORT. A REDUCE or LEDGER request that a device takes: what the shared operation of those rows does with it. -/

namespace Sys2Proof.Machine

/-- A packet for which the port has room is handed on; one for which it has none is dropped. -/
theorem rxPacket_eq (s : State) (p : Pkt) (f : State → Out) :
    s.rxPacket p f = if s.rxBeyond p.port (pktClass p) (pktLen p) p.freed then .next (s.rxDiscard p.port) else f (s.packetIn p) :=
  rfl

/-- A request of another device that comes whole is answered by the home, and then acted on as the home's refusal says. -/
theorem msgRow_comes {s : State} {p : Pkt} {op st : Nat} {m : Msg} (stale act : State → State)
    (h : s.MsgComes { p with op := op, msg := some m } st) :
    let t := State.home (s.packetHeard { p with op := op, msg := some m }) { p with op := op, msg := some m } false []
    msgRow op m p stale act s = .next (if st = 0 then act t else if st = 6 then stale t else t) := by
  unfold msgRow
  extract_lets t3 q
  have h : s.MsgComes q st := h
  have h3 : t3 = (s.packetHeard q).home q false [] := rfl
  clear_value t3 q
  have hs : ¬ q.src = s.fab.device := h.src.1
  have hn : (s.packetIn q).fab = s.fab := rfl
  rw [if_neg hs, rxPacket_eq, h.room]
  rw [if_neg Bool.false_ne_true, hn, h.numbered, if_neg (by decide)]
  extract_lets ob t fresh t2
  have ht : t = s.packetHeard q := by
    simp only [t, ob, State.packetHeard, h.whole, if_true]
    rfl
  have hf : fresh = true := by rw [show fresh = t.isNext q from rfl, ht]; exact h.next
  have h2 : t2 = t3 := by rw [h3, ← ht]
  rw [h.whole, if_neg (by decide), if_neg (fun e => e h.dst), hf]
  have ho : t.orderHold t.fab.queue q false = false := by rw [ht]; exact h.order
  have hm : t.malformed q = false := by rw [ht]; exact h.formed
  have hr : t.refusal q = st := by rw [ht]; exact h.refusal
  simp only [ho, hm, hr, Bool.and_false, Bool.not_true, Bool.or_false, Bool.false_eq_true, if_false, h2]

/-- A request that this device takes is acted on, in the state in which it has been heard. -/
theorem msgRow_takes {s : State} {p : Pkt} {op : Nat} {m : Msg} (stale act : State → State)
    (h : s.Takes { p with op := op, msg := some m }) :
    msgRow op m p stale act s = .next (act (s.heard { p with op := op, msg := some m })) := by
  rcases h with h | h
  · have h : p.src = s.fab.device := h
    simp only [msgRow, State.heard, h, if_true]
  · have hs : ¬ p.src = s.fab.device := h.src.1
    simp only [msgRow_comes stale act h, State.heard, hs, if_false, if_true]

end Sys2Proof.Machine
end

