-- ==== Sys2Proof/Laws/State.lean ====
section
/-! SUPPORT. What each update of the state leaves as it was, field by field, and what it reads back. -/

namespace Sys2Proof.Machine

variable (s : State)

@[simp] theorem State.onHal_rest (f : Halter → Halter) :
    (s.onHal f).pending = s.pending ∧ (s.onHal f).flash = s.flash ∧ (s.onHal f).pkg = s.pkg ∧ (s.onHal f).time = s.time ∧
    (s.onHal f).err = s.err ∧ (s.onHal f).boot = s.boot ∧ (s.onHal f).fmt = s.fmt ∧ (s.onHal f).tiles = s.tiles ∧
    (s.onHal f).hbm = s.hbm ∧ (s.onHal f).tier = s.tier ∧ (s.onHal f).fab = s.fab ∧ (s.onHal f).step = s.step ∧
    (s.onHal f).red = s.red ∧ (s.onHal f).obs = s.obs ∧ (s.onHal f).pwr = s.pwr ∧ (s.onHal f).heat = s.heat ∧
    (s.onHal f).ports = s.ports ∧ (s.onHal f).sent = s.sent ∧ (s.onHal f).txWait = s.txWait ∧
    (s.onHal f).freeIx = s.freeIx ∧ (s.onHal f).seeds = s.seeds ∧ (s.onHal f).gens = s.gens :=
  ⟨rfl, rfl, rfl, rfl, rfl, rfl, rfl, rfl, rfl, rfl, rfl, rfl, rfl, rfl, rfl, rfl, rfl, rfl, rfl, rfl, rfl, rfl⟩
@[simp] theorem State.onHal_hal (f : Halter → Halter) : (s.onHal f).hal = f s.hal := rfl
@[simp] theorem State.onBoot_rest (f : Boot → Boot) :
    (s.onBoot f).pending = s.pending ∧ (s.onBoot f).flash = s.flash ∧ (s.onBoot f).pkg = s.pkg ∧
    (s.onBoot f).time = s.time ∧ (s.onBoot f).err = s.err ∧ (s.onBoot f).hal = s.hal ∧ (s.onBoot f).fmt = s.fmt ∧
    (s.onBoot f).tiles = s.tiles ∧ (s.onBoot f).hbm = s.hbm ∧ (s.onBoot f).tier = s.tier ∧ (s.onBoot f).fab = s.fab ∧
    (s.onBoot f).step = s.step ∧ (s.onBoot f).red = s.red ∧ (s.onBoot f).obs = s.obs ∧ (s.onBoot f).pwr = s.pwr ∧
    (s.onBoot f).heat = s.heat ∧ (s.onBoot f).ports = s.ports ∧ (s.onBoot f).sent = s.sent ∧
    (s.onBoot f).txWait = s.txWait ∧ (s.onBoot f).freeIx = s.freeIx ∧ (s.onBoot f).seeds = s.seeds ∧
    (s.onBoot f).gens = s.gens :=
  ⟨rfl, rfl, rfl, rfl, rfl, rfl, rfl, rfl, rfl, rfl, rfl, rfl, rfl, rfl, rfl, rfl, rfl, rfl, rfl, rfl, rfl, rfl⟩
@[simp] theorem State.onBoot_boot (f : Boot → Boot) : (s.onBoot f).boot = f s.boot := rfl
@[simp] theorem State.onPort_rest (p : Nat) (f : Port → Port) :
    (s.onPort p f).pending = s.pending ∧ (s.onPort p f).flash = s.flash ∧ (s.onPort p f).pkg = s.pkg ∧
    (s.onPort p f).time = s.time ∧ (s.onPort p f).err = s.err ∧ (s.onPort p f).hal = s.hal ∧
    (s.onPort p f).boot = s.boot ∧ (s.onPort p f).fmt = s.fmt ∧ (s.onPort p f).tiles = s.tiles ∧
    (s.onPort p f).hbm = s.hbm ∧ (s.onPort p f).tier = s.tier ∧ (s.onPort p f).fab = s.fab ∧
    (s.onPort p f).step = s.step ∧ (s.onPort p f).red = s.red ∧ (s.onPort p f).obs = s.obs ∧ (s.onPort p f).pwr = s.pwr ∧
    (s.onPort p f).heat = s.heat ∧ (s.onPort p f).sent = s.sent ∧ (s.onPort p f).txWait = s.txWait ∧
    (s.onPort p f).freeIx = s.freeIx ∧ (s.onPort p f).seeds = s.seeds ∧ (s.onPort p f).gens = s.gens :=
  ⟨rfl, rfl, rfl, rfl, rfl, rfl, rfl, rfl, rfl, rfl, rfl, rfl, rfl, rfl, rfl, rfl, rfl, rfl, rfl, rfl, rfl, rfl⟩
@[simp] theorem State.onTile_rest (k : Nat) (f : Tile → Tile) :
    (s.onTile k f).pending = s.pending ∧ (s.onTile k f).flash = s.flash ∧ (s.onTile k f).pkg = s.pkg ∧
    (s.onTile k f).time = s.time ∧ (s.onTile k f).err = s.err ∧ (s.onTile k f).hal = s.hal ∧
    (s.onTile k f).boot = s.boot ∧ (s.onTile k f).fmt = s.fmt ∧ (s.onTile k f).hbm = s.hbm ∧
    (s.onTile k f).tier = s.tier ∧ (s.onTile k f).fab = s.fab ∧ (s.onTile k f).step = s.step ∧
    (s.onTile k f).red = s.red ∧ (s.onTile k f).obs = s.obs ∧ (s.onTile k f).pwr = s.pwr ∧ (s.onTile k f).heat = s.heat ∧
    (s.onTile k f).ports = s.ports ∧ (s.onTile k f).sent = s.sent ∧ (s.onTile k f).txWait = s.txWait ∧
    (s.onTile k f).freeIx = s.freeIx ∧ (s.onTile k f).seeds = s.seeds ∧ (s.onTile k f).gens = s.gens :=
  ⟨rfl, rfl, rfl, rfl, rfl, rfl, rfl, rfl, rfl, rfl, rfl, rfl, rfl, rfl, rfl, rfl, rfl, rfl, rfl, rfl, rfl, rfl⟩
@[simp] theorem State.onSlot_rest (l : Nat) (f : SlotErr → SlotErr) :
    (s.onSlot l f).pending = s.pending ∧ (s.onSlot l f).flash = s.flash ∧ (s.onSlot l f).pkg = s.pkg ∧
    (s.onSlot l f).time = s.time ∧ (s.onSlot l f).hal = s.hal ∧ (s.onSlot l f).boot = s.boot ∧
    (s.onSlot l f).fmt = s.fmt ∧ (s.onSlot l f).tiles = s.tiles ∧ (s.onSlot l f).hbm = s.hbm ∧
    (s.onSlot l f).tier = s.tier ∧ (s.onSlot l f).fab = s.fab ∧ (s.onSlot l f).step = s.step ∧
    (s.onSlot l f).red = s.red ∧ (s.onSlot l f).obs = s.obs ∧ (s.onSlot l f).pwr = s.pwr ∧ (s.onSlot l f).heat = s.heat ∧
    (s.onSlot l f).ports = s.ports ∧ (s.onSlot l f).sent = s.sent ∧ (s.onSlot l f).txWait = s.txWait ∧
    (s.onSlot l f).freeIx = s.freeIx ∧ (s.onSlot l f).seeds = s.seeds ∧ (s.onSlot l f).gens = s.gens :=
  ⟨rfl, rfl, rfl, rfl, rfl, rfl, rfl, rfl, rfl, rfl, rfl, rfl, rfl, rfl, rfl, rfl, rfl, rfl, rfl, rfl, rfl, rfl⟩
@[simp] theorem State.onOps_rest (k : Nat) (f : TileOps → TileOps) :
    (s.onOps k f).pending = s.pending ∧ (s.onOps k f).flash = s.flash ∧ (s.onOps k f).pkg = s.pkg ∧
    (s.onOps k f).time = s.time ∧ (s.onOps k f).err = s.err ∧ (s.onOps k f).hal = s.hal ∧ (s.onOps k f).boot = s.boot ∧
    (s.onOps k f).fmt = s.fmt ∧ (s.onOps k f).hbm = s.hbm ∧ (s.onOps k f).tier = s.tier ∧ (s.onOps k f).fab = s.fab ∧
    (s.onOps k f).step = s.step ∧ (s.onOps k f).red = s.red ∧ (s.onOps k f).obs = s.obs ∧ (s.onOps k f).pwr = s.pwr ∧
    (s.onOps k f).heat = s.heat ∧ (s.onOps k f).ports = s.ports ∧ (s.onOps k f).sent = s.sent ∧
    (s.onOps k f).txWait = s.txWait ∧ (s.onOps k f).freeIx = s.freeIx ∧ (s.onOps k f).seeds = s.seeds ∧
    (s.onOps k f).gens = s.gens :=
  ⟨rfl, rfl, rfl, rfl, rfl, rfl, rfl, rfl, rfl, rfl, rfl, rfl, rfl, rfl, rfl, rfl, rfl, rfl, rfl, rfl, rfl, rfl⟩
@[simp] theorem State.onSession_rest (n : Nat) (f : Session → Session) :
    (s.onSession n f).pending = s.pending ∧ (s.onSession n f).flash = s.flash ∧ (s.onSession n f).pkg = s.pkg ∧
    (s.onSession n f).time = s.time ∧ (s.onSession n f).err = s.err ∧ (s.onSession n f).boot = s.boot ∧
    (s.onSession n f).fmt = s.fmt ∧ (s.onSession n f).tiles = s.tiles ∧ (s.onSession n f).hbm = s.hbm ∧
    (s.onSession n f).tier = s.tier ∧ (s.onSession n f).fab = s.fab ∧ (s.onSession n f).step = s.step ∧
    (s.onSession n f).red = s.red ∧ (s.onSession n f).obs = s.obs ∧ (s.onSession n f).pwr = s.pwr ∧
    (s.onSession n f).heat = s.heat ∧ (s.onSession n f).ports = s.ports ∧ (s.onSession n f).sent = s.sent ∧
    (s.onSession n f).txWait = s.txWait ∧ (s.onSession n f).freeIx = s.freeIx ∧ (s.onSession n f).seeds = s.seeds ∧
    (s.onSession n f).gens = s.gens :=
  ⟨rfl, rfl, rfl, rfl, rfl, rfl, rfl, rfl, rfl, rfl, rfl, rfl, rfl, rfl, rfl, rfl, rfl, rfl, rfl, rfl, rfl, rfl⟩
@[simp] theorem State.onFab_rest (f : Fabric → Fabric) :
    (s.onFab f).pending = s.pending ∧ (s.onFab f).flash = s.flash ∧ (s.onFab f).pkg = s.pkg ∧ (s.onFab f).time = s.time ∧
    (s.onFab f).err = s.err ∧ (s.onFab f).hal = s.hal ∧ (s.onFab f).boot = s.boot ∧ (s.onFab f).fmt = s.fmt ∧
    (s.onFab f).tiles = s.tiles ∧ (s.onFab f).hbm = s.hbm ∧ (s.onFab f).tier = s.tier ∧ (s.onFab f).step = s.step ∧
    (s.onFab f).red = s.red ∧ (s.onFab f).obs = s.obs ∧ (s.onFab f).pwr = s.pwr ∧ (s.onFab f).heat = s.heat ∧
    (s.onFab f).ports = s.ports ∧ (s.onFab f).sent = s.sent ∧ (s.onFab f).txWait = s.txWait ∧
    (s.onFab f).freeIx = s.freeIx ∧ (s.onFab f).seeds = s.seeds ∧ (s.onFab f).gens = s.gens :=
  ⟨rfl, rfl, rfl, rfl, rfl, rfl, rfl, rfl, rfl, rfl, rfl, rfl, rfl, rfl, rfl, rfl, rfl, rfl, rfl, rfl, rfl, rfl⟩
@[simp] theorem State.onFab_fab (f : Fabric → Fabric) : (s.onFab f).fab = f s.fab := rfl
@[simp] theorem State.onFabCmd_rest (k i : Nat) (f : FabCmd → FabCmd) :
    (s.onFabCmd k i f).pending = s.pending ∧ (s.onFabCmd k i f).flash = s.flash ∧ (s.onFabCmd k i f).pkg = s.pkg ∧
    (s.onFabCmd k i f).time = s.time ∧ (s.onFabCmd k i f).err = s.err ∧ (s.onFabCmd k i f).hal = s.hal ∧
    (s.onFabCmd k i f).boot = s.boot ∧ (s.onFabCmd k i f).fmt = s.fmt ∧ (s.onFabCmd k i f).hbm = s.hbm ∧
    (s.onFabCmd k i f).tier = s.tier ∧ (s.onFabCmd k i f).fab = s.fab ∧ (s.onFabCmd k i f).step = s.step ∧
    (s.onFabCmd k i f).red = s.red ∧ (s.onFabCmd k i f).obs = s.obs ∧ (s.onFabCmd k i f).pwr = s.pwr ∧
    (s.onFabCmd k i f).heat = s.heat ∧ (s.onFabCmd k i f).ports = s.ports ∧ (s.onFabCmd k i f).sent = s.sent ∧
    (s.onFabCmd k i f).txWait = s.txWait ∧ (s.onFabCmd k i f).freeIx = s.freeIx ∧ (s.onFabCmd k i f).seeds = s.seeds ∧
    (s.onFabCmd k i f).gens = s.gens :=
  ⟨rfl, rfl, rfl, rfl, rfl, rfl, rfl, rfl, rfl, rfl, rfl, rfl, rfl, rfl, rfl, rfl, rfl, rfl, rfl, rfl, rfl, rfl⟩
@[simp] theorem State.onSender_rest (d : Nat) (f : Sender → Sender) :
    (s.onSender d f).pending = s.pending ∧ (s.onSender d f).flash = s.flash ∧ (s.onSender d f).pkg = s.pkg ∧
    (s.onSender d f).time = s.time ∧ (s.onSender d f).err = s.err ∧ (s.onSender d f).hal = s.hal ∧
    (s.onSender d f).boot = s.boot ∧ (s.onSender d f).fmt = s.fmt ∧ (s.onSender d f).tiles = s.tiles ∧
    (s.onSender d f).hbm = s.hbm ∧ (s.onSender d f).tier = s.tier ∧ (s.onSender d f).step = s.step ∧
    (s.onSender d f).red = s.red ∧ (s.onSender d f).obs = s.obs ∧ (s.onSender d f).pwr = s.pwr ∧
    (s.onSender d f).heat = s.heat ∧ (s.onSender d f).ports = s.ports ∧ (s.onSender d f).sent = s.sent ∧
    (s.onSender d f).txWait = s.txWait ∧ (s.onSender d f).freeIx = s.freeIx ∧ (s.onSender d f).seeds = s.seeds ∧
    (s.onSender d f).gens = s.gens :=
  ⟨rfl, rfl, rfl, rfl, rfl, rfl, rfl, rfl, rfl, rfl, rfl, rfl, rfl, rfl, rfl, rfl, rfl, rfl, rfl, rfl, rfl, rfl⟩
@[simp] theorem State.onPeer_rest (d : Nat) (f : Peer → Peer) :
    (s.onPeer d f).pending = s.pending ∧ (s.onPeer d f).flash = s.flash ∧ (s.onPeer d f).pkg = s.pkg ∧
    (s.onPeer d f).time = s.time ∧ (s.onPeer d f).err = s.err ∧ (s.onPeer d f).hal = s.hal ∧
    (s.onPeer d f).boot = s.boot ∧ (s.onPeer d f).fmt = s.fmt ∧ (s.onPeer d f).tiles = s.tiles ∧
    (s.onPeer d f).hbm = s.hbm ∧ (s.onPeer d f).tier = s.tier ∧ (s.onPeer d f).step = s.step ∧
    (s.onPeer d f).red = s.red ∧ (s.onPeer d f).obs = s.obs ∧ (s.onPeer d f).pwr = s.pwr ∧ (s.onPeer d f).heat = s.heat ∧
    (s.onPeer d f).ports = s.ports ∧ (s.onPeer d f).sent = s.sent ∧ (s.onPeer d f).txWait = s.txWait ∧
    (s.onPeer d f).freeIx = s.freeIx ∧ (s.onPeer d f).seeds = s.seeds ∧ (s.onPeer d f).gens = s.gens :=
  ⟨rfl, rfl, rfl, rfl, rfl, rfl, rfl, rfl, rfl, rfl, rfl, rfl, rfl, rfl, rfl, rfl, rfl, rfl, rfl, rfl, rfl, rfl⟩
@[simp] theorem State.onPr_rest (g : Nat) (f : PwrRegion → PwrRegion) :
    (s.onPr g f).pending = s.pending ∧ (s.onPr g f).flash = s.flash ∧ (s.onPr g f).pkg = s.pkg ∧
    (s.onPr g f).time = s.time ∧ (s.onPr g f).err = s.err ∧ (s.onPr g f).hal = s.hal ∧ (s.onPr g f).boot = s.boot ∧
    (s.onPr g f).fmt = s.fmt ∧ (s.onPr g f).tiles = s.tiles ∧ (s.onPr g f).hbm = s.hbm ∧ (s.onPr g f).tier = s.tier ∧
    (s.onPr g f).fab = s.fab ∧ (s.onPr g f).step = s.step ∧ (s.onPr g f).red = s.red ∧ (s.onPr g f).obs = s.obs ∧
    (s.onPr g f).heat = s.heat ∧ (s.onPr g f).ports = s.ports ∧ (s.onPr g f).sent = s.sent ∧
    (s.onPr g f).txWait = s.txWait ∧ (s.onPr g f).freeIx = s.freeIx ∧ (s.onPr g f).seeds = s.seeds ∧
    (s.onPr g f).gens = s.gens :=
  ⟨rfl, rfl, rfl, rfl, rfl, rfl, rfl, rfl, rfl, rfl, rfl, rfl, rfl, rfl, rfl, rfl, rfl, rfl, rfl, rfl, rfl, rfl⟩
@[simp] theorem State.onPwr_rest (f : Power → Power) :
    (s.onPwr f).pending = s.pending ∧ (s.onPwr f).flash = s.flash ∧ (s.onPwr f).pkg = s.pkg ∧ (s.onPwr f).time = s.time ∧
    (s.onPwr f).err = s.err ∧ (s.onPwr f).hal = s.hal ∧ (s.onPwr f).boot = s.boot ∧ (s.onPwr f).fmt = s.fmt ∧
    (s.onPwr f).tiles = s.tiles ∧ (s.onPwr f).hbm = s.hbm ∧ (s.onPwr f).tier = s.tier ∧ (s.onPwr f).fab = s.fab ∧
    (s.onPwr f).step = s.step ∧ (s.onPwr f).red = s.red ∧ (s.onPwr f).obs = s.obs ∧ (s.onPwr f).heat = s.heat ∧
    (s.onPwr f).ports = s.ports ∧ (s.onPwr f).sent = s.sent ∧ (s.onPwr f).txWait = s.txWait ∧
    (s.onPwr f).freeIx = s.freeIx ∧ (s.onPwr f).seeds = s.seeds ∧ (s.onPwr f).gens = s.gens :=
  ⟨rfl, rfl, rfl, rfl, rfl, rfl, rfl, rfl, rfl, rfl, rfl, rfl, rfl, rfl, rfl, rfl, rfl, rfl, rfl, rfl, rfl, rfl⟩
@[simp] theorem State.onPwr_pwr (f : Power → Power) : (s.onPwr f).pwr = f s.pwr := rfl
@[simp] theorem State.onDie_rest (d : Nat) (f : PwrDie → PwrDie) :
    (s.onDie d f).pending = s.pending ∧ (s.onDie d f).flash = s.flash ∧ (s.onDie d f).pkg = s.pkg ∧
    (s.onDie d f).time = s.time ∧ (s.onDie d f).err = s.err ∧ (s.onDie d f).hal = s.hal ∧ (s.onDie d f).boot = s.boot ∧
    (s.onDie d f).fmt = s.fmt ∧ (s.onDie d f).tiles = s.tiles ∧ (s.onDie d f).hbm = s.hbm ∧ (s.onDie d f).tier = s.tier ∧
    (s.onDie d f).fab = s.fab ∧ (s.onDie d f).step = s.step ∧ (s.onDie d f).red = s.red ∧ (s.onDie d f).obs = s.obs ∧
    (s.onDie d f).heat = s.heat ∧ (s.onDie d f).ports = s.ports ∧ (s.onDie d f).sent = s.sent ∧
    (s.onDie d f).txWait = s.txWait ∧ (s.onDie d f).freeIx = s.freeIx ∧ (s.onDie d f).seeds = s.seeds ∧
    (s.onDie d f).gens = s.gens :=
  ⟨rfl, rfl, rfl, rfl, rfl, rfl, rfl, rfl, rfl, rfl, rfl, rfl, rfl, rfl, rfl, rfl, rfl, rfl, rfl, rfl, rfl, rfl⟩
@[simp] theorem State.onRed_rest (f : Red → Red) :
    (s.onRed f).pending = s.pending ∧ (s.onRed f).flash = s.flash ∧ (s.onRed f).pkg = s.pkg ∧ (s.onRed f).time = s.time ∧
    (s.onRed f).err = s.err ∧ (s.onRed f).hal = s.hal ∧ (s.onRed f).boot = s.boot ∧ (s.onRed f).fmt = s.fmt ∧
    (s.onRed f).tiles = s.tiles ∧ (s.onRed f).hbm = s.hbm ∧ (s.onRed f).tier = s.tier ∧ (s.onRed f).fab = s.fab ∧
    (s.onRed f).step = s.step ∧ (s.onRed f).obs = s.obs ∧ (s.onRed f).pwr = s.pwr ∧ (s.onRed f).heat = s.heat ∧
    (s.onRed f).ports = s.ports ∧ (s.onRed f).sent = s.sent ∧ (s.onRed f).txWait = s.txWait ∧
    (s.onRed f).freeIx = s.freeIx ∧ (s.onRed f).seeds = s.seeds ∧ (s.onRed f).gens = s.gens :=
  ⟨rfl, rfl, rfl, rfl, rfl, rfl, rfl, rfl, rfl, rfl, rfl, rfl, rfl, rfl, rfl, rfl, rfl, rfl, rfl, rfl, rfl, rfl⟩
@[simp] theorem State.onRed_red (f : Red → Red) : (s.onRed f).red = f s.red := rfl
@[simp] theorem State.onTag_rest (g : Nat) (f : TagSt → TagSt) :
    (s.onTag g f).pending = s.pending ∧ (s.onTag g f).flash = s.flash ∧ (s.onTag g f).pkg = s.pkg ∧
    (s.onTag g f).time = s.time ∧ (s.onTag g f).err = s.err ∧ (s.onTag g f).hal = s.hal ∧ (s.onTag g f).boot = s.boot ∧
    (s.onTag g f).fmt = s.fmt ∧ (s.onTag g f).tiles = s.tiles ∧ (s.onTag g f).hbm = s.hbm ∧ (s.onTag g f).tier = s.tier ∧
    (s.onTag g f).fab = s.fab ∧ (s.onTag g f).step = s.step ∧ (s.onTag g f).obs = s.obs ∧ (s.onTag g f).pwr = s.pwr ∧
    (s.onTag g f).heat = s.heat ∧ (s.onTag g f).ports = s.ports ∧ (s.onTag g f).sent = s.sent ∧
    (s.onTag g f).txWait = s.txWait ∧ (s.onTag g f).freeIx = s.freeIx ∧ (s.onTag g f).seeds = s.seeds ∧
    (s.onTag g f).gens = s.gens :=
  ⟨rfl, rfl, rfl, rfl, rfl, rfl, rfl, rfl, rfl, rfl, rfl, rfl, rfl, rfl, rfl, rfl, rfl, rfl, rfl, rfl, rfl, rfl⟩
@[simp] theorem State.onMx_rest (k i : Nat) (f : MxCmd → MxCmd) :
    (s.onMx k i f).pending = s.pending ∧ (s.onMx k i f).flash = s.flash ∧ (s.onMx k i f).pkg = s.pkg ∧
    (s.onMx k i f).time = s.time ∧ (s.onMx k i f).err = s.err ∧ (s.onMx k i f).hal = s.hal ∧
    (s.onMx k i f).boot = s.boot ∧ (s.onMx k i f).fmt = s.fmt ∧ (s.onMx k i f).hbm = s.hbm ∧
    (s.onMx k i f).tier = s.tier ∧ (s.onMx k i f).fab = s.fab ∧ (s.onMx k i f).step = s.step ∧
    (s.onMx k i f).red = s.red ∧ (s.onMx k i f).obs = s.obs ∧ (s.onMx k i f).pwr = s.pwr ∧ (s.onMx k i f).heat = s.heat ∧
    (s.onMx k i f).ports = s.ports ∧ (s.onMx k i f).sent = s.sent ∧ (s.onMx k i f).txWait = s.txWait ∧
    (s.onMx k i f).freeIx = s.freeIx ∧ (s.onMx k i f).seeds = s.seeds ∧ (s.onMx k i f).gens = s.gens :=
  ⟨rfl, rfl, rfl, rfl, rfl, rfl, rfl, rfl, rfl, rfl, rfl, rfl, rfl, rfl, rfl, rfl, rfl, rfl, rfl, rfl, rfl, rfl⟩
@[simp] theorem State.dropMx_rest (k i : Nat) :
    (s.dropMx k i).pending = s.pending ∧ (s.dropMx k i).flash = s.flash ∧ (s.dropMx k i).pkg = s.pkg ∧
    (s.dropMx k i).time = s.time ∧ (s.dropMx k i).err = s.err ∧ (s.dropMx k i).hal = s.hal ∧
    (s.dropMx k i).boot = s.boot ∧ (s.dropMx k i).fmt = s.fmt ∧ (s.dropMx k i).hbm = s.hbm ∧
    (s.dropMx k i).tier = s.tier ∧ (s.dropMx k i).fab = s.fab ∧ (s.dropMx k i).step = s.step ∧
    (s.dropMx k i).red = s.red ∧ (s.dropMx k i).obs = s.obs ∧ (s.dropMx k i).pwr = s.pwr ∧ (s.dropMx k i).heat = s.heat ∧
    (s.dropMx k i).ports = s.ports ∧ (s.dropMx k i).sent = s.sent ∧ (s.dropMx k i).txWait = s.txWait ∧
    (s.dropMx k i).freeIx = s.freeIx ∧ (s.dropMx k i).seeds = s.seeds ∧ (s.dropMx k i).gens = s.gens :=
  ⟨rfl, rfl, rfl, rfl, rfl, rfl, rfl, rfl, rfl, rfl, rfl, rfl, rfl, rfl, rfl, rfl, rfl, rfl, rfl, rfl, rfl, rfl⟩
@[simp] theorem State.onPn_rest (k : Nat) (f : Pannier → Pannier) :
    (s.onPn k f).pending = s.pending ∧ (s.onPn k f).flash = s.flash ∧ (s.onPn k f).pkg = s.pkg ∧
    (s.onPn k f).time = s.time ∧ (s.onPn k f).err = s.err ∧ (s.onPn k f).hal = s.hal ∧ (s.onPn k f).boot = s.boot ∧
    (s.onPn k f).fmt = s.fmt ∧ (s.onPn k f).hbm = s.hbm ∧ (s.onPn k f).tier = s.tier ∧ (s.onPn k f).fab = s.fab ∧
    (s.onPn k f).step = s.step ∧ (s.onPn k f).red = s.red ∧ (s.onPn k f).obs = s.obs ∧ (s.onPn k f).pwr = s.pwr ∧
    (s.onPn k f).heat = s.heat ∧ (s.onPn k f).ports = s.ports ∧ (s.onPn k f).sent = s.sent ∧
    (s.onPn k f).txWait = s.txWait ∧ (s.onPn k f).freeIx = s.freeIx ∧ (s.onPn k f).seeds = s.seeds ∧
    (s.onPn k f).gens = s.gens :=
  ⟨rfl, rfl, rfl, rfl, rfl, rfl, rfl, rfl, rfl, rfl, rfl, rfl, rfl, rfl, rfl, rfl, rfl, rfl, rfl, rfl, rfl, rfl⟩
@[simp] theorem State.onPnHead_rest (k : Nat) (f : PnCmd → PnCmd) :
    (s.onPnHead k f).pending = s.pending ∧ (s.onPnHead k f).flash = s.flash ∧ (s.onPnHead k f).pkg = s.pkg ∧
    (s.onPnHead k f).time = s.time ∧ (s.onPnHead k f).err = s.err ∧ (s.onPnHead k f).hal = s.hal ∧
    (s.onPnHead k f).boot = s.boot ∧ (s.onPnHead k f).fmt = s.fmt ∧ (s.onPnHead k f).hbm = s.hbm ∧
    (s.onPnHead k f).tier = s.tier ∧ (s.onPnHead k f).fab = s.fab ∧ (s.onPnHead k f).step = s.step ∧
    (s.onPnHead k f).red = s.red ∧ (s.onPnHead k f).obs = s.obs ∧ (s.onPnHead k f).pwr = s.pwr ∧
    (s.onPnHead k f).heat = s.heat ∧ (s.onPnHead k f).ports = s.ports ∧ (s.onPnHead k f).sent = s.sent ∧
    (s.onPnHead k f).txWait = s.txWait ∧ (s.onPnHead k f).freeIx = s.freeIx ∧ (s.onPnHead k f).seeds = s.seeds ∧
    (s.onPnHead k f).gens = s.gens :=
  ⟨rfl, rfl, rfl, rfl, rfl, rfl, rfl, rfl, rfl, rfl, rfl, rfl, rfl, rfl, rfl, rfl, rfl, rfl, rfl, rfl, rfl, rfl⟩
@[simp] theorem State.dropPn_rest (k : Nat) :
    (s.dropPn k).pending = s.pending ∧ (s.dropPn k).flash = s.flash ∧ (s.dropPn k).pkg = s.pkg ∧
    (s.dropPn k).time = s.time ∧ (s.dropPn k).err = s.err ∧ (s.dropPn k).hal = s.hal ∧ (s.dropPn k).boot = s.boot ∧
    (s.dropPn k).fmt = s.fmt ∧ (s.dropPn k).hbm = s.hbm ∧ (s.dropPn k).tier = s.tier ∧ (s.dropPn k).fab = s.fab ∧
    (s.dropPn k).step = s.step ∧ (s.dropPn k).red = s.red ∧ (s.dropPn k).obs = s.obs ∧ (s.dropPn k).pwr = s.pwr ∧
    (s.dropPn k).heat = s.heat ∧ (s.dropPn k).ports = s.ports ∧ (s.dropPn k).sent = s.sent ∧
    (s.dropPn k).txWait = s.txWait ∧ (s.dropPn k).freeIx = s.freeIx ∧ (s.dropPn k).seeds = s.seeds ∧
    (s.dropPn k).gens = s.gens :=
  ⟨rfl, rfl, rfl, rfl, rfl, rfl, rfl, rfl, rfl, rfl, rfl, rfl, rfl, rfl, rfl, rfl, rfl, rfl, rfl, rfl, rfl, rfl⟩
@[simp] theorem State.post_rest (k : Nat) :
    (s.post k).pending = s.pending ∧ (s.post k).flash = s.flash ∧ (s.post k).pkg = s.pkg ∧ (s.post k).time = s.time ∧
    (s.post k).err = s.err ∧ (s.post k).hal = s.hal ∧ (s.post k).boot = s.boot ∧ (s.post k).fmt = s.fmt ∧
    (s.post k).hbm = s.hbm ∧ (s.post k).tier = s.tier ∧ (s.post k).fab = s.fab ∧ (s.post k).step = s.step ∧
    (s.post k).red = s.red ∧ (s.post k).obs = s.obs ∧ (s.post k).pwr = s.pwr ∧ (s.post k).heat = s.heat ∧
    (s.post k).ports = s.ports ∧ (s.post k).sent = s.sent ∧ (s.post k).txWait = s.txWait ∧ (s.post k).freeIx = s.freeIx ∧
    (s.post k).seeds = s.seeds ∧ (s.post k).gens = s.gens :=
  ⟨rfl, rfl, rfl, rfl, rfl, rfl, rfl, rfl, rfl, rfl, rfl, rfl, rfl, rfl, rfl, rfl, rfl, rfl, rfl, rfl, rfl, rfl⟩
@[simp] theorem State.onChan_rest (m : Nat) (f : Chan → Chan) :
    (s.onChan m f).pending = s.pending ∧ (s.onChan m f).flash = s.flash ∧ (s.onChan m f).pkg = s.pkg ∧
    (s.onChan m f).time = s.time ∧ (s.onChan m f).err = s.err ∧ (s.onChan m f).hal = s.hal ∧
    (s.onChan m f).boot = s.boot ∧ (s.onChan m f).fmt = s.fmt ∧ (s.onChan m f).tiles = s.tiles ∧
    (s.onChan m f).tier = s.tier ∧ (s.onChan m f).fab = s.fab ∧ (s.onChan m f).step = s.step ∧
    (s.onChan m f).red = s.red ∧ (s.onChan m f).obs = s.obs ∧ (s.onChan m f).pwr = s.pwr ∧ (s.onChan m f).heat = s.heat ∧
    (s.onChan m f).ports = s.ports ∧ (s.onChan m f).sent = s.sent ∧ (s.onChan m f).txWait = s.txWait ∧
    (s.onChan m f).freeIx = s.freeIx ∧ (s.onChan m f).seeds = s.seeds ∧ (s.onChan m f).gens = s.gens :=
  ⟨rfl, rfl, rfl, rfl, rfl, rfl, rfl, rfl, rfl, rfl, rfl, rfl, rfl, rfl, rfl, rfl, rfl, rfl, rfl, rfl, rfl, rfl⟩
@[simp] theorem State.onUnit_rest (a : Nat) (f : UnitMeta → UnitMeta) :
    (s.onUnit a f).pending = s.pending ∧ (s.onUnit a f).flash = s.flash ∧ (s.onUnit a f).pkg = s.pkg ∧
    (s.onUnit a f).time = s.time ∧ (s.onUnit a f).err = s.err ∧ (s.onUnit a f).hal = s.hal ∧
    (s.onUnit a f).boot = s.boot ∧ (s.onUnit a f).fmt = s.fmt ∧ (s.onUnit a f).tiles = s.tiles ∧
    (s.onUnit a f).tier = s.tier ∧ (s.onUnit a f).fab = s.fab ∧ (s.onUnit a f).step = s.step ∧
    (s.onUnit a f).red = s.red ∧ (s.onUnit a f).obs = s.obs ∧ (s.onUnit a f).pwr = s.pwr ∧ (s.onUnit a f).heat = s.heat ∧
    (s.onUnit a f).ports = s.ports ∧ (s.onUnit a f).sent = s.sent ∧ (s.onUnit a f).txWait = s.txWait ∧
    (s.onUnit a f).freeIx = s.freeIx ∧ (s.onUnit a f).seeds = s.seeds ∧ (s.onUnit a f).gens = s.gens :=
  ⟨rfl, rfl, rfl, rfl, rfl, rfl, rfl, rfl, rfl, rfl, rfl, rfl, rfl, rfl, rfl, rfl, rfl, rfl, rfl, rfl, rfl, rfl⟩
@[simp] theorem State.onChanRec_rest (m : Nat) (f : ChanRec → ChanRec) :
    (s.onChanRec m f).pending = s.pending ∧ (s.onChanRec m f).pkg = s.pkg ∧ (s.onChanRec m f).time = s.time ∧
    (s.onChanRec m f).err = s.err ∧ (s.onChanRec m f).hal = s.hal ∧ (s.onChanRec m f).boot = s.boot ∧
    (s.onChanRec m f).fmt = s.fmt ∧ (s.onChanRec m f).tiles = s.tiles ∧ (s.onChanRec m f).hbm = s.hbm ∧
    (s.onChanRec m f).tier = s.tier ∧ (s.onChanRec m f).fab = s.fab ∧ (s.onChanRec m f).step = s.step ∧
    (s.onChanRec m f).red = s.red ∧ (s.onChanRec m f).obs = s.obs ∧ (s.onChanRec m f).pwr = s.pwr ∧
    (s.onChanRec m f).heat = s.heat ∧ (s.onChanRec m f).ports = s.ports ∧ (s.onChanRec m f).sent = s.sent ∧
    (s.onChanRec m f).txWait = s.txWait ∧ (s.onChanRec m f).freeIx = s.freeIx ∧ (s.onChanRec m f).seeds = s.seeds ∧
    (s.onChanRec m f).gens = s.gens :=
  ⟨rfl, rfl, rfl, rfl, rfl, rfl, rfl, rfl, rfl, rfl, rfl, rfl, rfl, rfl, rfl, rfl, rfl, rfl, rfl, rfl, rfl, rfl⟩
/-- With no page table in HBM a change of an entry changes the books of the tiers alone. -/
theorem State.onPage_eq (p : Nat) (f : Page → Page) (h : s.tier.tableBase = s.tier.tableMirror) :
    s.onPage p f = { s with tier := { s.tier with pages := Tbl.upd {} s.tier.pages p f } } := by
  simp [State.onPage, h]
@[simp] theorem State.onMove_rest (p : Nat) (f : Move → Move) :
    (s.onMove p f).pending = s.pending ∧ (s.onMove p f).flash = s.flash ∧ (s.onMove p f).pkg = s.pkg ∧
    (s.onMove p f).time = s.time ∧ (s.onMove p f).err = s.err ∧ (s.onMove p f).hal = s.hal ∧
    (s.onMove p f).boot = s.boot ∧ (s.onMove p f).fmt = s.fmt ∧ (s.onMove p f).tiles = s.tiles ∧
    (s.onMove p f).hbm = s.hbm ∧ (s.onMove p f).fab = s.fab ∧ (s.onMove p f).step = s.step ∧ (s.onMove p f).red = s.red ∧
    (s.onMove p f).obs = s.obs ∧ (s.onMove p f).pwr = s.pwr ∧ (s.onMove p f).heat = s.heat ∧
    (s.onMove p f).ports = s.ports ∧ (s.onMove p f).sent = s.sent ∧ (s.onMove p f).txWait = s.txWait ∧
    (s.onMove p f).freeIx = s.freeIx ∧ (s.onMove p f).seeds = s.seeds ∧ (s.onMove p f).gens = s.gens :=
  ⟨rfl, rfl, rfl, rfl, rfl, rfl, rfl, rfl, rfl, rfl, rfl, rfl, rfl, rfl, rfl, rfl, rfl, rfl, rfl, rfl, rfl, rfl⟩
@[simp] theorem State.onTier_rest (f : Tier → Tier) :
    (s.onTier f).pending = s.pending ∧ (s.onTier f).flash = s.flash ∧ (s.onTier f).pkg = s.pkg ∧
    (s.onTier f).time = s.time ∧ (s.onTier f).err = s.err ∧ (s.onTier f).hal = s.hal ∧ (s.onTier f).boot = s.boot ∧
    (s.onTier f).fmt = s.fmt ∧ (s.onTier f).tiles = s.tiles ∧ (s.onTier f).hbm = s.hbm ∧ (s.onTier f).fab = s.fab ∧
    (s.onTier f).step = s.step ∧ (s.onTier f).red = s.red ∧ (s.onTier f).obs = s.obs ∧ (s.onTier f).pwr = s.pwr ∧
    (s.onTier f).heat = s.heat ∧ (s.onTier f).ports = s.ports ∧ (s.onTier f).sent = s.sent ∧
    (s.onTier f).txWait = s.txWait ∧ (s.onTier f).freeIx = s.freeIx ∧ (s.onTier f).seeds = s.seeds ∧
    (s.onTier f).gens = s.gens :=
  ⟨rfl, rfl, rfl, rfl, rfl, rfl, rfl, rfl, rfl, rfl, rfl, rfl, rfl, rfl, rfl, rfl, rfl, rfl, rfl, rfl, rfl, rfl⟩
@[simp] theorem State.onTier_tier (f : Tier → Tier) : (s.onTier f).tier = f s.tier := rfl
@[simp] theorem State.onObs_rest (f : Observe → Observe) :
    (s.onObs f).pending = s.pending ∧ (s.onObs f).flash = s.flash ∧ (s.onObs f).pkg = s.pkg ∧ (s.onObs f).time = s.time ∧
    (s.onObs f).err = s.err ∧ (s.onObs f).hal = s.hal ∧ (s.onObs f).boot = s.boot ∧ (s.onObs f).fmt = s.fmt ∧
    (s.onObs f).tiles = s.tiles ∧ (s.onObs f).hbm = s.hbm ∧ (s.onObs f).tier = s.tier ∧ (s.onObs f).fab = s.fab ∧
    (s.onObs f).step = s.step ∧ (s.onObs f).red = s.red ∧ (s.onObs f).pwr = s.pwr ∧ (s.onObs f).heat = s.heat ∧
    (s.onObs f).ports = s.ports ∧ (s.onObs f).sent = s.sent ∧ (s.onObs f).txWait = s.txWait ∧
    (s.onObs f).freeIx = s.freeIx ∧ (s.onObs f).seeds = s.seeds ∧ (s.onObs f).gens = s.gens :=
  ⟨rfl, rfl, rfl, rfl, rfl, rfl, rfl, rfl, rfl, rfl, rfl, rfl, rfl, rfl, rfl, rfl, rfl, rfl, rfl, rfl, rfl, rfl⟩
@[simp] theorem State.onObs_obs (f : Observe → Observe) : (s.onObs f).obs = f s.obs := rfl
@[simp] theorem State.onHeat_rest (f : Heat → Heat) :
    (s.onHeat f).pending = s.pending ∧ (s.onHeat f).flash = s.flash ∧ (s.onHeat f).pkg = s.pkg ∧
    (s.onHeat f).time = s.time ∧ (s.onHeat f).err = s.err ∧ (s.onHeat f).hal = s.hal ∧ (s.onHeat f).boot = s.boot ∧
    (s.onHeat f).fmt = s.fmt ∧ (s.onHeat f).tiles = s.tiles ∧ (s.onHeat f).hbm = s.hbm ∧ (s.onHeat f).tier = s.tier ∧
    (s.onHeat f).fab = s.fab ∧ (s.onHeat f).step = s.step ∧ (s.onHeat f).red = s.red ∧ (s.onHeat f).obs = s.obs ∧
    (s.onHeat f).pwr = s.pwr ∧ (s.onHeat f).ports = s.ports ∧ (s.onHeat f).sent = s.sent ∧
    (s.onHeat f).txWait = s.txWait ∧ (s.onHeat f).freeIx = s.freeIx ∧ (s.onHeat f).seeds = s.seeds ∧
    (s.onHeat f).gens = s.gens :=
  ⟨rfl, rfl, rfl, rfl, rfl, rfl, rfl, rfl, rfl, rfl, rfl, rfl, rfl, rfl, rfl, rfl, rfl, rfl, rfl, rfl, rfl, rfl⟩
@[simp] theorem State.onHeat_heat (f : Heat → Heat) : (s.onHeat f).heat = f s.heat := rfl
@[simp] theorem State.onStep_rest (f : Step → Step) :
    (s.onStep f).pending = s.pending ∧ (s.onStep f).flash = s.flash ∧ (s.onStep f).pkg = s.pkg ∧
    (s.onStep f).time = s.time ∧ (s.onStep f).err = s.err ∧ (s.onStep f).hal = s.hal ∧ (s.onStep f).boot = s.boot ∧
    (s.onStep f).fmt = s.fmt ∧ (s.onStep f).tiles = s.tiles ∧ (s.onStep f).hbm = s.hbm ∧ (s.onStep f).tier = s.tier ∧
    (s.onStep f).fab = s.fab ∧ (s.onStep f).red = s.red ∧ (s.onStep f).obs = s.obs ∧ (s.onStep f).pwr = s.pwr ∧
    (s.onStep f).heat = s.heat ∧ (s.onStep f).ports = s.ports ∧ (s.onStep f).sent = s.sent ∧
    (s.onStep f).txWait = s.txWait ∧ (s.onStep f).freeIx = s.freeIx ∧ (s.onStep f).seeds = s.seeds ∧
    (s.onStep f).gens = s.gens :=
  ⟨rfl, rfl, rfl, rfl, rfl, rfl, rfl, rfl, rfl, rfl, rfl, rfl, rfl, rfl, rfl, rfl, rfl, rfl, rfl, rfl, rfl, rfl⟩
@[simp] theorem State.onStep_step (f : Step → Step) : (s.onStep f).step = f s.step := rfl
@[simp] theorem State.onTime_rest (f : Time → Time) :
    (s.onTime f).pending = s.pending ∧ (s.onTime f).flash = s.flash ∧ (s.onTime f).pkg = s.pkg ∧
    (s.onTime f).err = s.err ∧ (s.onTime f).hal = s.hal ∧ (s.onTime f).boot = s.boot ∧ (s.onTime f).fmt = s.fmt ∧
    (s.onTime f).tiles = s.tiles ∧ (s.onTime f).hbm = s.hbm ∧ (s.onTime f).tier = s.tier ∧ (s.onTime f).fab = s.fab ∧
    (s.onTime f).step = s.step ∧ (s.onTime f).red = s.red ∧ (s.onTime f).obs = s.obs ∧ (s.onTime f).pwr = s.pwr ∧
    (s.onTime f).heat = s.heat ∧ (s.onTime f).ports = s.ports ∧ (s.onTime f).sent = s.sent ∧
    (s.onTime f).txWait = s.txWait ∧ (s.onTime f).freeIx = s.freeIx ∧ (s.onTime f).seeds = s.seeds ∧
    (s.onTime f).gens = s.gens :=
  ⟨rfl, rfl, rfl, rfl, rfl, rfl, rfl, rfl, rfl, rfl, rfl, rfl, rfl, rfl, rfl, rfl, rfl, rfl, rfl, rfl, rfl, rfl⟩
@[simp] theorem State.onTime_time (f : Time → Time) : (s.onTime f).time = f s.time := rfl
@[simp] theorem State.onPtp_rest (p : Nat) (f : PtpPort → PtpPort) :
    (s.onPtp p f).pending = s.pending ∧ (s.onPtp p f).flash = s.flash ∧ (s.onPtp p f).pkg = s.pkg ∧
    (s.onPtp p f).time = s.time ∧ (s.onPtp p f).err = s.err ∧ (s.onPtp p f).hal = s.hal ∧ (s.onPtp p f).boot = s.boot ∧
    (s.onPtp p f).fmt = s.fmt ∧ (s.onPtp p f).tiles = s.tiles ∧ (s.onPtp p f).hbm = s.hbm ∧ (s.onPtp p f).tier = s.tier ∧
    (s.onPtp p f).fab = s.fab ∧ (s.onPtp p f).step = s.step ∧ (s.onPtp p f).red = s.red ∧ (s.onPtp p f).obs = s.obs ∧
    (s.onPtp p f).pwr = s.pwr ∧ (s.onPtp p f).heat = s.heat ∧ (s.onPtp p f).sent = s.sent ∧
    (s.onPtp p f).txWait = s.txWait ∧ (s.onPtp p f).freeIx = s.freeIx ∧ (s.onPtp p f).seeds = s.seeds ∧
    (s.onPtp p f).gens = s.gens :=
  ⟨rfl, rfl, rfl, rfl, rfl, rfl, rfl, rfl, rfl, rfl, rfl, rfl, rfl, rfl, rfl, rfl, rfl, rfl, rfl, rfl, rfl, rfl⟩
@[simp] theorem State.onRegion_rest (g : Nat) (f : RegionSlots → RegionSlots) :
    (s.onRegion g f).pending = s.pending ∧ (s.onRegion g f).flash = s.flash ∧ (s.onRegion g f).time = s.time ∧
    (s.onRegion g f).err = s.err ∧ (s.onRegion g f).hal = s.hal ∧ (s.onRegion g f).boot = s.boot ∧
    (s.onRegion g f).fmt = s.fmt ∧ (s.onRegion g f).tiles = s.tiles ∧ (s.onRegion g f).hbm = s.hbm ∧
    (s.onRegion g f).tier = s.tier ∧ (s.onRegion g f).fab = s.fab ∧ (s.onRegion g f).step = s.step ∧
    (s.onRegion g f).red = s.red ∧ (s.onRegion g f).obs = s.obs ∧ (s.onRegion g f).pwr = s.pwr ∧
    (s.onRegion g f).heat = s.heat ∧ (s.onRegion g f).ports = s.ports ∧ (s.onRegion g f).sent = s.sent ∧
    (s.onRegion g f).txWait = s.txWait ∧ (s.onRegion g f).freeIx = s.freeIx ∧ (s.onRegion g f).seeds = s.seeds ∧
    (s.onRegion g f).gens = s.gens :=
  ⟨rfl, rfl, rfl, rfl, rfl, rfl, rfl, rfl, rfl, rfl, rfl, rfl, rfl, rfl, rfl, rfl, rfl, rfl, rfl, rfl, rfl, rfl⟩
@[simp] theorem State.onEntry_rest (k : Nat) (f : MapEntry → MapEntry) :
    (s.onEntry k f).pending = s.pending ∧ (s.onEntry k f).flash = s.flash ∧ (s.onEntry k f).time = s.time ∧
    (s.onEntry k f).err = s.err ∧ (s.onEntry k f).hal = s.hal ∧ (s.onEntry k f).boot = s.boot ∧
    (s.onEntry k f).fmt = s.fmt ∧ (s.onEntry k f).tiles = s.tiles ∧ (s.onEntry k f).hbm = s.hbm ∧
    (s.onEntry k f).tier = s.tier ∧ (s.onEntry k f).fab = s.fab ∧ (s.onEntry k f).step = s.step ∧
    (s.onEntry k f).red = s.red ∧ (s.onEntry k f).obs = s.obs ∧ (s.onEntry k f).pwr = s.pwr ∧
    (s.onEntry k f).heat = s.heat ∧ (s.onEntry k f).ports = s.ports ∧ (s.onEntry k f).sent = s.sent ∧
    (s.onEntry k f).txWait = s.txWait ∧ (s.onEntry k f).freeIx = s.freeIx ∧ (s.onEntry k f).seeds = s.seeds ∧
    (s.onEntry k f).gens = s.gens :=
  ⟨rfl, rfl, rfl, rfl, rfl, rfl, rfl, rfl, rfl, rfl, rfl, rfl, rfl, rfl, rfl, rfl, rfl, rfl, rfl, rfl, rfl, rfl⟩
@[simp] theorem State.onLink_rest (n : Nat) (f : LinkRec → LinkRec) :
    (s.onLink n f).pending = s.pending ∧ (s.onLink n f).pkg = s.pkg ∧ (s.onLink n f).time = s.time ∧
    (s.onLink n f).err = s.err ∧ (s.onLink n f).hal = s.hal ∧ (s.onLink n f).boot = s.boot ∧ (s.onLink n f).fmt = s.fmt ∧
    (s.onLink n f).tiles = s.tiles ∧ (s.onLink n f).hbm = s.hbm ∧ (s.onLink n f).tier = s.tier ∧
    (s.onLink n f).fab = s.fab ∧ (s.onLink n f).step = s.step ∧ (s.onLink n f).red = s.red ∧ (s.onLink n f).obs = s.obs ∧
    (s.onLink n f).pwr = s.pwr ∧ (s.onLink n f).heat = s.heat ∧ (s.onLink n f).ports = s.ports ∧
    (s.onLink n f).sent = s.sent ∧ (s.onLink n f).txWait = s.txWait ∧ (s.onLink n f).freeIx = s.freeIx ∧
    (s.onLink n f).seeds = s.seeds ∧ (s.onLink n f).gens = s.gens :=
  ⟨rfl, rfl, rfl, rfl, rfl, rfl, rfl, rfl, rfl, rfl, rfl, rfl, rfl, rfl, rfl, rfl, rfl, rfl, rfl, rfl, rfl, rfl⟩
@[simp] theorem State.onExchange_rest (n : Nat) (f : Exchange → Exchange) :
    (s.onExchange n f).pending = s.pending ∧ (s.onExchange n f).flash = s.flash ∧ (s.onExchange n f).pkg = s.pkg ∧
    (s.onExchange n f).time = s.time ∧ (s.onExchange n f).err = s.err ∧ (s.onExchange n f).hal = s.hal ∧
    (s.onExchange n f).fmt = s.fmt ∧ (s.onExchange n f).tiles = s.tiles ∧ (s.onExchange n f).hbm = s.hbm ∧
    (s.onExchange n f).tier = s.tier ∧ (s.onExchange n f).fab = s.fab ∧ (s.onExchange n f).step = s.step ∧
    (s.onExchange n f).red = s.red ∧ (s.onExchange n f).obs = s.obs ∧ (s.onExchange n f).pwr = s.pwr ∧
    (s.onExchange n f).heat = s.heat ∧ (s.onExchange n f).ports = s.ports ∧ (s.onExchange n f).sent = s.sent ∧
    (s.onExchange n f).txWait = s.txWait ∧ (s.onExchange n f).freeIx = s.freeIx ∧ (s.onExchange n f).seeds = s.seeds ∧
    (s.onExchange n f).gens = s.gens :=
  ⟨rfl, rfl, rfl, rfl, rfl, rfl, rfl, rfl, rfl, rfl, rfl, rfl, rfl, rfl, rfl, rfl, rfl, rfl, rfl, rfl, rfl, rfl⟩
@[simp] theorem State.onRes_rest (r : Nat) (f : ResOwn → ResOwn) :
    (s.onRes r f).pending = s.pending ∧ (s.onRes r f).flash = s.flash ∧ (s.onRes r f).pkg = s.pkg ∧
    (s.onRes r f).time = s.time ∧ (s.onRes r f).err = s.err ∧ (s.onRes r f).boot = s.boot ∧ (s.onRes r f).fmt = s.fmt ∧
    (s.onRes r f).tiles = s.tiles ∧ (s.onRes r f).hbm = s.hbm ∧ (s.onRes r f).tier = s.tier ∧ (s.onRes r f).fab = s.fab ∧
    (s.onRes r f).step = s.step ∧ (s.onRes r f).red = s.red ∧ (s.onRes r f).obs = s.obs ∧ (s.onRes r f).pwr = s.pwr ∧
    (s.onRes r f).heat = s.heat ∧ (s.onRes r f).ports = s.ports ∧ (s.onRes r f).sent = s.sent ∧
    (s.onRes r f).txWait = s.txWait ∧ (s.onRes r f).freeIx = s.freeIx ∧ (s.onRes r f).seeds = s.seeds ∧
    (s.onRes r f).gens = s.gens :=
  ⟨rfl, rfl, rfl, rfl, rfl, rfl, rfl, rfl, rfl, rfl, rfl, rfl, rfl, rfl, rfl, rfl, rfl, rfl, rfl, rfl, rfl, rfl⟩
@[simp] theorem State.onCore_rest (k : Nat) (f : CoreSt → CoreSt) :
    (s.onCore k f).pending = s.pending ∧ (s.onCore k f).flash = s.flash ∧ (s.onCore k f).pkg = s.pkg ∧
    (s.onCore k f).time = s.time ∧ (s.onCore k f).err = s.err ∧ (s.onCore k f).boot = s.boot ∧
    (s.onCore k f).fmt = s.fmt ∧ (s.onCore k f).tiles = s.tiles ∧ (s.onCore k f).hbm = s.hbm ∧
    (s.onCore k f).tier = s.tier ∧ (s.onCore k f).fab = s.fab ∧ (s.onCore k f).step = s.step ∧
    (s.onCore k f).red = s.red ∧ (s.onCore k f).obs = s.obs ∧ (s.onCore k f).pwr = s.pwr ∧ (s.onCore k f).heat = s.heat ∧
    (s.onCore k f).ports = s.ports ∧ (s.onCore k f).sent = s.sent ∧ (s.onCore k f).txWait = s.txWait ∧
    (s.onCore k f).freeIx = s.freeIx ∧ (s.onCore k f).seeds = s.seeds ∧ (s.onCore k f).gens = s.gens :=
  ⟨rfl, rfl, rfl, rfl, rfl, rfl, rfl, rfl, rfl, rfl, rfl, rfl, rfl, rfl, rfl, rfl, rfl, rfl, rfl, rfl, rfl, rfl⟩
@[simp] theorem State.setJob_rest (j : Nat) :
    (s.setJob j).pending = s.pending ∧ (s.setJob j).flash = s.flash ∧ (s.setJob j).pkg = s.pkg ∧
    (s.setJob j).time = s.time ∧ (s.setJob j).err = s.err ∧ (s.setJob j).boot = s.boot ∧ (s.setJob j).fmt = s.fmt ∧
    (s.setJob j).tiles = s.tiles ∧ (s.setJob j).hbm = s.hbm ∧ (s.setJob j).tier = s.tier ∧ (s.setJob j).fab = s.fab ∧
    (s.setJob j).step = s.step ∧ (s.setJob j).red = s.red ∧ (s.setJob j).obs = s.obs ∧ (s.setJob j).pwr = s.pwr ∧
    (s.setJob j).heat = s.heat ∧ (s.setJob j).ports = s.ports ∧ (s.setJob j).sent = s.sent ∧
    (s.setJob j).txWait = s.txWait ∧ (s.setJob j).freeIx = s.freeIx ∧ (s.setJob j).seeds = s.seeds ∧
    (s.setJob j).gens = s.gens :=
  ⟨rfl, rfl, rfl, rfl, rfl, rfl, rfl, rfl, rfl, rfl, rfl, rfl, rfl, rfl, rfl, rfl, rfl, rfl, rfl, rfl, rfl, rfl⟩
@[simp] theorem State.count_rest (k : Nat) (c : EncCounts) :
    (s.count k c).pending = s.pending ∧ (s.count k c).flash = s.flash ∧ (s.count k c).pkg = s.pkg ∧
    (s.count k c).time = s.time ∧ (s.count k c).err = s.err ∧ (s.count k c).hal = s.hal ∧ (s.count k c).boot = s.boot ∧
    (s.count k c).tiles = s.tiles ∧ (s.count k c).hbm = s.hbm ∧ (s.count k c).tier = s.tier ∧ (s.count k c).fab = s.fab ∧
    (s.count k c).step = s.step ∧ (s.count k c).red = s.red ∧ (s.count k c).obs = s.obs ∧ (s.count k c).pwr = s.pwr ∧
    (s.count k c).heat = s.heat ∧ (s.count k c).ports = s.ports ∧ (s.count k c).sent = s.sent ∧
    (s.count k c).txWait = s.txWait ∧ (s.count k c).freeIx = s.freeIx ∧ (s.count k c).seeds = s.seeds ∧
    (s.count k c).gens = s.gens :=
  ⟨rfl, rfl, rfl, rfl, rfl, rfl, rfl, rfl, rfl, rfl, rfl, rfl, rfl, rfl, rfl, rfl, rfl, rfl, rfl, rfl, rfl, rfl⟩
@[simp] theorem State.putReg_rest (k r : Nat) (ws : List Nat) (flop : Nat) :
    (s.putReg k r ws flop).pending = s.pending ∧ (s.putReg k r ws flop).flash = s.flash ∧
    (s.putReg k r ws flop).pkg = s.pkg ∧ (s.putReg k r ws flop).time = s.time ∧ (s.putReg k r ws flop).err = s.err ∧
    (s.putReg k r ws flop).hal = s.hal ∧ (s.putReg k r ws flop).boot = s.boot ∧ (s.putReg k r ws flop).fmt = s.fmt ∧
    (s.putReg k r ws flop).hbm = s.hbm ∧ (s.putReg k r ws flop).tier = s.tier ∧ (s.putReg k r ws flop).fab = s.fab ∧
    (s.putReg k r ws flop).step = s.step ∧ (s.putReg k r ws flop).red = s.red ∧ (s.putReg k r ws flop).obs = s.obs ∧
    (s.putReg k r ws flop).pwr = s.pwr ∧ (s.putReg k r ws flop).heat = s.heat ∧ (s.putReg k r ws flop).ports = s.ports ∧
    (s.putReg k r ws flop).sent = s.sent ∧ (s.putReg k r ws flop).txWait = s.txWait ∧
    (s.putReg k r ws flop).freeIx = s.freeIx ∧ (s.putReg k r ws flop).seeds = s.seeds ∧
    (s.putReg k r ws flop).gens = s.gens :=
  ⟨rfl, rfl, rfl, rfl, rfl, rfl, rfl, rfl, rfl, rfl, rfl, rfl, rfl, rfl, rfl, rfl, rfl, rfl, rfl, rfl, rfl, rfl⟩
@[simp] theorem State.retire_rest (k flop : Nat) :
    (s.retire k flop).pending = s.pending ∧ (s.retire k flop).flash = s.flash ∧ (s.retire k flop).pkg = s.pkg ∧
    (s.retire k flop).time = s.time ∧ (s.retire k flop).err = s.err ∧ (s.retire k flop).hal = s.hal ∧
    (s.retire k flop).boot = s.boot ∧ (s.retire k flop).fmt = s.fmt ∧ (s.retire k flop).hbm = s.hbm ∧
    (s.retire k flop).tier = s.tier ∧ (s.retire k flop).fab = s.fab ∧ (s.retire k flop).step = s.step ∧
    (s.retire k flop).red = s.red ∧ (s.retire k flop).obs = s.obs ∧ (s.retire k flop).pwr = s.pwr ∧
    (s.retire k flop).heat = s.heat ∧ (s.retire k flop).ports = s.ports ∧ (s.retire k flop).sent = s.sent ∧
    (s.retire k flop).txWait = s.txWait ∧ (s.retire k flop).freeIx = s.freeIx ∧ (s.retire k flop).seeds = s.seeds ∧
    (s.retire k flop).gens = s.gens :=
  ⟨rfl, rfl, rfl, rfl, rfl, rfl, rfl, rfl, rfl, rfl, rfl, rfl, rfl, rfl, rfl, rfl, rfl, rfl, rfl, rfl, rfl, rfl⟩
@[simp] theorem State.send_rest (x : Sent) :
    (s.send x).pending = s.pending ∧ (s.send x).flash = s.flash ∧ (s.send x).pkg = s.pkg ∧ (s.send x).time = s.time ∧
    (s.send x).err = s.err ∧ (s.send x).hal = s.hal ∧ (s.send x).boot = s.boot ∧ (s.send x).fmt = s.fmt ∧
    (s.send x).tiles = s.tiles ∧ (s.send x).hbm = s.hbm ∧ (s.send x).tier = s.tier ∧ (s.send x).fab = s.fab ∧
    (s.send x).step = s.step ∧ (s.send x).red = s.red ∧ (s.send x).obs = s.obs ∧ (s.send x).pwr = s.pwr ∧
    (s.send x).heat = s.heat ∧ (s.send x).ports = s.ports ∧ (s.send x).txWait = s.txWait ∧ (s.send x).freeIx = s.freeIx ∧
    (s.send x).seeds = s.seeds ∧ (s.send x).gens = s.gens :=
  ⟨rfl, rfl, rfl, rfl, rfl, rfl, rfl, rfl, rfl, rfl, rfl, rfl, rfl, rfl, rfl, rfl, rfl, rfl, rfl, rfl, rfl, rfl⟩
@[simp] theorem State.tickTile_rest (k : Nat) :
    (s.tickTile k).pending = s.pending ∧ (s.tickTile k).flash = s.flash ∧ (s.tickTile k).pkg = s.pkg ∧
    (s.tickTile k).time = s.time ∧ (s.tickTile k).err = s.err ∧ (s.tickTile k).hal = s.hal ∧
    (s.tickTile k).boot = s.boot ∧ (s.tickTile k).fmt = s.fmt ∧ (s.tickTile k).hbm = s.hbm ∧
    (s.tickTile k).tier = s.tier ∧ (s.tickTile k).fab = s.fab ∧ (s.tickTile k).step = s.step ∧
    (s.tickTile k).red = s.red ∧ (s.tickTile k).obs = s.obs ∧ (s.tickTile k).pwr = s.pwr ∧ (s.tickTile k).heat = s.heat ∧
    (s.tickTile k).ports = s.ports ∧ (s.tickTile k).sent = s.sent ∧ (s.tickTile k).txWait = s.txWait ∧
    (s.tickTile k).freeIx = s.freeIx ∧ (s.tickTile k).seeds = s.seeds ∧ (s.tickTile k).gens = s.gens :=
  ⟨rfl, rfl, rfl, rfl, rfl, rfl, rfl, rfl, rfl, rfl, rfl, rfl, rfl, rfl, rfl, rfl, rfl, rfl, rfl, rfl, rfl, rfl⟩
@[simp] theorem State.vecHold_rest (k : Nat) (v : VecWait) :
    (s.vecHold k v).pending = s.pending ∧ (s.vecHold k v).flash = s.flash ∧ (s.vecHold k v).pkg = s.pkg ∧
    (s.vecHold k v).time = s.time ∧ (s.vecHold k v).err = s.err ∧ (s.vecHold k v).hal = s.hal ∧
    (s.vecHold k v).boot = s.boot ∧ (s.vecHold k v).fmt = s.fmt ∧ (s.vecHold k v).hbm = s.hbm ∧
    (s.vecHold k v).tier = s.tier ∧ (s.vecHold k v).fab = s.fab ∧ (s.vecHold k v).step = s.step ∧
    (s.vecHold k v).red = s.red ∧ (s.vecHold k v).obs = s.obs ∧ (s.vecHold k v).pwr = s.pwr ∧
    (s.vecHold k v).heat = s.heat ∧ (s.vecHold k v).ports = s.ports ∧ (s.vecHold k v).sent = s.sent ∧
    (s.vecHold k v).txWait = s.txWait ∧ (s.vecHold k v).freeIx = s.freeIx ∧ (s.vecHold k v).seeds = s.seeds ∧
    (s.vecHold k v).gens = s.gens :=
  ⟨rfl, rfl, rfl, rfl, rfl, rfl, rfl, rfl, rfl, rfl, rfl, rfl, rfl, rfl, rfl, rfl, rfl, rfl, rfl, rfl, rfl, rfl⟩
@[simp] theorem State.rxCount_rest (p n : Nat) :
    (s.rxCount p n).pending = s.pending ∧ (s.rxCount p n).flash = s.flash ∧ (s.rxCount p n).pkg = s.pkg ∧
    (s.rxCount p n).time = s.time ∧ (s.rxCount p n).err = s.err ∧ (s.rxCount p n).hal = s.hal ∧
    (s.rxCount p n).boot = s.boot ∧ (s.rxCount p n).fmt = s.fmt ∧ (s.rxCount p n).tiles = s.tiles ∧
    (s.rxCount p n).hbm = s.hbm ∧ (s.rxCount p n).tier = s.tier ∧ (s.rxCount p n).fab = s.fab ∧
    (s.rxCount p n).step = s.step ∧ (s.rxCount p n).red = s.red ∧ (s.rxCount p n).obs = s.obs ∧
    (s.rxCount p n).pwr = s.pwr ∧ (s.rxCount p n).heat = s.heat ∧ (s.rxCount p n).sent = s.sent ∧
    (s.rxCount p n).txWait = s.txWait ∧ (s.rxCount p n).freeIx = s.freeIx ∧ (s.rxCount p n).seeds = s.seeds ∧
    (s.rxCount p n).gens = s.gens :=
  ⟨rfl, rfl, rfl, rfl, rfl, rfl, rfl, rfl, rfl, rfl, rfl, rfl, rfl, rfl, rfl, rfl, rfl, rfl, rfl, rfl, rfl, rfl⟩

/-! ### Tiles -/

@[simp] theorem State.tile_onTile_self (k : Nat) (f : Tile → Tile) : (s.onTile k f).tile k = f (s.tile k) := by
  simp [State.tile, State.onTile]
theorem State.tile_onTile_ne {j k : Nat} (h : j ≠ k) (f : Tile → Tile) : (s.onTile k f).tile j = s.tile j := by
  simp [State.tile, State.onTile, Tbl.get_upd_ne h]

end Sys2Proof.Machine
end

