-- ==== Sys2Proof/Laws/Vector.lean ====
section
/-! SUPPORT. The registers of the vector engine read lane by lane and word by word, and what a vector row leaves. -/

namespace Sys2Proof.Machine

/-! ### Changes of one tile -/

theorem TileOnly.refl {s : State} {k : Nat} : TileOnly s s k := ⟨rfl, fun _ _ => rfl⟩
theorem TileOnly.onTile {s t : State} {k : Nat} (h : TileOnly s t k) (f : Tile → Tile) : TileOnly s (t.onTile k f) k :=
  ⟨by rw [h.1]; rfl, fun j hj => by rw [State.tile_onTile_ne _ hj, h.2 j hj]⟩
/-- A chain of changes of one tile is one change of it. -/
theorem TileOnly.trans {s t u : State} {k : Nat} (h : TileOnly s t k) (g : TileOnly t u k) : TileOnly s u k :=
  ⟨by rw [g.1, h.1], fun j hj => (g.2 j hj).trans (h.2 j hj)⟩

theorem tile_tick (s : State) (k : Nat) : (s.tickTile k).tile k = { s.tile k with vcyc := s.nextCyc k } := by
  simp [State.tickTile]
@[simp] theorem mayIssue_tick (s : State) (k : Nat) : (s.tickTile k).mayIssue k = s.mayIssue k := by
  simp [State.mayIssue, tile_tick]

/-! ### Lists -/

theorem nth_map {α β : Type} (f : α → β) (l : List α) (j : Nat) (a : α) (b : β) (h : j < l.length) :
    nth (l.map f) j b = f (nth l j a) := by simp [nth, h]
theorem nth_range {α : Type} (f : Nat → α) (n j : Nat) (d : α) (h : j < n) : nth ((List.range n).map f) j d = f j := by
  simp [nth, h]
theorem nth_replicate {α : Type} (n j : Nat) (a d : α) (h : j < n) : nth (List.replicate n a) j d = a := by
  simp only [nth, List.getD_eq_getElem?_getD, List.getElem?_replicate, h, if_true, Option.getD_some]

/-- An element of the pairs made of a list's elements. -/
theorem nth_pairs (f g : Nat → Nat) : ∀ (ws : List Nat) (l : Nat), l < 2 * ws.length →
    nth (ws.flatMap fun w => [f w, g w]) l 0 = if l % 2 = 0 then f (nth ws (l / 2) 0) else g (nth ws (l / 2) 0)
  | [], l, h => by simp at h
  | w :: ws, 0, _ => by simp [nth]
  | w :: ws, 1, _ => by simp [nth]
  | w :: ws, l + 2, h => by
    have ih := nth_pairs f g ws l (by simp at h ⊢; omega)
    have e : (l + 2) / 2 = l / 2 + 1 := by omega
    simpa [nth, e] using ih

theorem length_pairs (f g : Nat → Nat) (ws : List Nat) : (ws.flatMap fun w => [f w, g w]).length = 2 * ws.length := by
  induction ws with
  | nil => rfl
  | cons w ws ih => simp only [List.flatMap_cons, List.length_append, ih, List.length_cons, List.length_nil]; omega

/-! ### Words and lanes -/

theorem words_eq (x : Tile) (r : Nat) : x.words r = (List.range 64).map (x.word r) := Tbl.getList_eq ..
@[simp] theorem words_length (x : Tile) (r : Nat) : (x.words r).length = 64 := by simp [Tile.words]
theorem nth_words (x : Tile) (r j : Nat) (h : j < 64) : nth (x.words r) j 0 = x.word r j := by
  rw [words_eq, nth_range _ _ _ _ h]
@[simp] theorem words_tick (s : State) (k r : Nat) : ((s.tickTile k).tile k).words r = (s.tile k).words r := by
  simp [tile_tick, Tile.words]

@[simp] theorem lanesOf_length (ty : Nat) (ws : List Nat) (h : ws.length = 64) : (lanesOf ty ws).length = lanesOfTy ty := by
  unfold lanesOf lanesOfTy
  split
  · rw [length_pairs, h]
  · exact h
theorem nth_lanes (x : Tile) (ty r l : Nat) (h : l < lanesOfTy ty) : nth (lanesOf ty (x.words r)) l 0 = x.lane ty r l := by
  unfold lanesOf Tile.lane
  unfold lanesOfTy at h
  split <;> rename_i c
  · rw [if_pos c] at h
    rw [nth_pairs (· % 65536) (· / 65536 % 65536) _ _ (by simp; omega), nth_words _ _ _ (by omega)]
  · rw [if_neg c] at h
    exact nth_words _ _ _ h

@[simp] theorem wordsOf_length (ty : Nat) (ls : List Nat) (h : ls.length = lanesOfTy ty) : (wordsOf ty ls).length = 64 := by
  unfold wordsOf
  unfold lanesOfTy at h
  split <;> simp_all

/-- A lane of a register whose words are those that lanes form. -/
theorem lane_wordsOf (y : Tile) (ty r l : Nat) (ls : List Nat) (hl : l < lanesOfTy ty)
    (h : ∀ j, j < 64 → y.word r j = nth (wordsOf ty ls) j 0) : y.lane ty r l = laneFit ty (nth ls l 0) := by
  unfold lanesOfTy at hl
  unfold Tile.lane laneFit
  split <;> rename_i c
  · rw [if_pos c] at hl
    subst c
    have e := h (l / 2) (by omega)
    simp only [wordsOf, if_true] at e
    rw [nth_range _ _ _ _ (by omega)] at e
    rw [e]
    split
    · have a : 2 * (l / 2) = l := by omega
      rw [a]; omega
    · have a : 2 * (l / 2) + 1 = l := by omega
      rw [a]; omega
  · rw [if_neg c] at hl
    have e := h l hl
    simpa [wordsOf, c] using e

theorem get_setWords (x : Tile) (r : Nat) (ws : List Nat) (q : Nat) : Tbl.get 0 (x.setWords r ws).vreg q =
    if 64 * r ≤ q ∧ q < 64 * r + ws.length then nth ws (q - 64 * r) 0 else Tbl.get 0 x.vreg q := by
  simp only [Tile.setWords, Tbl.get_setList]
  simp [nth]

/-! ### Rows -/

/-- A vector row that may act and breaks no rule. -/
theorem vecRow_ok {k : Nat} {i : Vi} {s : State} {bad : Bool} {run : State → State} (h1 : s.mayIssue k = true)
    (h2 : (s.tile k).rowBusy = false) (h3 : bad = false) : vecRow k i s bad run = .next (run (s.tickTile k)) := by
  simp [vecRow, h1, h2, h3]

/-- A register written and the instruction retired. -/
theorem putReg_spec (s : State) (k r : Nat) (ws : List Nat) (flop : Nat) (hl : ws.length = 64) :
    let t := (s.tickTile k).putReg k r ws flop
    TileOnly s t k ∧ VecRest (s.tile k) (t.tile k) r flop ∧ ∀ j, j < 64 → (t.tile k).word r j = nth ws j 0 := by
  refine ⟨((TileOnly.refl.onTile _).onTile _).onTile _, ⟨?_, ?_, ?_⟩, ?_⟩
  · intro q hq
    simp only [State.putReg, State.retire, State.onOps, State.tile_onTile_self, State.tickTile, get_setWords, hl]
    rw [if_neg (by omega)]
  · simp [State.putReg, State.retire, State.onOps, State.tickTile, Tile.setWords]
  · simp [State.putReg, State.retire, State.onOps, State.tickTile, Tile.setWords]
  · intro j hj
    simp only [State.putReg, State.retire, State.onOps, State.tile_onTile_self, State.tickTile, Tile.word, get_setWords, hl]
    rw [if_pos (by omega), Nat.add_sub_cancel_left]

/-- A vector row completes in what it runs. -/
theorem does_vec {c : Instr} {s : State} {p : State → Prop} {k : Nat} {i : Vi} {bad : Bool} {run : State → State}
    (hc : exec c s = vecRow k i s bad run) (h1 : s.mayIssue k = true) (h2 : (s.tile k).rowBusy = false)
    (h3 : bad = false) (h : p (run (s.tickTile k))) : Does c s p := ⟨_, hc.trans (vecRow_ok h1 h2 h3), h⟩

/-- A vector row that writes its register's words. -/
theorem does_put {c : Instr} {s : State} {k : Nat} {i : Vi} {bad : Bool} {r flop : Nat} {ws : State → List Nat}
    {word : Nat → Nat} (hc : exec c s = vecRow k i s bad fun s => s.putReg k r (ws s) flop) (h1 : s.mayIssue k = true)
    (h2 : (s.tile k).rowBusy = false) (h3 : bad = false) (hl : (ws (s.tickTile k)).length = 64)
    (hw : ∀ j, j < 64 → nth (ws (s.tickTile k)) j 0 = word j) :
    Does c s fun t => TileOnly s t k ∧ VecRest (s.tile k) (t.tile k) r flop ∧ ∀ j, j < 64 → (t.tile k).word r j = word j := by
  refine does_vec hc h1 h2 h3 ?_
  have h := putReg_spec s k r _ flop hl
  exact ⟨h.1, h.2.1, fun j hj => (h.2.2 j hj).trans (hw j hj)⟩

@[simp] theorem opB_length (i : Vi) (x : Tile) : (i.opB x).length = lanesOfTy i.ty := by
  unfold Vi.opB
  split
  · simp [lanesOfTy]
  · rw [lanesOf_length _ _ (words_length ..)]
theorem nth_opB (i : Vi) (x : Tile) (l : Nat) (h : l < lanesOfTy i.ty) : nth (i.opB x) l 0 = i.laneB x l := by
  unfold Vi.opB Vi.laneB
  split
  · exact nth_replicate _ _ _ _ h
  · exact nth_lanes _ _ _ _ h
theorem nth_eq {α : Type} (l : List α) (i : Nat) (d : α) (h : i < l.length) : nth l i d = l[i] := by simp [nth, h]

theorem lane_tick (s : State) (k ty r l : Nat) : ((State.tickTile s k).tile k).lane ty r l = (s.tile k).lane ty r l := by
  simp [tile_tick, Tile.lane, Tile.word]
theorem laneB_tick (s : State) (k l : Nat) (i : Vi) : i.laneB ((State.tickTile s k).tile k) l = i.laneB (s.tile k) l := by
  simp [Vi.laneB, lane_tick]

/-- A lane operation: every lane of VD by its function, and all else as it was (R273, R276, R282). -/
theorem lanes3_spec (s : State) (k : Nat) (i : Vi) (flop : Nat) (f : Nat → Nat → Nat → Nat) :
    let t := (s.tickTile k).lanes3 k i flop f
    let x := s.tile k
    TileOnly s t k ∧ VecRest x (t.tile k) i.vd (flop * lanesOfTy i.ty) ∧
      ∀ l, l < lanesOfTy i.ty → (t.tile k).lane i.ty i.vd l =
        laneFit i.ty (f (x.lane i.ty i.va l) (i.laneB x l) (x.lane i.ty i.vc l)) := by
  intro t x
  let y := (s.tickTile k).tile k
  let out := (((lanesOf i.ty (y.words i.va)).zip (i.opB y)).zip (lanesOf i.ty (y.words i.vc))).map fun p => f p.1.1 p.1.2 p.2
  have ho : out.length = lanesOfTy i.ty := by simp [out]
  have ht : t = (s.tickTile k).putReg k i.vd (wordsOf i.ty out) (flop * lanesOfTy i.ty) := by
    show ((s.tickTile k).onTile k _).retire k _ = _
    rw [lanesOf_length _ _ (words_length ..)]
    rfl
  have hp := putReg_spec s k i.vd (wordsOf i.ty out) (flop * lanesOfTy i.ty) (wordsOf_length _ _ ho)
  rw [ht]
  refine ⟨hp.1, hp.2.1, fun l hl => ?_⟩
  rw [lane_wordsOf _ _ _ _ out hl hp.2.2]
  congr 1
  rw [nth_eq _ _ _ (by omega)]
  simp only [out, List.getElem_map, List.getElem_zip]
  rw [← nth_eq _ _ 0, ← nth_eq _ _ 0, ← nth_eq _ _ 0]
  rw [nth_lanes _ _ _ _ hl, nth_lanes _ _ _ _ hl, nth_opB _ _ _ hl]
  simp only [y, lane_tick, laneB_tick]; rfl

end Sys2Proof.Machine
end

