-- ==== Sys2Proof/WellFormed.lean ====
section
/-! DEFINITION. Well-formed commands: operands that come from fields of the spec's formats fit those fields. A command
that is not well-formed is none that the device can receive; `exec` is total on all of them. -/

namespace Sys2Proof

/-- Whether a number fits in `w` bits. -/
def fits (w n : Nat) : Bool := n < 2 ^ w

/-- Whether a number is a device number (R467). -/
def isDev (n : Nat) : Bool := n < 2 ^ 18

/-- A packet's fields fit their places (R475). -/
def Pkt.wf (p : Pkt) : Bool :=
  fits 8 p.kind && fits 8 p.op && fits 8 p.status && isDev p.src && fits 6 p.path && fits 8 p.srcEpoch && isDev p.dst &&
    fits 8 p.dstEpoch && fits 32 p.wseq && fits 32 p.rseq && fits 16 p.reqId && fits 32 p.key && fits 16 p.step &&
    fits 8 p.attempt && fits 8 p.flags && fits 64 p.addr && fits 32 p.aux && fits 32 p.aux2 && fits 16 p.token && p.port < 18 &&
    fits 16 p.data.length && fits 8 p.version && fits 6 p.dstRsv && p.len.all (fits 16 ·) && fits 4 p.entropy

/-- An error pattern of an HBM read: a codeword has 72 symbols of 8 bits (R385). -/
def UnitErr.wf (e : UnitErr) : Bool :=
  (e.flips ++ e.flips2).all (fun f => f.1 < 72 && fits 8 f.2) && (e.wrong.toList ++ e.wrong2.toList).all (· < 6 * 2 ^ 36)

/-- A column error: its chunk sum is not what the products give (R198). -/
def ColErr.wf (e : ColErr) : Bool := e.dev ≠ 0

/-- An addition names a block (R324). -/
def AddErr.wf (e : AddErr) : Bool := fits 32 e.block

/-- A patch: a code below 0xFF (R348). -/
def Patch.wf (p : Patch) : Bool := fits 20 p.tag && (match p.block with | some b => fits 32 b | none => true) && p.code < 255

/-- A decision. -/
def Order.wf (o : Order) : Bool := fits 64 o.step && fits 8 o.attempt && fits 8 o.cause && o.patches.all Patch.wf

/-- A message to the lead. -/
def LedgerMsg.wf (m : LedgerMsg) : Bool :=
  match m with
  | .complete n => fits 19 n
  | .confirmed t => fits 20 t
  | .checked t => fits 20 t
  | .overflow t b c => fits 20 t && fits 32 b && fits 8 c
  | .nan t b => fits 20 t && fits 32 b

/-- A command's header (R571). -/
def Hdr.wf (h : Hdr) : Bool := fits 32 h.session && fits 32 h.seq && fits 8 h.mailbox && fits 32 h.decision && h.port < 2 && fits 16 h.len

/-- What a load names (R583). -/
def Load.wf (l : Load) : Bool := fits 64 l.src && fits 64 l.len && fits 64 l.check

/-- A team names devices (R349, R467). -/
def Team.wf (t : Team) : Bool :=
  (t.team ++ t.subLeads ++ [t.leadDev] ++ t.leadAbove.toList ++ t.standbyDev.toList ++
    t.trees.flatMap fun x => x.2.1.toList ++ x.2.2).all isDev

/-- A frame's addresses (R529). -/
def Frame.wf (f : Frame) : Bool :=
  f.dst.length = 6 && f.src.length = 6 && (match f.tag with | some t => t.1 < 8 && fits 12 t.2 | none => true) &&
    match f.ip with
    | some x => x.src.length = (if x.v6 then 16 else 4) && x.dst.length = (if x.v6 then 16 else 4)
    | none => true

/-- A PTP message's sequence number (R718). -/
def PtpMsg.wf (m : PtpMsg) : Bool :=
  match m with
  | .announce _ => true
  | .sync q _ _ => fits 16 q
  | .followUp q _ => fits 16 q
  | .delayReq q => fits 16 q
  | .delayResp q _ => fits 16 q
  | .pdelayReq q => fits 16 q
  | .pdelayResp q _ _ _ => fits 16 q
  | .pdelayFollowUp q _ => fits 16 q

/-- Whether a command is well-formed. -/
def Instr.wf (i : Instr) : Bool :=
  match i with
  | .mm _ _ => true
  | .drain _ _ => true
  | .topk _ _ => true
  | .topkMerge _ _ => true
  | .zero _ _ => true
  | .barrier _ _ => true
  | .arrayCmdStart _ cols _ _ => cols.all ColErr.wf
  | .drainUnitStart _ _ _ _ adds => adds.all AddErr.wf
  | .arrayCmdDone _ => true
  | .drainUnitDone _ _ => true
  | .barrierDone _ => true
  | .drainResume _ _ _ adds => adds.all AddErr.wf
  | .sequencerResume _ => true
  | .carouselMoveDone _ => true
  | .spareSelfTest _ _ => true
  | .meshFlitResend _ _ _ => true
  | .ucieLinkRetry _ _ _ => true
  | .ucieRetrainDone _ _ => true
  | .fmtCntClearCounts _ => true
  | .fmtCntClearAlloc _ => true
  | .push _ _ => true
  | .pop _ _ => true
  | .peek _ _ => true
  | .reset _ _ => true
  | .pannierCmdStart _ _ => true
  | .pushDone _ => true
  | .popDone _ => true
  | .spillDone _ => true
  | .restoreDone _ _ _ => true
  | .popGraceExpiry _ => true
  | .mbDone _ _ => true
  | .commit p step => p.wf && fits 64 step
  | .tandemSwap => true
  | .swapComplete => true
  | .repeatOrder p step attempt cause patches => p.wf && fits 64 step && fits 8 attempt && fits 8 cause && patches.all Patch.wf
  | .repeatDrained => true
  | .repeatRestart => true
  | .snapshotCopyDone => true
  | .snapshotTimeout => true
  | .vadd _ _ => true
  | .vsub _ _ => true
  | .vmul _ _ => true
  | .vfma _ _ => true
  | .vmax _ _ => true
  | .vmin _ _ => true
  | .vabs _ _ => true
  | .vneg _ _ => true
  | .vrcp _ _ => true
  | .vrsqrt _ _ => true
  | .vsqrt _ _ => true
  | .vexp _ _ => true
  | .vlog _ _ => true
  | .vtanh _ _ => true
  | .vsigm _ _ => true
  | .vcmpgt _ _ => true
  | .vcmpge _ _ => true
  | .vcmpeq _ _ => true
  | .vsel _ _ => true
  | .viadd _ _ => true
  | .visub _ _ => true
  | .vand _ _ => true
  | .vor _ _ => true
  | .vxor _ _ => true
  | .vshl _ _ => true
  | .vshr _ _ => true
  | .vimul _ _ => true
  | .vmov _ _ => true
  | .vlane _ _ => true
  | .vcvt _ _ => true
  | .vpack _ _ => true
  | .vunpk _ _ => true
  | .vrsum _ _ => true
  | .vrmax _ _ => true
  | .vrand _ _ => true
  | .vdmask _ _ => true
  | .vmsel _ _ => true
  | .vld _ _ _ => true
  | .vst _ _ => true
  | .vldbc _ _ _ => true
  | .vldq _ _ => true
  | .vldqResume _ => true
  | .vfence _ _ => true
  | .vfenceDone _ => true
  | .vfmt _ _ _ => true
  | .venc _ _ => true
  | .vdec _ _ _ => true
  | .rowf _ _ _ => true
  | .rowr _ _ _ => true
  | .rowInstrDone _ => true
  | .hint _ _ => true
  | .noticeDue _ => true
  | .boostStart _ => true
  | .boostEnd _ => true
  | .reduce p _ _ => p.wf
  | .reduceEnd p sum blocks idx flags => p.wf && fits 64 sum && fits 32 blocks && fits 32 idx && fits 8 flags
  | .reduceResult p code => p.wf && fits 8 code
  | .creditReturn tree _ => fits 5 tree
  | .ledgerReport p step attempt m => p.wf && fits 64 step && fits 8 attempt && m.wf
  | .ledgerRepeatRequest p step attempt cause => p.wf && fits 64 step && fits 8 attempt && fits 8 cause
  | .resultBad p step attempt tag => p.wf && fits 64 step && fits 8 attempt && fits 20 tag
  | .beatTimer => true
  | .ledgerBeat p live size => p.wf && fits 18 live && fits 18 size
  | .beatTimeout => true
  | .hardLimitExpiry => true
  | .standbyDecision p o => p.wf && o.wf
  | .standbyAck p o => p.wf && o.wf
  | .heartbeatTimer => true
  | .heartbeat p => p.wf
  | .standbyTakeover => true
  | .pageRetireDone _ => true
  | .relayoutDone _ => true
  | .hbmInterfaceError _ _ => true
  | .channelRetrainDone _ _ => true
  | .scrubRead _ errs => errs.all UnitErr.wf
  | .hbmTempRead _ _ => true
  | .hbmRefresh _ lost => lost.all UnitErr.wf
  | .heatEpoch => true
  | .promote => true
  | .promoteGranule _ => true
  | .promoteAbandon _ => true
  | .evict => true
  | .evictDone _ => true
  | .evictAbandon _ => true
  | .writebackAge _ _ => true
  | .writebackAck _ => true
  | .buddyForwardAck _ => true
  | .buddyTimeout => true
  | .buddyPoison src _ => isDev src
  | .reseedDone => true
  | .stream _ _ => true
  | .streamDataDone _ _ => true
  | .streamDeadline _ _ => true
  | .streamStaleCopyDone _ _ => true
  | .tlRead p _ errs => p.wf && errs.all UnitErr.wf
  | .tlWrite p _ errs => p.wf && errs.all UnitErr.wf
  | .tlAdd p _ => p.wf
  | .tlMin p _ => p.wf
  | .tlMax p _ => p.wf
  | .tlCas p _ => p.wf
  | .tlInval p => p.wf
  | .tlResponse p => p.wf
  | .rtoExpiry _ => true
  | .reachTimeout _ => true
  | .retryAfterExpiry _ => true
  | .tokenExpiry _ => true
  | .combineFlush => true
  | .copy _ _ => true
  | .ctrWait _ _ => true
  | .fence _ _ => true
  | .remote _ _ => true
  | .fabricCmdStart _ _ => true
  | .copyDone _ _ _ _ => true
  | .ctrWaitDone _ _ => true
  | .ctrWaitTimeout _ _ => true
  | .fenceDone _ _ => true
  | .remoteDone _ _ => true
  | .frameDiscard _ f => f.wf
  | .arpRequest _ f sender target => f.wf && sender.length = 4 && target.length = 4
  | .neighborSolicitation _ f target => f.wf && target.length = 16
  | .icmpEchoRequest _ f _ => f.wf
  | .pfcReceive _ _ _ => true
  | .lldpReceive _ _ len => fits 16 len
  | .lldpTransmit _ => true
  | .lldpNeighborExpiry _ => true
  | .linkBringUp _ _ => true
  | .linkTrained _ _ => true
  | .linkTrainFail _ => true
  | .laneLossOfLock _ _ => true
  | .laneSerWindow _ _ errs symbols _ => errs ≤ symbols
  | .directReplay _ _ => true
  | .ptpEventMessage _ m domain sub _ len => m.wf && fits 8 domain && fits 32 sub && fits 16 len
  | .timeSourceSilence => true
  | .hello port _ exch flags _ => port < 2 && fits 64 exch && fits 8 flags
  | .offerSigned => true
  | .confirm port _ exch flags _ => port < 2 && fits 64 exch && fits 8 flags
  | .exchangeTimeout exch => fits 64 exch
  | .eventAck h => h.wf
  | .eventRetransmit session _ => fits 32 session
  | .sessionIdle session => fits 32 session
  | .decisionDeadline _ => true
  | .nop h => h.wf
  | .sessionClose h => h.wf
  | .eventSubscribe h _ _ => h.wf
  | .modeSet h f _ => h.wf && fits 8 f
  | .repairDecide h _ => h.wf
  | .tierMove h _ _ => h.wf
  | .spareDecide h _ => h.wf
  | .splitDecide h _ => h.wf
  | .routeSet h dev path => h.wf && fits 32 dev && fits 8 path
  | .leadDecide h _ => h.wf
  | .logDrainDecide h _ => h.wf
  | .resAcquire h _ _ => h.wf
  | .resRelease h r => h.wf && fits 8 r
  | .resReleaseDone _ => true
  | .resQuery h => h.wf
  | .gpioSet h _ => h.wf
  | .gpioGet h _ => h.wf
  | .timerSet h timer ns => h.wf && fits 8 timer && fits 64 ns
  | .capSet h _ => h.wf
  | .siteBudget h _ => h.wf
  | .funcReinit h _ => h.wf
  | .funcReinitDone session seq _ => fits 32 session && fits 32 seq
  | .devReset h _ => h.wf
  | .trayPowerCycle h => h.wf
  | .powerCycleTimeout => true
  | .memRead h a n errs => h.wf && fits 64 a && fits 32 n && errs.all UnitErr.wf
  | .memWrite h a _ => h.wf && fits 64 a
  | .ctlRead h o n => h.wf && fits 64 o && fits 32 n
  | .programLoad h load _ mb => h.wf && load.wf && fits 8 mb
  | .tandemSet h _ a u units => h.wf && fits 64 a && fits 64 u && fits 32 units
  | .tagTableLoad h load => h.wf && load.wf
  | .pageTableLoad h table frames base mirror list buddy => h.wf && table.wf && frames.wf && fits 64 base && fits 64 mirror && fits 64 list && fits 32 buddy
  | .pageSet h _ _ => h.wf
  | .jobStart h => h.wf
  | .jobStop h => h.wf
  | .jobRetry h => h.wf
  | .jobUnload h => h.wf
  | .tierPin h _ _ => h.wf
  | .tierFlush h first count => h.wf && fits 32 first && fits 32 count
  | .tierBuddy h dev _ => h.wf && fits 32 dev
  | .snapshotShip h off len dst key step => h.wf && fits 64 off && fits 64 len && fits 64 dst && fits 32 key && fits 64 step
  | .paramSet h _ => h.wf
  | .logRead h _ => h.wf
  | .logAck h _ => h.wf
  | .info h => h.wf
  | .periscopeSet h _ => h.wf
  | .loupeReport h _ => h.wf
  | .loupePass2 session seq => fits 32 session && fits 32 seq
  | .quote h _ => h.wf
  | .quoteSigned => true
  | .fwStage h _ => h.wf
  | .fwStageDone _ => true
  | .fwActivate h _ _ => h.wf
  | .devNumberSet h _ n => h.wf && fits 32 n
  | .teamLoad h load t => h.wf && load.wf && t.wf
  | .standbySet h dev => h.wf && fits 32 dev
  | .regionTableLoad h _ load => h.wf && load.wf
  | .regionSet h i _ => h.wf && fits 32 i
  | .pathTableLoad h _ load offset => h.wf && load.wf && fits 64 offset
  | .groupLoad h _ group root parent _ => h.wf && fits 32 group && fits 32 root && fits 32 parent
  | .portSet h _ => h.wf
  | .portReset h p => h.wf && fits 8 p
  | .evcSourceAssert _ => true
  | .evcRouteWrite _ _ => true
  | .corePowerDown _ => true
  | .coreWake _ _ => true
  | .vinSample _ => true
  | .powerSample _ _ regions => regions.length = 16
  | .phaseCheck _ _ => true
  | .phaseReenable _ _ => true
  | .reinInterval => true
  | .fastLimiter _ => true
  | .vlogicReport _ => true
  | .clockChange => true
  | .droopTrip _ _ => true
  | .droopClear _ _ => true
  | .stretchReturn _ => true
  | .vminRead _ => true
  | .regionAdmitTest _ => true
  | .regionPowerOnDone _ => true
  | .regionDefer _ => true
  | .regionPowerOff _ => true
  | .vrAlertFall => true
  | .regAlert => true
  | .alertForceEnd _ => true
  | .budgetStale => true
  | .sensorConversion _ _ _ => true
  | .trayReport _ => true
  | .trayRequestRefresh => true
  | .coolantLimitUpdate => true
  | .flowPulse => true
  | .pumpFailInput _ => true
  | .coolantRestore => true
  | .thermalTrip _ => true
  | .warmFloorCheck => true
  | .idleActivityAdjust => true
  | .refclkLoss => true
  | .timeclkLoss => true
  | .timeclkReturn => true
  | .ppsInEdge sub => fits 32 sub
  | .ppsOutEdge => true
  | .logMove => true
  | .dorlenWatchdog _ _ => true
  | .groomWatchdog => true
  | .vauxUp => true
  | .vauxFall => true
  | .rstNAssert => true
  | .rstNDeassert _ => true
  | .pwrgdRise => true
  | .pwrgdFall => true
  | .imageCheckDone => true
  | .hbmTrainingDone _ _ => true
  | .akReady => true
  | .ready => true
  | .trialTimeout => true
  | .opsClearTiles => true
  | .opsClearDevice => true
  | .periscopeTimer => true
  | .periscopePin _ => true
  | .registerWrite _ _ => true
  | .bootSelSample _ => true
  | .refclkReturn => true
  | .vrAlertRise _ status => fits 16 status
  | .ppsOutFall => true
  | .programLoadDone => true
  | .pageTableLoadDone => true
  | .leadAnnounce p old => p.wf && isDev old
  | .jobOrderReceived p _ => p.wf
  | .logDrainRequest => true
  | .halterMessageDiscard port len => port < 2 && fits 16 len
  | .halterUnknownCode h _ => h.wf
  | .reservedOpcode _ _ _ _ => true
  | .rowShadowDone _ => true
  | .homeQueueRelease _ => true
  | .uncorrectableCodeword _ _ => true
  | .directModeAck _ _ => true
  | .pfcPauseExpiry _ _ => true
  | .ptpIntervalTimer _ _ => true
  | .traceRecordSent => true

end Sys2Proof
end

