-- ==== Sys2Proof/Tests/Slice0.lean ====
section
/-! SUPPORT. Tests of the model: ill-formed commands are refused, results that the spec works out, and for each statement a state and
operands that meet its hypotheses. -/

open Sys2Proof Sys2Proof.Machine

namespace Sys2Proof.Tests

set_option Elab.async false

/-! ### Helpers -/

/-- The state after reset, with tile 0 changed. -/
def tile0 (f : Tile → Tile) : State := State.reset.onTile 0 f

/-- Tile 0's sequencer runs. -/
def ran (f : Tile → Tile := id) : State := tile0 fun x => f { x with seq := .run }

/-- A vector instruction's word after its opcode: VD, VA, VB, VC, TYPE, BI, IMM. -/
def word (vd va vb vc ty bi imm : Nat) : BitVec 56 :=
  BitVec.ofNat 56 (vd + 2 ^ 5 * va + 2 ^ 10 * vb + 2 ^ 15 * vc + 2 ^ 20 * ty + 2 ^ 22 * bi + 2 ^ 24 * imm)

/-- Bytes of a number, at an address of the local store. -/
def store (l : List (Nat × Nat × Nat)) : Tbl Byte :=
  l.foldl (fun t e => (toBytes e.2.1 e.2.2).zipIdx.foldl (fun t b => Tbl.set 0 t (e.1 + b.2) b.1) t) []

/-- A header from session 1, with mailbox `m`. -/
def hdr (m : Nat) (seq : Nat := 1) : Hdr := { session := 1, seq := seq, mailbox := m }

/-- A CONTROL session, number 1, in job state `j`. -/
def open1 (j : Nat := 0) : State := { State.reset with hal := { State.reset.hal with sessions := [{ num := 1, control := true }], job := j } }

/-- What acceptance asks of a command holds in that state, or one that has more in it. -/
theorem accepted_of (s : State) (code modes : Nat) (o : Bool) (x : Session) (h1 : s.hal.sessions = [x]) (h2 : x.num = 1)
    (h3 : x.control = true) (h4 : x.replies = []) (h5 : s.hal.cmds = []) (h6 : bit modes s.hal.job = true)
    (h7 : x.high = 0) :
    Accepted s (hdr (code / 256)) code modes o where
  session := ⟨x, by simp [State.session, h1, h2, hdr], by simp [h4], by simp [hdr, h7], .inr h3⟩
  mailbox := rfl
  room := by simp [State.mailboxUsed, h5]
  mode := h6

/-! ### The hypotheses of the statements are met -/

/-! A request of device 7, which is not the machine's own, comes whole. -/

/-- The machine with the number 0 and a region that lets device 7 write. -/
def heardFab (s : State := State.reset) : State :=
  { s with fab := { s.fab with numbered := true, regions := [(0, { perm := 10 })] } }

/-- A request of device 7, of step 1. -/
def msgPkt : Pkt := { op := 0, src := 7, addr := 2 ^ 62, wseq := 1, step := 1 }

/-- What `MsgComes` asks, as one proposition. -/
theorem comes_of {s : State} {p : Pkt} {st : Nat} (h : (p.src ≠ s.fab.device ∧ p.src < 2 ^ 18) ∧
    Tbl.get 0 (s.port p.port).rxHeld (pktClass p) - p.freed + pktLen p ≤ pfcHeadroom ∧ s.fab.numbered = true ∧ p.crcOk = true ∧ p.dst = s.fab.device ∧
    addrScope p.addr = 1 ∧ (s.packetHeard p).isNext p = true ∧ (s.packetHeard p).orderHold s.fab.queue p false = false ∧
    (s.packetHeard p).malformed p = false ∧ (s.packetHeard p).refusal p = st) : s.MsgComes p st :=
  ⟨h.1, by have := h.2.1; simp only [State.rxBeyond, decide_eq_false_iff_not]; omega, h.2.2.1, h.2.2.2.1, h.2.2.2.2.1, h.2.2.2.2.2.1, h.2.2.2.2.2.2.1, h.2.2.2.2.2.2.2.1, h.2.2.2.2.2.2.2.2.1,
    h.2.2.2.2.2.2.2.2.2⟩

/-- A LEDGER request comes so, and a REDUCE with a record; one with an old stamp is refused with STALE. The device's own
requests are taken as they are. -/
theorem test_messages_come :
    (∀ kind ∈ [1, 2, 4, 6, 7, 8, 9, 10, 11, 12, 13, 14], heardFab.Takes (ledPkt msgPkt kind [])) ∧
    heardFab.Takes (redPkt { msgPkt with data := List.replicate 168 0 } .reduce) ∧
    heardFab.Takes (redPkt msgPkt (.endRec 7 0 0 0 0)) ∧
    heardFab.Takes (redPkt { msgPkt with data := List.replicate 168 0 } (.result 0)) ∧
    heardFab.MsgComes (redPkt { msgPkt with step := 0, flags := 1, data := List.replicate 168 0 } .reduce) 6 ∧
    State.reset.Takes (ledPkt { msgPkt with src := 0 } 6 [1]) := by
  have h : ∀ kind ∈ [1, 2, 4, 6, 7, 8, 9, 10, 11, 12, 13, 14],
      (let p := ledPkt msgPkt kind []; let s := heardFab
       (p.src ≠ s.fab.device ∧ p.src < 2 ^ 18) ∧ Tbl.get 0 (s.port p.port).rxHeld (pktClass p) - p.freed + pktLen p ≤ pfcHeadroom ∧
       s.fab.numbered = true ∧ p.crcOk = true ∧ p.dst = s.fab.device ∧ addrScope p.addr = 1 ∧
       (s.packetHeard p).isNext p = true ∧ (s.packetHeard p).orderHold s.fab.queue p false = false ∧
       (s.packetHeard p).malformed p = false ∧ (s.packetHeard p).refusal p = 0) := by decide +kernel
  exact ⟨fun kind hk => .inr (comes_of (h kind hk)), .inr (comes_of (by decide +kernel)), .inr (comes_of (by decide +kernel)),
    .inr (comes_of (by decide +kernel)), comes_of (by decide +kernel), .inl rfl⟩

/-- The vector tables: a row of each, in its TYPEs. -/
theorem test_vector_rows : (ran.mayIssue 0 = true ∧ (ran.tile 0).rowBusy = false) ∧
    (∀ r ∈ arithRows ++ functionRows, Vi.bad ⟨r.op, word 1 0 0 0 1 0 0⟩ r.types r.uses = false) ∧
    (∀ r ∈ compareRows ++ integerRows, Vi.bad ⟨r.op, word 1 0 0 0 2 0 0⟩ r.types r.uses = false) ∧
    (∀ r ∈ arithRows, Vi.bad ⟨r.op, word 1 0 0 0 2 0 0⟩ r.types r.uses = true) ∧ State.reset.mayIssue 0 = false ∧
    (let s := ran fun x => { x with rowBusy := true, vwait := [{ op := 0x10, w := 0 }] }
     s.mayIssue 0 = true ∧ (s.tile 0).rowBusy = true ∧ (s.tile 0).vwait ≠ []) := by decide

theorem test_vector_conversions :
    Vi.bad ⟨0x21, word 1 0 0 0 2 0 0⟩ [2] {} = false ∧ Vi.bad ⟨0x22, word 1 2 0 0 2 0 0⟩ [0, 2] { va := true } = false ∧
    Vi.bad ⟨0x24, word 1 2 0 0 0 0 5⟩ [0] { va := true, imm := true } = false ∧
    (Vi.imm ⟨0x24, word 1 2 0 0 0 0 5⟩ &&& (2 ^ 32 - 1 - 5)) = 0 ∧
    Vi.bad ⟨0x28, word 1 2 0 0 0 0 0⟩ [0] { va := true } = false ∧ Vi.bad ⟨0x29, word 1 2 0 0 0 0 0⟩ [0] { va := true } = false ∧
    Vi.bad ⟨0x2C, word 1 0 0 0 2 0 0⟩ [2] {} = false ∧ Vi.bad ⟨0x2E, word 1 2 3 0 0 0 0⟩ tyF { va := true, vb := true } = false ∧
    Vi.bad ⟨0x23, word 1 2 3 0 0 0 0xFF07⟩ [0] { va := true, vb := true, imm := true } = false ∧
    Vi.bad ⟨0x2D, word 1 0 0 0 0 0 0xFFFF⟩ tyF { imm := true } = false ∧
    Vi.bad ⟨0x2E, word 1 2 3 0 1 0 0⟩ tyF { va := true, vb := true } = false := by decide

/-- The last word of the populated local store. -/
theorem test_vector_memory :
    Vi.badLs ⟨0x30, word 1 0 0 0 0 0 0x2FFFFC⟩ = false ∧
    aligned (Vi.ea ⟨0x30, word 1 0 0 0 0 0 0x2FFFFC⟩ (ran.tile 0)) 4 = true ∧
    inLs (Vi.ea ⟨0x30, word 1 0 0 0 0 0 0x2FFFFC⟩ (ran.tile 0)) 4 = true ∧
    (ran.tile 0).marked (Vi.ea ⟨0x30, word 1 0 0 0 0 0 0x2FFFFC⟩ (ran.tile 0)) 4 = false ∧
    Vi.words ⟨0x30, word 1 0 0 0 0 0 0⟩ = 1 := by decide

theorem test_vector_queues :
    let e : FtEntry := { vals := List.replicate 64 7 }
    let s := ran fun x => { x with ftq := [e] }
    (s.tile 0).ftq = [e] ∧ e.vals.length = 64 ∧ e.poison = false ∧ Vi.bad ⟨0x33, word 3 0 0 0 0 0 0⟩ [0] {} = false ∧
    (ran.tile 0).ftq = [] ∧ (ran.tile 0).ftqDrain = false ∧
    ((ran fun x => { x with mxq := [{ id := 1, op := 2, main := (toBytes 64 (3 * 2 ^ 16)), addr := 0 }] }).tile 0).ftqDrain = true ∧
    ((tile0 fun x => { x with seq := .vldq 3, ftq := [e] }).tile 0).seq = .vldq 3 ∧
    ((tile0 fun x => { x with seq := .vfence }).tile 0).seq = .vfence ∧
    Vi.bad ⟨0x34, word 0 0 0 0 0 0 0⟩ [0] { vd := false } = false := by decide +kernel

/-- Bytes of an FP32 descriptor. -/
def fp32Desc : Nat := 1

theorem test_format_slots :
    let s := ran fun x => { x with store := store [(0x2FFFD0, 48, fp32Desc)] }
    let i : Vi := ⟨0x38, word 0 0 0 3 0 0 0x2FFFD0⟩
    let q := ran fun x => { x with slots := List.replicate 4 { loaded := true, desc := { format := 1 }, ptr := 0x2FFF00 } }
    let f := nth (q.tile 0).slots 3 {}
    i.bad [0] { vd := false, va := true, vc := true, imm := true } = false ∧ i.vc = 3 ∧ (s.tile 0).slots.length = 4 ∧
    descPlace i.imm = false ∧ (s.tile 0).marked i.imm 48 = false ∧ slotBad (Desc.parse ((s.tile 0).get i.imm 48)) = false ∧
    Vi.bad ⟨0x39, word 0 1 0 3 0 0 0⟩ [0] { vd := false, va := true, vc := true } = false ∧
    Vi.bad ⟨0x3A, word 1 0 0 3 0 0 0⟩ [0] { vc := true } = false ∧ f.loaded = true ∧ inLs f.ptr (f.desc.rowBytes 64) = true ∧
    (q.tile 0).marked f.ptr (f.desc.rowBytes 64) = false ∧
    (q.tickTile 0).runFault f.desc ((q.tile 0).get f.ptr (f.desc.rowBytes 64)) = 0 ∧
    ((q.tickTile 0).encRow f.desc ((q.tile 0).words 1) [] f.block).2.2 = 0 := by decide +kernel

/-- A softmax row of one element, in FP32. -/
def rowRec : List (Nat × Nat × Nat) :=
  [(0x2FFFC0, 64, 0x1000 + 2 ^ 32 * 0x2000 + 2 ^ 256 * 1 + 2 ^ 288 * 1 + 2 ^ 320 * 0x400 + 2 ^ 352 * 0x400 + 2 ^ 384 * 0 + 2 ^ 416 * 2),
   (0x400, 48, fp32Desc)]

theorem test_row_instructions :
    let s := (ran fun x => { x with store := store rowRec }).tickTile 0
    let i : Vi := ⟨0x40, word 0 0 0 0 0 0 0x2FFFC0⟩
    let r := RowD.parse ((s.tile 0).get i.imm 64)
    i.bad [0] { vd := false, imm := true } = false ∧ s.rowCheck 0 i.imm false = 0 ∧
    (s.rowRun 0 r false (s.descAt 0 r.xfmt) (s.descAt 0 r.dyfmt) (s.descAt 0 r.ofmt)).2 = 0 := by decide +kernel

/-- Command records at the last record's place, and queues at their limits. -/
theorem test_command_issue :
    let at_ (n : Nat) := ran fun x => { x with store := store [(0x2FFFC0, 64, n)] }
    let full := ran fun x => { x with mxq := List.replicate 16 { id := 1, op := 6, main := [], addr := 0 } }
    (∀ o ∈ [5, 6, 0x44], (at_ o).recFault 0 0x2FFFC0 = 0 ∧ field (((at_ o).tile 0).get 0x2FFFC0 64) 0 1 = o) ∧
    (at_ 5).mxCheck 0 (((at_ 5).tile 0).get 0x2FFFC0 64) = 0 ∧ (at_ 6).mxCheck 0 (((at_ 6).tile 0).get 0x2FFFC0 64) = 0 ∧
    (at_ (1 + 2 ^ 15)).mxCheck 0 (((at_ (1 + 2 ^ 15)).tile 0).get 0x2FFFC0 64) ≠ 0 ∧
    pnCheck (((at_ 0x44).tile 0).get 0x2FFFC0 64) = 0 ∧ pnCheck (((at_ 0x41).tile 0).get 0x2FFFC0 64) ≠ 0 ∧
    16 ≤ (full.tile 0).mxq.length ∧ ran.recFault 0 0x2FFFC1 ≠ 0 ∧ (ran.tile 0).mxq.length < 16 ∧ ran.mayIssue 0 = true := by
  decide +kernel

theorem test_reserved_and_resume :
    let s := tile0 fun x => { x with seq := .stall 5 0 }
    vectorOps.contains 0x14 = false ∧ recordOps.contains (field ((ran.tile 0).get 0 64) 0 1) = false ∧
    ran.recFault 0 0 = 0 ∧ (s.tile 0).seq = .stall 5 0 ∧ (s.tile 0).held = false ∧ s.queueFull 0 5 = false := by decide +kernel

/-- A matrix command of one element, DRAINs into the queue, and what ends. -/
theorem test_matrix_queue :
    let mm : MxCmd := { id := 1, op := 1, main := toBytes 64 (1 + 2 ^ 11), addr := 0 }
    let z : MxCmd := { id := 2, op := 5, main := toBytes 64 (5 + 2 ^ 8 * 7), addr := 0 }
    let d : MxCmd := { id := 3, op := 2, main := toBytes 64 (2 + 2 ^ 16 * 3), addr := 0 }
    let b : MxCmd := { id := 4, op := 6, main := toBytes 64 (6 + 2 ^ 15), addr := 0 }
    nextStart false [] [mm] = some mm ∧ recBits mm.main 13 12 = 0 ∧ bit (recBits mm.main 11 11) 0 = true ∧
    mm.g + ceilDiv mm.m 128 ≤ 8 ∧ mm.m = 1 ∧ mm.n = 1 ∧ mm.k = 1 ∧ mm.da.widenCap = 0 ∧
    nextStart false [] [z] = some z ∧ z.g + recBits z.main 13 11 < 8 ∧
    ([{ mm with st := 1 }].find? fun c => c.array && c.st == 1) = some { mm with st := 1 } ∧ b.op = 6 ∧
    d.dest = 3 ∧ d.func < 0x10 ∧ bit (recBits d.main 118 118) 0 = false ∧ nextStart true [] [d] = some d ∧
    recBits d.main 26 25 = 0 ∧ d.row = 0 ∧ 128 * d.gcount * ceilDiv d.dn 64 ≤ 256 ∧
    ([{ d with st := 1, wait := 1, mask := [1] }].find? fun c => c.drains && c.st == 1 && c.wait ≠ 0) =
      some { d with st := 1, wait := 1, mask := [1] } ∧ unmasked [1] 0 = true ∧
    (tile0 fun x => { x with mxq := [{ d with st := 1, wait := 1, mask := [1] }] }).drainBlocked 0
      { d with st := 1, wait := 1, mask := [1] } = 0 ∧
    ([{ d with st := 2 }].find? fun c => c.drains && c.st == 2 && !(State.reset.fab.reqs.any fun r =>
      r.why == .drain 0 c.id || (c.waits.contains r.num && r.why ≠ .nobody))) = some { d with st := 2 } := by decide +kernel

theorem test_matrix_operands (f : Tile → Tile) (F : Tbl FmtCnt) :
    let mm : MxCmd := { id := 1, op := 1, main := toBytes 64 (1 + 2 ^ 11), addr := 0 }
    let s := tile0 fun x => { x with mxq := [mm] }
    let dep := bandDepth (rateOf mm.da mm.db)
    (∀ i, i < mm.m → ∀ b, b < ceilDiv mm.k dep →
      (s.opLine 0 mm.da (opdOf mm.main 64) i (b * dep) (min dep (mm.k - b * dep)) false).2.2 = false) ∧
    (∀ sl, (Tbl.get {} s.err.slots sl).colDue = []) ∧
    ∀ d ∈ [mm.da, mm.db],
      (∀ i, i < d.widenCap → State.wideRec { s.onTile 0 f with fmt := F } d i = s.wideRec d i) ∧
      ∀ b, State.wideFault { s.onTile 0 f with fmt := F } d b = s.wideFault d b := by
  refine ⟨by decide +kernel, fun _ => rfl, ?_⟩
  intro d hd
  simp only [List.mem_cons, List.not_mem_nil, or_false, or_self] at hd
  have h : d.widenCap = 0 := by rw [hd]
  refine ⟨fun i hi => absurd hi (by omega), fun b => ?_⟩
  simp only [State.wideFault, h, Nat.not_lt_zero, decide_false, Bool.and_false, Bool.false_and, Bool.false_eq_true, if_false]

/-- A DRAIN of one row to the tile's own window. -/
theorem test_drain_to_memory :
    let c : MxCmd := { id := 3, op := 2, main := toBytes 64 2, addr := 0, da := { format := 1 } }
    let s1 := ran.tickTile 0
    let out := drainVals c [] (List.replicate c.dn 0) (Tbl.getList 0 (ran.tile 0).acc 0 c.dn)
    let e := s1.encRow c.da out [] 0
    let s3 := e.2.1.onOps 0 fun o => { o with drainBytes := sat64 o.drainBytes e.1.length }
    c.dest = 0 ∧ bit (recBits c.main 14 14) 0 = false ∧ c.da.sto = false ∧ e.2.2 = 0 ∧ s3.isOwn lsBase = true ∧
    s3.writeFault (addrOff lsBase) e.1.length = 0 ∧
    (s3.memWrite (addrOff lsBase) e.1 1 false).fab.nextReq = s3.fab.nextReq := by decide +kernel

/-- A POP of the record that lies on top of a ring of one page, of 32 bytes at the end of the populated local store. -/
def popCmd (op : Nat) (st : Nat := 0) : PnCmd :=
  { id := 1, op := op, st := st, addr := 0
    main := toBytes 64 (op + 2 ^ 16 * 5 + 2 ^ 24 * 1 + 2 ^ 32 * 9 + 2 ^ 64 * 0x2FFFE0 + 2 ^ 96 * 32 + 2 ^ 128 * 3) }

def pnRec (place : Nat := 0) : PnRec :=
  { off := 0, tag := 9, mb := 5, fmt := 1, len := 32, seg := 3, step := 1, check := checkOf (List.replicate 32 7), place := place }

/-- Tile 0 with a ring of one page at HBM offset 0, a record on its stack, and a command in its queue. -/
def pnTile (c : PnCmd) (l : List PnRec) : State :=
  tile0 fun x => { x with panq := [c], pn := { mainPages := 1, spillBase := 0x40000000000, spillPages := 512, main := l, ckpt := [{ pnRec with ckpt := true }] } }

theorem test_pannier_queue :
    let x (op : Nat) := (pnTile (popCmd op) [pnRec]).tile 0
    let s := pnTile (popCmd 0x41) []
    let c := popCmd 0x41
    (∀ op ∈ [0x41, 0x42, 0x43, 0x44], (x op).panq = [popCmd op] ∧ (popCmd op).st = 0 ∧ (popCmd op).op = op) ∧
    s.pnConfigBad (s.tile 0).pn = false ∧ (s.tile 0).pn.ckpt = [{ pnRec with ckpt := true }] ∧
    pnRec.seg = recBits c.main 143 128 ∧ pnRec.mb = recBits c.main 23 16 ∧
    s.pnPlace (s.tile 0).pn false (pnSize (recBits c.main 117 96)) = 0 ∧
    (s.tile 0).marked (recBits c.main 85 64) (recBits c.main 117 96) = false ∧
    bit (recBits (popCmd 0x42).main 8 8) 0 = false ∧ (x 0x42).pn.main.head? = some pnRec ∧
    pnMismatch (popCmd 0x42) pnRec = false ∧ pnRec.place = 0 ∧
    ({ c with rcd := some pnRec } : PnCmd).rcd = some pnRec := by decide +kernel

theorem test_pannier_records :
    let s0 := pnTile (popCmd 0x42 1) [pnRec]
    let s := s0.memWrite 0 (pnRec.header ++ List.replicate 32 7) 1 false
    let d := s.ringRead 0 4096 0 96
    let g := { popCmd 0x42 1 with wait := 0x21 }
    let q := pnTile g [pnRec]
    let p := pnTile (popCmd 0x41 1) [pnRec 1]
    let e := { p with tier := { p.tier with pages := [(0, { st := 2 }), (1, { st := 1 })] } }
    let d1 := e.ringRead 0 4096 0 96
    (s.tile 0).panq = [popCmd 0x42 1] ∧ (s.tile 0).pn.main = [pnRec] ∧
    d.2.1 = false ∧ d.1.take 64 = pnRec.header ∧ checkOf (d.1.drop 64) = pnRec.check ∧ pnRec.step = d.2.2.stepNo % 65536 ∧
    (q.tile 0).panq = [g] ∧ (q.tile 0).pn.main = [pnRec] ∧ g.wait = 0x21 ∧ g.due ≤ q.now ∧
    ((e.tile 0).pn.main.find? fun r => r.place == 1) = some (pnRec 1) ∧
    e.tierMapped ((e.tile 0).pn.spillBase + 0) 96 = true ∧
    (((d1.2.2.memWrite 0x40000000000 d1.1 1 d1.2.1).tile 0).panq) = [popCmd 0x41 1] ∧ (popCmd 0x41 1).wait ≠ 0x20 ∧
    ([pnRec 3].find? fun r => r.place == 3) = some (pnRec 3) := by decide +kernel

theorem test_package_events :
    let m := State.reset.pkg.regions.map fun (r : RegionSlots) => { r with move := some (191, 3, 12), selfTest := some 12 }
    let s : State := { State.reset with pkg := { State.reset.pkg with regions := m } }
    s.step.st ≠ 1 ∧ (s.region 15).move = some (191, 3, 12) ∧ 191 / 12 = 15 ∧ s.pkg.map.length = 192 ∧
    s.pkg.regions.length = 16 ∧ (s.region 15).selfTest = some 12 ∧
    bit (nth s.flash.mesh 1 0) 7 = false ∧ s.flash.mesh.length = 2 ∧
    ((Tbl.get [] s.err.meshTimes (8 * 1 + 7)).filter fun x => decide (s.now - x ≤ 1000000000)).length < 1000 ∧
    (nth s.flash.links 2 {}).st ≠ 2 ∧ ((Tbl.get [] s.err.linkRetryTimes 2).filter fun x => s.now - x ≤ 1000000).length < 16 ∧
    ({ s.err with linkHeld := [2] } : ErrLog).linkHeld.contains 2 = true ∧ s.flash.links.length = 3 := by decide +kernel

/-- A step of two micro-batches over tiles 0 and 191, with all of one posted but by tile 0. -/
def mbStep (posts : List Nat) (own : List Nat) : State :=
  { State.reset with
    step := { st := 1, mbCount := 2, tileSet := [0, 191] }
    tiles := [(0, { posts := own }), (191, { posts := posts })] }

theorem test_micro_batches :
    let s := mbStep [1, 0xFF] []
    s.step.tileSet.contains 0 = true ∧ s.step.st = 1 ∧
    ((191 : Nat) ∈ s.step.tileSet ∧ (191 : Nat) ≠ 0 ∧ (s.tile 191).posts.contains 0 = false) ∧
    (∀ q ∈ s.step.tileSet, q ≠ 0 → (s.tile q).posts.contains 1 = true) ∧ s.step.counted.contains 1 = false ∧
    s.step.drainCount + 1 < s.step.mbCount ∧
    (∀ q ∈ s.step.tileSet, q ≠ 0 → (s.tile q).posts.contains 0xFF = true) ∧
    (let t := { s with step := { s.step with held := some s.stepNo, drainCount := 2 } }
     t.step.held = some t.stepNo ∧ t.step.drainCount = t.step.mbCount ∧ t.step.actionable = none) ∧
    s.step.mbCount ≤ 2 ∧ s.refuses 7 = false ∧ s.fromAbove 7 = false ∧ s.stepNo = 1 ∧ s.step.ended = false := by decide

theorem test_tandem_swap :
    let b : State := mbStep [] []
    let s := { b with step := { b.step with actionable := some 0, written := [(3, true)] } }
    let w := { s with step := { s.step with st := 3 } }
    s.step.st = 1 ∧ s.step.actionable.isSome = true ∧ s.step.ship = none ∧ s.viewsBusy = false ∧ s.fab.combining = [] ∧
    (∀ r ∈ s.pkg.regions, r.failed = []) ∧ Tbl.wf false s.step.written = true ∧ (mbStep [] []).step.actionable = none ∧
    w.step.st = 3 ∧ w.step.ship = none ∧ bit w.obs.triggers 2 = false := by decide

theorem test_repeats :
    let s := { mbStep [] [] with hal := { State.reset.hal with job := 2 } }
    let r := { s with step := { s.step with st := 4, repeating := some (1, 4, []), repeatAt := 0 }, time := { s.time with ns := 10000 } }
    let d := { r with step := { r.step with drained := true } }
    s.refuses 7 = false ∧ s.fromAbove 7 = false ∧ 1 = s.stepNo ∧ s.step.attempt < 1 ∧ 2 ≤ s.hal.job ∧
    s.step.st ≠ 3 ∧ s.fab.combining = [] ∧ r.step.st = 4 ∧ r.step.drained = false ∧ r.step.repeatAt + 10000 ≤ r.now ∧
    r.step.repeating = some (1, 4, []) ∧ (∀ g ∈ r.pkg.regions, g.failed = []) ∧ r.poisoned = [] ∧
    r.relayoutDue = false ∧ r.hbm.mapped = [] ∧ r.fab.combining = [] ∧ r.fab.reqs = [] ∧ bit r.obs.triggers 3 = false ∧
    d.step.st = 4 ∧ d.step.drained = true ∧ d.hal.job = 2 ∧ d.slotsWait = false ∧ d.tileReinit = false ∧
    d.heat.stop = none ∧ d.hbm.stk.any (·.relayout) = false ∧ d.hbm.restoring = false := by decide +kernel

theorem test_snapshots :
    let x : Ship := { cmd := { session := 1, seq := 1, code := 0x205 }, off := 0, len := 64, dst := 1, key := 0, at_ := 0, copying := true }
    let s := { State.reset with step := { ship := some x, actionable := some 0 }, time := { ns := 1000000000 } }
    s.step.ship = some x ∧ x.copying = true ∧ x.bad = false ∧ (s.fab.reqs.any fun r => r.why == Purpose.snapshot) = false ∧
    ({ x with bad := true } : Ship).bad = true ∧ s.step.actionable = some 0 ∧ 0 + 1000000000 ≤ s.now := by decide

theorem test_reduction_records :
    let s := { State.reset with red := { State.reset.red with trees := [(0, some 5, [6])] } }
    let g : Gx := { elems := List.replicate 32 0, res := [], x := 0 }
    s.current 1 0 = true ∧ s.current 1 1 = false ∧ s.current 2 0 = false ∧ (s.tree 0).1 = some 5 ∧ (s.tree 0).1 ≠ some 6 ∧
    (Gx.ofRec (List.replicate 168 0) (s.tagEnt 0).width).resOk = true ∧
    (s.red.waiting.find? fun w => (s.tagEnt w.1).tree == 0) = none ∧
    (s.red.ctlWait.find? fun w => w.1 == 0) = none ∧ (∀ p ∈ g.elems.zip g.elems, gxClamp 64 (p.1 + p.2) = p.1 + p.2) := by decide +kernel

theorem test_ledger :
    let s := { State.reset with red := { State.reset.red with lead := true, ledger := 1, team := [0, 7], reported := [(0, 1)] } }
    let r := { s.red with reported := Tbl.set 0 s.red.reported 7 1 }
    s.red.lead = true ∧ s.red.ledger = 1 ∧ s.red.leadAbove = none ∧ s.red.standbyDev = none ∧ s.red.tagCount = 0 ∧
    s.refuses 7 = false ∧ s.red.allReported = false ∧ r.allReported = true ∧
    s.red.repeatsRow < s.red.repeatLimit ∧ s.red.attempt < 255 ∧
    (let t := { s with time := { s.time with ns := 60000000001 } }
     t.red.openedAt + 1000000000 * t.red.hardLimit < t.now) ∧
    (let t := { s with red := { s.red with lateSince := [(7, 1)] }, time := { s.time with ns := 50000001 } }
     (7, 1) ∈ t.red.lateSince ∧ 1 - 1 + 1000000 * t.red.beatTimeout < t.now ∧ (t.treeAt 0).1 = none) ∧
    ({ s.red with repeatsRow := 8 } : Red).repeatLimit ≤ 8 := by decide

theorem test_beats_and_standby :
    let s := { State.reset with red := { State.reset.red with trees := [(0, some 9, [])] } }
    let b := { State.reset with red := { State.reset.red with standby := true, leadDev := 9 }, time := { ns := 5000000 } }
    let l := { State.reset with red := { State.reset.red with
      standbyDev := some 9, lead := true, deciding := some { commit := true, step := 1 } } }
    s.treeAt 0 = (some 9, []) ∧ s.ctlFree 0 = true ∧ s.red.ctlWait = [] ∧ b.red.standby = true ∧ b.refuses 9 = false ∧
    l.red.deciding = some { commit := true, step := 1 } ∧ l.red.standbyDev = some 9 ∧ l.red.lead = true ∧
    l.refuses 9 = false ∧ b.red.lastHeart + 5000000 ≤ b.now ∧ b.assisted 6 = false ∧ b.fab.device ≠ b.red.leadDev ∧
    State.refuses { b with red := { b.red with oldLeads := [9] } } 9 = true := by decide

theorem test_hbm_channels :
    let c : Chan := { shadowing := [65535], retiring := [7], retries := 3, retrain := some 2000000 }
    let s : State := { State.reset with
      hbm := { State.reset.hbm with chans := [(95, c)] }, flash := { State.reset.flash with chans := [(94, { retired := 1 })] } }
    let k (t : Int) (l : List Int) (n : Nat) : State :=
      { State.reset with hbm := { State.reset.hbm with stk := List.replicate 6 { level := n, reports := l, temp := t } } }
    let r := { State.reset with hbm := { State.reset.hbm with
      chans := [(95, { failing := true })], stk := List.replicate 6 { relayout := true } } }
    s.chan 95 = c ∧ c.shadowing = [65535] ∧ c.retiring = [7] ∧ (s.chanRec 95).mappedOut = false ∧ c.failing = false ∧
    (s.onChanRec 95 fun c => { c with retired := c.retired + 1 }).top 5 = s.top 5 ∧ 3 ≤ c.retries ∧
    (s.chan 94).retries < 3 ∧ (s.chan 94).retrain = none ∧ c.retrain = some 2000000 ∧ s.hal.cmds = [] ∧
    s.chanAddr 95 (2048 * c.scrub) % 2 ^ 36 < s.top 5 ∧ s.hbm.stk.length = 6 ∧
    (85 : Int) ≤ (85#8).toInt ∧ 1 < (nth (k 0 [] 2).hbm.stk 5 {}).level ∧ (nth (k 0 [] 1).hbm.stk 5 {}).level = 1 ∧
    (let x := nth (k 82 (List.replicate 9 82) 7).hbm.stk 5 {}
     (82#8).toInt ≤ (85 : Int) - 3 ∧ 9 ≤ x.reports.length ∧ (∀ q ∈ x.reports.take 9, q ≤ (85 : Int) - 3) ∧ x.level < 8) ∧
    (84#8).toInt < (85 : Int) ∧ (85 : Int) - 3 < (83#8).toInt ∧
    (nth r.hbm.stk 5 {}).relayout = true ∧ r.hbm.stk.length = 6 ∧ r.dueChans 5 = [15] ∧ s.hbm.flips = [] ∧
    64 * (chanCap / 64 - 1) < chanCap ∧ s.chanAddr 95 (64 * 0) % 2 ^ 36 < s.top 5 := by decide +kernel

/-- A stack whose top falls, with and without a page in the last frame. -/
theorem test_hbm_shrinks :
    let z (t : Tier) (c : Chan) : State := { State.reset with hbm := { State.reset.hbm with chans := [(95, c)] }, tier := t }
    let t : Tier := { State.reset.tier with
      frames := [5 * 2 ^ 36 + 16 * chanCap - 2 ^ 21], pages := [(5, { st := 2, home := 2 ^ 62 + 2 ^ 44 })], dirty := [(160, 1)] }
    let low (s : State) := (s.onChanRec 95 fun c => { c with retired := c.retired + 1 }).top 5
    let s := z State.reset.tier { retiring := [7] }
    let u := z t { retiring := [7] }
    low s < s.top 5 ∧ (s.beginShrink 5 (low s)).shrinkClear = true ∧ low u < u.top 5 ∧
    (u.beginShrink 5 (low u)).shrinkClear = false ∧
    ((z State.reset.tier { failing := true }).beginRelayout 5).shrinkClear = true ∧
    ((z t { failing := true }).beginRelayout 5).shrinkClear = false := by decide +kernel

/-- A state with one REMOTE page hot enough, one LOCAL page, and a frame list. -/
def tierState (frames : List Nat) (moves : List Move := []) (st5 : Nat := 1) : State :=
  { State.reset with tier := { State.reset.tier with
      pages := [(5, { st := st5, home := 2 ^ 62 + 2 ^ 44 }), (6, { st := 2, frame := 0, home := 2 ^ 62 + 2 ^ 44 + 2 ^ 21 })]
      heat := [(5, 2048), (6, 8)], frames := frames, moves := moves } }

theorem test_page_moves :
    let s := tierState [0, 0x200000]
    let m : Move := { page := 5, arrived := 31 }
    let f := tierState [0, 0x200000] [m] 3
    let e := tierState [0]
    let v : Move := { page := 6, evict := true, passes := 4 }
    let d := { e with tier := { e.tier with moves := [v], pages := [(6, { st := 4, frame := 0, home := 2 ^ 62 })] } }
    Tbl.wf 0 s.tier.heat = true ∧ s.nextOrdered false = none ∧ s.assisted 1 = false ∧ s.hottestPage s.candidates = some 5 ∧
    s.openFrames = [1] ∧ s.tier.epochAt + 1000000 * s.tier.epochMs ≤ ({ s with time := { ns := 10 ^ 9 } }).now ∧ s.holdsShare 0x21 = true ∧ s.tier.moves.length < s.tier.maxMigrations ∧
    f.moveOf 5 = some m ∧ m.evict = false ∧ (f.page 5).st = 3 ∧ m.bad = false ∧ m.forced = false ∧ f.fab.queue = [] ∧ f.asking 5 = false ∧ 31 ≤ m.arrived ∧
    ({ m with arrived := 30 } : Move).arrived < 31 ∧ ({ f with time := { ns := 10000000 } }).now = m.began + 10000000 ∧
    e.nextOrdered true = none ∧ e.nextOrdered false = none ∧ e.hottestPage e.candidates = some 5 ∧ e.victimFor 5 = some 6 ∧ e.openFrames = [] ∧
    e.dirtyGrans 6 = [] ∧ d.moveOf 6 = some v ∧ v.evict = true ∧ (d.page 6).st = 4 ∧ d.dirtyGrans 6 = [] ∧
    d.writing 6 = false ∧ v.next = none ∧ 4 ≤ v.passes := by decide +kernel

theorem test_evicted_frame_goes_on :
    let v : Move := { page := 6, evict := true, next := some 5 }
    let e := tierState [0]
    let d := { e with tier := { e.tier with moves := [v], pages := [(5, { st := 1, home := 2 ^ 62 }), (6, { st := 4, frame := 0, home := 2 ^ 62 })] } }
    let s1 := ((d.leaveFrame 6).onTier fun x => { x with evicted := satAdd 32 x.evicted 1 }).tierDone 6 true 0
    d.moveOf 6 = some v ∧ v.next = some 5 ∧ s1.openFrames.contains (d.page 6).frame = true ∧ (s1.page 5).st = 1 := by decide +kernel

/-- A request of the device's own to device 9. -/
def req (why : Purpose) (num : Nat := 0) : Req :=
  { num := num, pkt := { op := 2, src := 0, dst := 9, wseq := 1 }, why := why, first := some 0, sentAt := 0, wait := 50000, tries := 1 }

def withReqs (l : List Req) (s : State := State.reset) : State := { s with fab := { s.fab with reqs := l } }

theorem test_write_back :
    let t : Tier := { State.reset.tier with
      pages := [(5, { st := 2, home := 2 ^ 62 + 2 ^ 44 })], dirty := [(191, 1)], wbs := [(5, 31)] }
    let s : State := { State.reset with tier := t, time := { ns := 100000000 } }
    let w := withReqs [req (.writeBack 5 31)] s
    let b := { withReqs [req (.buddy 5)] s with tier := { t with buddySt := 1, buddyDev := 9 } }
    let c : State := { State.reset with tier := { t with
      pages := [(5, { st := 2, buddy := true, home := 2 ^ 62 + 2 ^ 44 * 9 })], buddySt := 3, reseed := 2 ^ 21 } }
    Tbl.get 0 s.tier.dirty (32 * 5 + 31) = 1 ∧ s.tier.wbMs ≠ 0 ∧ (s.page 5).buddy = false ∧ (s.page 5).home ≠ 0 ∧
    (s.page 5).st = 2 ∧ 1 + 1000000 * s.tier.wbMs ≤ s.now + 1 ∧
    w.req 0 = some (req (.writeBack 5 31)) ∧ w.tier.wbs.contains (5, 31) = true ∧
    (∀ q ∈ w.fab.reqs, q.num ≠ 0 → q.why ≠ .writeBack 5 31) ∧ w.moveOf 5 = none ∧ w.fab.owed = [] ∧ w.hal.cmds = [] ∧
    (req (.writeBack 5 31)).pkt.dst ≠ selfDev ∧ b.req 0 = some (req (.buddy 5)) ∧ (req (.buddy 5)).dead = false ∧
    b.tier.buddySt = 1 ∧ (req (.buddy 5) ∈ b.fab.reqs ∧ (req (.buddy 5)).born + 1000000 * b.tier.buddyTimeout ≤ b.now) ∧
    Tbl.wf {} c.tier.pages = true ∧ (c.page 5).buddy = true ∧ 2 ≤ (c.page 5).st ∧ addrDev (c.page 5).home = 9 ∧
    addrOff (c.page 5).home ≤ 0 ∧ 0 < addrOff (c.page 5).home + 2 ^ 21 ∧ c.tier.buddySt = 3 ∧ 2 ^ 21 ≤ c.tier.reseed ∧
    (∀ r ∈ c.fab.reqs, r.why.reseeds = false) := by decide +kernel

/-- Fabric records, at the last record's place: a FENCE, a CTR_WAIT, a COPY, a REMOTE and a STREAM. -/
def fabRec (op : Nat) : Nat :=
  match op with
  | 0x61 => 0x61 + 2 ^ 8 * 1 + 2 ^ 32 * 10000000 + 2 ^ 64 * 0x40000000000 + 2 ^ 128 * 256 + 2 ^ 192 * 0x080000000000 + 2 ^ 320 * 0x2FFFF0
  | 0x62 => 0x62 + 2 ^ 64 * (2 ^ 62 + 2 ^ 44) + 2 ^ 128 * 0 + 2 ^ 224 * 4 + 2 ^ 320 * 0x2FFFF0
  | 0x63 => 0x63 + 2 ^ 64 * 1 + 2 ^ 288 * 1023 + 2 ^ 320 * 0x2FFFF0 + 2 ^ 352 * 5
  | 0x64 => 0x64 + 2 ^ 320 * 0x2FFFF0
  | _ => 0x65 + 2 ^ 64 * (2 ^ 62 + 2 ^ 44) + 2 ^ 224 * 4 + 2 ^ 256 * 0x2FFFFC + 2 ^ 320 * 0x2FFFF0

theorem test_fabric_issue :
    let s (op : Nat) := ran fun x => { x with store := store [(0x2FFF80, 64, fabRec op)] }
    let full : FabCmd := { id := 1, op := 0x62, main := [], addr := 0 }
    (∀ op ∈ [0x61, 0x62, 0x63, 0x64, 0x65], (s op).mayIssue 0 = true ∧ (s op).recFault 0 0x2FFF80 = 0 ∧
      (s op).fabFull 0 op = false ∧ field (((s op).tile 0).get 0x2FFF80 64) 0 1 = op) ∧
    (s 0x61).streamCheck 0 (((s 0x61).tile 0).get 0x2FFF80 64) = 0 ∧
    (∀ op ∈ [0x62, 0x63, 0x64, 0x65], fabCheck (((s op).tile 0).get 0x2FFF80 64) = 0) ∧
    ((s 0x61).onTile 0 fun x => { x with fabq := List.replicate 16 full }).fabFull 0 0x61 = true ∧
    fabCheck (toBytes 64 0x62) ≠ 0 ∧ (s 0x61).streamCheck 0 (toBytes 64 0x61) ≠ 0 := by decide +kernel

/-- Tile 0 with one fabric command. -/
def fabTile (c : FabCmd) : State := tile0 fun x => { x with fabq := [c] }

theorem test_fabric_runs :
    let c (op : Nat) (st : Nat := 0) : FabCmd := { id := 1, op := op, main := toBytes 64 (fabRec op), addr := 0, st := st, mark := 1 }
    let s (op : Nat) := fabTile (c op 1)
    let w : FabCmd := { c 0x63 1 with due := 1 }
    let f := { fabTile (c 0x64 1) with fab := { State.reset.fab with refused := [(0, 7, 0, 8)] } }
    (∀ op ∈ [0x61, 0x62, 0x63, 0x64, 0x65], nextFab ((fabTile (c op)).tile 0).fabq = some (c op)) ∧
    State.reset.holdsShare 0x21 = true ∧ (fabTile (c 0x62)).copying < (fabTile (c 0x62)).enginesIn ∧
    ¬ (1 ≤ recBits (c 0x65).main 10 8) ∧ ((fabTile (c 0x65)).tile 0).marked (recBits (c 0x65).main 277 256) 4 = false ∧
    (∀ op ∈ [0x62, 0x63, 0x64, 0x65], (s op).fabAt 0 0 op = some (c op 1) ∧ (c op 1).st = 1 ∧ (s op).serves 0 1 = false) ∧
    recBits (c 0x63).main 127 64 ≤ Tbl.get 0 ({ (s 0x63).fab with arrive := [(1023, 1)] } : Fabric).arrive
      (recBits (c 0x63).main 299 288) ∧
    w.due ≠ 0 ∧ w.due ≤ ({ fabTile w with time := { ns := 1 } }).now ∧
    (s 0x64).fencePending 0 (c 0x64 1) = false ∧ (s 0x64).fab.refused = [] ∧
    f.fencePending 0 (c 0x64 1) = false ∧ f.fab.refused = [(0, 7, 0, 8)] ∧ (c 0x64 1).covers 0 0 7 0 = true := by decide +kernel

/-- A REMOTE write of marked words. -/
theorem test_remote_marked :
    let m := toBytes 64 (fabRec 0x65 + 2 ^ 8)
    let c : FabCmd := { id := 1, op := 0x65, main := m, addr := 0 }
    let s := tile0 fun x => { x with fabq := [c], marks := Tbl.set false [] (0x2FFFFC / 32) true }
    nextFab (s.tile 0).fabq = some c ∧ 1 ≤ recBits m 10 8 ∧ recBits m 10 8 ≤ 5 ∧
    (s.tile 0).marked (recBits m 277 256) (remoteBytes m) = true := by decide +kernel

theorem test_streams :
    let c (mode st : Nat) : FabCmd := { id := 1, op := 0x61, main := toBytes 64 (0x61 + 2 ^ 8 * mode), addr := 0, st := st, due := 5 }
    let s (mode st : Nat) : State := { fabTile (c mode st) with time := { ns := 5 } }
    (∀ mode ∈ [0, 1, 2], ∀ st ∈ [0, 1, 2], (s mode st).fabAt 0 0 0x61 = some (c mode st) ∧ recBits (c mode st).main 10 8 = mode ∧
      (c mode st).st = st ∧ (c mode st).ended = false ∧ (s mode st).serves 0 1 = false ∧ (c mode st).late = false ∧
      (c mode st).due ≤ (s mode st).now ∧ (c mode st).since ≤ (c mode st).due) ∧
    ({ c 0 1 with since := 6 } : FabCmd).due < ({ c 0 1 with since := 6 } : FabCmd).since ∧
    ({ c 0 1 with ended := true } : FabCmd).ended = true ∧
    (withReqs [req (.stream 0 1 0)] (s 1 1)).serves 0 1 = true := by decide +kernel

/-- A device with number 1, whose region table lets key 3 do all at HBM. -/
def home1 : State := { State.reset with fab := { State.reset.fab with
    device := 1, numbered := true, regions := [(0, { base := 0, size := 2 ^ 36, key := 3, perm := 15 })] } }

/-- A write of 4 bytes from device 9 to local offset 64, number `w`. -/
def wr (w : Nat) (op : Nat := 2) : Pkt :=
  { op := op, src := 9, dst := 1, wseq := w, key := 3, addr := 2 ^ 62 + 2 ^ 44 + 64, data := [1, 2, 3, 4] }

theorem arrives_of {s : State} {p : Pkt}
    (h : Tbl.get 0 (s.port p.port).rxHeld (pktClass p) - p.freed + pktLen p ≤ pfcHeadroom ∧ p.crcOk = true) : s.Arrives p :=
  ⟨by have := h.1; simp only [State.rxBeyond, decide_eq_false_iff_not]; omega, h.2⟩

theorem test_home_admits : Admits home1 (wr 1) := by
  constructor
  · exact arrives_of (by decide)
  all_goals decide +kernel

theorem test_home_requests :
    State.reset.fab.numbered = false ∧ home1.fab.numbered = true ∧ ({ wr 1 with dst := 2 } : Pkt).dst ≠ home1.fab.device ∧
    (wr 1).dst = home1.fab.device ∧ (wr 1).src ≠ selfDev ∧ ({ wr 1 with dstEpoch := 5 } : Pkt).dstEpoch ≠ home1.flash.bootEpoch ∧
    home1.assisted 1 = false ∧ knownOp 0x33 = false ∧ knownOp (wr 1).op = true := by decide

/-- A port whose buffer is full. -/
theorem test_port_full (cls len : Nat) : let s := { State.reset with ports := List.replicate 18 { rxHeld := [(cls, Config.rxRoom + pfcHeadroom)] } }
    len ≠ 0 → s.rxBeyond 0 cls len 0 = true := by
  intro s h
  have : Tbl.get 0 (s.port 0).rxHeld cls = Config.rxRoom + pfcHeadroom := by simp [s, State.port, nth, Tbl.get]
  simp only [State.rxBeyond, this, decide_eq_true_iff]
  omega

theorem test_remote_write :
    let p := wr 1
    p.wseq ≠ 0 ∧ p.wseq = (home1.sender p.src).next ∧ home1.holdOf [] p false = none ∧ addrScope p.addr = 1 ∧
    home1.fab.reqs = [] ∧ home1.hbm.flips = [] ∧ knownOp p.op = true ∧ home1.step.enabled = false ∧ home1.fab.combining = [] ∧ home1.inHbm (addrOff p.addr) 4 = true ∧
    (∀ b, b < 4 → (home1.chan (home1.chanAt (addrOff p.addr + b))).failing = false) := by decide +kernel

theorem test_home_numbers :
    let e : Combine := { op := 0x10, ty := 0, addr := 0, val := 1, opened := 0 }
    let s : State := { State.reset with time := { ns := 51 }, fab := { State.reset.fab with combining := [e], tokens := [(65535, 51)] } }
    let h : Held := { pkt := wr 1, why := .order }
    let q : State := { home1 with fab := { home1.fab with queue := [h, h] } }
    Admits home1 (wr 2) ∧ (2 ≠ (home1.sender 9).next ∧ home1.fab.owed = [] ∧ (home1.sender 9).mute = [] ∧
      wBelow 2 (home1.sender 9).next = false) ∧
    (let g : State := { home1 with fab := { home1.fab with senders := [(9, { next := 3 })] } }
     Admits g (wr 2) ∧ wBelow 2 (g.sender 9).next = true) ∧
    (s.fab.tokens.find? fun y => y.1 == 65535) = some (65535, 51) ∧ 51 ≤ s.now ∧ s.fab.combining = [e] ∧
    e.opened + 51 ≤ s.now ∧ s.inHbm e.addr (atomSize e.ty) = true ∧ e.addr % atomSize e.ty = 0 ∧ s.step.enabled = false ∧
    (s.chan (s.chanAt e.addr)).failing = false ∧ (s.unitAt e.addr).poison = false ∧
    q.fab.queue[0]? = some h ∧ q.holdOf (q.fab.queue.take 0) h.pkt h.dup = none ∧
    h.refuse = 0 ∧ q.busyTime h.pkt = none ∧ q.fab.queue[1]? = some h ∧
    (q.holdOf (q.fab.queue.take 1) h.pkt h.dup).isSome = true := by
  refine ⟨?_, ?_, ⟨?_, ?_⟩, ?_⟩
  · exact ⟨arrives_of (by decide), by decide, by decide, by decide, by decide, by decide +kernel, by decide, by decide, by decide, by decide, by decide +kernel, by decide +kernel, by decide +kernel, by decide +kernel, by decide⟩
  · decide +kernel
  · exact ⟨arrives_of (by decide), by decide, by decide, by decide, by decide, by decide +kernel, by decide, by decide, by decide, by decide, by decide +kernel, by decide +kernel, by decide +kernel, by decide +kernel, by decide⟩
  · decide +kernel
  · decide +kernel

theorem test_requester :
    let r := req .nobody
    let s := withReqs [r] { home1 with time := { ns := 40000000 } }
    let p : Pkt := { op := 2, kind := 2, src := 9, dst := 1, reqId := 0, aux := 1 }
    s.fab.numbered = true ∧ p.dst = s.fab.device ∧ p.version = 1 ∧ p.kind = 2 ∧
    (s.fab.reqs.find? fun r => r.pkt.dst == p.src && r.pkt.reqId == p.reqId && r.pkt.op == p.op && r.tries ≠ 0 && !r.dead) = some r ∧
    r.hold = none ∧ p.aux ≠ 0 ∧ s.req 0 = some r ∧ ({ r with hold := some 8 } : Req).hold = some 8 ∧ 8 ≤ s.now ∧
    r.routeHold = false ∧ r.pkt.dst ≠ selfDev ∧ r.dead = false ∧ r.sentAt + r.wait ≤ s.now ∧
    (s.peer 9).timeouts + 1 < s.fab.pathFail ∧
    (let t := { s with fab := { s.fab with peers := [(9, { timeouts := 2 })] } }
     t.fab.pathFail ≤ (t.peer 9).timeouts + 1) ∧
    r.first = some 0 ∧ 0 + 1000000 * s.fab.reachMs ≤ s.now ∧ r.pkt.dst ≠ selfDev := by decide +kernel

/-- The response of `test_requester` arrives. -/
theorem test_response_arrives : State.Arrives home1 { op := 2, kind := 2, src := 9, dst := 1, reqId := 0, aux := 1 } :=
  arrives_of (by decide)

/-- A port 17 that is UP, with an IPv4 and an IPv6 address, VLAN 5. -/
def port17 (f : Port → Port := id) : State :=
  let c : PortCfg := { mac := some [2, 0, 0, 0, 0, 1], ipv4 := some ([10, 0, 0, 1], 24), ipv6 := some (List.replicate 16 7, 64), vlan := 5 }
  let s := { State.reset with ports := (List.replicate 18 {}).set 17 (f { link := 2, cfg := c }) }
  s

theorem test_port_frames :
    let s := port17 fun x => { x with
      paused := [(7, 0)], nbr := some { device := 1, numbered := true, epoch := 0, port := 0, caps := 0, at_ := 0 } }
    let f : Frame := { len := 64, dst := List.replicate 6 0xFF, src := List.replicate 6 2 }
    let h : IpHdr := { v6 := true, src := List.replicate 16 8, dst := List.replicate 16 7 }
    s.ports.length = 18 ∧ ({ f with fcsOk := false } : Frame).fcsOk = false ∧ f.fcsOk = true ∧ s.accepts 17 { f with len := 63 } = false ∧
    s.receives 17 f = true ∧ [10, 0, 0, 1] ∈ s.ipv4s 17 ∧ [10, 0, 0, 2] ∉ s.ipv4s 17 ∧
    s.receives 17 { f with ip := some h } = true ∧ List.replicate 16 7 ∈ s.ipv6s 17 ∧ List.replicate 16 9 ∉ s.ipv6s 17 ∧
    s.addressed 17 = true ∧ State.reset.addressed 17 = false ∧ (s.port 17).link = 2 ∧
    (∃ e ∈ (s.port 17).paused, e.1 = 7 ∧ e.2 ≤ s.now) ∧ (s.port 17).lldpDue ≤ s.now ∧
    ((port17.port 17).direct = false ∧ (∀ w ∈ port17.txWait, w.1 ≠ 17) ∧ (port17.port 17).paused = []) ∧
    (s.port 17).nbr = some { device := 1, numbered := true, epoch := 0, port := 0, caps := 0, at_ := 0 } ∧
    ({ s with time := { ns := 20000000000 } }).now = 0 + 20000000000 := by decide +kernel

theorem test_port_links :
    let s := { port17 with boot := { State.reset.boot with rails := true } }
    let d := State.onPort s 17 fun x => { x with link := 0 }
    let x : Port := s.port 17
    let r := State.onPort s 17 fun x => { x with trying := some [0, 1, 2, 3], retraining := true, link := 1, retrainTimes := [0, 0] }
    let u : State := { port17 fun x => { x with inUse := [0, 3], uncorrTimes := List.replicate 9 0 } with time := { ns := 1 } }
    let k := port17 fun x => { x with
      direct := true, unacked := [(4095, 1, 0), (0, 2, 6)], frameTimes := [] }
    s.ports.length = 18 ∧ (d.port 17).link = 0 ∧ (d.port 17).trying = none ∧ d.boot.rails = true ∧ bit d.pwr.force 4 = false ∧
    d.boot.bootSel ≠ 2 ∧ (d.laneSets 17)[0]? = some [0, 1, 2, 3] ∧ (d.laneSets 17)[7]? = none ∧
    (r.port 17).trying = some [0, 1, 2, 3] ∧ (r.port 17).retraining = true ∧ x.failed = [] ∧ x.retraining = false ∧
    x.setIx + 1 < (s.laneSets 17).length ∧ (s.laneSets 17).length ≤ 6 + 1 ∧
    (u.port 17).link = 2 ∧ 3 ∈ (u.port 17).inUse ∧
    ((r.port 17).retrainTimes.filter fun t => s.now < t + 60000000000).length < 3 ∧ (u.port 17).direct = false ∧
    1000 * 2 ≤ 2000 ∧ 1999 < 1000 * 2 ∧ bit (Tbl.get 0 u.flash.lanes 17) 3 = false ∧
    (((u.port 17).uncorrTimes.filter fun t => u.now < t + 1000000000) ++ [u.now]).length ≤ 10 ∧
    (((List.replicate 10 0).filter fun t => u.now < t + 1000000000) ++ [u.now]).length > 10 ∧
    (k.port 17).link = 2 ∧ (k.port 17).direct = true ∧ (∃ e ∈ (k.port 17).unacked, e.1 = 4095) := by decide +kernel

theorem test_direct_replay :
    let x : Port := { link := 2, direct := true, unacked := [(4094, 1, 0), (4095, 1, 6)], frameTimes := List.replicate 1 0 }
    let keep := x.unacked.takeWhile fun u => u.1 ≠ 4096
    keep = x.unacked ∧ (∀ u ∈ (x.unacked.drop 1).map fun u => (u.1, u.2.1, u.2.2 + 1), u.2.2 < 8) ∧
    1000000 * ([] : List Nat).length ≤ x.frameTimes.length := by decide

theorem test_shared_time :
    let s (st : Nat) (ns : Nat) : State := { State.reset with time := { src := 2, st := st, ns := ns } }
    let g : State := { State.reset with
      hal := { State.reset.hal with res := (List.replicate 20 {}).set 7 { owner := 0x22 } }
      time := { ns := 100000000, ppsOut := some 0, timeclkEn := true } }
    let p := { port17 fun x => { x with ptp := { x.ptp with st := 1 } } with time := { ptpPorts := 2 ^ 17 } }
    1000000 < (ppsOffset ((s 2 1000001).now + 0)).natAbs ∧ (ppsOffset ((s 2 1000000).now + 0)).natAbs ≤ 1000000 ∧
    (s 1 0).time.st ≠ 2 ∧ (s 1 0).hal.job ≠ 2 ∧ ((s 1 3000000000).time.heard + 3000000000 ≤ (s 1 3000000000).time.ns) ∧
    ¬ (State.reset.time.src = 2 ∨ State.reset.time.src = 3) ∧
    g.ppsOwns = true ∧ ({ g with time := { ns := 999999996 } }.now + 4) % 1000000000 ≤ 8 ∧
    ({ g with time := { ns := 1000000004 } }.now + 4) % 1000000000 ≤ 8 ∧ g.time.ppsOut = some 0 ∧ 0 + 100000000 ≤ g.now ∧
    State.reset.ports.length = 18 ∧ bit State.reset.pwr.force 4 = false ∧ g.time.timeclkEn = true ∧ g.time.timeclkOk = false ∧
    (p.port 17).link = 2 ∧ bit p.time.ptpPorts 17 = true ∧ (p.port 17).ptp.st = 1 ∧ 0 = p.time.ptpDomain ∧ 1 ≠ p.time.ptpDomain ∧
    p.time.ptpDelay = 0 ∧ (s 1 3000000000).time.src ≠ 0 ∧ ({ g.time with timeclkOk := true } : Time).timeclkOk = true := by decide +kernel

theorem test_halter_acceptance :
    let k : Reply := { seq := 1, code := 1, status := 0 }
    let x : Session := { num := 1, control := false, replies := [k], high := 1024 + 2 }
    let s : State := { State.reset with hal := { State.reset.hal with
      sessions := [x], cmds := List.replicate 64 { session := 1, seq := 9, code := 1 } } }
    commandOf (.nop (hdr 0)) = some (hdr 0, 1, 15, true) ∧
    commandOf (.halterUnknownCode (hdr 0) 0x17) = some (hdr 0, 0x17, 15, true) ∧
    State.reset.session 1 = none ∧ s.session 1 = some x ∧ (x.replies.find? fun r => r.seq == 1) = some k ∧
    (x.replies.find? fun r => r.seq == 2) = none ∧ 2 + 1024 ≤ x.high ∧ x.high < 3 + 1024 ∧ 64 ≤ s.mailboxUsed 0 ∧
    (hdr 1).mailbox ≠ 1 / 256 ∧ open1.mailboxUsed 0 < 64 ∧ x.control = false ∧ bit 8 s.hal.job = false := by decide +kernel

/-- A state with one session accepts a command in the job states of its row. -/
theorem open1_accepts (j code modes : Nat) (o : Bool) (h : bit modes j = true) : Accepted (open1 j) (hdr (code / 256)) code modes o :=
  accepted_of (open1 j) code modes o { num := 1, control := true } rfl rfl rfl rfl rfl h rfl

/-- Commands of each mailbox, and of each set of job states, are accepted. -/
theorem test_accepted :
    Accepted (open1) (hdr 0) 1 15 true ∧ Accepted (open1 1) (hdr 0) 6 14 false ∧ Accepted (open1) (hdr 1) 0x105 1 false ∧
    Accepted (open1 1) (hdr 1) 0x109 2 false ∧ Accepted (open1 2) (hdr 1) 0x10A 4 false ∧
    Accepted (open1 3) (hdr 1) 0x10B 8 false ∧ Accepted (open1 3) (hdr 1) 0x104 9 false ∧
    Accepted (open1 1) (hdr 1) 0x10C 10 false ∧ Accepted (open1) (hdr 2) 0x206 15 true ∧
    Accepted (open1) (hdr 3) 0x302 1 false :=
  ⟨open1_accepts 0 1 15 _ rfl, open1_accepts 1 6 14 _ rfl, open1_accepts 0 0x105 1 _ rfl, open1_accepts 1 0x109 2 _ rfl,
   open1_accepts 2 0x10A 4 _ rfl, open1_accepts 3 0x10B 8 _ rfl, open1_accepts 3 0x104 9 _ rfl,
   open1_accepts 1 0x10C 10 _ rfl, open1_accepts 0 0x206 15 _ rfl, open1_accepts 0 0x302 1 _ rfl⟩

theorem test_sessions :
    let x : Exchange := { num := 5, flags := 1, hello := [], offered := some 0 }
    let e : QEvent := { num := 7, ev := { code := 3 }, sentAt := 0 }
    let c : Session := { num := 1, control := true, events := [e] }
    let s : State := { State.reset with
      boot := { State.reset.boot with stage := .ready, exchanges := [x], signing := [(0, 5)] }
      hal := { State.reset.hal with sessions := [c], pull := true }, time := { ns := 60000000000 }
      err := { State.reset.err with ring := List.replicate 3073 { first := 0, last := 0, cls := 0, unit := 0, code := 0, inst := 0, step := 0, attempt := 0 } } }
    s.boot.stage = .ready ∧ (List.replicate 1216 (0 : Byte)).length = 1216 ∧ (s.boot.exchanges.find? fun x => x.num == 6) = none ∧
    s.boot.exchanges.length < 2 ∧ 2 ≤ [x, x].length ∧ s.boot.signing = [(0, 5)] ∧
    (s.boot.exchanges.find? fun x => x.num == 5) = some x ∧
    (s.boot.exchanges.find? fun x => x.num == 5 && x.offered.isSome) = some x ∧
    s.session 1 = some c ∧ (c.events.find? fun e => e.num == 7) = some e ∧ e.sentAt + e.wait ≤ s.now ∧
    c.lastMsg + 1000000000 * s.hal.idleS ≤ s.now ∧ s.hal.pull = true ∧ 3072 < s.err.ring.length ∧
    s.err.lastRead + 1000000000 ≤ s.now ∧ s.hal.decisions = [] ∧ knownCode 0x17 = false := by decide +kernel

/-- A CONFIRM of a CONTROL session whose checks pass, one whose MAC is wrong, and one that claims in PROVISION. -/
theorem test_confirm :
    let x : Exchange := { num := 5, flags := 1, hello := [1], offer := [2], ss := [3], offered := some 0 }
    let s : State := { State.reset with flash := { State.reset.flash with owner := some ([4], [5]) } }
    let p : State := { State.reset with boot := { State.reset.boot with bootSel := 2 } }
    let th := sha256 [1, 2]
    let body := hmac x.keys.2.2.1 th ++ hmac [4] th
    let claim := hmac x.keys.2.2.1 th ++ List.replicate 96 0
    body.length = 64 ∧ claim.length = 128 ∧
    s.finishStatus true false (body.take 32 == hmac x.keys.2.2.1 th) (slice body 32 32 == hmac [4] th) false = 0 ∧
    s.finishStatus true false (body.take 32 == hmac [6] th) true false ≠ 0 ∧
    p.finishStatus true true (claim.take 32 == hmac x.keys.2.2.1 th) false ((slice claim 32 32).all (· == 0)) = 0 := by
  decide +kernel

/-- A state with one decision pending, of which a command names the number. -/
def withDecision (q : Request) (j : Nat := 1) : State :=
  { open1 j with hal := { (open1 j).hal with decisions := [{ num := 1, req := q, created := 0 }] } }

theorem test_decisions :
    let t : State := { tierState [0] with hal := (withDecision (.tier 5 6)).hal }
    let c : PendCmd := { hdrCmd (hdr 0) 6 0 with args := [5, 0] }
    let v : PendCmd := { hdrCmd (hdr 0) 6 0 with args := [6, 1] }
    let r : State := { withDecision (.route 9 0 1) with fab := { State.reset.fab with numbered := true } }
    (∀ q ∈ [Request.row 95 0, .channel 95, .spare 15 12, .split [], .route 9 0 1, .logDrain, .lead 9, .tier 5 6],
      (withDecision q).named 1 = some { num := 1, req := q, created := 0 }) ∧
    open1.named 1 = none ∧ ((List.replicate 16 (1 : BitVec 8)).length = 16 ∧ ∃ w ∈ List.replicate 16 (1 : BitVec 8), w ≠ 0) ∧
    ((t.accept (hdr 0)).pend v).movePossible 6 true = true ∧ ((t.accept (hdr 0)).pend v).movePossible 5 true = false ∧
    (((t.accept (hdr 0)).dropDecision 1).pend c).movePossible 5 false = true ∧
    (r.hal.decisions.find? fun d => d.num == 1) = some { num := 1, req := .route 9 0 1, created := 0 } ∧
    deadlineOf 4 = some 5000000 ∧ 0 + 5000000 ≤ ({ r with time := { ns := 5000000 } }).now := by decide +kernel

theorem test_route_chosen :
    let s := { port17 with hbm := { State.reset.hbm with bytes := store [(128 * 9 + 32 * 3, 2, 17 + 256)] } }
    (s.routeTo 9 63).isSome = true ∧ (s.routeTo 9 64) = none := by decide +kernel

theorem test_resources :
    let s := open1
    let o : State := { open1 with hal := { open1.hal with
      res := ((((List.replicate 20 {}).set 7 { owner := 1 }).set 15 { owner := 2 }).set 19 { owner := 0x20 }).set 18 { owner := 0x20, draining := true }
      cores := (List.replicate 5 {}).set 3 { st := 2, priv := [0] } } }
    (s.res 7).owner = 0 ∧ s.heldBy 1 = [] ∧ s.hal.res.length = 20 ∧ (o.res 7).owner = 1 ∧ (o.res 7).session = 0 ∧
    (o.res 19).owner = 0x20 ∧ o.hal.job ≠ 2 ∧ o.hal.res.length = 20 ∧
    (let pay : List Byte := [0x80, 0xFF, 0xFF, 0, 0, 0, 0, 0]
     pay.length = 8 ∧ field pay 3 5 = 0 ∧ ∀ r, r < 8 → bit (field pay 0 1) r = true → (o.res r).owner = 1 ∧ (o.res r).session = 0) ∧
    (o.res (8 + 7)).owner = 2 ∧ (o.res (8 + 7)).session = 0 ∧ (o.res 18).draining = true ∧ s.hal.evc.length = 512 ∧
    bits 4 2 0 < 5 ∧ bits 4 31 5 = 0 ∧ 5 ≤ bits 5 2 0 ∧ bits 32 31 5 ≠ 0 ∧ s.hal.cores.length = 5 ∧ (s.core 3).st ≠ 2 ∧ s.lineUp 3 = false ∧
    bit s.flash.cores 3 = true ∧ (o.core 3).st = 2 ∧ o.lineUp 3 = true := by decide +kernel

theorem test_job :
    let c : PendCmd := { session := 1, seq := 1, code := 0x104, args := [254, 0, 191] }
    let s := open1
    let l : State := { open1 1 with red := { State.reset.red with lead := true } }
    let p : State := { open1 3 with hal := { (open1 3).hal with cmds := [c] } }
    let t : State := { open1 2 with step := { State.reset.step with enabled := true, units := 1 } }
    (s.slotOf 0).isSome = true ∧ (s.slotOf 191).isSome = true ∧ (s.accept (hdr 1)).loadData 0 64 0 =
      (some (List.replicate 64 0), ((s.accept (hdr 1)).loadData 0 64 0).2) ∧
    p.pendingOf 0x104 = [c] ∧ c.args = 254 :: [0, 191] ∧
    s.viewOk 0 4194304 = false ∧ s.viewOk 0 1 = true ∧ s.viewOk 65536 1 = true ∧ overlaps 0 (65536 * 1) 65536 (65536 * 1) = false ∧
    l.topLead = true ∧ l.boot.bootSel ≠ 2 ∧ s.topLead = false ∧ l.red.attempt < 255 ∧
    l.refuses 7 = false ∧ l.fromAbove 7 = false ∧ l.red.deciding = none ∧
    (let o (c : Bool) := { l with red := { l.red with deciding := some { commit := c, step := 1 } } }
     (o true).red.deciding = some { commit := true, step := 1 } ∧ (o false).red.deciding = some { commit := false, step := 1 }) ∧
    t.step.ship = none ∧ t.step.enabled = true ∧
    t.step.viewA ≤ 0 ∧ 0 + 65536 ≤ t.step.viewA + 65536 * t.step.units ∧ addrScope (2 ^ 62) = 1 ∧ t.stepNo ≤ 1 := by decide +kernel

theorem test_tables :
    let e : Nat := 1 + 2 ^ 48 * 1 + 2 ^ 128 * 4096 + 2 ^ 192 * 8192
    let g : State := { open1 with hbm := { State.reset.hbm with bytes := store [(0, 64, e)] } }
    let d := (g.accept (hdr 1)).loadData 0 64 (checkOf (toBytes 64 e))
    let c : PendCmd := { session := 1, seq := 1, code := 0x107, args := [0, 0, 0, 0, 0, 0, 0] }
    let p : State := { open1 with hal := { open1.hal with cmds := [c] } }
    let t : State := { tierState [0] with hal := (open1 1).hal }
    let z : State := { t with tier := { t.tier with dirty := [(32 * 6 + 31, 1)] } }
    let b : State := { tierState [0] with tier := { t.tier with pages := [(5, { st := 1, buddy := true, pin := true, home := 2 ^ 62 + 2 ^ 44 * 9 })] } }
    d.1 = some (toBytes 64 e) ∧ d.2.tagOk (toBytes 64 e) = true ∧ d.2.tagOk (List.replicate 64 0) = false ∧
    p.pendingOf 0x107 = [c] ∧ (pageOfBits 0).2 = false ∧ t.pageOk t.tier.buddyDev (pageOfBits 0).1 = true ∧ t.moveOf 7 = none ∧
    (pageOfBits (2 + 2 ^ 64 * (2 ^ 62 + 2 ^ 44))).1.st = 2 ∧ t.frameBase 0 ≠ noFrame ∧
    (t.page 6).st = 2 ∧ (t.page 6).stay = false ∧ (t.page 5).home ≠ 0 ∧ (t.page 5).buddy = false ∧
    (z.granDirty 6 31 = true ∧ t.granDirty 6 31 = false) ∧ Tbl.wf {} b.tier.pages = true ∧
    (b.page 5).buddy = true ∧ b.homeOk (2 ^ 62 + 2 ^ 44 * 9) = true ∧ addrDev (2 ^ 62 + 2 ^ 44 * 9) = 9 := by decide +kernel

/-- A page table and a path table of zeros. -/
theorem test_table_loads :
    let s := open1
    let l : Load := { src := 0, len := 2 ^ 25, check := 0 }
    s.fixedHbm (2 ^ 25) (2 ^ 25) = true ∧ s.fixedHbm (2 ^ 36) (2 ^ 25) = true ∧ 2 ^ 25 / 2 ^ 36 ≠ 2 ^ 36 / 2 ^ 36 ∧
    s.loadOk l = true ∧ s.framesOk (s.frameListAt { l with len := 0 }) = true ∧ s.tableOk 0 0 (s.tableEntries 0) = true ∧
    aligned (2 ^ 25) (2 ^ 21) = true ∧ s.hbm.bytes = [] ∧ s.partsIn 0 (2 ^ 25) 32 = [] := by decide +kernel

theorem test_halter_memory :
    let s : State := open1
    let a := 64 * 2 ^ 30 - 2
    s.step.enabled = false ∧ s.fab.combining = [] ∧ 1 ≤ 8192 - 16 ∧ s.inHbm 0 8 = true ∧ s.relaying 0 8 = false ∧ s.memHoldAt 0 8 true = none ∧
    s.fab.reqs = [] ∧ (∀ b, b < 8 → (s.chan (s.chanAt b)).failing = false ∧ (s.unitAt b).poison = false) ∧
    s.inHbm (1 / 4 * 4) (roundUp (1 + 5) 4 - 1 / 4 * 4) = true ∧ s.relaying 1 5 = false ∧ s.memHoldAt 1 5 false = none ∧ s.hbm.flips = [] ∧
    (let r := { s with hbm := { s.hbm with chans := [(0, { retrain := some 5 })] } }
     r.memHoldAt 0 8 true ≠ none ∧ r.memHoldAt 0 8 false ≠ none ∧ r.relaying 0 8 = false) ∧ s.inHbm a 8 = false ∧
    4096 ≤ min 4096 8192 ∧ (2 ^ 28 - 4096) + 4096 ≤ 2 ^ 28 ∧
    s.regBad 0xA1000 5 = false ∧ s.regBad (0xA1000 + 8 * 1023) (2 ^ 64 - 1) = false ∧ 0xA2FF8 = 0xA1000 + 8 * 1023 ∧
    0x27FF8 % 8 = 0 ∧ 0x27FF8 < 0x28000 := by decide +kernel

/-- A register, one of whose reserved bits is set. -/
theorem test_register_reserved : ∃ o : BitVec 28, ∃ v : BitVec 64, o.toNat % 8 = 0 ∧ State.reset.regBad o.toNat v.toNat = true :=
  ⟨0x80000, 0xFFFFFFFFFFFFFFFF, by decide +kernel⟩

theorem test_power_delivery :
    let s (p : Power) : State := { State.reset with pwr := p, boot := { State.reset.boot with rails := true }, time := { ns := 3600000000000 } }
    let r (x : PwrRegion) : Power := { regions := (List.replicate 16 {}).set 15 x }
    let c : PChange := { dest := 3, decided := 0, at_ := 5 }
    let o : State := s {}
    o.boot.rails = true ∧ bit o.pwr.force 2 = false ∧
    ({ o.boot with vinLossAt := some 0 } : Boot).vinLossAt = some 0 ∧ 0 + 5000 < o.now ∧
    (s { vinLowAt := some 0 }).pwr.vinLowAt = some 0 ∧ 0 + 10000 < o.now ∧ o.assisted 3 = false ∧ o.splitPending = false ∧
    ¬ (99 * o.pwr.peakEff * 10 * o.pwr.us.length < 100 * sumOf o.pwr.us ∨ 7400 < 7400) ∧ o.pwr.clearUs + 1 < 10 ∧
    10 ≤ (s { clearUs := 9 }).pwr.clearUs + 1 ∧
    (s { change := some c }).pwr.change = some c ∧ c.waiting = [] ∧ c.at_ ≤ o.now ∧ o.pwr.gp3.low = false ∧ o.pwr.vr.low = false ∧
    (s { vr := { low := true } }).pwr.vr.low = true ∧ (s { vr := { high := 0 } }).pwr.vr.high + 10000000 ≤ o.now ∧
    bit (s { force := 3 }).pwr.force 0 = true ∧ bit (s { force := 3 }).pwr.force 1 = true ∧
    (s { trayBudget := some 300 }).pwr.trayBudget = some 300 ∧ o.pwr.stale = false ∧
    o.pwr.trayAt + 1000000 * o.pwr.staleMs ≤ o.now ∧ o.pwr.regions.length = 16 ∧
    bit (Tbl.get 0 o.flash.phases 15) 23 = false ∧ (o.pr 15).off = [] ∧
    ((Tbl.get [] (o.pr 15).faults 23).filter fun t => decide (o.now - t ≤ 3600000000000)).length < 2 ∧
    Tbl.get 0 ((s (r { off := [(23, 1)] })).pr 15).off 23 = 1 ∧
    ((s (r { ramping := true })).pr 15).ramping = true ∧ ((s (r { ramping := true })).pr 15).rampAt + 33000 ≤ o.now ∧
    ((s (r { wanted := some 0 })).pr 15).wanted = some 0 ∧ 0 + 50000 ≤ o.now ∧ (s (r { on := true })).offDue 15 = true := by
  decide +kernel

theorem test_region_admits :
    let s : State := { State.reset with pwr := { regions := (List.replicate 16 {}).set 15 { wanted := some 0 } } }
    s.admits 15 = true ∧ ∀ j, j < 15 → s.admits j = false := by decide +kernel

theorem test_alert_owner :
    let s : State := { State.reset with hal := { State.reset.hal with res := (List.replicate 20 {}).set 3 { owner := 0x31 } } }
    s.pwr.gp3.low = false ∧ (nth s.hal.res 3 {}).owner = 0x31 := by decide

theorem test_droop_counts :
    let s : State := { State.reset with pwr := { dies := [{}, { stage := 1, counting := true }] } }
    s.pwr.regions.length = 16 ∧ s.pwr.dies.length = 2 ∧ (s.die 1).counting = true ∧ (s.die 1).stage = 1 ∧
    ({ s.die 1 with stage := 3 } : PwrDie).stage = 3 := by decide

theorem test_notices :
    let n : Notice := { tile := 191, tag := 63, due := 0, boost := 2500, boostAt := 0 }
    let s : State := { (tile0 id) with pwr := { regions := (List.replicate 16 {}).set 15 { notices := [n], boostEnd := some 0 } } }
    let i : Vi := ⟨0x50, word 0 0 0 0 0 0 (63 + 2 ^ 8 * 2000)⟩
    s.pwr.regions.length = 16 ∧ ran.mayIssue 0 = true ∧ (ran.tile 0).rowBusy = false ∧
    i.bad [0] { vd := false, imm := true } = false ∧ bits i.imm 7 6 = 0 ∧ bits i.imm 31 19 = 0 ∧ bits i.imm 18 8 ≤ 2000 ∧
    (ran.pr 0).notices.length < 4 ∧ ([n, n, n, n].length = 4 ∧ ∀ m ∈ [n, n, n, n], m.due ≤ ran.now + 4 * 2000) ∧
    s.dueNotice 15 = some n ∧ ((s.pr 15).notices.find? fun n => n.boost ≠ 0 && !n.boosting && n.boostAt ≤ s.now) = some n ∧
    s.pwr.change = none ∧ (s.pr 15).boostEnd = some 0 ∧ 0 ≤ s.now := by decide +kernel

theorem test_heat_and_coolant :
    let s (h : Heat) : State := { State.reset with heat := h, time := { ns := 1000000000 }, boot := { State.reset.boot with rails := true } }
    let b : List Byte := [0, 3, 0, 0, 0, 0, 0, 0, 0, 0, 0, 0, 0, 0, 0]
    let d : List Byte := b ++ [BitVec.ofNat 8 (crc8 b)]
    let w (t : Int) : List Site := ((List.replicate 214 {}).set 208 { ctrl := t, hotRun := 2 }).set 209 { ctrl := t }
    let o : State := s {}
    let f : State := { o with hal := { State.reset.hal with res := ((List.replicate 20 {}).set 0 { owner := 0x30 }).set 2 { owner := 0x30 } } }
    o.heat.sites.length = 214 ∧ accepts false false 0 400 = true ∧ accepts false true 0 81 = false ∧
    accepts false true 0 80 = true ∧ ((424 : Int) - 400).natAbs ≤ 24 ∧ 24 < ((425 : Int) - 400).natAbs ∧
    d.length = 16 ∧ crc8 (d.take 15) = field d 15 1 ∧ o.heat.lastSeq ≠ some (field d 1 1) ∧ o.boot.rails = true ∧
    f.flowPin 0 = true ∧ f.flowPin 2 = true ∧
    (s { stop := some 0, clearSince := some 0 }).heat.clearSince = some 0 ∧ 0 + 1000000000 ≤ o.now ∧
    2 ≤ (nth (s { sites := w 0 }).heat.sites 208 {}).hotRun ∧ o.boot.thermtrip = false ∧ o.boot.vaux = true ∧ o.hal.job ≠ 2 ∧
    (s { sites := w 179, flowReq := 401 }).heat.warm < 4 * (45 : Nat) ∧ o.heat.flowMinWarm < 401 ∧
    ((4 * (45 : Nat) : Int) ≤ (s { sites := w 200 }).heat.warm ∧ (s { sites := w 200 }).heat.warm ≤ 4 * (45 : Nat) + 20) ∧
    (let x := s { sites := w 201, flowReq := 401 }
     (4 * (45 : Nat) + 20 : Int) < x.heat.warm ∧ x.heat.warmAct = false ∧ x.heat.flowReq ≠ 0) ∧
    (let x := s { warmAct := true, warmNow := 6, sites := w 193 }
     x.heat.warmAct = true ∧ (4 * (45 : Nat) + 12 : Int) < x.heat.warm ∧ 5 < x.heat.warmNow) ∧
    (s { warmAct := true, warmNow := 5 }).heat.warmNow ≤ 5 := by decide +kernel

theorem test_halter_settings :
    let s := open1
    let cap : List Byte := toBytes 8 (600 + 2 ^ 16 * 300)
    let bud : List Byte := toBytes 8 1050
    let par (n v : Nat) : List Byte := toBytes 8 n ++ toBytes 8 v
    let tm : Team := { team := [0], leadDev := 0, trees := [(31, none, [1])] }
    let e : List Byte := toBytes 32 (65536 + 2 ^ 64 * 65536 + 2 ^ 160 * 9)
    let pp : List Byte := toBytes 8 (0x0803 + 2 ^ 16 * 17) ++ toBytes 24 9216
    (cap.length = 8 ∧ field cap 4 4 = 0 ∧ 600 ≤ field cap 0 2 ∧ 300 ≤ field cap 2 2) ∧
    (bud.length = 8 ∧ field bud 2 6 = 0) ∧
    ((par 2 10).length = 16 ∧ field (par 2 10) 2 6 = 0 ∧ field (par 2 10) 0 2 = 2 ∧ paramTable.any (fun p => p.1 == 2) = true ∧
      (s.accept (hdr 1)).paramOk 2 10 = true ∧ (s.accept (hdr 1)).paramOk 2 9 = false) ∧
    (∀ p ∈ s.ports, p.nbr = none) ∧ teamOk tm = true ∧ s.teamBytes tm ≤ 2 ^ 20 ∧
    regionOk e = true ∧ regionsApart (Tbl.set {} s.fab.regions 4095 (regionOf e)) = true ∧
    regionOk (List.replicate 32 0) = true ∧ regionOk (List.replicate 32 0xFF) = false ∧
    (pp.length = 32 ∧ field pp 2 1 = 17 ∧ field pp 3 5 = 0 ∧ ((pp.drop 8).drop (portUses (field pp 0 2))).all (· == 0) = true ∧
      ((s.port 17).cfg.set (field pp 0 2) (pp.drop 8)).isSome = true) ∧
    bit s.pwr.force 4 = false ∧ s.boot.bootSel ≠ 2 ∧ s.inHbm 0 131072 = true ∧ s.red.deciding = none ∧
    (let l : Red := { s.red with lead := true, deciding := some { commit := true, step := 1 } }
     l.deciding = some { commit := true, step := 1 } ∧ l.lead = true) := by decide +kernel

theorem test_halter_recovery :
    let s := open1
    let pay (k i : Nat) : List Byte := toBytes 8 (k + 2 ^ 32 * i)
    let q : List Byte := toBytes 40 0
    let c : PendCmd := { session := 1, seq := 1, code := 0x14, args := [2, 17] }
    let d : PendCmd := { session := 1, seq := 2, code := 0x206 }
    let g : PendCmd := { session := 1, seq := 3, code := 0x207, data := [1] }
    let z : State := { port17 with
      hal := { open1.hal with cmds := [c, d, g] }, time := { ns := 10000000000 }
      boot := { State.reset.boot with powerCycleAt := some 0, rails := true, signing := [(1, 2 ^ 32 + 2)] } }
    let f : State := { open1 with flash := { State.reset.flash with slotA := { staged := true }, bootSlot := 1 } }
    (∀ k ∈ [1, 2, 3, 4], (pay k 0).length = 8 ∧ field (pay k 0) 1 3 = 0 ∧ field (pay k 0) 0 1 = k ∧ field (pay k 0) 4 4 = 0) ∧
    (s.slotOf 191).isSome = true ∧ s.hal.job ≠ 2 ∧ s.boot.bootSel ≠ 2 ∧ bit s.pwr.force 4 = false ∧
    (s.chan 95).failing = false ∧ (s.chanRec 95).mappedOut = false ∧
    q.length = 40 ∧ field q 38 2 = 0 ∧ field q 32 4 = 0 ∧ s.boot.akReady = false ∧
    (toBytes 24 (2 ^ 64 * 2 ^ 25)).length = 24 ∧ field (toBytes 24 (2 ^ 64 * 2 ^ 25)) 8 4 ≤ 2 ^ 25 ∧
    (f.flash.image f.flash.staging).staged = true ∧
    (z.hal.cmds.find? fun c => c.session == 1 && c.seq == 1 && c.code == 0x14) = some c ∧ (z.port 17).link = 2 ∧
    ({ z with ports := List.replicate 18 { link := 3 } }.port 17).link = 3 ∧
    z.boot.powerCycleAt = some 0 ∧ 0 + 10000000000 ≤ z.now ∧ z.boot.akReady = false ∧ z.boot.rails = true ∧
    z.boot.signing = [(1, 2 ^ 32 + 2)] ∧
    (z.hal.cmds.find? fun c => c.code == 0x206 && c.session * 2 ^ 32 + c.seq == 2 ^ 32 + 2) = some d ∧
    (z.session 1).isSome = true ∧ z.pendingOf 0x207 = [g] ∧ z.imageCause g.data = 1 := by decide +kernel

/-- An image with an empty payload. -/
def image : List Byte := toBytes 4 1 ++ toBytes 4 7 ++ toBytes 8 1 ++ toBytes 8 0 ++ sha256 [] ++ List.replicate 16296 0

/-- Where the vendor's key hash is that of the image's key, and its signature verifies, the image passes. -/
theorem test_image_passes (s : State) (h : sha256 (slice (slice image 0 128) 56 48) = Config.vendorKeyHash) (f : s.flash.svnFloor = 7)
    (v : Config.slhVerify (slice (slice image 0 128) 56 48) (slice image 0 128) (slice image 128 16224) = true) :
    s.imageCause image = 0 := by
  have a : image.length = 16352 := by decide +kernel
  have b : field (slice image 0 128) 0 4 = 1 ∧ field (slice image 0 128) 20 4 = 0 ∧ field (slice image 0 128) 104 24 = 0 ∧
    field (slice image 0 128) 4 4 = 7 ∧
    sha256 ((image.drop 16352).take (field (slice image 0 128) 16 4)) = slice (slice image 0 128) 24 32 := by decide +kernel
  simp [State.imageCause, h, f, v, a, b.1, b.2.1, b.2.2.1, b.2.2.2.1, b.2.2.2.2]

theorem test_start_sequence :
    let s (b : Boot) : State := { State.reset with boot := b, time := { ns := 30000000000 }, flash := { State.reset.flash with trial := some (1, true) } }
    let o := State.reset
    (s { vaux := false }).boot.vaux = false ∧ (s { rstN := true }).boot.stage = .waitSel ∧ (s { rstN := true }).boot.cold = true ∧
    (s { rstN := true }).boot.rstN = true ∧ 400000 ≤ (s {}).now ∧ (s {}).boot.rstN = false ∧
    (s { stage := .checked, rstN := true }).boot.stage = .checked ∧ o.boot.thermtrip = false ∧ o.boot.vaux = true ∧
    (s { rails := true }).boot.rails = true ∧ o.boot.rails = false ∧
    (s { stage := .reading 1 true }).boot.stage = .reading 1 true ∧ o.imageCause (o.flash.image 1).bytes ≠ 0 ∧
    (s { stage := .ramped, slot := 1 }).boot.stage = .ramped ∧ (s { stage := .trained, slot := 1 }).boot.stage = .trained ∧
    (s { stage := .trained }).hbm.chans = [] ∧
    (let c : Chan := { retiring := [7] }; ∃ e ∈ ({ o.hbm with chans := [(0, c)] } : Hbm).chans, e.2.retiring ≠ []) ∧
    (s { slot := 1 }).flash.trial = some ((s { slot := 1 }).boot.slot, true) ∧
    (s {}).now ≤ (s {}).boot.rampAt + 30000000000 ∧ (s {}).boot.rampAt + 30000000000 ≤ (s {}).now := by decide +kernel

/-- A record of the log. -/
def rcd (cls : Nat) (code : Nat := 0x800) : ErrRec :=
  { first := 0, last := 0, cls := cls, unit := 0, code := code, inst := 0, step := 1, attempt := 0 }

theorem test_logs_and_observers :
    let pay : List Byte := toBytes 8 5
    let arm : List Byte := [1, 4, 0, 0, 0, 0, 0, 1] ++ toBytes 8 0 ++ toBytes 4 256 ++ toBytes 12 0 ++ toBytes 4 0
    let l : List Nat × List (List Nat) := ([1, 1, 0, 0, 0], [])
    let c : PendCmd := { session := 1, seq := 1, code := 0x205 }
    let o (x : Observe) : State := { open1 with
      obs := x, time := { ns := 10000000 }, hal := { open1.hal with cmds := [c], timers := [(7, 1)] } }
    let t : State := { o {} with err := { State.reset.err with trace := [rcd 0] } }
    t.err.trace = [rcd 0] ∧ t.err.traceAt + 5200 ≤ t.now ∧ seqPay pay = some 5 ∧
    (∀ r ∈ armRes arm, (open1.accept (hdr 2)).meets 0x10 0 r = 0) ∧ field arm 0 1 = 1 ∧
    ((toBytes 32 2).length = 32 ∧ field (toBytes 32 2) 0 1 = 2 ∧ ((toBytes 32 2).drop 1).all (· == 0) = true) ∧
    (toBytes 8 0).length = 8 ∧ field (toBytes 8 0) 6 2 = 0 ∧ field pay 0 4 ≠ 0 ∧
    ((o { loupe := [l] }).obs.loupe.find? fun x => nth x.1 0 0 == 1 && nth x.1 1 0 == 1) = some l ∧
    nth l.1 2 0 + 1000000 * (o {}).obs.gapMs ≤ (o {}).now ∧
    ((o {}).hal.cmds.find? fun c => c.session == 1 && c.seq == 1) = some c ∧ ((o {}).session 1).isSome = true ∧
    (o {}).hal.cores.length = 5 ∧ bit (o {}).flash.cores 3 = true ∧
    (o { timer := some 15 }).obs.timer = some 15 ∧ Tbl.get 0 (o {}).hal.timers 7 = 1 ∧ 1 ≤ (o {}).now + 1 ∧
    (let p := o { pin := some 7, edge := 3, triggers := 2, pst := 1, lastSample := some 9999999 }
     p.obs.pin.isSome = true ∧ bit p.obs.edge 0 = true ∧ bit p.obs.edge 1 = true ∧ bit p.obs.triggers 1 = true ∧ p.obs.pst = 1 ∧
     9999999 < p.now ∧ p.now < 9999999 + 2000 ∧ p.fab.combining = [] ∧ p.step.enabled = false) ∧
    bit (o {}).obs.triggers 1 = false ∧ (o { pst := 2 }).obs.pst = 2 ∧ (o {}).obs.lastSample = none := by decide +kernel

theorem test_periscope_armed : ∃ p : List Byte, field p 0 1 = 1 ∧ open1.armOk p = true :=
  ⟨[1, 4, 0, 0, 0, 0, 0, 1] ++ toBytes 8 0 ++ toBytes 4 256 ++ toBytes 12 0 ++ toBytes 4 0, by decide +kernel⟩

theorem test_event_queue :
    let e (r : Bool) : QEvent := { num := 1, ev := { code := 3 }, sentAt := 0, reserved := r }
    let x (g r : Nat) : Session := { num := 1, control := true, events := List.replicate g (e false) ++ List.replicate r (e true) }
    evClass 0x80 ≤ 1 ∧ (∃ c, c < 0x40 ∧ 1 < evClass c) ∧ (x 959 63).used false < 960 ∧ (x 960 63).used false = 960 ∧
    (x 960 63).used true < 64 ∧ (x 960 64).used true = 64 := by decide +kernel

theorem test_reports_merge :
    let e : ErrLog := { queue := [rcd 0], ring := rcd 1 :: List.replicate 256 (rcd 2) }
    let takes (r a : ErrRec) : Prop :=
      a.unit = r.unit ∧ a.inst = r.inst ∧ a.code = r.code ∧ a.cls = r.cls ∧ a.delivered = false
    (rcd 0 ∈ e.queue ∧ takes (rcd 0) (rcd 0)) ∧ ((∀ a ∈ e.queue, ¬ takes (rcd 2) a) ∧ ∃ a ∈ e.ring.drop 1, takes (rcd 2) a) ∧
    e.ring.length - 256 = 1 ∧ ((∀ a ∈ e.queue, ¬ takes (rcd 1) a) ∧ ∀ a ∈ e.ring.drop 1, ¬ takes (rcd 1) a) := by
  decide +kernel

theorem test_log_ring :
    let e (q : ErrRec) (l : List ErrRec) : ErrLog := { queue := [q], ring := l, movedAt := some 0 }
    let del : ErrRec := { rcd 1 with delivered := true }
    (∀ a, (e (rcd 1) []).movedAt = some a → a + 100 ≤ 100) ∧
    4095 < 4096 ∧ 4096 ≤ (e (rcd 5) (List.replicate 4095 (rcd 5) ++ [del])).ring.length ∧
    (List.replicate 4095 (rcd 5) ++ [del]).findIdx? (·.delivered) = some 4095 ∧
    (List.replicate 4095 (rcd 5) ++ [rcd 1]).findIdx? (·.delivered) = none ∧
    (List.replicate 4095 (rcd 5) ++ [rcd 1]).findIdx? (fun a => a.cls ≠ 5) = some 4095 ∧ (rcd 5).cls = 5 ∧ (rcd 1).cls ≠ 5 := by
  refine ⟨fun a h => ?_, by decide +kernel⟩
  cases h
  decide

/-- The machine's statements: a command at the front of a queue, a queue that is empty, and a step from a state with the shape
that is not the one after reset. -/
theorem test_step : ({ State.reset with pending := [.vfence 0 0] }).pending = .vfence 0 0 :: [] ∧ State.reset.pending = [] ∧
    vectorOps.contains 0x34 = true ∧ vectorOps.contains 0x14 = false ∧ (∃ t, step { open1 2 with pending := [.hbmRefresh 95 []] } = .next t) :=
  ⟨rfl, rfl, by decide, by decide, ⟨open1 2, rfl⟩⟩

theorem test_shape : ({ open1 2 with pending := [.hbmRefresh 95 []] }).Shape := by constructor <;> decide +kernel

/-! ### Ill-formed commands are refused -/

def goodPkt : Pkt := { op := 1, src := 9, dst := 1 }

/-- Commands whose operands all fit, at the ends of their ranges. -/
theorem test_wf_good :
    (∀ i ∈ [Instr.tlRead { goodPkt with src := 2 ^ 18 - 1, path := 63, port := 17, wseq := 2 ^ 32 - 1 } false [],
      .commit { goodPkt with src := 2 ^ 18 - 1 } (2 ^ 64 - 1), .nop { session := 2 ^ 32 - 1, seq := 2 ^ 32 - 1, mailbox := 255, port := 1 },
      .creditReturn 31 true, .reduce { goodPkt with data := List.replicate 168 0 } false false,
      .repeatOrder goodPkt 0 255 0 [{ tag := 2 ^ 20 - 1, block := none, code := 254 }], .laneSerWindow 0 0 5 5 0,
      .scrubRead 0 [{ unit := 0, flips := [(71, 255)] }], .mm 0 0,
      .powerSample 0 0 (List.replicate 16 (0, 0)), .modeSet (hdr 0) 255 true], i.wf = true) := by decide +kernel

/-- A packet, one of whose fields does not fit its place. -/
theorem test_wf_packets :
    ∀ p ∈ [{ goodPkt with kind := 256 }, { goodPkt with op := 256 }, { goodPkt with status := 256 }, { goodPkt with src := 2 ^ 18 },
      { goodPkt with path := 64 }, { goodPkt with srcEpoch := 256 }, { goodPkt with dst := 2 ^ 18 }, { goodPkt with dstEpoch := 256 },
      { goodPkt with wseq := 2 ^ 32 }, { goodPkt with rseq := 2 ^ 32 }, { goodPkt with reqId := 65536 },
      { goodPkt with key := 2 ^ 32 }, { goodPkt with step := 65536 }, { goodPkt with attempt := 256 },
      { goodPkt with flags := 256 }, { goodPkt with addr := 2 ^ 64 }, { goodPkt with aux := 2 ^ 32 },
      { goodPkt with aux2 := 2 ^ 32 }, { goodPkt with token := 65536 }, { goodPkt with port := 18 },
      { goodPkt with version := 256 }, { goodPkt with dstRsv := 64 }, { goodPkt with len := some 65536 }, { goodPkt with entropy := 16 }],
    ∀ i ∈ [Instr.tlRead p false [], .tlWrite p false [], .tlAdd p false, .tlMin p false, .tlMax p false, .tlCas p false,
      .tlInval p, .tlResponse p, .reduce p false false, .reduceEnd p 0 0 0 0, .reduceResult p 0, .commit p 0, .heartbeat p,
      .repeatOrder p 0 0 0 [], .ledgerBeat p 0 0, .resultBad p 0 0 0], i.wf = false := by decide +kernel

/-- Error patterns, columns, patches, decisions and messages that are none. -/
theorem test_wf_parts :
    let k : AddErr := { block := 0 }
    (∀ i ∈ [Instr.scrubRead 0 [{ unit := 0, flips := [(72, 1)] }], .scrubRead 0 [{ unit := 0, flips2 := [(0, 256)] }],
      .scrubRead 0 [{ unit := 0, wrong := some (6 * 2 ^ 36) }], .arrayCmdStart 0 [{ band := 0, row := 0, run := 0, col := 0, chunk := 0, dev := 0 }] 0 .clean,
      .repeatOrder goodPkt 0 0 0 [{ tag := 2 ^ 20, block := none, code := 0 }],
      .repeatOrder goodPkt 0 0 0 [{ tag := 0, block := some (2 ^ 32), code := 0 }],
      .repeatOrder goodPkt 0 0 0 [{ tag := 0, block := none, code := 255 }], .repeatOrder goodPkt 0 256 0 [],
      .repeatOrder goodPkt 0 0 256 [], .drainUnitStart 0 none 0 .clean [{ k with block := 2 ^ 32 }],
      .standbyDecision goodPkt { commit := true, step := 2 ^ 64 }, .standbyDecision goodPkt { commit := true, step := 0, attempt := 256 },
      .standbyDecision goodPkt { commit := true, step := 0, cause := 256 }, .commit goodPkt (2 ^ 64),
      .ledgerReport goodPkt 0 0 (.complete (2 ^ 19)), .ledgerReport goodPkt 0 0 (.confirmed (2 ^ 20)), .ledgerReport goodPkt 0 0 (.checked (2 ^ 20)),
      .ledgerReport goodPkt 0 0 (.overflow 0 (2 ^ 32) 0), .ledgerReport goodPkt 0 0 (.nan (2 ^ 20) 0)], i.wf = false) ∧
    (∀ i ∈ [Instr.reduceEnd goodPkt (2 ^ 64) 0 0 0, .reduceEnd goodPkt 0 (2 ^ 32) 0 0, .reduceEnd goodPkt 0 0 0 256,
      .reduceResult goodPkt 256, .creditReturn 32 false, .resultBad goodPkt (2 ^ 64) 0 0, .ledgerBeat goodPkt (2 ^ 18 + 1) 0,
      .ledgerRepeatRequest goodPkt 0 256 0, .standbyAck goodPkt { commit := true, step := 2 ^ 64 }, .buddyPoison (2 ^ 18) 0,
      .leadAnnounce goodPkt (2 ^ 18), .halterMessageDiscard 2 0, .hbmRefresh 0 [{ unit := 0, flips := [(72, 1)] }]], i.wf = false) := by
  decide +kernel

/-- Headers, loads, teams and payload fields that do not fit. -/
theorem test_wf_halter :
    (∀ h ∈ [{ hdr 0 with session := 2 ^ 32 }, { hdr 0 with seq := 2 ^ 32 }, { hdr 0 with mailbox := 256 },
      { hdr 0 with decision := 2 ^ 32 }, { hdr 0 with port := 2 }],
     ∀ i ∈ [Instr.nop h, .sessionClose h, .jobStart h, .info h, .eventAck h, .quote h [], .portSet h [], .resQuery h], i.wf = false) ∧
    (∀ i ∈ [Instr.hello 2 0 0 0 [], .hello 0 0 (2 ^ 64) 0 [], .confirm 0 0 0 256 [], .exchangeTimeout (2 ^ 64),
      .eventRetransmit (2 ^ 32) 0, .sessionIdle (2 ^ 32), .modeSet (hdr 0) 256 true, .routeSet (hdr 0) (2 ^ 32) 0, .routeSet (hdr 0) 0 256,
      .resRelease (hdr 0) 256, .timerSet (hdr 0) 256 0, .timerSet (hdr 0) 0 (2 ^ 64), .funcReinitDone (2 ^ 32) 0 [],
      .memRead (hdr 1) (2 ^ 64) 0 [], .memWrite (hdr 1) (2 ^ 64) [], .ctlRead (hdr 1) 0 (2 ^ 32),
      .programLoad (hdr 1) { src := 0, len := 0, check := 0 } [] 256, .programLoad (hdr 1) { src := 2 ^ 64, len := 0, check := 0 } [] 1,
      .tandemSet (hdr 1) [] 0 0 (2 ^ 32), .tagTableLoad (hdr 1) { src := 0, len := 2 ^ 64, check := 0 },
      .tierFlush (hdr 1) (2 ^ 32) 0, .tierBuddy (hdr 1) (2 ^ 32) []], i.wf = false) ∧
    (∀ i ∈ [Instr.pageTableLoad (hdr 1) { src := 0, len := 0, check := 2 ^ 64 } { src := 0, len := 0, check := 0 } 0 0 0 0,
      .snapshotShip (hdr 1) 0 0 0 (2 ^ 32) 0, .loupePass2 (2 ^ 32) 0, .devNumberSet (hdr 3) [] (2 ^ 32),
      .teamLoad (hdr 3) { src := 0, len := 0, check := 0 } { team := [2 ^ 18], leadDev := 0, trees := [] }, .standbySet (hdr 3) (2 ^ 32),
      .regionTableLoad (hdr 3) [] { src := 0, len := 2 ^ 64, check := 0 }, .regionSet (hdr 3) (2 ^ 32) [],
      .pathTableLoad (hdr 3) [] { src := 0, len := 0, check := 0 } (2 ^ 64), .groupLoad (hdr 3) [] 0 (2 ^ 32) 0 [],
      .portReset (hdr 3) 256], i.wf = false) := by decide +kernel

/-- Frames, times and samples that do not fit. -/
theorem test_wf_frames :
    let f : Frame := { len := 64, dst := List.replicate 6 0, src := List.replicate 6 0 }
    f.wf = true ∧
    (∀ g ∈ [{ f with dst := [] }, { f with src := List.replicate 7 0 }, { f with tag := some (8, 0) }, { f with tag := some (0, 4096) },
      { f with ip := some { v6 := true, src := List.replicate 4 0, dst := List.replicate 16 0 } }],
     ∀ i ∈ [Instr.frameDiscard 0 g, .arpRequest 0 g [0, 0, 0, 0] [0, 0, 0, 0], .icmpEchoRequest 0 g [],
      .neighborSolicitation 0 g (List.replicate 16 0)], i.wf = false) ∧
    (∀ i ∈ [Instr.arpRequest 0 f [] [0, 0, 0, 0], .arpRequest 0 f [0, 0, 0, 0] [], .neighborSolicitation 0 f [],
      .laneSerWindow 0 0 6 5 0, .ptpEventMessage 0 (.sync 65536 0 false) 0 0 none 0, .ptpEventMessage 0 (.delayReq 0) 256 0 none 0,
      .ppsInEdge (2 ^ 32), .vrAlertRise false 65536, .powerSample 0 0 []], i.wf = false) := by decide +kernel

/-! ### Results worked out from the spec -/

/-- R282: 1.0 + 1.0 is 2.0, lane by lane; R74: a NaN sum is the canonical NaN, 0x7FC00000. -/
theorem test_vadd :
    let s := ran fun x => { x with vreg := (List.range 64).map fun k => (64 + k, if k = 63 then 0x7F800001 else 0x3F800000) }
    (match exec (.vadd 0 (word 2 1 1 0 0 0 0)) s with
     | .next t => (Tbl.get 0 (t.tile 0).vreg 128, Tbl.get 0 (t.tile 0).vreg 191, (t.tile 0).seq)
     | _ => (0, 0, .stopped)) = (0x40000000, 0x7FC00000, .run) := by decide +kernel

/-- R282: an integer add wraps at 32 bits; its destination may be its source. -/
theorem test_viadd :
    let s := ran fun x => { x with vreg := [(0, 0xFFFFFFFF), (1, 5)] }
    (match exec (.viadd 0 (word 0 0 0 0 2 0 0)) s with
     | .next t => (Tbl.get 0 (t.tile 0).vreg 0, Tbl.get 0 (t.tile 0).vreg 1)
     | _ => (0, 0)) = (0xFFFFFFFE, 10) := by decide +kernel

/-- R318: a TYPE that the row does not allow faults with CMD_INVALID and writes nothing. -/
theorem test_bad_type :
    (match exec (.viadd 0 (word 0 0 0 0 0 0 0)) ran with | .next t => (t.tile 0).seq | _ => .stopped) = .fault 0x101 := by decide +kernel

/-- The check value of SHA-256 of "abc" (FIPS 180-4), which R782 and R788 rest on. -/
theorem test_sha256_abc : fromBytesBE (sha256 (ascii "abc")) =
    0xBA7816BF8F01CFEA414140DE5DAE2223B00361A396177A9CB410FF61F20015AD := by decide +kernel

/-- R674: the byte that closes a tray message is a CRC-8; that of "123456789" with the polynomial 0x07 is 0xF4. -/
theorem test_crc8 : crc8 (ascii "123456789") = 0xF4 := by decide +kernel

/-- R467: a device without a number answers no request. -/
theorem test_no_number : let s := { State.reset with ports := List.replicate 18 {} }
    exec (.tlWrite (wr 1) false []) s = .next (s.packetIn (wr 1)) := by
  intro s
  have h : s.Arrives (wr 1) := arrives_of (by decide)
  have hn : (s.packetIn (wr 1)).fab.numbered = false := rfl
  show tlRow 2 (wr 1) false [] s = _
  unfold tlRow
  extract_lets p
  have hp : p = wr 1 := rfl
  clear_value p
  rw [rxPacket_eq, hp, h.room, if_neg Bool.false_ne_true, hn]
  exact if_pos rfl

/-- R488: the write of `test_remote_write` lands, is acknowledged, and NEXT becomes 2. -/
theorem test_write_lands :
    (match exec (.tlWrite (wr 1) false []) home1 with
     | .next t => (Tbl.getList 0 t.hbm.bytes 63 6, (t.sender 9).next)
     | _ => ([], 0)) = ([0, 1, 2, 3, 4, 0], 2) := by decide +kernel

/-- R652: a region is ON 33 us after its admission; R259, R260: it draws a seed for each of its 13 slots. -/
theorem test_power_on :
    let s : State := { State.reset with pwr := { regions := (List.replicate 16 {}).set 15 { ramping := true } } }
    (match exec (.regionPowerOnDone 15) s with | .next t => (t.pr 15).on | _ => true) = false ∧
    (match exec (.regionPowerOnDone 15) { s with time := { ns := 33000 } } with
     | .next t => ((t.pr 15).on, t.seeds) | _ => (false, 0)) = (true, 13) := by decide +kernel

end Sys2Proof.Tests
end

section
/-! The NaN and signed-zero rules of VMAX, VMIN and the comparisons (R283, R284): first of single lanes, then of the rows,
which `lanes3_spec` reduces to their lanes. -/

namespace Sys2Proof.Machine

/-! ### Lanes -/

@[simp] theorem laneFit_zero (ty : Nat) : laneFit ty 0 = 0 := by simp [laneFit]
@[simp] theorem laneFit_laneNan (ty : Nat) : laneFit ty (laneNan ty) = laneNan ty := by
  unfold laneFit laneNan; split <;> rfl
@[simp] theorem laneFit_laneOnes (ty : Nat) : laneFit ty (laneOnes ty) = laneOnes ty := by
  unfold laneFit laneOnes; split <;> rfl

/-- The lane of a negative zero. -/
def laneNegZero (ty : Nat) : Nat := if ty = 1 then 0x8000 else 0x80000000
@[simp] theorem laneFit_laneNegZero (ty : Nat) : laneFit ty (laneNegZero ty) = laneNegZero ty := by
  unfold laneFit laneNegZero; split <;> rfl

/-- The exponent of a lane's zeros, that of its subnormals. -/
def laneZeroExp (ty : Nat) : Int := if ty = 1 then -133 else -149
@[simp] theorem laneNum_zero (ty : Nat) : laneNum ty 0 = .fin false 0 (laneZeroExp ty) := by
  unfold laneNum laneZeroExp; split <;> rfl
@[simp] theorem laneNum_laneNegZero (ty : Nat) : laneNum ty (laneNegZero ty) = .fin true 0 (laneZeroExp ty) := by
  unfold laneNum laneNegZero laneZeroExp; split <;> rfl

/-! ### Order and choice -/

@[simp] theorem Num.lt_self (a : Num) : a.lt a = false := by
  cases a with
  | nan => rfl
  | inf n => cases n <;> rfl
  | fin n m e => simp [Num.lt]
theorem Num.lt_zeros (m n : Bool) (e f : Int) : (Num.fin m 0 e).lt (.fin n 0 f) = false := by
  simp [Num.lt, Num.scaled]

theorem numMax_of_isNan {a b : Num} (h : a.isNan = true ∨ b.isNan = true) (ca cb nan : Nat) : numMax a b ca cb nan = nan :=
  if_pos (by simpa using h)
theorem numMin_of_isNan {a b : Num} (h : a.isNan = true ∨ b.isNan = true) (ca cb nan : Nat) : numMin a b ca cb nan = nan :=
  if_pos (by simpa using h)

/-- Between two zeros the sign of the first decides. -/
theorem numMax_zeros (m n : Bool) (e f : Int) (ca cb nan : Nat) :
    numMax (.fin m 0 e) (.fin n 0 f) ca cb nan = if m then cb else ca := by
  cases m <;> simp [numMax, Num.isNan, Num.lt_zeros, Num.sign]
theorem numMin_zeros (m n : Bool) (e f : Int) (ca cb nan : Nat) :
    numMin (.fin m 0 e) (.fin n 0 f) ca cb nan = if m then ca else cb := by
  cases m <;> simp [numMin, Num.isNan, Num.lt_zeros, Num.sign]

/-- What R283 says of a lane `v` that VMAX or VMIN makes of `a` and `b`: the canonical NaN where either is NaN, and `choice`
where they are zeros of unlike signs. -/
def ChoiceLane (ty choice a b v : Nat) : Prop :=
  ((laneNum ty a).isNan = true ∨ (laneNum ty b).isNan = true → v = laneNan ty) ∧
  ((a = 0 ∧ b = laneNegZero ty) ∨ (a = laneNegZero ty ∧ b = 0) → v = choice)

theorem choiceLane_numMax (ty a b : Nat) :
    ChoiceLane ty 0 a b (laneFit ty (numMax (laneNum ty a) (laneNum ty b) a b (laneNan ty))) := by
  constructor
  · intro hn
    rw [numMax_of_isNan hn, laneFit_laneNan]
  · rintro (⟨rfl, rfl⟩ | ⟨rfl, rfl⟩) <;> simp [numMax_zeros]

theorem choiceLane_numMin (ty a b : Nat) :
    ChoiceLane ty (laneNegZero ty) a b (laneFit ty (numMin (laneNum ty a) (laneNum ty b) a b (laneNan ty))) := by
  constructor
  · intro hn
    rw [numMin_of_isNan hn, laneFit_laneNan]
  · rintro (⟨rfl, rfl⟩ | ⟨rfl, rfl⟩) <;> simp [numMin_zeros]

/-! ### Comparisons -/

section
variable (f : Num → Num → Bool) (g : Int → Int → Bool) (ty a b : Nat)

theorem cmpLane_zero_or_ones : cmpLane f g ty a b = 0 ∨ cmpLane f g ty a b = laneOnes ty := by
  unfold cmpLane
  generalize (if ty = 2 then _ else _ : Bool) = holds
  cases holds
  · exact .inl rfl
  · exact .inr rfl

theorem cmpLane_of_isNan {ty a b : Nat} (ht : ty ≠ 2) (hn : (laneNum ty a).isNan = true ∨ (laneNum ty b).isNan = true) :
    cmpLane f g ty a b = 0 := by
  unfold cmpLane
  rw [if_neg ht]
  rcases hn with hn | hn <;> simp [hn]

/-- A comparison that holds of equal values holds of a lane and itself, but where the lane is NaN. -/
theorem cmpLane_self {f : Num → Num → Bool} {g : Int → Int → Bool} (hf : ∀ x, f x x = true) (hg : ∀ x, g x x = true)
    {ty a : Nat} (hn : ty = 2 ∨ (laneNum ty a).isNan = false) : cmpLane f g ty a a = laneOnes ty := by
  unfold cmpLane
  by_cases ht : ty = 2
  · rw [if_pos ht, hg, if_pos rfl]
  · simp [ht, hn.resolve_left ht, hf]

end

/-- What R284 says of a lane `v` that a comparison makes of `a` and `b`; `refl` where equal lanes compare true. -/
def CompareLane (ty : Nat) (refl : Prop) (a b v : Nat) : Prop :=
  (v = 0 ∨ v = laneOnes ty) ∧
  (ty ≠ 2 → (laneNum ty a).isNan = true ∨ (laneNum ty b).isNan = true → v = 0) ∧
  (refl → a = b → ty = 2 ∨ (laneNum ty a).isNan = false → v = laneOnes ty)

theorem laneFit_cmpLane (f : Num → Num → Bool) (g : Int → Int → Bool) (ty a b : Nat) :
    laneFit ty (cmpLane f g ty a b) = cmpLane f g ty a b := by
  rcases cmpLane_zero_or_ones f g ty a b with h | h <;> rw [h]
  · exact laneFit_zero ty
  · exact laneFit_laneOnes ty

theorem compareLane_cmpLane {f : Num → Num → Bool} {g : Int → Int → Bool} {refl : Prop} (hf : refl → ∀ x, f x x = true)
    (hg : refl → ∀ x, g x x = true) (ty a b : Nat) : CompareLane ty refl a b (laneFit ty (cmpLane f g ty a b)) := by
  rw [laneFit_cmpLane]
  refine ⟨cmpLane_zero_or_ones f g ty a b, fun ht hn => cmpLane_of_isNan f g ht hn, ?_⟩
  rintro hr rfl hn
  exact cmpLane_self (hf hr) (hg hr) hn

/-! ### Rows -/

section
variable {c : Instr} {k : TileIx} {i : Vi} {s : State}

/-- A row of lane operations does to each lane of VD what its function is known to do (R273, R276). -/
theorem does_lanes {bad : Bool} {flop : Nat} {f : Nat → Nat → Nat → Nat} {p : Nat → Nat → Nat → Prop}
    (hc : exec c s = vecRow k.val i s bad fun s => s.lanes3 k.val i flop f) (hi : s.mayIssue k.val = true)
    (hr : (s.tile k.val).rowBusy = false) (hb : bad = false) (hp : ∀ a b d, p a b (laneFit i.ty (f a b d))) :
    Does c s fun t => ∀ l, l < lanesOfTy i.ty →
      p ((s.tile k.val).lane i.ty i.va l) (i.laneB (s.tile k.val) l) ((t.tile k.val).lane i.ty i.vd l) := by
  refine does_vec hc hi hr hb fun l hl => ?_
  obtain ⟨-, -, hlane⟩ := lanes3_spec s k.val i flop f
  rw [hlane l hl]
  exact hp ..

variable (hi : s.mayIssue k.val = true) (hr : (s.tile k.val).rowBusy = false)
include hi hr

/-- A row of two operands by the rule of its lanes. -/
theorem does_vec2 {f : Nat → Nat → Nat → Nat} {p : Nat → Nat → Nat → Prop} (hc : exec c s = vec2 k i s f)
    (hb : i.bad tyF { va := true, b := true } = false) (hp : ∀ a b, p a b (laneFit i.ty (f i.ty a b))) :
    Does c s fun t => ∀ l, l < lanesOfTy i.ty →
      p ((s.tile k.val).lane i.ty i.va l) (i.laneB (s.tile k.val) l) ((t.tile k.val).lane i.ty i.vd l) :=
  does_lanes hc hi hr hb fun a b _ => hp a b

/-- A comparison row by R284; `refl` where the comparison holds of equal values. -/
theorem does_vecCmp {f : Num → Num → Bool} {g : Int → Int → Bool} {refl : Prop} (hc : exec c s = vecCmp k i s f g)
    (hb : i.bad tyFI { va := true, b := true } = false) (hf : refl → ∀ x, f x x = true) (hg : refl → ∀ x, g x x = true) :
    Does c s fun t => ∀ l, l < lanesOfTy i.ty → CompareLane i.ty refl
      ((s.tile k.val).lane i.ty i.va l) (i.laneB (s.tile k.val) l) ((t.tile k.val).lane i.ty i.vd l) :=
  does_lanes (f := fun a b _ => cmpLane f g i.ty a b) hc hi hr hb fun a b _ => compareLane_cmpLane hf hg i.ty a b

end

/-- Settles O9: the rows are lane operations (`lanes3_spec`), and their lanes obey R283 (`choiceLane_numMax`,
`choiceLane_numMin`) and R284 (`compareLane_cmpLane`). -/
theorem vectorNanRules : Obligations.VectorNanRules := by
  unfold Obligations.VectorNanRules
  intro k w s hi hr x
  constructor
  · intro r hrow i minus hb
    simp only [List.mem_cons, List.not_mem_nil, or_false] at hrow
    rcases hrow with rfl | rfl
    · exact does_vec2 (p := ChoiceLane i.ty 0) hi hr (exec_vmax ..) hb (choiceLane_numMax i.ty)
    · exact does_vec2 (p := ChoiceLane i.ty (laneNegZero i.ty)) hi hr (exec_vmin ..) hb (choiceLane_numMin i.ty)
  · intro r hrow i ones hb
    simp only [List.mem_cons, List.not_mem_nil, or_false] at hrow
    rcases hrow with rfl | rfl | rfl
    · exact does_vecCmp hi hr (exec_vcmpgt ..) hb (fun h => absurd h (by decide)) fun h => absurd h (by decide)
    · exact does_vecCmp hi hr (exec_vcmpge ..) hb (by simp) (by simp)
    · exact does_vecCmp hi hr (exec_vcmpeq ..) hb (by simp) (by simp)

end Sys2Proof.Machine
end

section
/-! The event queue of a session (R600): entries of either kind as counts, what each outcome of `Session.queue` is, and the
bounds that it keeps. -/

namespace Sys2Proof.Machine

section
variable (x : Session) (ev : Event) (now : Nat)

/-- An entry is general or reserved. -/
theorem Session.used_add_used : x.used false + x.used true = x.events.length := by
  simpa [Session.used] using (x.events.length_eq_length_filter_add (·.reserved == false)).symm

/-! ### An event put into the queue -/

@[simp] theorem Session.push_events (resv : Bool) : (x.push ev now resv).1.events =
    x.events ++ [{ num := x.nextEvent, ev := ev, sentAt := now, reserved := resv }] := rfl

@[simp] theorem Session.push_used_same (resv : Bool) : (x.push ev now resv).1.used resv = x.used resv + 1 := by
  simp [Session.used, List.filter_append]

@[simp] theorem Session.push_false_used_true : (x.push ev now false).1.used true = x.used true := by
  simp [Session.used, List.filter_append]

@[simp] theorem Session.push_true_used_false : (x.push ev now true).1.used false = x.used false := by
  simp [Session.used, List.filter_append]

/-! ### The outcomes of queueing -/

variable {x ev}

/-- Whatever its class, an event takes a general entry while one is free (log 10). -/
theorem Session.queue_general (hg : x.used false < 960) : (x.queue ev now).1 = (x.push ev now false).1 := by
  simp [Session.queue, hg]

theorem Session.queue_reserved (hc : evClass ev.code ≤ 1) (hg : 960 ≤ x.used false) (hr : x.used true < 64) :
    (x.queue ev now).1 = (x.push ev now true).1 := by
  simp [Session.queue, hc, hg.not_gt, hr]

theorem Session.queue_waits (hc : evClass ev.code ≤ 1) (hg : 960 ≤ x.used false) (hr : 64 ≤ x.used true) :
    (x.queue ev now).1 = { x with waiting := x.waiting ++ [ev] } := by
  simp [Session.queue, hc, hg.not_gt, hr.not_gt]

theorem Session.queue_lost (hc : 1 < evClass ev.code) (hg : 960 ≤ x.used false) :
    (x.queue ev now).1 = { x with lost := x.lost + 1 } := by
  simp [Session.queue, hc.not_ge, hg.not_gt]

variable (x ev)

/-- All that queueing an event can do to the entries: one is added, of a kind that has one free, or none is. -/
theorem Session.queue_cases :
    (x.used false < 960 ∧ (x.queue ev now).1 = (x.push ev now false).1) ∨
    (x.used true < 64 ∧ (x.queue ev now).1 = (x.push ev now true).1) ∨
    (x.queue ev now).1.events = x.events := by
  rcases lt_or_ge (x.used false) 960 with hg | hg
  · exact .inl ⟨hg, queue_general now hg⟩
  rcases le_or_gt (evClass ev.code) 1 with hc | hc
  · rcases lt_or_ge (x.used true) 64 with hr | hr
    · exact .inr (.inl ⟨hr, queue_reserved now hc hg hr⟩)
    · exact .inr (.inr (by rw [queue_waits now hc hg hr]))
  · exact .inr (.inr (by rw [queue_lost now hc hg]))

theorem Session.events_subset_queue : x.events ⊆ (x.queue ev now).1.events := by
  rcases x.queue_cases ev now with ⟨-, h⟩ | ⟨-, h⟩ | h <;> simp [h]

/-- No kind of entry outgrows its number. -/
theorem Session.queue_used_le (hg : x.used false ≤ 960) (hr : x.used true ≤ 64) :
    (x.queue ev now).1.used false ≤ 960 ∧ (x.queue ev now).1.used true ≤ 64 := by
  rcases x.queue_cases ev now with ⟨hlt, h⟩ | ⟨hlt, h⟩ | h
  · rw [h, push_used_same, push_false_used_true]
    exact ⟨hlt, hr⟩
  · rw [h, push_used_same, push_true_used_false]
    exact ⟨hg, hlt⟩
  · have same (resv : Bool) : (x.queue ev now).1.used resv = x.used resv := by rw [Session.used, h, Session.used]
    rw [same, same]
    exact ⟨hg, hr⟩

end

/-- Settles O52: each clause is the outcome of `Session.queue` that its premises select, and the bounds are
`Session.queue_used_le`. -/
theorem eventQueue : Obligations.EventQueue := by
  unfold Obligations.EventQueue
  intro x ev now y general reserved
  have taken (hg : general < 960) : y.used false = general + 1 ∧ y.used true = reserved := by
    simp [y, Session.queue_general now hg, general, reserved]
  refine ⟨fun hc hfree => ?length, fun _ => taken, fun hc hg hr => ?reserved, fun hc hg hr => ?waits, fun _ => taken,
    fun hc hg => ?lost, fun hg hr => ?bounds, x.events_subset_queue ev now⟩
  case length =>
    rcases lt_or_ge general 960 with hg | hg
    · simp [y, Session.queue_general now hg]
    · simp [y, Session.queue_reserved now hc hg (hfree.resolve_left hg.not_gt)]
  case reserved => simp [y, Session.queue_reserved now hc hg hr, general, reserved]
  case waits => simp [y, Session.queue_waits now hc hg hr]
  case lost => simp [y, Session.queue_lost now hc hg]
  case bounds =>
    obtain ⟨hgeneral, hreserved⟩ := x.queue_used_le ev now hg hr
    refine ⟨hgeneral, hreserved, ?_⟩
    calc y.events.length = y.used false + y.used true := y.used_add_used.symm
      _ ≤ 960 + 64 := Nat.add_le_add hgeneral hreserved

end Sys2Proof.Machine
end

section
/-! The droop detectors and the clock stretch of a die (R646 to R648): what a changed region or die reads back, and the
stages of the clock's return. -/

namespace Sys2Proof.Machine

/-! ### Power regions and dies read back -/

theorem nth_setAt_self {α : Type} {l : List α} {i : Nat} (h : i < l.length) (f : α → α) (d : α) :
    nth (setAt l i f) i d = f (nth l i d) := by
  simp [nth, setAt, h]

theorem nth_setAt_ne {α : Type} {i j : Nat} (h : j ≠ i) (l : List α) (f : α → α) (d : α) :
    nth (setAt l i f) j d = nth l j d := by
  simp [nth, setAt, List.getElem?_modify_ne _ _ h.symm]

section
variable {s : State}

theorem State.pr_onPr_self {g : Nat} (h : g < s.pwr.regions.length) (f : PwrRegion → PwrRegion) :
    (s.onPr g f).pr g = f (s.pr g) := nth_setAt_self h f {}

theorem State.pr_onPr_ne {g j : Nat} (h : j ≠ g) (f : PwrRegion → PwrRegion) : (s.onPr g f).pr j = s.pr j :=
  nth_setAt_ne h _ f {}

theorem State.die_onDie_self {d : Nat} (h : d < s.pwr.dies.length) (f : PwrDie → PwrDie) :
    (s.onDie d f).die d = f (s.die d) := nth_setAt_self h f {}

/-- A change to a region leaves what a die reads back. -/
theorem State.die_onPr_onDie_self {d : Nat} (h : d < s.pwr.dies.length) (g : Nat) (p : PwrRegion → PwrRegion)
    (f : PwrDie → PwrDie) : ((s.onPr g p).onDie d f).die d = f (s.die d) := State.die_onDie_self h f

theorem State.die_onDie_ne {d j : Nat} (h : j ≠ d) (f : PwrDie → PwrDie) : (s.onDie d f).die j = s.die j :=
  nth_setAt_ne h _ f {}

/-- The frame of a change to a die: its state lies in the power controller's `dies`. -/
theorem State.onDie_eq (d : Nat) (f : PwrDie → PwrDie) :
    s.onDie d f = { s with pwr := { s.pwr with dies := (s.onDie d f).pwr.dies } } := rfl

end

/-! ### The return of a die's clock -/

/-- The return of a stretched clock goes on to its next stage. -/
theorem execStretchReturn_of_lt {d : DieIx} {s : State} (hc : (s.die d.val).counting = true)
    (h0 : (s.die d.val).stage ≠ 0) (h3 : (s.die d.val).stage < 3) : execStretchReturn d s =
      .next (s.onDie d.val fun x => { x with stage := x.stage + 1, since := s.now }) := by
  simp [execStretchReturn, hc, h0, h3]

/-- The return ends after its last stage, and the stretch's time is counted. -/
theorem execStretchReturn_last {d : DieIx} {s : State} (hc : (s.die d.val).counting = true)
    (h3 : (s.die d.val).stage = 3) : execStretchReturn d s = .next (s.onDie d.val fun x =>
      { x with stage := 0, counting := false, stretchNs := (x.stretchNs + (s.now - x.began)) % 2 ^ 64 }) := by
  simp [execStretchReturn, hc, h3]

/-- Settles O45: a trip changes its region and its die, the other two commands a die alone; what they read back
and leave unchanged are the rules of `State.onPr` and `State.onDie`. -/
theorem droopCounts : Obligations.DroopCounts := by
  unfold Obligations.DroopCounts
  refine ⟨fun g k s hregions hdies => ?trip, fun g k s hdies => ?clear, fun d s hdies hcounting =>
    ⟨fun hstage => ?stage, fun hlast => ?last⟩⟩
  case trip =>
    have hg : g.val < s.pwr.regions.length := by omega
    have hd : g.val / 8 < s.pwr.dies.length := by omega
    refine ⟨_, exec_droopTrip .., rfl, State.pr_onPr_self hg _, fun j hj => State.pr_onPr_ne hj _,
      fun d hne => State.die_onDie_ne hne _, ?_, ?_⟩
    all_goals rw [State.die_onPr_onDie_self hd]
  case clear =>
    have hd : g.val / 8 < s.pwr.dies.length := by omega
    refine ⟨_, exec_droopClear .., State.onDie_eq .., fun d hne => State.die_onDie_ne hne _, ?_, ?_⟩
    all_goals rw [State.die_onDie_self hd]
  case stage =>
    have hd : d.val < s.pwr.dies.length := by omega
    exact ⟨_, execStretchReturn_of_lt hcounting (by omega) (by omega), State.onDie_eq .., State.die_onDie_self hd _⟩
  case last =>
    have hd : d.val < s.pwr.dies.length := by omega
    exact ⟨_, execStretchReturn_last hcounting hlast, State.onDie_eq .., State.die_onDie_self hd _⟩

end Sys2Proof.Machine
end

section
/-! The merging of reports (R738): what `mergeRec` makes of a list, and where the error log merges a report. -/

namespace Sys2Proof.Machine

/-- A record with one more occurrence of a report. -/
def ErrRec.merged (r a : ErrRec) : ErrRec := { a with count := min 0xFFFFFFFF (a.count + 1), last := r.first }

theorem ErrRec.same_iff {a r : ErrRec} : a.same r = true ↔
    a.unit = r.unit ∧ a.inst = r.inst ∧ a.code = r.code ∧ a.cls = r.cls ∧ a.delivered = false := by
  simp [ErrRec.same, and_assoc]

section
variable {r : ErrRec} {l : List ErrRec}

/-- A report that no record may take leaves the list. -/
theorem mergeRec_of_forall_not (h : ∀ a ∈ l, ¬ a.same r = true) : mergeRec r l = (l, false) := by
  induction l with
  | nil => rfl
  | cons a t ih => simp [mergeRec, h a List.mem_cons_self, ih fun b hb => h b (List.mem_cons_of_mem a hb)]

/-- One that some record may take changes one such record. -/
theorem mergeRec_of_exists (h : ∃ a ∈ l, a.same r = true) :
    ∃ i a, l[i]? = some a ∧ a.same r = true ∧ mergeRec r l = (setAt l i r.merged, true) := by
  induction l with
  | nil => simp at h
  | cons b t ih =>
    by_cases hb : b.same r = true
    · exact ⟨0, b, rfl, hb, by simp [mergeRec, hb, setAt, ErrRec.merged]⟩
    · obtain ⟨i, a, hi, ha, hm⟩ := ih (by simpa [hb] using h)
      exact ⟨i + 1, a, by simpa using hi, ha, by simp [mergeRec, hb, hm, setAt]⟩

end

section
variable {e : ErrLog} {r : ErrRec}

/-- A change in the last part of a list, seen from its start. -/
theorem take_append_setAt_drop {α : Type} (l : List α) (n i : Nat) (f : α → α) (h : n ≤ l.length) :
    l.take n ++ setAt (l.drop n) i f = setAt l (n + i) f := calc
  _ = setAt (l.take n ++ l.drop n) ((l.take n).length + i) f := (List.modifyTailIdx_add _ i _ _).symm
  _ = setAt l (n + i) f := by rw [List.take_append_drop, List.length_take_of_le h]

/-- A report that a queued record may take is merged into one. -/
theorem ErrLog.report_of_queue (h : ∃ a ∈ e.queue, a.same r = true) : ∃ i a, e.queue[i]? = some a ∧ a.same r = true ∧
    e.report r = { e with queue := setAt e.queue i r.merged, coalesced := satAdd 32 e.coalesced 1 } := by
  obtain ⟨i, a, hi, ha, hm⟩ := mergeRec_of_exists h
  exact ⟨i, a, hi, ha, by simp [ErrLog.report, hm]⟩

/-- One that no queued record may take, but one of the ring's 256 most recent, is merged there. -/
theorem ErrLog.report_of_ring (hq : ∀ a ∈ e.queue, ¬ a.same r = true)
    (h : ∃ a ∈ e.ring.drop (e.ring.length - 256), a.same r = true) :
    ∃ i a, e.ring.length - 256 ≤ i ∧ e.ring[i]? = some a ∧ a.same r = true ∧
      e.report r = { e with ring := setAt e.ring i r.merged, coalesced := satAdd 32 e.coalesced 1 } := by
  obtain ⟨i, a, hi, ha, hm⟩ := mergeRec_of_exists h
  refine ⟨e.ring.length - 256 + i, a, Nat.le_add_right .., by simpa using hi, ha, ?_⟩
  simp [ErrLog.report, mergeRec_of_forall_not hq, hm, take_append_setAt_drop]

/-- One that no record may take is queued, held or lost: no record and no count of merged reports changes. -/
theorem ErrLog.report_of_forall_not (hq : ∀ a ∈ e.queue, ¬ a.same r = true)
    (hr : ∀ a ∈ e.ring.drop (e.ring.length - 256), ¬ a.same r = true) :
    (e.report r).ring = e.ring ∧ (e.report r).coalesced = e.coalesced ∧ e.queue <+: (e.report r).queue := by
  simp only [ErrLog.report, mergeRec_of_forall_not hq, mergeRec_of_forall_not hr, Bool.false_eq_true, if_false]
  split_ifs <;> simp [ErrLog.enqueue]

end

/-- Settles O53: the clauses are `ErrLog.report_of_queue`, `ErrLog.report_of_ring` and `ErrLog.report_of_forall_not`. -/
theorem reportsMerge : Obligations.ReportsMerge := by
  unfold Obligations.ReportsMerge
  intro e r
  simp only [← ErrRec.same_iff]
  refine ⟨fun hq => ?queue, fun hq hr => ?ring, fun hq hr => ?fresh⟩
  case queue =>
    obtain ⟨i, a, hi, ha, h⟩ := ErrLog.report_of_queue hq
    exact ⟨i, a, hi, ha, by rw [h]; rfl, by rw [h]⟩
  case ring =>
    obtain ⟨i, a, hle, hi, ha, h⟩ := ErrLog.report_of_ring hq hr
    exact ⟨i, a, hle, hi, ha, by rw [h]; rfl, by rw [h]⟩
  case fresh =>
    obtain ⟨hring, hcount, hqueue⟩ := ErrLog.report_of_forall_not hq hr
    exact ⟨hring, hcount, (List.prefix_iff_eq_take.1 hqueue).symm⟩

end Sys2Proof.Machine
end

section
/-! The ring of the error log (R740 to R742): what each operation on the log leaves, and what LOG_MOVE moves. -/

namespace Sys2Proof.Machine

/-! ### Messages of Halter -/

/-- `HalterOnly` with the changed parts named, so that states can be replaced by it. -/
theorem halterOnly_iff {s t : State} : HalterOnly s t ↔ ∃ hal ports txWait sent freeIx,
    t = { s with hal := hal, ports := ports, txWait := txWait, sent := sent, freeIx := freeIx } :=
  ⟨fun h => ⟨_, _, _, _, _, h⟩, by rintro ⟨_, _, _, _, _, rfl⟩; rfl⟩

theorem State.sendOn_halterOnly (s : State) (p cls len : Nat) (x : Sent) : HalterOnly s (s.sendOn p cls len x) := by
  unfold State.sendOn
  split_ifs <;> rfl

theorem State.sendMsg_halterOnly (s : State) (x : Sent) : HalterOnly s (s.sendMsg x) := by
  cases x with
  | reply | openMsg => exact s.sendOn_halterOnly ..
  | event p a =>
    obtain ⟨_, _, _, _, _, h⟩ := halterOnly_iff.1 ((s.draw 13).2.sendOn_halterOnly p 2
      (udpFrame (a % 2 = 1) (48 + (s.draw 13).1)) (.event p a _ _ _ _))
    exact halterOnly_iff.2 ⟨_, _, _, _, _, h⟩
  | _ => rfl

theorem State.onSession_halterOnly (s : State) (n : Nat) (f : Session → Session) : HalterOnly s (s.onSession n f) := rfl

/-! ### PUSH draining -/

/-- A record without the marks that draining sets. -/
def ErrRec.bare (a : ErrRec) : ErrRec := { a with delivered := false, carried := false }

/-- Draining changes at most the marks of the ring's records beside what Halter's messages change. -/
def State.Drained (s t : State) : Prop :=
  ∃ l, l.map ErrRec.bare = s.err.ring.map ErrRec.bare ∧ HalterOnly { s with err := { s.err with ring := l } } t

theorem State.Drained.refl (s : State) : s.Drained s := ⟨s.err.ring, rfl, rfl⟩

theorem State.Drained.trans {s t u : State} (hst : s.Drained t) (htu : t.Drained u) : s.Drained u := by
  obtain ⟨l, hl, hst⟩ := hst
  obtain ⟨l', hl', htu⟩ := htu
  obtain ⟨_, _, _, _, _, rfl⟩ := halterOnly_iff.1 hst
  obtain ⟨_, _, _, _, _, rfl⟩ := halterOnly_iff.1 htu
  exact ⟨l', hl'.trans hl, rfl⟩

theorem State.Drained.of_halterOnly {s t : State} (h : HalterOnly s t) : s.Drained t := by
  obtain ⟨_, _, _, _, _, rfl⟩ := halterOnly_iff.1 h
  exact ⟨s.err.ring, rfl, rfl⟩

theorem State.Drained.mark (s : State) (f : ErrRec → ErrRec) (h : ∀ a, (f a).bare = a.bare) :
    s.Drained { s with err := { s.err with ring := s.err.ring.map f } } :=
  ⟨s.err.ring.map f, by simp [Function.comp_def, h], rfl⟩

theorem State.pushLogN_drained (n : Nat) (s : State) : s.Drained (s.pushLogN n) := by
  induction n generalizing s with
  | zero => exact .refl s
  | succ n ih =>
    unfold State.pushLogN
    split
    · exact .refl s
    · dsimp only
      split
      · exact .refl s
      · refine .trans (.trans (.trans (.mark s _ fun a => ?_) (.of_halterOnly (State.onSession_halterOnly ..)))
          (.of_halterOnly (State.sendMsg_halterOnly ..))) (ih _)
        split <;> rfl

theorem State.pushLog_drained (s : State) : s.Drained s.pushLog := s.pushLogN_drained _

/-! ### Held reports -/

/-- At most the first held report enters the queue, at its end. -/
theorem ErrLog.unhold_cases (e : ErrLog) :
    e.unhold = e ∨ ∃ r t resv, e.held = r :: t ∧ e.unhold = ErrLog.enqueue { e with held := t } r resv := by
  unfold ErrLog.unhold
  split
  next => exact .inl rfl
  next r t h =>
    split_ifs
    · exact .inr ⟨r, t, false, h, rfl⟩
    · exact .inr ⟨r, t, true, h, rfl⟩
    · exact .inl rfl

@[simp] theorem ErrLog.unhold_rest (e : ErrLog) : e.unhold.ring = e.ring ∧ e.unhold.lost = e.lost ∧
    e.unhold.nextSeq = e.nextSeq ∧ e.unhold.written = e.written := by
  obtain h | ⟨r, t, resv, -, h⟩ := e.unhold_cases <;> rw [h] <;> simp [ErrLog.enqueue]

theorem ErrLog.queue_prefix_unhold (e : ErrLog) : e.queue <+: e.unhold.queue := by
  obtain h | ⟨r, t, resv, -, h⟩ := e.unhold_cases <;> simp [h, ErrLog.enqueue]

theorem ErrLog.unhold_of_held_nil {e : ErrLog} (h : e.held = []) : e.unhold = e := by simp [ErrLog.unhold, h]

/-! ### Room in the ring -/

section
variable {e : ErrLog} {r : ErrRec} {i : Nat}

theorem ErrLog.ringPut_of_room (h : e.ring.length < 4096) : e.ringPut r = some (e.ring ++ [r], false) := by
  simp [ErrLog.ringPut, h]

theorem ErrLog.ringPut_of_delivered (h : 4096 ≤ e.ring.length) (hi : e.ring.findIdx? (·.delivered) = some i) :
    e.ringPut r = some (e.ring.take i ++ e.ring.drop (i + 1) ++ [r], false) := by
  simp [ErrLog.ringPut, h.not_gt, hi]

theorem ErrLog.ringPut_of_fatal (h : 4096 ≤ e.ring.length) (hd : e.ring.findIdx? (·.delivered) = none) (hr : r.cls = 5)
    (hi : e.ring.findIdx? (fun a => a.cls ≠ 5) = some i) :
    e.ringPut r = some (e.ring.take i ++ e.ring.drop (i + 1) ++ [r], true) := by
  simp [ErrLog.ringPut, h.not_gt, hd, hr] at hi ⊢
  simp [hi]

theorem ErrLog.ringPut_of_stuck (h : 4096 ≤ e.ring.length) (hd : e.ring.findIdx? (·.delivered) = none) (hr : r.cls ≠ 5) :
    e.ringPut r = none := by
  simp [ErrLog.ringPut, h.not_gt, hd, hr]

/-- Whether the ring can take a record depends on its class alone. -/
theorem ErrLog.isSome_ringPut_congr {a : ErrRec} (h : a.cls = r.cls) :
    (e.ringPut a).isSome = (e.ringPut r).isSome := by
  by_cases hroom : e.ring.length < 4096
  · simp [ErrLog.ringPut, hroom]
  · cases hd : e.ring.findIdx? (·.delivered) <;> simp [ErrLog.ringPut, hroom, hd, h, apply_ite Option.isSome]

end

/-! ### LOG_MOVE -/

/-- The record that enters the ring for a queued one: with the next number, and bit FLASH where it is FATAL (R734). -/
def State.stamped (s : State) (r : ErrRec) : ErrRec :=
  { r with seq := s.err.nextSeq, flags := if r.cls = 5 then r.flags ||| 2 else r.flags }

/-- Flash with a record that moves to the ring: kept where it is FATAL, beside the 255 before it. -/
def Flash.withFatal (f : Flash) (m : ErrRec) : Flash :=
  if m.cls = 5 then { f with fatal := (f.fatal ++ [m]).drop (f.fatal.length + 1 - 256) } else f

theorem Flash.withFatal_eq (f : Flash) (m : ErrRec) : f.withFatal m =
    { f with fatal := if m.cls = 5 then (f.fatal ++ [m]).drop (f.fatal.length + 1 - 256) else f.fatal } := by
  unfold Flash.withFatal
  split <;> rfl

/-- The log `e'` is `e` after queued record `r` made the ring `ring`, and another record was lost or not; nothing is said
of the trace pins and of the move's time. -/
structure ErrLog.Moved (e : ErrLog) (r : ErrRec) (ring : List ErrRec) (lost : Bool) (e' : ErrLog) : Prop where
  queue : e'.queue = e.queue.erase r
  held : e'.held = e.held
  ring : e'.ring = ring
  lost : e'.lost = if lost then satAdd 32 e.lost 1 else e.lost
  nextSeq : e'.nextSeq = e.nextSeq + 1
  written : e'.written = satAdd 32 e.written 1

section
variable {s : State} {r : ErrRec}

/-- The oldest record that the ring can take moves, once 100 ns have passed (R737); held reports follow, and PUSH draining. -/
theorem execLogMove_of_find {ring : List ErrRec} {lost : Bool}
    (hfind : (s.err.queue.find? fun a => (s.err.ringPut a).isSome) = some r)
    (htime : ∀ a, s.err.movedAt = some a → a + 100 ≤ s.now) (hput : s.err.ringPut (s.stamped r) = some (ring, lost)) :
    ∃ e, s.err.Moved r ring lost e ∧
      exec .logMove s = .next (State.pushLog { s with err := e.unhold, flash := s.flash.withFatal (s.stamped r) }) := by
  rw [exec_logMove, execLogMove, hfind]
  dsimp only
  rw [State.stamped] at hput
  rw [if_neg ?early, hput]
  · refine ⟨_, ?moved, rfl⟩
    constructor <;> rfl
  case early =>
    split
    next a h => simpa using htime a h
    next => simp

/-- Where the ring can take no queued record, none moves. -/
theorem execLogMove_of_find_none (hfind : (s.err.queue.find? fun a => (s.err.ringPut a).isSome) = none) :
    exec .logMove s = .next s := by
  rw [exec_logMove, execLogMove, hfind]

/-- From `s` to `t` record `r` moves to the ring, of which `l` stays, and leaves `q` in the queue; `lost` counts the reports
lost by then. The marks of the ring's records are not fixed, as PUSH draining may set them. -/
def State.MovesTo (s : State) (r : ErrRec) (q l : List ErrRec) (lost : Nat) (t : State) : Prop :=
  t.err.ring.map ErrRec.bare = (l ++ [s.stamped r]).map ErrRec.bare ∧ t.err.lost = lost ∧
  t.err.nextSeq = s.err.nextSeq + 1 ∧ t.err.written = satAdd 32 s.err.written 1 ∧ (s.err.held = [] → t.err.queue = q) ∧
  t.flash = { s.flash with fatal :=
    if r.cls = 5 then (s.flash.fatal ++ [s.stamped r]).drop (s.flash.fatal.length + 1 - 256) else s.flash.fatal } ∧
  HalterOnly { s with err := t.err, flash := t.flash } t

variable {q : List ErrRec}

/-- A record at the front of the queue that the ring can take moves. -/
theorem does_logMove_of_ringPut {l : List ErrRec} {lost : Bool} (hqueue : s.err.queue = r :: q)
    (htime : ∀ a, s.err.movedAt = some a → a + 100 ≤ s.now)
    (hput : ∀ a, a.cls = r.cls → s.err.ringPut a = some (l ++ [a], lost)) :
    Does .logMove s (s.MovesTo r q l (if lost then satAdd 32 s.err.lost 1 else s.err.lost)) := by
  have hfind : (s.err.queue.find? fun a => (s.err.ringPut a).isSome) = some r := by simp [hqueue, hput r rfl]
  obtain ⟨e, hmoved, hexec⟩ := execLogMove_of_find hfind htime (hput (s.stamped r) rfl)
  obtain ⟨ring, hring, hrest⟩ := State.pushLog_drained
    { s with err := e.unhold, flash := s.flash.withFatal (s.stamped r) }
  obtain ⟨_, _, _, _, _, ht⟩ := halterOnly_iff.1 hrest
  obtain ⟨ering, elost, eseq, ewritten⟩ := e.unhold_rest
  refine ⟨_, hexec, ?_⟩
  rw [ht]
  refine ⟨?ring, ?lost, ?seq, ?written, fun hheld => ?queue, s.flash.withFatal_eq _, rfl⟩
  case ring => rw [hring, ering, hmoved.ring]
  case lost => exact elost.trans hmoved.lost
  case seq => exact eseq.trans hmoved.nextSeq
  case written => exact ewritten.trans hmoved.written
  case queue =>
    change e.unhold.queue = q
    rw [ErrLog.unhold_of_held_nil (hmoved.held.trans hheld), hmoved.queue, hqueue, List.erase_cons_head]

/-- One that the ring cannot take stays at the front, whichever moves in its stead. -/
theorem does_logMove_of_ringPut_none (hqueue : s.err.queue = r :: q)
    (htime : ∀ a, s.err.movedAt = some a → a + 100 ≤ s.now) (hput : s.err.ringPut r = none) :
    Does .logMove s fun t => t.err.queue.head? = some r := by
  cases hfind : s.err.queue.find? fun a => (s.err.ringPut a).isSome with
  | none => exact ⟨s, execLogMove_of_find_none hfind, by simp [hqueue]⟩
  | some a =>
    obtain ⟨ha, -⟩ := List.find?_eq_some_iff_append.1 hfind
    have hne : r ≠ a := by
      rintro rfl
      simp [hput] at ha
    have hstamped : (s.err.ringPut (s.stamped a)).isSome :=
      (ErrLog.isSome_ringPut_congr (a := s.stamped a) (r := a) rfl).trans ha
    obtain ⟨⟨ring, lost⟩, hstamped⟩ := Option.isSome_iff_exists.1 hstamped
    obtain ⟨e, hmoved, hexec⟩ := execLogMove_of_find hfind htime hstamped
    obtain ⟨_, -, hrest⟩ := State.pushLog_drained { s with err := e.unhold, flash := s.flash.withFatal (s.stamped a) }
    obtain ⟨_, _, _, _, _, ht⟩ := halterOnly_iff.1 hrest
    refine ⟨_, hexec, ?_⟩
    rw [ht]
    obtain ⟨held, hheld⟩ := e.queue_prefix_unhold
    change e.unhold.queue.head? = some r
    rw [← hheld, hmoved.queue, hqueue, List.erase_cons_tail (by simpa using hne)]
    rfl

end

/-- Settles O54: each of the first three clauses is `does_logMove_of_ringPut` with the room that its premises give, the
last is `does_logMove_of_ringPut_none`. -/
theorem logRing : Obligations.LogRing := by
  unfold Obligations.LogRing
  intro s r q hqueue htime
  refine ⟨fun hroom => ?room, fun hfull i hi => ?delivered, fun hfull hd hr i hi => ?fatal, fun hfull hd hr => ?stays⟩
  case room => exact does_logMove_of_ringPut hqueue htime fun _ _ => ErrLog.ringPut_of_room hroom
  case delivered => exact does_logMove_of_ringPut hqueue htime fun _ _ => ErrLog.ringPut_of_delivered hfull hi
  case fatal =>
    exact does_logMove_of_ringPut hqueue htime fun _ ha => ErrLog.ringPut_of_fatal hfull hd (ha.trans hr) hi
  case stays => exact does_logMove_of_ringPut_none hqueue htime (ErrLog.ringPut_of_stuck hfull hd hr)

end Sys2Proof.Machine
end

section
/-! What every command keeps (O59) and the shape that every step keeps (O58): the rules of `Kept` for the single commands,
put together over the dispatch. -/

namespace Sys2Proof.Machine

/-- Every command keeps what a state had and its shape. -/
theorem exec_kept {q : Prop} {s : State} (h : Kept q s s) : ∀ c : Instr, OutKept q s (exec c s)
  | .mm _ _ => execMm_kept _ _ h
  | .drain _ _ => execDrain_kept _ _ h
  | .topk _ _ => execTopk_kept _ _ h
  | .topkMerge _ _ => execTopkMerge_kept _ _ h
  | .zero _ _ => execZero_kept _ _ h
  | .barrier _ _ => execBarrier_kept _ _ h
  | .arrayCmdStart _ _ _ _ => execArrayCmdStart_kept _ _ _ _ h
  | .drainUnitStart _ _ _ _ _ => execDrainUnitStart_kept _ _ _ _ _ h
  | .arrayCmdDone _ => execArrayCmdDone_kept _ h
  | .drainUnitDone _ _ => execDrainUnitDone_kept _ _ h
  | .barrierDone _ => execBarrierDone_kept _ h
  | .drainResume _ _ _ _ => execDrainResume_kept _ _ _ _ h
  | .sequencerResume _ => execSequencerResume_kept _ h
  | .carouselMoveDone _ => execCarouselMoveDone_kept _ h
  | .spareSelfTest _ _ => execSpareSelfTest_kept _ _ h
  | .meshFlitResend _ _ _ => execMeshFlitResend_kept _ _ _ h
  | .ucieLinkRetry _ _ _ => execUcieLinkRetry_kept _ _ _ h
  | .ucieRetrainDone _ _ => execUcieRetrainDone_kept _ _ h
  | .fmtCntClearCounts _ => execFmtCntClearCounts_kept _ h
  | .fmtCntClearAlloc _ => execFmtCntClearAlloc_kept _ h
  | .push _ _ => execPush_kept _ _ h
  | .pop _ _ => execPop_kept _ _ h
  | .peek _ _ => execPeek_kept _ _ h
  | .reset _ _ => execReset_kept _ _ h
  | .pannierCmdStart _ _ => execPannierCmdStart_kept _ _ h
  | .pushDone _ => execPushDone_kept _ h
  | .popDone _ => execPopDone_kept _ h
  | .spillDone _ => execSpillDone_kept _ h
  | .restoreDone _ _ _ => execRestoreDone_kept _ _ _ h
  | .popGraceExpiry _ => execPopGraceExpiry_kept _ h
  | .mbDone _ _ => execMbDone_kept _ _ h
  | .commit _ _ => execCommit_kept _ _ h
  | .tandemSwap => execTandemSwap_kept h
  | .swapComplete => execSwapComplete_kept h
  | .repeatOrder _ _ _ _ _ => execRepeatOrder_kept _ _ _ _ _ h
  | .repeatDrained => execRepeatDrained_kept h
  | .repeatRestart => execRepeatRestart_kept h
  | .snapshotCopyDone => execSnapshotCopyDone_kept h
  | .snapshotTimeout => execSnapshotTimeout_kept h
  | .vadd _ _ => execVadd_kept _ _ h
  | .vsub _ _ => execVsub_kept _ _ h
  | .vmul _ _ => execVmul_kept _ _ h
  | .vfma _ _ => execVfma_kept _ _ h
  | .vmax _ _ => execVmax_kept _ _ h
  | .vmin _ _ => execVmin_kept _ _ h
  | .vabs _ _ => execVabs_kept _ _ h
  | .vneg _ _ => execVneg_kept _ _ h
  | .vrcp _ _ => execVrcp_kept _ _ h
  | .vrsqrt _ _ => execVrsqrt_kept _ _ h
  | .vsqrt _ _ => execVsqrt_kept _ _ h
  | .vexp _ _ => execVexp_kept _ _ h
  | .vlog _ _ => execVlog_kept _ _ h
  | .vtanh _ _ => execVtanh_kept _ _ h
  | .vsigm _ _ => execVsigm_kept _ _ h
  | .vcmpgt _ _ => execVcmpgt_kept _ _ h
  | .vcmpge _ _ => execVcmpge_kept _ _ h
  | .vcmpeq _ _ => execVcmpeq_kept _ _ h
  | .vsel _ _ => execVsel_kept _ _ h
  | .viadd _ _ => execViadd_kept _ _ h
  | .visub _ _ => execVisub_kept _ _ h
  | .vand _ _ => execVand_kept _ _ h
  | .vor _ _ => execVor_kept _ _ h
  | .vxor _ _ => execVxor_kept _ _ h
  | .vshl _ _ => execVshl_kept _ _ h
  | .vshr _ _ => execVshr_kept _ _ h
  | .vimul _ _ => execVimul_kept _ _ h
  | .vmov _ _ => execVmov_kept _ _ h
  | .vlane _ _ => execVlane_kept _ _ h
  | .vcvt _ _ => execVcvt_kept _ _ h
  | .vpack _ _ => execVpack_kept _ _ h
  | .vunpk _ _ => execVunpk_kept _ _ h
  | .vrsum _ _ => execVrsum_kept _ _ h
  | .vrmax _ _ => execVrmax_kept _ _ h
  | .vrand _ _ => execVrand_kept _ _ h
  | .vdmask _ _ => execVdmask_kept _ _ h
  | .vmsel _ _ => execVmsel_kept _ _ h
  | .vld _ _ _ => execVld_kept _ _ _ h
  | .vst _ _ => execVst_kept _ _ h
  | .vldbc _ _ _ => execVldbc_kept _ _ _ h
  | .vldq _ _ => execVldq_kept _ _ h
  | .vldqResume _ => execVldqResume_kept _ h
  | .vfence _ _ => execVfence_kept _ _ h
  | .vfenceDone _ => execVfenceDone_kept _ h
  | .vfmt _ _ _ => execVfmt_kept _ _ _ h
  | .venc _ _ => execVenc_kept _ _ h
  | .vdec _ _ _ => execVdec_kept _ _ _ h
  | .rowf _ _ _ => execRowf_kept _ _ _ h
  | .rowr _ _ _ => execRowr_kept _ _ _ h
  | .rowInstrDone _ => execRowInstrDone_kept _ h
  | .hint _ _ => execHint_kept _ _ h
  | .noticeDue _ => execNoticeDue_kept _ h
  | .boostStart _ => execBoostStart_kept _ h
  | .boostEnd _ => execBoostEnd_kept _ h
  | .reduce _ _ _ => execReduce_kept _ _ _ h
  | .reduceEnd _ _ _ _ _ => execReduceEnd_kept _ _ _ _ _ h
  | .reduceResult _ _ => execReduceResult_kept _ _ h
  | .creditReturn _ _ => execCreditReturn_kept _ _ h
  | .ledgerReport _ _ _ _ => execLedgerReport_kept _ _ _ _ h
  | .ledgerRepeatRequest _ _ _ _ => execLedgerRepeatRequest_kept _ _ _ _ h
  | .resultBad _ _ _ _ => execResultBad_kept _ _ _ _ h
  | .beatTimer => execBeatTimer_kept h
  | .ledgerBeat _ _ _ => execLedgerBeat_kept _ _ _ h
  | .beatTimeout => execBeatTimeout_kept h
  | .hardLimitExpiry => execHardLimitExpiry_kept h
  | .standbyDecision _ _ => execStandbyDecision_kept _ _ h
  | .standbyAck _ _ => execStandbyAck_kept _ _ h
  | .heartbeatTimer => execHeartbeatTimer_kept h
  | .heartbeat _ => execHeartbeat_kept _ h
  | .standbyTakeover => execStandbyTakeover_kept h
  | .pageRetireDone _ => execPageRetireDone_kept _ h
  | .relayoutDone _ => execRelayoutDone_kept _ h
  | .hbmInterfaceError _ _ => execHbmInterfaceError_kept _ _ h
  | .channelRetrainDone _ _ => execChannelRetrainDone_kept _ _ h
  | .scrubRead _ _ => execScrubRead_kept _ _ h
  | .hbmTempRead _ _ => execHbmTempRead_kept _ _ h
  | .hbmRefresh _ _ => execHbmRefresh_kept _ _ h
  | .heatEpoch => execHeatEpoch_kept h
  | .promote => execPromote_kept h
  | .promoteGranule _ => execPromoteGranule_kept _ h
  | .promoteAbandon _ => execPromoteAbandon_kept _ h
  | .evict => execEvict_kept h
  | .evictDone _ => execEvictDone_kept _ h
  | .evictAbandon _ => execEvictAbandon_kept _ h
  | .writebackAge _ _ => execWritebackAge_kept _ _ h
  | .writebackAck _ => execWritebackAck_kept _ h
  | .buddyForwardAck _ => execBuddyForwardAck_kept _ h
  | .buddyTimeout => execBuddyTimeout_kept h
  | .buddyPoison _ _ => execBuddyPoison_kept _ _ h
  | .reseedDone => execReseedDone_kept h
  | .stream _ _ => execStream_kept _ _ h
  | .streamDataDone _ _ => execStreamDataDone_kept _ _ h
  | .streamDeadline _ _ => execStreamDeadline_kept _ _ h
  | .streamStaleCopyDone _ _ => execStreamStaleCopyDone_kept _ _ h
  | .tlRead _ _ _ => execTlRead_kept _ _ _ h
  | .tlWrite _ _ _ => execTlWrite_kept _ _ _ h
  | .tlAdd _ _ => execTlAdd_kept _ _ h
  | .tlMin _ _ => execTlMin_kept _ _ h
  | .tlMax _ _ => execTlMax_kept _ _ h
  | .tlCas _ _ => execTlCas_kept _ _ h
  | .tlInval _ => execTlInval_kept _ h
  | .tlResponse _ => execTlResponse_kept _ h
  | .rtoExpiry _ => execRtoExpiry_kept _ h
  | .reachTimeout _ => execReachTimeout_kept _ h
  | .retryAfterExpiry _ => execRetryAfterExpiry_kept _ h
  | .tokenExpiry _ => execTokenExpiry_kept _ h
  | .combineFlush => execCombineFlush_kept h
  | .copy _ _ => execCopy_kept _ _ h
  | .ctrWait _ _ => execCtrWait_kept _ _ h
  | .fence _ _ => execFence_kept _ _ h
  | .remote _ _ => execRemote_kept _ _ h
  | .fabricCmdStart _ _ => execFabricCmdStart_kept _ _ h
  | .copyDone _ _ _ _ => execCopyDone_kept _ _ _ _ h
  | .ctrWaitDone _ _ => execCtrWaitDone_kept _ _ h
  | .ctrWaitTimeout _ _ => execCtrWaitTimeout_kept _ _ h
  | .fenceDone _ _ => execFenceDone_kept _ _ h
  | .remoteDone _ _ => execRemoteDone_kept _ _ h
  | .frameDiscard _ _ => execFrameDiscard_kept _ _ h
  | .arpRequest _ _ _ _ => execArpRequest_kept _ _ _ _ h
  | .neighborSolicitation _ _ _ => execNeighborSolicitation_kept _ _ _ h
  | .icmpEchoRequest _ _ _ => execIcmpEchoRequest_kept _ _ _ h
  | .pfcReceive _ _ _ => execPfcReceive_kept _ _ _ h
  | .lldpReceive _ _ _ => execLldpReceive_kept _ _ _ h
  | .lldpTransmit _ => execLldpTransmit_kept _ h
  | .lldpNeighborExpiry _ => execLldpNeighborExpiry_kept _ h
  | .linkBringUp _ _ => execLinkBringUp_kept _ _ h
  | .linkTrained _ _ => execLinkTrained_kept _ _ h
  | .linkTrainFail _ => execLinkTrainFail_kept _ h
  | .laneLossOfLock _ _ => execLaneLossOfLock_kept _ _ h
  | .laneSerWindow _ _ _ _ _ => execLaneSerWindow_kept _ _ _ _ _ h
  | .directReplay _ _ => execDirectReplay_kept _ _ h
  | .ptpEventMessage _ _ _ _ _ _ => execPtpEventMessage_kept _ _ _ _ _ _ h
  | .timeSourceSilence => execTimeSourceSilence_kept h
  | .hello _ _ _ _ _ => execHello_kept _ _ _ _ _ h
  | .offerSigned => execOfferSigned_kept h
  | .confirm _ _ _ _ _ => execConfirm_kept _ _ _ _ _ h
  | .exchangeTimeout _ => execExchangeTimeout_kept _ h
  | .eventAck _ => execEventAck_kept _ h
  | .eventRetransmit _ _ => execEventRetransmit_kept _ _ h
  | .sessionIdle _ => execSessionIdle_kept _ h
  | .decisionDeadline _ => execDecisionDeadline_kept _ h
  | .nop _ => execNop_kept _ h
  | .sessionClose _ => execSessionClose_kept _ h
  | .eventSubscribe _ _ _ => execEventSubscribe_kept _ _ _ h
  | .modeSet _ _ _ => execModeSet_kept _ _ _ h
  | .repairDecide _ _ => execRepairDecide_kept _ _ h
  | .tierMove _ _ _ => execTierMove_kept _ _ _ h
  | .spareDecide _ _ => execSpareDecide_kept _ _ h
  | .splitDecide _ _ => execSplitDecide_kept _ _ h
  | .routeSet _ _ _ => execRouteSet_kept _ _ _ h
  | .leadDecide _ _ => execLeadDecide_kept _ _ h
  | .logDrainDecide _ _ => execLogDrainDecide_kept _ _ h
  | .resAcquire _ _ _ => execResAcquire_kept _ _ _ h
  | .resRelease _ _ => execResRelease_kept _ _ h
  | .resReleaseDone _ => execResReleaseDone_kept _ h
  | .resQuery _ => execResQuery_kept _ h
  | .gpioSet _ _ => execGpioSet_kept _ _ h
  | .gpioGet _ _ => execGpioGet_kept _ _ h
  | .timerSet _ _ _ => execTimerSet_kept _ _ _ h
  | .capSet _ _ => execCapSet_kept _ _ h
  | .siteBudget _ _ => execSiteBudget_kept _ _ h
  | .funcReinit _ _ => execFuncReinit_kept _ _ h
  | .funcReinitDone _ _ _ => execFuncReinitDone_kept _ _ _ h
  | .devReset _ _ => execDevReset_kept _ _ h
  | .trayPowerCycle _ => execTrayPowerCycle_kept _ h
  | .powerCycleTimeout => execPowerCycleTimeout_kept h
  | .memRead _ _ _ _ => execMemRead_kept _ _ _ _ h
  | .memWrite _ _ _ => execMemWrite_kept _ _ _ h
  | .ctlRead _ _ _ => execCtlRead_kept _ _ _ h
  | .programLoad _ _ _ _ => execProgramLoad_kept _ _ _ _ h
  | .tandemSet _ _ _ _ _ => execTandemSet_kept _ _ _ _ _ h
  | .tagTableLoad _ _ => execTagTableLoad_kept _ _ h
  | .pageTableLoad _ _ _ _ _ _ _ => execPageTableLoad_kept _ _ _ _ _ _ _ h
  | .pageSet _ _ _ => execPageSet_kept _ _ _ h
  | .jobStart _ => execJobStart_kept _ h
  | .jobStop _ => execJobStop_kept _ h
  | .jobRetry _ => execJobRetry_kept _ h
  | .jobUnload _ => execJobUnload_kept _ h
  | .tierPin _ _ _ => execTierPin_kept _ _ _ h
  | .tierFlush _ _ _ => execTierFlush_kept _ _ _ h
  | .tierBuddy _ _ _ => execTierBuddy_kept _ _ _ h
  | .snapshotShip _ _ _ _ _ _ => execSnapshotShip_kept _ _ _ _ _ _ h
  | .paramSet _ _ => execParamSet_kept _ _ h
  | .logRead _ _ => execLogRead_kept _ _ h
  | .logAck _ _ => execLogAck_kept _ _ h
  | .info _ => execInfo_kept _ h
  | .periscopeSet _ _ => execPeriscopeSet_kept _ _ h
  | .loupeReport _ _ => execLoupeReport_kept _ _ h
  | .loupePass2 _ _ => execLoupePass2_kept _ _ h
  | .quote _ _ => execQuote_kept _ _ h
  | .quoteSigned => execQuoteSigned_kept h
  | .fwStage _ _ => execFwStage_kept _ _ h
  | .fwStageDone _ => execFwStageDone_kept _ h
  | .fwActivate _ _ _ => execFwActivate_kept _ _ _ h
  | .devNumberSet _ _ _ => execDevNumberSet_kept _ _ _ h
  | .teamLoad _ _ _ => execTeamLoad_kept _ _ _ h
  | .standbySet _ _ => execStandbySet_kept _ _ h
  | .regionTableLoad _ _ _ => execRegionTableLoad_kept _ _ _ h
  | .regionSet _ _ _ => execRegionSet_kept _ _ _ h
  | .pathTableLoad _ _ _ _ => execPathTableLoad_kept _ _ _ _ h
  | .groupLoad _ _ _ _ _ _ => execGroupLoad_kept _ _ _ _ _ _ h
  | .portSet _ _ => execPortSet_kept _ _ h
  | .portReset _ _ => execPortReset_kept _ _ h
  | .evcSourceAssert _ => execEvcSourceAssert_kept _ h
  | .evcRouteWrite _ _ => execEvcRouteWrite_kept _ _ h
  | .corePowerDown _ => execCorePowerDown_kept _ h
  | .coreWake _ _ => execCoreWake_kept _ _ h
  | .vinSample _ => execVinSample_kept _ h
  | .powerSample _ _ _ => execPowerSample_kept _ _ _ h
  | .phaseCheck _ _ => execPhaseCheck_kept _ _ h
  | .phaseReenable _ _ => execPhaseReenable_kept _ _ h
  | .reinInterval => execReinInterval_kept h
  | .fastLimiter _ => execFastLimiter_kept _ h
  | .vlogicReport _ => execVlogicReport_kept _ h
  | .clockChange => execClockChange_kept h
  | .droopTrip _ _ => execDroopTrip_kept _ _ h
  | .droopClear _ _ => execDroopClear_kept _ _ h
  | .stretchReturn _ => execStretchReturn_kept _ h
  | .vminRead _ => execVminRead_kept _ h
  | .regionAdmitTest _ => execRegionAdmitTest_kept _ h
  | .regionPowerOnDone _ => execRegionPowerOnDone_kept _ h
  | .regionDefer _ => execRegionDefer_kept _ h
  | .regionPowerOff _ => execRegionPowerOff_kept _ h
  | .vrAlertFall => execVrAlertFall_kept h
  | .regAlert => execRegAlert_kept h
  | .alertForceEnd _ => execAlertForceEnd_kept _ h
  | .budgetStale => execBudgetStale_kept h
  | .sensorConversion _ _ _ => execSensorConversion_kept _ _ _ h
  | .trayReport _ => execTrayReport_kept _ h
  | .trayRequestRefresh => execTrayRequestRefresh_kept h
  | .coolantLimitUpdate => execCoolantLimitUpdate_kept h
  | .flowPulse => execFlowPulse_kept h
  | .pumpFailInput _ => execPumpFailInput_kept _ h
  | .coolantRestore => execCoolantRestore_kept h
  | .thermalTrip _ => execThermalTrip_kept _ h
  | .warmFloorCheck => execWarmFloorCheck_kept h
  | .idleActivityAdjust => execIdleActivityAdjust_kept h
  | .refclkLoss => execRefclkLoss_kept h
  | .timeclkLoss => execTimeclkLoss_kept h
  | .timeclkReturn => execTimeclkReturn_kept h
  | .ppsInEdge _ => execPpsInEdge_kept _ h
  | .ppsOutEdge => execPpsOutEdge_kept h
  | .logMove => execLogMove_kept h
  | .dorlenWatchdog _ _ => execDorlenWatchdog_kept _ _ h
  | .groomWatchdog => execGroomWatchdog_kept h
  | .vauxUp => execVauxUp_kept h
  | .vauxFall => execVauxFall_kept h
  | .rstNAssert => execRstNAssert_kept h
  | .rstNDeassert _ => execRstNDeassert_kept _ h
  | .pwrgdRise => execPwrgdRise_kept h
  | .pwrgdFall => execPwrgdFall_kept h
  | .imageCheckDone => execImageCheckDone_kept h
  | .hbmTrainingDone _ _ => execHbmTrainingDone_kept _ _ h
  | .akReady => execAkReady_kept h
  | .ready => execReady_kept h
  | .trialTimeout => execTrialTimeout_kept h
  | .opsClearTiles => execOpsClearTiles_kept h
  | .opsClearDevice => execOpsClearDevice_kept h
  | .periscopeTimer => execPeriscopeTimer_kept h
  | .periscopePin _ => execPeriscopePin_kept _ h
  | .registerWrite _ _ => execRegisterWrite_kept _ _ h
  | .bootSelSample _ => execBootSelSample_kept _ h
  | .refclkReturn => execRefclkReturn_kept h
  | .vrAlertRise _ _ => execVrAlertRise_kept _ _ h
  | .ppsOutFall => execPpsOutFall_kept h
  | .programLoadDone => execProgramLoadDone_kept h
  | .pageTableLoadDone => execPageTableLoadDone_kept h
  | .leadAnnounce _ _ => execLeadAnnounce_kept _ _ h
  | .jobOrderReceived _ _ => execJobOrderReceived_kept _ _ h
  | .logDrainRequest => execLogDrainRequest_kept h
  | .halterMessageDiscard _ _ => execHalterMessageDiscard_kept _ _ h
  | .halterUnknownCode _ _ => execHalterUnknownCode_kept _ _ h
  | .reservedOpcode _ _ _ _ => execReservedOpcode_kept _ _ _ _ h
  | .rowShadowDone _ => execRowShadowDone_kept _ h
  | .homeQueueRelease _ => execHomeQueueRelease_kept _ h
  | .uncorrectableCodeword _ _ => execUncorrectableCodeword_kept _ _ h
  | .directModeAck _ _ => execDirectModeAck_kept _ _ h
  | .pfcPauseExpiry _ _ => execPfcPauseExpiry_kept _ _ h
  | .ptpIntervalTimer _ _ => execPtpIntervalTimer_kept _ _ h
  | .traceRecordSent => execTraceRecordSent_kept h

/-- Settles O59, by the rule of each command. -/
theorem commandKeeps : Obligations.CommandKeeps := by
  unfold Obligations.CommandKeeps
  intro c s t hexec
  have hkept := (exec_kept (kept_refl (q := False) False.elim) c).ok t hexec
  exact (kept_iff.1 hkept).1

/-- Settles O58: a step is a command in the state without it, or a tick. -/
theorem stepKeepsShape : Obligations.StepKeepsShape := by
  unfold Obligations.StepKeepsShape
  intro s t hshape hstep
  unfold step at hstep
  split at hstep
  case h_1 =>
    cases hstep
    exact (kept_iff.1 (tick_kept (kept_refl (q := True) fun _ => hshape))).2 trivial
  case h_2 c rest hpending =>
    have hrest : State.Shape { s with pending := rest } := { hshape with }
    have hkept := (exec_kept (kept_refl (q := True) fun _ => hrest) c).ok t hstep
    exact (kept_iff.1 hkept).2 trivial

end Sys2Proof.Machine
end

section
/-! A step takes the command at the front of the queue (O55), and the state after reset (O57). -/

namespace Sys2Proof.Machine

/-- Settles O55. -/
theorem stepTakesFront : Obligations.StepTakesFront := by
  unfold Obligations.StepTakesFront
  constructor
  · intro c rest s hpending
    rw [step, hpending]
  · intro s hpending
    rw [step, hpending]

/-! ### Reset -/

/-- With nothing retired, every slot of a region is good. -/
@[simp] theorem goodSlots_nil (g : Nat) : goodSlots [] g = List.range 13 := by
  simp [goodSlots]

theorem State.shape_reset : State.reset.Shape where
  bytes := rfl
  unitMeta := rfl
  job := by decide
  step := by decide
  ports := rfl
  map := by simp [State.reset, mapAtReset]
  regions := by simp [State.reset, mapAtReset]
  res := by simp [State.reset, halterAtReset, resAtReset]
  evc := by simp [State.reset, halterAtReset, evcAtReset]
  cores := rfl
  sites := List.length_replicate ..
  power := rfl
  dies := rfl
  stk := rfl

theorem State.nth_map_reset (k : TileIx) (d : MapEntry) :
    nth State.reset.pkg.map k.val d = { slot := k.val % 12, st := 0, epoch := 0 } := by
  simp only [State.reset, mapAtReset]
  rw [nth_range _ _ _ _ k.isLt, goodSlots_nil, List.getElem?_range (by omega)]

theorem State.nth_regions_reset (g : RegionIx) (d : RegionSlots) : nth State.reset.pkg.regions g.val d = { spare := 12 } := by
  simp only [State.reset, mapAtReset]
  rw [nth_range _ _ _ _ g.isLt, goodSlots_nil]
  rfl

/-- Settles O57. -/
theorem resetState : Obligations.ResetState := by
  unfold Obligations.ResetState
  refine ⟨State.shape_reset, rfl, rfl, rfl, rfl, rfl, rfl, rfl, rfl, rfl, rfl, fun k => State.nth_map_reset k _, fun g => ?spare,
    by decide, fun k => ⟨rfl, rfl⟩⟩
  case spare => rw [State.nth_regions_reset]

end Sys2Proof.Machine
end

section
/-! Every command completes (O56). -/

namespace Sys2Proof.Machine

/-- An answer is a next state. -/
def Completes (o : Out) : Prop := ∃ t, o = .next t

theorem Completes.next (s : State) : Completes (.next s) := ⟨s, rfl⟩

theorem Completes.ite {c : Prop} [Decidable c] {x y : Out} (hx : Completes x) (hy : Completes y) :
    Completes (if c then x else y) := by split <;> assumption

/-! ### The shared rows -/

theorem completes_issueRow (k a op : Nat) (s : State) : Completes (issueRow k a op s) :=
  .ite (.next _) (.next _)

theorem completes_vecRow {k : Nat} {i : Vi} {s : State} {bad : Bool} {run : State → State} {sram : Sram} {stalls : Bool} :
    Completes (vecRow k i s bad run sram stalls) :=
  .ite (.next _) (.ite (.next _) (.ite (.next _) (.next _)))

theorem completes_rxPacket {s : State} {p : Pkt} {f : State → Out} (h : ∀ t, Completes (f t)) : Completes (s.rxPacket p f) :=
  .ite (.next _) (h _)

theorem completes_tlRow (op : Nat) (p : Pkt) (busy : Bool) (errs : List UnitErr) (s : State) :
    Completes (tlRow op p busy errs s) := by
  unfold tlRow
  extract_lets q
  refine completes_rxPacket fun t => .ite (.next _) ?_
  extract_lets u
  exact .ite (.next _) (.ite (.next _) (.ite (.next _) (.next _)))

theorem completes_msgRow {op : Nat} {m : Msg} {p : Pkt} {stale act : State → State} {s : State} :
    Completes (msgRow op m p stale act s) := by
  unfold msgRow
  extract_lets q
  refine .ite (.next _) (completes_rxPacket fun t => .ite (.next _) ?_)
  extract_lets u fresh v
  exact .ite (.next _) (.ite (.next _) (.ite (.next _) (.next _)))

section
variable (s : State)

theorem completes_tlResponse (p : Pkt) : Completes (execTlResponse p s) := by
  refine completes_rxPacket fun t => .ite (.next _) ?_
  repeat' first | exact .next _ | apply Completes.ite | extract_lets | split

theorem completes_ledgerReport (p : Pkt) (step attempt : Nat) (m : LedgerMsg) :
    Completes (execLedgerReport p step attempt m s) := by
  unfold execLedgerReport ledgerRow
  exact completes_msgRow

/-! ### Commands that branch on what they find in the state -/

theorem completes_arrayCmdStart (t : TileIx) (cols : List ColErr) (accBad : BitVec 8) (sram : Sram) :
    Completes (execArrayCmdStart t cols accBad sram s) := by
  unfold execArrayCmdStart
  repeat' split
  all_goals exact .next _

theorem completes_drainUnitStart (t : TileIx) (stop : Option Nat) (accBad : BitVec 8) (sram : Sram) (adds : List AddErr) :
    Completes (execDrainUnitStart t stop accBad sram adds s) := by
  unfold execDrainUnitStart
  repeat' first | exact .next _ | apply Completes.ite | split

theorem completes_arrayCmdDone (t : TileIx) : Completes (execArrayCmdDone t s) := by
  unfold execArrayCmdDone
  split <;> exact .next _

theorem completes_drainUnitDone (t : TileIx) (sumBad : Bool) : Completes (execDrainUnitDone t sumBad s) := by
  unfold execDrainUnitDone
  split <;> exact .next _

theorem completes_barrierDone (t : TileIx) : Completes (execBarrierDone t s) := by
  unfold execBarrierDone
  repeat' split
  all_goals exact .next _

theorem completes_drainResume (t : TileIx) (stop : Option Nat) (sram : Sram) (adds : List AddErr) :
    Completes (execDrainResume t stop sram adds s) := by
  unfold execDrainResume
  repeat' split
  all_goals exact .next _

theorem completes_sequencerResume (t : TileIx) : Completes (execSequencerResume t s) := by
  unfold execSequencerResume
  repeat' split
  all_goals exact .next _

theorem completes_carouselMoveDone (g : RegionIx) : Completes (execCarouselMoveDone g s) := by
  unfold execCarouselMoveDone
  split <;> exact .next _

theorem completes_spareSelfTest (g : RegionIx) (cols : List (Fin 130)) : Completes (execSpareSelfTest g cols s) := by
  unfold execSpareSelfTest
  split <;> exact .next _

theorem completes_pannierCmdStart (t : TileIx) (sram : Sram) : Completes (execPannierCmdStart t sram s) := by
  unfold execPannierCmdStart
  repeat' first | exact .next _ | apply Completes.ite | split

theorem completes_pushDone (t : TileIx) : Completes (execPushDone t s) := by
  unfold execPushDone
  repeat' split
  all_goals exact .next _

theorem completes_popDone (t : TileIx) : Completes (execPopDone t s) := by
  unfold execPopDone
  repeat' first | exact .next _ | apply Completes.ite | extract_lets | split

theorem completes_spillDone (t : TileIx) : Completes (execSpillDone t s) := by
  unfold execSpillDone
  repeat' first | exact .next _ | apply Completes.ite | extract_lets | split

theorem completes_restoreDone (t : TileIx) (ok : Bool) (far : List Byte) : Completes (execRestoreDone t ok far s) := by
  unfold execRestoreDone
  repeat' first | exact .next _ | apply Completes.ite | extract_lets | split

theorem completes_popGraceExpiry (t : TileIx) : Completes (execPopGraceExpiry t s) := by
  unfold execPopGraceExpiry
  repeat' split
  all_goals exact .next _

theorem completes_snapshotCopyDone : Completes (execSnapshotCopyDone s) := by
  unfold execSnapshotCopyDone
  repeat' split
  all_goals exact .next _

theorem completes_snapshotTimeout : Completes (execSnapshotTimeout s) := by
  unfold execSnapshotTimeout
  repeat' split
  all_goals exact .next _

theorem completes_vldqResume (t : TileIx) : Completes (execVldqResume t s) := by
  unfold execVldqResume
  split <;> exact .next _

theorem completes_noticeDue (g : RegionIx) : Completes (execNoticeDue g s) := by
  unfold execNoticeDue
  split <;> exact .next _

theorem completes_boostStart (g : RegionIx) : Completes (execBoostStart g s) := by
  unfold execBoostStart
  split <;> exact .next _

theorem completes_boostEnd (g : RegionIx) : Completes (execBoostEnd g s) := by
  unfold execBoostEnd
  repeat' split
  all_goals exact .next _

theorem completes_heartbeatTimer : Completes (execHeartbeatTimer s) := by
  unfold execHeartbeatTimer
  repeat' split
  all_goals exact .next _

theorem completes_pageRetireDone (m : ChanIx) : Completes (execPageRetireDone m s) := by
  unfold execPageRetireDone
  repeat' first | exact .next _ | apply Completes.ite | split

theorem completes_promote : Completes (execPromote s) := by
  unfold execPromote
  repeat' split
  all_goals exact .next _

theorem completes_promoteGranule (p : BitVec 21) : Completes (execPromoteGranule p s) := by
  unfold execPromoteGranule
  repeat' first | exact .next _ | apply Completes.ite | extract_lets | split

theorem completes_promoteAbandon (p : BitVec 21) : Completes (execPromoteAbandon p s) := by
  unfold execPromoteAbandon
  repeat' first | exact .next _ | apply Completes.ite | extract_lets | split

theorem completes_evict : Completes (execEvict s) := by
  unfold execEvict
  repeat' split
  all_goals exact .next _

theorem completes_evictDone (p : BitVec 21) : Completes (execEvictDone p s) := by
  unfold execEvictDone
  repeat' first | exact .next _ | apply Completes.ite | extract_lets | split

theorem completes_evictAbandon (p : BitVec 21) : Completes (execEvictAbandon p s) := by
  unfold execEvictAbandon
  repeat' first | exact .next _ | apply Completes.ite | extract_lets | split

theorem completes_writebackAck (num : Nat) : Completes (execWritebackAck num s) := by
  unfold execWritebackAck
  repeat' split
  all_goals exact .next _

theorem completes_buddyForwardAck (num : Nat) : Completes (execBuddyForwardAck num s) := by
  unfold execBuddyForwardAck
  repeat' split
  all_goals exact .next _

theorem completes_buddyPoison (src : Nat) (off : BitVec 44) : Completes (execBuddyPoison src off s) := by
  unfold execBuddyPoison
  split <;> exact .next _

theorem completes_streamDataDone (t : TileIx) (i : Fin 16) : Completes (execStreamDataDone t i s) := by
  unfold execStreamDataDone
  repeat' split
  all_goals exact .next _

theorem completes_streamDeadline (t : TileIx) (i : Fin 16) : Completes (execStreamDeadline t i s) := by
  unfold execStreamDeadline
  repeat' split
  all_goals exact .next _

theorem completes_streamStaleCopyDone (t : TileIx) (i : Fin 16) : Completes (execStreamStaleCopyDone t i s) := by
  unfold execStreamStaleCopyDone
  repeat' first | exact .next _ | apply Completes.ite | split

theorem completes_rtoExpiry (num : Nat) : Completes (execRtoExpiry num s) := by
  unfold execRtoExpiry
  repeat' split
  all_goals exact .next _

theorem completes_reachTimeout (num : Nat) : Completes (execReachTimeout num s) := by
  unfold execReachTimeout
  repeat' split
  all_goals exact .next _

theorem completes_retryAfterExpiry (num : Nat) : Completes (execRetryAfterExpiry num s) := by
  unfold execRetryAfterExpiry
  repeat' split
  all_goals exact .next _

theorem completes_tokenExpiry (token : BitVec 16) : Completes (execTokenExpiry token s) := by
  unfold execTokenExpiry
  repeat' split
  all_goals exact .next _

theorem completes_combineFlush : Completes (execCombineFlush s) := by
  unfold execCombineFlush
  repeat' split
  all_goals exact .next _

theorem completes_fabricCmdStart (t : TileIx) (sram : Sram) : Completes (execFabricCmdStart t sram s) := by
  unfold execFabricCmdStart
  repeat' first | exact .next _ | apply Completes.ite | split

theorem completes_copyDone (t : TileIx) (i : Fin 16) (engines : List (Fin 16)) (spoiled : Bool) :
    Completes (execCopyDone t i engines spoiled s) := by
  unfold execCopyDone
  repeat' first | exact .next _ | apply Completes.ite | extract_lets | split

theorem completes_ctrWaitDone (t : TileIx) (i : Fin 16) : Completes (execCtrWaitDone t i s) := by
  unfold execCtrWaitDone
  repeat' split
  all_goals exact .next _

theorem completes_ctrWaitTimeout (t : TileIx) (i : Fin 16) : Completes (execCtrWaitTimeout t i s) := by
  unfold execCtrWaitTimeout
  repeat' split
  all_goals exact .next _

theorem completes_fenceDone (t : TileIx) (i : Fin 16) : Completes (execFenceDone t i s) := by
  unfold execFenceDone
  repeat' split
  all_goals exact .next _

theorem completes_remoteDone (t : TileIx) (i : Fin 16) : Completes (execRemoteDone t i s) := by
  unfold execRemoteDone
  repeat' split
  all_goals exact .next _

theorem completes_neighborSolicitation (p : PortIx) (f : Frame) (target : List Byte) :
    Completes (execNeighborSolicitation p f target s) := by
  unfold execNeighborSolicitation
  repeat' first | exact .next _ | apply Completes.ite | split

theorem completes_icmpEchoRequest (p : PortIx) (f : Frame) (body : List Byte) :
    Completes (execIcmpEchoRequest p f body s) := by
  unfold execIcmpEchoRequest
  repeat' first | exact .next _ | apply Completes.ite | split

theorem completes_lldpReceive (p : PortIx) (tlv : Option (List Byte)) (len : Nat) :
    Completes (execLldpReceive p tlv len s) := by
  unfold execLldpReceive
  repeat' split
  all_goals exact .next _

theorem completes_lldpNeighborExpiry (p : PortIx) : Completes (execLldpNeighborExpiry p s) := by
  unfold execLldpNeighborExpiry
  repeat' split
  all_goals exact .next _

theorem completes_linkBringUp (p : PortIx) (sh2 : Bool) : Completes (execLinkBringUp p sh2 s) := by
  unfold execLinkBringUp
  repeat' first | exact .next _ | apply Completes.ite | extract_lets | split

theorem completes_linkTrained (p : PortIx) (delay : Nat) : Completes (execLinkTrained p delay s) := by
  unfold execLinkTrained
  repeat' first | exact .next _ | apply Completes.ite | extract_lets | split

theorem completes_linkTrainFail (p : PortIx) : Completes (execLinkTrainFail p s) := by
  unfold execLinkTrainFail
  repeat' first | exact .next _ | apply Completes.ite | extract_lets | split

theorem completes_ptpEventMessage (p : PortIx) (m : PtpMsg) (domain sub : Nat) (unicast : Option Nat) (len : Nat) :
    Completes (execPtpEventMessage p m domain sub unicast len s) := by
  unfold execPtpEventMessage
  repeat' first | exact .next _ | apply Completes.ite | split

theorem completes_hello (port addr exch flags : Nat) (body : List Byte) :
    Completes (execHello port addr exch flags body s) := by
  unfold execHello
  repeat' first | exact .next _ | apply Completes.ite | split

theorem completes_offerSigned : Completes (execOfferSigned s) := by
  unfold execOfferSigned
  repeat' first | exact .next _ | apply Completes.ite | extract_lets | split

theorem completes_confirm (port addr exch flags : Nat) (body : List Byte) :
    Completes (execConfirm port addr exch flags body s) := by
  unfold execConfirm
  repeat' first | exact .next _ | apply Completes.ite | extract_lets | split

theorem completes_eventAck (h : Hdr) : Completes (execEventAck h s) := by
  unfold execEventAck
  split <;> exact .next _

theorem completes_eventRetransmit (session num : Nat) : Completes (execEventRetransmit session num s) := by
  unfold execEventRetransmit
  repeat' split
  all_goals exact .next _

theorem completes_sessionIdle (session : Nat) : Completes (execSessionIdle session s) := by
  unfold execSessionIdle
  repeat' split
  all_goals exact .next _

theorem completes_decisionDeadline (num : Nat) : Completes (execDecisionDeadline num s) := by
  unfold execDecisionDeadline
  repeat' split
  all_goals exact .next _

theorem completes_funcReinitDone (session seq : Nat) (cols : List (Fin 130)) :
    Completes (execFuncReinitDone session seq cols s) := by
  unfold execFuncReinitDone
  repeat' split
  all_goals exact .next _

theorem completes_powerCycleTimeout : Completes (execPowerCycleTimeout s) := by
  unfold execPowerCycleTimeout
  repeat' split
  all_goals exact .next _

theorem completes_loupePass2 (session seq : Nat) : Completes (execLoupePass2 session seq s) := by
  unfold execLoupePass2
  repeat' first | exact .next _ | apply Completes.ite | extract_lets | split

theorem completes_quoteSigned : Completes (execQuoteSigned s) := by
  unfold execQuoteSigned
  repeat' first | exact .next _ | apply Completes.ite | extract_lets | split

theorem completes_fwStageDone (written : Bool) : Completes (execFwStageDone written s) := by
  unfold execFwStageDone
  repeat' split
  all_goals exact .next _

theorem completes_evcSourceAssert (x : EvcSource) : Completes (execEvcSourceAssert x s) := by
  unfold execEvcSourceAssert
  split <;> exact .next _

theorem completes_clockChange : Completes (execClockChange s) := by
  unfold execClockChange
  repeat' split
  all_goals exact .next _

theorem completes_regionDefer (g : RegionIx) : Completes (execRegionDefer g s) := by
  unfold execRegionDefer
  repeat' split
  all_goals exact .next _

theorem completes_budgetStale : Completes (execBudgetStale s) := by
  unfold execBudgetStale
  repeat' split
  all_goals exact .next _

theorem completes_trayReport (rep : Option (List Byte)) : Completes (execTrayReport rep s) := by
  unfold execTrayReport
  repeat' split
  all_goals exact .next _

theorem completes_coolantRestore : Completes (execCoolantRestore s) := by
  unfold execCoolantRestore
  repeat' split
  all_goals exact .next _

theorem completes_idleActivityAdjust : Completes (execIdleActivityAdjust s) := by
  unfold execIdleActivityAdjust
  repeat' first | exact .next _ | apply Completes.ite

theorem completes_logMove : Completes (execLogMove s) := by
  unfold execLogMove
  repeat' first | exact .next _ | apply Completes.ite | extract_lets | split

theorem completes_imageCheckDone : Completes (execImageCheckDone s) := by
  unfold execImageCheckDone
  repeat' first | exact .next _ | apply Completes.ite | split

theorem completes_trialTimeout : Completes (execTrialTimeout s) := by
  unfold execTrialTimeout
  repeat' split
  all_goals exact .next _

theorem completes_periscopeTimer : Completes (execPeriscopeTimer s) := by
  unfold execPeriscopeTimer
  repeat' first | exact .next _ | apply Completes.ite | split

theorem completes_ppsOutFall : Completes (execPpsOutFall s) := by
  unfold execPpsOutFall
  repeat' split
  all_goals exact .next _

theorem completes_programLoadDone : Completes (execProgramLoadDone s) := by
  unfold execProgramLoadDone
  repeat' split
  all_goals exact .next _

theorem completes_pageTableLoadDone : Completes (execPageTableLoadDone s) := by
  unfold execPageTableLoadDone
  repeat' split
  all_goals exact .next _

theorem completes_rowShadowDone (m : ChanIx) : Completes (execRowShadowDone m s) := by
  unfold execRowShadowDone
  split <;> exact .next _

theorem completes_ptpIntervalTimer (p : PortIx) (w : PtpTimer) : Completes (execPtpIntervalTimer p w s) := by
  unfold execPtpIntervalTimer
  repeat' first | exact .next _ | apply Completes.ite | split

theorem completes_traceRecordSent : Completes (execTraceRecordSent s) := by
  unfold execTraceRecordSent
  repeat' split
  all_goals exact .next _

theorem completes_reservedOpcode {k : TileIx} {vec : Bool} {op : BitVec 8} {a : BitVec 22}
    (h : vec = true → vectorOps.contains op.toNat = false) : Completes (execReservedOpcode k vec op a s) := by
  unfold execReservedOpcode
  refine .ite (.next _) ?_
  cases vec with
  | true =>
    simp only [if_true, h rfl, Bool.false_eq_true, if_false]
    exact .ite (.next _) (.next _)
  | false =>
    simp only [Bool.false_eq_true, if_false]
    exact .ite (.next _) (.next _)

end

/-! ### The dispatch -/

theorem exec_completes (s : State) (c : Instr)
    (h : ∀ k op a, c = .reservedOpcode k true op a → vectorOps.contains op.toNat = false) : Completes (exec c s) := by
  cases c with
  | mm => exact completes_issueRow ..
  | drain => exact completes_issueRow ..
  | topk => exact completes_issueRow ..
  | topkMerge => exact completes_issueRow ..
  | zero => exact completes_issueRow ..
  | barrier => exact completes_issueRow ..
  | arrayCmdStart => exact completes_arrayCmdStart ..
  | drainUnitStart => exact completes_drainUnitStart ..
  | arrayCmdDone => exact completes_arrayCmdDone ..
  | drainUnitDone => exact completes_drainUnitDone ..
  | barrierDone => exact completes_barrierDone ..
  | drainResume => exact completes_drainResume ..
  | sequencerResume => exact completes_sequencerResume ..
  | carouselMoveDone => exact completes_carouselMoveDone ..
  | spareSelfTest => exact completes_spareSelfTest ..
  | meshFlitResend => exact .ite (.next _) (.ite (.next _) (.next _))
  | ucieLinkRetry => exact .ite (.next _) (.ite (.ite (.next _) (.next _)) (.next _))
  | ucieRetrainDone => exact .ite (.next _) (.next _)
  | fmtCntClearCounts => exact .next _
  | fmtCntClearAlloc => exact .next _
  | push => exact completes_issueRow ..
  | pop => exact completes_issueRow ..
  | peek => exact completes_issueRow ..
  | reset => exact completes_issueRow ..
  | pannierCmdStart => exact completes_pannierCmdStart ..
  | pushDone => exact completes_pushDone ..
  | popDone => exact completes_popDone ..
  | spillDone => exact completes_spillDone ..
  | restoreDone => exact completes_restoreDone ..
  | popGraceExpiry => exact completes_popGraceExpiry ..
  | mbDone => exact .next _
  | commit => simp only [exec_commit, execCommit, ledgerRow, completes_msgRow]
  | tandemSwap => exact .ite (.next _) (.next _)
  | swapComplete => exact .ite (.next _) (.next _)
  | repeatOrder => simp only [exec_repeatOrder, execRepeatOrder, ledgerRow, completes_msgRow]
  | repeatDrained => exact .ite (.next _) (.next _)
  | repeatRestart => exact .next _
  | snapshotCopyDone => exact completes_snapshotCopyDone ..
  | snapshotTimeout => exact completes_snapshotTimeout ..
  | vadd => simp only [exec_vadd, execVadd, vec2, completes_vecRow]
  | vsub => simp only [exec_vsub, execVsub, vec2, completes_vecRow]
  | vmul => simp only [exec_vmul, execVmul, vec2, completes_vecRow]
  | vfma => simp only [exec_vfma, execVfma, completes_vecRow]
  | vmax => simp only [exec_vmax, execVmax, vec2, completes_vecRow]
  | vmin => simp only [exec_vmin, execVmin, vec2, completes_vecRow]
  | vabs => simp only [exec_vabs, execVabs, vec1, completes_vecRow]
  | vneg => simp only [exec_vneg, execVneg, vec1, completes_vecRow]
  | vrcp => simp only [exec_vrcp, execVrcp, vec1, completes_vecRow]
  | vrsqrt => simp only [exec_vrsqrt, execVrsqrt, vec1, completes_vecRow]
  | vsqrt => simp only [exec_vsqrt, execVsqrt, vec1, completes_vecRow]
  | vexp => simp only [exec_vexp, execVexp, vec1, completes_vecRow]
  | vlog => simp only [exec_vlog, execVlog, vec1, completes_vecRow]
  | vtanh => simp only [exec_vtanh, execVtanh, vec1, completes_vecRow]
  | vsigm => simp only [exec_vsigm, execVsigm, vec1, completes_vecRow]
  | vcmpgt => simp only [exec_vcmpgt, execVcmpgt, vecCmp, completes_vecRow]
  | vcmpge => simp only [exec_vcmpge, execVcmpge, vecCmp, completes_vecRow]
  | vcmpeq => simp only [exec_vcmpeq, execVcmpeq, vecCmp, completes_vecRow]
  | vsel => simp only [exec_vsel, execVsel, completes_vecRow]
  | viadd => simp only [exec_viadd, execViadd, vecInt, completes_vecRow]
  | visub => simp only [exec_visub, execVisub, vecInt, completes_vecRow]
  | vand => simp only [exec_vand, execVand, vecInt, completes_vecRow]
  | vor => simp only [exec_vor, execVor, vecInt, completes_vecRow]
  | vxor => simp only [exec_vxor, execVxor, vecInt, completes_vecRow]
  | vshl => simp only [exec_vshl, execVshl, vecInt, completes_vecRow]
  | vshr => simp only [exec_vshr, execVshr, vecInt, completes_vecRow]
  | vimul => simp only [exec_vimul, execVimul, vecInt, completes_vecRow]
  | vmov => simp only [exec_vmov, execVmov, completes_vecRow]
  | vlane => simp only [exec_vlane, execVlane, completes_vecRow]
  | vcvt => simp only [exec_vcvt, execVcvt, completes_vecRow]
  | vpack => simp only [exec_vpack, execVpack, completes_vecRow]
  | vunpk => simp only [exec_vunpk, execVunpk, completes_vecRow]
  | vrsum => simp only [exec_vrsum, execVrsum, completes_vecRow]
  | vrmax => simp only [exec_vrmax, execVrmax, completes_vecRow]
  | vrand => simp only [exec_vrand, execVrand, completes_vecRow]
  | vdmask => simp only [exec_vdmask, execVdmask, completes_vecRow]
  | vmsel => simp only [exec_vmsel, execVmsel, completes_vecRow]
  | vld => simp only [exec_vld, execVld, completes_vecRow]
  | vst => simp only [exec_vst, execVst, completes_vecRow]
  | vldbc => simp only [exec_vldbc, execVldbc, completes_vecRow]
  | vldq => simp only [exec_vldq, execVldq, completes_vecRow]
  | vldqResume => exact completes_vldqResume ..
  | vfence => simp only [exec_vfence, execVfence, completes_vecRow]
  | vfenceDone => exact .ite (.next _) (.next _)
  | vfmt => simp only [exec_vfmt, execVfmt, completes_vecRow]
  | venc => simp only [exec_venc, execVenc, completes_vecRow]
  | vdec => simp only [exec_vdec, execVdec, completes_vecRow]
  | rowf => simp only [exec_rowf, execRowf, rowInstr, completes_vecRow]
  | rowr => simp only [exec_rowr, execRowr, rowInstr, completes_vecRow]
  | rowInstrDone => exact .next _
  | hint => simp only [exec_hint, execHint, completes_vecRow]
  | noticeDue => exact completes_noticeDue ..
  | boostStart => exact completes_boostStart ..
  | boostEnd => exact completes_boostEnd ..
  | reduce => simp only [exec_reduce, execReduce, completes_msgRow]
  | reduceEnd => simp only [exec_reduceEnd, execReduceEnd, completes_msgRow]
  | reduceResult => simp only [exec_reduceResult, execReduceResult, completes_msgRow]
  | creditReturn => exact .ite (.next _) (.next _)
  | ledgerReport => exact completes_ledgerReport ..
  | ledgerRepeatRequest => simp only [exec_ledgerRepeatRequest, execLedgerRepeatRequest, ledgerRow, completes_msgRow]
  | resultBad => simp only [exec_resultBad, execResultBad, ledgerRow, completes_msgRow]
  | beatTimer => exact .next _
  | ledgerBeat => simp only [exec_ledgerBeat, execLedgerBeat, completes_msgRow]
  | beatTimeout => exact .ite (.next _) (.next _)
  | hardLimitExpiry => exact .ite (.next _) (.next _)
  | standbyDecision => simp only [exec_standbyDecision, execStandbyDecision, ledgerRow, completes_msgRow]
  | standbyAck => simp only [exec_standbyAck, execStandbyAck, ledgerRow, completes_msgRow]
  | heartbeatTimer => exact completes_heartbeatTimer ..
  | heartbeat => simp only [exec_heartbeat, execHeartbeat, ledgerRow, completes_msgRow]
  | standbyTakeover => exact .ite (.next _) (.ite (.next _) (.ite (.next _) (.next _)))
  | pageRetireDone => exact completes_pageRetireDone ..
  | relayoutDone => exact .ite (.next _) (.ite (.next _) (.next _))
  | hbmInterfaceError => exact .ite (.next _) (.ite (.next _) (.ite (.next _) (.next _)))
  | channelRetrainDone => exact .ite (.next _) (.next _)
  | scrubRead => exact .ite (.next _) (.ite (.next _) (.next _))
  | hbmTempRead => exact .next _
  | hbmRefresh => exact .next _
  | heatEpoch => exact .ite (.next _) (.next _)
  | promote => exact completes_promote ..
  | promoteGranule => exact completes_promoteGranule ..
  | promoteAbandon => exact completes_promoteAbandon ..
  | evict => exact completes_evict ..
  | evictDone => exact completes_evictDone ..
  | evictAbandon => exact completes_evictAbandon ..
  | writebackAge => exact .ite (.next _) (.next _)
  | writebackAck => exact completes_writebackAck ..
  | buddyForwardAck => exact completes_buddyForwardAck ..
  | buddyTimeout => exact .ite (.next _) (.next _)
  | buddyPoison => exact completes_buddyPoison ..
  | reseedDone => exact .ite (.next _) (.next _)
  | stream => exact completes_issueRow ..
  | streamDataDone => exact completes_streamDataDone ..
  | streamDeadline => exact completes_streamDeadline ..
  | streamStaleCopyDone => exact completes_streamStaleCopyDone ..
  | tlRead => simp only [exec_tlRead, execTlRead, completes_tlRow]
  | tlWrite => simp only [exec_tlWrite, execTlWrite, completes_tlRow]
  | tlAdd => simp only [exec_tlAdd, execTlAdd, completes_tlRow]
  | tlMin => simp only [exec_tlMin, execTlMin, completes_tlRow]
  | tlMax => simp only [exec_tlMax, execTlMax, completes_tlRow]
  | tlCas => simp only [exec_tlCas, execTlCas, completes_tlRow]
  | tlInval => simp only [exec_tlInval, execTlInval, completes_tlRow]
  | tlResponse => exact completes_tlResponse ..
  | rtoExpiry => exact completes_rtoExpiry ..
  | reachTimeout => exact completes_reachTimeout ..
  | retryAfterExpiry => exact completes_retryAfterExpiry ..
  | tokenExpiry => exact completes_tokenExpiry ..
  | combineFlush => exact completes_combineFlush ..
  | copy => exact completes_issueRow ..
  | ctrWait => exact completes_issueRow ..
  | fence => exact completes_issueRow ..
  | remote => exact completes_issueRow ..
  | fabricCmdStart => exact completes_fabricCmdStart ..
  | copyDone => exact completes_copyDone ..
  | ctrWaitDone => exact completes_ctrWaitDone ..
  | ctrWaitTimeout => exact completes_ctrWaitTimeout ..
  | fenceDone => exact completes_fenceDone ..
  | remoteDone => exact completes_remoteDone ..
  | frameDiscard => exact .ite (.next _) (.ite (.next _) (.next _))
  | arpRequest => exact .ite (.next _) (.ite (.next _) (.next _))
  | neighborSolicitation => exact completes_neighborSolicitation ..
  | icmpEchoRequest => exact completes_icmpEchoRequest ..
  | pfcReceive => exact .ite (.next _) (.next _)
  | lldpReceive => exact completes_lldpReceive ..
  | lldpTransmit => exact .ite (.next _) (.next _)
  | lldpNeighborExpiry => exact completes_lldpNeighborExpiry ..
  | linkBringUp => exact completes_linkBringUp ..
  | linkTrained => exact completes_linkTrained ..
  | linkTrainFail => exact completes_linkTrainFail ..
  | laneLossOfLock => exact .ite (.next _) (.next _)
  | laneSerWindow => exact .ite (.next _) (.next _)
  | directReplay => exact .ite (.next _) (.ite (.next _) (.next _))
  | ptpEventMessage => exact completes_ptpEventMessage ..
  | timeSourceSilence => exact .ite (.next _) (.next _)
  | hello => exact completes_hello ..
  | offerSigned => exact completes_offerSigned ..
  | confirm => exact completes_confirm ..
  | exchangeTimeout => exact .next _
  | eventAck => exact completes_eventAck ..
  | eventRetransmit => exact completes_eventRetransmit ..
  | sessionIdle => exact completes_sessionIdle ..
  | decisionDeadline => exact completes_decisionDeadline ..
  | nop => exact .next _
  | sessionClose => exact .next _
  | eventSubscribe => exact .next _
  | modeSet => exact .next _
  | repairDecide => exact .next _
  | tierMove => exact .next _
  | spareDecide => exact .next _
  | splitDecide => exact .next _
  | routeSet => exact .next _
  | leadDecide => exact .next _
  | logDrainDecide => exact .next _
  | resAcquire => exact .next _
  | resRelease => exact .next _
  | resReleaseDone => exact .ite (.next _) (.next _)
  | resQuery => exact .next _
  | gpioSet => exact .next _
  | gpioGet => exact .next _
  | timerSet => exact .next _
  | capSet => exact .next _
  | siteBudget => exact .next _
  | funcReinit => exact .next _
  | funcReinitDone => exact completes_funcReinitDone ..
  | devReset => exact .next _
  | trayPowerCycle => exact .next _
  | powerCycleTimeout => exact completes_powerCycleTimeout ..
  | memRead => exact .next _
  | memWrite => exact .next _
  | ctlRead => exact .next _
  | programLoad => exact .next _
  | tandemSet => exact .next _
  | tagTableLoad => exact .next _
  | pageTableLoad => exact .next _
  | pageSet => exact .next _
  | jobStart => exact .next _
  | jobStop => exact .next _
  | jobRetry => exact .next _
  | jobUnload => exact .next _
  | tierPin => exact .next _
  | tierFlush => exact .next _
  | tierBuddy => exact .next _
  | snapshotShip => exact .next _
  | paramSet => exact .next _
  | logRead => exact .next _
  | logAck => exact .next _
  | info => exact .next _
  | periscopeSet => exact .next _
  | loupeReport => exact .next _
  | loupePass2 => exact completes_loupePass2 ..
  | quote => exact .next _
  | quoteSigned => exact completes_quoteSigned ..
  | fwStage => exact .next _
  | fwStageDone => exact completes_fwStageDone ..
  | fwActivate => exact .next _
  | devNumberSet => exact .next _
  | teamLoad => exact .next _
  | standbySet => exact .next _
  | regionTableLoad => exact .next _
  | regionSet => exact .next _
  | pathTableLoad => exact .next _
  | groupLoad => exact .next _
  | portSet => exact .next _
  | portReset => exact .next _
  | evcSourceAssert => exact completes_evcSourceAssert ..
  | evcRouteWrite => exact .ite (.next _) (.next _)
  | corePowerDown => exact .ite (.next _) (.next _)
  | coreWake => exact .ite (.next _) (.ite (.next _) (.next _))
  | vinSample => exact .ite (.next _) (.ite (.next _) (.next _))
  | powerSample => exact .next _
  | phaseCheck => exact .next _
  | phaseReenable => exact .ite (.next _) (.next _)
  | reinInterval => exact .next _
  | fastLimiter => exact .ite (.next _) (.ite (.next _) (.next _))
  | vlogicReport => exact .next _
  | clockChange => exact completes_clockChange ..
  | droopTrip => exact .next _
  | droopClear => exact .next _
  | stretchReturn => exact .ite (.next _) (.ite (.next _) (.next _))
  | vminRead => exact .next _
  | regionAdmitTest => exact .ite (.next _) (.next _)
  | regionPowerOnDone => exact .ite (.next _) (.next _)
  | regionDefer => exact completes_regionDefer ..
  | regionPowerOff => exact .ite (.next _) (.next _)
  | vrAlertFall => exact .ite (.next _) (.next _)
  | regAlert => exact .ite (.next _) (.next _)
  | alertForceEnd => exact .ite (.next _) (.next _)
  | budgetStale => exact completes_budgetStale ..
  | sensorConversion => exact .next _
  | trayReport => exact completes_trayReport ..
  | trayRequestRefresh => exact .next _
  | coolantLimitUpdate => exact .ite (.next _) (.next _)
  | flowPulse => exact .ite (.next _) (.next _)
  | pumpFailInput => exact .ite (.next _) (.next _)
  | coolantRestore => exact completes_coolantRestore ..
  | thermalTrip => exact .ite (.next _) (.next _)
  | warmFloorCheck => exact .ite (.next _) (.ite (.next _) (.next _))
  | idleActivityAdjust => exact completes_idleActivityAdjust ..
  | refclkLoss => exact .ite (.next _) (.next _)
  | timeclkLoss => exact .ite (.next _) (.next _)
  | timeclkReturn => exact .ite (.next _) (.next _)
  | ppsInEdge => exact .ite (.next _) (.next _)
  | ppsOutEdge => exact .ite (.next _) (.next _)
  | logMove => exact completes_logMove ..
  | dorlenWatchdog => exact .ite (.next _) (.ite (.next _) (.next _))
  | groomWatchdog => exact .next _
  | vauxUp => exact .ite (.next _) (.next _)
  | vauxFall => exact .next _
  | rstNAssert => exact .ite (.next _) (.next _)
  | rstNDeassert => exact .ite (.next _) (.ite (.next _) (.next _))
  | pwrgdRise => exact .next _
  | pwrgdFall => exact .next _
  | imageCheckDone => exact completes_imageCheckDone ..
  | hbmTrainingDone => exact .ite (.next _) (.next _)
  | akReady => exact .ite (.next _) (.next _)
  | ready => exact .ite (.next _) (.next _)
  | trialTimeout => exact completes_trialTimeout ..
  | opsClearTiles => exact .next _
  | opsClearDevice => exact .next _
  | periscopeTimer => exact completes_periscopeTimer ..
  | periscopePin => exact .ite (.next _) (.next _)
  | registerWrite => exact .next _
  | bootSelSample => exact .ite (.next _) (.next _)
  | refclkReturn => exact .next _
  | vrAlertRise => exact .ite (.next _) (.next _)
  | ppsOutFall => exact completes_ppsOutFall ..
  | programLoadDone => exact completes_programLoadDone ..
  | pageTableLoadDone => exact completes_pageTableLoadDone ..
  | leadAnnounce => simp only [exec_leadAnnounce, execLeadAnnounce, ledgerRow, completes_msgRow]
  | jobOrderReceived => simp only [exec_jobOrderReceived, execJobOrderReceived, ledgerRow, completes_msgRow]
  | logDrainRequest => exact .ite (.next _) (.next _)
  | halterMessageDiscard => exact .next _
  | halterUnknownCode => exact .ite (.next _) (.next _)
  | reservedOpcode k vec op a => exact completes_reservedOpcode s fun hvec => h k op a (by rw [hvec])
  | rowShadowDone => exact completes_rowShadowDone ..
  | homeQueueRelease => exact .next _
  | uncorrectableCodeword => exact .ite (.next _) (.next _)
  | directModeAck => exact .ite (.next _) (.next _)
  | pfcPauseExpiry => exact .ite (.next _) (.next _)
  | ptpIntervalTimer => exact completes_ptpIntervalTimer ..
  | traceRecordSent => exact completes_traceRecordSent ..

/-- Settles O56: the dispatch of commands that complete, and RESERVED_OPCODE on a vector opcode of R282. -/
theorem everyCommandCompletes : Obligations.EveryCommandCompletes := by
  unfold Obligations.EveryCommandCompletes
  refine ⟨fun c s h => exec_completes s c h, fun k op a s hop => ?_⟩
  simp only [exec_reservedOpcode, execReservedOpcode, hop]
  cases s.mayIssue k.val <;> rfl

end Sys2Proof.Machine
end

section
/-! The rows of the vector tables (R282 to R285): each is the row of its lane function (O1, O2). -/

namespace Sys2Proof.Machine

/-- A table row is run by the shared operation of lane rows: for all operands its command is `vecRow` with the row's check
and its lane function. -/
def LaneRow.Runs (r : LaneRow) : Prop :=
  ∀ (k : TileIx) (w : BitVec 56) (s : State),
    let i : Vi := ⟨r.op, w⟩
    exec (r.cmd k w) s = vecRow k.val i s (i.bad r.types r.uses) fun s => s.lanes3 k.val i (r.flop i.ty) (r.f i.ty)

theorem LaneRow.Runs.holds {r : LaneRow} (h : r.Runs) : r.holds := by
  intro k w s hi hr hb
  exact does_vec (h k w s) hi hr hb (lanes3_spec s k.val _ _ _)

theorem runs_arithRows : ∀ r ∈ arithRows, r.Runs := by
  simp only [arithRows, List.forall_mem_cons]
  refine ⟨?_, ?_, ?_, ?_, ?_, ?_, ?_, ?_, List.forall_mem_nil _⟩ <;> exact fun k w s => rfl

theorem runs_functionRows : ∀ r ∈ functionRows, r.Runs := by
  simp only [functionRows, List.forall_mem_cons]
  refine ⟨?_, ?_, ?_, ?_, ?_, ?_, ?_, List.forall_mem_nil _⟩ <;> exact fun k w s => rfl

theorem runs_compareRows : ∀ r ∈ compareRows, r.Runs := by
  simp only [compareRows, List.forall_mem_cons]
  refine ⟨?_, ?_, ?_, ?_, ?_, List.forall_mem_nil _⟩ <;> exact fun k w s => rfl

theorem runs_integerRows : ∀ r ∈ integerRows, r.Runs := by
  simp only [integerRows, List.forall_mem_cons]
  refine ⟨?_, ?_, ?_, ?_, ?_, ?_, ?_, ?_, List.forall_mem_nil _⟩ <;> exact fun k w s => rfl

/-- Settles O1. -/
theorem vectorArithmetic : Obligations.VectorArithmetic := by
  unfold Obligations.VectorArithmetic
  exact ⟨fun r hr => (runs_arithRows r hr).holds, fun r hr => (runs_functionRows r hr).holds⟩

/-- Settles O2. -/
theorem vectorCompareSelect : Obligations.VectorCompareSelect := by
  unfold Obligations.VectorCompareSelect
  exact ⟨fun r hr => (runs_compareRows r hr).holds, fun r hr => (runs_integerRows r hr).holds⟩

end Sys2Proof.Machine
end

section
/-! Frames of the shared operations: which parts of the state each of them can change. -/

namespace Sys2Proof.Machine

/-! ### Sending -/

theorem sendsOnly_iff {s t : State} : SendsOnly s t ↔ ∃ ports txWait sent freeIx,
    t = { s with ports := ports, txWait := txWait, sent := sent, freeIx := freeIx } :=
  ⟨fun h => ⟨_, _, _, _, h⟩, by rintro ⟨_, _, _, _, rfl⟩; rfl⟩

theorem SendsOnly.refl (s : State) : SendsOnly s s := rfl

theorem SendsOnly.trans {s t u : State} (hst : SendsOnly s t) (htu : SendsOnly t u) : SendsOnly s u := by
  obtain ⟨_, _, _, _, rfl⟩ := sendsOnly_iff.1 hst
  obtain ⟨_, _, _, _, rfl⟩ := sendsOnly_iff.1 htu
  rfl

theorem HalterOnly.refl (s : State) : HalterOnly s s := rfl

theorem HalterOnly.trans {s t u : State} (hst : HalterOnly s t) (htu : HalterOnly t u) : HalterOnly s u := by
  obtain ⟨_, _, _, _, _, rfl⟩ := halterOnly_iff.1 hst
  obtain ⟨_, _, _, _, _, rfl⟩ := halterOnly_iff.1 htu
  rfl

theorem SendsOnly.halterOnly {s t : State} (h : SendsOnly s t) : HalterOnly s t := by
  obtain ⟨_, _, _, _, rfl⟩ := sendsOnly_iff.1 h
  rfl

theorem SendsOnly.foldl {α : Type} {f : State → α → State} (hf : ∀ s a, SendsOnly s (f s a)) (l : List α) (s : State) :
    SendsOnly s (l.foldl f s) := by
  induction l generalizing s with
  | nil => exact .refl s
  | cons a l ih => exact (hf s a).trans (ih _)

theorem State.sendOn_sendsOnly (s : State) (p cls len : Nat) (x : Sent) : SendsOnly s (s.sendOn p cls len x) := by
  unfold State.sendOn
  split_ifs <;> rfl

theorem State.sendMsg_sendsOnly (s : State) (x : Sent) : SendsOnly s (s.sendMsg x) := by
  cases x with
  | reply | openMsg => exact s.sendOn_sendsOnly ..
  | event p a =>
    obtain ⟨_, _, _, _, h⟩ := sendsOnly_iff.1 ((s.draw 13).2.sendOn_sendsOnly p 2
      (udpFrame (a % 2 = 1) (48 + (s.draw 13).1)) (.event p a _ _ _ _))
    exact sendsOnly_iff.2 ⟨_, _, _, _, h⟩
  | _ => rfl

/-! ### Events and reports -/

theorem State.raise_halterOnly (s : State) (ev : Event) : HalterOnly s (s.raise ev) := by
  unfold State.raise
  split_ifs
  · rfl
  · exact .trans (t := { s with hal := _ }) rfl (SendsOnly.foldl State.sendMsg_sendsOnly _ _).halterOnly

/-- A report changes at most the error log and what Groom keeps of it. -/
theorem State.report_eq (s : State) (cls unit code inst addr detail flags : Nat) :
    s.report cls unit code inst addr detail flags = { s with
      err := (s.report cls unit code inst addr detail flags).err
      heat := (s.report cls unit code inst addr detail flags).heat } := by
  unfold State.report
  extract_lets groom r
  split_ifs <;> rfl

/-! ### Requests of the fabric -/

/-- From `s` to `t` at most the fabric, the counts of its traffic, and what sending changes. -/
def FabOnly (s t : State) : Prop :=
  t = { s with
    fab := t.fab, ports := t.ports, txWait := t.txWait, sent := t.sent, freeIx := t.freeIx
    obs := { s.obs with fabTx := t.obs.fabTx, fabRx := t.obs.fabRx, fabReqs := t.obs.fabReqs, homeReqs := t.obs.homeReqs } }

theorem fabOnly_iff {s t : State} : FabOnly s t ↔ ∃ fab ports txWait sent freeIx tx rx reqs home, t = { s with
    fab := fab, ports := ports, txWait := txWait, sent := sent, freeIx := freeIx
    obs := { s.obs with fabTx := tx, fabRx := rx, fabReqs := reqs, homeReqs := home } } :=
  ⟨fun h => ⟨_, _, _, _, _, _, _, _, _, h⟩, by rintro ⟨_, _, _, _, _, _, _, _, _, rfl⟩; rfl⟩

theorem FabOnly.refl (s : State) : FabOnly s s := rfl

theorem FabOnly.trans {s t u : State} (hst : FabOnly s t) (htu : FabOnly t u) : FabOnly s u := by
  obtain ⟨_, _, _, _, _, _, _, _, _, rfl⟩ := fabOnly_iff.1 hst
  obtain ⟨_, _, _, _, _, _, _, _, _, rfl⟩ := fabOnly_iff.1 htu
  rfl

theorem SendsOnly.fabOnly {s t : State} (h : SendsOnly s t) : FabOnly s t := by
  obtain ⟨_, _, _, _, rfl⟩ := sendsOnly_iff.1 h
  rfl

theorem State.sendPkt_fabOnly (s : State) (p : Pkt) : FabOnly s (s.sendPkt p) := by
  unfold State.sendPkt
  split
  next k _ => exact .trans (t := s.onPeer p.dst _) rfl (State.sendOn_sendsOnly ..).fabOnly
  next => exact .refl s

theorem FabOnly.withFab (s : State) (f : Fabric) : FabOnly s { s with fab := f } := rfl

theorem FabOnly.withCounts (s : State) (reqs tx : Nat) :
    FabOnly s { s with obs := { s.obs with fabReqs := reqs, fabTx := tx } } := rfl

theorem State.transmit_fabOnly (s : State) (r : Req) : FabOnly s (s.transmit r) := by
  unfold State.transmit
  dsimp only
  split
  · split
    · exact .withFab ..
    · exact .trans (.trans (.withFab ..) (State.sendPkt_fabOnly ..)) (.withCounts ..)
  · exact .withFab ..

theorem State.sendReq_fabOnly (s : State) (dst op addr : Nat) (data : Bytes) (key aux flags aux2 : Nat) (why : Purpose)
    (stamp : Option (Nat × Nat)) (msg : Option Msg) :
    FabOnly s (s.sendReq dst op addr data key aux flags aux2 why stamp msg) := by
  unfold State.sendReq
  extract_lets p num st pkt blocked route r s1
  have h1 : FabOnly s s1 := by
    unfold s1
    split
    · exact .withFab ..
    · exact .refl s
  clear_value s1 r blocked
  split
  · exact h1.trans (.withFab ..)
  · exact .trans (h1.trans (.withFab ..)) (State.transmit_fabOnly ..)

theorem State.say_fabOnly (s : State) (dst op aux : Nat) (m : Msg) (data : Bytes) (stamped : Bool) :
    FabOnly s (s.say dst op aux m data stamped) := by
  unfold State.say
  split_ifs
  · rfl
  · exact State.sendReq_fabOnly ..

/-! ### Repeats and faults -/

/-- Asking for a repeat changes the step beside what a request of the fabric changes. -/
theorem State.requestRepeat_eq (s : State) (cause : Nat) :
    FabOnly { s with step := (s.requestRepeat cause).step } (s.requestRepeat cause) := by
  unfold State.requestRepeat
  split_ifs
  · rfl
  · obtain ⟨_, _, _, _, _, _, _, _, _, h⟩ := fabOnly_iff.1 (State.say_fabOnly { s with step := { s.step with requested := true } }
      s.red.leadDev 0x41 1 (.ledger [s.fab.device, s.stepNo, s.step.attempt, cause]) [] true)
    rw [h]
    rfl
  · rfl

@[simp] theorem State.tiles_report (s : State) (cls unit code inst addr detail flags : Nat) :
    (s.report cls unit code inst addr detail flags).tiles = s.tiles := by
  rw [State.report_eq]

@[simp] theorem State.tiles_raise (s : State) (ev : Event) : (s.raise ev).tiles = s.tiles := by
  rw [s.raise_halterOnly ev]

@[simp] theorem State.tiles_requestRepeat (s : State) (cause : Nat) : (s.requestRepeat cause).tiles = s.tiles := by
  rw [s.requestRepeat_eq cause]

@[simp] theorem State.tiles_halt (s : State) : s.halt.tiles = s.tiles := by
  unfold State.halt
  split_ifs <;> rfl

/-- Of the tiles, a fault changes the one it is of: its sequencer stops, and what had not begun is dropped. -/
@[simp] theorem State.tiles_fault (s : State) (k code addr op : Nat) : (s.fault k code addr op).tiles =
    (s.onTile k fun x => { x.discard with seq := .fault code, since := s.now }).tiles := by
  unfold State.fault
  extract_lets s1 s2 s3
  have h3 : s3.tiles = s1.tiles := by
    simp only [s3, State.tiles_report, s2]
    split <;> rfl
  split_ifs
  · rw [State.tiles_halt]
    exact (State.tiles_raise ..).trans h3
  · rw [State.tiles_requestRepeat, h3]

theorem State.tile_fault_self (s : State) (k code addr op : Nat) : (s.fault k code addr op).tile k =
    { (s.tile k).discard with seq := .fault code, since := s.now } := by
  rw [State.tile, State.tiles_fault]
  exact State.tile_onTile_self ..

end Sys2Proof.Machine
end

section
/-! Vector instructions: the rules of their fields (O5), and the conversions, reductions and masks (O3). -/

namespace Sys2Proof.Machine

/-! ### What a vector row answers -/

section
variable {k : Nat} {i : Vi} {s : State} {bad : Bool} {run : State → State}

theorem vecRow_of_not_mayIssue (h : s.mayIssue k = false) : vecRow k i s bad run = .next s := by
  simp [vecRow, h]

theorem vecRow_of_rowBusy (h : s.mayIssue k = true) (hr : (s.tile k).rowBusy = true) :
    vecRow k i s bad run = .next (s.vecHold k { op := i.op, w := i.w }) := by
  simp [vecRow, h, hr]

theorem vecRow_of_bad (h : s.mayIssue k = true) (hr : (s.tile k).rowBusy = false) (hb : bad = true) :
    vecRow k i s bad run = .next (s.fault k 0x101 0 i.op) := by
  simp [vecRow, h, hr, hb]

end

theorem runs_laneRows : ∀ r ∈ arithRows ++ functionRows ++ compareRows ++ integerRows, r.Runs := by
  intro r hr
  simp only [List.mem_append] at hr
  obtain ((hr | hr) | hr) | hr := hr
  · exact runs_arithRows r hr
  · exact runs_functionRows r hr
  · exact runs_compareRows r hr
  · exact runs_integerRows r hr

/-- Settles O5: the branches of `vecRow`, and what a fault leaves of its tile. -/
theorem vectorRules : Obligations.VectorRules := by
  unfold Obligations.VectorRules
  intro r hr k w s
  rw [runs_laneRows r hr k w s]
  refine ⟨vecRow_of_not_mayIssue, fun hi hbusy => ⟨vecRow_of_rowBusy hi hbusy, ?_⟩,
    fun hi hbusy hbad => ⟨vecRow_of_bad hi hbusy hbad, ?_, ?_⟩⟩
  · simp [State.vecHold]
  · rw [State.tile_fault_self]
    rfl
  · rw [State.tile_fault_self]

/-! ### Lists of lanes -/

theorem nth_take {α : Type} {l : List α} {n i : Nat} (h : i < n) (d : α) : nth (l.take n) i d = nth l i d := by
  simp [nth, h]

theorem nth_drop {α : Type} (l : List α) (n i : Nat) (d : α) : nth (l.drop n) i d = nth l (i + n) d := by
  simp [nth, List.getElem?_drop, Nat.add_comm]

/-- A map over a list with its indices, read at one of them. -/
theorem nth_map_zipIdx {α β : Type} (f : α × Nat → β) (l : List α) (j : Nat) (a : α) (b : β) (h : j < l.length) :
    nth (l.zipIdx.map f) j b = f (nth l j a, j) := by
  simp [nth, h]

/-- The words of two registers, each with its index. -/
theorem map_zipIdx_words_append {β : Type} (x : Tile) (a b : Nat) (f : Nat × Nat → β) :
    ((x.words a ++ x.words b).zipIdx.map f) =
      (List.range 128).map fun l => f (x.word (if l < 64 then a else b) (l % 64), l) := by
  apply List.ext_getElem (by simp)
  intro l hl _
  have hl : l < 128 := by simpa using hl
  by_cases h : l < 64
  · simp [words_eq, h, Nat.mod_eq_of_lt h]
  · have hmod : l % 64 = l - 64 := by omega
    simp [words_eq, List.getElem_append, h, hmod]

/-! ### Bits of a mask -/

/-- The number whose low `n` bits are those that `p` leaves unset. -/
def maskOf (p : Nat → Bool) (n : Nat) : Nat := (List.range n).foldl (fun a e => if p e then a else a + 2 ^ e) 0

theorem maskOf_succ (p : Nat → Bool) (n : Nat) : maskOf p (n + 1) = if p n then maskOf p n else maskOf p n + 2 ^ n := by
  simp [maskOf, List.range_succ]

theorem maskOf_lt (p : Nat → Bool) (n : Nat) : maskOf p n < 2 ^ n := by
  induction n with
  | zero => simp [maskOf]
  | succ n ih =>
    rw [maskOf_succ, Nat.pow_succ]
    split <;> omega

theorem testBit_maskOf (p : Nat → Bool) {n e : Nat} (h : e < n) : (maskOf p n).testBit e = !p e := by
  induction n with
  | zero => omega
  | succ n ih =>
    rw [maskOf_succ, apply_ite (Nat.testBit · e), Nat.add_comm]
    obtain hlt | rfl := Nat.lt_succ_iff_lt_or_eq.1 h
    · rw [Nat.testBit_two_pow_add_gt hlt, ite_self, ih hlt]
    · rw [Nat.testBit_two_pow_add_eq, Nat.testBit_lt_two_pow (maskOf_lt p e)]
      cases p e <;> rfl

theorem length_bitReg (n : Nat) : (bitReg n).length = 64 := by simp [bitReg]

/-- A register holds a number's bits 32 to the word. -/
theorem bit_nth_bitReg (n : Nat) {e : Nat} (h : e < 2048) : bit (nth (bitReg n) (e / 32) 0) (e % 32) = n.testBit e := by
  rw [bitReg, nth_range _ _ _ _ (by omega), bits, bit, Nat.testBit_mod_two_pow, Nat.testBit_shiftRight, Nat.div_add_mod]
  have : e % 32 < 32 * (e / 32) + 31 + 1 - 32 * (e / 32) := by omega
  simp [this]

/-! ### Conversions, reductions, generators and masks -/

@[simp] theorem State.tile_count (s : State) (a : Nat) (c : EncCounts) (j : Nat) : (s.count a c).tile j = s.tile j := rfl

theorem State.putReg_count (s : State) (k r flop : Nat) (ws : List Nat) (a : Nat) (c : EncCounts) :
    (s.count a c).putReg k r ws flop = (s.putReg k r ws flop).count a c := rfl

/-- A register written after counts have been booked in a counter set. -/
theorem putReg_count_spec (s : State) (k r : Nat) (ws : List Nat) (a : Nat) (c : EncCounts) (hl : ws.length = 64) :
    let t := ((s.tickTile k).count a c).putReg k r ws
    t = { s with tiles := t.tiles, fmt := (s.count a c).fmt } ∧ (∀ j, j ≠ k → t.tile j = s.tile j) ∧
      VecRest (s.tile k) (t.tile k) r 0 ∧ ∀ j, j < 64 → (t.tile k).word r j = nth ws j 0 := by
  obtain ⟨honly, hrest, hword⟩ := putReg_spec s k r ws 0 hl
  simp only [State.putReg_count, State.tile_count]
  refine ⟨?_, honly.others, hrest, hword⟩
  rw [honly.rest]
  rfl

section
variable {k : TileIx} {w : BitVec 56} {s : State} (hi : s.mayIssue k.val = true) (hr : (s.tile k.val).rowBusy = false)
include hi hr

/-- VPACK (R288, R289). -/
theorem does_vpack (hbad : Vi.bad ⟨0x23, w⟩ [0] { va := true, vb := true, imm := true } = false)
    (h7 : bits (Vi.imm ⟨0x23, w⟩) 7 3 = 0) (h31 : bits (Vi.imm ⟨0x23, w⟩) 31 16 = 0) :
    let i : Vi := ⟨0x23, w⟩
    let us := if bit i.imm 0 then (s.tickTile k.val).drawsOf k.val else []
    let enc (l : Nat) : Nat × EncCounts := encodeElem (if bit i.imm 2 then 3 else 2) (rndOf (bit i.imm 0) us l)
      (bit i.imm 1) ((s.tile k.val).word (if l < 64 then i.va else i.vb) (l % 64))
    Does (.vpack k w) s fun t =>
      t = { s with tiles := t.tiles, fmt := t.fmt } ∧ (∀ j, j ≠ k.val → t.tile j = s.tile j) ∧
      VecRest (s.tile k.val) (t.tile k.val) i.vd 0 ∧
      (∀ l, l < 128 → (t.tile k.val).lane 1 i.vd l = (enc l).1 % 65536) ∧
      t.fmt = (s.count (bits i.imm 15 8) ((List.range 128).foldl (fun a l => a.add (enc l).2) {})).fmt := by
  intro i us enc
  refine does_vec (by rw [exec_vpack, execVpack]) hi hr (by simp [hbad, h7, h31]) ?_
  simp only [words_tick, map_zipIdx_words_append, List.foldl_map, List.map_map]
  obtain ⟨hfmt, hothers, hrest, hword⟩ := putReg_count_spec s k.val i.vd
    (wordsOf 1 ((List.range 128).map fun l => (enc l).1)) (bits i.imm 15 8)
    ((List.range 128).foldl (fun a l => a.add (enc l).2) {}) (wordsOf_length 1 _ (by simp [lanesOfTy]))
  refine ⟨hfmt, hothers, hrest, fun l hl => ?_, rfl⟩
  refine (lane_wordsOf _ 1 i.vd l _ hl hword).trans ?_
  rw [nth_range _ _ _ _ hl]
  rfl

/-- VDMASK on FP32 (R292). -/
theorem does_vdmask (hbad : Vi.bad ⟨0x2D, w⟩ tyF { imm := true } = false) (himm : Vi.imm ⟨0x2D, w⟩ < 65536)
    (hty : Vi.ty ⟨0x2D, w⟩ = 0) :
    Does (.vdmask k w) s fun t => TileOnly s t k.val ∧ VecRest (s.tile k.val) (t.tile k.val) (Vi.vd ⟨0x2D, w⟩) 0 ∧
      ∀ e, e < 64 → bit ((t.tile k.val).word (Vi.vd ⟨0x2D, w⟩) (e / 32)) (e % 32) =
        !decide (nth ((s.tickTile k.val).drawsOf k.val) e 0 < Vi.imm ⟨0x2D, w⟩) := by
  refine does_vec (by rw [exec_vdmask, execVdmask]) hi hr (by simp [hbad, Nat.div_eq_of_lt himm]) ?_
  simp only [hty, Nat.zero_ne_one, if_false, Nat.mod_eq_of_lt himm]
  obtain ⟨honly, hrest, hword⟩ := putReg_spec s k.val (Vi.vd ⟨0x2D, w⟩) _ 0 (length_bitReg _)
  refine ⟨honly, hrest, fun e he => ?_⟩
  rw [hword _ (by omega), bit_nth_bitReg _ (by omega)]
  simpa [maskOf] using
    testBit_maskOf (fun e => decide (nth ((s.tickTile k.val).drawsOf k.val) e 0 < Vi.imm ⟨0x2D, w⟩)) he

/-- VMSEL (R293): the lanes whose mask bit is 1. -/
theorem does_vmsel (hbad : Vi.bad ⟨0x2E, w⟩ tyF { va := true, vb := true } = false) :
    let i : Vi := ⟨0x2E, w⟩
    Does (.vmsel k w) s fun t => TileOnly s t k.val ∧ VecRest (s.tile k.val) (t.tile k.val) i.vd 0 ∧
      ∀ l, l < lanesOfTy i.ty → (t.tile k.val).lane i.ty i.vd l = laneFit i.ty
        (if bit ((s.tile k.val).word i.vb (l / 32)) (l % 32) then (s.tile k.val).lane i.ty i.va l else 0) := by
  intro i
  refine does_vec (by rw [exec_vmsel, execVmsel]) hi hr hbad ?_
  simp only [words_tick]
  obtain ⟨honly, hrest, hword⟩ := putReg_spec s k.val i.vd _ 0 (wordsOf_length i.ty
    ((lanesOf i.ty ((s.tile k.val).words i.va)).zipIdx.map fun p =>
      if bit (nth ((s.tile k.val).words i.vb) (p.2 / 32) 0) (p.2 % 32) then p.1 else 0) (by simp))
  refine ⟨honly, hrest, fun l hl => ?_⟩
  have hl128 : l < 128 := hl.trans_le (by unfold lanesOfTy; split <;> omega)
  rw [lane_wordsOf _ _ _ _ _ hl hword, nth_map_zipIdx _ _ _ 0 _ (by simpa using hl), nth_lanes _ _ _ _ hl,
    nth_words _ _ _ (by omega)]

end

/-- A BF16 lane has 16 bits. -/
theorem Tile.lane_one_lt (x : Tile) (r l : Nat) : x.lane 1 r l < 65536 := by
  rw [Tile.lane, if_pos rfl]
  split <;> exact Nat.mod_lt _ (by decide)

/-- Settles O3. -/
theorem vectorConversions : Obligations.VectorConversions := by
  unfold Obligations.VectorConversions
  refine ⟨fun k w s hi hr => ?words, fun k w s hi hr => ⟨?vpack, ?vdmask, ?vmselBf16⟩⟩
  case words =>
    intro x u row
    refine ⟨fun hok => ?vlane, fun hok => ?vcvt, fun hok => ?vunpk, fun hok => ?vrsum, fun hok => ?vrmax, fun hok => ?vrand,
      fun hok => ?vmsel⟩
    case vlane =>
      exact does_put (by rw [exec_vlane, execVlane]) hi hr (by simpa using hok) (by simp) fun j hj => by simp [nth, hj]
    case vcvt =>
      refine does_put (by rw [exec_vcvt, execVcvt]) hi hr (by simpa using hok) (by simp) fun j hj => ?_
      rw [words_tick, nth_map _ _ _ 0 _ (by simpa using hj), nth_words _ _ _ hj]
    case vunpk =>
      have hlength (m : Bool) : (((lanesOf 1 (((s.tickTile k.val).tile k.val).words (Vi.va ⟨0x24, w⟩))).drop
          (if m then 64 else 0)).take 64).length = 64 := by cases m <;> simp [lanesOfTy]
      refine does_put (by rw [exec_vunpk, execVunpk]) hi hr (by simpa using hok) ?_ fun j hj => ?_
      · simp only [List.length_map, hlength]
      · rw [nth_map _ _ _ 0 _ (by simpa only [hlength] using hj), nth_take hj, nth_drop, words_tick,
          nth_lanes _ _ _ _ (by rw [lanesOfTy, if_pos rfl]; split <;> omega)]
    case vrsum =>
      refine does_put (by rw [exec_vrsum, execVrsum]) hi hr (by simpa using hok) (by simp) fun j hj => ?_
      rw [nth_replicate _ _ _ _ hj, words_tick, words_eq]
    case vrmax =>
      refine does_put (by rw [exec_vrmax, execVrmax]) hi hr (by simpa using hok) (by simp) fun j hj => ?_
      rw [nth_replicate _ _ _ _ hj, words_tick, words_eq]
    case vrand =>
      exact does_put (by rw [exec_vrand, execVrand]) hi hr (by simpa using hok) (by simp) fun j hj => nth_range _ _ _ _ hj
    case vmsel =>
      simp only [Bool.and_eq_true, Bool.not_eq_true', beq_iff_eq] at hok
      obtain ⟨t, hexec, honly, hrest, hlane⟩ := does_vmsel hi hr hok.1
      rw [hok.2] at hlane
      exact ⟨t, hexec, honly, hrest, hlane⟩
  case vpack => exact fun hbad h7 h31 => does_vpack hi hr hbad h7 h31
  case vdmask => exact fun hbad himm hty => does_vdmask hi hr hbad himm hty
  case vmselBf16 =>
    intro i hbad hty
    obtain ⟨t, hexec, honly, hrest, hlane⟩ := does_vmsel hi hr hbad
    rw [hty] at hlane
    refine ⟨t, hexec, honly, hrest, fun l hl => (hlane l hl).trans ?_⟩
    rw [laneFit, if_pos rfl, Nat.mod_eq_of_lt]
    split
    · exact Tile.lane_one_lt ..
    · omega

end Sys2Proof.Machine
end

section
/-! Loads and stores of the vector engine (O4): bytes and words of the local store. -/

namespace Sys2Proof.Machine

/-! ### Byte strings -/

theorem bits_lt (x hi lo : Nat) : bits x hi lo < 2 ^ (hi + 1 - lo) := Nat.mod_lt _ (Nat.two_pow_pos _)

@[simp] theorem length_toBytes (n x : Nat) : (toBytes n x).length = n := by
  induction n generalizing x with
  | zero => rfl
  | succ n ih => rw [toBytes, List.length_cons, ih]

theorem nth_toBytes {n j : Nat} (x : Nat) (h : j < n) (d : Byte) : nth (toBytes n x) j d = BitVec.ofNat 8 (x / 256 ^ j) := by
  induction n generalizing x j with
  | zero => omega
  | succ n ih =>
    cases j with
    | zero => simp [toBytes, nth]
    | succ j =>
      have := ih (x / 256) (Nat.lt_of_succ_lt_succ h)
      rw [Nat.div_div_eq_div_mul, ← Nat.pow_succ'] at this
      simpa [toBytes, nth] using this

/-- An element of lists of one length, put together. -/
theorem nth_flatMap {α β : Type} {f : α → List β} {m : Nat} (hf : ∀ a, (f a).length = m) (l : List α) {j b : Nat} (a : α)
    (d : β) (hj : j < l.length) (hb : b < m) : nth (l.flatMap f) (m * j + b) d = nth (f (nth l j a)) b d := by
  induction l generalizing j with
  | nil => simp at hj
  | cons x l ih =>
    have hlen := hf x
    cases j with
    | zero => simp [nth, List.getElem?_append, hlen, hb]
    | succ j =>
      have hge : ¬ m * (j + 1) + b < m := by rw [Nat.mul_succ]; omega
      have hsub : m * (j + 1) + b - m = m * j + b := by rw [Nat.mul_succ]; omega
      simpa [nth, List.getElem?_append, hlen, hge, hsub] using ih (j := j) (by simpa using hj)

theorem length_flatMap_const {α β : Type} {f : α → List β} {m : Nat} (hf : ∀ a, (f a).length = m) (l : List α) :
    (l.flatMap f).length = m * l.length := by
  simp [List.length_flatMap, hf, Nat.mul_comm]

theorem slice_eq (b : Bytes) (i n : Nat) : slice b i n = (List.range n).map fun q => nth b (i + q) 0 := by
  apply List.ext_getElem
  · simp [slice]
  · intro q hq hq'
    simp only [slice, List.getElem_append, List.getElem_take, List.getElem_drop, List.getElem_replicate, List.getElem_map,
      List.getElem_range]
    split
    · rename_i h
      simp only [List.length_take, List.length_drop] at h
      rw [nth_eq _ _ _ (by omega)]
    · rename_i h
      simp only [List.length_take, List.length_drop, List.length_map, List.length_range] at h hq'
      simp [nth, List.getElem?_eq_none (show b.length ≤ i + q by omega)]

/-- Words of a byte string filled up with zeros. -/
theorem field_get_append_zeros (x : Tile) {a n m j : Nat} :
    field (x.get a (4 * n) ++ List.replicate m 0) (4 * j) 4 = if j < n then fromBytes (x.get (a + 4 * j) 4) else 0 := by
  have hnth (q : Nat) : nth (x.get a (4 * n) ++ List.replicate m (0 : Byte)) q 0 =
      if q < 4 * n then Tbl.get 0 x.store (a + q) else 0 := by
    by_cases h : q < 4 * n
    · simp [nth, List.getElem?_append, Tile.get, Tbl.getList_eq, h]
    · rw [if_neg h, nth, List.getD_eq_getElem?_getD, List.getElem?_append_right (by simpa [Tile.get] using h),
        List.getElem?_replicate]
      split <;> rfl
  rw [field, slice_eq]
  simp only [hnth]
  split
  · rw [Tile.get, Tbl.getList_eq]
    congr 1
    refine List.map_congr_left fun q hq => ?_
    rw [if_pos (by have := List.mem_range.1 hq; omega), Nat.add_assoc]
  · rw [List.map_congr_left (g := fun _ => (0 : Byte)) fun q hq => if_neg (by omega)]
    rfl

theorem field_get_zero (x : Tile) (a n : Nat) : field (x.get a n) 0 n = fromBytes (x.get a n) := by
  simp [field, slice, Tile.get, List.take_of_length_le]

/-! ### The accesses -/

@[simp] theorem Vi.ea_tick (s : State) (k : Nat) (i : Vi) : i.ea ((s.tickTile k).tile k) = i.ea (s.tile k) := by
  rw [Vi.ea, Vi.ea, words_tick]

@[simp] theorem Tile.get_tick (s : State) (k o n : Nat) : ((s.tickTile k).tile k).get o n = (s.tile k).get o n := by
  rw [tile_tick]
  rfl

@[simp] theorem Tile.marked_tick (s : State) (k o n : Nat) :
    ((s.tickTile k).tile k).marked o n = (s.tile k).marked o n := by
  rw [tile_tick]
  rfl

theorem Vi.words_le (i : Vi) : i.words ≤ 64 := by
  have : i.b 23 18 < 2 ^ 6 := bits_lt ..
  rw [Vi.words]
  omega

/-- An access with a place in the local store, which reads no poison and no SRAM error, takes its effect. -/
theorem lsAccess_clean {s : State} {k n : Nat} {i : Vi} {load : Bool} {run : State → Nat → State}
    (ha : aligned (i.ea (s.tile k)) 4 = true) (hin : inLs (i.ea (s.tile k)) n = true)
    (hm : load = true → (s.tile k).marked (i.ea (s.tile k)) n = false) :
    s.lsAccess k i n load .clean run = run s (i.ea (s.tile k)) := by
  cases load with
  | true => simp [State.lsAccess, ha, hin, hm rfl, State.sramRead]
  | false => simp [State.lsAccess, ha, hin, State.sramRead]

/-- Bytes stored by a vector instruction. -/
theorem put_spec (s : State) (k a : Nat) (bytes : Bytes) :
    let t := ((s.tickTile k).onTile k fun x => { x.put a bytes false with unfenced := true }).retire k 0
    TileOnly s t k ∧ t.tile k = { s.tile k with
      store := Tbl.setList 0 (s.tile k).store a bytes, marks := (t.tile k).marks, unfenced := true
      vcyc := (t.tile k).vcyc, ops := (t.tile k).ops } := by
  refine ⟨((TileOnly.refl.onTile _).onTile _).onTile _, ?_⟩
  simp only [State.retire, State.onOps, State.tile_onTile_self, tile_tick, Tile.put]

section
variable {k : TileIx} {w : BitVec 56} {s : State} (hi : s.mayIssue k.val = true) (hr : (s.tile k.val).rowBusy = false)
include hi hr

/-- VST (R294 to R296). -/
theorem does_vst (hbad : Vi.badLs ⟨0x31, w⟩ = false) (ha : aligned (Vi.ea ⟨0x31, w⟩ (s.tile k.val)) 4 = true)
    (hin : inLs (Vi.ea ⟨0x31, w⟩ (s.tile k.val)) (4 * Vi.words ⟨0x31, w⟩) = true) :
    let i : Vi := ⟨0x31, w⟩
    let x := s.tile k.val
    Does (.vst k w) s fun t =>
      let y := t.tile k.val
      TileOnly s t k.val ∧ y.vreg = x.vreg ∧ y.unfenced = true ∧
      (∀ j b, j < i.words → b < 4 → Tbl.get 0 y.store (i.ea x + 4 * j + b) = BitVec.ofNat 8 (x.word i.vd j / 256 ^ b)) ∧
      (∀ q, q < i.ea x ∨ i.ea x + 4 * i.words ≤ q → Tbl.get 0 y.store q = Tbl.get 0 x.store q) ∧
      y = { x with store := y.store, marks := y.marks, unfenced := true, vcyc := y.vcyc, ops := y.ops } := by
  intro i x
  refine does_vec (by rw [exec_vst, execVst]) hi hr hbad ?_
  rw [lsAccess_clean (by rwa [Vi.ea_tick]) (by rwa [Vi.ea_tick]) (by simp), Vi.ea_tick, words_tick]
  have hwords := i.words_le
  let bytes := ((x.words i.vd).take i.words).flatMap (toBytes 4)
  have hlength : bytes.length = 4 * i.words := by
    simp [bytes, length_flatMap_const (length_toBytes 4), hwords]
  obtain ⟨honly, hy⟩ := put_spec s k.val (i.ea x) bytes
  refine ⟨honly, by rw [hy], by rw [hy], fun j b hj hb => ?_, fun q hq => ?_, ?_⟩
  · have hj' : j < ((x.words i.vd).take i.words).length := by simp; omega
    rw [hy, Tbl.get_setList, hlength, if_pos (by omega), show i.ea x + 4 * j + b - i.ea x = 4 * j + b by omega]
    refine (nth_flatMap (length_toBytes 4) _ 0 0 hj' hb).trans ?_
    rw [nth_toBytes _ hb, nth_take hj, nth_words _ _ _ (by omega)]
  · rw [hy, Tbl.get_setList, hlength, if_neg (by omega)]
  · exact hy.trans (by rw [hy])

/-- A load: the words that it writes to VD are those that it finds (R294). -/
theorem does_load {c : Instr} {i : Vi} {bad : Bool} {n : Nat} {ws : State → Nat → List Nat} {word : Nat → Nat}
    (hc : exec c s = vecRow k.val i s bad fun s => s.lsAccess k.val i n true .clean fun s a => s.putReg k.val i.vd (ws s a))
    (hbad : bad = false) (ha : aligned (i.ea (s.tile k.val)) 4 = true) (hin : inLs (i.ea (s.tile k.val)) n = true)
    (hm : (s.tile k.val).marked (i.ea (s.tile k.val)) n = false)
    (hl : (ws (s.tickTile k.val) (i.ea (s.tile k.val))).length = 64)
    (hw : ∀ j, j < 64 → nth (ws (s.tickTile k.val) (i.ea (s.tile k.val))) j 0 = word j) :
    Does c s fun t => TileOnly s t k.val ∧ VecRest (s.tile k.val) (t.tile k.val) i.vd 0 ∧
      ∀ j, j < 64 → (t.tile k.val).word i.vd j = word j := by
  refine does_vec hc hi hr hbad ?_
  rw [lsAccess_clean (by rwa [Vi.ea_tick]) (by rwa [Vi.ea_tick]) (by simpa using hm), Vi.ea_tick]
  obtain ⟨honly, hrest, hword⟩ := putReg_spec s k.val i.vd _ 0 hl
  exact ⟨honly, hrest, fun j hj => (hword j hj).trans (hw j hj)⟩

end

/-- Settles O4. -/
theorem vectorMemory : Obligations.VectorMemory := by
  unfold Obligations.VectorMemory
  refine ⟨fun k w s hi hr => ?loads, fun k w s hi hr => does_vst hi hr⟩
  intro x row
  refine ⟨fun hbad ha hin hm => ?vld, fun hone hbad ha hin hm => ?vldbc⟩
  case vld =>
    refine does_load hi hr (by rw [exec_vld, execVld]) hbad ha hin hm (by simp [toWords]) fun j hj => ?_
    rw [toWords, nth_range _ _ _ _ hj, Tile.get_tick, field_get_append_zeros]
  case vldbc =>
    refine does_load hi hr (by rw [exec_vldbc, execVldbc]) (by simpa [hone] using hbad) ha hin hm (by simp) fun j hj => ?_
    rw [nth_replicate _ _ _ _ hj, Tile.get_tick, field_get_zero]

end Sys2Proof.Machine
end

section
/-! The finished-tile queue and the fences of the vector engine (O6). -/

namespace Sys2Proof.Machine

/-- A row that may act and breaks no rule acts, whether or not it stalls the sequencer and reads SRAM. -/
theorem vecRow_acts {k : Nat} {i : Vi} {s : State} {bad : Bool} {run : State → State} {sram : Sram} {stalls : Bool}
    (hi : s.mayIssue k = true) (hr : (s.tile k).rowBusy = false) (hb : bad = false) :
    vecRow k i s bad run sram stalls = .next (run (s.tickTile k)) := by
  simp [vecRow, hi, hr, hb]

/-- Changes of a tile that agree on the tile as it stands. -/
theorem State.onTile_congr {s : State} {k : Nat} {f g : Tile → Tile} (h : f (s.tile k) = g (s.tile k)) :
    s.onTile k f = s.onTile k g := by
  change { s with tiles := Tbl.set {} s.tiles k (f (s.tile k)) } = { s with tiles := Tbl.set {} s.tiles k (g (s.tile k)) }
  rw [h]

/-! ### A register written -/

theorem State.putReg_tileOnly (s : State) (k r flop : Nat) (ws : List Nat) : TileOnly s (s.putReg k r ws flop) k :=
  (TileOnly.refl.onTile _).onTile _

/-- What a register write leaves of its tile: all but the registers and the operation counters. -/
theorem State.tile_putReg_self (s : State) (k r flop : Nat) (ws : List Nat) : (s.putReg k r ws flop).tile k =
    { s.tile k with vreg := ((s.tile k).setWords r ws).vreg, ops := ((s.putReg k r ws flop).tile k).ops } := by
  simp only [State.putReg, State.retire, State.onOps, State.tile_onTile_self, Tile.setWords]

/-- The words of a register just written, and every other word. -/
theorem State.get_vreg_putReg (s : State) (k r flop : Nat) {ws : List Nat} (hl : ws.length = 64) (q : Nat) :
    Tbl.get 0 ((s.putReg k r ws flop).tile k).vreg q =
      if 64 * r ≤ q ∧ q < 64 * r + 64 then nth ws (q - 64 * r) 0 else Tbl.get 0 (s.tile k).vreg q := by
  rw [State.tile_putReg_self, get_setWords, hl]

/-! ### The finished-tile queue -/

section
variable {s : State} {k vd : Nat} (hr : (s.tile k).rowBusy = false)
include hr

/-- VLDQ takes the oldest entry (R305). -/
theorem State.vldq_takes {e : FtEntry} {q : List FtEntry} (hq : (s.tile k).ftq = e :: q) (hp : e.poison = false)
    (hl : e.vals.length = 64) :
    let t := s.vldq k vd
    TileOnly s t k ∧ (t.tile k).ftq = q ∧ (t.tile k).seq = .run ∧
      (∀ j, j < 64 → (t.tile k).word vd j = nth e.vals j 0) ∧
      ∀ j, j < 64 * vd ∨ 64 * vd + 64 ≤ j → Tbl.get 0 (t.tile k).vreg j = Tbl.get 0 (s.tile k).vreg j := by
  let s1 := s.onTile k fun x => { x with ftq := q, seq := .run }
  have ht : s.vldq k vd = s1.putReg k vd e.vals := by simp [State.vldq, hr, hq, hp, s1]
  have h1 : s1.tile k = { s.tile k with ftq := q, seq := .run } := State.tile_onTile_self ..
  rw [ht]
  refine ⟨(TileOnly.refl.onTile _).trans (State.putReg_tileOnly ..), ?_, ?_, fun j hj => ?_, fun j hj => ?_⟩
  · rw [State.tile_putReg_self, h1]
  · rw [State.tile_putReg_self, h1]
  · rw [Tile.word, State.get_vreg_putReg _ _ _ _ hl, if_pos (by omega), Nat.add_sub_cancel_left]
  · rw [State.get_vreg_putReg _ _ _ _ hl, if_neg (by omega), h1]

/-- It waits while the queue is empty and a drain is to fill it. -/
theorem State.vldq_waits (hq : (s.tile k).ftq = []) (hd : (s.tile k).ftqDrain = true) :
    s.vldq k vd = s.onTile k fun x => { x with seq := .vldq vd, since := s.now } := by
  simp [State.vldq, hr, hq, hd]

theorem State.vldq_empty (hq : (s.tile k).ftq = []) (hd : (s.tile k).ftqDrain = false) :
    s.vldq k vd = s.fault k 0x108 0 0x33 := by
  simp [State.vldq, hr, hq, hd]

theorem State.vldq_poison {e : FtEntry} {q : List FtEntry} (hq : (s.tile k).ftq = e :: q) (hp : e.poison = true) :
    s.vldq k vd = (s.onTile k fun y => { y with ftq := q, seq := .run }).fault k 0x111 0 0x33 := by
  simp [State.vldq, hr, hq, hp]

end

/-- From `s`, with tile `k` as `x` but for its cycle and the engine free, a command that runs VLDQ takes, waits or faults as
the queue is (R305). -/
theorem vldq_clauses {s s1 : State} {k vd : Nat} {c : Instr} (hc : exec c s = .next (s1.vldq k vd)) (h1 : TileOnly s s1 k)
    (hx : s1.tile k = { s.tile k with vcyc := (s1.tile k).vcyc }) (hr : (s.tile k).rowBusy = false) :
    (∀ e q, (s.tile k).ftq = e :: q → e.poison = false → e.vals.length = 64 →
      Does c s fun t => TileOnly s t k ∧ (t.tile k).ftq = q ∧ (t.tile k).seq = .run ∧
        (∀ j, j < 64 → (t.tile k).word vd j = nth e.vals j 0) ∧
        ∀ j, j < 64 * vd ∨ 64 * vd + 64 ≤ j → Tbl.get 0 (t.tile k).vreg j = Tbl.get 0 (s.tile k).vreg j) ∧
    ((s.tile k).ftq = [] → (s.tile k).ftqDrain = true →
      Does c s fun t => TileOnly s t k ∧ (t.tile k).seq = .vldq vd ∧ (t.tile k).vreg = (s.tile k).vreg) ∧
    ((s.tile k).ftq = [] → (s.tile k).ftqDrain = false → exec c s = .next (s1.fault k 0x108 0 0x33)) ∧
    (∀ e q, (s.tile k).ftq = e :: q → e.poison = true →
      exec c s = .next ((s1.onTile k fun y => { y with ftq := q, seq := .run }).fault k 0x111 0 0x33)) := by
  have hr1 : (s1.tile k).rowBusy = false := by rw [hx]; exact hr
  have hftq : (s1.tile k).ftq = (s.tile k).ftq := by rw [hx]
  have hdrain : (s1.tile k).ftqDrain = (s.tile k).ftqDrain := by rw [hx]; rfl
  have hvreg : (s1.tile k).vreg = (s.tile k).vreg := by rw [hx]
  refine ⟨fun e q hq hp hl => ?_, fun hq hd => ?_, fun hq hd => ?_, fun e q hq hp => ?_⟩
  · obtain ⟨honly, htake⟩ := State.vldq_takes (vd := vd) hr1 (hftq.trans hq) hp hl
    rw [hvreg] at htake
    exact ⟨_, hc, h1.trans honly, htake⟩
  · rw [State.vldq_waits hr1 (hftq.trans hq) (hdrain.trans hd)] at hc
    refine ⟨_, hc, h1.onTile _, ?_, ?_⟩
    · rw [State.tile_onTile_self]
    · rw [State.tile_onTile_self]
      exact hvreg
  · rw [hc, State.vldq_empty hr1 (hftq.trans hq) (hdrain.trans hd)]
  · rw [hc, State.vldq_poison hr1 (hftq.trans hq) hp]

/-- Settles O6. -/
theorem vectorQueues : Obligations.VectorQueues := by
  unfold Obligations.VectorQueues
  refine ⟨fun k w s => ?queue, fun k w s => ?fences⟩
  case queue =>
    intro i x takes waits faults
    refine ⟨fun hi hr hbad => ?vldq, fun vd hseq hr => ?resume⟩
    case vldq =>
      refine vldq_clauses ?_ (TileOnly.refl.onTile _) ?_ hr
      · rw [exec_vldq, execVldq, vecRow_acts hi hr hbad]
      · simp only [tile_tick]
    case resume =>
      refine vldq_clauses ?_ .refl rfl hr
      rw [exec_vldqResume, execVldqResume, hseq]
  case fences =>
    intro x
    refine ⟨fun hi hr hbad => ?vfence, fun hseq hr => ?done, fun hseq hr => ?busy, rfl, fun hw => ?rowDone⟩
    case vfence =>
      refine ⟨_, by rw [exec_vfence, execVfence, vecRow_acts hi hr hbad], ?_⟩
      refine ⟨((TileOnly.refl.onTile _).onTile _).onTile _, ?_⟩
      simp only [State.retire, State.onOps, State.tile_onTile_self, tile_tick]
      exact ⟨trivial, rfl, rfl⟩
    case done => simp [execVfenceDone, show (s.tile k.val).seq = _ from hseq, show (s.tile k.val).rowBusy = _ from hr]
    case busy => simp [execVfenceDone, show (s.tile k.val).rowBusy = _ from hr]
    case rowDone =>
      rw [exec_rowInstrDone, execRowInstrDone, show (s.tile k.val).vwait = [] from hw, State.vecDrain]
      exact congrArg _ (State.onTile_congr (by rw [show (s.tile k.val).vwait = [] from hw]))

end Sys2Proof.Machine
end

section
/-! Format slots (O7): VFMT, VENC, VDEC. -/

namespace Sys2Proof.Machine

@[simp] theorem Tile.slots_tick (s : State) (k : Nat) : ((s.tickTile k).tile k).slots = (s.tile k).slots := by
  rw [tile_tick]

@[simp] theorem State.descAt_tick (s : State) (k a : Nat) :
    (s.tickTile k).descAt k a = Desc.parse ((s.tile k).get a 48) := by
  rw [State.descAt, Tile.get_tick]

/-- A tile changed and the instruction retired: the tile is as changed, but for its operation counters. -/
theorem State.tile_retire_onTile (s : State) (k flop : Nat) (f : Tile → Tile) :
    ((s.onTile k f).retire k flop).tile k = { f (s.tile k) with ops := (((s.onTile k f).retire k flop).tile k).ops } := by
  simp only [State.retire, State.onOps, State.tile_onTile_self]

section
variable {k : TileIx} {w : BitVec 56} {s : State} (hi : s.mayIssue k.val = true) (hr : (s.tile k.val).rowBusy = false)
include hi hr

/-- VFMT (R298, R299). -/
theorem does_vfmt (hbad : Vi.bad ⟨0x38, w⟩ [0] { vd := false, va := true, vc := true, imm := true } = false)
    (hvc : Vi.vc ⟨0x38, w⟩ < 4) (hslots : (s.tile k.val).slots.length = 4) (hplace : descPlace (Vi.imm ⟨0x38, w⟩) = false)
    (hm : (s.tile k.val).marked (Vi.imm ⟨0x38, w⟩) 48 = false)
    (hd : slotBad (Desc.parse ((s.tile k.val).get (Vi.imm ⟨0x38, w⟩) 48)) = false) :
    let i : Vi := ⟨0x38, w⟩
    let x := s.tile k.val
    Does (.vfmt k w .clean) s fun t => TileOnly s t k.val ∧
      nth (t.tile k.val).slots i.vc {} =
        { loaded := true, desc := Desc.parse (x.get i.imm 48), block := x.word i.va 0, ptr := x.word i.va 1 } ∧
      (∀ j, j ≠ i.vc → nth (t.tile k.val).slots j {} = nth x.slots j {}) ∧ (t.tile k.val).vreg = x.vreg ∧
      (t.tile k.val).store = x.store := by
  intro i x
  refine does_vec (by rw [exec_vfmt, execVfmt]) hi hr (by simpa [hbad] using Nat.le_of_lt_succ hvc) ?_
  simp only [State.sramRead, hplace, Tile.marked_tick, hm, State.descAt_tick, hd, words_tick, Bool.false_eq_true, if_false,
    nth_words, Nat.ofNat_pos, Nat.one_lt_ofNat]
  refine ⟨((TileOnly.refl.onTile _).onTile _).onTile _, ?_⟩
  rw [State.tile_retire_onTile, tile_tick]
  exact ⟨nth_setAt_self (hvc.trans_eq hslots.symm) _ _, fun j hj => nth_setAt_ne hj _ _ _, rfl, rfl⟩

theorem exec_venc_of_loaded (hbad : Vi.bad ⟨0x39, w⟩ [0] { vd := false, va := true, vc := true } = false)
    (hvc : Vi.vc ⟨0x39, w⟩ < 4) :
    let i : Vi := ⟨0x39, w⟩
    let x := s.tile k.val
    let f := nth x.slots i.vc {}
    let s1 := s.tickTile k.val
    let e := s1.encRow f.desc (x.words i.va) (if f.desc.sto then s1.drawsOf k.val else []) f.block
    f.loaded = true → inLs f.ptr (f.desc.rowBytes 64) = true → e.2.2 = 0 →
      exec (.venc k w) s = .next ((e.2.1.onTile k.val fun y =>
        { y.put f.ptr e.1 false with slots := setAt y.slots i.vc FmtSlot.advance, unfenced := true }).retire k.val 0) := by
  intro i x f s1 e hloaded hin he
  rw [exec_venc, execVenc, vecRow_acts hi hr (by simpa [hbad] using Nat.le_of_lt_succ hvc)]
  simp only [Tile.slots_tick, words_tick]
  rw [if_neg (by simpa using hloaded), if_neg (by simpa using hin), if_neg (by simpa using he)]

theorem exec_vdec_of_loaded (hbad : Vi.bad ⟨0x3A, w⟩ [0] { vc := true } = false) (hvc : Vi.vc ⟨0x3A, w⟩ < 4) :
    let i : Vi := ⟨0x3A, w⟩
    let x := s.tile k.val
    let f := nth x.slots i.vc {}
    let n := f.desc.rowBytes 64
    let s1 := s.tickTile k.val
    let d := s1.decRun f.desc (x.get f.ptr n) 0 64
    f.loaded = true → inLs f.ptr n = true → x.marked f.ptr n = false → s1.runFault f.desc (x.get f.ptr n) = 0 →
      exec (.vdec k w .clean) s = .next (((s1.count f.desc.cset { malformed := d.2 }).onTile k.val fun y =>
        { y with slots := setAt y.slots i.vc FmtSlot.advance }).putReg k.val i.vd (d.1.map toF32)) := by
  intro i x f n s1 d hloaded hin hm hrun
  rw [exec_vdec, execVdec, vecRow_acts hi hr (by simpa [hbad] using Nat.le_of_lt_succ hvc)]
  simp only [Tile.slots_tick, Tile.marked_tick, Tile.get_tick, State.sramRead]
  rw [if_neg (by simpa using hloaded), if_neg (by simpa using hin), if_neg (by simpa using hm), if_neg (by simpa using hrun),
    if_neg Bool.false_ne_true]

end

/-- Settles O7. -/
theorem formatSlots : Obligations.FormatSlots := by
  unfold Obligations.FormatSlots
  exact fun k w s hi hr => ⟨does_vfmt hi hr, exec_venc_of_loaded hi hr, exec_vdec_of_loaded hi hr⟩

end Sys2Proof.Machine
end

section
/-! Row instructions (O8): what an encode without side tables leaves, and where the row's results are stored. -/

namespace Sys2Proof.Machine

/-! ### Encoding without side tables -/

/-- A format whose encoding reads and writes nothing beside its records: an unblocked one, or a block format without supplied
scales, statistics and widening. -/
def Desc.Plain (d : Desc) : Prop := d.block = false ∨ (d.delayed = false ∧ d.stats = false ∧ d.widen = false)

theorem chooseWidth_of_not_widen {d : Desc} (h : d.widen = false) (ys : List Num) (a : Num) (code : Nat) (full : Bool)
    (fuel w : Nat) : chooseWidth d ys a code full fuel w = w := by
  cases fuel with
  | zero => rfl
  | succ fuel => simp [chooseWidth, h]

theorem encodeSb_wide_of_not_widen {d : Desc} (h : d.widen = false) (xs us : List Nat) (supplied next : Nat) :
    (encodeSb d xs us supplied next).wide = none := by
  unfold encodeSb
  extract_lets size xv yc ys nz zero mags a p full w
  have hw : w = d.width := chooseWidth_of_not_widen h ..
  split
  · rfl
  · split
    · rfl
    · split
      · rfl
      · rw [if_neg (by omega)]

theorem encodeMx_wide (d : Desc) (xs us : List Nat) (supplied : Nat) : (encodeMx d xs us supplied).wide = none := by
  unfold encodeMx
  extract_lets
  split
  · rfl
  · split <;> rfl

theorem encodeBlock_wide_of_not_widen {d : Desc} (h : d.widen = false) (xs us : List Nat) (supplied next : Nat) :
    (encodeBlock d xs us supplied next).wide = none := by
  unfold encodeBlock
  split
  · exact encodeSb_wide_of_not_widen h ..
  · exact encodeMx_wide ..

/-- A plain format's encode counts in its counter set, and cannot be refused. -/
theorem State.encBlock_plain {d : Desc} (hd : d.delayed = false) (hs : d.stats = false) (hw : d.widen = false) (s : State)
    (xs us : List Nat) (k : Nat) (pois : Bool) :
    ∃ b c, s.encBlock d xs us k pois = (b, s.count d.cset c, 0) := by
  have hside : s.sideFault d k 1 = 0 := by simp [State.sideFault, hd, hs]
  simp only [State.encBlock, hside, ne_eq, not_true, if_false, hs, Bool.false_eq_true]
  rw [encodeBlock_wide_of_not_widen hw]
  exact ⟨_, _, rfl⟩

/-- From `s` to `t` at most counter sets have changed. -/
def FmtOnly (s t : State) : Prop := t = { s with fmt := t.fmt }

theorem FmtOnly.refl (s : State) : FmtOnly s s := rfl

theorem FmtOnly.count (s : State) (a : Nat) (c : EncCounts) : FmtOnly s (s.count a c) := rfl

theorem FmtOnly.trans {s t u : State} (hst : FmtOnly s t) (htu : FmtOnly t u) : FmtOnly s u := by
  rw [FmtOnly, htu, hst]

theorem FmtOnly.tile {s t : State} (h : FmtOnly s t) (k : Nat) : t.tile k = s.tile k := by
  rw [h]
  rfl

theorem State.encBlocks_plain {d : Desc} (hd : d.delayed = false) (hs : d.stats = false) (hw : d.widen = false) (pois : Bool)
    (n : Nat) (s : State) (xs us : List Nat) (k : Nat) :
    FmtOnly s (State.encBlocks d pois n s xs us k).2.1 ∧ (State.encBlocks d pois n s xs us k).2.2 = 0 := by
  induction n generalizing s xs us k with
  | zero => exact ⟨.refl s, rfl⟩
  | succ n ih =>
    obtain ⟨b, c, hb⟩ := s.encBlock_plain hd hs hw (xs.take 32) (us.take 32) k pois
    obtain ⟨hfmt, hcode⟩ := ih (s.count d.cset c) (xs.drop 32) (us.drop 32) (k + 1)
    simp only [State.encBlocks, hb, ne_eq, not_true, if_false]
    exact ⟨(FmtOnly.count ..).trans hfmt, hcode⟩

theorem State.encRow_plain {d : Desc} (h : d.Plain) (s : State) (xs us : List Nat) (k : Nat) (pois : Bool) :
    FmtOnly s (s.encRow d xs us k pois).2.1 ∧ (s.encRow d xs us k pois).2.2 = 0 := by
  unfold State.encRow
  split
  · rename_i hb
    obtain ⟨hd, hs, hw⟩ := h.resolve_left (by simp [hb])
    exact State.encBlocks_plain hd hs hw ..
  · exact ⟨.count .., rfl⟩

/-! ### Encoding a row's output -/

/-- From `s` to `t` at most counter sets and the cycle of tile `k` have changed. -/
structure CycOnly (k : Nat) (s t : State) : Prop where
  rest : t = { s with tiles := t.tiles, fmt := t.fmt }
  others : ∀ j, j ≠ k → t.tile j = s.tile j
  tile : t.tile k = { s.tile k with vcyc := (t.tile k).vcyc }

theorem CycOnly.refl (k : Nat) (s : State) : CycOnly k s s := ⟨rfl, fun _ _ => rfl, rfl⟩

theorem CycOnly.of_fmtOnly {k : Nat} {s t : State} (h : FmtOnly s t) : CycOnly k s t :=
  ⟨by rw [h], fun j _ => h.tile j, by rw [h.tile k]⟩

theorem CycOnly.tick (k : Nat) (s : State) : CycOnly k s (s.tickTile k) :=
  ⟨rfl, fun _ hj => State.tile_onTile_ne _ hj _, by simp only [tile_tick]⟩

theorem CycOnly.trans {k : Nat} {s t u : State} (hst : CycOnly k s t) (htu : CycOnly k t u) : CycOnly k s u :=
  ⟨by rw [htu.rest, hst.rest], fun j hj => (htu.others j hj).trans (hst.others j hj), by rw [htu.tile, hst.tile]⟩

theorem State.encOut_plain {k : Nat} {d : Desc} (h : d.Plain) (n : Nat) (s : State) (xs : List Nat) (b : Nat) :
    CycOnly k s (State.encOut k d n s xs b).2.1 ∧ (State.encOut k d n s xs b).2.2 = 0 := by
  induction n generalizing s xs b with
  | zero => exact ⟨.refl k s, rfl⟩
  | succ n ih =>
    unfold State.encOut
    split
    · exact ⟨.refl k s, rfl⟩
    · obtain ⟨hfmt, hcode⟩ := (s.tickTile k).encRow_plain h (xs.take 64)
        (if d.sto then (s.tickTile k).drawsOf k else []) b false
      obtain ⟨hcyc, hlast⟩ := ih ((s.tickTile k).encRow d (xs.take 64)
        (if d.sto then (s.tickTile k).drawsOf k else []) b).2.1 (xs.drop 64) (b + 2)
      simp only [hcode, ne_eq, not_true, if_false]
      exact ⟨((CycOnly.tick k s).trans (.of_fmtOnly hfmt)).trans hcyc, hlast⟩

/-! ### Storing a row's results -/

/-- From `s` to `t` at most counter sets, and of tile `k` its store, its marks and its cycle, have changed. -/
structure StoreOnly (k : Nat) (s t : State) : Prop where
  rest : t = { s with tiles := t.tiles, fmt := t.fmt }
  others : ∀ j, j ≠ k → t.tile j = s.tile j
  tile : t.tile k = { s.tile k with store := (t.tile k).store, marks := (t.tile k).marks, vcyc := (t.tile k).vcyc }

theorem CycOnly.storeOnly {k : Nat} {s t : State} (h : CycOnly k s t) : StoreOnly k s t :=
  ⟨h.rest, h.others, by rw [h.tile]⟩

theorem StoreOnly.put {k : Nat} (s : State) (o : Nat) (b : Bytes) (pois : Bool) :
    StoreOnly k s (s.onTile k fun y => y.put o b pois) :=
  ⟨rfl, fun _ hj => State.tile_onTile_ne _ hj _, by rw [State.tile_onTile_self]; rfl⟩

theorem StoreOnly.trans {k : Nat} {s t u : State} (hst : StoreOnly k s t) (htu : StoreOnly k t u) : StoreOnly k s u :=
  ⟨by rw [htu.rest, hst.rest], fun j hj => (htu.others j hj).trans (hst.others j hj), by rw [htu.tile, hst.tile]⟩

theorem store_onTile_put (s : State) (k o : Nat) (b : Bytes) (pois : Bool) :
    ((s.onTile k fun y => y.put o b pois).tile k).store = Tbl.setList 0 (s.tile k).store o b := by
  rw [State.tile_onTile_self]
  rfl

/-- The bytes of a row of sums with what tile `x` holds at an offset; none where the row is empty (R238). -/
def Tile.addedRow (x : Tile) (n o : Nat) (vs : List Nat) : Bytes :=
  if vs.isEmpty then [] else (rowZip f32add (x.f32s o n) vs).flatMap (toBytes 4)

/-- A row of sums is stored where it is not empty. -/
def State.addRow (s : State) (k : Nat) (x : Tile) (n o : Nat) (vs : List Nat) : State :=
  if vs.isEmpty then s else s.onTile k fun y => y.put o ((rowZip f32add (x.f32s o n) vs).flatMap (toBytes 4)) false

theorem State.addRow_storeOnly (s : State) (k : Nat) (x : Tile) (n o : Nat) (vs : List Nat) :
    StoreOnly k s (s.addRow k x n o vs) := by
  unfold State.addRow
  split
  · exact (CycOnly.refl k s).storeOnly
  · exact .put ..

theorem State.store_addRow (s : State) (k : Nat) (x : Tile) (n o : Nat) (vs : List Nat) :
    ((s.addRow k x n o vs).tile k).store = Tbl.setList 0 (s.tile k).store o (x.addedRow n o vs) := by
  unfold State.addRow Tile.addedRow
  split
  · rfl
  · exact store_onTile_put ..

/-- The operands of a row instruction read and counted, and what its function makes of them: the output row, and what is added
to the rows of dγ and dβ (R238). -/
def State.rowOuts (s : State) (k : Nat) (r : RowD) (replay : Bool) (dx dy : Desc) : State × List Nat × List Nat × List Nat :=
  let x := s.tile k
  let qx := s.decRun dx (x.get r.x (dx.runAt 0 r.n).2) 0 r.n
  let s2 := s.count dx.cset { malformed := qx.2 }
  let qy := s2.decRun dy (x.get r.dy (dy.runAt 0 r.n).2) 0 r.n
  let xs := qx.1.map toF32
  let ga := x.f32s r.gamma r.n
  (if replay then s2.count dy.cset { malformed := qy.2 } else s2,
    if replay then rowBack r.func r.param r.causal xs ga (qy.1.map toF32)
    else (rowFwd r.func r.param r.causal xs ga (x.f32s r.beta r.n), [], []))

theorem State.rowOuts_fmtOnly (s : State) (k : Nat) (r : RowD) (replay : Bool) (dx dy : Desc) :
    FmtOnly s (s.rowOuts k r replay dx dy).1 := by
  cases replay
  · exact .count ..
  · exact (FmtOnly.count ..).trans (.count ..)

theorem State.rowRun_eq (s : State) (k : Nat) (r : RowD) (replay : Bool) (dx dy d : Desc) :
    s.rowRun k r replay dx dy d =
      let q := s.rowOuts k r replay dx dy
      let e := State.encOut k d (r.n / 64 + 1) q.1 q.2.1 0
      if e.2.2 ≠ 0 then (s, e.2.2)
      else (((e.2.1.onTile k fun y => y.put r.out e.1 false).addRow k (s.tile k) r.n r.dgamma q.2.2.1).addRow
        k (s.tile k) r.n r.dbeta q.2.2.2, 0) := by
  cases replay <;> rfl

/-- What a row instruction with a plain output format stores. -/
theorem State.rowRun_plain {d : Desc} (h : d.Plain) (s : State) (k : Nat) (r : RowD) (replay : Bool) (dx dy : Desc) :
    let q := s.rowOuts k r replay dx dy
    let o := s.rowRun k r replay dx dy d
    let x := s.tile k
    o.2 = 0 ∧ StoreOnly k s o.1 ∧ (o.1.tile k).store = Tbl.setList 0 (Tbl.setList 0 (Tbl.setList 0 x.store r.out
      (State.encOut k d (r.n / 64 + 1) q.1 q.2.1 0).1) r.dgamma (x.addedRow r.n r.dgamma q.2.2.1)) r.dbeta
      (x.addedRow r.n r.dbeta q.2.2.2) := by
  intro q o x
  obtain ⟨hcyc, hcode⟩ := State.encOut_plain (k := k) h (r.n / 64 + 1) q.1 q.2.1 0
  have hfrom := (CycOnly.of_fmtOnly (k := k) (s.rowOuts_fmtOnly k r replay dx dy)).trans hcyc
  have ho : o = _ := s.rowRun_eq k r replay dx dy d
  simp only [hcode, ne_eq, not_true, if_false, q] at ho
  rw [ho]
  refine ⟨rfl, ((hfrom.storeOnly.trans (.put ..)).trans (State.addRow_storeOnly ..)).trans (State.addRow_storeOnly ..), ?_⟩
  rw [State.store_addRow, State.store_addRow, store_onTile_put, hfrom.tile]

/-- Reads of a store into which three rows have been written, the later over the earlier. -/
theorem get_setList_three (t : Tbl Byte) (a b c : Nat) (u v w : Bytes) :
    let y := Tbl.setList 0 (Tbl.setList 0 (Tbl.setList 0 t a u) b v) c w
    (∀ q, (q < a ∨ a + u.length ≤ q) → (q < b ∨ b + v.length ≤ q) → (q < c ∨ c + w.length ≤ q) →
      Tbl.get 0 y q = Tbl.get 0 t q) ∧
    (∀ q, a ≤ q → q < a + u.length → (q < b ∨ b + v.length ≤ q) → (q < c ∨ c + w.length ≤ q) →
      Tbl.get 0 y q = nth u (q - a) 0) ∧
    (∀ q, b ≤ q → q < b + v.length → (q < c ∨ c + w.length ≤ q) → Tbl.get 0 y q = nth v (q - b) 0) ∧
    (∀ q, c ≤ q → q < c + w.length → Tbl.get 0 y q = nth w (q - c) 0) := by
  intro y
  simp only [y, Tbl.get_setList, nth]
  refine ⟨fun q hu hv hw => ?_, fun q ha hu hv hw => ?_, fun q hb hv hw => ?_, fun q hc hw => ?_⟩
  · rw [if_neg (by omega), if_neg (by omega), if_neg (by omega)]
  · rw [if_neg (by omega), if_neg (by omega), if_pos ⟨ha, hu⟩]
  · rw [if_neg (by omega), if_pos ⟨hb, hv⟩]
  · rw [if_pos ⟨hc, hw⟩]

/-- A row instruction whose checks pass. -/
theorem rowInstr_of_check {s : State} {k : Nat} {i : Vi} {replay : Bool} (hi : s.mayIssue k = true)
    (hr : (s.tile k).rowBusy = false) (hbad : i.bad [0] { vd := false, imm := true } = false)
    (hcheck : (s.tickTile k).rowCheck k i.imm replay = 0) :
    let s1 := s.tickTile k
    let r := RowD.parse ((s.tile k).get i.imm 64)
    let o := s1.rowRun k r replay (s1.descAt k r.xfmt) (s1.descAt k r.dyfmt) (s1.descAt k r.ofmt)
    rowInstr k i replay .clean s = .next (if o.2 ≠ 0 then s1.fault k o.2 0 i.op else
      (({ o.1 with freeIx := o.1.freeIx + 513 }.onTile k fun y =>
        { y with vreg := Tbl.setList 0 y.vreg 1536 (o.1.draws 32 512).1, rowBusy := true, unfenced := true }).retire k
          (Config.free (o.1.freeIx + 512) % 2 ^ 32))) := by
  intro s1 r o
  rw [rowInstr, vecRow_acts hi hr hbad]
  simp only [hcheck, ne_eq, not_true, if_false, State.sramRead, Bool.false_eq_true, Tile.get_tick]
  rfl

theorem exec_rowInstr (k : TileIx) (w : BitVec 56) (s : State) (replay : Bool) :
    exec (if replay then .rowr k w .clean else .rowf k w .clean) s =
      rowInstr k.val ⟨if replay then 0x41 else 0x40, w⟩ replay .clean s := by
  cases replay <;> rfl

/-- The engine occupied and v24 to v31 left with free values (R312, R313). -/
theorem rowFinish_spec {s o : State} {k flop : Nat} (h : StoreOnly k s o) :
    let t := ({ o with freeIx := o.freeIx + 513 }.onTile k fun y =>
      { y with vreg := Tbl.setList 0 y.vreg 1536 (o.draws 32 512).1, rowBusy := true, unfenced := true }).retire k flop
    let x := s.tile k
    let y := t.tile k
    t = { s with tiles := t.tiles, fmt := t.fmt, freeIx := s.freeIx + 513 } ∧ (∀ j, j ≠ k → t.tile j = s.tile j) ∧
    y = { x with vreg := y.vreg, store := (o.tile k).store, marks := y.marks, rowBusy := true, unfenced := true,
                 vcyc := y.vcyc, ops := y.ops } ∧
    (∀ q, q < 1536 → Tbl.get 0 y.vreg q = Tbl.get 0 x.vreg q) ∧
    ∀ q, q < 512 → Tbl.get 0 y.vreg (1536 + q) = Config.free (s.freeIx + q) % 2 ^ 32 := by
  intro t x y
  have hfree : o.freeIx = s.freeIx := by rw [h.rest]
  have hy : y = { x with vreg := Tbl.setList 0 x.vreg 1536 (o.draws 32 512).1, store := (o.tile k).store
                         marks := (o.tile k).marks, rowBusy := true, unfenced := true, vcyc := (o.tile k).vcyc
                         ops := y.ops } := by
    refine (State.tile_retire_onTile ..).trans ?_
    rw [show ({ o with freeIx := o.freeIx + 513 } : State).tile k = o.tile k from rfl, h.tile]
  have hvreg (q : Nat) : Tbl.get 0 y.vreg q =
      if 1536 ≤ q ∧ q < 2048 then Config.free (s.freeIx + (q - 1536)) % 2 ^ 32 else Tbl.get 0 x.vreg q := by
    rw [hy]
    simp only [Tbl.get_setList, State.draws, List.length_map, List.length_range]
    split
    · rename_i hq
      simp [show q - 1536 < 512 by omega, hfree]
    · rfl
  refine ⟨?_, fun j hj => ?_, hy.trans (by rw [hy]), fun q hq => ?_, fun q hq => ?_⟩
  · simp only [t, State.retire, State.onOps, State.onTile]
    rw [h.rest]
  · refine Eq.trans ?_ (h.others j hj)
    exact (State.tile_onTile_ne _ hj _).trans (State.tile_onTile_ne _ hj _)
  · rw [hvreg, if_neg (by omega)]
  · rw [hvreg, if_pos (by omega), Nat.add_sub_cancel_left]

/-- Settles O8. -/
theorem rowInstructions : Obligations.RowInstructions := by
  unfold Obligations.RowInstructions
  intro k w s replay hi hr i c x s1 r dx d dy o qx s2 qy xs ga b s3 e added dga dbe hbad hcheck
  have hexec := (exec_rowInstr k w s replay).trans (rowInstr_of_check hi hr hbad hcheck)
  refine ⟨fun hplain => ?plain, hexec⟩
  case plain =>
    obtain ⟨hcode, hstoreOnly, hstore⟩ := State.rowRun_plain hplain s1 k.val r replay dx dy
    have hfrom : StoreOnly k.val s o.1 := (CycOnly.tick k.val s).storeOnly.trans hstoreOnly
    obtain ⟨hrest, hothers, hy, hlow, hfree⟩ := rowFinish_spec (flop := Config.free (o.1.freeIx + 512) % 2 ^ 32) hfrom
    refine ⟨_, hexec.trans (congrArg _ (if_neg (not_not.2 hcode))), hrest, hothers, hy, hlow, hfree, ?_⟩
    rw [hy]
    simp only [State.rowOuts, Tile.addedRow, show s1.tile k.val = { x with vcyc := s.nextCyc k.val } from tile_tick ..]
      at hstore
    change (o.1.tile k.val).store = Tbl.setList 0 (Tbl.setList 0 (Tbl.setList 0 x.store r.out e) r.dgamma dga) r.dbeta dbe
      at hstore
    simp only [hstore]
    exact get_setList_three ..

end Sys2Proof.Machine
end

section
/-! Issue of matrix and Pannier records (O10), reserved opcodes and a stalled sequencer (O11). -/

namespace Sys2Proof.Machine

/-! ### The rows -/

/-- The rows of the matrix records, with their opcodes (R142). -/
def matrixRows : List (Nat × (TileIx → BitVec 22 → Instr)) :=
  [(1, .mm), (2, .drain), (3, .topk), (4, .topkMerge), (5, .zero), (6, .barrier)]

/-- The rows of the Pannier records, with their opcodes (R214). -/
def pannierRows : List (Nat × (TileIx → BitVec 22 → Instr)) :=
  [(0x41, .push), (0x42, .pop), (0x43, .peek), (0x44, .reset)]

theorem exec_matrixRow {r : Nat × (TileIx → BitVec 22 → Instr)} (hr : r ∈ matrixRows) (k : TileIx) (a : BitVec 22)
    (s : State) : exec (r.2 k a) s = issueRow k.val a.toNat r.1 s := by
  simp only [matrixRows, List.mem_cons, List.not_mem_nil, or_false] at hr
  obtain rfl | rfl | rfl | rfl | rfl | rfl := hr <;> rfl

theorem exec_pannierRow {r : Nat × (TileIx → BitVec 22 → Instr)} (hr : r ∈ pannierRows) (k : TileIx) (a : BitVec 22)
    (s : State) : exec (r.2 k a) s = issueRow k.val a.toNat r.1 s := by
  simp only [pannierRows, List.mem_cons, List.not_mem_nil, or_false] at hr
  obtain rfl | rfl | rfl | rfl := hr <;> rfl

theorem issueRow_of_mayIssue {s : State} {t : Nat} (h : s.mayIssue t = true) (a op : Nat) :
    issueRow t a op s = .next (s.issueAny t op a) := by
  simp [issueRow, h]

/-! ### What a sequencer issues -/

section
variable {s : State} {t op a : Nat}

/-- The opcode under which a record is issued: its OP byte where it can be read (R142). -/
def State.opAt (s : State) (t op a : Nat) : Nat := if s.recFault t a = 0 then field ((s.tile t).get a 64) 0 1 else op

theorem State.opAt_of_fault (h : s.recFault t a ≠ 0) : s.opAt t op a = op := if_neg h

theorem State.opAt_of_readable (h : s.recFault t a = 0) : s.opAt t op a = field ((s.tile t).get a 64) 0 1 := if_pos h

theorem State.issueAny_eq : s.issueAny t op a =
    if !recordOps.contains (s.opAt t op a) then s.fault t 0x101 a (s.opAt t op a)
    else if s.opAt t op a < 0x10 then s.issueMx t (s.opAt t op a) a
    else if s.opAt t op a < 0x50 then s.issuePn t (s.opAt t op a) a
    else s.issueFab t (s.opAt t op a) a := rfl

/-- The OP byte of a readable record decides, whatever row issues it. -/
theorem State.issueAny_of_readable (h : s.recFault t a = 0) :
    s.issueAny t op a = s.issueAny t (field ((s.tile t).get a 64) 0 1) a := by
  rw [State.issueAny_eq, State.issueAny_eq, State.opAt_of_readable h, State.opAt_of_readable h]

theorem State.issueAny_of_reserved (h : s.recFault t a = 0)
    (hop : recordOps.contains (field ((s.tile t).get a 64) 0 1) = false) :
    s.issueAny t op a = s.fault t 0x101 a (field ((s.tile t).get a 64) 0 1) := by
  rw [State.issueAny_eq, State.opAt_of_readable h, hop]
  rfl

theorem State.issueAny_matrix {o : Nat} (ho : s.opAt t op a = o) (hmem : o ∈ [1, 2, 3, 4, 5, 6]) :
    s.issueAny t op a = s.issueMx t o a := by
  rw [State.issueAny_eq, ho]
  simp only [List.mem_cons, List.not_mem_nil, or_false] at hmem
  obtain rfl | rfl | rfl | rfl | rfl | rfl := hmem <;> rfl

theorem State.issueAny_pannier {o : Nat} (ho : s.opAt t op a = o) (hmem : o ∈ [0x41, 0x42, 0x43, 0x44]) :
    s.issueAny t op a = s.issuePn t o a := by
  rw [State.issueAny_eq, ho]
  simp only [List.mem_cons, List.not_mem_nil, or_false] at hmem
  obtain rfl | rfl | rfl | rfl := hmem <;> rfl

/-! ### Matrix and Pannier records -/

theorem State.issueMx_full (h : 16 ≤ (s.tile t).mxq.length) :
    s.issueMx t op a = s.onTile t fun x => { x with seq := .stall op a, since := s.now } := if_pos h

theorem State.issueMx_unreadable (h : (s.tile t).mxq.length < 16) (hf : s.recFault t a ≠ 0) :
    s.issueMx t op a = s.fault t (s.recFault t a) a op := by
  rw [State.issueMx, if_neg h.not_ge, if_pos hf]

theorem State.issueMx_bad (h : (s.tile t).mxq.length < 16) (hf : s.recFault t a = 0)
    (hc : s.mxCheck t ((s.tile t).get a 64) ≠ 0) :
    s.issueMx t op a = s.fault t (s.mxCheck t ((s.tile t).get a 64)) a op := by
  rw [State.issueMx, if_neg h.not_ge, if_neg (not_not.2 hf), if_pos hc]

theorem State.issueMx_enters (h : (s.tile t).mxq.length < 16) (hf : s.recFault t a = 0)
    (hc : s.mxCheck t ((s.tile t).get a 64) = 0) :
    s.issueMx t op a = s.onTile t fun x =>
      { x with mxq := x.mxq ++ [s.mxEntry t a ((s.tile t).get a 64)], nextId := x.nextId + 1 } := by
  rw [State.issueMx, if_neg h.not_ge, if_neg (not_not.2 hf), if_neg (not_not.2 hc)]

theorem State.issuePn_full (h : 8 ≤ (s.tile t).panq.length) :
    s.issuePn t op a = s.onTile t fun x => { x with seq := .stall op a, since := s.now } := if_pos h

theorem State.issuePn_bad (h : (s.tile t).panq.length < 8) (hf : s.recFault t a = 0)
    (hc : pnCheck ((s.tile t).get a 64) ≠ 0) :
    s.issuePn t op a = s.fault t (pnCheck ((s.tile t).get a 64)) a op := by
  rw [State.issuePn, if_neg h.not_ge, if_neg (not_not.2 hf), if_pos hc]

theorem State.issuePn_enters (h : (s.tile t).panq.length < 8) (hf : s.recFault t a = 0)
    (hc : pnCheck ((s.tile t).get a 64) = 0) :
    s.issuePn t op a = s.onTile t fun x => { x with
      panq := x.panq ++ [{ id := (s.tile t).nextId, op := op, main := (s.tile t).get a 64, addr := a, since := s.now }]
      nextId := x.nextId + 1 } := by
  rw [State.issuePn, if_neg h.not_ge, if_neg (not_not.2 hf), if_neg (not_not.2 hc)]

end

theorem opcode_mem_matrix {r : Nat × (TileIx → BitVec 22 → Instr)} (hr : r ∈ matrixRows) : r.1 ∈ [1, 2, 3, 4, 5, 6] :=
  List.mem_map_of_mem (f := Prod.fst) hr

theorem opcode_mem_pannier {r : Nat × (TileIx → BitVec 22 → Instr)} (hr : r ∈ pannierRows) :
    r.1 ∈ [0x41, 0x42, 0x43, 0x44] :=
  List.mem_map_of_mem (f := Prod.fst) hr

/-- Settles O10: the outcomes of `State.issueMx` and `State.issuePn`. -/
theorem commandIssue : Obligations.CommandIssue := by
  unfold Obligations.CommandIssue
  refine ⟨fun r hr k a s hi => ?matrix, fun r hr k a s hi => ?pannier⟩
  case matrix =>
    intro x b
    rw [exec_matrixRow hr, issueRow_of_mayIssue hi]
    have hread (h : s.recFault k.val a.toNat = 0) (hop : field b 0 1 = r.1) :=
      State.issueAny_matrix (op := r.1) ((State.opAt_of_readable h).trans hop) (opcode_mem_matrix hr)
    have hfault (h : s.recFault k.val a.toNat ≠ 0) :=
      State.issueAny_matrix (op := r.1) (State.opAt_of_fault h) (opcode_mem_matrix hr)
    refine ⟨fun hf hop hroom hc => ?_, fun hf hop hfull => ?_, fun hf hop hroom hc => ?_, fun hf hroom => ?_, fun hf _ => ?_⟩
    · rw [hread hf hop, State.issueMx_enters hroom hf hc]
    · rw [hread hf hop, State.issueMx_full hfull]
    · rw [hread hf hop, State.issueMx_bad hroom hf hc]
    · rw [hfault hf, State.issueMx_unreadable hroom hf]
    · rw [State.issueAny_of_readable hf]
  case pannier =>
    intro x b
    rw [exec_pannierRow hr, issueRow_of_mayIssue hi]
    have hread (h : s.recFault k.val a.toNat = 0) (hop : field b 0 1 = r.1) :=
      State.issueAny_pannier (op := r.1) ((State.opAt_of_readable h).trans hop) (opcode_mem_pannier hr)
    refine ⟨fun hf hop hroom hc => ?_, fun hf hop hfull => ?_, fun hf hop hroom hc => ?_⟩
    · rw [hread hf hop, State.issuePn_enters hroom hf hc]
    · rw [hread hf hop, State.issuePn_full hfull]
    · rw [hread hf hop, State.issuePn_bad hroom hf hc]

/-! ### Reserved opcodes, and a stalled sequencer -/

section
variable {s : State} {k : TileIx} (op : BitVec 8) (a : BitVec 22) (hi : s.mayIssue k.val = true)
include hi

theorem execReservedOpcode_vector (hr : (s.tile k.val).rowBusy = false) (hop : vectorOps.contains op.toNat = false) :
    execReservedOpcode k true op a s = .next (s.fault k.val 0x101 0 op.toNat) := by
  rw [execReservedOpcode, hi, hop, hr]
  rfl

theorem execReservedOpcode_record (hf : s.recFault k.val a.toNat = 0) : execReservedOpcode k false op a s =
    .next (s.issueAny k.val (field ((s.tile k.val).get a.toNat 64) 0 1) a.toNat) := by
  rw [execReservedOpcode, hi, hf]
  rfl

end

/-- Settles O11. -/
theorem reservedAndResume : Obligations.ReservedAndResume := by
  unfold Obligations.ReservedAndResume
  intro k op a s
  refine ⟨fun hi hr hop => ⟨_, execReservedOpcode_vector op a hi hr hop, rfl, ?vector⟩,
    fun hi hf hop => ⟨_, execReservedOpcode_record op a hi hf, State.issueAny_of_reserved hf hop, ?record⟩,
    fun o b hseq hheld hfull => ?resume⟩
  case vector =>
    rw [State.tile_fault_self]
    exact ⟨rfl, rfl⟩
  case record =>
    rw [State.issueAny_of_reserved hf hop, State.tile_fault_self]
    exact ⟨rfl, rfl⟩
  case resume => simp [execSequencerResume, hseq, hheld, hfull]

end Sys2Proof.Machine
end

section
/-! Matrix commands that complete (O12): ZERO, and what leaves a command's queue. -/

namespace Sys2Proof.Machine

/-! ### Groups that are cleared -/

/-- A read after a range of keys is cleared. -/
theorem Tbl.get_clear {α : Type} {d : α} (lo hi i : Nat) : ∀ t : Tbl α,
    Tbl.get d (Tbl.clear t lo hi) i = if lo ≤ i ∧ i < hi then d else Tbl.get d t i
  | [] => (ite_self d).symm
  | (k, v) :: t => by
    have ih := Tbl.get_clear (d := d) lo hi i t
    by_cases hk : k < lo ∨ hi ≤ k
    · rw [Tbl.clear, List.filter_cons_of_pos (by simpa using hk), Tbl.get, Tbl.get]
      split
      · rw [if_neg (by omega)]
      · exact ih
    · rw [Tbl.clear, List.filter_cons_of_neg (by simpa using hk), Tbl.get]
      refine ih.trans ?_
      split
      · rfl
      · rw [if_neg (by omega)]

/-- The marks that ZERO keeps: those of the groups outside its own. -/
theorem testBit_groupsKept {g n i : Nat} (h : g + n ≤ 8) (hi : i < 8) :
    (255 - ((2 ^ n - 1) * 2 ^ g) % 256).testBit i = !decide (g ≤ i ∧ i < g + n) := by
  have key : ∀ g < 9, ∀ n < 9, g + n ≤ 8 → ∀ i < 8,
      (255 - ((2 ^ n - 1) * 2 ^ g) % 256).testBit i = !decide (g ≤ i ∧ i < g + n) := by decide
  exact key g (by omega) n (by omega) h i hi

theorem bit_and_groupsKept {g n i : Nat} (x : Nat) (h : g + n ≤ 8) (hi : i < 8) :
    bit (x &&& (255 - ((2 ^ n - 1) * 2 ^ g) % 256)) i = (bit x i && !decide (g ≤ i ∧ i < g + n)) := by
  rw [bit, Nat.testBit_and, testBit_groupsKept h hi, bit]

theorem nth_chunks_zeroGroups {x : Tile} {i : Nat} (hx : x.chunks.length = 8) (hi : i < 8) (g n : Nat) :
    nth (x.zeroGroups g n).chunks i 0 = if g ≤ i ∧ i < g + n then 0 else nth x.chunks i 0 := by
  refine (nth_map_zipIdx _ x.chunks i 0 0 (by omega)).trans ?_
  simp

/-! ### Commands that leave the queue -/

/-- A tile's state once command c has left its matrix queue and posted (R145). -/
theorem dropMx_postIf_spec (s : State) (k : Nat) (c : MxCmd) :
    TileOnly s ((s.dropMx k c.id).postIf k c.main) k ∧ ((s.dropMx k c.id).postIf k c.main).tile k =
      { s.tile k with mxq := (s.tile k).mxq.filter (fun d => d.id ≠ c.id)
                      comp := if bit (field c.main 0 2) 15 then ((s.tile k).comp + 1) % 2 ^ 32 else (s.tile k).comp } := by
  have hd : TileOnly s (s.dropMx k c.id) k := TileOnly.refl.onTile _
  unfold State.postIf
  split
  · exact ⟨hd.onTile _, by simp [State.post, State.dropMx]⟩
  · exact ⟨hd, by simp [State.dropMx]⟩

section
variable {k : TileIx} {s : State} {c : MxCmd}

theorem execArrayCmdStart_zero {cols : List ColErr} {bad : BitVec 8} {sram : Sram}
    (hc : nextStart false [] (s.tile k.val).mxq = some c) (hop : c.op = 5) :
    execArrayCmdStart k cols bad sram s = .next ((s.onMx k.val c.id fun c => { c with st := 1 }).onTile k.val
      fun x => x.zeroGroups c.g (recBits c.main 13 11 + 1)) := by
  simp only [execArrayCmdStart, hc, hop, if_true]

/-- Settles O12: each command's step is taken from the queue's own choice of it, and ZERO's groups from their keys. -/
theorem commandsDone : Obligations.CommandsDone := by
  refine ⟨fun k s => ⟨fun c cols bad sram hc hop hl hg => ?_, fun c hc => ?_, fun c q hq hop => ?_⟩,
    fun k s c sumBad hc => ⟨fun hs => ?_, fun hb hop hd => ?_⟩⟩
  · refine ⟨_, by rw [exec_arrayCmdStart, execArrayCmdStart_zero hc hop], ?_⟩
    refine ⟨(TileOnly.refl.onTile _).onTile _, ?_⟩
    rw [State.tile_onTile_self, State.onMx, State.tile_onTile_self]
    refine ⟨fun q => ?_, fun g h8 => nth_chunks_zeroGroups hl h8 _ _, fun g h8 =>
      ⟨bit_and_groupsKept _ (by omega) h8, bit_and_groupsKept _ (by omega) h8⟩, rfl, rfl, rfl⟩
    exact (Tbl.get_clear _ _ _ _).trans (if_congr (by omega) rfl rfl)
  · exact ⟨_, by rw [exec_arrayCmdDone, execArrayCmdDone, hc], dropMx_postIf_spec s k.val c⟩
  · exact ⟨_, by rw [exec_barrierDone, execBarrierDone, hq]; exact if_pos hop, dropMx_postIf_spec s k.val c⟩
  · have hn : (sumBad && c.op = 2 && c.dest = 2) = false := by
      rcases hs with h | h | h <;> simp [h]
    refine ⟨_, by rw [exec_drainUnitDone, execDrainUnitDone, hc], ?_⟩
    rw [hn]
    exact dropMx_postIf_spec s k.val c
  · rw [exec_drainUnitDone, execDrainUnitDone, hc]
    simp [hb, hop, hd]
end

end Sys2Proof.Machine
end

section
/-! The result of an MM (O13): each row of a band adds its chunks to the groups, and nothing else of the device matters. -/

namespace Sys2Proof.Machine

/-! ### Two changes of one tile -/

theorem Tbl.erase_insert_erase {α : Type} (i : Nat) (v : α) (t : Tbl α) :
    Tbl.erase (Tbl.insert i v (Tbl.erase t i)) i = Tbl.erase t i := by
  have h : ∀ u : Tbl α, Tbl.erase (Tbl.insert i v u) i = Tbl.erase u i := by
    intro u
    induction u with
    | nil => simp [Tbl.insert, Tbl.erase]
    | cons e u ih =>
      rw [Tbl.insert]
      split
      · simp [Tbl.erase]
      · simp only [Tbl.erase, List.filter_cons] at ih ⊢
        rw [ih]
  rw [h]
  simp [Tbl.erase]

theorem Tbl.set_set {α : Type} [DecidableEq α] {d : α} (t : Tbl α) (i : Nat) (v w : α) :
    Tbl.set d (Tbl.set d t i v) i w = Tbl.set d t i w := by
  have h : Tbl.erase (Tbl.set d t i v) i = Tbl.erase t i := by
    unfold Tbl.set
    split
    · simp [Tbl.erase]
    · exact Tbl.erase_insert_erase i v t
  rw [Tbl.set, h, ← Tbl.set]

theorem State.onTile_onTile (s : State) (k : Nat) (f g : Tile → Tile) : (s.onTile k f).onTile k g = s.onTile k fun x => g (f x) := by
  unfold State.onTile Tbl.upd
  simp only [Tbl.set_set, Tbl.get_set_self]

/-! ### Operands that an MM's own changes leave as they are -/

/-- What decides the value of an operand of format `d` of tile `k` is in `r` as in `s`. -/
structure SameOperand (s r : State) (k : Nat) (d : Desc) : Prop where
  store : (r.tile k).store = (s.tile k).store
  marks : (r.tile k).marks = (s.tile k).marks
  wideRec : ∀ i, i < d.widenCap → r.wideRec d i = s.wideRec d i
  wideFault : ∀ b, r.wideFault d b = s.wideFault d b

theorem decodeSb_congr {d : Desc} {f g : Nat → Bytes} (h : ∀ i, i < d.widenCap → f i = g i) (b : Bytes) :
    decodeSb d b f = decodeSb d b g := by
  by_cases hi : field b 2 4 < d.widenCap
  · simp only [decodeSb, h _ hi]
  · simp [decodeSb, show d.widenCap ≤ field b 2 4 by omega]

theorem decodeBlock_congr {d : Desc} {f g : Nat → Bytes} (h : ∀ i, i < d.widenCap → f i = g i) (b : Bytes) :
    decodeBlock d b f = decodeBlock d b g := by
  unfold decodeBlock
  split
  · exact decodeSb_congr h b
  · rfl

section
variable {s r : State} {k : Nat} {d : Desc}

theorem SameOperand.get (h : SameOperand s r k d) (o n : Nat) : (r.tile k).get o n = (s.tile k).get o n := by
  rw [Tile.get, h.store, ← Tile.get]

theorem SameOperand.marked (h : SameOperand s r k d) (o n : Nat) : (r.tile k).marked o n = (s.tile k).marked o n := by
  rw [Tile.marked, h.marks, ← Tile.marked]

theorem SameOperand.opBlock (h : SameOperand s r k d) (o : Nat) : r.opBlock k d o = s.opBlock k d o := by
  simp only [State.opBlock, h.get, h.marked, decodeBlock_congr h.wideRec, h.wideFault]

theorem SameOperand.opRun (h : SameOperand s r k d) (o : Opd) (i c n : Nat) : r.opRun k d o i c n = s.opRun k d o i c n := by
  simp only [State.opRun, h.opBlock, h.get, h.marked]

theorem SameOperand.opLine (h : SameOperand s r k d) (o : Opd) (i c n : Nat) (first : Bool) :
    r.opLine k d o i c n first = s.opLine k d o i c n first := by
  simp only [State.opLine, h.opRun]
end

/-- Whether a line meets its blocks first decides only which of them are counted. -/
theorem State.opLine_first (s : State) (k : Nat) (d : Desc) (o : Opd) (i c n : Nat) (first : Bool) :
    (s.opLine k d o i c n first).1 = (s.opLine k d o i c n false).1 ∧
      (s.opLine k d o i c n first).2.2 = (s.opLine k d o i c n false).2.2 := by
  unfold State.opLine
  split <;> exact ⟨rfl, rfl⟩

/-! ### A row's products -/

/-- What an MM never changes of a tile. -/
def Tile.SameStore (x y : Tile) : Prop := y.store = x.store ∧ y.marks = x.marks ∧ y.vreg = x.vreg

theorem Tile.SameStore.trans {x y z : Tile} (h : x.SameStore y) (g : y.SameStore z) : x.SameStore z :=
  ⟨g.1.trans h.1, g.2.1.trans h.2.1, g.2.2.trans h.2.2⟩

/-- What one column of a row without column errors does to its tile. -/
def Tile.addElem (g i : Nat) (a : List Elem) (x : Tile) (c : List Elem × Nat) : Tile :=
  let key := 16384 * (g + i / 128) + 128 * (i % 128) + c.2
  let v := accumulate (Tbl.get 0 x.acc key) a c.1
  { x with acc := Tbl.set 0 x.acc key v, ovf := if notFinite v then x.ovf ||| 2 ^ (g + i / 128) else x.ovf }

theorem Tile.addRow_nil (x : Tile) (g i : Nat) (a : List Elem) (b : List (List Elem)) (phys : List Nat) :
    x.addRow g i a b phys [] = b.zipIdx.foldl (Tile.addElem g i a) x := rfl

theorem Tile.foldl_addElem_sameStore (g i : Nat) (a : List Elem) (l : List (List Elem × Nat)) (x : Tile) :
    x.SameStore (l.foldl (Tile.addElem g i a) x) := by
  induction l generalizing x with
  | nil => exact ⟨rfl, rfl, rfl⟩
  | cons c l ih => exact Tile.SameStore.trans (y := x.addElem g i a c) ⟨rfl, rfl, rfl⟩ (ih _)

theorem Tile.acc_foldl_addElem (g i : Nat) (a : List Elem) (q : Nat) : ∀ (b : List (List Elem)) (n : Nat) (x : Tile),
    Tbl.get 0 ((b.zipIdx n).foldl (Tile.addElem g i a) x).acc q =
      if 16384 * g + 128 * i + n ≤ q ∧ q < 16384 * g + 128 * i + n + b.length
      then accumulate (Tbl.get 0 x.acc q) a (nth b (q - (16384 * g + 128 * i + n)) []) else Tbl.get 0 x.acc q
  | [], n, x => by rw [if_neg (by simp only [List.length_nil]; omega)]; rfl
  | c :: b, n, x => by
    have hkey : 16384 * (g + i / 128) + 128 * (i % 128) + n = 16384 * g + 128 * i + n := by omega
    have hstep : Tbl.get 0 (x.addElem g i a (c, n)).acc q =
        if q = 16384 * g + 128 * i + n then accumulate (Tbl.get 0 x.acc q) a c else Tbl.get 0 x.acc q := by
      simp only [Tile.addElem, Tbl.get_set, hkey]
      split
      · rename_i h; rw [h]
      · rfl
    rw [List.zipIdx_cons, List.foldl_cons, Tile.acc_foldl_addElem g i a q b (n + 1), hstep, List.length_cons]
    rcases Nat.lt_trichotomy q (16384 * g + 128 * i + n) with h | h | h
    · rw [if_neg (by omega), if_neg (by omega), if_neg (by omega)]
    · rw [if_neg (by omega), if_pos h, if_pos (by omega), h, Nat.sub_self]; rfl
    · rw [if_neg (show ¬q = 16384 * g + 128 * i + n by omega),
        show q - (16384 * g + 128 * i + n) = (q - (16384 * g + 128 * i + (n + 1))) + 1 by omega]
      exact if_congr (by omega) rfl rfl

/-! ### The course of an MM -/

/-- The row and column of the accumulators' keys that an MM from group `g` uses. -/
def accKey (g i j : Nat) : Nat := 16384 * (g + i / 128) + 128 * (i % 128) + j

/-- Tile `x` has become `y` by an MM's command: the elements of its groups have the values `val`. -/
structure MmTile (c : MxCmd) (val : Nat → Nat → Nat) (x y : Tile) : Prop where
  same : x.SameStore y
  elem : ∀ i j, i < c.m → j < c.n → Tbl.get 0 y.acc (accKey c.g i j) = val i j
  rest : ∀ q, q < 16384 * c.g ∨ 16384 * (c.g + ceilDiv c.m 128) ≤ q → Tbl.get 0 y.acc q = Tbl.get 0 x.acc q

/-- The states that an MM on tile `k` runs through from `s`: those where only the tile and counts of formats have changed. -/
structure MmAt (s : State) (k : Nat) (c : MxCmd) (val : Nat → Nat → Nat) (r : State) : Prop where
  shape : ∃ (f : Tile → Tile) (F : Tbl FmtCnt), r = { s.onTile k f with fmt := F } ∧ ∀ y : Tile, y.SameStore (f y)
  tile : MmTile c val (s.tile k) (r.tile k)

section
variable {s r : State} {k : Nat} {c : MxCmd} {val val' : Nat → Nat → Nat}

theorem MmAt.count (h : MmAt s k c val r) (a : Nat) (n : EncCounts) : MmAt s k c val (r.count a n) := by
  obtain ⟨⟨f, F, rfl, hf⟩, ht⟩ := h
  exact ⟨⟨f, _, rfl, hf⟩, ht⟩

theorem MmAt.onTile (h : MmAt s k c val r) {g : Tile → Tile} (hg : ∀ y : Tile, y.SameStore (g y))
    (ht : MmTile c val' (s.tile k) (g (r.tile k))) : MmAt s k c val' (r.onTile k g) := by
  obtain ⟨⟨f, F, hr, hf⟩, -⟩ := h
  refine ⟨⟨fun x => g (f x), F, ?_, fun y => (hf y).trans (hg _)⟩, by rwa [State.tile_onTile_self]⟩
  rw [hr]
  exact congrArg (fun u : State => { u with fmt := F }) (State.onTile_onTile s k f g)

/-- The widening records of an MM's operands lie among nothing that it changes. -/
def State.WideFixed (s : State) (k : Nat) (c : MxCmd) : Prop :=
  ∀ (f : Tile → Tile) (F : Tbl FmtCnt), (∀ y, (f y).store = y.store ∧ (f y).marks = y.marks) → ∀ d ∈ [c.da, c.db],
    (∀ i, i < d.widenCap → State.wideRec { s.onTile k f with fmt := F } d i = s.wideRec d i) ∧
    ∀ b, State.wideFault { s.onTile k f with fmt := F } d b = s.wideFault d b

theorem MmAt.sameOperand (h : MmAt s k c val r) (hw : s.WideFixed k c) {d : Desc} (hd : d ∈ [c.da, c.db]) :
    SameOperand s r k d := by
  obtain ⟨hstore, hmarks, -⟩ := h.tile.same
  obtain ⟨⟨f, F, rfl, hf⟩, -⟩ := h
  obtain ⟨hrec, hfault⟩ := hw f F (fun y => ⟨(hf y).1, (hf y).2.1⟩) d hd
  exact ⟨hstore, hmarks, hrec, hfault⟩

theorem MmAt.slotOf (h : MmAt s k c val r) : r.slotOf k = s.slotOf k := by
  obtain ⟨⟨f, F, rfl, -⟩, -⟩ := h
  rfl

theorem MmAt.err (h : MmAt s k c val r) : r.err = s.err := by
  obtain ⟨⟨f, F, rfl, -⟩, -⟩ := h
  rfl

theorem MxCmd.n_le (c : MxCmd) : c.n ≤ 128 := by
  have := bits_lt (field c.main 0 64) 32 26
  unfold MxCmd.n recBits
  omega

/-- The tile after a row's products: the row's elements are added to, the others are as they were. -/
theorem MmTile.addRow {x y : Tile} (h : MmTile c val x y) {i : Nat} (hi : i < c.m) (a : List Elem) (line : Nat → List Elem)
    (phys : List Nat) : MmTile c (fun i' j => if i' = i then accumulate (val i' j) a (line j) else val i' j) x
      (y.addRow c.g i a ((List.range c.n).map line) phys []) := by
  have hn := c.n_le
  rw [Tile.addRow_nil]
  refine ⟨h.same.trans (Tile.foldl_addElem_sameStore ..), fun i' j hi' hj => ?_, fun q hq => ?_⟩
  · rw [Tile.acc_foldl_addElem, h.elem i' j hi' hj, List.length_map, List.length_range, accKey]
    by_cases e : i' = i
    · subst e
      rw [if_pos rfl, if_pos (by omega), show 16384 * (c.g + i' / 128) + 128 * (i' % 128) + j - (16384 * c.g + 128 * i' + 0) = j
        by omega]
      simp [nth, hj]
    · rw [if_neg e, if_neg (by omega)]
  · have hm : i < 128 * ceilDiv c.m 128 := by unfold ceilDiv; omega
    rw [Tile.acc_foldl_addElem, h.rest q hq, List.length_map, List.length_range, if_neg (by omega)]

theorem MmTile.takeChunks {x y : Tile} (h : MmTile c val x y) (g n : Nat) : MmTile c val x (y.takeChunks g n) :=
  ⟨h.same, h.elem, h.rest⟩

theorem MmAt.addRow (h : MmAt s k c val r) {i : Nat} (hi : i < c.m) (a : List Elem) (line : Nat → List Elem) (phys : List Nat)
    (p : Prop) [Decidable p] (q n : Nat) :
    MmAt s k c (fun i' j => if i' = i then accumulate (val i' j) a (line j) else val i' j) (r.onTile k fun x =>
      (if p then x.takeChunks q n else x).addRow c.g i a ((List.range c.n).map line) phys []) := by
  refine h.onTile (fun y => ?_) (MmTile.addRow ?_ hi a line phys)
  · refine Tile.SameStore.trans (y := if p then y.takeChunks q n else y) ?_ (Tile.foldl_addElem_sameStore ..)
    split <;> exact ⟨rfl, rfl, rfl⟩
  · split
    · exact h.tile.takeChunks _ _
    · exact h.tile

/-- The part of A's row i that band b takes. -/
def State.lineA (s : State) (k : Nat) (c : MxCmd) (i b : Nat) : List Elem × Nat × Bool :=
  let dep := bandDepth (rateOf c.da c.db)
  s.opLine k c.da (opdOf c.main 64) i (b * dep) (min dep (c.k - b * dep)) false

/-- The part of B's column j that band b takes. -/
def State.lineB (s : State) (k : Nat) (c : MxCmd) (j b : Nat) : List Elem × Nat × Bool :=
  let dep := bandDepth (rateOf c.da c.db)
  s.opLine k c.db (opdOf c.main 192) j (b * dep) (min dep (c.k - b * dep)) false

/-- Row i of a band passes (R136, R152): its elements are added to. -/
theorem mmRow_at {r : MmRun} {mask : List Nat} {n k0 dep load i : Nat} {line : Nat → List Elem} (hr : r.fault = 0)
    (h : MmAt s k c val r.s) (hw : s.WideFixed k c) (hm : unmasked mask i = true) (hi : i < c.m)
    (hp : (s.opLine k c.da (opdOf c.main 64) i k0 dep false).2.2 = false) :
    let r' := mmRow k c mask [] n k0 dep load ((List.range c.n).map line) .clean r i
    r'.fault = 0 ∧ MmAt s k c (fun i' j => if i' = i then
      accumulate (val i' j) (s.opLine k c.da (opdOf c.main 64) i k0 dep false).1 (line j) else val i' j) r'.s := by
  have hline := (h.sameOperand hw (List.mem_cons_self ..)).opLine (opdOf c.main 64) i k0 dep (firstOf32 mask i)
  obtain ⟨h1, h2⟩ := s.opLine_first k c.da (opdOf c.main 64) i k0 dep (firstOf32 mask i)
  rw [hp] at h2
  have hfail : ∀ phys, (failedRuns fun _ => failingCols (s.opLine k c.da (opdOf c.main 64) i k0 dep false).1
      ((List.range c.n).map line) phys []) = [] := by
    intro phys
    simp [failedRuns, failingCols]
  simp only [mmRow, hr, hm, sramStops, hline, h2, List.filter_nil, h1, hfail, ite_self, List.isEmpty_nil, ne_eq,
    not_true_eq_false, decide_false, Bool.not_true, Bool.or_self, Bool.false_eq_true, if_false]
  refine ⟨trivial, MmAt.addRow ?_ hi ..⟩
  split
  · rw [if_pos trivial]; exact h.count _ _
  · exact h.count _ _

/-- What the first `i` rows of a band leave. -/
theorem mmRows_at {r : MmRun} {mask : List Nat} {n k0 dep load : Nat} {line : Nat → List Elem} (hr : r.fault = 0)
    (h : MmAt s k c val r.s) (hw : s.WideFixed k c) (hm : ∀ i, i < c.m → unmasked mask i = true)
    (hp : ∀ i, i < c.m → (s.opLine k c.da (opdOf c.main 64) i k0 dep false).2.2 = false) :
    ∀ i, i ≤ c.m → let r' := (List.range i).foldl (mmRow k c mask [] n k0 dep load ((List.range c.n).map line) .clean) r
      r'.fault = 0 ∧ MmAt s k c (fun i' j => if i' < i then
        accumulate (val i' j) (s.opLine k c.da (opdOf c.main 64) i' k0 dep false).1 (line j) else val i' j) r'.s := by
  intro i
  induction i with
  | zero => exact fun _ => ⟨hr, by simpa using h⟩
  | succ i ih =>
    intro hi
    obtain ⟨hf, ha⟩ := ih (by omega)
    rw [List.range_succ, List.foldl_append]
    obtain ⟨hf', ha'⟩ := mmRow_at (load := load) (n := n) (line := line) hf ha hw (hm i (by omega)) (by omega) (hp i (by omega))
    refine ⟨hf', ?_⟩
    rw [List.foldl_cons, List.foldl_nil]
    convert ha' using 3 with i' j
    by_cases e : i' = i
    · simp [e]
    · simp only [e, if_false, show i' < i + 1 ↔ i' < i by omega]

/-- A band passes (R135): every element of the command's groups is added to. -/
theorem mmBand_at {r : MmRun} {mask : List Nat} {b : Nat} (hr : r.fault = 0) (h : MmAt s k c val r.s) (hw : s.WideFixed k c)
    (hm : ∀ i, i < c.m → unmasked mask i = true) (hc : ∀ sl, s.slotOf k = some sl → (Tbl.get {} s.err.slots sl).colDue = [])
    (hA : ∀ i, i < c.m → (s.lineA k c i b).2.2 = false) (hB : ∀ j, j < c.n → (s.lineB k c j b).2.2 = false) :
    (mmBand k c mask [] .clean r b).fault = 0 ∧ MmAt s k c (fun i j => if i < c.m then
      accumulate (val i j) (s.lineA k c i b).1 (s.lineB k c j b).1 else val i j) (mmBand k c mask [] .clean r b).s := by
  have hcols : ∀ sl, r.s.slotOf k = some sl → r.s.loadCols sl = r.s := by
    intro sl hs
    rw [State.loadCols, h.err, hc sl (h.slotOf.symm.trans hs)]
    rfl
  have hline : ∀ j first, r.s.opLine k c.db (opdOf c.main 192) j (b * bandDepth (rateOf c.da c.db))
      (min (bandDepth (rateOf c.da c.db)) (c.k - b * bandDepth (rateOf c.da c.db))) first = s.opLine k c.db (opdOf c.main 192) j
      (b * bandDepth (rateOf c.da c.db)) (min (bandDepth (rateOf c.da c.db)) (c.k - b * bandDepth (rateOf c.da c.db))) first :=
    fun j first => (h.sameOperand hw (by simp)).opLine ..
  have hpois : ((List.range c.n).map fun j => s.opLine k c.db (opdOf c.main 192) j (b * bandDepth (rateOf c.da c.db))
      (min (bandDepth (rateOf c.da c.db)) (c.k - b * bandDepth (rateOf c.da c.db))) (j % 32 == 0)).any (·.2.2) = false := by
    simp only [List.any_map, List.any_eq_false, List.mem_range, Function.comp, Bool.not_eq_true]
    exact fun j hj => (State.opLine_first ..).2.trans (hB j hj)
  have hmap : ((·.1) ∘ fun j => s.opLine k c.db (opdOf c.main 192) j (b * bandDepth (rateOf c.da c.db))
      (min (bandDepth (rateOf c.da c.db)) (c.k - b * bandDepth (rateOf c.da c.db))) (j % 32 == 0)) =
      fun j => (s.lineB k c j b).1 := funext fun j => (State.opLine_first ..).1
  have hrows : ∀ (r0 : MmRun), r0.fault = 0 → MmAt s k c val r0.s → ∀ load,
      let r' := (List.range c.m).foldl (mmRow k c mask [] b (b * bandDepth (rateOf c.da c.db))
        (min (bandDepth (rateOf c.da c.db)) (c.k - b * bandDepth (rateOf c.da c.db))) load
        ((List.range c.n).map fun j => (s.lineB k c j b).1) .clean) r0
      r'.fault = 0 ∧ MmAt s k c (fun i j => if i < c.m then accumulate (val i j) (s.lineA k c i b).1 (s.lineB k c j b).1
        else val i j) r'.s := fun r0 hr0 h0 load => mmRows_at hr0 h0 hw hm hA c.m le_rfl
  rcases hs : r.s.slotOf k with _ | sl
  · simp only [mmBand, hr, hs, hline, hpois, ne_eq, not_true_eq_false, if_false, Bool.false_eq_true, List.map_map, hmap]
    exact hrows _ rfl (h.count ..) _
  · simp only [mmBand, hr, hs, hcols sl hs, hline, hpois, ne_eq, not_true_eq_false, if_false, Bool.false_eq_true, List.map_map,
      hmap]
    exact hrows _ rfl (h.count ..) _
theorem MmAt.frame (h : MmAt s k c val r) : r = { s with tiles := r.tiles, fmt := r.fmt } ∧ ∀ j, j ≠ k → r.tile j = s.tile j := by
  obtain ⟨⟨f, F, rfl, -⟩, -⟩ := h
  exact ⟨rfl, fun j hj => State.tile_onTile_ne s hj f⟩

theorem MmAt.congr (h : MmAt s k c val r) (hv : ∀ i j, i < c.m → j < c.n → val i j = val' i j) : MmAt s k c val' r :=
  ⟨h.shape, h.tile.same, fun i j hi hj => (h.tile.elem i j hi hj).trans (hv i j hi hj), h.tile.rest⟩

/-- What the chunks of the first `n` bands of A's row i and B's column j accumulate to from +0. -/
def State.bandsSum (s : State) (k : Nat) (c : MxCmd) (n i j : Nat) : Nat :=
  (List.range n).foldl (fun v b => accumulate v (s.lineA k c i b).1 (s.lineB k c j b).1) 0

theorem mmBands_at {r : MmRun} {mask : List Nat} {n : Nat} (hr : r.fault = 0) (h : MmAt s k c (fun _ _ => 0) r.s)
    (hw : s.WideFixed k c) (hm : ∀ i, i < c.m → unmasked mask i = true)
    (hc : ∀ sl, s.slotOf k = some sl → (Tbl.get {} s.err.slots sl).colDue = [])
    (hA : ∀ i b, i < c.m → b < n → (s.lineA k c i b).2.2 = false)
    (hB : ∀ j b, j < c.n → b < n → (s.lineB k c j b).2.2 = false) :
    ∀ b, b ≤ n → ((List.range b).foldl (mmBand k c mask [] .clean) r).fault = 0 ∧
      MmAt s k c (s.bandsSum k c b) ((List.range b).foldl (mmBand k c mask [] .clean) r).s := by
  intro b
  induction b with
  | zero => exact fun _ => ⟨hr, h⟩
  | succ b ih =>
    intro hb
    obtain ⟨hf, ha⟩ := ih (by omega)
    rw [List.range_succ, List.foldl_append, List.foldl_cons, List.foldl_nil]
    obtain ⟨hf', ha'⟩ := mmBand_at hf ha hw hm hc (fun i hi => hA i b hi (by omega)) fun j hj => hB j b hj (by omega)
    refine ⟨hf', ha'.congr fun i j hi hj => ?_⟩
    rw [if_pos hi, State.bandsSum, State.bandsSum, List.range_succ, List.foldl_append]
    rfl

/-- INIT leaves +0 in the groups (R159). -/
theorem MmAt.zeroGroups (h : MmAt s k c val r) :
    MmAt s k c (fun _ _ => 0) (r.onTile k fun x => x.zeroGroups c.g (ceilDiv c.m 128)) := by
  refine h.onTile (fun y => ⟨rfl, rfl, rfl⟩) ⟨h.tile.same, fun i j hi hj => ?_, fun q hq => ?_⟩
  · have hn := c.n_le
    have hm : i < 128 * ceilDiv c.m 128 := by unfold ceilDiv; omega
    exact (Tbl.get_clear ..).trans (if_pos (by unfold accKey; omega))
  · exact (Tbl.get_clear ..).trans ((if_neg (by omega)).trans (h.tile.rest q hq))

theorem MmAt.onMx (h : MmAt s k c val r) (id : Nat) (f : MxCmd → MxCmd) : MmAt s k c val (r.onMx k id f) :=
  h.onTile (fun _ => ⟨rfl, rfl, rfl⟩) ⟨h.tile.same, h.tile.elem, h.tile.rest⟩

theorem mmAt_onMx (s : State) (k : Nat) (c : MxCmd) (id : Nat) (f : MxCmd → MxCmd) :
    MmAt s k c (fun i j => Tbl.get 0 (s.tile k).acc (accKey c.g i j)) (s.onMx k id f) := by
  refine ⟨⟨fun x => { x with mxq := x.mxq.map fun d => if d.id = id then f d else d }, s.fmt, rfl, fun y =>
    ⟨rfl, rfl, rfl⟩⟩, ?_⟩
  rw [State.onMx, State.tile_onTile_self]
  exact ⟨⟨rfl, rfl, rfl⟩, fun _ _ _ _ => rfl, fun _ _ => rfl⟩

theorem MmAt.countMm (h : MmAt s k c val r) (rows masked pace : Nat) (q : MmRun) :
    MmAt s k c val (r.onTile k fun x => x.countMm c rows masked pace q) :=
  h.onTile (fun _ => ⟨rfl, rfl, rfl⟩) ⟨h.tile.same, h.tile.elem, h.tile.rest⟩

theorem unmasked_allOnes {n i : Nat} (h : i < 128 * n) : unmasked (List.replicate n (2 ^ 128 - 1)) i = true := by
  have hi : i / 128 < n := by omega
  rw [unmasked, nth, List.getD_eq_getElem?_getD, List.getElem?_replicate, if_pos hi, Option.getD_some, bit,
    Nat.testBit_two_pow_sub_one]
  exact decide_eq_true (Nat.mod_lt _ (by omega))

theorem State.accStruck_zero (s : State) (k groups : Nat) : s.accStruck k groups 0 = s := by
  simp [State.accStruck, bit]

/-- An MM without a mask, with INIT and no error, runs through all its bands. -/
theorem MmAt.runMm (h : MmAt s k c val r) (hw : s.WideFixed k c) (hmode : recBits c.main 13 12 = 0)
    (hinit : bit (recBits c.main 11 11) 0 = true)
    (hc : ∀ sl, s.slotOf k = some sl → (Tbl.get {} s.err.slots sl).colDue = [])
    (hA : ∀ i b, i < c.m → b < ceilDiv c.k (bandDepth (rateOf c.da c.db)) → (s.lineA k c i b).2.2 = false)
    (hB : ∀ j b, j < c.n → b < ceilDiv c.k (bandDepth (rateOf c.da c.db)) → (s.lineB k c j b).2.2 = false) :
    MmAt s k c (s.bandsSum k c (ceilDiv c.k (bandDepth (rateOf c.da c.db)))) (r.runMm k c [] 0 .clean) := by
  have hm : ∀ i, i < c.m → unmasked (List.replicate (ceilDiv c.m 128) (2 ^ 128 - 1)) i = true := fun i hi =>
    unmasked_allOnes (by unfold ceilDiv; omega)
  have hrows : ((List.range c.m).filter (unmasked (List.replicate (ceilDiv c.m 128) (2 ^ 128 - 1)))).length = c.m := by
    rw [List.filter_eq_self.2 fun i hi => hm i (List.mem_range.1 hi), List.length_range]
  have hmask : r.readMask k 0 (recBits c.main 341 320) (ceilDiv c.m 128) = (List.replicate (ceilDiv c.m 128) (2 ^ 128 - 1), 0) :=
    rfl
  have hbands := fun u (hu : MmAt s k c (fun _ _ => 0) u) => mmBands_at (r := { s := u }) rfl hu hw hm hc hA hB _ le_rfl
  obtain ⟨hf, ha⟩ := hbands _ (h.zeroGroups.onMx c.id fun d =>
    { d with st := 1, mask := List.replicate (ceilDiv c.m 128) (2 ^ 128 - 1) })
  simp only [State.runMm, hmode, hmask, hinit, hrows, State.accStruck_zero, if_true, ne_eq, not_true_eq_false, if_false, hf]
  rw [if_neg (by unfold MxCmd.m; omega)]
  exact ha.countMm ..
end

/-- Settles O13: an MM runs through states in which only its tile's groups have changed, row by row and band by band. -/
theorem matrixMultiply : Obligations.MatrixMultiply := by
  intro k s c x dep bands lineA lineB hc hop hmode hinit hg hA hB hcol hw
  have h := (mmAt_onMx s k.val c c.id fun c => { c with st := 1 }).runMm hw hmode hinit hcol hA hB
  refine ⟨_, by rw [exec_arrayCmdStart, execArrayCmdStart, hc]; exact if_neg (by omega), ?_⟩
  obtain ⟨ht, hj⟩ := h.frame
  obtain ⟨-, ⟨hstore, -, hvreg⟩, helem, hrest⟩ := h
  exact ⟨helem, hrest, hstore, hvreg, ht, hj⟩

end Sys2Proof.Machine
end

section
/-! Rows of a DRAIN (O14): into the finished-tile queue, and to this device's memory. -/

namespace Sys2Proof.Machine

/-! ### A row for the finished-tile queue -/

/-- Tile `x` has become `y` by rows of a DRAIN that end before row `r`: entries `es` have gone into its queue. -/
structure DrainTile (c : MxCmd) (r : Nat) (es : List FtEntry) (x y : Tile) : Prop where
  ftq : y.ftq = x.ftq ++ es
  later : ∀ q, 16384 * c.g + 128 * r ≤ q → Tbl.get 0 y.acc q = Tbl.get 0 x.acc q
  acc : bit (recBits c.main 14 14) 0 = false → y.acc = x.acc
  store : y.store = x.store
  poison : y.poison = x.poison
  mxq : y.mxq = x.mxq

theorem DrainTile.refl (c : MxCmd) (r : Nat) (x : Tile) : DrainTile c r [] x x :=
  ⟨(List.append_nil _).symm, fun _ _ => rfl, fun _ => rfl, rfl, rfl, rfl⟩

theorem DrainTile.trans {c : MxCmd} {r r' : Nat} {es es' : List FtEntry} {x y z : Tile} (h : DrainTile c r es x y)
    (h' : DrainTile c r' es' y z) (hr : r ≤ r') : DrainTile c r' (es ++ es') x z :=
  ⟨by rw [h'.ftq, h.ftq, List.append_assoc], fun q hq => (h'.later q hq).trans (h.later q (by omega)),
    fun hb => (h'.acc hb).trans (h.acc hb), h'.store.trans h.store, h'.poison.trans h.poison, h'.mxq.trans h.mxq⟩

theorem MxCmd.dn_le (c : MxCmd) : c.dn ≤ 128 := by
  have := bits_lt (field c.main 0 64) 33 27
  unfold MxCmd.dn recBits
  omega

/-- The entries of a row depend on the row's own accumulators and marks alone. -/
theorem ftqEntries_of_drainTile {c : MxCmd} {r r' : Nat} {es : List FtEntry} {x y : Tile} (h : DrainTile c r es x y)
    (hr : r ≤ r') : ftqEntries y c r' = ftqEntries x c r' := by
  have hl : Tbl.getList 0 y.acc (16384 * (c.g + r' / 128) + 128 * (r' % 128)) c.dn =
      Tbl.getList 0 x.acc (16384 * (c.g + r' / 128) + 128 * (r' % 128)) c.dn := by
    rw [Tbl.getList_eq, Tbl.getList_eq]
    exact List.map_congr_left fun q _ => h.later _ (by omega)
  simp only [ftqEntries, hl, h.poison]

section
variable {s : State} {k : Nat} {c : MxCmd}

theorem auxRow_of_func {r : Nat} (hf : c.func < 0x10) : s.auxRow k c r = (List.replicate c.dn 0, s, 0) := if_pos hf

/-- A row of a DRAIN into the finished-tile queue (R304). -/
theorem drainRow_ftq (hop : c.op = 2) (hd : c.dest = 3) (hf : c.func < 0x10) (r : Nat) :
    (s.drainRow k c [] r).2 = 0 ∧ TileOnly s (s.drainRow k c [] r).1 k ∧
      DrainTile c (r + 1) (ftqEntries (s.tile k) c r) (s.tile k) ((s.drainRow k c [] r).1.tile k) := by
  have hn := c.dn_le
  have ht : TileOnly s (s.tickTile k) k := TileOnly.refl.onTile _
  simp only [State.drainRow, auxRow_of_func hf, hop, hd, ne_eq, not_true_eq_false, if_false, if_true, State.onOps,
    show ¬(2 : Nat) = 3 by decide]
  refine ⟨trivial, (TileOnly.onTile ?_ _).onTile _, ?_⟩
  · split
    · exact ht.onTile _
    · exact ht
  · rw [State.tile_onTile_self, State.tile_onTile_self]
    split <;> rename_i hb
    · rw [State.tile_onTile_self, tile_tick]
      refine ⟨rfl, fun q hq => (Tbl.get_clear ..).trans (if_neg (by omega)), fun h => absurd hb (by simp [h]), rfl, rfl, rfl⟩
    · rw [tile_tick]
      exact ⟨rfl, fun _ _ => rfl, fun _ => rfl, rfl, rfl, rfl⟩

theorem length_ftqEntries (x : Tile) (c : MxCmd) (r : Nat) : (ftqEntries x c r).length = ceilDiv c.dn 64 := by
  simp [ftqEntries]

/-- What is left of a DRAIN into the finished-tile queue runs to its end where the queue has room for its rows. -/
theorem drainRows_ftq (hop : c.op = 2) (hd : c.dest = 3) (hf : c.func < 0x10) : ∀ (fuel : Nat) (s : State) (r done : Nat),
    (s.tile k).ftq.length + ((List.range' r fuel).filter (unmasked c.mask)).length * ceilDiv c.dn 64 ≤ 256 →
    ∃ u, TileOnly s u k ∧ DrainTile c (r + fuel) (((List.range' r fuel).filter (unmasked c.mask)).flatMap
        (ftqEntries (s.tile k) c)) (s.tile k) (u.tile k) ∧
      State.drainRows k c [] none .clean fuel s r done = u.onMx k c.id fun c => { c with st := 2, wait := 0 }
  | 0, s, r, _, _ => ⟨s, .refl, .refl .., rfl⟩
  | fuel + 1, s, r, done, hlen => by
    rw [List.range'_succ] at hlen ⊢
    by_cases hm : unmasked c.mask r = true
    · rw [List.filter_cons_of_pos hm, List.length_cons, Nat.add_mul] at hlen
      obtain ⟨h0, hto, hdt⟩ := drainRow_ftq (s := s) (k := k) hop hd hf r
      have hlen' := congrArg List.length hdt.ftq
      rw [List.length_append, length_ftqEntries] at hlen'
      obtain ⟨u, hu, hdu, hrows⟩ := drainRows_ftq hop hd hf fuel (s.drainRow k c [] r).1 (r + 1) (done + 1) (by omega)
      have hent : ((List.range' (r + 1) fuel).filter (unmasked c.mask)).flatMap
          (ftqEntries ((s.drainRow k c [] r).1.tile k) c) =
            ((List.range' (r + 1) fuel).filter (unmasked c.mask)).flatMap (ftqEntries (s.tile k) c) :=
        List.flatMap_congr fun r' hr' => ftqEntries_of_drainTile hdt
          (by have := List.mem_range'_1.1 (List.mem_filter.1 hr').1; omega)
      refine ⟨u, hto.trans hu, ?_, ?_⟩
      · rw [List.filter_cons_of_pos hm, List.flatMap_cons, ← hent, show r + (fuel + 1) = r + 1 + fuel by omega]
        exact hdt.trans hdu (by omega)
      · have hblock : s.drainBlocked k c = 0 := by
          simp [State.drainBlocked, hop, hd]
          omega
        have hheld : s.rowHeld k c r = false := by simp [State.rowHeld, hop, hd]
        rw [State.drainRows, if_neg (by simp [hm])]
        simpa [hheld, hblock, sramStops, h0] using hrows
    · rw [List.filter_cons_of_neg hm] at hlen ⊢
      obtain ⟨u, hu, hdu, hrows⟩ := drainRows_ftq hop hd hf fuel s (r + 1) done hlen
      refine ⟨u, hu, ?_, by rw [State.drainRows, if_pos (by simpa using hm), hrows]⟩
      rw [show r + (fuel + 1) = r + 1 + fuel by omega]
      exact hdu
end

/-! ### A DRAIN into the finished-tile queue -/

theorem filter_range_from (p : Nat → Bool) (a n : Nat) :
    ((List.range n).filter fun r => decide (a ≤ r) && p r) = (List.range' a (n - a)).filter p := by
  have hsplit : List.range n = List.range (min a n) ++ List.range' (min a n) (n - min a n) := by
    have h := List.range'_append_1 (s := 0) (m := min a n) (n := n - min a n)
    rw [Nat.zero_add, show min a n + (n - min a n) = n by omega] at h
    rw [List.range_eq_range', List.range_eq_range', h]
  have hlow : ((List.range (min a n)).filter fun r => decide (a ≤ r) && p r) = [] :=
    List.filter_eq_nil_iff.2 fun r hr => by simp [show ¬a ≤ r by have := List.mem_range.1 hr; omega]
  rw [hsplit, List.filter_append, hlow, List.nil_append]
  by_cases h : a ≤ n
  · rw [min_eq_left h]
    exact List.filter_congr fun r hr => by simp [(List.mem_range'_1.1 hr).1]
  · simp [show n - a = 0 by omega, min_eq_right (show n ≤ a by omega)]

/-- The rows that a DRAIN still has to write, under a mask. -/
def MxCmd.rowsLeft (c : MxCmd) (mask : List Nat) : List Nat :=
  (List.range (128 * c.gcount)).filter fun r => decide (c.row ≤ r) && unmasked mask r

theorem MxCmd.rowsLeft_eq (c : MxCmd) (mask : List Nat) :
    c.rowsLeft mask = (List.range' c.row (128 * c.gcount - c.row)).filter (unmasked mask) := filter_range_from _ _ _

theorem MxCmd.length_rowsLeft_le (c : MxCmd) (mask : List Nat) : (c.rowsLeft mask).length ≤ 128 * c.gcount := by
  rw [c.rowsLeft_eq]
  exact (List.length_filter_le _ _).trans (by rw [List.length_range']; omega)

theorem MxCmd.rowsLeft_pos {c : MxCmd} {mask : List Nat} (h : c.row < 128 * c.gcount) (hm : unmasked mask c.row = true) :
    0 < (c.rowsLeft mask).length :=
  List.length_pos_of_mem (List.mem_filter.2 ⟨List.mem_range.2 h, by simp [hm]⟩)

/-- Two changes of the entries of one command. -/
theorem map_onId_onId {i : Nat} {f g : MxCmd → MxCmd} (hg : ∀ d, d.id = i → (g d).id = i) (l : List MxCmd) :
    (l.map fun d => if d.id = i then g d else d).map (fun d => if d.id = i then f d else d) =
      l.map fun d => if d.id = i then f (g d) else d := by
  rw [List.map_map]
  refine List.map_congr_left fun d _ => ?_
  by_cases h : d.id = i
  · simp [h, hg d h]
  · simp [h]

theorem mxq_onMx (s : State) (k i : Nat) (f : MxCmd → MxCmd) :
    ((s.onMx k i f).tile k).mxq = (s.tile k).mxq.map fun d => if d.id = i then f d else d := by
  rw [State.onMx, State.tile_onTile_self]

theorem onMx_tileOnly {s t : State} {k : Nat} (h : TileOnly s t k) (i : Nat) (f : MxCmd → MxCmd) : TileOnly s (t.onMx k i f) k :=
  h.onTile _

theorem State.tile_upsetBy (s : State) (a : List AddErr) (j : Nat) : (s.upsetBy a).tile j = s.tile j := rfl

theorem TileOnly.upsetBy {s t : State} {k : Nat} (h : TileOnly s t k) (a : List AddErr) :
    TileOnly (s.upsetBy a) (t.upsetBy a) k :=
  ⟨by rw [h.rest]; rfl, h.others⟩

section
variable {k : Nat} {c : MxCmd}

theorem drainRun_of_unbiased (hb : bit (recBits c.main 118 118) 0 = false) (s : State) (stop : Option Nat) (sram : Sram) :
    s.drainRun k c stop sram = State.drainRows k c [] stop sram (128 * c.gcount - c.row) s c.row 0 := by
  simp [State.drainRun, hb]

/-- A DRAIN into the finished-tile queue runs from its row to its end (R304). -/
theorem drainRun_ftq (hop : c.op = 2) (hd : c.dest = 3) (hf : c.func < 0x10) (hb : bit (recBits c.main 118 118) 0 = false)
    {s0 s1 : State} (hs : TileOnly s0 s1 k) (adds : List AddErr)
    (hlen : (s1.tile k).ftq.length + (c.rowsLeft c.mask).length * ceilDiv c.dn 64 ≤ 256) :
    let t := ((s1.upsetBy adds).drainRun k c none .clean).upsetBy []
    TileOnly (s0.upsetBy []) t k ∧
      (t.tile k).ftq = (s1.tile k).ftq ++ (c.rowsLeft c.mask).flatMap (ftqEntries (s1.tile k) c) ∧
      (bit (recBits c.main 14 14) 0 = false → (t.tile k).acc = (s1.tile k).acc) ∧ (t.tile k).store = (s1.tile k).store ∧
      (t.tile k).mxq = (s1.tile k).mxq.map fun d => if d.id = c.id then { d with st := 2, wait := 0 } else d := by
  rw [drainRun_of_unbiased hb]
  rw [c.rowsLeft_eq] at hlen ⊢
  obtain ⟨u, hu, hdu, hrows⟩ := drainRows_ftq hop hd hf (128 * c.gcount - c.row) (s1.upsetBy adds) c.row 0 hlen
  rw [hrows]
  refine ⟨?_, ?_⟩
  · exact (hs.upsetBy []).trans ((onMx_tileOnly hu _ _).upsetBy [])
  · rw [State.tile_upsetBy, State.onMx, State.tile_onTile_self]
    exact ⟨hdu.ftq, hdu.acc, hdu.store, by rw [hdu.mxq]; rfl⟩
end

/-! ### Holds and rows to memory -/

theorem drainRun_stops {s : State} {k : Nat} {c : MxCmd} {sram : Sram} (hb : bit (recBits c.main 118 118) 0 = false)
    (hr : c.row < 128 * c.gcount) (hm : unmasked c.mask c.row = true) : s.drainRun k c (some c.row) sram =
      s.onMx k c.id fun c' => { c' with row := c.row, wait := 1, since := s.now } := by
  obtain ⟨n, hn⟩ : ∃ n, 128 * c.gcount - c.row = n + 1 := ⟨_, (Nat.succ_pred_eq_of_pos (by omega)).symm⟩
  rw [drainRun_of_unbiased hb, hn, State.drainRows, if_neg (by simp [hm])]
  simp

section
variable {k : TileIx} {s : State} {c : MxCmd} {adds : List AddErr}

/-- A DRAIN into the finished-tile queue begins (R154). -/
theorem execDrainUnitStart_ftq (hc : nextStart true [] (s.tile k.val).mxq = some c) (hop : c.op = 2) (hf : c.func < 0x10)
    (hmode : recBits c.main 26 25 = 0) : execDrainUnitStart k none 0 .clean adds s =
      .next (((((s.onMx k.val c.id fun d => { d with st := 1 }).onMx k.val c.id fun _ =>
        { c with st := 1, mask := List.replicate c.gcount (2 ^ 128 - 1) }).upsetBy adds).drainRun k.val
          { c with st := 1, mask := List.replicate c.gcount (2 ^ 128 - 1) } none .clean).upsetBy []) := by
  simp [execDrainUnitStart, hc, hop, hmode, State.readMask, State.auxHeader, hf, State.accStruck_zero, State.sramRead]

/-- What a DRAIN that was held is when it goes on: the cycles that it waited have been counted (R185). -/
def State.drainGoesOn (s : State) (k : Nat) (c : MxCmd) : State :=
  (s.onOps k fun o => { o with drainWaits := sat64 o.drainWaits ((s.now - c.since) * Config.coreMHz s.pwr.pstate / 1000) }).onMx
    k c.id fun _ => { c with wait := 0 }

/-- A held DRAIN goes on (R185). -/
theorem execDrainResume_of_free {stop : Option Nat}
    (hc : ((s.tile k.val).mxq.find? fun c => c.drains && c.st == 1 && c.wait ≠ 0) = some c)
    (hfree : s.drainBlocked k.val c = 0) : execDrainResume k stop .clean adds s =
      .next ((((s.drainGoesOn k.val c).upsetBy adds).drainRun k.val { c with wait := 0 } stop .clean).upsetBy []) := by
  rw [execDrainResume, hc]
  exact if_neg (by omega)

theorem State.tile_drainGoesOn (s : State) (k : Nat) (c : MxCmd) : ∃ o, (s.drainGoesOn k c).tile k =
    { s.tile k with ops := o, mxq := (s.tile k).mxq.map fun d => if d.id = c.id then { c with wait := 0 } else d } := by
  rw [State.drainGoesOn, State.onMx, State.tile_onTile_self, State.onOps, State.tile_onTile_self]
  exact ⟨_, rfl⟩

theorem State.drainGoesOn_tileOnly (s : State) (k : Nat) (c : MxCmd) : TileOnly s (s.drainGoesOn k c) k :=
  (TileOnly.refl.onTile _).onTile _

end

/-- Settles O14: the rows of a DRAIN are taken one by one, and those yet to come read what they would have read first. -/
theorem drainRows : Obligations.DrainRows := by
  constructor
  · intro k s c adds x s0 rows hop hd hf hb
    refine ⟨fun hc hmode hrow hlen => ?_, fun hc hrow hm hlen => ?_, fun hc hrow hfree hm => ?_⟩
    · let c1 : MxCmd := { c with st := 1, mask := List.replicate c.gcount (2 ^ 128 - 1) }
      let s1 := (s.onMx k.val c.id fun d => { d with st := 1 }).onMx k.val c.id fun _ => c1
      have h1 : s1.tile k.val = { x with mxq := x.mxq.map fun d => if d.id = c.id then c1 else d } := by
        simp only [s1, State.onMx, State.tile_onTile_self]
        exact congrArg (fun q => { x with mxq := q }) (map_onId_onId (g := fun d => { d with st := 1 }) (fun _ h => h) _)
      have hleft := c1.length_rowsLeft_le c1.mask
      obtain ⟨ht, hftq, hacc, hstore, hmxq⟩ := drainRun_ftq (k := k.val) (c := c1) (s0 := s) (s1 := s1) hop hd hf hb
        (onMx_tileOnly (onMx_tileOnly .refl c.id _) c.id _) adds
        (by rw [h1]; exact (Nat.add_le_add_left (Nat.mul_le_mul_right _ hleft) _).trans hlen)
      rw [h1] at hftq hacc hstore hmxq
      refine ⟨_, by rw [exec_drainUnitStart, execDrainUnitStart_ftq hc hop hf hmode], ht, hftq, hacc, hstore, hmxq.trans ?_⟩
      exact map_onId_onId (fun _ _ => rfl) _
    · have hfree : s.drainBlocked k.val c = 0 := by
        have := Nat.le_mul_of_pos_left (ceilDiv c.dn 64) (MxCmd.rowsLeft_pos hrow hm)
        change (s.tile k.val).ftq.length + (c.rowsLeft c.mask).length * ceilDiv c.dn 64 ≤ 256 at hlen
        simp only [State.drainBlocked, hop, hd, ne_eq, not_true_eq_false, if_false]
        simp
        omega
      let c1 : MxCmd := { c with wait := 0 }
      obtain ⟨o, h1⟩ := s.tile_drainGoesOn k.val c
      obtain ⟨ht, hftq, hacc, -, hmxq⟩ := drainRun_ftq (k := k.val) (c := c1) (s0 := s) hop hd hf hb
        (s.drainGoesOn_tileOnly k.val c) adds (by rw [h1]; exact hlen)
      rw [h1] at hftq hacc hmxq
      refine ⟨_, by rw [exec_drainResume, execDrainResume_of_free hc hfree], ht, hftq, hacc, hmxq.trans ?_⟩
      exact map_onId_onId (fun _ _ => rfl) _
    · obtain ⟨o, h1⟩ := s.tile_drainGoesOn k.val c
      refine ⟨_, by rw [exec_drainResume, execDrainResume_of_free hc hfree,
        drainRun_stops (c := { c with wait := 0 }) hb hrow hm], ?_⟩
      refine ⟨(onMx_tileOnly ((s.drainGoesOn_tileOnly k.val c).upsetBy adds) _ _).upsetBy [], ?_⟩
      rw [State.tile_upsetBy, State.onMx, State.tile_onTile_self, State.tile_upsetBy, h1]
      exact ⟨rfl, rfl, map_onId_onId (fun _ _ => rfl) _⟩
  · intro k s c r x g key s1 s2 out e a s3 t hop hd hf he hown hw
    have hrow : c.rowAddr k r = a := rfl
    have hwrite : e.2.1.drainWrite k c a e.1 c.da.format (bit x.poison g) =
        (s3.memWrite (addrOff a) e.1 c.da.format (bit x.poison g), 0) := by
      rw [State.drainWrite, if_pos hown]
      exact if_neg (by simpa using hw)
    simp only [State.drainRow, auxRow_of_func hf, hop, hrow, ne_eq, not_true_eq_false, if_false]
    rw [if_neg (by decide), if_neg (by omega), if_neg (by omega)]
    have hfab : s2.fab = s.fab := by
      simp only [s2]
      split <;> rfl
    change ((if e.2.2 ≠ 0 then e.2 else e.2.1.drainWrite k c a e.1 c.da.format (bit x.poison g)).1.drainAwait k c s2.fab.nextReq,
      (if e.2.2 ≠ 0 then e.2 else e.2.1.drainWrite k c a e.1 c.da.format (bit x.poison g)).2) = (t.drainAwait k c s.fab.nextReq, 0)
    rw [if_neg (by simpa using he), hwrite, hfab]

end Sys2Proof.Machine
end

section
/-! The Pannier stacks (O15). -/

namespace Sys2Proof.Machine

/-! ### Where the records of the main stack lie -/

/-- A record but for its place. -/
def PnRec.unplaced (r : PnRec) : PnRec := { r with place := 0 }

/-- From `s` to `t` only the places of the records in tile `k`'s main stack change. -/
structure PlacesOnly (s t : State) (k : Nat) : Prop where
  only : TileOnly s t k
  tile : ∃ m, t.tile k = { s.tile k with pn := { (s.tile k).pn with main := m } } ∧
    m.map PnRec.unplaced = (s.tile k).pn.main.map PnRec.unplaced

section
variable {s t u : State} {k : Nat}

theorem PlacesOnly.refl : PlacesOnly s s k := ⟨.refl, _, rfl, rfl⟩

theorem PlacesOnly.trans (h : PlacesOnly s t k) (g : PlacesOnly t u k) : PlacesOnly s u k := by
  obtain ⟨hto, m, hm, hmap⟩ := h
  obtain ⟨gto, n, hn, gmap⟩ := g
  rw [hm] at hn gmap
  exact ⟨hto.trans gto, n, hn, gmap.trans hmap⟩

theorem placeRec_placesOnly (s : State) (k off n : Nat) : PlacesOnly s (s.placeRec k off n) k := by
  refine ⟨TileOnly.refl.onTile _, _, by rw [State.placeRec, State.onPn, State.tile_onTile_self], ?_⟩
  rw [List.map_map]
  refine List.map_congr_left fun q _ => ?_
  rw [Function.comp]
  split <;> rfl

theorem spill_placesOnly (s : State) (k : Nat) : PlacesOnly s (s.spill k) k := by
  unfold State.spill
  extract_lets p
  split
  · split
    · rename_i r _
      exact placeRec_placesOnly s k r.off 1
    · exact .refl
  · exact .refl

theorem restore_placesOnly (s : State) (k : Nat) : PlacesOnly s (s.restore k) k := by
  unfold State.restore
  extract_lets p
  split
  · split
    · rename_i r _
      split
      · exact placeRec_placesOnly s k r.off 3
      · exact .refl
    · exact .refl
  · exact .refl

theorem balance_placesOnly (s : State) (k : Nat) : PlacesOnly s (s.balance k) k :=
  (restore_placesOnly s k).trans (spill_placesOnly _ k)

/-! ### The head of the queue -/

theorem tile_dropPn (s : State) (k : Nat) : (s.dropPn k).tile k = { s.tile k with panq := (s.tile k).panq.drop 1 } := by
  rw [State.dropPn, State.tile_onTile_self]

theorem tile_onPn (s : State) (k : Nat) (f : Pannier → Pannier) :
    (s.onPn k f).tile k = { s.tile k with pn := f (s.tile k).pn } := by
  rw [State.onPn, State.tile_onTile_self]

/-- COMP after a command whose record is `rcd` has completed. -/
def postsTo (rcd : Bytes) (n : Nat) : Nat := if bit (field rcd 0 2) 15 then (n + 1) % 2 ^ 32 else n

theorem tile_postIf (s : State) (k : Nat) (rcd : Bytes) :
    (s.postIf k rcd).tile k = { s.tile k with comp := postsTo rcd (s.tile k).comp } := by
  unfold State.postIf postsTo
  split
  · rw [State.post, State.tile_onTile_self]
  · rfl

theorem postIf_tileOnly (h : TileOnly s t k) (rcd : Bytes) : TileOnly s (t.postIf k rcd) k := by
  unfold State.postIf
  split
  · exact h.onTile _
  · exact h

theorem tile_countPn (s : State) (k n : Nat) : ∃ o, (s.countPn k n).tile k = { s.tile k with ops := o } :=
  ⟨_, by rw [State.countPn, State.onOps, State.tile_onTile_self]⟩

theorem tile_onPnHead (s : State) (k : Nat) (f : PnCmd → PnCmd) {c : PnCmd} {q : List PnCmd} (h : (s.tile k).panq = c :: q) :
    (s.onPnHead k f).tile k = { s.tile k with panq := f c :: q } := by
  rw [State.onPnHead, State.tile_onTile_self, h]

end

section
variable {k : TileIx} {s : State} {c : PnCmd} {q : List PnCmd} (hq : (s.tile k.val).panq = c :: q)
include hq

/-- A Pannier command at the head begins, its configuration good. -/
theorem execPannierCmdStart_of_good {sram : Sram} (hst : c.st = 0) (hb : s.pnConfigBad (s.tile k.val).pn = false) :
    execPannierCmdStart k sram s =
      let s1 := s.onPnHead k.val fun c => { c with st := 1 }
      if c.op = 0x44 then
        .next (((s1.onPn k.val fun p => { p with main := [], ckpt := [] }).dropPn k.val).postIf k.val c.main)
      else if c.op = 0x41 then .next ((s1.sramRead k.val sram).1.pushStart k.val c sram)
      else .next (s1.popStart k.val c) := by
  have hpn : ((s.onPnHead k.val fun c => { c with st := 1 }).tile k.val).pn = (s.tile k.val).pn := by
    rw [tile_onPnHead s _ _ hq]
  have hb' : (s.onPnHead k.val fun c => { c with st := 1 }).pnConfigBad (s.tile k.val).pn = false := hb
  simp only [execPannierCmdStart, hq, hst, hpn, hb', ne_eq, not_true_eq_false, if_false, Bool.false_eq_true]

theorem reset_spec (hst : c.st = 0) (hop : c.op = 0x44) (hb : s.pnConfigBad (s.tile k.val).pn = false) :
    Does (.pannierCmdStart k .clean) s fun t => TileOnly s t k.val ∧ t.tile k.val =
      { s.tile k.val with panq := q, pn := { (s.tile k.val).pn with main := [], ckpt := [] }
                          comp := postsTo c.main (s.tile k.val).comp } := by
  refine ⟨_, by rw [exec_pannierCmdStart, execPannierCmdStart_of_good hq hst hb]; exact if_pos hop, ?_, ?_⟩
  · exact postIf_tileOnly (((TileOnly.refl.onTile _).onTile _).onTile _) _
  · rw [tile_postIf, tile_dropPn, tile_onPn, tile_onPnHead s _ _ hq]
    rfl

/-- A PUSH that its configuration, its segment and its place allow writes its record (R212). -/
theorem push_spec (hst : c.st = 0) (hop : c.op = 0x41) (hb : s.pnConfigBad (s.tile k.val).pn = false)
    (hseg : bit (recBits c.main 8 8) 0 = true ∨
      ∃ p l, (s.tile k.val).pn.ckpt = p :: l ∧ p.seg = recBits c.main 143 128 ∧ p.mb = recBits c.main 23 16)
    (hplace : s.pnPlace (s.tile k.val).pn (bit (recBits c.main 8 8) 0) (pnSize (recBits c.main 117 96)) = 0)
    (hmark : (s.tile k.val).marked (recBits c.main 85 64) (recBits c.main 117 96) = false) :
    let ckpt := bit (recBits c.main 8 8) 0
    let pn := (s.tile k.val).pn
    let b := (s.tile k.val).get (recBits c.main 85 64) (recBits c.main 117 96)
    let r := s.pushRec c ckpt (pnEnd (if ckpt then pn.ckpt else pn.main)) b
    exec (.pannierCmdStart k .clean) s = .next (((s.onPnHead k.val fun c => { c with st := 1 }).ringWrite
      (if ckpt then pn.ckptBase else pn.mainBase) (if ckpt then 4096 * pn.ckptPages else pn.ring) r.off (r.header ++ b) r.fmt
        false).onPnHead k.val fun c => { c with wait := 0, rcd := some r }) := by
  intro ckpt pn b r
  have ht := tile_onPnHead s k.val (fun c => { c with st := 1 }) hq
  have hpn : ((s.onPnHead k.val fun c => { c with st := 1 }).tile k.val).pn = pn := by rw [ht]
  have hget : ((s.onPnHead k.val fun c => { c with st := 1 }).tile k.val).get (recBits c.main 85 64) (recBits c.main 117 96) = b := by
    rw [ht]; rfl
  have hmk : ((s.onPnHead k.val fun c => { c with st := 1 }).tile k.val).marked (recBits c.main 85 64) (recBits c.main 117 96) =
      false := by
    rw [ht]; exact hmark
  have hpl : (s.onPnHead k.val fun c => { c with st := 1 }).pnPlace pn (bit (recBits c.main 8 8) 0)
      (pnSize (recBits c.main 117 96)) = 0 := hplace
  rw [exec_pannierCmdStart, execPannierCmdStart_of_good hq hst hb]
  refine (if_neg (by omega)).trans ((if_pos hop).trans (congrArg _ ?_))
  unfold State.pushStart
  rw [if_neg]
  · simp only [State.sramRead, hpn, hpl, hmk, hget, sramStops, Bool.false_eq_true, if_false]
    rfl
  · rcases hseg with h | ⟨p, l, hl, h1, h2⟩
    · simp [h]
    · simp [State.sramRead, hpn, pn, hl, h1, h2]

/-- A POP or PEEK of a resident record that matches its header begins (R218, R219). -/
theorem pop_spec {r : PnRec} (hst : c.st = 0) (hop : c.op = 0x42 ∨ c.op = 0x43)
    (hb : s.pnConfigBad (s.tile k.val).pn = false)
    (htop : (if bit (recBits c.main 8 8) 0 then (s.tile k.val).pn.ckpt else (s.tile k.val).pn.main).head? = some r)
    (hmis : pnMismatch c r = false) (hplace : bit (recBits c.main 8 8) 0 = true ∨ r.place = 0)
    (horder : bit (recBits c.main 8 8) 0 = false ∨ c.op = 0x43 ∨
      ∀ m, (s.tile k.val).pn.main.head? = some m → ¬(m.seg = r.seg ∧ m.mb = r.mb)) :
    exec (.pannierCmdStart k .clean) s = .next (s.onPnHead k.val fun c => { c with st := 1 }) := by
  have hpn : ((s.onPnHead k.val fun c => { c with st := 1 }).tile k.val).pn = (s.tile k.val).pn := by
    rw [tile_onPnHead s _ _ hq]
  rw [exec_pannierCmdStart, execPannierCmdStart_of_good hq hst hb]
  refine (if_neg (by omega)).trans ((if_neg (by omega)).trans (congrArg _ ?_))
  obtain ⟨l, hl⟩ := List.head?_eq_some_iff.1 htop
  simp only [State.popStart, hpn, hl]
  rw [if_neg, if_pos (by simpa using hplace)]
  rcases horder with h | h | h
  · simp [hmis, h]
  · simp [hmis, h]
  · cases hm : (s.tile k.val).pn.main with
    | nil => simp [hmis]
    | cons m t =>
      have := h m (by rw [hm, List.head?_cons])
      simp only [hmis, Bool.false_or, Bool.and_eq_true, decide_eq_true_eq]
      exact fun hand => this hand.2

/-- A PUSH that is done puts its record on its stack (R215). -/
theorem pushDone_spec {r : PnRec} (hr : c.rcd = some r) : Does (.pushDone k) s fun t =>
    t = (((((s.onPn k.val fun p => if r.ckpt then { p with ckpt := r :: p.ckpt } else { p with main := r :: p.main }).dropPn
      k.val).countPn k.val r.len).postIf k.val c.main).spill k.val) ∧
    TileOnly s t k.val ∧ (t.tile k.val).panq = q ∧ (t.tile k.val).comp = postsTo c.main (s.tile k.val).comp ∧
    (if r.ckpt then (t.tile k.val).pn.ckpt = r :: (s.tile k.val).pn.ckpt
     else (t.tile k.val).pn.main.map PnRec.unplaced = (r :: (s.tile k.val).pn.main).map PnRec.unplaced) := by
  refine ⟨_, by rw [exec_pushDone, execPushDone, hq]; simp only [hr], rfl, ?_⟩
  obtain ⟨hto, m, hm, hmap⟩ := spill_placesOnly (((((s.onPn k.val fun p =>
    if r.ckpt then { p with ckpt := r :: p.ckpt } else { p with main := r :: p.main }).dropPn k.val).countPn k.val
      r.len).postIf k.val c.main)) k.val
  obtain ⟨o, ho⟩ := tile_countPn ((s.onPn k.val fun p =>
    if r.ckpt then { p with ckpt := r :: p.ckpt } else { p with main := r :: p.main }).dropPn k.val) k.val r.len
  rw [tile_postIf, ho, tile_dropPn, tile_onPn, hq] at hm hmap
  refine ⟨(postIf_tileOnly (((TileOnly.refl.onTile _).onTile _).onTile _) _).trans hto, by rw [hm]; rfl, by rw [hm], ?_⟩
  rw [hm]
  split
  · simp [*]
  · rw [hmap]
    simp [*]

/-- A POP or PEEK whose record reads back as it was written is done (R213, R219). -/
theorem popDone_spec {r : PnRec} {l : List PnRec} (hst : c.st = 1) (hw : c.wait = 0) (hop : c.op = 0x42 ∨ c.op = 0x43)
    (hl : (if bit (recBits c.main 8 8) 0 then (s.tile k.val).pn.ckpt else (s.tile k.val).pn.main) = r :: l) :
    let ckpt := bit (recBits c.main 8 8) 0
    let pn := (s.tile k.val).pn
    let d := s.ringRead (if ckpt then pn.ckptBase else pn.mainBase) (if ckpt then 4096 * pn.ckptPages else pn.ring) r.off
      (64 + r.len)
    d.2.1 = false → d.1.take 64 = r.header → checkOf (d.1.drop 64) = r.check → r.step = d.2.2.stepNo % 65536 →
    exec (.popDone k) s = .next ((((((d.2.2.onTile k.val fun y => y.put (recBits c.main 85 64) (d.1.drop 64) false).onPn
      k.val fun p =>
        if c.op = 0x43 then { p with last := 0 }
        else if ckpt then { p with last := 0, ckpt := p.ckpt.drop 1 } else { p with last := 0, main := p.main.drop 1 }).dropPn
          k.val).countPn k.val r.len).postIf k.val c.main).balance k.val) := by
  intro ckpt pn d h1 h2 h3 h4
  rw [exec_popDone, execPopDone, hq]
  have hgo : (c.st ≠ 1 || c.wait ≠ 0 || !(c.op = 0x42 || c.op = 0x43)) = false := by
    rcases hop with h | h <;> simp [hst, hw, h]
  simp only [hgo, hl, Bool.false_eq_true, if_false]
  refine if_neg ?_
  change ¬((d.2.1 || d.1.take 64 ≠ r.header || checkOf (d.1.drop 64) ≠ r.check || r.step ≠ d.2.2.stepNo % 65536) = true)
  simp [h1, h2, h3, h4]

/-- A POP whose grace ends (R228): its record and those of its segment and micro-batch are gone. -/
theorem popGrace_spec {r : PnRec} {l : List PnRec} (hm : (s.tile k.val).pn.main = r :: l) (hw : c.wait = 0x21)
    (hdue : c.due ≤ s.now) : Does (.popGraceExpiry k) s fun t =>
      TileOnly { s with tier := { s.tier with recompute := satAdd 16 s.tier.recompute 1 } } t k.val ∧
      (t.tile k.val).panq = q ∧ (t.tile k.val).comp = postsTo c.main (s.tile k.val).comp ∧ (t.tile k.val).pn.last = 1 ∧
      (t.tile k.val).pn.missTag = r.tag ∧ ∀ p ∈ (t.tile k.val).pn.main, ¬(p.seg = r.seg ∧ p.mb = r.mb) := by
  refine ⟨s.restoreLost k.val c r, ?_, ?_⟩
  · rw [exec_popGraceExpiry, execPopGraceExpiry, hq, hm]
    exact if_pos (by simp [hw, hdue])
  unfold State.restoreLost State.recompute
  generalize hs1 : ({ s with tier := { s.tier with recompute := satAdd 16 s.tier.recompute 1 } } : State) = s1
  have htile : s1.tile k.val = s.tile k.val := by rw [← hs1]; rfl
  obtain ⟨hto, m, hm', hmap⟩ := balance_placesOnly (((s1.onPn k.val fun p => { p with
    main := p.main.filter fun q => !(q.off = r.off || (q.seg = r.seg && q.mb = r.mb))
    last := 1, missTag := r.tag, recomputes := satAdd 16 p.recomputes 1 }).dropPn k.val).postIf k.val c.main) k.val
  rw [tile_postIf, tile_dropPn, tile_onPn, htile, hq] at hm' hmap
  refine ⟨(postIf_tileOnly ((TileOnly.refl.onTile _).onTile _) _).trans hto, by rw [hm']; rfl, by rw [hm'], by rw [hm'],
    by rw [hm'], ?_⟩
  rw [hm']
  intro p hp hsm
  obtain ⟨p', hp', he⟩ := List.mem_map.1 (hmap ▸ List.mem_map_of_mem (f := PnRec.unplaced) hp)
  have hseg : p'.seg = p.seg := show p'.unplaced.seg = p.unplaced.seg by rw [he]
  have hmb : p'.mb = p.mb := show p'.unplaced.mb = p.unplaced.mb by rw [he]
  have := (List.mem_filter.1 hp').2
  simp [hseg, hmb, hsm.1, hsm.2] at this
end

section
variable {k : TileIx} {s : State} {r : PnRec}

/-- A spill that ends has put its record into the spill area (R223, R224). -/
theorem spillDone_spec (hr : ((s.tile k.val).pn.main.find? fun r => r.place == 1) = some r)
    (hmap : s.tierMapped ((s.tile k.val).pn.spillBase + r.off) (64 + r.len) = true) :
    let pn := (s.tile k.val).pn
    let d := s.ringRead pn.mainBase pn.ring r.off (64 + r.len)
    let s1 := d.2.2.memWrite (pn.spillBase + r.off) d.1 r.fmt d.2.1
    let s2 := s1.placeRec k.val r.off 2
    exec (.spillDone k) s = .next ((match (s2.tile k.val).panq with
      | c :: _ => if c.wait = 0x20 then s2.pushStart k.val c .clean else s2
      | [] => s2).spill k.val) := by
  intro pn d s1 s2
  rw [exec_spillDone, execSpillDone]
  simp only [hr, hmap, Bool.not_true, Bool.false_eq_true, if_false]
  rfl

/-- A restore that ends puts its record back into the ring (R227). -/
theorem restoreDone_spec (far : List Byte) (hr : ((s.tile k.val).pn.main.find? fun r => r.place == 3) = some r) :
    let d := s.readFar ((s.tile k.val).pn.spillBase + r.off) (64 + r.len) far
    exec (.restoreDone k true far) s = .next ((d.2.2.restored k.val r d.1 d.2.1).restore k.val) := by
  rw [exec_restoreDone, execRestoreDone]
  generalize s.readFar = f
  simp only [hr, Bool.not_true, Bool.false_eq_true, if_false]

/-- A restore that fails leaves its record spilled (R459). -/
theorem restoreFailed_eq (far : List Byte) (hr : ((s.tile k.val).pn.main.find? fun r => r.place == 3) = some r) :
    (∀ c l q m, (s.tile k.val).panq = c :: l → (s.tile k.val).pn.main = q :: m → c.wait = 0x21 → q.off = r.off →
      exec (.restoreDone k false far) s = .next ((s.placeRec k.val r.off 2).restoreLost k.val c q)) ∧
    ((∀ c l q m, (s.tile k.val).panq = c :: l → (s.tile k.val).pn.main = q :: m → ¬(c.wait = 0x21 ∧ q.off = r.off)) →
      exec (.restoreDone k false far) s = .next (s.placeRec k.val r.off 2)) := by
  have hpanq : ((s.placeRec k.val r.off 2).tile k.val).panq = (s.tile k.val).panq := by rw [State.placeRec, tile_onPn]
  rw [exec_restoreDone, execRestoreDone]
  refine ⟨fun c l q m hc hq hw ho => ?_, fun hno => ?_⟩
  · rw [hq] at hr
    simp only [hr, hpanq, hc, hq, hw, ho]
    rfl
  · simp only [hr, hpanq]
    cases hc : (s.tile k.val).panq with
    | nil => rfl
    | cons c l =>
      cases hq : (s.tile k.val).pn.main with
      | nil => rfl
      | cons q m =>
        have := hno c l q m hc hq
        simp only [Bool.not_false, if_true]
        exact if_neg (by simpa only [Bool.and_eq_true, decide_eq_true_eq] using this)
end

/-- Settles O15: each Pannier command's step, from the queue's head and its record. -/
theorem pannierStacks : Obligations.PannierStacks := by
  refine ⟨fun k s c q hq => ⟨reset_spec hq, push_spec hq, fun r => pop_spec hq, fun r => pushDone_spec hq,
    fun r l hst hw hop hl => popDone_spec hq hst hw hop hl, fun r l => popGrace_spec hq⟩, fun k s r far => ⟨spillDone_spec,
    fun hr => ⟨restoreDone_spec far hr, (restoreFailed_eq far hr).1, fun hno => ?_⟩⟩⟩
  refine ⟨_, (restoreFailed_eq far hr).2 hno, TileOnly.refl.onTile _, ?_⟩
  rw [State.placeRec, tile_onPn]

end Sys2Proof.Machine
end

section
/-! Events of the package (O16): Carousel moves, self-tests, mesh and link retries, counters. -/

namespace Sys2Proof.Machine

/-! ### Reports of Dorlen's units -/

/-- From `s` to `t` at most the records of the error log change. -/
def LogOnly (s t : State) : Prop :=
  t = { s with err := { s.err with
    queue := t.err.queue, ring := t.err.ring, queuePeak := t.err.queuePeak, lost := t.err.lost, coalesced := t.err.coalesced
    held := t.err.held } }

theorem logOnly_iff {s t : State} : LogOnly s t ↔ ∃ queue ring queuePeak lost coalesced held, t = { s with err := { s.err with
    queue := queue, ring := ring, queuePeak := queuePeak, lost := lost, coalesced := coalesced, held := held } } :=
  ⟨fun h => ⟨_, _, _, _, _, _, h⟩, by rintro ⟨_, _, _, _, _, _, rfl⟩; rfl⟩

theorem ErrLog.report_eq (e : ErrLog) (r : ErrRec) : e.report r = { e with
    queue := (e.report r).queue, ring := (e.report r).ring, queuePeak := (e.report r).queuePeak, lost := (e.report r).lost
    coalesced := (e.report r).coalesced, held := (e.report r).held } := by
  unfold ErrLog.report
  extract_lets q old m
  split_ifs <;> rfl

theorem State.report_logOnly (s : State) (cls : Nat) {unit : Nat} (code inst addr detail flags : Nat) (h : unit < 9) :
    LogOnly s (s.report cls unit code inst addr detail flags) := by
  have hg : (decide (9 ≤ unit) && decide (unit ≤ 0xB)) = false := by simp [show ¬9 ≤ unit by omega]
  unfold State.report
  extract_lets groom r
  rw [if_neg (by simp [groom, hg])]
  exact congrArg (fun e => { s with err := e }) (s.err.report_eq r)

/-! ### The end of a Carousel move -/

theorem State.settleSlots_of_none {s : State} (h : ∀ r ∈ s.pkg.regions, r.failed = []) : s.settleSlots = s := by
  unfold State.settleSlots
  have : ∀ (l : List (RegionSlots × Nat)), (∀ r ∈ l, r.1.failed = []) → ∀ u : State, l.foldl (fun s r =>
      r.1.failed.foldl (fun s f => if f.2 = 0 || r.1.move.isSome then s else s.substitute r.2 f.1 (f.2 = 2)) s) u = u := by
    intro l hl u
    induction l with
    | nil => rfl
    | cons r l ih =>
      rw [List.foldl_cons, hl r (List.mem_cons_self ..)]
      exact ih fun q hq => hl q (List.mem_cons_of_mem _ hq)
  exact this _ (fun r hr => h _ (List.fst_mem_of_mem_zipIdx hr)) s

theorem failed_setAt {l : List RegionSlots} (h : ∀ r ∈ l, r.failed = []) (g : Nat) {f : RegionSlots → RegionSlots}
    (hf : ∀ r, (f r).failed = r.failed) : ∀ r ∈ setAt l g f, r.failed = [] := by
  intro r hr
  obtain ⟨i, hi, rfl⟩ := List.getElem_of_mem hr
  simp only [setAt, List.getElem_modify]
  split
  · rw [hf]; exact h _ (List.getElem_mem _)
  · exact h _ (List.getElem_mem _)

/-- The state with tile k bound to slot `dst`, the emptied slot to be tested, and the tile as a move leaves it (R43, R51). -/
def State.movedTo (s : State) (g k src dst : Nat) : State :=
  (((s.bind k dst src).onRegion g fun r => { r with selfTest := some src }).newMeans g).onTile k
    fun x => { x.moved with held := false }

section
variable {g : RegionIx} {s : State} {k src dst : Nat}

theorem execCarouselMoveDone_of_move (h : (s.region g.val).move = some (k, src, dst)) :
    execCarouselMoveDone g s = .next ((s.movedTo g.val k src dst).moveEnded g.val) := by
  rw [execCarouselMoveDone, h]
  rfl

theorem State.movedTo_regions : (s.movedTo g.val k src dst).pkg.regions = setAt (setAt s.pkg.regions (k / 12) fun r =>
    { r with spare := src, moves := (r.moves + 1) % 65536, move := none, moveEnd := s.now }) g.val fun r =>
      { r with selfTest := some src } := rfl

theorem State.movedTo_map : (s.movedTo g.val k src dst).pkg.map = setAt s.pkg.map k fun e =>
    { slot := dst, st := 0, epoch := (e.epoch + 1) % 65536 } := rfl

theorem State.movedTo_failed (h : ∀ r ∈ s.pkg.regions, r.failed = []) : ∀ r ∈ (s.movedTo g.val k src dst).pkg.regions, r.failed = [] := by
  rw [State.movedTo_regions]
  refine failed_setAt (failed_setAt h _ ?_) _ ?_ <;> exact fun _ => rfl

theorem State.moveEnded_idle (hf : ∀ r ∈ s.pkg.regions, r.failed = []) (h : s.step.st ≠ 1 ∨ s.hal.job ≠ 2) :
    s.moveEnded g.val = s := by
  have hs : (if (s.noStep || (s.step.st = 4 && s.step.drained)) = true then s.settleSlots else s) = s := by
    rw [State.settleSlots_of_none hf, ite_self]
  unfold State.moveEnded
  simp only [hs]
  exact if_neg (by simpa [Decidable.imp_iff_not_or] using h)

theorem State.moveEnded_running (h1 : s.step.st = 1) (h2 : s.hal.job = 2) : s.moveEnded g.val = s.startRegion g.val := by
  simp [State.moveEnded, State.noStep, h1, h2]

/-- What a move changes, and what it leaves. -/
theorem State.movedTo_spec (hk : k / 12 = g.val) (hr : s.pkg.regions.length = 16) :
    let t := s.movedTo g.val k src dst
    t = { s with pkg := t.pkg, tiles := t.tiles, heat := t.heat } ∧ (∀ j, j ≠ k → t.tile j = s.tile j) ∧
      t.tile k = { (s.tile k) with vreg := [], slots := List.replicate 4 {}, ftq := [], held := false } ∧
      t.pkg.map[k]? = (s.pkg.map[k]?).map (fun e => { slot := dst, st := 0, epoch := (e.epoch + 1) % 65536 }) ∧
      (∀ j, j ≠ k → t.pkg.map[j]? = s.pkg.map[j]?) ∧
      (let r := s.region g.val
       t.region g.val = { r with spare := src, moves := (r.moves + 1) % 65536, move := none, moveEnd := s.now
                                 selfTest := some src }) ∧
      ∀ j, j ≠ g.val → t.region j = s.region j := by
  have hg : g.val < s.pkg.regions.length := by rw [hr]; exact g.isLt
  refine ⟨rfl, fun j hj => State.tile_onTile_ne _ hj _, State.tile_onTile_self .., ?_, fun j hj => ?_, ?_, fun j hj => ?_⟩
  · rw [State.movedTo_map, setAt, List.getElem?_modify_eq]
    rfl
  · rw [State.movedTo_map, setAt, List.getElem?_modify_ne _ _ (Ne.symm hj)]
  · intro r
    rw [State.region, State.movedTo_regions, hk, nth_setAt_self (by rw [setAt, List.length_modify]; exact hg), nth_setAt_self hg]
    rfl
  · rw [State.region, State.movedTo_regions, hk, nth_setAt_ne hj, nth_setAt_ne hj]
    rfl
end

/-! ### Mesh and links -/

/-- The state once a flit's resend on a plane of die `d` has been reported and counted (R745). -/
def State.meshCounted (s : State) (d key : Nat) : State :=
  let u := s.report 2 2 0x210 key
  { u with err := { u.err with
    meshResends := Tbl.upd 0 u.err.meshResends d (satAdd 32 · 1)
    meshTimes := Tbl.upd [] u.err.meshTimes key fun ts => (ts.filter fun x => s.now - x ≤ 1000000000) ++ [s.now] } }

theorem State.meshCounted_spec (s : State) (d key : Nat) :
    s.meshCounted d key = { s with err := (s.meshCounted d key).err } ∧
      Tbl.get 0 (s.meshCounted d key).err.meshResends d = satAdd 32 (Tbl.get 0 s.err.meshResends d) 1 ∧
      Tbl.get [] (s.meshCounted d key).err.meshTimes key =
        ((Tbl.get [] s.err.meshTimes key).filter fun x => s.now - x ≤ 1000000000) ++ [s.now] := by
  have h := s.report_logOnly 2 0x210 key 0 0 0 (unit := 2) (by omega)
  unfold State.meshCounted
  rw [h]
  exact ⟨rfl, Tbl.get_upd_self _ _ (satAdd 32 · 1), Tbl.get_upd_self s.err.meshTimes key fun ts =>
    (ts.filter fun x => s.now - x ≤ 1000000000) ++ [s.now]⟩

theorem execMeshFlitResend_eq (d : DieIx) (plane : Fin 8) (failed : Bool) {s : State}
    (hb : bit (nth s.flash.mesh d.val 0) plane.val = false) : execMeshFlitResend d plane failed s =
      let m := s.meshCounted d.val (8 * d.val + plane.val)
      if failed || 1000 < (Tbl.get [] m.err.meshTimes (8 * d.val + plane.val)).length then
        let u := m.report 3 2 0x211 (8 * d.val + plane.val)
        .next { u with flash := { u.flash with mesh := setAt u.flash.mesh d.val (· + 2 ^ plane.val) } }
      else .next m := by
  rw [execMeshFlitResend]
  exact if_neg (by simp [hb])

theorem meshFlitResend_spec {d : DieIx} {plane : Fin 8} {failed : Bool} {s : State}
    (hb : bit (nth s.flash.mesh d.val 0) plane.val = false)
    (hl : s.flash.mesh.length = 2) : Does (.meshFlitResend d plane failed) s fun t =>
      t = { s with err := t.err, flash := t.flash } ∧ t.flash = { s.flash with mesh := t.flash.mesh } ∧
      Tbl.get 0 t.err.meshResends d.val = satAdd 32 (Tbl.get 0 s.err.meshResends d.val) 1 ∧
      (failed = true → nth t.flash.mesh d.val 0 = nth s.flash.mesh d.val 0 + 2 ^ plane.val) ∧
      (failed = false → ((Tbl.get [] s.err.meshTimes (8 * d.val + plane.val)).filter
        fun x => decide (s.now - x ≤ 1000000000)).length < 1000 → t.flash = s.flash) := by
  obtain ⟨hm, hcnt, htimes⟩ := s.meshCounted_spec d.val (8 * d.val + plane.val)
  have hexec := execMeshFlitResend_eq d plane failed hb
  generalize s.meshCounted d.val (8 * d.val + plane.val) = m at hm hcnt htimes hexec
  simp only [htimes] at hexec
  split at hexec
  · rename_i hc
    have hu := m.report_logOnly 3 0x211 (8 * d.val + plane.val) 0 0 0 (unit := 2) (by omega)
    refine ⟨_, by rw [exec_meshFlitResend, hexec], ?_⟩
    rw [hu, hm]
    refine ⟨rfl, rfl, hcnt, fun _ => nth_setAt_self (by rw [hl]; exact d.isLt) .., fun hf hlen => ?_⟩
    simp only [hf, Bool.false_or, decide_eq_true_eq, List.length_append, List.length_singleton] at hc
    omega
  · rename_i hc
    refine ⟨m, by rw [exec_meshFlitResend, hexec], by rw [hm], by rw [hm], hcnt, fun hf => ?_, fun _ _ => by rw [hm]⟩
    simp [hf] at hc

/-- The state once a retry on lane `lane` of link `n` has been counted (R745). -/
def State.linkCounted (s : State) (n lane : Nat) : State :=
  { s with err := { s.err with
    linkRetries := Tbl.upd 0 s.err.linkRetries n (satAdd 32 · 1)
    linkLaneRetries := Tbl.upd 0 s.err.linkLaneRetries (64 * n + lane) (· + 1)
    linkRetryTimes := Tbl.upd [] s.err.linkRetryTimes n fun ts => (ts.filter fun x => s.now - x ≤ 1000000) ++ [s.now] } }

/-- A link's retry that does not yet retrain it is counted, by lane too (R745). -/
theorem ucieLinkRetry_spec {n : Fin 3} {lane : Fin 64} {repair : Bool} {s : State} (h2 : (nth s.flash.links n.val {}).st ≠ 2)
    (hlen : ((Tbl.get [] s.err.linkRetryTimes n.val).filter fun x => s.now - x ≤ 1000000).length < 16) :
    Does (.ucieLinkRetry n lane repair) s fun t =>
      t = { s with err := t.err } ∧
      t.err = { s.err with linkRetries := t.err.linkRetries, linkLaneRetries := t.err.linkLaneRetries
                           linkRetryTimes := t.err.linkRetryTimes } ∧
      Tbl.get 0 t.err.linkRetries n.val = satAdd 32 (Tbl.get 0 s.err.linkRetries n.val) 1 ∧
      Tbl.get 0 t.err.linkLaneRetries (64 * n.val + lane.val) =
        Tbl.get 0 s.err.linkLaneRetries (64 * n.val + lane.val) + 1 := by
  have hfew : ¬(16 < (Tbl.get [] (s.linkCounted n.val lane.val).err.linkRetryTimes n.val).length &&
      !(s.linkCounted n.val lane.val).err.linkHeld.contains n.val) = true := by
    simp only [State.linkCounted, Tbl.get_upd_self, List.length_append, List.length_singleton, Bool.and_eq_true,
      decide_eq_true_eq]
    omega
  refine ⟨s.linkCounted n.val lane.val, ?_, rfl, rfl, Tbl.get_upd_self _ _ (satAdd 32 · 1), Tbl.get_upd_self _ _ (· + 1)⟩
  rw [exec_ucieLinkRetry, execUcieLinkRetry, if_neg h2]
  exact if_neg hfew

theorem ucieRetrainDone_spec {n : Fin 3} {ok : Bool} {s : State} (hh : s.err.linkHeld.contains n.val = true)
    (hl : s.flash.links.length = 3) : Does (.ucieRetrainDone n ok) s fun t =>
      t = { s with err := { s.err with linkHeld := s.err.linkHeld.filter (· ≠ n.val) }, flash := t.flash } ∧
      (nth t.flash.links n.val {}).st =
        if ok then (nth s.flash.links n.val {}).st else min 2 ((nth s.flash.links n.val {}).st + 1) := by
  refine ⟨_, by rw [exec_ucieRetrainDone, execUcieRetrainDone]; exact if_neg (by rw [hh]; decide), ?_⟩
  cases ok
  · exact ⟨rfl, congrArg LinkRec.st (nth_setAt_self (by rw [hl]; exact n.isLt) ..)⟩
  · exact ⟨rfl, rfl⟩

/-- Settles O16: the end of a move by what it changes of the package, the rest by their counters. -/
theorem packageEvents : Obligations.PackageEvents := by
  constructor
  · intro g s k src dst hmove hk hm hr hf
    have hexec := execCarouselMoveDone_of_move hmove
    refine ⟨fun h1 h2 => ?_, fun hidle => ⟨_, ?_, State.movedTo_spec hk hr⟩⟩
    · rw [exec_carouselMoveDone, hexec, State.moveEnded_running (s := s.movedTo g.val k src dst) h1 h2]
      rfl
    · rw [exec_carouselMoveDone, hexec, State.moveEnded_idle (State.movedTo_failed hf) hidle]
  refine ⟨fun g cols s sl h => ?_, fun d plane failed s => meshFlitResend_spec, fun n lane repair s => ucieLinkRetry_spec,
    fun n ok s => ucieRetrainDone_spec, fun k s => ⟨⟨_, rfl, rfl, ?_, fun j hj => ?_⟩, ⟨_, rfl, rfl, ?_, fun j hj => ?_⟩⟩⟩
  · rw [exec_spareSelfTest, execSpareSelfTest, h]
  · exact Tbl.get_upd_self s.fmt k.val fun f => { f with cnt := {} }
  · exact Tbl.get_upd_ne hj s.fmt fun f => { f with cnt := {} }
  · exact Tbl.get_upd_self s.fmt k.val fun f => { f with next := 0 }
  · exact Tbl.get_upd_ne hj s.fmt fun f => { f with next := 0 }

end Sys2Proof.Machine
end

section
/-! The end of a step (O18, O20): the swap, what its end advances, and the end of a snapshot. -/

namespace Sys2Proof.Machine

/-! ### Folds over the tiles and regions -/

/-- A relation between states that a fold's every step keeps. -/
theorem foldl_related {α : Type} {R : State → State → Prop} (refl : ∀ s, R s s) (trans : ∀ {s t u}, R s t → R t u → R s u)
    {f : State → α → State} (hf : ∀ s a, R s (f s a)) (l : List α) (s : State) : R s (l.foldl f s) := by
  induction l generalizing s with
  | nil => exact refl s
  | cons a l ih => exact trans (hf s a) (ih _)

/-- From `s` to `t` at most the tiles change. -/
def TilesOnly (s t : State) : Prop := t = { s with tiles := t.tiles }

theorem TilesOnly.refl (s : State) : TilesOnly s s := rfl

theorem TilesOnly.trans {s t u : State} (hst : TilesOnly s t) (htu : TilesOnly t u) : TilesOnly s u := by
  rw [TilesOnly, htu, hst]

theorem State.foldl_onTile_tilesOnly (f : Nat → Tile → Tile) (l : List Nat) (s : State) :
    TilesOnly s (l.foldl (fun s t => s.onTile t (f t)) s) := by
  refine foldl_related TilesOnly.refl TilesOnly.trans (fun s t => ?_) l s
  rfl

theorem State.allTiles_tilesOnly (s : State) (f : Nat → Tile → Tile) : TilesOnly s (s.allTiles f) :=
  State.foldl_onTile_tilesOnly f _ s

theorem State.tile_foldl_onTile (f : Nat → Tile → Tile) : ∀ (l : List Nat), l.Nodup → ∀ (s : State) (k : Nat),
    (l.foldl (fun s t => s.onTile t (f t)) s).tile k = if k ∈ l then f k (s.tile k) else s.tile k
  | [], _, s, k => by simp
  | i :: l, hl, s, k => by
    obtain ⟨hi, hl⟩ := List.nodup_cons.1 hl
    rw [List.foldl_cons, State.tile_foldl_onTile f l hl]
    by_cases hk : k = i
    · subst hk
      rw [if_neg hi, if_pos (List.mem_cons_self ..), State.tile_onTile_self]
    · rw [State.tile_onTile_ne _ hk]
      simp [hk]

/-- Every tile has been changed by `f`. -/
theorem State.tile_allTiles (s : State) (f : Nat → Tile → Tile) {k : Nat} (h : k < 192) :
    (s.allTiles f).tile k = f k (s.tile k) := by
  rw [State.allTiles, State.tile_foldl_onTile f _ List.nodup_range, if_pos (List.mem_range.2 h)]

/-- From `s` to `t` at most the power controller's state changes. -/
def PwrOnly (s t : State) : Prop := t = { s with pwr := t.pwr }

theorem PwrOnly.refl (s : State) : PwrOnly s s := rfl

theorem PwrOnly.trans {s t u : State} (hst : PwrOnly s t) (htu : PwrOnly t u) : PwrOnly s u := by
  rw [PwrOnly, htu, hst]

theorem PwrOnly.tile {s t : State} (h : PwrOnly s t) (k : Nat) : t.tile k = s.tile k := by
  rw [h]
  rfl

theorem State.phasesZero_pwrOnly (s : State) : PwrOnly s s.phasesZero := by
  refine foldl_related PwrOnly.refl PwrOnly.trans (fun s g => ?_) _ s
  unfold State.enterPhase State.endPhase
  refine PwrOnly.trans (t := if s.pwr.learnEn = 1 && (s.pr g).phaseN ≠ 0 then _ else s) ?_ rfl
  split <;> rfl

theorem State.retryDeferred_pwrOnly (s : State) (d : Nat) : PwrOnly s (s.retryDeferred d) := by
  refine foldl_related PwrOnly.refl PwrOnly.trans (fun s r => ?_) _ s
  rfl

/-- From `s` to `t` at most Carousel moves begin: the package's books change, and tiles are held. -/
structure MovesBegin (s t : State) : Prop where
  only : t = { s with tiles := t.tiles, pkg := t.pkg }
  tile : ∀ k, t.tile k = { s.tile k with held := (t.tile k).held }

theorem MovesBegin.refl (s : State) : MovesBegin s s := ⟨rfl, fun _ => rfl⟩

theorem MovesBegin.trans {s t u : State} (hst : MovesBegin s t) (htu : MovesBegin t u) : MovesBegin s u :=
  ⟨by rw [htu.only, hst.only], fun k => by rw [htu.tile, hst.tile]⟩

theorem State.onTile_held_movesBegin (s : State) (k : Nat) : MovesBegin s (s.onTile k fun x => { x with held := true }) := by
  refine ⟨rfl, fun j => ?_⟩
  by_cases h : j = k
  · subst h
    rw [State.tile_onTile_self]
  · rw [State.tile_onTile_ne _ h]

theorem State.carousel_movesBegin (s : State) : MovesBegin s s.carousel := by
  refine foldl_related MovesBegin.refl MovesBegin.trans (fun s g => ?_) _ s
  split
  · exact .refl s
  · split
    · exact .refl s
    · rename_i t k _
      exact .trans (t := (s.onEntry t _).onRegion g _) ⟨rfl, fun _ => rfl⟩ (State.onTile_held_movesBegin _ t)

/-! ### The swap -/

theorem State.combineAll_of_nil {s : State} (h : s.fab.combining = []) : s.combineAll = s := by
  rw [State.combineAll, h]
  rfl

theorem Tbl.get_of_lt {α : Type} [DecidableEq α] {d : α} {i : Nat} : ∀ {t : Tbl α} {lo : Nat}, Tbl.wfFrom d lo t = true → i < lo →
    Tbl.get d t i = d
  | [], _, _, _ => rfl
  | (k, v) :: t, lo, h, hi => by
    simp only [Tbl.wfFrom, Bool.and_eq_true, decide_eq_true_eq] at h
    rw [Tbl.get, if_neg (by omega)]
    exact Tbl.get_of_lt h.2 (by omega)

/-- A fold that flips the flags of a canonical list of set flags, one by one. -/
theorem get_foldl_flip (u : Nat) : ∀ (w : Tbl Bool) (lo : Nat) (a : Tbl Bool), Tbl.wfFrom false lo w = true →
    Tbl.get false (w.foldl (fun a e => if e.2 then Tbl.upd false a e.1 (!·) else a) a) u =
      (Tbl.get false a u != Tbl.get false w u)
  | [], _, a, _ => by simp [Tbl.get]
  | (k, v) :: w, lo, a, h => by
    simp only [Tbl.wfFrom, Bool.and_eq_true, decide_eq_true_eq] at h
    obtain ⟨⟨hlo, hv⟩, hw⟩ := h
    have hv : v = true := by simpa using hv
    subst hv
    rw [List.foldl_cons, get_foldl_flip u w (k + 1) _ hw, Tbl.get]
    by_cases hk : k = u
    · subst hk
      have hnone : Tbl.get false w k = false := Tbl.get_of_lt hw (Nat.lt_succ_self k)
      simp [hnone, Tbl.get_upd_self]
    · simp [hk, Tbl.get_upd_ne (Ne.symm hk)]

theorem State.tile_onStep (s : State) (f : Step → Step) (k : Nat) : (s.onStep f).tile k = s.tile k := rfl

theorem State.tile_withFab (s : State) (f : Fabric) (k : Nat) : ({ s with fab := f } : State).tile k = s.tile k := rfl

section
variable {s : State}

/-- What the swap does to the views and the tiles (R253). -/
def State.flipped (s : State) : State :=
  let u := (s.onStep fun x => { x.flip with st := 3 }).allTiles fun _ x => { x with seq := .stopped }
  { u with fab := { u.fab with cache := [] } }

theorem State.flipped_eq (s : State) : s.flipped = { s with
    step := { s.step.flip with st := 3 }, tiles := s.flipped.tiles, fab := { s.fab with cache := [] } } := by
  unfold State.flipped
  have h := State.allTiles_tilesOnly (s.onStep fun x => { x.flip with st := 3 }) fun _ x => { x with seq := .stopped }
  generalize (s.onStep fun x => { x.flip with st := 3 }).allTiles _ = u at h
  rw [h]
  rfl

theorem State.tile_flipped (s : State) {k : Nat} (h : k < 192) : s.flipped.tile k = { s.tile k with seq := .stopped } := by
  unfold State.flipped
  extract_lets u
  rw [State.tile_withFab]
  unfold u
  rw [State.tile_allTiles _ _ h, State.tile_onStep]

/-- What the swap does before it settles the slots (R253, R254). -/
def State.swapped (s : State) : State := (s.flipped.phasesZero.retryDeferred 0).retryDeferred 1

theorem State.swapped_pwrOnly (s : State) : PwrOnly s.flipped s.swapped :=
  (s.flipped.phasesZero_pwrOnly.trans (State.retryDeferred_pwrOnly _ 0)).trans (State.retryDeferred_pwrOnly _ 1)

theorem State.swapped_eq (s : State) : s.swapped = { s with
    step := { s.step.flip with st := 3 }, tiles := s.swapped.tiles, fab := { s.fab with cache := [] }, pwr := s.swapped.pwr } := by
  have h := s.swapped_pwrOnly
  generalize s.swapped = t at h
  rw [h, s.flipped_eq]

theorem State.tile_swapped (s : State) {k : Nat} (h : k < 192) : s.swapped.tile k = { s.tile k with seq := .stopped } :=
  (s.swapped_pwrOnly.tile k).trans (s.tile_flipped h)

theorem execTandemSwap_of_due (hst : s.step.st = 1 ∨ s.step.st = 2) (ha : s.step.actionable.isSome = true)
    (hship : ∀ x, s.step.ship = some x → x.copying = false) (hv : s.viewsBusy = false) (hc : s.fab.combining = [])
    (hf : ∀ r ∈ s.pkg.regions, r.failed = []) : execTandemSwap s = .next s.swapped.carousel := by
  have hsettle : s.swapped.settleSlots = s.swapped := State.settleSlots_of_none (by rw [s.swapped_eq]; exact hf)
  rw [execTandemSwap, State.combineAll_of_nil hc]
  refine (if_neg ?_).trans ?_
  · have ha : s.step.actionable.isNone = false := by simpa using ha
    cases hx : s.step.ship with
    | none => rcases hst with h | h <;> simp [ha, hv, h]
    | some x => rcases hst with h | h <;> simp [ha, hv, h, hship x hx]
  · exact congrArg (fun t : State => Host.Outcome.next t.carousel) hsettle


theorem tandemSwap_spec (hst : s.step.st = 1 ∨ s.step.st = 2) (ha : s.step.actionable.isSome = true)
    (hship : ∀ x, s.step.ship = some x → x.copying = false) (hv : s.viewsBusy = false) (hc : s.fab.combining = [])
    (hf : ∀ r ∈ s.pkg.regions, r.failed = []) (hw : Tbl.wf false s.step.written = true) :
    Does .tandemSwap s fun t => t.step.st = 3 ∧ t.step.written = [] ∧
      (∀ u, Tbl.get false t.step.active u = (Tbl.get false s.step.active u != Tbl.get false s.step.written u)) ∧
      (∀ k, k < 192 → (t.tile k).seq = .stopped ∧ (t.tile k).store = (s.tile k).store ∧ (t.tile k).acc = (s.tile k).acc) ∧
      t = { s with step := t.step, tiles := t.tiles, fab := { s.fab with cache := [] }, pwr := t.pwr, pkg := t.pkg } := by
  refine ⟨s.swapped.carousel, by rw [exec_tandemSwap, execTandemSwap_of_due hst ha hship hv hc hf], ?_⟩
  have hcar := s.swapped.carousel_movesBegin
  generalize s.swapped.carousel = t at hcar
  have hstep : t.step = { s.step.flip with st := 3 } := by rw [hcar.only, s.swapped_eq]
  refine ⟨by rw [hstep], by rw [hstep]; rfl, fun u => ?_, fun k hk => ?_, ?_⟩
  · rw [hstep]
    exact get_foldl_flip u _ 0 _ hw
  · rw [hcar.tile k, s.tile_swapped hk]
    exact ⟨rfl, rfl, rfl⟩
  · have h := hcar.only
    rw [s.swapped_eq] at h
    generalize s.swapped.tiles = tiles, s.swapped.pwr = pwr at h
    rw [h]

/-! ### The end of the swap -/

theorem State.answer_halterOnly (s : State) (c : PendCmd) (status : Nat) (payload : Bytes) :
    HalterOnly s (s.answer c status payload) := by
  unfold State.answer
  extract_lets u
  have hu : HalterOnly s u := State.onSession_halterOnly ..
  split
  · exact hu.trans (State.sendMsg_halterOnly ..)
  · exact hu

theorem State.answer_job (s : State) (c : PendCmd) (status : Nat) (payload : Bytes) :
    (s.answer c status payload).hal.job = s.hal.job := by
  unfold State.answer
  extract_lets u
  split
  · rw [State.sendMsg_sendsOnly u]
    rfl
  · rfl

/-- A reply that completes a command: an answer, after at most a draw, from a state in which the command waits no more. -/
theorem State.finish_eq (s : State) (c : PendCmd) (status : Nat) (payload : Bytes) : ∃ cmds freeIx pay,
    s.finish c status payload = State.answer { s with hal := { s.hal with cmds := cmds }, freeIx := freeIx } c status pay := by
  unfold State.finish
  split
  · exact ⟨_, _, _, rfl⟩
  · exact ⟨_, s.freeIx, _, rfl⟩

theorem State.finish_halterOnly (s : State) (c : PendCmd) (status : Nat) (payload : Bytes) :
    HalterOnly s (s.finish c status payload) := by
  obtain ⟨cmds, freeIx, pay, h⟩ := s.finish_eq c status payload
  rw [h]
  exact .trans (t := { s with hal := { s.hal with cmds := cmds }, freeIx := freeIx }) rfl (State.answer_halterOnly ..)

theorem State.finish_job (s : State) (c : PendCmd) (status : Nat) (payload : Bytes) :
    (s.finish c status payload).hal.job = s.hal.job := by
  obtain ⟨cmds, freeIx, pay, h⟩ := s.finish_eq c status payload
  rw [h, State.answer_job]

/-- From `s` to `t` messages of Halter have been sent, and the job state is as it was. -/
def JobKept (s t : State) : Prop := HalterOnly s t ∧ t.hal.job = s.hal.job

theorem State.finishAll_jobKept (s : State) (code status : Nat) (payload : Bytes) : JobKept s (s.finishAll code status payload) := by
  refine foldl_related (R := JobKept) (fun s => ⟨.refl s, rfl⟩) (fun h g => ⟨h.1.trans g.1, g.2.trans h.2⟩) (fun s c => ?_) _ s
  exact ⟨s.finish_halterOnly c status payload, s.finish_job c status payload⟩

theorem State.requestRepeat_step (s : State) (cause : Nat) : (s.requestRepeat cause).step = { s.step with
    requested := (s.requestRepeat cause).step.requested, afterSwap := (s.requestRepeat cause).step.afterSwap } := by
  unfold State.requestRepeat
  split_ifs
  · rfl
  · rw [State.say_fabOnly]
  · rfl

theorem State.startRegion_tilesOnly (s : State) (g : Nat) : TilesOnly s (s.startRegion g) := by
  unfold State.startRegion
  split
  · refine foldl_related TilesOnly.refl TilesOnly.trans (fun s t => ?_) _ s
    split <;> rfl
  · exact .refl s

theorem State.startAll_tilesOnly (s : State) : TilesOnly s s.startAll :=
  foldl_related TilesOnly.refl TilesOnly.trans State.startRegion_tilesOnly _ s

/-- What the end of a step clears, and what it keeps. -/
theorem State.clearCounts_tilesOnly (s : State) : TilesOnly { s with
    step := { s.step with drainCount := 0, ended := false, counted := [], held := none, actionable := none, requested := false
                          withheld := false }
    red := { s.red with st := [], redDone := [], waiting := [], selfDone := false, sentDone := false
                        ctlWait := s.red.ctlWait.filter fun w => !w.2.2.2.2 } } s.clearCounts :=
  State.allTiles_tilesOnly _ _

theorem State.trigger_of_off {s : State} {k : Nat} (h : bit s.obs.triggers k = false) : s.trigger k = s := by
  unfold State.trigger
  exact if_pos (by simp [h])

/-- The state once a swap has ended and its counts are cleared (R253). -/
def State.stepEnded (s : State) : State :=
  s.clearCounts.onStep fun x => { x with committed := (x.committed + 1) % 2 ^ 64, firstCopies := 0, attempt := 0 }

theorem State.stepEnded_eq (s : State) : s.stepEnded = { s with
    step := { s.step with drainCount := 0, ended := false, counted := [], held := none, actionable := none, requested := false
                          withheld := false, committed := (s.step.committed + 1) % 2 ^ 64, firstCopies := 0, attempt := 0 }
    red := { s.red with st := [], redDone := [], waiting := [], selfDone := false, sentDone := false
                        ctlWait := s.red.ctlWait.filter fun w => !w.2.2.2.2 }
    tiles := s.stepEnded.tiles } := by
  unfold State.stepEnded
  have h := s.clearCounts_tilesOnly
  generalize s.clearCounts = u at h
  rw [h]
  rfl

/-- The state once the next step runs. -/
def State.nextStep (s : State) : State :=
  (s.stepEnded.onStep fun x => { x with st := 1, since := s.stepEnded.now, afterSwap := false }).startAll

/-- The state once the job is loaded again (R266). -/
def State.jobStopped (s : State) : State :=
  ((s.stepEnded.onStep fun x => { x with st := 0, stopping := false, afterSwap := false }).setJob 1).finishAll 0x10A 0

theorem State.swapComplete_eq (hship : s.step.ship = none) : s.swapComplete =
    if s.step.stopping then s.jobStopped else if s.step.afterSwap then s.nextStep.requestRepeat else s.nextStep := by
  have h := s.stepEnded_eq
  have hsb : s.stepEnded.shipBegin = s.stepEnded := by
    unfold State.shipBegin
    rw [h]
    simp only [hship]
  have h1 : s.stepEnded.step.stopping = s.step.stopping := by rw [h]
  have h2 : s.stepEnded.step.afterSwap = s.step.afterSwap := by rw [h]
  change (if s.stepEnded.shipBegin.step.stopping then
      ((s.stepEnded.shipBegin.onStep fun x => { x with st := 0, stopping := false, afterSwap := false }).setJob 1).finishAll 0x10A 0
    else if s.stepEnded.shipBegin.step.afterSwap then
      (s.stepEnded.shipBegin.onStep fun x => { x with st := 1, since := s.stepEnded.shipBegin.now, afterSwap := false }).startAll.requestRepeat
    else (s.stepEnded.shipBegin.onStep fun x => { x with st := 1, since := s.stepEnded.shipBegin.now, afterSwap := false }).startAll) = _
  rw [hsb, h1, h2]
  rfl

/-- What the end of a swap leaves of the state, whatever then begins. -/
structure StepEnds (s t : State) : Prop where
  committed : t.step.committed = (s.step.committed + 1) % 2 ^ 64
  counts : t.step.drainCount = 0 ∧ t.step.ended = false ∧ t.step.attempt = 0 ∧ t.step.firstCopies = 0 ∧ t.step.held = none ∧
    t.step.actionable = none
  views : t.step.active = s.step.active ∧ t.step.written = s.step.written
  red : t.red.st = [] ∧ t.red.redDone = [] ∧ t.red.tags = s.red.tags
  hbm : t.hbm = s.hbm
  flash : t.flash = s.flash
  triggers : t.obs.triggers = s.obs.triggers

theorem State.jobStopped_eq (s : State) : ∃ step red tiles hal ports txWait sent freeIx, s.jobStopped = { s with
    step := step, red := red, tiles := tiles, hal := hal, ports := ports, txWait := txWait, sent := sent, freeIx := freeIx } ∧
    hal.job = 1 ∧ step.st = 0 ∧ step.stopping = false ∧ StepEnds s { s with step := step, red := red } := by
  have h := s.stepEnded_eq
  unfold State.jobStopped
  generalize s.stepEnded = u at h
  obtain ⟨hk, hj⟩ := State.finishAll_jobKept ((u.onStep fun x => { x with st := 0, stopping := false, afterSwap := false }).setJob 1)
    0x10A 0 []
  obtain ⟨hal, ports, txWait, sent, freeIx, hk⟩ := halterOnly_iff.1 hk
  rw [hk] at hj ⊢
  rw [h]
  exact ⟨_, _, _, _, _, _, _, _, rfl, hj, rfl, rfl, rfl, ⟨rfl, rfl, rfl, rfl, rfl, rfl⟩, ⟨rfl, rfl⟩, ⟨rfl, rfl, rfl⟩, rfl, rfl, rfl⟩

theorem State.nextStep_eq (s : State) : ∃ step red tiles, s.nextStep = { s with step := step, red := red, tiles := tiles } ∧
    step.st = 1 ∧ StepEnds s { s with step := step, red := red } := by
  have h := s.stepEnded_eq
  unfold State.nextStep
  generalize s.stepEnded = u at h
  have hs := State.startAll_tilesOnly (u.onStep fun x => { x with st := 1, since := u.now, afterSwap := false })
  rw [hs, h]
  exact ⟨_, _, _, rfl, rfl, rfl, ⟨rfl, rfl, rfl, rfl, rfl, rfl⟩, ⟨rfl, rfl⟩, ⟨rfl, rfl, rfl⟩, rfl, rfl, rfl⟩

theorem swapComplete_spec (hst : s.step.st = 3) (hship : s.step.ship = none) (htrig : bit s.obs.triggers 2 = false) :
    Does .swapComplete s fun t => StepEnds s t ∧ (s.step.stopping = false → t.step.st = 1 ∧ t.hal = s.hal) ∧
      (s.step.stopping = true → t.step.st = 0 ∧ t.hal.job = 1 ∧ t.step.stopping = false) := by
  have key : StepEnds s s.swapComplete ∧ (s.step.stopping = false → s.swapComplete.step.st = 1 ∧ s.swapComplete.hal = s.hal) ∧
      (s.step.stopping = true → s.swapComplete.step.st = 0 ∧ s.swapComplete.hal.job = 1 ∧ s.swapComplete.step.stopping = false) := by
    rw [State.swapComplete_eq hship]
    split
    · rename_i hs
      obtain ⟨_, _, _, _, _, _, _, _, he, hj, hz, hn, hends⟩ := s.jobStopped_eq
      rw [he]
      exact ⟨⟨hends.committed, hends.counts, hends.views, hends.red, rfl, rfl, rfl⟩, fun hf => absurd hf (by simp [hs]),
        fun _ => ⟨hz, hj, hn⟩⟩
    · rename_i hs
      obtain ⟨step, red, tiles, he, hst1, hends⟩ := s.nextStep_eq
      rw [he]
      split
      · have hr := State.requestRepeat_eq { s with step := step, red := red, tiles := tiles } 8
        have hstep := State.requestRepeat_step { s with step := step, red := red, tiles := tiles } 8
        generalize State.requestRepeat _ 8 = t at hr hstep
        obtain ⟨_, _, _, _, _, _, _, _, _, hr⟩ := fabOnly_iff.1 hr
        rw [hr]
        generalize t.step = st at hstep
        rw [hstep]
        exact ⟨⟨hends.committed, hends.counts, hends.views, hends.red, rfl, rfl, rfl⟩, fun _ => ⟨hst1, rfl⟩, fun h => absurd h hs⟩
      · exact ⟨⟨hends.committed, hends.counts, hends.views, hends.red, rfl, rfl, rfl⟩, fun _ => ⟨hst1, rfl⟩, fun h => absurd h hs⟩
  refine ⟨s.swapComplete, ?_, key⟩
  rw [exec_swapComplete, execSwapComplete, if_neg (by omega), State.trigger_of_off]
  rw [key.1.triggers, htrig]

end

/-- Settles O18: the swap and its end, each by what it changes. -/
theorem tandemSwap : Obligations.TandemSwap := by
  refine ⟨fun s hst => ⟨tandemSwap_spec hst, fun ha => ?_, fun hv => ?_, fun x hx hc => ?_⟩, fun s hst hship htrig => ?_⟩
  · rw [exec_tandemSwap, execTandemSwap]
    exact if_pos (by simp [ha])
  · rw [exec_tandemSwap, execTandemSwap]
    exact if_pos (by simp [hv])
  · rw [exec_tandemSwap, execTandemSwap]
    exact if_pos (by simp [hx, hc])
  · obtain ⟨t, ht, ⟨hcom, ⟨h1, h2, h3, h4, h5, h6⟩, ⟨h7, h8⟩, ⟨h9, h10, h11⟩, hhbm, hflash, -⟩, hrest⟩ :=
      swapComplete_spec hst hship htrig
    exact ⟨t, ht, hcom, h1, h2, h3, h4, h5, h6, h7, h8, h9, h10, h11, hhbm, hflash, hrest⟩

/-- Settles O20: a snapshot's end is one operation, with the status that its case gives. -/
theorem snapshots : Obligations.Snapshots := by
  intro s x hship hcopy s1 s2
  refine ⟨fun hbad hreq => ?_, fun hbad => ?_, fun a ha hdue => ?_⟩
  · rw [exec_snapshotCopyDone, execSnapshotCopyDone, hship]
    simp only [hcopy, hbad, hreq]
    rfl
  · rw [exec_snapshotCopyDone, execSnapshotCopyDone, hship]
    simp only [hcopy, hbad]
    rfl
  · rw [exec_snapshotTimeout, execSnapshotTimeout, hship, ha]
    exact if_pos (by simp [hcopy, hdue])

end Sys2Proof.Machine
end

section
/-! What a REDUCE or LEDGER request changes as the home answers it: the fabric, and, where a sender's context gives way to
it, what a merge into memory can find (R382, R491). -/

namespace Sys2Proof.Machine

/-! ### What a read of memory's cells can change -/

/-- What a fabric keeps while it sends and answers: the number of its device and its combining buffer. -/
def Fabric.core (f : Fabric) : Nat × Bool × List Combine := (f.device, f.numbered, f.combining)

/-- From `s` to `t` at most the fabric but for its core, the counts of its traffic, and what sending changes. -/
def FabKept (s t : State) : Prop := FabOnly s t ∧ t.fab.core = s.fab.core

theorem FabKept.refl (s : State) : FabKept s s := ⟨.refl s, rfl⟩

theorem FabKept.trans {s t u : State} (hst : FabKept s t) (htu : FabKept t u) : FabKept s u :=
  ⟨hst.1.trans htu.1, htu.2.trans hst.2⟩

theorem SendsOnly.fab {s t : State} (h : SendsOnly s t) : t.fab = s.fab := by
  obtain ⟨_, _, _, _, rfl⟩ := sendsOnly_iff.1 h
  rfl

/-- What a fabric keeps while it sends: its core, and the queue of its home. -/
def Fabric.calm (f : Fabric) : (Nat × Bool × List Combine) × List Held := (f.core, f.queue)

/-- From `s` to `t` at most the fabric but for its core and its home's queue, the counts of its traffic, and what sending changes. -/
def FabCalm (s t : State) : Prop := FabOnly s t ∧ t.fab.calm = s.fab.calm

theorem FabCalm.fabKept {s t : State} (h : FabCalm s t) : FabKept s t := ⟨h.1, congrArg Prod.fst h.2⟩

theorem State.sendPkt_fabCalm (s : State) (p : Pkt) : FabCalm s (s.sendPkt p) := by
  refine ⟨s.sendPkt_fabOnly p, ?_⟩
  unfold State.sendPkt
  split
  · rw [(State.sendOn_sendsOnly ..).fab]
    rfl
  · rfl

theorem State.transmit_fabCalm (s : State) (r : Req) : FabCalm s (s.transmit r) := by
  refine ⟨s.transmit_fabOnly r, ?_⟩
  unfold State.transmit
  dsimp only
  split
  · split
    · rfl
    · exact (State.sendPkt_fabCalm ..).2
  · rfl

theorem State.sendReq_fabCalm (s : State) (dst op addr : Nat) (data : Bytes) (key aux flags aux2 : Nat) (why : Purpose)
    (stamp : Option (Nat × Nat)) (msg : Option Msg) :
    FabCalm s (s.sendReq dst op addr data key aux flags aux2 why stamp msg) := by
  refine ⟨State.sendReq_fabOnly .., ?_⟩
  unfold State.sendReq
  extract_lets p num st pkt blocked route r s1
  have h1 : s1.fab.calm = s.fab.calm := by
    unfold s1
    split <;> rfl
  clear_value s1 r blocked
  split
  · exact h1
  · exact (State.transmit_fabCalm ..).2.trans h1

theorem State.say_fabCalm (s : State) (dst op aux : Nat) (m : Msg) (data : Bytes) (stamped : Bool) :
    FabCalm s (s.say dst op aux m data stamped) := by
  refine ⟨State.say_fabOnly .., ?_⟩
  unfold State.say
  split_ifs
  · rfl
  · exact (State.sendReq_fabCalm ..).2

theorem State.sendPkt_fabKept (s : State) (p : Pkt) : FabKept s (s.sendPkt p) := (s.sendPkt_fabCalm p).fabKept

theorem State.transmit_fabKept (s : State) (r : Req) : FabKept s (s.transmit r) := (s.transmit_fabCalm r).fabKept

theorem State.sendReq_fabKept (s : State) (dst op addr : Nat) (data : Bytes) (key aux flags aux2 : Nat) (why : Purpose)
    (stamp : Option (Nat × Nat)) (msg : Option Msg) : FabKept s (s.sendReq dst op addr data key aux flags aux2 why stamp msg) :=
  (State.sendReq_fabCalm ..).fabKept

theorem State.say_fabKept (s : State) (dst op aux : Nat) (m : Msg) (data : Bytes) (stamped : Bool) :
    FabKept s (s.say dst op aux m data stamped) := (State.say_fabCalm ..).fabKept

/-- From `s` to `t` at most memory, the error log, Halter's events and decisions, the fabric but for its core, the counts of
traffic, what sending changes, and the request for a repeat. -/
def MemOnly (s t : State) : Prop :=
  t = { s with
    hbm := t.hbm, err := t.err, fab := t.fab
    hal := { s.hal with sessions := t.hal.sessions, heldEvents := t.hal.heldEvents, eventsLost := t.hal.eventsLost
                        decisions := t.hal.decisions, nextDecision := t.hal.nextDecision }
    ports := t.ports, txWait := t.txWait, sent := t.sent, freeIx := t.freeIx
    obs := { s.obs with fabTx := t.obs.fabTx, fabRx := t.obs.fabRx, fabReqs := t.obs.fabReqs, homeReqs := t.obs.homeReqs
                        hbmRd := t.obs.hbmRd, hbmWr := t.obs.hbmWr }
    step := { s.step with requested := t.step.requested, afterSwap := t.step.afterSwap } } ∧ t.fab.core = s.fab.core

theorem memOnly_iff {s t : State} : MemOnly s t ↔
    ∃ hbm err ses held lost dec nextDec, ∃ fab : Fabric, ∃ ports txWait sent freeIx tx rx reqs home hrd hwr requested afterSwap, t = { s with
      hbm := hbm, err := err
      hal := { s.hal with sessions := ses, heldEvents := held, eventsLost := lost, decisions := dec, nextDecision := nextDec }
      fab := { fab with device := s.fab.device, numbered := s.fab.numbered, combining := s.fab.combining }
      ports := ports, txWait := txWait, sent := sent, freeIx := freeIx
      obs := { s.obs with fabTx := tx, fabRx := rx, fabReqs := reqs, homeReqs := home, hbmRd := hrd, hbmWr := hwr }
      step := { s.step with requested := requested, afterSwap := afterSwap } } := by
  refine ⟨fun ⟨h, hc⟩ => ?_, ?_⟩
  · have hd : t.fab.device = s.fab.device := congrArg (·.1) hc
    have hn : t.fab.numbered = s.fab.numbered := congrArg (·.2.1) hc
    have hb : t.fab.combining = s.fab.combining := congrArg (·.2.2) hc
    exact ⟨_, _, _, _, _, _, _, t.fab, _, _, _, _, _, _, _, _, _, _, _, _, by rw [← hd, ← hn, ← hb]; exact h⟩
  · rintro ⟨_, _, _, _, _, _, _, _, _, _, _, _, _, _, _, _, _, _, _, _, rfl⟩
    exact ⟨rfl, rfl⟩

theorem MemOnly.refl (s : State) : MemOnly s s := ⟨rfl, rfl⟩

theorem MemOnly.trans {s t u : State} (hst : MemOnly s t) (htu : MemOnly t u) : MemOnly s u := by
  obtain ⟨_, _, _, _, _, _, _, _, _, _, _, _, _, _, _, _, _, _, _, _, rfl⟩ := memOnly_iff.1 hst
  obtain ⟨_, _, _, _, _, _, _, _, _, _, _, _, _, _, _, _, _, _, _, _, rfl⟩ := memOnly_iff.1 htu
  exact ⟨rfl, rfl⟩

theorem FabKept.memOnly {s t : State} (h : FabKept s t) : MemOnly s t := by
  obtain ⟨h, hc⟩ := h
  obtain ⟨_, _, _, _, _, _, _, _, _, rfl⟩ := fabOnly_iff.1 h
  exact ⟨rfl, hc⟩

theorem LogOnly.memOnly {s t : State} (h : LogOnly s t) : MemOnly s t := by
  obtain ⟨_, _, _, _, _, _, rfl⟩ := logOnly_iff.1 h
  exact ⟨rfl, rfl⟩

theorem SendsOnly.memOnly {s t : State} (h : SendsOnly s t) : MemOnly s t := by
  obtain ⟨_, _, _, _, rfl⟩ := sendsOnly_iff.1 h
  exact ⟨rfl, rfl⟩

theorem State.raise_memOnly (s : State) (ev : Event) : MemOnly s (s.raise ev) := by
  unfold State.raise
  split_ifs
  · exact ⟨rfl, rfl⟩
  · extract_lets r h
    exact .trans (t := { s with hal := h }) ⟨rfl, rfl⟩ (SendsOnly.foldl State.sendMsg_sendsOnly _ _).memOnly

theorem MemOnly.withHbm (s : State) (h : Hbm) : MemOnly s { s with hbm := h } := ⟨rfl, rfl⟩

theorem State.requestRepeat_calm (s : State) (cause : Nat) : (s.requestRepeat cause).fab.calm = s.fab.calm := by
  unfold State.requestRepeat
  split_ifs
  · rfl
  · exact (State.say_fabCalm ..).2
  · rfl

theorem State.requestRepeat_core (s : State) (cause : Nat) : (s.requestRepeat cause).fab.core = s.fab.core :=
  congrArg Prod.fst (s.requestRepeat_calm cause)

theorem State.requestRepeat_memOnly (s : State) (cause : Nat) : MemOnly s (s.requestRepeat cause) := by
  have h := s.requestRepeat_eq cause
  have hs := s.requestRepeat_step cause
  have hc := s.requestRepeat_core cause
  generalize s.requestRepeat cause = t at h hs hc
  generalize t.step = st at h hs
  obtain ⟨_, _, _, _, _, _, _, _, _, rfl⟩ := fabOnly_iff.1 h
  rw [hs]
  exact ⟨rfl, hc⟩

/-- From `s` to `t` cells of memory have been read: as `MemOnly`, and the home's queue is as it was. -/
structure CellOnly (s t : State) : Prop where
  mem : MemOnly s t
  queue : t.fab.queue = s.fab.queue

theorem CellOnly.refl (s : State) : CellOnly s s := ⟨.refl s, rfl⟩

theorem CellOnly.trans {s t u : State} (hst : CellOnly s t) (htu : CellOnly t u) : CellOnly s u :=
  ⟨hst.mem.trans htu.mem, htu.queue.trans hst.queue⟩

theorem CellOnly.withHbm (s : State) (h : Hbm) : CellOnly s { s with hbm := h } := ⟨⟨rfl, rfl⟩, rfl⟩

theorem HalterOnly.queue {s t : State} (h : HalterOnly s t) : t.fab.queue = s.fab.queue := by rw [h]

theorem State.requestRepeat_cellOnly (s : State) (cause : Nat) : CellOnly s (s.requestRepeat cause) :=
  ⟨s.requestRepeat_memOnly cause, congrArg Prod.snd (s.requestRepeat_calm cause)⟩

theorem State.request_memOnly (s : State) (req : Request) (code : Nat) (payload : List Nat) : MemOnly s (s.request req code payload) :=
  .trans (t := { s with hal := _ }) ⟨rfl, rfl⟩ (State.raise_memOnly ..)

theorem State.request_cellOnly (s : State) (req : Request) (code : Nat) (payload : List Nat) : CellOnly s (s.request req code payload) :=
  ⟨State.request_memOnly .., (State.raise_halterOnly _ _).queue⟩

theorem State.report_memOnly (s : State) (cls code inst addr detail flags : Nat) :
    MemOnly s (s.report cls 4 code inst addr detail flags) := (s.report_logOnly cls code inst addr detail flags (by omega)).memOnly

theorem State.report_cellOnly (s : State) (cls code inst addr detail flags : Nat) :
    CellOnly s (s.report cls 4 code inst addr detail flags) := ⟨State.report_memOnly .., by rw [State.report_eq]⟩

theorem State.failChannel_cellOnly (s : State) (m : Nat) : CellOnly s (s.failChannel m) := by
  unfold State.failChannel
  split
  · exact .refl s
  · exact .trans (.trans (t := s.onChan m _) (.withHbm ..) (State.report_cellOnly ..)) (State.requestRepeat_cellOnly ..)

theorem State.channelFailure_cellOnly (s : State) (m : Nat) : CellOnly s (s.channelFailure m) := by
  unfold State.channelFailure
  split_ifs
  · exact .refl s
  · exact State.request_cellOnly ..
  · exact State.failChannel_cellOnly ..

theorem State.pageRetire_cellOnly (s : State) (m pg : Nat) : CellOnly s (s.pageRetire m pg) := by
  unfold State.pageRetire
  extract_lets c
  split_ifs
  · exact .refl s
  · exact State.channelFailure_cellOnly ..
  · exact State.report_cellOnly ..
  · exact .withHbm ..

theorem State.shadowRow_cellOnly (s : State) (m off : Nat) : CellOnly s (s.shadowRow m off) := by
  unfold State.shadowRow
  extract_lets row r
  split_ifs
  · exact .refl s
  · exact State.pageRetire_cellOnly ..
  · exact (State.report_cellOnly ..).trans (.withHbm ..)

theorem State.rowFailure_cellOnly (s : State) (m off : Nat) : CellOnly s (s.rowFailure m off) := by
  unfold State.rowFailure
  extract_lets now s1 s2
  have h2 : CellOnly s s2 := by
    refine .trans (t := s1) ⟨⟨rfl, rfl⟩, rfl⟩ ?_
    unfold s2
    split
    · exact State.request_cellOnly ..
    · exact State.shadowRow_cellOnly ..
  split
  · exact h2.trans (State.channelFailure_cellOnly ..)
  · exact h2

theorem State.unitLost_cellOnly (s : State) (m off a : Nat) (c : List Nat) : CellOnly s (s.unitLost m off a c) := by
  unfold State.unitLost
  extract_lets s1 s2
  have h2 : CellOnly s s2 := by
    refine .trans (t := s1) ⟨⟨rfl, rfl⟩, rfl⟩ ?_
    unfold s2
    split
    · split <;> exact ⟨⟨rfl, rfl⟩, rfl⟩
    · exact ⟨⟨rfl, rfl⟩, rfl⟩
  exact (h2.trans (State.report_cellOnly ..)).trans (State.rowFailure_cellOnly ..)

theorem State.unitFixed_cellOnly (s : State) (m off a sym : Nat) (c : List Nat) : CellOnly s (s.unitFixed m off a sym c) := by
  unfold State.unitFixed
  extract_lets now row old s1 s2
  have h2 : CellOnly s s2 := .trans (t := s1) ⟨⟨rfl, rfl⟩, rfl⟩ (State.report_cellOnly ..)
  split
  · exact h2
  · exact h2.trans (State.rowFailure_cellOnly ..)

theorem State.readUnit_cellOnly (s : State) (a : Nat) (e : UnitErr) : CellOnly s (s.readUnit a e) := by
  unfold State.readUnit
  extract_lets m off c1 c2 s1
  split
  · exact .refl s
  split
  · exact State.unitLost_cellOnly ..
  split
  · split
    · exact .refl s
    · exact State.unitFixed_cellOnly ..
  split
  · exact State.unitLost_cellOnly ..
  split
  · refine .trans (t := s1) (.trans (t := s.onChan m _) (.withHbm ..) (State.report_cellOnly ..)) ?_
    split
    · exact .refl _
    · exact State.unitFixed_cellOnly ..
  · exact State.unitLost_cellOnly ..

theorem State.meetCell_cellOnly (s : State) (a : Nat) (flips : List (Nat × Nat)) : CellOnly s (s.meetCell a flips) := by
  unfold State.meetCell
  extract_lets m c s1
  split
  · exact .refl s
  split
  · exact .trans (t := s1) (.withHbm ..) ⟨⟨rfl, rfl⟩, rfl⟩
  · exact .trans (t := s1) (.withHbm ..) (State.readUnit_cellOnly ..)

theorem State.decodeAt_cellOnly (s : State) (a n : Nat) : CellOnly s (s.decodeAt a n) := by
  refine foldl_related CellOnly.refl CellOnly.trans (fun s e => ?_) _ s
  exact s.meetCell_cellOnly ..

theorem State.putHbm_cellOnly (s : State) (a : Nat) (b : Bytes) (fmt : Nat) (pois first : Bool) :
    CellOnly s (s.putHbm a b fmt pois first) := by
  unfold State.putHbm
  extract_lets m whole s1 s2 h
  have h1 : CellOnly s s1 := by
    unfold s1
    split
    · exact .refl s
    · exact State.decodeAt_cellOnly ..
  split
  · exact h1.trans (.withHbm ..)
  · exact h1.trans ⟨⟨rfl, rfl⟩, rfl⟩

theorem State.pageRetire_memOnly (s : State) (m pg : Nat) : MemOnly s (s.pageRetire m pg) := (s.pageRetire_cellOnly m pg).mem

theorem State.decodeAt_memOnly (s : State) (a n : Nat) : MemOnly s (s.decodeAt a n) := (s.decodeAt_cellOnly a n).mem

theorem State.putHbm_memOnly (s : State) (a : Nat) (b : Bytes) (fmt : Nat) (pois first : Bool) :
    MemOnly s (s.putHbm a b fmt pois first) := (State.putHbm_cellOnly ..).mem

/-! ### The home's answer -/

theorem FabKept.onFab (s : State) (f : Fabric → Fabric) (hf : (f s.fab).core = s.fab.core := by rfl) :
    FabKept s (s.onFab f) := ⟨.withFab .., hf⟩

theorem FabKept.onSender (s : State) (d : Nat) (f : Sender → Sender) : FabKept s (s.onSender d f) := .onFab ..

theorem FabKept.enqueue (s : State) (h : Held) : FabKept s (s.enqueue h) := ⟨rfl, rfl⟩

theorem FabKept.draw (s : State) (n : Nat) : FabKept s (s.draw n).2 := ⟨rfl, rfl⟩

theorem State.loadSender_fabKept (s : State) (d : Nat) : FabKept s (s.loadSender d) := by
  unfold State.loadSender
  split
  · exact .refl s
  · extract_lets b
    clear_value b
    generalize hu : s.onSender d _ = u
    exact .trans (t := u) (by rw [← hu]; exact .onSender ..) (.onFab ..)

theorem State.saveSender_memOnly (s : State) (d : Nat) (x : Sender) : MemOnly s (s.saveSender d x) := by
  unfold State.saveSender
  extract_lets s1
  have h1 : MemOnly s s1 := State.putHbm_memOnly ..
  clear_value s1
  exact h1.trans (FabKept.onFab ..).memOnly

theorem State.context_memOnly {s t : State} {d : Nat} (h : s.context d = some t) : MemOnly s t := by
  unfold State.context at h
  split at h
  · obtain rfl := Option.some.inj h; exact .refl s
  split at h
  · obtain rfl := Option.some.inj h; exact (State.loadSender_fabKept ..).memOnly
  split at h
  · obtain rfl := Option.some.inj h
    exact (State.saveSender_memOnly ..).trans (State.loadSender_fabKept ..).memOnly
  · exact absurd h (by simp)

section
variable {p : Pkt} (hs : p.src ≠ selfDev)
include hs

theorem State.putOff_fabKept (s : State) (status aux flags token : Nat) : FabKept s (s.putOff p status aux flags token) := by
  unfold State.putOff
  rw [if_neg hs]
  exact State.sendPkt_fabKept ..

theorem State.retry_fabKept (s : State) (held : Option Nat) : FabKept s (s.retry p held) := by
  unfold State.retry
  extract_lets d s1 after life s2 t
  have h1 : FabKept s s1 := ⟨rfl, rfl⟩
  split
  · exact (h1.trans (.onFab ..)).trans (State.putOff_fabKept hs ..)
  · split
    · exact (h1.trans (.onFab ..)).trans (State.putOff_fabKept hs ..)
    · exact h1.trans (State.putOff_fabKept hs ..)

theorem State.respond_fabKept (s : State) (status : Nat) (data : Bytes) : FabKept s (s.respond p status data) := by
  unfold State.respond
  extract_lets s1 s2 s3
  have h2 : FabKept s s2 := by
    refine .trans (t := s1) ?_ ?_
    · unfold s1
      split <;> exact ⟨rfl, rfl⟩
    · unfold s2
      split <;> exact ⟨rfl, rfl⟩
  rw [if_neg hs]
  exact (h2.trans (State.sendPkt_fabKept ..)).trans (t := s3) ⟨rfl, rfl⟩

theorem State.answerDup_fabKept (s : State) : FabKept s (s.answerDup p) := State.respond_fabKept hs ..

/-- A message that the home serves is answered, and nothing more is done. -/
theorem State.serve_fabKept (hm : msgOp p.op = true) (hsc : addrScope p.addr = 1) (s : State) (errs : List UnitErr) (refuse : Nat) :
    FabKept s (s.serve p errs refuse) := by
  have ha : (s.applyReq p errs s.fab.nextOwed refuse).1 = s := by
    have hmc : s.mcastOut p s.fab.nextOwed = s := if_pos (by rw [hsc]; decide)
    unfold State.applyReq
    simp only [hmc, hm, if_true]
    split_ifs <;> rfl
  unfold State.serve
  extract_lets k n r s1 ws
  have h1 : FabKept s s1 := by
    have : r.1 = s := ha
    unfold s1
    rw [this]
    exact ⟨rfl, rfl⟩
  split
  · exact h1.trans (State.respond_fabKept hs ..)
  · exact h1.trans (.onFab ..)

theorem State.enter_fabKept (hm : msgOp p.op = true) (hsc : addrScope p.addr = 1) (s : State) (resv busy : Bool)
    (errs : List UnitErr) : FabKept s (s.enter p resv busy errs) := by
  have hnext : ∀ t : State, FabKept t (if p.wseq = 0 then t else t.onSender p.src fun x => { x with next := nextWseq p.wseq }) := by
    intro t
    split
    · exact .refl t
    · exact .onSender ..
  have hbusy : ∀ t : State, t.busyTime p = none := by
    intro t
    unfold State.busyTime
    exact if_pos (by simp [hm])
  unfold State.enter
  extract_lets next counts s1 st s2 s3
  have h1 : FabKept s s1 := ⟨rfl, rfl⟩
  have h3 : FabKept s s3 := (h1.trans (.onFab ..)).trans (hnext s2)
  have hn : FabKept s (next s1) := h1.trans (hnext s1)
  generalize hy : s1.busyTime p = y
  rw [hbusy s1] at hy
  subst hy
  generalize next s1 = s1' at hn ⊢
  clear_value s3 s1
  split
  · exact hn.trans (State.respond_fabKept hs ..)
  simp only
  split
  · exact h3.trans (State.respond_fabKept hs ..)
  split
  · exact h3.trans (.enqueue ..)
  · exact (h3.trans (.onFab ..)).trans (State.serve_fabKept hs hm hsc ..)

theorem State.home_memOnly (hm : msgOp p.op = true) (hsc : addrScope p.addr = 1) (s : State) (busy : Bool) (errs : List UnitErr) :
    MemOnly s (s.home p busy errs) := by
  unfold State.home
  extract_lets own d
  split
  · exact (State.sendPkt_fabKept ..).memOnly
  split
  · exact (FabKept.trans (t := d.2) (FabKept.draw ..) (State.putOff_fabKept hs ..)).memOnly
  split
  · exact (State.retry_fabKept hs ..).memOnly
  next t ht =>
    refine (State.context_memOnly ht).trans (FabKept.memOnly ?_)
    clear ht
    extract_lets u e v w nx x
    have hu : FabKept t u := by
      unfold u
      split
      · exact .refl t
      · exact .onSender ..
    have hv : FabKept t v := hu.trans (by unfold v; split; exacts [.onFab .., .refl u])
    have hw : FabKept t w := hv.trans (.onSender ..)
    have hx : FabKept t x := hw.trans (.onFab ..)
    clear_value x nx w v e u
    split
    · exact hu.trans (State.retry_fabKept hs ..)
    split
    · exact hv.trans (State.enter_fabKept hs hm hsc ..)
    split
    · exact hv.trans (State.respond_fabKept hs ..)
    split
    · split
      · exact hw.trans (State.retry_fabKept hs ..)
      · exact hw.trans (State.enter_fabKept hs hm hsc ..)
    split
    · exact hw
    split
    · split
      · exact hx.trans (.enqueue ..)
      · exact hx.trans (State.answerDup_fabKept hs ..)
    · exact hw.trans (State.putOff_fabKept hs ..)
end

theorem State.packetHeard_memOnly (s : State) (p : Pkt) : MemOnly s (s.packetHeard p) := ⟨rfl, rfl⟩

theorem State.MsgComes.notSelf {s : State} {p : Pkt} {st : Nat} (h : s.MsgComes p st) : p.src ≠ selfDev :=
  Nat.ne_of_lt h.src.2

theorem State.MsgComes.home_memOnly {s : State} {p : Pkt} {st : Nat} (h : s.MsgComes p st) (hm : msgOp p.op = true) :
    MemOnly s ((s.packetHeard p).home p false []) :=
  (s.packetHeard_memOnly p).trans (State.home_memOnly h.notSelf hm h.scope ..)

/-- Hearing a message of its own or of another device changes no more than the home's answer does. -/
theorem State.Takes.heard_memOnly {s : State} {p : Pkt} (h : s.Takes p) (hm : msgOp p.op = true) : MemOnly s (s.heard p) := by
  unfold State.heard
  split
  · exact .refl s
  next hs =>
    rcases h with h | h
    · exact absurd h hs
    · exact h.home_memOnly hm

theorem MemOnly.red {s t : State} (h : MemOnly s t) : t.red = s.red := by
  rw [h.1]

theorem MemOnly.flash {s t : State} (h : MemOnly s t) : t.flash = s.flash := by
  rw [h.1]

end Sys2Proof.Machine
end

section
/-! Reduction records and credits (R351 to R356): the state in which a record has been heard is the one before it as far as
the reduction and the step are asked. -/

namespace Sys2Proof.Machine

theorem MemOnly.tagEnt {s t : State} (h : MemOnly s t) (tag : Nat) : t.tagEnt tag = s.tagEnt tag := by
  simp only [State.tagEnt, h.red]

theorem MemOnly.tree {s t : State} (h : MemOnly s t) (tag : Nat) : t.tree tag = s.tree tag := by
  simp only [State.tree, State.treeAt, State.tagEnt, h.red]

theorem MemOnly.committed {s t : State} (h : MemOnly s t) : t.step.committed = s.step.committed := by
  rw [h.1]

theorem MemOnly.attempt {s t : State} (h : MemOnly s t) : t.step.attempt = s.step.attempt := by
  rw [h.1]

theorem MemOnly.current {s t : State} (h : MemOnly s t) (step attempt : Nat) : t.current step attempt = s.current step attempt := by
  simp only [State.current, State.stepNo, h.committed, h.attempt]

/-- A record of another attempt, or one that the home refuses with STALE, is acted on in the same way: as a stale one. -/
theorem msgRow_stale {s : State} {p : Pkt} {m : Msg} {stale act : State → State} {step attempt : Nat}
    (hact : ∀ u : State, u.current step attempt = false → act u = stale u)
    (h : (s.Takes (redPkt p m) ∧ s.current step attempt = false) ∨ s.MsgComes (redPkt p m) 6) :
    msgRow 0x40 m p stale act s = .next (stale (s.heard (redPkt p m))) := by
  rcases h with ⟨ht, hc⟩ | h
  · refine (msgRow_takes stale act ht).trans (congrArg Host.Outcome.next (hact _ ?_))
    exact ((ht.heard_memOnly rfl).current ..).trans hc
  · refine (msgRow_comes stale act h).trans (congrArg Host.Outcome.next ?_)
    unfold State.heard
    exact congrArg stale (if_neg h.src.1).symm

/-- A record that this device takes is acted on, in the state in which it has been heard. -/
theorem msgRow_red {s : State} {p : Pkt} {m : Msg} {stale act : State → State} (h : s.Takes (redPkt p m)) :
    msgRow 0x40 m p stale act s = .next (act (s.heard (redPkt p m))) := msgRow_takes stale act h

theorem eq_map_iff_all (f : Int → Int) (l : List Int) : l = l.map f ↔ (l.all fun x => f x == x) = true := by
  induction l with
  | nil => simp
  | cons x l ih =>
    rw [List.map_cons, List.cons.injEq, ih, List.all_cons, Bool.and_eq_true, beq_iff_eq]
    exact and_congr_left' ⟨Eq.symm, Eq.symm⟩

theorem gxAdd_flags (w : Nat) (a b : Gx) :
    (gxAdd w a b).flags = if (a.elems.zip b.elems).all fun x => gxClamp w (x.1 + x.2) == x.1 + x.2
      then a.flags ||| b.flags else a.flags ||| b.flags ||| 1 := by
  have h := eq_map_iff_all (gxClamp w) ((a.elems.zip b.elems).map fun p => p.1 + p.2)
  rw [List.all_map, Function.comp_def] at h
  have hx : (gxAdd w a b).flags = (a.flags ||| b.flags) ||| (if (a.elems.zip b.elems).map (fun p => p.1 + p.2) !=
      ((a.elems.zip b.elems).map fun p => p.1 + p.2).map (gxClamp w) then 1 else 0) := rfl
  rw [hx]
  split_ifs with hne hall hall
  · exact absurd (h.2 hall) (bne_iff_ne.1 hne)
  · rfl
  · exact Nat.or_zero _
  · exact absurd (h.1 (not_not.1 (mt bne_iff_ne.2 hne))) hall

/-- Where nothing is held for a tree's data credits, nothing is sent. -/
theorem State.sendHeld_of_none {s : State} {tree : Nat} (h : (s.red.waiting.find? fun w => (s.tagEnt w.1).tree == tree) = none)
    (n : Nat) : State.sendHeld tree n s = s := by
  cases n with
  | zero => rfl
  | succ n => simp only [State.sendHeld, h]

/-- Where nothing is held for a tree's control credits, nothing is sent. -/
theorem State.sendCtl_of_none {s : State} {tree : Nat} (h : (s.red.ctlWait.find? fun w => w.1 == tree) = none) (n : Nat) :
    State.sendCtl tree n s = s := by
  cases n with
  | zero => rfl
  | succ n => simp only [State.sendCtl, h]

/-- Settles O21: a record of the attempt is acted on where it has been heard, any other as a stale one; and a credit's return
sends what its tree holds. -/
theorem reductionRecords : Obligations.ReductionRecords := by
  refine ⟨fun p s => ⟨fun retry fail => ⟨fun h => ?_, fun ht hc => ?_⟩, fun sum blocks idx flags => ?_, fun code => ?_, ?_⟩,
    fun tree s => ?_⟩
  · rw [exec_reduce, execReduce, msgRow_stale (fun u hu => ?_) h]
    · rfl
    · simp only [hu, Bool.not_false, if_true]
  · rw [exec_reduce, execReduce, msgRow_red ht]
    have hu := ht.heard_memOnly rfl
    simp only [hu.current, hc, hu.tagEnt, Bool.not_true, Bool.false_eq_true, if_false]
    rfl
  · refine ⟨fun h => ?_, fun ht hc => ⟨fun hd => ?_, fun hd => ?_⟩⟩
    · rw [exec_reduceEnd, execReduceEnd]
      refine (msgRow_stale (m := .endRec ..) (fun u hu => ?_) h).trans ?_
      · simp only [hu, Bool.not_false, if_true]
      · rfl
    · rw [exec_reduceEnd, execReduceEnd]
      refine (msgRow_red (m := .endRec ..) ht).trans ?_
      simp only [(ht.heard_memOnly rfl).current, hc, hd, Bool.not_true, Bool.false_eq_true, if_false, if_true]
    · rw [exec_reduceEnd, execReduceEnd]
      refine (msgRow_red (m := .endRec ..) ht).trans ?_
      simp only [(ht.heard_memOnly rfl).current, hc, hd, Bool.not_true, Bool.false_eq_true, if_false]
      rfl
  · refine ⟨fun h => ?_, fun ht hc hr => ?_, fun ht hc hr => ?_⟩
    · rw [exec_reduceResult, execReduceResult, msgRow_stale (fun u hu => ?_) h]
      · rfl
      · simp only [hu, Bool.not_false, if_true]
    all_goals
      rw [exec_reduceResult, execReduceResult, msgRow_red ht]
      have hu := ht.heard_memOnly rfl
      simp only [hu.current, hc, hu.tagEnt, State.takeResult, hr, Bool.not_true, Bool.not_false, Bool.false_eq_true, if_false,
        if_true]
  · exact fun w a b => ⟨by simp [gxAdd], gxAdd_flags w a b⟩
  · refine ⟨rfl, rfl, fun h => ?_, fun h => ?_⟩
    · have hx : exec (.creditReturn tree false) s =
          .next (s.onRed fun r => { r with creditsUsed := Tbl.upd 0 r.creditsUsed tree (· - 1) }) := by
        have hn := State.sendHeld_of_none (s := s.onRed fun r => { r with creditsUsed := Tbl.upd 0 r.creditsUsed tree (· - 1) }) h
        exact congrArg Host.Outcome.next (hn s.red.waiting.length)
      refine ⟨_, hx, rfl, Tbl.get_upd_self s.red.creditsUsed tree (· - 1), fun j hj => ?_⟩
      exact Tbl.get_upd_ne hj s.red.creditsUsed (· - 1)
    · have hx : exec (.creditReturn tree true) s =
          .next (s.onRed fun r => { r with ctlUsed := Tbl.upd 0 r.ctlUsed tree (· - 1) }) := by
        have hn := State.sendCtl_of_none (s := s.onRed fun r => { r with ctlUsed := Tbl.upd 0 r.ctlUsed tree (· - 1) }) h
        exact congrArg Host.Outcome.next (hn s.red.ctlWait.length)
      refine ⟨_, hx, rfl, Tbl.get_upd_self s.red.ctlUsed tree (· - 1), fun j hj => ?_⟩
      exact Tbl.get_upd_ne hj s.red.ctlUsed (· - 1)

end Sys2Proof.Machine
end

section
/-! Repeats (R255): the order's arrival, what is discarded 10 us later, and the attempt's start. -/

namespace Sys2Proof.Machine

/-! ### The order's arrival -/

theorem MemOnly.combining {s t : State} (h : MemOnly s t) : t.fab.combining = s.fab.combining := congrArg (·.2.2) h.2

theorem MemOnly.device {s t : State} (h : MemOnly s t) : t.fab.device = s.fab.device := congrArg (·.1) h.2

theorem MemOnly.refuses {s t : State} (h : MemOnly s t) (src : Nat) : t.refuses src = s.refuses src := by
  simp only [State.refuses, h.red]

/-- What the lead above says is not taken for an order to this device's own team; anything else it hears is. -/
theorem State.Takes.not_fromAbove {s : State} {q : Pkt} (h : s.Takes q) (hm : msgOp q.op = true) (ha : s.fromAbove q.src = false) :
    (s.heard q).fromAbove q.src = false := by
  rcases h with hq | hc
  · simpa only [State.heard, hq, if_true] using ha
  · have hr := (State.Takes.heard_memOnly (.inr hc) hm).red
    simp only [State.fromAbove, hc.src.1, decide_true, Bool.and_true, ne_eq, not_false_eq_true] at ha
    simp only [State.fromAbove, hr, ha, Bool.false_and]

/-- A ledger's message that this device takes is acted on where it has been heard, unless its sender is refused. -/
theorem ledgerRow_takes {s : State} {p : Pkt} {kind : Nat} {args : List Nat} {act : State → State} (hr : s.refuses p.src = false)
    (h : s.Takes (ledPkt p kind args)) : ledgerRow kind args p act s = .next (act (s.heard (ledPkt p kind args))) := by
  have hu : (s.heard (ledPkt p kind args)).refuses p.src = false := ((h.heard_memOnly rfl).refuses _).trans hr
  refine (msgRow_takes id _ h).trans (congrArg Host.Outcome.next (if_neg ?_))
  exact Bool.not_eq_true _ ▸ hu

/-- Of tile `k` at most the accumulators have changed. -/
def AccsOnly (s t : State) : Prop :=
  t = { s with tiles := t.tiles, freeIx := t.freeIx } ∧ ∀ k, ∃ acc, t.tile k = { s.tile k with acc := acc }

theorem AccsOnly.refl (s : State) : AccsOnly s s := ⟨rfl, fun _ => ⟨_, rfl⟩⟩

theorem AccsOnly.trans {s t u : State} (hst : AccsOnly s t) (htu : AccsOnly t u) : AccsOnly s u := by
  refine ⟨htu.1.trans (by rw [hst.1]), fun k => ?_⟩
  obtain ⟨a, ha⟩ := hst.2 k
  obtain ⟨b, hb⟩ := htu.2 k
  exact ⟨b, by rw [hb, ha]⟩

theorem State.groupsOpen_accsOnly (s : State) (t : Nat) (c : MxCmd) : AccsOnly s (s.groupsOpen t c) := by
  refine foldl_related AccsOnly.refl AccsOnly.trans (fun s g => ?_) _ s
  dsimp only
  split
  · refine ⟨rfl, fun k => ?_⟩
    by_cases hk : k = t
    · subst hk
      exact ⟨_, State.tile_onTile_self ..⟩
    · exact ⟨_, State.tile_onTile_ne _ hk _⟩
  · exact .refl s

/-- The tile's sequencer has stopped and its queues are empty. -/
structure Tile.Stopped (x : Tile) : Prop where
  seq : x.seq = .stopped
  mxq : x.mxq = []
  panq : x.panq = []
  fabq : x.fabq = []
  ftq : x.ftq = []

/-- From `s` to `t` tiles have stopped, those of `l` among them, and kept their local stores. -/
structure Stops (l : List Nat) (s t : State) : Prop where
  only : t = { s with tiles := t.tiles, freeIx := t.freeIx }
  store : ∀ k, (t.tile k).store = (s.tile k).store
  kept : ∀ k, (s.tile k).Stopped → (t.tile k).Stopped
  stopped : ∀ k ∈ l, (t.tile k).Stopped

theorem Stops.trans {l m : List Nat} {s t u : State} (hst : Stops l s t) (htu : Stops m t u) : Stops (l ++ m) s u where
  only := htu.only.trans (by rw [hst.only])
  store k := (htu.store k).trans (hst.store k)
  kept k h := htu.kept k (hst.kept k h)
  stopped k h := (List.mem_append.1 h).elim (fun h => htu.kept k (hst.stopped k h)) (htu.stopped k)

/-- The tile stopped, with its queues empty (R255). -/
def Tile.stop (x : Tile) : Tile :=
  { x with seq := .stopped, mxq := [], panq := [], fabq := [], ftq := [], rowBusy := false, vwait := [], unfenced := false }

theorem Tile.stop_stopped (x : Tile) : x.stop.Stopped := ⟨rfl, rfl, rfl, rfl, rfl⟩

theorem State.stopTile_eq (s : State) (t : Nat) : ∃ u, AccsOnly s u ∧ s.stopTile t = u.onTile t Tile.stop :=
  ⟨_, foldl_related AccsOnly.refl AccsOnly.trans (fun s c => s.groupsOpen_accsOnly t c) _ s, rfl⟩

theorem State.stopTile_stops (s : State) (t : Nat) : Stops [t] s (s.stopTile t) := by
  obtain ⟨u, hu, he⟩ := s.stopTile_eq t
  rw [he]
  have htile : ∀ k, (u.onTile t Tile.stop).tile k = if k = t then (u.tile k).stop else u.tile k := by
    intro k
    split
    · next hk => exact hk ▸ State.tile_onTile_self ..
    · next hk => exact State.tile_onTile_ne _ hk _
  refine ⟨?_, fun k => ?_, fun k hk => ?_, fun k hk => ?_⟩
  · exact .trans (b := { s with tiles := (u.onTile t Tile.stop).tiles, freeIx := u.freeIx }) (by rw [hu.1]; rfl) rfl
  all_goals
    obtain ⟨a, ha⟩ := hu.2 k
    rw [htile]
  · split <;> rw [ha]; rfl
  · split
    · exact Tile.stop_stopped _
    · rw [ha]
      exact ⟨hk.seq, hk.mxq, hk.panq, hk.fabq, hk.ftq⟩
  · rw [if_pos (List.mem_singleton.1 hk)]
    exact Tile.stop_stopped _

theorem State.foldl_stopTile_stops (l : List Nat) (s : State) : Stops l s (l.foldl (fun s t => s.stopTile t) s) := by
  induction l generalizing s with
  | nil => exact ⟨rfl, fun _ => rfl, fun _ h => h, fun _ h => absurd h (List.not_mem_nil)⟩
  | cons t l ih => exact (s.stopTile_stops t).trans (ih _)

/-- The state in which the order's attempt is entered, before the sequencers stop. -/
def State.attemptDue (s : State) (attempt cause : Nat) (ps : List Patch) : State :=
  s.onStep fun x =>
    { x with st := 4, attempt := attempt, repeating := some (attempt, cause, ps), repeatAt := s.now
             drained := false, requested := false, held := none, actionable := none, withheld := false }

theorem State.repeatLocal_of_current {s : State} {attempt cause : Nat} {ps : List Patch} (ha : s.step.attempt < attempt)
    (hj : 2 ≤ s.hal.job) (hst : s.step.st ≠ 3) (hc : s.fab.combining = []) :
    let t := (List.range 192).foldl (fun s t => s.stopTile t) (s.attemptDue attempt cause ps)
    s.repeatLocal s.stepNo attempt cause ps = { t with
      fab := { t.fab with cache := [], refused := [], reqs := t.fab.reqs.map fun r => { r with why := r.why.orphan } }
      red := { t.red with st := [], waiting := [], ctlWait := t.red.ctlWait.filter fun w => !w.2.2.2.2 } } := by
  unfold State.repeatLocal
  rw [if_neg (by simp; omega), State.combineAll_of_nil hc]
  unfold State.attemptDue
  rfl

theorem State.repeatLocal_of_other {s : State} {n attempt cause : Nat} {ps : List Patch}
    (h : n ≠ s.stepNo ∨ attempt ≤ s.step.attempt ∨ s.hal.job < 2 ∨ s.step.st = 3) :
    s.repeatLocal n attempt cause ps = s.report 0 7 0x281 0 0 (n + 2 ^ 64 * attempt) := by
  unfold State.repeatLocal
  rw [if_pos]
  simpa [or_assoc] using h

/-! ### What is discarded 10 us later -/

/-- The state with what the attempt has counted and written discarded (R222, R255). -/
def State.attemptCleared (s : State) : State :=
  (s.clearCounts.onStep fun x => { x with written := [], repeats := satAdd 16 x.repeats 1, drained := true }).allTiles
    fun _ x => { x with pn := { x.pn with main := [], ckpt := [] } }

theorem State.attemptCleared_eq (s : State) : s.attemptCleared = { s with
    step := { s.step with drainCount := 0, ended := false, counted := [], held := none, actionable := none, requested := false
                          withheld := false, written := [], repeats := satAdd 16 s.step.repeats 1, drained := true }
    red := { s.red with st := [], redDone := [], waiting := [], selfDone := false, sentDone := false
                        ctlWait := s.red.ctlWait.filter fun w => !w.2.2.2.2 }
    tiles := s.attemptCleared.tiles } := by
  unfold State.attemptCleared
  have h := s.clearCounts_tilesOnly
  generalize s.clearCounts = u at h
  refine Eq.trans (State.allTiles_tilesOnly _ _) ?_
  rw [h]
  rfl

theorem State.tile_attemptCleared (s : State) {k : Nat} (hk : k < 192) : s.attemptCleared.tile k =
    { s.tile k with posts := [], comp := 0, pn := { (s.tile k).pn with main := [], ckpt := [] } } := by
  unfold State.attemptCleared
  rw [State.tile_allTiles _ _ hk, State.tile_onStep]
  unfold State.clearCounts
  rw [State.tile_allTiles _ _ hk]
  rfl

theorem State.tile_withHbm (s : State) (h : Hbm) (k : Nat) : ({ s with hbm := h } : State).tile k = s.tile k := rfl

theorem State.relayoutDue_congr {s t : State} (h : t.hbm = s.hbm) : t.relayoutDue = s.relayoutDue := by
  simp only [State.relayoutDue, State.dueChans, State.chan, h]

theorem State.beginRelayouts_of_notDue {s : State} (h : s.relayoutDue = false) : s.beginRelayouts = s := by
  have hall : ∀ n ∈ List.range 6, (!(s.dueChans n).isEmpty || (nth s.hbm.stk n {}).relayout) = false := by
    simpa only [State.relayoutDue, List.any_eq_false, Bool.not_eq_true] using h
  unfold State.beginRelayouts
  generalize List.range 6 = l at hall
  induction l with
  | nil => rfl
  | cons n l ih =>
    obtain ⟨hn, hl⟩ := List.forall_mem_cons.1 hall
    rw [List.foldl_cons, if_pos, ih hl]
    simp only [Bool.or_eq_false_iff, Bool.not_eq_false'] at hn
    rw [hn.1]
    rfl

/-- Where nothing is poisoned or awaited, a restoration ends with nothing reported. -/
theorem State.endRestore_of_clean {s : State} (hp : s.poisoned = []) (hm : s.hbm.mapped = []) (hb : s.hbm.restoring = true)
    (hr : ∀ (r : Req) (a : Nat), r ∈ s.fab.reqs → r.why ≠ .restore a) :
    s.endRestore = { s with hbm := { s.hbm with reported := [], restoring := false } } := by
  have hbusy : (s.fab.reqs.any fun (r : Req) => match r.why with | .restore _ => true | _ => false) = false := by
    refine List.any_eq_false.2 fun r hmem => ?_
    split
    · next a ha => exact absurd ha (hr r a hmem)
    · exact Bool.false_ne_true
  unfold State.endRestore
  rw [if_neg (by rw [hb]; exact ne_of_eq_of_ne hbusy (by decide)), hm, List.foldl_nil]
  dsimp only
  rw [hp]
  unfold State.lostUnits
  have hnone : s.hbm.reported.filter ([] : List Nat).contains = [] := List.filter_eq_nil_iff.2 (by simp)
  simp only [List.foldl_nil, hnone, hm]

theorem State.beginRestore_of_clean {s : State} (hp : s.poisoned = []) (hm : s.hbm.mapped = [])
    (hr : ∀ (r : Req) (a : Nat), r ∈ s.fab.reqs → r.why ≠ .restore a) :
    s.beginRestore = { s with hbm := { s.hbm with reported := [], restoring := false } } := by
  have hx : s.beginRestore = State.endRestore { s with hbm := { s.hbm with restoring := true } } := by
    have hu : State.poisoned { s with hbm := { s.hbm with restoring := true } } = [] := hp
    unfold State.beginRestore
    dsimp only
    rw [hu]
    rfl
  exact hx.trans (State.endRestore_of_clean (s := { s with hbm := { s.hbm with restoring := true } }) hp hm rfl hr)

theorem State.repeatDrained_eq {s : State} {attempt cause : Nat} (hrep : s.step.repeating = some (attempt, cause, []))
    (hreg : ∀ r ∈ s.pkg.regions, r.failed = []) (hpois : s.poisoned = []) (hrel : s.relayoutDue = false) (hmap : s.hbm.mapped = [])
    (hcomb : s.fab.combining = []) (hreqs : ∀ (r : Req) (a : Nat), r ∈ s.fab.reqs → r.why ≠ .restore a) :
    s.repeatDrained = { s with
      step := s.repeatDrained.step, tiles := s.repeatDrained.tiles, pwr := s.repeatDrained.pwr
      red := { s.red with st := [], redDone := [], waiting := [], selfDone := false, sentDone := false
                          ctlWait := s.red.ctlWait.filter fun w => !w.2.2.2.2 }
      hbm := { s.hbm with reported := [], restoring := false } } ∧
    (∀ k, k < 192 → (s.repeatDrained.tile k).pn.main = [] ∧ (s.repeatDrained.tile k).pn.ckpt = [] ∧
      (s.repeatDrained.tile k).posts = [] ∧ (s.repeatDrained.tile k).comp = 0 ∧
      (s.repeatDrained.tile k).store = (s.tile k).store) ∧
    s.repeatDrained.step = { s.step with
      drainCount := 0, ended := false, counted := [], held := none, actionable := none, requested := false, withheld := false
      written := [], repeats := satAdd 16 s.step.repeats 1, drained := true } := by
  have hc := s.attemptCleared_eq
  have hhbm : s.attemptCleared.hbm = s.hbm := by rw [hc]
  have hdue : s.attemptCleared.relayoutDue = false := (State.relayoutDue_congr hhbm).trans hrel
  have hx : s.repeatDrained = ({ s.attemptCleared with hbm := { s.hbm with reported := [], restoring := false } } : State).phasesZero := by
    unfold State.repeatDrained
    extract_lets u v w x
    have hv : v = s.attemptCleared := by
      unfold v u State.attemptCleared
      rw [State.combineAll_of_nil hcomb]
    have hw : w = s.attemptCleared := by
      unfold w
      rw [hv, hc]
      simp only [hrep, List.foldl_nil]
    have hx : x = s.attemptCleared := by
      unfold x
      rw [hw, State.settleSlots_of_none, State.beginRelayouts_of_notDue]
      · exact hdue
      · rw [hc]; exact hreg
    rw [hx, if_neg (by simp [hdue]), State.beginRestore_of_clean, hhbm]
    · rw [State.poisoned, hhbm]; exact hpois
    · rw [hhbm]; exact hmap
    · rw [hc]; exact hreqs
  have hp := State.phasesZero_pwrOnly { s.attemptCleared with hbm := { s.hbm with reported := [], restoring := false } }
  rw [← hx] at hp
  have htile : ∀ k, k < 192 → s.repeatDrained.tile k =
      { s.tile k with posts := [], comp := 0, pn := { (s.tile k).pn with main := [], ckpt := [] } } := fun k hk =>
    (hp.tile k).trans ((State.tile_withHbm ..).trans (s.tile_attemptCleared hk))
  generalize s.repeatDrained = t at hp htile ⊢
  rw [PwrOnly, hc] at hp
  refine ⟨?_, fun k hk => ?_, ?_⟩
  · rw [hp]
  · rw [htile k hk]
    exact ⟨rfl, rfl, rfl, rfl, rfl⟩
  · rw [hp]

/-- Settles O19: an order of the step in progress stops every sequencer, what it discards 10 us later, and the start. -/
theorem repeats : Obligations.Repeats := by
  refine ⟨fun p n attempt cause ps s hr ha => ?_, fun s attempt cause hst hd hat hrep hreg hpois hrel hmap hcomb hreqs htrig => ?_,
    fun s hst hd hj hsl htr hstop hstk hres => ?_⟩
  · intro q u ht
    have hu : MemOnly s u := ht.heard_memOnly rfl
    have hx : exec (.repeatOrder p n attempt cause ps) s = .next (u.repeatLocal n attempt cause ps) := by
      rw [exec_repeatOrder, execRepeatOrder]
      refine (ledgerRow_takes hr ht).trans (congrArg Host.Outcome.next (if_pos ?_))
      exact congrArg (!·) (ht.not_fromAbove rfl ha)
    have hno : u.stepNo = s.stepNo := congrArg (· + 1) hu.committed
    have hjob : u.hal.job = s.hal.job := by rw [hu.1]
    have hstep : u.step.st = s.step.st := by rw [hu.1]
    refine ⟨fun hn hat hj hst hc => ⟨_, hx, ?_⟩, fun h => hx.trans (congrArg Host.Outcome.next ?_)⟩
    · rw [hn, ← hno, State.repeatLocal_of_current (by rwa [hu.attempt]) (by rwa [hjob]) (by rwa [hstep]) (hu.combining.trans hc)]
      have hs := State.foldl_stopTile_stops (List.range 192) (u.attemptDue attempt cause ps)
      generalize (List.range 192).foldl (fun s t => s.stopTile t) (u.attemptDue attempt cause ps) = t at hs
      obtain ⟨ht, hstore, -, hstop⟩ := hs
      have htile : ∀ k, (u.attemptDue attempt cause ps).tile k = s.tile k := by
        intro k
        rw [hu.1]
        rfl
      have hnow : u.now = s.now := by
        rw [hu.1]
        rfl
      obtain ⟨tiles, free, ht⟩ : ∃ tiles free, t = { u.attemptDue attempt cause ps with tiles := tiles, freeIx := free } := ⟨_, _, ht⟩
      refine ⟨?_, ?_, ?_, ?_, ?_, fun k hk => ?_, rfl, ?_, ?_, ?_⟩
      · rw [ht]; rfl
      · rw [ht]; rfl
      · rw [ht]; rfl
      · rw [ht]; exact hnow
      · rw [ht]; exact hu.committed
      · have hk := hstop k (List.mem_range.2 hk)
        exact ⟨hk.seq, hk.mxq, hk.panq, hk.fabq, hk.ftq, (hstore k).trans (congrArg Tile.store (htile k))⟩
      · rw [ht]; rfl
      · rw [ht]; rfl
      · rw [ht]; exact hu.flash
    · exact State.repeatLocal_of_other (by rwa [hno, hu.attempt, hjob, hstep])
  · obtain ⟨he, htile, hstep⟩ := s.repeatDrained_eq hrep hreg hpois hrel hmap hcomb hreqs
    refine ⟨s.repeatDrained, ?_, hstep, htile, he⟩
    rw [exec_repeatDrained, execRepeatDrained, if_neg, State.trigger_of_off]
    · rw [he]
      exact htrig
    · simp [hst, hd, hat]
  · rw [exec_repeatRestart, execRepeatRestart, State.restart, if_neg]
    simp [hst, hd, hj, hsl, htr, hstop, hstk, hres]

end Sys2Proof.Machine
end

section
/-! The step ledger at a lead, beats and the standby (R361 to R372). -/

namespace Sys2Proof.Machine

/-! ### Orders to the members -/

theorem FabOnly.red {s t : State} (h : FabOnly s t) : t.red = s.red := by rw [h]

theorem FabOnly.now {s t : State} (h : FabOnly s t) : t.now = s.now := by
  rw [h]
  rfl

theorem MemOnly.now {s t : State} (h : MemOnly s t) : t.now = s.now := by
  rw [h.1]
  rfl

theorem State.toMembers_fabOnly (s : State) (kind : Nat) (args : List Nat) : FabOnly s (s.toMembers kind args) :=
  foldl_related FabOnly.refl FabOnly.trans (fun s d => s.say_fabOnly d ..) _ s

theorem State.issue_commit (s : State) {o : Order} (h : o.commit = true) : s.issue o = { s.toMembers 6 [o.step] with
    red := { s.red with
      ledger := if s.red.stopping then 0 else 1, stopping := false, step := o.step + 1, attempt := 0, repeatsRow := 0
      reported := [], confirmed := [], tagsChecked := [], ovfBlocks := [], openedAt := s.now, deciding := none
      lateSince := [] } } := by
  have hv := s.toMembers_fabOnly 6 [o.step]
  unfold State.issue
  rw [if_pos h]
  generalize s.toMembers 6 [o.step] = v at hv ⊢
  rw [← hv.red, ← hv.now]
  rfl

theorem State.issue_repeat (s : State) {o : Order} (h : o.commit = false) (ha : s.red.leadAbove = none) :
    s.issue o = State.raise { s.toMembers 7 (orderNums o) with
      red := { s.red with
        ledger := 1, step := o.step, attempt := o.attempt, repeatsRow := s.red.repeatsRow + 1
        reported := [], confirmed := [], tagsChecked := [], ovfBlocks := [], openedAt := s.now, deciding := none
        lateSince := [] } } { code := 0x15, payload := [o.step, o.attempt, o.cause] } := by
  have hv := s.toMembers_fabOnly 7 (orderNums o)
  unfold State.issue
  rw [if_neg (by simp [h])]
  generalize s.toMembers 7 (orderNums o) = v at hv ⊢
  rw [← hv.red] at ha ⊢
  rw [← hv.now]
  exact if_pos (by
    have : (v.openLedger 1 o.step o.attempt (v.red.repeatsRow + 1)).red.leadAbove = none := ha
    simp only [this, Option.isNone_none])

theorem MemOnly.ledgerOpen {s t : State} (h : MemOnly s t) (step attempt : Nat) :
    t.ledgerOpen step attempt = s.ledgerOpen step attempt := by simp only [State.ledgerOpen, h.red]

theorem MemOnly.treeAt {s t : State} (h : MemOnly s t) (k : Nat) : t.treeAt k = s.treeAt k := by
  simp only [State.treeAt, h.red]

/-! ### The top lead -/

section
variable {s : State} (hl : s.red.lead = true) (ho : s.red.ledger = 1) (ha : s.red.leadAbove = none) (hb : s.red.standbyDev = none)
include hl ho ha hb

omit hb ha in
theorem State.ledgerOpen_of_open : s.ledgerOpen s.red.step s.red.attempt = true := by simp [State.ledgerOpen, hl, ho]

omit hl ho in
/-- A cause that the ledger may still repeat for has the order issued. -/
theorem State.causeAt_repeats (hopen : s.red.ledger = 1) (cause : Nat) (hr : s.red.repeatsRow < s.red.repeatLimit) (h255 : s.red.attempt < 255) :
    let o : Order := { commit := false, step := s.red.step, attempt := s.red.attempt + 1, cause, patches := s.red.patches }
    s.causeAt cause = State.issue (s.onRed fun r => { r with ledger := 4, deciding := some o, cause := cause }) o := by
  intro o
  unfold State.causeAt
  rw [if_neg (by simp [hopen]), if_neg (by simp [ha]), if_neg (by simp; omega)]
  simp only [State.leadDecide, State.onRed, hb]
  rfl

omit hl hb in
theorem State.causeAt_fails (cause : Nat) (h : s.red.repeatLimit ≤ s.red.repeatsRow ∨ 255 ≤ s.red.attempt) :
    s.causeAt cause = s.failLedger cause := by
  unfold State.causeAt
  rw [if_neg (by simp [ho]), if_neg (by simp [ha]), if_pos (by simp; omega)]

omit hl ho hb in
theorem State.passUp_complete (n : Nat) : s.passUp (.complete n) = s := by
  unfold State.passUp State.tellAbove
  simp only [ha, ite_self]

omit hb in
/-- What a lead does of a complete report of the attempt in progress: a child's credit goes back, and the report is booked. -/
theorem State.reportAct_eq (src n : Nat) (other : State) :
    let child := (s.treeAt 0).2.contains src && !s.red.subLeads.contains src
    let w := if !child then s else if s.red.lead then s.send (.credit src 0 true) else other
    (if w.ledgerOpen s.red.step s.red.attempt then ((w.book src (.complete n)).passUp (.complete n)).checkCommit else w) =
      State.checkCommit { s with
        red := { s.red with reported := Tbl.set 0 s.red.reported src n }
        sent := s.sent ++ if child then [.credit src 0 true] else [] } := by
  intro child w
  have hw : w = { s with sent := s.sent ++ if child then [.credit src 0 true] else [] } := by
    unfold w
    cases child
    · simp
    · simp only [Bool.not_true, Bool.false_eq_true, if_false, hl, if_true]
      rfl
  have hwr : w.red = s.red := by rw [hw]
  rw [if_pos (by simp [State.ledgerOpen, hwr, hl, ho]), State.passUp_complete (s := w.book src (.complete n)) ((congrArg Red.leadAbove hwr).trans ha)]
  unfold State.book
  rw [hw]
  rfl

omit hl ho ha hb in
theorem State.checkCommit_of_missing (h : s.red.allReported = false) : s.checkCommit = s := by
  unfold State.checkCommit
  simp [h]

omit hl hb in
/-- With no tag to check, the commit is decided once every member has reported. -/
theorem State.checkCommit_of_all (h : s.red.allReported = true) (ht : s.red.tagCount = 0) :
    s.checkCommit = s.leadDecide { commit := true, step := s.red.step } := by
  unfold State.checkCommit
  simp [h, ho, ha, ht]

omit hl ho ha in
theorem State.leadDecide_commit {o : Order} (h : o.commit = true) :
    s.leadDecide o = (s.onRed fun r => { r with ledger := 3, deciding := some o }).issue o := by
  unfold State.leadDecide
  simp only [State.onRed, hb, h, if_true]
end

theorem execLedgerReport_complete {s : State} (hl : s.red.lead = true) (ho : s.red.ledger = 1) (ha : s.red.leadAbove = none)
    {p : Pkt} (n : Nat) (hr : s.refuses p.src = false) (ht : s.Takes (ledPkt p 2 [p.src, s.red.step, s.red.attempt, n])) :
    let u := s.heard (ledPkt p 2 [p.src, s.red.step, s.red.attempt, n])
    exec (.ledgerReport p s.red.step s.red.attempt (.complete n)) s = .next (State.checkCommit { u with
      red := { s.red with reported := Tbl.set 0 s.red.reported p.src n }
      sent := u.sent ++ if (s.treeAt 0).2.contains p.src && !s.red.subLeads.contains p.src then [.credit p.src 0 true] else [] }) := by
  have hu := ht.heard_memOnly rfl
  rw [exec_ledgerReport]
  unfold execLedgerReport
  simp only [reportNums, List.cons_append, List.nil_append]
  rw [ledgerRow_takes hr ht]
  generalize s.heard _ = u at hu
  rw [← hu.red] at hl ho ha ⊢
  rw [← hu.treeAt]
  exact congrArg Host.Outcome.next (State.reportAct_eq hl ho ha p.src n _)

/-- Settles O22: what the top lead's ledger does of a report, of a cause of repeat, and of its limits. -/
theorem ledger : Obligations.Ledger := by
  intro s hl ho ha hb
  refine ⟨fun p n hr => ?_, fun p cause hr => ?_, fun p tag hr => ?_, fun hh => ?_, fun x hx h0 hlate htop => ?_⟩
  · intro q child r u ht
    have hu := ht.heard_memOnly rfl
    have hx : exec (.ledgerReport p s.red.step s.red.attempt (.complete n)) s = .next (State.checkCommit u) := by
      exact execLedgerReport_complete hl ho ha n hr ht
    have hnow : u.now = s.now := hu.now
    have hru : r = u.red := rfl
    have htags : s.red.tagCount = u.red.tagCount := rfl
    have hor : u.red.ledger = 1 := ho
    have har : u.red.leadAbove = none := ha
    have hbr : u.red.standbyDev = none := hb
    have hstop : s.red.stopping = u.red.stopping := rfl
    have hstep : s.red.step = u.red.step := rfl
    have hmem : s.red.members = u.red.members := rfl
    rw [htags, hstop, hmem, ← hnow]
    rw [hstep] at hx ⊢
    clear_value r u
    subst hru
    refine ⟨fun hm => hx.trans (congrArg _ (State.checkCommit_of_missing hm)), fun hall htag => ⟨_, hx, ?_⟩⟩
    rw [State.checkCommit_of_all hor har hall htag, State.leadDecide_commit hbr rfl, State.issue_commit _ rfl]
    rfl
  · intro q u ht
    have hu : MemOnly s u := ht.heard_memOnly rfl
    have hx : exec (.ledgerRepeatRequest p s.red.step s.red.attempt cause) s = .next (u.causeAt cause) := by
      rw [exec_ledgerRepeatRequest, execLedgerRepeatRequest, ledgerRow_takes (kind := 1) hr ht]
      exact congrArg Host.Outcome.next (if_pos ((hu.ledgerOpen ..).trans (State.ledgerOpen_of_open hl ho)))
    have hnow := hu.now
    have hred := hu.red
    clear_value u
    refine ⟨fun hlim h255 => ⟨_, hx, ?_⟩, fun h => hx.trans (congrArg _ ?_)⟩
    · rw [← hred] at hl ho ha hb hlim h255 ⊢
      rw [← hnow]
      rw [State.causeAt_repeats ha hb ho cause hlim h255]
      exact State.issue_repeat _ rfl ha
    · exact State.causeAt_fails (by rwa [hred]) (by rwa [hred]) cause (by rwa [hred])
  · intro q ht
    have hu := ht.heard_memOnly rfl
    rw [exec_resultBad, execResultBad, ledgerRow_takes (kind := 13) hr ht]
    exact congrArg Host.Outcome.next (if_pos ((hu.ledgerOpen ..).trans (State.ledgerOpen_of_open hl ho)))
  · rw [exec_hardLimitExpiry, execHardLimitExpiry, if_pos]
    simp [hl, ho]
    omega
  · rw [exec_beatTimeout, execBeatTimeout, if_pos, State.late, if_pos hl]
    simp only [htop, Option.isNone_none, Bool.and_true, List.any_eq_true]
    exact ⟨x, hx, by simp [h0]; omega⟩

end Sys2Proof.Machine
end

section
/-! Beats, heartbeats, and the standby that takes the lead (R351, R362, R371, R372). -/

namespace Sys2Proof.Machine

/-! ### Beats -/

theorem foldl_add_map {α : Type} (f : α → Nat × Nat) (g : Nat × Nat → Nat) (l : List α) (n : Nat) :
    (l.map f).foldl (fun a b => a + g b) n = (l.map fun c => g (f c)).foldl (· + ·) n := by
  rw [List.foldl_map, List.foldl_map]

theorem beatTimer_spec {s : State} {p : Nat} {cs : List Nat} (ht : s.treeAt 0 = (some p, cs)) (hf : s.ctlFree 0 = true)
    (hw : ∀ w ∈ s.red.ctlWait, w.1 ≠ 0) :
    let live := (cs.map fun c => (s.beatOf c).1).foldl (· + ·) (b2n (s.hal.job = 2))
    let size := (cs.map fun c => (s.beatOf c).2).foldl (· + ·) 1
    let w := s.watchBeats
    exec .beatTimer s = .next (State.say { w with red := { w.red with ctlUsed := Tbl.upd 0 s.red.ctlUsed 0 (· + 1) } } p 0x41 4
      (.ledger [s.fab.device, live, size]) [] false) := by
  intro live size w
  have hno : (s.red.ctlWait.any fun w => w.1 == 0) = false := List.any_eq_false.2 fun w hm => by simpa using hw w hm
  have hup : ∀ m, State.sayUp w 0 0x41 4 m false =
      State.say { w with red := { w.red with ctlUsed := Tbl.upd 0 s.red.ctlUsed 0 (· + 1) } } p 0x41 4 m [] false := by
    intro m
    have h1 : (w.treeAt 0).1 = some p := congrArg Prod.fst ht
    unfold State.sayUp
    simp only [h1]
    exact if_pos (by rw [Bool.and_eq_true]; exact ⟨hf, by rw [Bool.not_eq_true']; exact hno⟩)
  rw [exec_beatTimer, ← hup]
  unfold execBeatTimer
  have h2 : (w.treeAt 0).2 = cs := congrArg Prod.snd ht
  have hl : (cs.map w.beatOf).foldl (fun a b => a + b.1) (b2n (w.hal.job = 2)) = live := foldl_add_map w.beatOf (·.1) cs _
  have hs : (cs.map w.beatOf).foldl (fun a b => a + b.2) 1 = size := foldl_add_map w.beatOf (·.2) cs _
  rw [← hl, ← hs, ← h2]
  rfl

/-- A child whose subtree is all live is not late. -/
theorem State.watchBeats_live {s : State} {c : Nat} (h : (s.beatOf c).2 ≤ (s.beatOf c).1) :
    Tbl.get 0 s.watchBeats.red.lateSince c = 0 := by
  have key : ∀ (l : List Nat) (t : Tbl Nat), Tbl.get 0 t c = 0 → Tbl.get 0 (l.foldl (fun (t : Tbl Nat) c =>
      let since := Tbl.get 0 s.red.lateSince c
      Tbl.set 0 t c (if (s.beatOf c).2 ≤ (s.beatOf c).1 then 0 else if since = 0 then s.now + 1 else since)) t) c = 0 := by
    intro l
    induction l with
    | nil => exact fun t ht => ht
    | cons d l ih =>
      intro t ht
      refine ih _ ?_
      rw [Tbl.get_set]
      split
      · next hd => rw [← hd, if_pos h]
      · exact ht
  exact key _ [] rfl

/-- A child's beat is kept with its time (R362). -/
def State.beat (s : State) (c live size : Nat) : State :=
  (s.onRed fun r => { r with beats := Tbl.set (0, 1, 0) r.beats c (live, size, s.now) }).watchBeats

theorem State.beat_live (s : State) {c live size : Nat} (h : size ≤ live) :
    Tbl.get 0 (s.beat c live size).red.lateSince c = 0 := by
  refine State.watchBeats_live ?_
  have hb : Tbl.get (0, 1, 0) (s.onRed fun r => { r with beats := Tbl.set (0, 1, 0) r.beats c (live, size, s.now) }).red.beats c =
      (live, size, s.now) := Tbl.get_set_self ..
  unfold State.beatOf
  rw [hb]
  have : s.now - s.now ≤ 1000000 * s.red.beatTimeout := by omega
  exact le_of_le_of_eq h (if_pos this).symm

/-! ### The standby takes the lead -/

/-- From `s` to `t` who leads is the same, as this device sees it. -/
def LeadKept (s t : State) : Prop :=
  t.red.lead = s.red.lead ∧ t.red.leadDev = s.red.leadDev ∧ t.red.standby = s.red.standby ∧ t.red.oldLeads = s.red.oldLeads

theorem LeadKept.refl (s : State) : LeadKept s s := ⟨rfl, rfl, rfl, rfl⟩

theorem LeadKept.trans {s t u : State} (hst : LeadKept s t) (htu : LeadKept t u) : LeadKept s u :=
  ⟨htu.1.trans hst.1, htu.2.1.trans hst.2.1, htu.2.2.1.trans hst.2.2.1, htu.2.2.2.trans hst.2.2.2⟩

theorem LeadKept.of_red {s t : State} (h : t.red = s.red) : LeadKept s t := by rw [LeadKept, h]; exact ⟨rfl, rfl, rfl, rfl⟩

theorem FabOnly.leadKept {s t : State} (h : FabOnly s t) : LeadKept s t := .of_red h.red

theorem State.raise_leadKept (s : State) (ev : Event) : LeadKept s (s.raise ev) := .of_red (by rw [s.raise_halterOnly ev])

theorem State.toMembers_leadKept (s : State) (kind : Nat) (args : List Nat) : LeadKept s (s.toMembers kind args) :=
  (s.toMembers_fabOnly kind args).leadKept

theorem State.openLedger_leadKept (s : State) (st step attempt repeats : Nat) : LeadKept s (s.openLedger st step attempt repeats) :=
  ⟨rfl, rfl, rfl, rfl⟩

theorem State.issue_leadKept (s : State) (o : Order) : LeadKept s (s.issue o) := by
  unfold State.issue
  split
  · exact (s.toMembers_leadKept ..).trans ⟨rfl, rfl, rfl, rfl⟩
  · dsimp only
    split
    · exact ((s.toMembers_leadKept ..).trans (State.openLedger_leadKept ..)).trans (State.raise_leadKept ..)
    · exact (s.toMembers_leadKept ..).trans (State.openLedger_leadKept ..)

theorem State.failLedger_leadKept (s : State) (cause : Nat) : LeadKept s (s.failLedger cause) := by
  unfold State.failLedger
  extract_lets a b c
  have ha : LeadKept s a := ⟨rfl, rfl, rfl, rfl⟩
  have hb : LeadKept a b := .of_red (by unfold b; rw [State.report_eq])
  exact ((ha.trans hb).trans (State.raise_leadKept ..)).trans (State.toMembers_leadKept ..)

theorem State.leadDecide_leadKept (s : State) (o : Order) : LeadKept s (s.leadDecide o) := by
  unfold State.leadDecide
  extract_lets a
  have ha : LeadKept s a := ⟨rfl, rfl, rfl, rfl⟩
  split
  · exact ha.trans (State.say_fabOnly ..).leadKept
  · exact ha.trans (State.issue_leadKept ..)

theorem State.causeAt_leadKept (s : State) (cause : Nat) : LeadKept s (s.causeAt cause) := by
  unfold State.causeAt
  split_ifs
  · exact .refl s
  · unfold State.tellAbove
    split
    · exact (State.say_fabOnly ..).leadKept
    · exact .refl s
  · exact State.failLedger_leadKept ..
  · exact State.leadDecide_leadKept ..

/-- The state of a standby that has taken the lead, before it announces this. -/
def State.leading (s : State) : State :=
  s.onRed fun r => { r with lead := true, standby := false, standbyDev := none, leadDev := s.fab.device
                            oldLeads := r.oldLeads.filter (· ≠ s.fab.device) ++ [s.red.leadDev], silent := false }

theorem State.takeover_leadKept (s : State) : LeadKept s.leading s.takeover := by
  unfold State.takeover
  extract_lets old me a b c d e
  have hb : LeadKept s.leading b :=
    (foldl_related FabOnly.refl FabOnly.trans (fun s d => s.say_fabOnly d ..) _ a).leadKept
  have hc : LeadKept b c := by
    unfold c
    split
    · exact (State.say_fabOnly ..).leadKept
    · exact .refl b
  have he : LeadKept s.leading e :=
    ((hb.trans hc).trans (State.raise_leadKept ..)).trans (State.openLedger_leadKept ..)
  clear_value e
  split
  · extract_lets mine f
    split
    · exact he.trans (.trans (t := e.onRed _) ⟨rfl, rfl, rfl, rfl⟩ (State.issue_leadKept ..))
    · exact (he.trans (State.toMembers_leadKept ..)).trans (State.causeAt_leadKept ..)
  · exact he.trans (State.causeAt_leadKept ..)

/-- Settles O23: beats, the decision that a standby holds, its heartbeats, and who leads after it. -/
theorem beatsAndStandby : Obligations.BeatsAndStandby := by
  refine ⟨⟨fun s p cs ht hf hw => beatTimer_spec ht hf hw, fun p live size s => ?_⟩, fun s p => ⟨?_, ?_, ?_, ?_, ?_, ?_, ?_⟩⟩
  · intro q u ht
    have hu : MemOnly s u := ht.heard_memOnly rfl
    have hx : exec (.ledgerBeat p live size) s = .next ((u.beat p.src live size).send (.credit p.src 0 true)) := by
      rw [exec_ledgerBeat, execLedgerBeat]
      exact msgRow_takes id _ ht
    have hred := hu.red
    have hnow := hu.now
    clear_value u
    refine ⟨_, hx, rfl, ?_, fun j hj => ?_, fun hlive => ?_⟩
    · rw [← hnow]
      exact Tbl.get_set_self ..
    · rw [← hred]
      exact Tbl.get_set_ne hj ..
    · exact u.beat_live hlive
  · intro o q u hst hr ht
    have hu : MemOnly s u := ht.heard_memOnly rfl
    rw [exec_standbyDecision, execStandbyDecision, ledgerRow_takes hr ht]
    refine congrArg Host.Outcome.next (if_neg ?_)
    rw [hu.red, hst]
    decide
  · intro o q hd hb hr ht
    have hu := ht.heard_memOnly rfl
    rw [exec_standbyAck, execStandbyAck, ledgerRow_takes hr ht]
    refine congrArg Host.Outcome.next (if_pos ?_)
    have hred : (s.heard (ledPkt p 10 (orderNums o))).red = s.red := hu.red
    simp [hred, hd, hb]
  · intro b hb hl
    rw [exec_heartbeatTimer, execHeartbeatTimer]
    simp only [hb, hl, if_true]
  · intro q u hst hsrc hr ht
    have hu : MemOnly s u := ht.heard_memOnly rfl
    refine ⟨_, ?_, rfl⟩
    rw [exec_heartbeat, execHeartbeat, ledgerRow_takes hr ht]
    refine congrArg Host.Outcome.next ((if_pos ?_).trans ?_)
    · rw [hu.red]
      simp [hst, hsrc]
    · rw [← hu.red, ← hu.now]
      rfl
  · intro hst hlast hassist
    have hk := s.takeover_leadKept
    refine ⟨?_, hk.1, hk.2.1, hk.2.2.1, ?_⟩
    · rw [exec_standbyTakeover, execStandbyTakeover, if_neg, if_pos]
      · simp [hassist]
      · simp [hst, hlast]
    · rw [hk.2.2.2]
      exact List.mem_append_right _ (List.mem_singleton.2 rfl)
  · intro old q u hold hdev hr ht
    have hu : MemOnly s u := ht.heard_memOnly rfl
    have hx : exec (.leadAnnounce p old) s = _ := (exec_leadAnnounce ..).trans (ledgerRow_takes hr ht)
    have hdu : u.fab.device ≠ old := hu.device ▸ hdev
    have hl : old = u.red.leadDev := by rw [hu.red, hold]
    refine ⟨_, hx, if_pos hl.symm, List.mem_append_right _ (List.mem_singleton.2 rfl), ?_, rfl⟩
    rw [← hu.red]
    exact (congrArg (u.red.lead && ·) (decide_eq_true hdu)).trans (Bool.and_true _)
  · intro step q hr ht
    have hu := ht.heard_memOnly rfl
    rw [exec_commit, execCommit]
    refine (msgRow_takes id _ ht).trans (congrArg Host.Outcome.next (if_pos ?_))
    exact (hu.refuses _).trans hr

end Sys2Proof.Machine
end

section
/-! Issue of the fabric's command records (R455, R456, R482). -/

namespace Sys2Proof.Machine

/-- The rows of the fabric records, with their opcodes (R454, R479). -/
def fabricRows : List (Nat × (TileIx → BitVec 22 → Instr)) :=
  [(0x61, .stream), (0x62, .copy), (0x63, .ctrWait), (0x64, .fence), (0x65, .remote)]

theorem exec_fabricRow {r : Nat × (TileIx → BitVec 22 → Instr)} (hr : r ∈ fabricRows) (k : TileIx) (a : BitVec 22) (s : State) :
    exec (r.2 k a) s = issueRow k.val a.toNat r.1 s := by
  simp only [fabricRows, List.mem_cons, List.not_mem_nil, or_false] at hr
  obtain rfl | rfl | rfl | rfl | rfl := hr <;> rfl

theorem opcode_mem_fabric {r : Nat × (TileIx → BitVec 22 → Instr)} (hr : r ∈ fabricRows) :
    r.1 ∈ [0x61, 0x62, 0x63, 0x64, 0x65] :=
  List.mem_map_of_mem (f := Prod.fst) hr

section
variable {s : State} {t op a : Nat}

theorem State.issueAny_fabric {o : Nat} (ho : s.opAt t op a = o) (hmem : o ∈ [0x61, 0x62, 0x63, 0x64, 0x65]) :
    s.issueAny t op a = s.issueFab t o a := by
  rw [State.issueAny_eq, ho]
  simp only [List.mem_cons, List.not_mem_nil, or_false] at hmem
  obtain rfl | rfl | rfl | rfl | rfl := hmem <;> rfl

/-- Why a fabric record breaks its rules (R454, R479); 0 where it does not. -/
def State.fabricCheck (s : State) (t op : Nat) (r : Bytes) : Nat := if op = 0x61 then s.streamCheck t r else fabCheck r

/-- The entry that a fabric record becomes. -/
def State.fabEntry (s : State) (t op a : Nat) (r : Bytes) : FabCmd :=
  { id := (s.tile t).nextId, op := op, main := r, addr := a, since := s.now
    due := if op = 0x61 then s.now + 1000 * recBits r 63 32 else 0
    mark := if op = 0x64 then s.fab.nextReq else 0
    old := if op = 0x64 then s.fenceOld t (bit (field r 0 4) 17) else [] }

theorem State.issueFab_full (h : s.fabFull t op = true) :
    s.issueFab t op a = s.onTile t fun x => { x with seq := .stall op a, since := s.now } := if_pos h

theorem State.issueFab_unreadable (h : s.fabFull t op = false) (hf : s.recFault t a ≠ 0) :
    s.issueFab t op a = s.fault t (s.recFault t a) a op := by
  rw [State.issueFab, if_neg (by simp [h]), if_pos hf]

theorem State.issueFab_bad (h : s.fabFull t op = false) (hf : s.recFault t a = 0)
    (hc : s.fabricCheck t op ((s.tile t).get a 64) ≠ 0) :
    s.issueFab t op a = s.fault t (s.fabricCheck t op ((s.tile t).get a 64)) a op := by
  rw [State.issueFab, if_neg (by simp [h]), if_neg (not_not.2 hf)]
  exact if_pos hc

theorem State.issueFab_enters (h : s.fabFull t op = false) (hf : s.recFault t a = 0)
    (hc : s.fabricCheck t op ((s.tile t).get a 64) = 0) :
    s.issueFab t op a = s.onTile t fun x =>
      { x with fabq := x.fabq ++ [s.fabEntry t op a ((s.tile t).get a 64)], nextId := x.nextId + 1 } := by
  rw [State.issueFab, if_neg (by simp [h]), if_neg (not_not.2 hf)]
  exact if_neg (not_not.2 hc)

end

/-- Settles O27: the outcomes of `State.issueFab`. -/
theorem fabricIssue : Obligations.FabricIssue := by
  intro r hr k a s hi x b check
  have hx : exec (r.2 k a) s = .next (s.issueAny k.val r.1 a.toNat) := by
    rw [exec_fabricRow hr, issueRow_of_mayIssue hi]
  have hread (h : s.recFault k.val a.toNat = 0) (hop : field b 0 1 = r.1) :=
    State.issueAny_fabric (op := r.1) ((State.opAt_of_readable h).trans hop) (opcode_mem_fabric hr)
  have hfault (h : s.recFault k.val a.toNat ≠ 0) :=
    State.issueAny_fabric (op := r.1) (State.opAt_of_fault h) (opcode_mem_fabric hr)
  refine ⟨fun hf hop hroom hc => ?_, fun hf hop hfull => ?_, fun hf hop hroom hc => ?_, fun hf hroom => ?_⟩
  · refine ⟨_, hx.trans (congrArg _ ((hread hf hop).trans (State.issueFab_enters hroom hf hc))), TileOnly.refl.onTile _, _,
      State.tile_onTile_self .., rfl, rfl, rfl, rfl, rfl, rfl, fun h => if_pos h, fun h => ⟨if_pos h, if_pos h⟩⟩
  · rw [hx, hread hf hop, State.issueFab_full hfull]
  · exact hx.trans (congrArg _ ((hread hf hop).trans (State.issueFab_bad hroom hf hc)))
  · rw [hx, hfault hf, State.issueFab_unreadable hroom hf]

end Sys2Proof.Machine
end

section
/-! Fabric commands start and complete (R457, R480 to R482, R510 to R516). -/

namespace Sys2Proof.Machine

/-! ### The start of a command -/

theorem tile_onFabCmd (s : State) (k id : Nat) (f : FabCmd → FabCmd) :
    (s.onFabCmd k id f).tile k = { s.tile k with fabq := (s.tile k).fabq.map fun c => if c.id = id then f c else c } :=
  State.tile_onTile_self ..

section
variable {s : State} {k : TileIx} {c : FabCmd} (hn : nextFab (s.tile k.val).fabq = some c)
include hn

/-- A command that may start is marked as running, and begins. -/
theorem execFabricCmdStart_runs (h1 : (c.op = 0x61 ∨ c.op = 0x62) → s.holdsShare 0x21 = true) (h2 : c.op = 0x62 → s.copying < s.enginesIn)
    (h3 : c.op = 0x61 → s.streamHeld c = false)
    (hr : c.op = 0x65 ∧ 1 ≤ recBits c.main 10 8 ∧ recBits c.main 10 8 ≤ 5 →
      (s.tile k.val).marked (recBits c.main 277 256) (remoteBytes c.main) = false) :
    let s1 := s.onFabCmd k.val c.id fun c => { c with st := 1 }
    exec (.fabricCmdStart k .clean) s =
      if c.op = 0x61 then .next (s1.startStream k.val c) else if c.op = 0x62 then .next (s1.startCopy k.val c)
      else if c.op = 0x63 then .next (s1.onFabCmd k.val c.id fun c =>
        { c with due := if recBits c.main 383 352 = 0 then 0 else s1.now + 1000 * recBits c.main 383 352 })
      else if c.op = 0x65 then .next (s1.startRemote k.val c) else .next s1 := by
  intro s1
  rw [exec_fabricCmdStart, execFabricCmdStart]
  simp only [hn]
  rw [if_neg, if_neg]
  · simp only [State.sramRead, ite_self, Bool.false_eq_true, if_false]
    split
    · next h => exact (if_pos h).symm
    · next h => exact ((if_neg (by omega)).trans (if_pos h)).symm
    · next h => exact ((if_neg (by omega)).trans ((if_neg (by omega)).trans (if_pos h))).symm
    · next h => exact ((if_neg (by omega)).trans ((if_neg (by omega)).trans ((if_neg (by omega)).trans (if_pos h)))).symm
    · next h1 h2 h3 h4 => rw [if_neg h1, if_neg h2, if_neg h3, if_neg h4]
  · rw [Bool.and_eq_true, not_and, Bool.not_eq_true, tile_onFabCmd]
    intro h
    simp only [Bool.and_eq_true, decide_eq_true_eq, and_assoc] at h
    exact hr h
  · simp only [Bool.or_eq_true, Bool.and_eq_true, decide_eq_true_eq, Bool.not_eq_true']
    rintro ((⟨h, hs⟩ | ⟨h, he⟩) | ⟨h, hh⟩)
    · exact absurd (h1 h) (by simp [hs])
    · exact absurd (h2 h) (by omega)
    · exact absurd (h3 h) (by simp [hh])

end

/-! ### Two entries of one number -/

/-- A CTR_WAIT without a time limit. -/
def waitUnlimited : FabCmd := { id := 0, op := 0x63, main := [], addr := 0 }

/-- A CTR_WAIT with the same number and a limit of 1 us. -/
def waitLimited : FabCmd := { id := 0, op := 0x63, main := List.replicate 44 0 ++ [1], addr := 0 }

/-- A queue with both. -/
def twoWaits : State := State.reset.onTile 0 fun x => { x with fabq := [waitUnlimited, waitLimited] }

theorem twoWaits_fabq : (twoWaits.tile 0).fabq = [waitUnlimited, waitLimited] := by
  rw [twoWaits, State.tile_onTile_self]

/-- Refutes O28: `State.onFabCmd` changes every entry with the command's number, each by its own record, and nothing keeps two
entries from one number: where a CTR_WAIT without a limit stands before one of the same number with a limit, the second gets
its own time, and not the first one's. -/
theorem not_fabricRuns : ¬ Obligations.FabricRuns := by
  intro h
  obtain ⟨-, -, -, -, hwait, -⟩ := h.1 0 twoWaits waitUnlimited (congrArg nextFab twoWaits_fabq)
  obtain ⟨t, ht, -, htile⟩ := hwait rfl
  have hop : waitUnlimited.op = 0x63 := rfl
  have hx := (execFabricCmdStart_runs (k := 0) (congrArg nextFab twoWaits_fabq) (by omega) (by omega) (by omega) (by omega)).trans
    ((if_neg (by omega)).trans ((if_neg (by omega)).trans (if_pos hop)))
  obtain rfl := Host.Outcome.next.inj (hx.symm.trans ht)
  have hlim : recBits waitLimited.main 383 352 = 1 := by decide +kernel
  have hun : recBits waitUnlimited.main 383 352 = 0 := by decide +kernel
  have hid : waitLimited.id = waitUnlimited.id := rfl
  have hfab : (twoWaits.tile (0 : TileIx).val).fabq = [waitUnlimited, waitLimited] := twoWaits_fabq
  have hq := congrArg (fun x : Tile => x.fabq.map (·.due)) htile
  simp only [tile_onFabCmd, hfab, List.map_cons, List.map_nil, hid, if_true, hlim, hun] at hq
  simp at hq

end Sys2Proof.Machine
end

section
/-! How a stream ends (R458 to R462). -/

namespace Sys2Proof.Machine

/-! ### A stream's status record -/

/-- A read within what has just been written. -/
theorem Tile.get_put_slice (x : Tile) (o : Nat) (b : Bytes) (pois : Bool) {a n : Nat} (h : a + n ≤ b.length) :
    (x.put o b pois).get (o + a) n = (b.drop a).take n := by
  unfold Tile.get Tile.put
  dsimp only
  rw [Tbl.getList_eq]
  refine List.ext_getElem (by simp; omega) fun i h1 h2 => ?_
  simp only [List.length_map, List.length_range] at h1
  rw [List.getElem_map, List.getElem_range, Tbl.get_setList, if_pos (by omega), List.getElem_take, List.getElem_drop,
    List.getD_eq_getElem _ _ (by omega)]
  congr 1
  omega

theorem tile_dropFab (s : State) (k id : Nat) : (s.dropFab k id).tile k = { s.tile k with fabq := (s.tile k).fabq.filter (·.id ≠ id) } :=
  State.tile_onTile_self ..

/-- The status record of a stream (R458). -/
def streamRecord (outcome err late now : Nat) : Bytes :=
  [BitVec.ofNat 8 outcome, BitVec.ofNat 8 err, 0, 0] ++ toBytes 4 late ++ toBytes 8 now

theorem length_streamRecord (outcome err late now : Nat) : (streamRecord outcome err late now).length = 16 := by
  simp [streamRecord]

/-- What a stream's outcome counts (R462). -/
def Tier.counts (outcome : Nat) (x : Tier) : Tier :=
  match outcome with
  | 2 => { x with waited := satAdd 16 x.waited 1 }
  | 3 => { x with stale := satAdd 16 x.stale 1 }
  | 4 => { x with recompute := satAdd 16 x.recompute 1 }
  | 5 => { x with failed := satAdd 16 x.failed 1 }
  | _ => x

/-- The state with a stream's record written, its entry dropped and its outcome counted. -/
def State.streamRecorded (s : State) (k : Nat) (c : FabCmd) (outcome err late : Nat) : State :=
  ((s.onTile k fun x => x.put (recBits c.main 341 320) (streamRecord outcome err late s.now) false).dropFab k c.id).onTier
    (Tier.counts outcome)

theorem State.tile_onTier (s : State) (f : Tier → Tier) (k : Nat) : (s.onTier f).tile k = s.tile k := rfl

theorem State.tile_streamRecorded (s : State) (k : Nat) (c : FabCmd) (outcome err late : Nat) :
    (s.streamRecorded k c outcome err late).tile k =
      { (s.tile k).put (recBits c.main 341 320) (streamRecord outcome err late s.now) false with
        fabq := (s.tile k).fabq.filter (·.id ≠ c.id) } := by
  unfold State.streamRecorded
  rw [State.tile_onTier, tile_dropFab, State.tile_onTile_self]
  rfl

theorem State.tile_streamRecorded_ne (s : State) {k j : Nat} (hj : j ≠ k) (c : FabCmd) (outcome err late : Nat) :
    (s.streamRecorded k c outcome err late).tile j = s.tile j := by
  unfold State.streamRecorded
  rw [State.tile_onTier, State.dropFab, State.tile_onTile_ne _ hj, State.tile_onTile_ne _ hj]

theorem State.streamRecorded_rest (s : State) (k : Nat) (c : FabCmd) (outcome err late : Nat) :
    s.streamRecorded k c outcome err late =
      { s with tiles := (s.streamRecorded k c outcome err late).tiles, tier := s.tier.counts outcome } := by
  have h : TileOnly s ((s.onTile k fun x =>
      x.put (recBits c.main 341 320) (streamRecord outcome err late s.now) false).dropFab k c.id) k := TileOnly.refl.onTile _ |>.onTile _
  unfold State.streamRecorded
  generalize State.dropFab _ k c.id = u at h
  rw [h.rest]
  rfl

/-- Where no poison is noted, a stream's end is its record and its post; a failed one raises an event too. -/
theorem State.finishStream_eq (s : State) (k : Nat) {c : FabCmd} (h : c.spoiled = false) (outcome err late : Nat) :
    let v := if outcome = 4 || outcome = 5 then s.voidStream c else s
    let w := v.streamRecorded k c outcome err late
    s.finishStream k c outcome err late =
      (if outcome = 5 then w.raise { code := 0x24, payload := [recBits c.main 127 64, err] } else w).postIf k c.main := by
  unfold State.finishStream State.spoil
  rw [h]
  rfl

theorem State.streamRecorded_ends (s : State) (k : Nat) (c : FabCmd) (outcome err late : Nat) :
    StreamEnds s ((s.streamRecorded k c outcome err late).postIf k c.main) k c outcome err late ∧
      ((s.streamRecorded k c outcome err late).postIf k c.main).tier = s.tier.counts outcome := by
  have hto : TileOnly (s.streamRecorded k c outcome err late) ((s.streamRecorded k c outcome err late).postIf k c.main) k :=
    postIf_tileOnly TileOnly.refl _
  have htile := tile_postIf (s.streamRecorded k c outcome err late) k c.main
  rw [State.tile_streamRecorded] at htile
  have hrest := s.streamRecorded_rest k c outcome err late
  have hne := fun j (hj : j ≠ k) => s.tile_streamRecorded_ne hj c outcome err late
  generalize (s.streamRecorded k c outcome err late).postIf k c.main = t at hto htile ⊢
  generalize s.streamRecorded k c outcome err late = w at hto hrest hne
  have htr := hto.rest
  rw [hrest] at htr
  have hothers : ∀ j, j ≠ k → t.tile j = s.tile j := fun j hj => (hto.others j hj).trans (hne j hj)
  have hrest' : t = { s with tiles := t.tiles, tier := t.tier } := by rw [htr]
  refine ⟨StreamEnds.mk hrest' hothers ?_ ?_ ?_, ?_⟩
  · have h := Tile.get_put_slice (s.tile k) (recBits c.main 341 320) (streamRecord outcome err late s.now) false (a := 0) (n := 16)
      (length_streamRecord ..).ge
    rw [htile]
    exact h.trans (List.take_of_length_le (length_streamRecord ..).le)
  · rw [htile]
  · rw [htile]
    rfl
  · rw [htr]

/-- A stream that ends with DATA, WAITED or STALE. -/
theorem State.finishStream_ends (s : State) (k : Nat) {c : FabCmd} (h : c.spoiled = false) {outcome : Nat} (ho : outcome < 4)
    (err late : Nat) : StreamEnds s (s.finishStream k c outcome err late) k c outcome err late ∧
      (s.finishStream k c outcome err late).tier = s.tier.counts outcome := by
  rw [s.finishStream_eq k h]
  obtain rfl | rfl | rfl | rfl : outcome = 0 ∨ outcome = 1 ∨ outcome = 2 ∨ outcome = 3 := by omega
  all_goals exact s.streamRecorded_ends k c _ err late

/-- A stream that ends with RECOMPUTE. -/
theorem State.finishStream_recompute (s : State) (k : Nat) {c : FabCmd} (h : c.spoiled = false) (err : Nat) :
    StreamEnds (s.voidStream c) (s.finishStream k c 4 err 0) k c 4 err 0 ∧
      (s.finishStream k c 4 err 0).tier = (s.voidStream c).tier.counts 4 := by
  rw [s.finishStream_eq k h]
  exact (s.voidStream c).streamRecorded_ends k c 4 err 0

/-- A stream that ends with FAILED. -/
theorem State.finishStream_failed (s : State) (k : Nat) {c : FabCmd} (h : c.spoiled = false) (err : Nat) :
    let t := s.finishStream k c 5 err 0
    (t.tile k).fabq = ((s.voidStream c).tile k).fabq.filter (·.id ≠ c.id) ∧ t.tier = (s.voidStream c).tier.counts 5 ∧
      (t.tile k).get (recBits c.main 341 320) 2 = [5, BitVec.ofNat 8 err] := by
  intro t
  have hx : t = _ := s.finishStream_eq k h 5 err 0
  rw [if_pos rfl, if_pos (by decide)] at hx
  clear_value t
  generalize s.voidStream c = v at hx ⊢
  have hw := State.raise_halterOnly (v.streamRecorded k c 5 err 0) { code := 0x24, payload := [recBits c.main 127 64, err] }
  have htile := v.tile_streamRecorded k c 5 err 0
  have hrest := v.streamRecorded_rest k c 5 err 0
  generalize v.streamRecorded k c 5 err 0 = w at hx hw htile hrest
  generalize w.raise _ = w' at hx hw
  have htile' : t.tile k = { (w.tile k) with comp := postsTo c.main (w.tile k).comp } := by
    rw [hx, tile_postIf, State.tile, hw]
    rfl
  have htier : t.tier = w'.tier := by rw [hx, (postIf_tileOnly TileOnly.refl c.main : TileOnly w' (w'.postIf k c.main) k).rest]
  refine ⟨by rw [htile', htile], by rw [htier, hw, hrest], ?_⟩
  rw [htile', htile]
  have hg := Tile.get_put_slice (v.tile k) (recBits c.main 341 320) (streamRecord 5 err 0 v.now) false (a := 0) (n := 2)
    (by simp [length_streamRecord])
  exact hg

/-! ### The fallback -/

theorem State.cancelStream_none (s : State) (k id : Nat) : ∀ r ∈ (s.cancelStream k id).fab.reqs, ∀ off, r.why ≠ .stream k id off := by
  intro r hr off hw
  obtain ⟨q, -, rfl⟩ := List.mem_map.1 hr
  split at hw
  · next a b off' hq =>
    split at hw
    · exact absurd hw (by simp)
    · next hne =>
      rw [hq] at hw
      obtain ⟨rfl, rfl, -⟩ := Purpose.stream.inj hw
      exact hne (by simp)
  · next hq => exact hq _ _ _ hw

/-- What a command that takes a stream's fallback does, by the stream's mode. -/
theorem fallsBack_of_exec {cmd : Instr} {s : State} {k : Nat} {c : FabCmd} {err : Nat} {failed : Bool} (hsp : c.spoiled = false)
    (hx : recBits c.main 10 8 = 1 ∨ recBits c.main 10 8 = 2 → exec cmd s = .next (s.fallBack k c err failed)) :
    FallsBack cmd s k c err := by
  refine ⟨s.cancelStream_none k c.id, fun hm => ?_, fun hm => ?_⟩
  · refine ⟨_, hx (.inl hm), ?_⟩
    unfold State.fallBack
    rw [hm]
    exact State.finishStream_recompute _ k hsp err
  · refine ⟨_, hx (.inr hm), ?_⟩
    unfold State.fallBack
    rw [hm]
    have h : TileOnly (s.cancelStream k c.id) ((s.cancelStream k c.id).onFabCmd k c.id fun c => { c with st := 2, status := err }) k :=
      TileOnly.refl.onTile _
    exact ⟨tile_onFabCmd .., h.rest, fun j hj => h.others j hj⟩

theorem execStreamDeadline_of_due {k : TileIx} {i : Fin 16} {s : State} {c : FabCmd} (hc : s.fabAt k.val i.val 0x61 = some c)
    (hst : c.st < 2) (hl : c.late = false) (hend : c.ended = false) (hdue : c.due ≤ s.now)
    (hs : c.st = 1 → s.serves k.val c.id = true) :
    exec (.streamDeadline k i) s = .next (s.fallBack k.val c (if c.status = 5 then 5 else 1) false) := by
  rw [exec_streamDeadline, execStreamDeadline]
  simp only [hc]
  rw [if_neg]
  simp only [hl, hend, Bool.or_false, Bool.or_eq_true, decide_eq_true_eq, Bool.and_eq_true, Bool.not_eq_true', not_or, not_and]
  exact ⟨⟨by omega, by omega⟩, fun h => by simp [hs h]⟩

/-- Settles O29: each end of a stream. -/
theorem streams : Obligations.Streams := by
  intro k i s c hc hsp mode
  refine ⟨fun hst hend hs hdue => ?_, fun hst hend hs hdue => ⟨fun hm => ?_, ?_⟩, fun hst hend => ⟨?_, fun hm => ?_⟩,
    fun hst hl hend hdue hs => ⟨?_, fun hm => ?_⟩, fun hst => ?_⟩
  · refine ⟨_, ?_, s.finishStream_ends k.val hsp (by omega) 0 0⟩
    rw [exec_streamDataDone, execStreamDataDone]
    simp [hc, hst, hend, hs, hdue]
  · refine ⟨_, ?_, s.finishStream_ends k.val hsp (outcome := 2) (by omega) 1 _⟩
    rw [exec_streamDataDone, execStreamDataDone]
    simp [hc, hst, hend, hs, Nat.not_le.2 hdue, show recBits c.main 10 8 = 0 from hm]
  · refine fallsBack_of_exec (failed := false) hsp fun hm => ?_
    rw [exec_streamDataDone, execStreamDataDone]
    have h0 : recBits c.main 10 8 ≠ 0 := by omega
    simp [hc, hst, hend, hs, Nat.not_le.2 hdue, h0]
  · refine fallsBack_of_exec (failed := true) hsp fun hm => ?_
    rw [exec_streamDataDone, execStreamDataDone]
    simp [hc, hst, hend]
  · have hx : exec (.streamDataDone k i) s = .next ((s.cancelStream k.val c.id).finishStream k.val c 5 c.status 0) := by
      rw [exec_streamDataDone, execStreamDataDone]
      simp [hc, hst, hend, State.fallBack, show recBits c.main 10 8 = 0 from hm]
    exact ⟨_, hx, State.finishStream_failed _ k.val hsp c.status⟩
  · refine fallsBack_of_exec (failed := false) hsp fun hm => ?_
    exact execStreamDeadline_of_due hc hst hl hend hdue hs
  · have hx : exec (.streamDeadline k i) s = .next (s.onFabCmd k.val c.id fun c => { c with late := true }) := by
      rw [execStreamDeadline_of_due hc hst hl hend hdue hs]
      unfold State.fallBack
      rw [show recBits c.main 10 8 = 0 from hm]
      rfl
    exact ⟨_, hx, TileOnly.refl.onTile _, tile_onFabCmd ..⟩
  · intro n dst r code
    have hx : exec (.streamStaleCopyDone k i) s = if code ≠ 0 then .next (s.fabFault k.val c.id code)
        else .next (((r.2.moveWrite dst r.1).countFab k.val n).finishStream k.val
          { c with spoiled := s.intoStore dst && r.1.any fun u => u.2.2.1 } 3 c.status 0) := by
      rw [exec_streamStaleCopyDone, execStreamStaleCopyDone]
      simp only [hc]
      exact if_neg (by simp [hst])
    exact ⟨fun h => hx.trans (if_pos h), fun h => hx.trans (if_neg (not_not.2 h))⟩

end Sys2Proof.Machine
end

section
/-! Requests at the home (R467, R473 to R476). -/

namespace Sys2Proof.Machine

/-- The packet that a row hears: of the row's operation, where R476 knows that of the packet. -/
def rowPkt (op : Nat) (q : Pkt) : Pkt := if knownOp q.op = true then { q with op := op } else q

theorem tlRow_mem_cases {busy : Bool} {errs : List UnitErr} {r : Nat × (Pkt → Instr)} (hr : r ∈ tlRows busy errs) (q : Pkt) (s : State) :
    exec (r.2 q) s = tlRow r.1 q (if r.1 = 0x20 then false else busy) (if r.1 = 1 ∨ r.1 = 2 then errs else []) s ∧ knownOp r.1 = true := by
  simp only [tlRows, List.mem_cons, List.not_mem_nil, or_false] at hr
  obtain rfl | rfl | rfl | rfl | rfl | rfl | rfl := hr <;>
    exact ⟨by simp [exec_tlRead, exec_tlWrite, exec_tlAdd, exec_tlMin, exec_tlMax, exec_tlCas, exec_tlInval,
      execTlRead, execTlWrite, execTlAdd, execTlMin, execTlMax, execTlCas, execTlInval], rfl⟩

section
variable {s : State} {q : Pkt} {op : Nat} {busy : Bool} {errs : List UnitErr}

theorem tlRow_beyond (h : s.rxBeyond (rowPkt op q).port (pktClass (rowPkt op q)) (pktLen (rowPkt op q)) (rowPkt op q).freed = true) :
    tlRow op q busy errs s = .next (s.rxDiscard (rowPkt op q).port) :=
  by
  unfold tlRow
  rw [rxPacket_eq]
  exact if_pos h

theorem tlRow_in (h : s.rxBeyond (rowPkt op q).port (pktClass (rowPkt op q)) (pktLen (rowPkt op q)) (rowPkt op q).freed = false) :
    tlRow op q busy errs s =
      if s.fab.numbered = false then .next (s.packetIn (rowPkt op q))
      else if (rowPkt op q).crcOk = false then
        .next { s.packetIn (rowPkt op q) with
          obs := { s.obs with fabRx := sat64 s.obs.fabRx 0 } }
      else if knownOp (rowPkt op q).op = false then .next ((s.packetHeard (rowPkt op q)).respond (rowPkt op q) 8)
      else if (rowPkt op q).dst ≠ s.fab.device then
        .next ((s.packetHeard (rowPkt op q)).sendPkt ((s.packetHeard (rowPkt op q)).response (rowPkt op q) 8 [] 0 0))
      else .next ((s.packetHeard (rowPkt op q)).home (rowPkt op q) busy errs).proposals := by
  unfold tlRow
  dsimp only
  rw [← rowPkt]
  generalize rowPkt op q = p at h ⊢
  rw [rxPacket_eq, h, if_neg Bool.false_ne_true]
  have hn : (s.packetIn p).fab = s.fab := rfl
  rw [hn]
  cases hnum : s.fab.numbered
  · rfl
  cases hcrc : p.crcOk
  · rfl
  simp only [Bool.not_true, Bool.false_eq_true, if_false, if_true, reduceCtorEq]
  cases hk : knownOp p.op
  · rfl
  · rfl

end

/-- What goes out to a device changes of the fabric at most what it keeps of its peers. -/
def PeersOnly (s t : State) : Prop :=
  t = { s with fab := { s.fab with peers := t.fab.peers }, ports := t.ports, txWait := t.txWait, sent := t.sent, freeIx := t.freeIx }

theorem State.sendPkt_peersOnly (s : State) (p : Pkt) : PeersOnly s (s.sendPkt p) := by
  unfold State.sendPkt
  split
  · next k _ =>
    obtain ⟨_, _, _, _, h⟩ := sendsOnly_iff.1 (State.sendOn_sendsOnly (s.onPeer p.dst fun q => { q with path := k, chosen := true })
      (field (s.pathRec p.dst k) 0 1) (pktClass p) (udpFrame (bit (field (s.pathRec p.dst k) 1 1) 1) (52 + p.data.length))
      (.pkt { p with path := k, entropy := k / 4 }))
    unfold PeersOnly
    rw [h]
    rfl
  · rfl

/-- A request of another epoch is answered EPOCH, and nothing is applied (R487). -/
theorem State.home_otherEpoch {s : State} {p : Pkt} (hs : p.src ≠ selfDev) (he : p.dstEpoch ≠ s.flash.bootEpoch)
    (ha : s.assisted 1 = false) (busy : Bool) (errs : List UnitErr) :
    (s.home p busy errs).proposals = s.sendPkt (s.response p 0xA [] 0 0) := by
  have hh : s.home p busy errs = s.sendPkt (s.response p 0xA [] 0 0) := if_pos (by simp [hs, he])
  have hp := s.sendPkt_peersOnly (s.response p 0xA [] 0 0)
  rw [hh]
  generalize s.sendPkt _ = t at hp
  unfold State.proposals
  rw [if_neg]
  rw [hp]
  exact Bool.not_eq_true _ ▸ ha

/-- Settles O30: the outcomes of a request's row. -/
theorem homeRequests : Obligations.HomeRequests := by
  intro busy errs r hr q s p s1 b e
  obtain ⟨hx, hknown⟩ := tlRow_mem_cases hr q s
  have hp : p = rowPkt r.1 q := rfl
  have hop : knownOp p.op = knownOp q.op := by
    rw [hp, rowPkt]
    split
    · next h => exact hknown.trans h.symm
    · rfl
  have hsame : p.crcOk = q.crcOk ∧ p.dst = q.dst ∧ p.src = q.src ∧ p.dstEpoch = q.dstEpoch := by
    rw [hp, rowPkt]
    split <;> exact ⟨rfl, rfl, rfl, rfl⟩
  obtain ⟨hcrc, hdst, hsrc, hepoch⟩ := hsame
  rw [hx, ← hop, ← hcrc, ← hdst, ← hsrc, ← hepoch]
  have hbeyond := tlRow_beyond (s := s) (q := q) (op := r.1) (busy := b) (errs := e)
  have hin := tlRow_in (s := s) (q := q) (op := r.1) (busy := b) (errs := e)
  rw [← hp] at hbeyond hin
  clear_value p
  refine ⟨hbeyond, fun ha hn => ?_, fun hroom hn hc => ?_, fun ha hn hk => ?_, fun ha hn hk => ⟨fun hd => ?_, fun hd => ?_, fun hd hs he has => ?_⟩⟩
  · rw [hin ha.room, if_pos hn]
  · exact ⟨_, hx.trans ((hin hroom).trans ((if_neg (by simp [hn])).trans (if_pos hc))), rfl⟩
  · rw [hin ha.room, if_neg (by simp [hn]), if_neg (by simp [ha.whole]), if_pos hk]
  · rw [hin ha.room, if_neg (by simp [hn]), if_neg (by simp [ha.whole]), if_neg (by simp [hk]), if_pos hd]
  · rw [hin ha.room, if_neg (by simp [hn]), if_neg (by simp [ha.whole]), if_neg (by simp [hk]), if_neg (not_not.2 hd)]
  · have hh : (s1.home p b e).proposals = s1.sendPkt (s1.response p 0xA [] 0 0) :=
      State.home_otherEpoch (s := s1) hs he has b e
    have hsent := s1.sendPkt_peersOnly (s1.response p 0xA [] 0 0)
    refine ⟨_, hx.trans ((hin ha.room).trans ?_), hh, ?_⟩
    · rw [if_neg (by simp [hn]), if_neg (by simp [ha.whole]), if_neg (by simp [hk]), if_neg (not_not.2 hd)]
    · rw [hh]
      generalize s1.sendPkt _ = t at hsent
      rw [hsent]
      exact ⟨rfl, rfl, rfl, rfl⟩

end Sys2Proof.Machine
end

section
/-! Writes to populated HBM whose cells hold what was written (R387 to R395). -/

namespace Sys2Proof.Machine

/-! ### A store -/

/-- From `s` to `t` at most the bytes of HBM, what is kept of its units, and counts of its traffic. -/
def BytesOnly (s t : State) : Prop :=
  t = { s with hbm := { s.hbm with bytes := t.hbm.bytes, unitMeta := t.hbm.unitMeta }, obs := t.obs }

/-- `t` is `s` with `b` stored at `a`. -/
structure Stored (s t : State) (a : Nat) (b : Bytes) : Prop where
  only : BytesOnly s t
  bytes : t.hbm.bytes = Tbl.setList 0 s.hbm.bytes a b
  units : ∀ u, u < a / 64 ∨ (a + b.length - 1) / 64 < u → Tbl.get {} t.hbm.unitMeta u = Tbl.get {} s.hbm.unitMeta u

theorem BytesOnly.refl (s : State) : BytesOnly s s := rfl

theorem BytesOnly.trans {s t u : State} (hst : BytesOnly s t) (htu : BytesOnly t u) : BytesOnly s u := by
  rw [BytesOnly, htu, hst]

theorem Tbl.setList_append (t : Tbl Byte) (xs ys : Bytes) (i : Nat) :
    Tbl.setList 0 t i (xs ++ ys) = Tbl.setList 0 (Tbl.setList 0 t i xs) (i + xs.length) ys := by
  induction xs generalizing t i with
  | nil => rfl
  | cons x xs ih => rw [List.cons_append, Tbl.setList, ih, Tbl.setList, List.length_cons, Nat.add_right_comm, Nat.add_assoc]

theorem Stored.nil (s : State) (a : Nat) : Stored s s a [] := ⟨.refl s, rfl, fun _ _ => rfl⟩

theorem Stored.append {s t u : State} {a : Nat} {b c : Bytes} (hb : b ≠ []) (hst : Stored s t a b) (htu : Stored t u (a + b.length) c) :
    Stored s u a (b ++ c) where
  only := hst.only.trans htu.only
  bytes := by rw [htu.bytes, hst.bytes, Tbl.setList_append]
  units v hv := by
    have hlen := List.length_pos_of_ne_nil hb
    rw [List.length_append] at hv
    refine (htu.units v ?_).trans (hst.units v ?_)
    · rcases hv with h | h
      · exact .inl (h.trans_le (Nat.div_le_div_right (by omega)))
      · exact .inr (by rwa [Nat.add_assoc])
    · rcases hv with h | h
      · exact .inl h
      · exact .inr (lt_of_le_of_lt (Nat.div_le_div_right (by omega)) h)

/-- A range stored piece by piece is stored. -/
theorem Stored.blockCut {m lo hi : Nat} (hm : 0 < m) {s0 : State} {f : State → Nat × Bytes → State}
    (hf : ∀ s p, BytesOnly s0 s → lo ≤ p.1 → p.1 + p.2.length ≤ hi → p.2 ≠ [] → Stored s (f s p) p.1 p.2) :
    ∀ (fuel a : Nat) (b : Bytes) (s : State), BytesOnly s0 s → b.length ≤ fuel → lo ≤ a → a + b.length ≤ hi →
      Stored s ((blockCut m fuel a b).foldl f s) a b := by
  intro fuel
  induction fuel with
  | zero =>
    intro a b s _ hl _ _
    obtain rfl := List.eq_nil_of_length_eq_zero (Nat.le_zero.1 hl)
    exact .nil s a
  | succ fuel ih =>
    intro a b s hs hl hlo hhi
    by_cases hb : b = []
    · subst hb
      exact .nil s a
    have hmod := Nat.mod_lt a hm
    have hlen := List.length_pos_of_ne_nil hb
    have hne : b.take (m - a % m) ≠ [] := by
      rw [Ne, List.take_eq_nil_iff]
      simp only [hb, or_false]
      omega
    have hcut : Machine.blockCut m (fuel + 1) a b = (a, b.take (m - a % m)) :: Machine.blockCut m fuel (a + (m - a % m)) (b.drop (m - a % m)) := by
      rw [Machine.blockCut, if_neg (by simpa using hb)]
    have h1 : Stored s (f s (a, b.take (m - a % m))) a (b.take (m - a % m)) :=
      hf s _ hs hlo (by simp only [List.length_take]; omega) hne
    rw [hcut, List.foldl_cons]
    by_cases hdone : b.length ≤ m - a % m
    · have hnil : b.drop (m - a % m) = [] := List.drop_eq_nil_of_le hdone
      have hend : Machine.blockCut m fuel (a + (m - a % m)) [] = [] := by cases fuel <;> rfl
      rw [hnil, hend, List.foldl_nil]
      rw [List.take_of_length_le hdone] at h1 ⊢
      exact h1
    · have h2 := ih (a + (m - a % m)) (b.drop (m - a % m)) _ (hs.trans h1.only) (by simp only [List.length_drop]; omega) (by omega)
        (by simp only [List.length_drop]; omega)
      have hl1 : (b.take (m - a % m)).length = m - a % m := by rw [List.length_take]; omega
      have h := h1.append hne (by rw [hl1]; exact h2)
      rwa [List.take_append_drop] at h

/-! ### Sound memory -/

/-- A range of populated HBM whose cells hold what was written, in channels that work, while the views of a step are not laid
over it (R244, R387, R399). -/
structure SoundHbm (s : State) (a n : Nat) : Prop where
  inHbm : s.inHbm a n = true
  flips : s.hbm.flips = []
  working : ∀ b, a ≤ b → b < a + n → (s.chan (s.chanAt b)).failing = false
  views : s.step.enabled = false

theorem SoundHbm.congr {s t : State} {a n : Nat} (h : SoundHbm s a n) (hb : BytesOnly s t) : SoundHbm t a n := by
  rw [hb]
  exact ⟨h.inHbm, h.flips, h.working, h.views⟩

theorem SoundHbm.part {s : State} {a n : Nat} (h : SoundHbm s a n) {b k : Nat} (hab : a ≤ b) (hbk : b + k ≤ a + n) (hk : 0 < k) :
    SoundHbm s b k where
  inHbm := by
    have hi := h.inHbm
    simp only [State.inHbm, Bool.and_eq_true, decide_eq_true_eq, beq_iff_eq] at hi ⊢
    obtain ⟨⟨h1, h2⟩, h3⟩ := hi
    have hq : b / 2 ^ 36 = a / 2 ^ 36 := by omega
    rw [hq]
    refine ⟨⟨by omega, by omega⟩, by omega⟩
  flips := h.flips
  working c hc1 hc2 := h.working c (by omega) (by omega)
  views := h.views

theorem SoundHbm.notTier {s : State} {a n : Nat} (h : SoundHbm s a n) (k : Nat) : inTier a k = false := by
  have hi := h.inHbm
  simp only [State.inHbm, Bool.and_eq_true, decide_eq_true_eq] at hi
  rw [inTier, Bool.and_eq_false_iff]
  exact .inl (decide_eq_false (by unfold tierBase; omega))

theorem SoundHbm.storage {s : State} {a n : Nat} (h : SoundHbm s a n) (b : Nat) (write : Bool) : s.storage b write = b := by
  simp [State.storage, h.views]

theorem SoundHbm.phys {s : State} {a n : Nat} (h : SoundHbm s a n) (hn : 0 < n) (write : Bool) : s.phys a write = .hbm a :=
  if_pos (h.part le_rfl (by omega) Nat.one_pos).inHbm

theorem SoundHbm.decodeAt {s : State} {a n : Nat} (h : SoundHbm s a n) (b k : Nat) : s.decodeAt b k = s := by
  rw [State.decodeAt, h.flips]
  rfl

/-- A store within one unit. -/
theorem State.putHbm_stored {s : State} {a : Nat} {b : Bytes} (h : SoundHbm s a b.length) (hb : b ≠ []) (fmt : Nat)
    (pois first : Bool) : Stored s (s.putHbm a b fmt pois first) a b := by
  have hlen := List.length_pos_of_ne_nil hb
  have hx : s.putHbm a b fmt pois first = ((State.onUnit { s.cleanCell a with hbm := { (s.cleanCell a).hbm with
      bytes := Tbl.setList 0 (s.cleanCell a).hbm.bytes a b } } a fun u =>
        { poison := pois || (u.poison && !(b.length == 64)), dirty := true, fmt := fmt }).countHbm a
          (b2n (first || a % 256 < 64)) (b2n (!(b.length == 64)))) := by
    unfold State.putHbm
    dsimp only
    rw [h.decodeAt, ite_self, if_neg]
    rw [h.working a le_rfl (by omega)]
    exact Bool.false_ne_true
  have hc : s.cleanCell a = s := by
    have hf : Tbl.set [] s.hbm.flips (a / 64) [] = s.hbm.flips := by
      rw [h.flips]
      rfl
    rw [State.cleanCell, hf]
  rw [hc] at hx
  rw [hx]
  refine ⟨rfl, rfl, fun u hu => ?_⟩
  have hne : u ≠ a / 64 := by
    intro e
    subst e
    have := Nat.div_le_div_right (c := 64) (show a ≤ a + b.length - 1 by omega)
    omega
  exact Tbl.get_upd_ne hne s.hbm.unitMeta fun u => { poison := pois || (u.poison && !(b.length == 64)), dirty := true, fmt := fmt }

/-- A store within one block of 64 KiB. -/
theorem State.putSpan_stored {s : State} {a : Nat} {b : Bytes} (h : SoundHbm s a b.length) (hb : b ≠ []) (fmt : Nat) (pois : Bool) :
    Stored s (s.putSpan a b fmt pois) a b := by
  have hlen := List.length_pos_of_ne_nil hb
  have hx : s.putSpan a b fmt pois = (unitCut b.length a b).foldl (fun s p => s.putHbm p.1 p.2 fmt pois (p.1 == a)) s := by
    unfold State.putSpan
    simp only [h.notTier, Bool.false_eq_true, if_false, h.phys hlen]
  rw [hx]
  refine Stored.blockCut (by omega) (lo := a) (hi := a + b.length) (s0 := s) (fun t p ht hlo hhi hp => ?_) _ _ _ _ (.refl s) le_rfl le_rfl le_rfl
  exact State.putHbm_stored ((h.congr ht).part hlo hhi (List.length_pos_of_ne_nil hp)) hp ..

theorem State.rawWrite_stored {s : State} {a : Nat} {b : Bytes} (h : SoundHbm s a b.length) (fmt : Nat) (pois : Bool) :
    Stored s (s.rawWrite a b fmt pois) a b := by
  have hfirst : s.firstCopies a b.length = s := if_pos (by simp [State.meetsUpdate, h.views])
  unfold State.rawWrite
  rw [hfirst]
  refine Stored.blockCut (by omega) (lo := a) (hi := a + b.length) (s0 := s) (fun t p ht hlo hhi hp => ?_) _ _ _ _ (.refl s) le_rfl le_rfl le_rfl
  have hpart := (h.congr ht).part hlo hhi (List.length_pos_of_ne_nil hp)
  rw [hpart.storage]
  exact State.putSpan_stored hpart hp ..

/-- A write that the combining buffer holds nothing of stores its bytes and no other. -/
theorem State.memWrite_stored {s : State} {a : Nat} {b : Bytes} (h : SoundHbm s a b.length) (hc : s.fab.combining = []) (fmt : Nat)
    (pois : Bool) : Stored s (s.memWrite a b fmt pois) a b := by
  have hno : s.combineAt a b.length = s := if_pos (by rw [hc]; rfl)
  unfold State.memWrite
  rw [hno]
  exact s.rawWrite_stored h fmt pois

theorem Stored.getList {s t : State} {a : Nat} {b : Bytes} (h : Stored s t a b) : Tbl.getList 0 t.hbm.bytes a b.length = b := by
  rw [h.bytes]
  exact Tbl.getList_setList ..

theorem Stored.get_ne {s t : State} {a : Nat} {b : Bytes} (h : Stored s t a b) {c : Nat} (hc : c < a ∨ a + b.length ≤ c) :
    Tbl.get 0 t.hbm.bytes c = Tbl.get 0 s.hbm.bytes c := by
  rw [h.bytes, Tbl.get_setList, if_neg (by omega)]

end Sys2Proof.Machine
end

section
/-! A numbered request that admission neither refuses nor holds (R487 to R498). -/

namespace Sys2Proof.Machine

/-- The state in which the home looks at a numbered request's number: heard, with what the sender acknowledges let go (R489). -/
def State.met (s : State) (p : Pkt) : State :=
  (s.packetHeard p).onSender p.src fun x =>
    { x with retained := x.retained.filter fun v => !(v.1 == p.rseq || wBelow v.1 p.rseq) || p.rseq == 0 }

theorem State.packetHeard_eq (s : State) (p : Pkt) :
    ∃ ports sent obs, s.packetHeard p = { s with ports := ports, sent := sent, obs := obs } :=
  ⟨(s.packetHeard p).ports, (s.packetHeard p).sent, (s.packetHeard p).obs, rfl⟩

theorem State.met_eq (s : State) (p : Pkt) : ∃ ports sent obs senders,
    s.met p = { s with ports := ports, sent := sent, obs := obs, fab := { s.fab with senders := senders } } := by
  obtain ⟨ports, sent, obs, h⟩ := s.packetHeard_eq p
  rw [State.met, h]
  exact ⟨_, _, _, _, rfl⟩

theorem State.sender_onSender_self (s : State) (d : Nat) (f : Sender → Sender) : (s.onSender d f).sender d = f (s.sender d) :=
  Tbl.get_upd_self s.fab.senders d f

theorem State.sender_onSender_ne (s : State) {d e : Nat} (h : e ≠ d) (f : Sender → Sender) : (s.onSender d f).sender e = s.sender e :=
  Tbl.get_upd_ne h s.fab.senders f

theorem State.sender_met_next (s : State) (p : Pkt) : ((s.met p).sender p.src).next = (s.sender p.src).next := by
  unfold State.met
  rw [State.sender_onSender_self]
  rfl

section
variable {s : State} {p : Pkt}

theorem Admits.context_eq (h : Admits s p) : (s.packetHeard p).context p.src = some (s.packetHeard p) := by
  unfold State.context
  rcases h.context with hc | ⟨hn, hs⟩
  · have hc : ((s.packetHeard p).fab.senders.any fun e => e.1 == p.src) = true := hc
    rw [if_pos (by simp only [hc, Bool.or_true])]
  · split
    · rfl
    · have hn : ((s.packetHeard p).fab.senders.filter fun e => e.1 ≠ selfDev).length < 4096 := hn
      have hs : (s.packetHeard p).fab.saved.contains p.src = false := hs
      rw [if_pos hn, State.loadSender, if_pos (by rw [hs]; rfl)]

theorem Admits.entryFor_eq (h : Admits s p) : (s.packetHeard p).entryFor p = (some false, none) := by
  have hq : (s.packetHeard p).fab.queue = [] := h.entry
  unfold State.entryFor
  simp only [hq, h.token, Bool.false_and, Bool.false_eq_true, if_false, List.filter_nil, List.length_nil]
  rfl

/-- What the home does of it follows from its number. -/
theorem Admits.home_eq (h : Admits s p) (hop : p.op ≠ 1) (hw : p.wseq ≠ 0) (busy : Bool) (errs : List UnitErr) :
    (s.packetHeard p).home p busy errs =
      let u := s.met p
      let nx := (s.sender p.src).next
      if p.wseq = nx then
        if pktFetches p && 256 ≤ (u.sender p.src).retained.length then u.retry p none else u.enter p false busy errs
      else if wBelow p.wseq nx && (u.sender p.src).mute.contains p.wseq then u
      else if wBelow p.wseq nx then
        let v := u.onFab fun f => { f with dups := satAdd 32 f.dups 1 }
        if v.orderHold v.fab.queue p true then v.enqueue { pkt := p, why := .order, reserved := false, dup := true }
        else v.answerDup p
      else u.putOff p 9 0 0 0 := by
  have he : ((s.packetHeard p).sender p.src).epoch = p.srcEpoch := h.sender
  unfold State.home
  extract_lets own d u nx v
  rw [if_neg (by simp [h.epoch, show (s.packetHeard p).flash = s.flash from rfl])]
  rw [if_neg (by rw [show (s.packetHeard p).fab = s.fab from rfl, h.running]; exact Bool.false_ne_true)]
  simp only [h.context_eq, he, decide_true, Bool.or_true, if_true, h.entryFor_eq, hop, hw, if_false, ← State.met.eq_1]
  rw [s.sender_met_next p]

end

/-! ### What admission asks of the state -/

/-- From `s` to `t` at most ports, counts and the contexts of senders. -/
def Admitting (s t : State) : Prop :=
  t = { s with ports := t.ports, sent := t.sent, obs := t.obs, fab := { s.fab with
          senders := t.fab.senders, stale := t.fab.stale, keyFaults := t.fab.keyFaults, queuePeak := t.fab.queuePeak } }

theorem Admitting.trans {s t u : State} (hst : Admitting s t) (htu : Admitting t u) : Admitting s u := by
  rw [Admitting, htu, hst]

theorem State.met_admitting (s : State) (p : Pkt) : Admitting s (s.met p) := by
  obtain ⟨ports, sent, obs, senders, h⟩ := s.met_eq p
  rw [h]
  rfl

section
variable {s t : State} {p : Pkt} (h : Admitting s t)
include h

theorem Admitting.malformed : t.malformed p = s.malformed p := by rw [h]; rfl

theorem Admitting.refusal : t.refusal p = s.refusal p := by rw [h]; rfl

theorem Admitting.memHold : t.memHold p = s.memHold p := by rw [h]; rfl

theorem Admitting.targetStatus : t.targetStatus p = s.targetStatus p := by rw [h]; rfl

theorem Admitting.relaying (a n : Nat) : t.relaying a n = s.relaying a n := by rw [h]; rfl

theorem Admitting.queue : t.fab.queue = s.fab.queue := by rw [h]

end

section
variable {s : State} {p : Pkt}

theorem State.busyTime_eq_none : s.busyTime p = none ↔ p.op = 0x20 ∨ msgOp p.op = true ∨ s.refusal p ≠ 0 ∨
    (s.relaying (addrOff p.addr) (pktSpan p) = false ∧ (p.src = selfDev ∨ s.targetStatus p ≠ 3)) := by
  unfold State.busyTime
  split
  · rename_i h
    simp only [Bool.or_eq_true, decide_eq_true_eq, ne_eq] at h
    exact iff_of_true rfl (by tauto)
  · rename_i h
    simp only [Bool.or_eq_true, decide_eq_true_eq, not_or, ne_eq] at h
    obtain ⟨⟨h20, hmsg⟩, href⟩ := h
    simp only [h20, hmsg, href, ne_eq, false_or, Bool.false_eq_true]
    by_cases hr : s.relaying (addrOff p.addr) (pktSpan p) = true
    · simp [hr]
    · by_cases hsrc : p.src = selfDev <;> by_cases ht : s.targetStatus p = 3 <;> simp [hr, hsrc, ht]

theorem Admitting.busyTime {t : State} (h : Admitting s t) (hb : s.busyTime p = none) : t.busyTime p = none := by
  rw [State.busyTime_eq_none] at hb ⊢
  rwa [h.refusal, h.relaying, h.targetStatus]

theorem Admits.refusal_eq (h : Admits s p) : s.refusal p = 0 := by
  simp [State.refusal, h.fresh, State.keyed, h.key]

theorem State.holdOf_nil (hw : p.wseq ≠ 0) : s.holdOf [] p false = s.memHold p := by
  simp [State.holdOf, State.orderHold, hw]

/-- It is served, in a state that is the one before it but for ports, counts and contexts. -/
theorem Admits.enter_eq (h : Admits s p) (hw : p.wseq ≠ 0) (hold : s.holdOf [] p false = none) (errs : List UnitErr) :
    ∃ u, Admitting s u ∧ (s.met p).enter p false false errs = u.serve p errs 0 ∧ (u.sender p.src).next = nextWseq p.wseq ∧
      ∀ d, d ≠ p.src → u.sender d = s.sender d := by
  unfold State.enter
  extract_lets next obs v st w x
  have hm := s.met_admitting p
  have hv : Admitting s v := hm.trans rfl
  have hx : Admitting v x ∧ x.fab.senders = ((s.met p).onSender p.src fun y => { y with next := nextWseq p.wseq }).fab.senders := by
    have : x = w.onSender p.src fun y => { y with next := nextWseq p.wseq } := if_neg hw
    rw [this]
    exact ⟨rfl, rfl⟩
  have hst : st = 0 := hv.refusal.trans h.refusal_eq
  rw [if_neg (by rw [hv.malformed, h.form]; exact Bool.false_ne_true), hv.busyTime h.open_]
  clear_value x
  clear w
  clear_value st v
  subst hst
  obtain ⟨hvx, hsend⟩ := hx
  have hsx := hv.trans hvx
  simp only [ne_eq, not_true_eq_false, decide_false, Bool.false_and, Bool.false_eq_true, if_false, hsx.queue, h.entry]
  rw [State.holdOf_nil hw] at hold ⊢
  rw [hsx.memHold, hold]
  refine ⟨_, hsx.trans ?_, rfl, ?_, fun d hd => ?_⟩
  · rfl
  · calc (x.sender p.src).next = (((s.met p).onSender p.src fun y => { y with next := nextWseq p.wseq }).sender p.src).next := by
          unfold State.sender
          rw [hsend]
      _ = _ := by rw [State.sender_onSender_self]
  · calc x.sender d = ((s.met p).onSender p.src fun y => { y with next := nextWseq p.wseq }).sender d := by
          unfold State.sender
          rw [hsend]
      _ = (s.packetHeard p).sender d := by rw [State.sender_onSender_ne _ hd, State.met, State.sender_onSender_ne _ hd]


/-! ### How it is served -/

/-- From `s` to `t` at most what an answer leaves: a path chosen, ports, what is sent, counts. -/
def Responded (s t : State) : Prop :=
  t = { s with fab := { s.fab with peers := t.fab.peers }, ports := t.ports, txWait := t.txWait, sent := t.sent, obs := t.obs }

theorem Responded.trans {s t u : State} (hst : Responded s t) (htu : Responded t u) : Responded s u := by
  rw [Responded, htu, hst]

theorem State.sendOn_responded (s : State) (p cls len : Nat) (x : Sent) : Responded s (s.sendOn p cls len x) := by
  unfold State.sendOn
  split
  · rfl
  · split
    · rfl
    · unfold State.send State.onPort
      rfl

theorem State.sendPkt_responded (s : State) (p : Pkt) : Responded s (s.sendPkt p) := by
  unfold State.sendPkt
  split
  · exact Responded.trans (t := s.onPeer p.dst _) rfl (State.sendOn_responded ..)
  · rfl

/-- What a request that carries a counter adds to it as it is answered OK (R515). -/
def State.arrived (s : State) (p : Pkt) : State :=
  if bit p.aux2 12 then
    s.onFab fun f => { f with arrive := Tbl.upd 0 f.arrive (bits p.aux2 11 0) fun n => (n + p.data.length) % 2 ^ 64 }
  else s

/-- A write answered OK. -/
theorem State.respond_write (s : State) (hop : p.op = 2) (hsrc : p.src ≠ selfDev) :
    Responded (s.arrived p) (s.respond p 0) := by
  have hf : pktFetches p = false := by simp [pktFetches, hop]
  unfold State.respond State.arrived
  simp only [hop, hf, decide_true, Bool.true_and, Bool.and_false, Bool.false_eq_true, if_false, hsrc]
  exact Responded.trans (State.sendPkt_responded ..) rfl

/-- Memory takes a write to it (R488). -/
theorem SoundHbm.targetStatus_eq (h : SoundHbm s (addrOff p.addr) p.data.length) (hop : p.op = 2) : s.targetStatus p = 0 := by
  have hi := h.inHbm
  have hlt : addrOff p.addr < 6 * 2 ^ 36 := by
    simp only [State.inHbm, Bool.and_eq_true, decide_eq_true_eq] at hi
    exact hi.1.1
  have hspan : pktSpan p = p.data.length := by simp only [pktSpan, hop]
  have hacc : accAt (addrOff p.addr) p.data.length = none := by
    have hlow : decide (accBase ≤ addrOff p.addr) = false := decide_eq_false (by unfold accBase; omega)
    simp only [accAt, hlow, Bool.false_and, Bool.false_eq_true, if_false]
  have hmap : s.mapped (addrOff p.addr) p.data.length = true := by simp only [State.mapped, hi, Bool.true_or]
  have hview : s.tandemRefuses (addrOff p.addr) p.data.length = false := by
    simp [State.tandemRefuses, State.meetsUpdate, State.meetsActive, h.views]
  have hctl : ¬ ctlBase ≤ addrOff p.addr := by unfold ctlBase; omega
  have hmsg : (decide (p.op = 0x20) || msgOp p.op) = false := by rw [hop]; rfl
  unfold State.targetStatus
  rw [hspan, if_neg (by rw [hmsg]; exact Bool.false_ne_true), if_neg hctl, if_neg (by rw [hmap]; decide),
    if_neg (by rw [hop]; decide), hacc]
  exact if_neg (by rw [hview]; exact Bool.false_ne_true)

theorem State.claim_of_nil {s : State} (h : s.fab.reqs = []) (n : Nat) (w : Purpose) : s.claim n w = s := by
  unfold State.claim
  rw [h, List.map_nil, ← h]

/-- A write that has come, of which this device has no other request under way: its bytes are stored, its counter counts, and
it is answered. -/
theorem State.serve_write (s : State) (hop : p.op = 2) (hsrc : p.src ≠ selfDev) (hsc : addrScope p.addr = 1)
    (hreqs : s.fab.reqs = []) (hc : s.fab.combining = []) (h : SoundHbm s (addrOff p.addr) p.data.length) :
    ∃ u, Stored s u (addrOff p.addr) p.data ∧ Responded (u.arrived p) (s.serve p [] 0) := by
  have hi := h.inHbm
  simp only [State.inHbm, Bool.and_eq_true, decide_eq_true_eq] at hi
  have hctl : ¬ ctlBase ≤ addrOff p.addr := by unfold ctlBase; omega
  have hmsg : msgOp p.op = false := by rw [hop]; rfl
  have happ (k : Nat) : s.applyReq p [] k 0 = (s.memWrite (addrOff p.addr) p.data p.aux (bit p.flags 5), 0, []) := by
    have hcast : s.mcastOut p k = s := if_pos (by rw [hsc]; decide)
    unfold State.applyReq
    simp only [hcast, if_true, h.targetStatus_eq hop, hctl, if_false, hop, ne_eq, not_true_eq_false]
    simp only [State.rangeErrs, List.isEmpty_nil, if_true, State.applyMem, hop]
    rfl
  have hst := s.memWrite_stored h hc p.aux (bit p.flags 5)
  have hr : (s.memWrite (addrOff p.addr) p.data p.aux (bit p.flags 5)).fab.reqs = [] := by rw [hst.only]; exact hreqs
  refine ⟨_, hst, ?_⟩
  unfold State.serve
  extract_lets k n r u ws
  have hrr : r = _ := happ k
  have hu : u = s.memWrite (addrOff p.addr) p.data p.aux (bit p.flags 5) := by
    unfold u
    rw [hrr]
    exact State.claim_of_nil hr ..
  have hws : ws = [] := by
    unfold ws
    rw [hu, hr]
    rfl
  clear_value ws u
  subst hws hu
  rw [hrr]
  exact State.respond_write _ hop hsrc

/-! ### A remote write -/

/-- The row of a request that admission takes is what the home does of it. -/
theorem Admits.exec_eq {busy : Bool} {errs : List UnitErr} {r : Nat × (Pkt → Instr)} (hr : r ∈ tlRows busy errs) {q : Pkt}
    (hk : knownOp q.op = true) (h : Admits s { q with op := r.1 }) :
    exec (r.2 q) s = .next ((s.packetHeard { q with op := r.1 }).home { q with op := r.1 }
      (if r.1 = 0x20 then false else busy) (if r.1 = 1 ∨ r.1 = 2 then errs else [])).proposals := by
  obtain ⟨hx, hknown⟩ := tlRow_mem_cases hr q s
  have hp : rowPkt r.1 q = { q with op := r.1 } := if_pos hk
  rw [hx, tlRow_in (by rw [hp]; exact h.arrives.room), hp, if_neg (by simp [h.numbered]), if_neg (by rw [h.arrives.whole]; decide),
    if_neg (by simp [hknown]), if_neg (not_not.2 h.dst)]

theorem State.proposals_of_hardware (h : s.assisted 1 = false) : s.proposals = s := if_neg (by rw [h]; exact Bool.false_ne_true)

/-- What a write that is taken leaves. -/
structure Written (s t : State) (p : Pkt) : Prop where
  kept : t = { s with hbm := t.hbm, fab := t.fab, ports := t.ports, txWait := t.txWait, sent := t.sent, obs := t.obs }
  bytes : t.hbm.bytes = Tbl.setList 0 s.hbm.bytes (addrOff p.addr) p.data
  units : ∀ u, u < addrOff p.addr / 64 ∨ (addrOff p.addr + p.data.length - 1) / 64 < u →
    Tbl.get {} t.hbm.unitMeta u = Tbl.get {} s.hbm.unitMeta u
  next : (t.sender p.src).next = nextWseq p.wseq
  others : ∀ d, d ≠ p.src → t.sender d = s.sender d
  arrive : t.fab.arrive = (s.arrived p).fab.arrive

theorem Stored.written {u v t : State} (hu : Admitting s u) (hv : Stored u v (addrOff p.addr) p.data) (ht : Responded (v.arrived p) t)
    (hn : (u.sender p.src).next = nextWseq p.wseq) (ho : ∀ d, d ≠ p.src → u.sender d = s.sender d) : Written s t p := by
  have hsend : t.fab.senders = u.fab.senders := by
    rw [ht, hv.only, State.arrived]
    split <;> rfl
  have hhbm : t.hbm = v.hbm := by
    rw [ht, State.arrived]
    split <;> rfl
  refine ⟨?_, ?_, fun b hb => ?_, ?_, fun d hd => ?_, ?_⟩
  · rw [ht, hv.only, hu, State.arrived]
    split <;> rfl
  · rw [hhbm, hv.bytes, hu]
  · rw [hhbm, hv.units b hb, hu]
  · rwa [State.sender, hsend]
  · rw [State.sender, hsend]
    exact ho d hd
  · rw [ht, hv.only, hu, State.arrived, State.arrived]
    split <;> rfl

theorem Admits.written (h : Admits s p) (hop : p.op = 2) (hw : p.wseq ≠ 0) (hnext : p.wseq = (s.sender p.src).next)
    (hold : s.holdOf [] p false = none) (hsc : addrScope p.addr = 1) (hreqs : s.fab.reqs = []) (hc : s.fab.combining = [])
    (hm : SoundHbm s (addrOff p.addr) p.data.length) : Written s (((s.packetHeard p).home p false []).proposals) p := by
  have hf : pktFetches p = false := by simp [pktFetches, hop]
  obtain ⟨u, hu, hserve, hn, ho⟩ := h.enter_eq hw hold []
  have hsound : SoundHbm u (addrOff p.addr) p.data.length := by
    rw [hu]
    exact ⟨hm.inHbm, hm.flips, hm.working, hm.views⟩
  obtain ⟨v, hv, ht⟩ := u.serve_write hop h.other hsc (by rw [hu]; exact hreqs) (by rw [hu]; exact hc) hsound
  have hhome : (s.packetHeard p).home p false [] = u.serve p [] 0 := by
    rw [h.home_eq (by rw [hop]; decide) hw, if_pos hnext, if_neg (by simp [hf]), hserve]
  have hwr := hv.written hu ht hn ho
  rw [hhome, State.proposals_of_hardware (by rw [hwr.kept]; exact h.mode)]
  exact hwr

end

/-- Settles O31: admission changes counts and contexts alone, the write stores its bytes, the answer sends. -/
theorem remoteWrite : Obligations.RemoteWrite := by
  unfold Obligations.RemoteWrite
  intro q s hk p a had hw hnext hold hsc hreqs hview hcomb hin hflips hchan
  have hexec := had.exec_eq (busy := false) (errs := []) (r := (2, (Instr.tlWrite · false []))) (.tail _ (.head _)) hk
  have hwr := had.written rfl hw hnext hold hsc hreqs hcomb ⟨hin, hflips, hchan, hview⟩
  refine ⟨_, hexec, ?_⟩
  rw [if_neg (by decide), if_pos (by decide)]
  generalize State.proposals _ = t at hwr ⊢
  have harr := hwr.arrive
  refine ⟨?_, fun b hb => ?_, hwr.units, hwr.next, hwr.others, fun hb => ?_, fun hb => ?_, hwr.kept⟩
  · rw [hwr.bytes]
    exact Tbl.getList_setList ..
  · rw [hwr.bytes]
    rw [Tbl.get_setList, if_neg (by rcases hb with h | h <;> omega)]
  · rw [harr, State.arrived, if_pos hb]
    exact Tbl.get_upd_self s.fab.arrive (bits p.aux2 11 0) fun n => (n + p.data.length) % 2 ^ 64
  · rw [harr, State.arrived, if_neg (by rw [hb]; exact Bool.false_ne_true)]

end Sys2Proof.Machine
end

section
/-! Reads of sound memory, and what the combining buffer writes to it (R392, R506). -/

namespace Sys2Proof.Machine

theorem Tbl.getList_add {α : Type} [DecidableEq α] (d : α) (t : Tbl α) (i n m : Nat) :
    Tbl.getList d t i (n + m) = Tbl.getList d t i n ++ Tbl.getList d t (i + n) m := by
  induction n generalizing i with
  | zero => simp [Tbl.getList]
  | succ n ih => rw [Nat.succ_add, Tbl.getList, Tbl.getList, ih, List.cons_append, Nat.succ_add_eq_add_succ]

/-- Every piece of a cut lies in the range that is cut, and is not empty. -/
theorem mem_blockCut {m : Nat} (hm : 0 < m) : ∀ (fuel a : Nat) (b : Bytes) (u : Nat × Bytes), u ∈ blockCut m fuel a b →
    a ≤ u.1 ∧ u.1 + u.2.length ≤ a + b.length ∧ u.2 ≠ [] := by
  intro fuel
  induction fuel with
  | zero => intro a b u hu; cases hu
  | succ fuel ih =>
    intro a b u hu
    have hmod := Nat.mod_lt a hm
    unfold blockCut at hu
    split at hu
    · cases hu
    · next hb =>
      rcases List.mem_cons.1 hu with rfl | hu
      · have hne : b ≠ [] := fun h => hb (by rw [h]; rfl)
        have hlen := List.length_pos_of_ne_nil hne
        refine ⟨le_rfl, by simp only [List.length_take]; omega, ?_⟩
        exact List.ne_nil_of_length_pos (by simp only [List.length_take]; omega)
      · obtain ⟨h1, h2, h3⟩ := ih _ _ u hu
        have hpos := List.length_pos_of_ne_nil h3
        simp only [List.length_drop] at h2
        exact ⟨by omega, by omega, h3⟩

/-- A range read piece by piece is read. -/
theorem foldl_blockCut_read {m : Nat} (hm : 0 < m) {s : State} {lo hi : Nat}
    {f : Bytes × Bool × State → Nat × Bytes → Bytes × Bool × State}
    (hf : ∀ acc o p, lo ≤ p.1 → p.1 + p.2.length ≤ hi → p.2 ≠ [] → ∃ o', f (acc, false, { s with obs := o }) p =
      (acc ++ Tbl.getList 0 s.hbm.bytes p.1 p.2.length, false, { s with obs := o' })) :
    ∀ (fuel a : Nat) (b acc : Bytes) (o : Observe), b.length ≤ fuel → lo ≤ a → a + b.length ≤ hi → ∃ o',
      (blockCut m fuel a b).foldl f (acc, false, { s with obs := o }) =
        (acc ++ Tbl.getList 0 s.hbm.bytes a b.length, false, { s with obs := o' }) := by
  intro fuel
  induction fuel with
  | zero =>
    intro a b acc o hl _ _
    obtain rfl := List.eq_nil_of_length_eq_zero (Nat.le_zero.1 hl)
    exact ⟨o, by simp [blockCut, Tbl.getList]⟩
  | succ fuel ih =>
    intro a b acc o hl hlo hhi
    by_cases hb : b = []
    · subst hb
      exact ⟨o, by simp [blockCut, Tbl.getList]⟩
    have hmod := Nat.mod_lt a hm
    have hlen := List.length_pos_of_ne_nil hb
    have hcut : blockCut m (fuel + 1) a b = (a, b.take (m - a % m)) :: blockCut m fuel (a + (m - a % m)) (b.drop (m - a % m)) :=
      if_neg (by simpa using hb)
    have hne : b.take (m - a % m) ≠ [] := List.ne_nil_of_length_pos (by simp only [List.length_take]; omega)
    obtain ⟨o1, h1⟩ := hf acc o (a, b.take (m - a % m)) hlo (by simp only [List.length_take]; omega) hne
    rw [hcut, List.foldl_cons, h1]
    by_cases hdone : b.length ≤ m - a % m
    · have hnil : b.drop (m - a % m) = [] := List.drop_eq_nil_of_le hdone
      have hend : blockCut m fuel (a + (m - a % m)) [] = [] := by cases fuel <;> rfl
      rw [hnil, hend, List.foldl_nil, List.take_of_length_le hdone]
      exact ⟨o1, rfl⟩
    · obtain ⟨o2, h2⟩ := ih (a + (m - a % m)) (b.drop (m - a % m)) (acc ++ Tbl.getList 0 s.hbm.bytes a (m - a % m)) o1
        (by simp only [List.length_drop]; omega) (by omega) (by simp only [List.length_drop]; omega)
      have hl : (b.take (m - a % m)).length = m - a % m := by rw [List.length_take]; omega
      have hsum : b.length = (m - a % m) + (b.drop (m - a % m)).length := by rw [List.length_drop]; omega
      rw [hl, h2, hsum, Tbl.getList_add, List.append_assoc]
      exact ⟨o2, rfl⟩

/-- Reads of HBM that only count. -/
theorem foldl_countHbm (f : Nat × Bytes → Nat) (us : List (Nat × Bytes)) (s : State) :
    ∃ o, us.foldl (fun s u => s.countHbm u.1 0 (f u)) s = { s with obs := o } := by
  induction us generalizing s with
  | nil => exact ⟨_, rfl⟩
  | cons u us ih =>
    obtain ⟨o, ho⟩ := ih (s.countHbm u.1 0 (f u))
    exact ⟨o, ho⟩

/-- A read within one block of 64 KiB. -/
theorem State.getSpan_sound {s : State} {a n : Nat} (h : SoundHbm s a n) (hn : 0 < n)
    (hp : ∀ b, a ≤ b → b < a + n → (s.unitAt b).poison = false) :
    ∃ o, s.getSpan a n = (Tbl.getList 0 s.hbm.bytes a n, false, { s with obs := o }) := by
  obtain ⟨o, ho⟩ := foldl_countHbm (fun u => b2n (u.1 == a || u.1 % 256 < 64)) (unitCut n a (List.replicate n 0)) s
  have hany : ((unitCut n a (List.replicate n 0)).any fun u => (s.chan (s.chanAt u.1)).failing || (s.unitAt u.1).poison) = false := by
    refine List.any_eq_false.2 fun u hu => ?_
    obtain ⟨h1, h2, h3⟩ := mem_blockCut (by omega) _ _ _ u hu
    have hpos := List.length_pos_of_ne_nil h3
    rw [List.length_replicate] at h2
    rw [h.working _ h1 (by omega), hp _ h1 (by omega)]
    decide
  refine ⟨o, ?_⟩
  unfold State.getSpan
  simp only [h.notTier, Bool.false_eq_true, if_false, h.phys hn, h.decodeAt, hany, ho]

/-- A read of sound memory gives the bytes that are there. -/
theorem State.rawRead_sound {s : State} {a n : Nat} (h : SoundHbm s a n)
    (hp : ∀ b, a ≤ b → b < a + n → (s.unitAt b).poison = false) :
    ∃ o, s.rawRead a n = (Tbl.getList 0 s.hbm.bytes a n, false, { s with obs := o }) := by
  obtain ⟨o, ho⟩ := foldl_blockCut_read (m := 65536) (by omega) (s := s) (lo := a) (hi := a + n)
    (f := fun r p => (r.1 ++ (r.2.2.getSpan (r.2.2.storage p.1 false) p.2.length).1,
      r.2.1 || (r.2.2.getSpan (r.2.2.storage p.1 false) p.2.length).2.1,
      (r.2.2.getSpan (r.2.2.storage p.1 false) p.2.length).2.2)) (fun acc o p hlo hhi hne => by
      have hpos := List.length_pos_of_ne_nil hne
      have hpart : SoundHbm { s with obs := o } p.1 p.2.length := SoundHbm.congr (h.part hlo hhi hpos) rfl
      obtain ⟨o', ho'⟩ := State.getSpan_sound hpart hpos fun b hb1 hb2 => hp b (by omega) (by omega)
      refine ⟨o', ?_⟩
      simp only [hpart.storage, ho', Bool.or_self]) n a (List.replicate n 0) [] s.obs (by simp) le_rfl (by simp)
  rw [List.length_replicate, List.nil_append] at ho
  exact ⟨o, ho⟩

/-! ### The combining buffer's oldest entry (R506) -/

/-- An aligned range of up to 8 bytes lies in one channel's interleave. -/
theorem SoundHbm.of_atom {s : State} {a n : Nat} (hn : n = 4 ∨ n = 8) (hin : s.inHbm a n = true) (ha : a % n = 0)
    (hw : (s.chan (s.chanAt a)).failing = false) (hv : s.step.enabled = false) (hf : s.hbm.flips = []) : SoundHbm s a n where
  inHbm := hin
  flips := hf
  working b h1 h2 := by
    have hq : b / 2 ^ 36 = a / 2 ^ 36 := by rcases hn with rfl | rfl <;> omega
    have hr : b % 2 ^ 36 / 2048 = a % 2 ^ 36 / 2048 := by rcases hn with rfl | rfl <;> omega
    have hc : s.chanAt b = s.chanAt a := by
      unfold State.chanAt
      rw [hq, hr]
    rw [hc, hw]
  views := hv

/-- A range of sound memory that is read and written back changed. -/
theorem State.rawRead_rawWrite_stored {s : State} {a n : Nat} (h : SoundHbm s a n)
    (hp : ∀ b, a ≤ b → b < a + n → (s.unitAt b).poison = false) (f : Bytes → Bytes) (hf : ∀ b, (f b).length = n) :
    Stored s (if (s.rawRead a n).2.1 then (s.rawRead a n).2.2 else (s.rawRead a n).2.2.rawWrite a (f (s.rawRead a n).1) 0) a
      (f (Tbl.getList 0 s.hbm.bytes a n)) := by
  obtain ⟨o, ho⟩ := State.rawRead_sound h hp
  have hs : SoundHbm { s with obs := o } a n := h.congr rfl
  have hst := State.rawWrite_stored (s := { s with obs := o }) (a := a) (b := f (Tbl.getList 0 s.hbm.bytes a n)) (by rw [hf]; exact hs) 0 false
  rw [ho]
  simp only [Bool.false_eq_true, if_false]
  exact ⟨BytesOnly.trans (t := { s with obs := o }) rfl hst.only, hst.bytes, hst.units⟩

theorem State.combineOut_sound {s : State} {e : Combine} (h : SoundHbm s e.addr (atomSize e.ty))
    (hp : ∀ b, e.addr ≤ b → b < e.addr + atomSize e.ty → (s.unitAt b).poison = false) :
    Stored { s with fab := { s.fab with combining := s.fab.combining.filter (· ≠ e) } } (s.combineOut e) e.addr
      (toBytes (atomSize e.ty) (atomOp e.op e.ty (field (Tbl.getList 0 s.hbm.bytes e.addr (atomSize e.ty)) 0 (atomSize e.ty)) e.val)) :=
  State.rawRead_rawWrite_stored (s := { s with fab := { s.fab with combining := s.fab.combining.filter (· ≠ e) } })
    ⟨h.inHbm, h.flips, h.working, h.views⟩ hp
    (fun b => toBytes (atomSize e.ty) (atomOp e.op e.ty (field b 0 (atomSize e.ty)) e.val)) fun _ => length_toBytes ..

/-! ### A held request that is looked at again -/

section
variable {s : State} {i : Nat} {h : Held} (hi : s.fab.queue[i]? = some h)
include hi

theorem State.release_of_hold {w : Hold} (hw : s.holdOf (s.fab.queue.take i) h.pkt h.dup = some w) :
    s.release i = s.onFab fun f => { f with queue := f.queue.set i { h with why := w, after := s.waitingAt w } } := by
  unfold State.release
  simp only [hi, hw]

theorem State.release_of_dup (hn : s.holdOf (s.fab.queue.take i) h.pkt h.dup = none) (hd : h.dup = true) :
    s.release i = (s.onFab fun f => { f with queue := f.queue.eraseIdx i }).answerDup h.pkt := by
  unfold State.release
  simp only [hi, hn]
  exact if_pos hd

/-- What the home refuses the request with (R494): STALE where its stamp has grown old. -/
def State.refusedWith (s : State) (i : Nat) (h : Held) : Nat :=
  if h.refuse = 0 ∧ (s.onFab fun f => { f with queue := f.queue.eraseIdx i }).staleReq h.pkt = true then 6 else h.refuse

/-- The state in which it is served. -/
def State.releasing (s : State) (i : Nat) (h : Held) : State :=
  s.onFab fun f => { f with
    queue := f.queue.eraseIdx i, stale := satAdd 32 f.stale (if s.refusedWith i h = h.refuse then 0 else 1) }

theorem State.release_of_ready (hn : s.holdOf (s.fab.queue.take i) h.pkt h.dup = none) (hd : h.dup = false) :
    (s.refusedWith i h ≠ 0 ∨ (s.releasing i h).busyTime h.pkt = none →
      s.release i = (s.releasing i h).serve h.pkt [] (s.refusedWith i h)) ∧
    (s.refusedWith i h = 0 → ∀ b, (s.releasing i h).busyTime h.pkt = some b →
      (h.pkt.wseq = 0 → s.release i = b.2.putOff h.pkt 3 b.1 0 0) ∧
      (h.pkt.wseq ≠ 0 → s.release i = s.onFab fun f => { f with queue := f.queue.set i { h with why := .busy } })) := by
  unfold State.release
  simp only [hi, hn]
  rw [if_neg (by rw [hd]; exact Bool.false_ne_true)]
  have hst : (if (decide (h.refuse = 0) && (s.onFab fun f => { f with queue := f.queue.eraseIdx i }).staleReq h.pkt) = true
      then 6 else h.refuse) = s.refusedWith i h := by simp [State.refusedWith]
  have hrel : (State.onFab (s.onFab fun f => { f with queue := f.queue.eraseIdx i }) fun f =>
      { f with stale := satAdd 32 f.stale (b2n (decide (s.refusedWith i h ≠ h.refuse))) }) = s.releasing i h := by
    unfold State.releasing b2n
    by_cases h : s.refusedWith i h = h.refuse <;> simp [h, State.onFab]
  rw [hst, hrel]
  refine ⟨fun hor => ?_, fun h0 b hb => ⟨fun hw => ?_, fun hw => ?_⟩⟩
  · rcases hor with h0 | hb
    · rw [if_neg h0]
    · rw [hb, ite_self]
  · rw [if_pos h0, hb]
    exact if_pos hw
  · rw [if_pos h0, hb]
    exact if_neg hw

end

/-! ### A number that is not the next one (R489) -/

theorem State.link_onPort (s : State) (p : Nat) {f : Port → Port} (hf : ∀ x, (f x).link = x.link) (k : Nat) :
    (nth (s.onPort p f).ports k {}).link = (nth s.ports k {}).link := by
  by_cases hk : k = p
  · subst hk
    by_cases hlt : k < s.ports.length
    · exact (congrArg Port.link (nth_setAt_self hlt f {})).trans (hf _)
    · unfold nth
      rw [List.getD_eq_default _ _ (by rw [State.onPort, setAt_length]; omega), List.getD_eq_default _ _ (by omega)]
  · exact congrArg Port.link (nth_setAt_ne hk s.ports f {})

theorem State.link_packetHeard (s : State) (p : Pkt) (k : Nat) :
    (nth (s.packetHeard p).ports k {}).link = (nth s.ports k {}).link := by
  have hcount : (nth (s.rxCount p.port (pktLen p)).ports k {}).link = (nth s.ports k {}).link := by
    unfold State.rxCount
    apply State.link_onPort
    exact fun _ => rfl
  refine Eq.trans ?_ hcount
  unfold State.packetHeard State.packetIn State.rxClass
  apply State.link_onPort
  exact fun _ => rfl

/-- The paths to a device follow from their records, from what is chosen and down, and from the links of the ports. -/
theorem State.pathTo_congr {s t : State} (hh : t.hbm = s.hbm) (ht : t.fab.pathTable = s.fab.pathTable) (hp : t.fab.peers = s.fab.peers)
    (hd : t.fab.downPaths = s.fab.downPaths) (hl : ∀ k, (nth t.ports k {}).link = (nth s.ports k {}).link) (d : Nat) :
    t.pathTo d = s.pathTo d := by
  have hok (k : Nat) : t.pathOk d k = s.pathOk d k := by
    have hrec : t.pathRec d k = s.pathRec d k := by
      unfold State.pathRec
      rw [hh, ht]
    unfold State.pathOk
    simp only [hrec, hl]
  unfold State.pathTo State.proposePath State.peer
  simp only [hok, hp, hd]

/-- An answer that refuses a request of another device: it is sent and counted. -/
theorem State.respond_refused (s : State) {p : Pkt} {st : Nat} (hst : st ≠ 0) (hs : p.src ≠ selfDev) (d : Bytes) :
    s.respond p st d = { s.sendPkt (s.response p st d 0 0) with
      obs := { (s.sendPkt (s.response p st d 0 0)).obs with
        fabTx := sat64 (s.sendPkt (s.response p st d 0 0)).obs.fabTx d.length } } := by
  unfold State.respond
  simp only [hst, decide_false, Bool.false_and, Bool.false_eq_true, if_false, hs]

section
variable {s : State} {p : Pkt}

theorem State.retained_met (s : State) (p : Pkt) : ((s.met p).sender p.src).retained =
    (s.sender p.src).retained.filter fun v => !(v.1 == p.rseq || wBelow v.1 p.rseq) || p.rseq == 0 := by
  unfold State.met
  rw [State.sender_onSender_self]
  rfl

theorem Admitting.pathTo {t : State} (h : Admitting s t) (hl : ∀ k, (nth t.ports k {}).link = (nth s.ports k {}).link) (d : Nat) :
    t.pathTo d = s.pathTo d :=
  State.pathTo_congr (by rw [h]) (by rw [h]) (by rw [h]) (by rw [h]) hl d

theorem State.pathTo_met (s : State) (p : Pkt) (d : Nat) : (s.met p).pathTo d = s.pathTo d :=
  (s.met_admitting p).pathTo (fun k => s.link_packetHeard p k) d

/-- The answer to a duplicate is DUP, with the value first returned where it fetched one (R489). -/
theorem State.answerDup_eq (s : State) (p : Pkt) : s.answerDup p = s.respond p 7 (if pktFetches p then
    ((s.sender p.src).retained.find? fun v => v.1 == p.wseq).elim [] fun v => toBytes (pktSpan p) v.2 else []) := by
  unfold State.answerDup
  cases (s.sender p.src).retained.find? fun v => v.1 == p.wseq <;> rfl

/-- The value that a request was first answered with, where the sender has not acknowledged it (R489). -/
def State.firstValue (s : State) (p : Pkt) : Bytes :=
  (((s.sender p.src).retained.filter fun v => !(v.1 == p.rseq || wBelow v.1 p.rseq) || p.rseq == 0).find?
    fun v => v.1 == p.wseq).elim [] fun v => toBytes (pktSpan p) v.2

/-- What answers a number that is not the next one. -/
structure Answered (s t : State) (p : Pkt) (st : Nat) (d : Bytes) (dups : Nat) : Prop where
  kept : t = { s with fab := { s.fab with senders := t.fab.senders, peers := t.fab.peers, dups := dups }
                      ports := t.ports, txWait := t.txWait, sent := t.sent, obs := t.obs }
  next : (t.sender p.src).next = (s.sender p.src).next
  sent : ∃ u : State, u.pathTo p.src = s.pathTo p.src ∧ t = { u.sendPkt (u.response p st d 0 0) with obs := t.obs }

section
variable {t : State} {st dups : Nat} {d : Bytes} (h : Answered s t p st d dups)
include h

theorem Answered.memory : t.hbm = s.hbm ∧ t.tiles = s.tiles ∧ t.step = s.step ∧ t.tier = s.tier ∧ t.fab.arrive = s.fab.arrive := by
  rw [h.kept]
  exact ⟨rfl, rfl, rfl, rfl, rfl⟩

theorem Answered.dups_eq : t.fab.dups = dups := by rw [h.kept]

end

/-- A response to what the home met, its counts aside. -/
theorem Responded.answered {u t : State} {st dups : Nat} {d : Bytes}
    (hu : u = { s with fab := { s.fab with senders := u.fab.senders, dups := dups }, ports := u.ports, sent := u.sent, obs := u.obs })
    (hn : (u.sender p.src).next = (s.sender p.src).next) (hp : u.pathTo p.src = s.pathTo p.src)
    (ht : t = { u.sendPkt (u.response p st d 0 0) with obs := t.obs }) : Answered s t p st d dups := by
  have hr := State.sendPkt_responded u (u.response p st d 0 0)
  have hsend : t.fab.senders = u.fab.senders := by rw [ht, hr]
  refine ⟨?_, ?_, u, hp, ht⟩
  · rw [ht, hr, hu]
  · rw [State.sender, hsend]
    exact hn

theorem Admits.answered (h : Admits s p) (hop : p.op ≠ 1) (hw : p.wseq ≠ 0) (hn : p.wseq ≠ (s.sender p.src).next)
    (howed : s.fab.owed = []) (hmute : (s.sender p.src).mute.contains p.wseq = false) (busy : Bool) (errs : List UnitErr) :
    let below := wBelow p.wseq (s.sender p.src).next
    Answered s (((s.packetHeard p).home p busy errs).proposals) p (if below then 7 else 9)
      (if below && pktFetches p then s.firstValue p else []) (if below then satAdd 32 s.fab.dups 1 else s.fab.dups) := by
  extract_lets below
  have hpath := s.pathTo_met p p.src
  have hnext := s.sender_met_next p
  have hmet := s.met_admitting p
  have hret := s.retained_met p
  have hmu : ((s.met p).sender p.src).mute = (s.sender p.src).mute := by
    unfold State.met
    rw [State.sender_onSender_self]
    rfl
  have hmet' : s.met p = { s with
        fab := { s.fab with senders := (s.met p).fab.senders }, ports := (s.met p).ports, sent := (s.met p).sent, obs := (s.met p).obs } := by
    obtain ⟨_, _, _, _, hm⟩ := s.met_eq p
    rw [hm]
  rw [h.home_eq hop hw]
  generalize s.met p = u at *
  dsimp only
  rw [if_neg hn, hmu, hmute, Bool.and_false, if_neg Bool.false_ne_true]
  have hmode (t : State) (st : Nat) (d : Bytes) (dups : Nat) (ht : Answered s t p st d dups) : Answered s t.proposals p st d dups := by
    rw [State.proposals_of_hardware (by rw [ht.kept]; exact h.mode)]
    exact ht
  refine hmode _ _ _ _ ?_
  by_cases hb : wBelow p.wseq (s.sender p.src).next = true
  · have hbelow : below = true := hb
    have hv : (u.onFab fun f => { f with dups := satAdd 32 f.dups 1 }).fab.queue = [] := by
      rw [hmet]
      exact h.entry
    have hord : (u.onFab fun f => { f with dups := satAdd 32 f.dups 1 }).orderHold [] p true = false := by
      rw [hmet]
      simp [State.orderHold, State.onFab, howed]
    have hd : (if pktFetches p then ((((u.onFab fun f => { f with dups := satAdd 32 f.dups 1 }).sender p.src).retained.find?
        fun v => v.1 == p.wseq).elim [] fun v => toBytes (pktSpan p) v.2) else []) = if pktFetches p then s.firstValue p else [] := by
      unfold State.firstValue
      rw [← hret]
      rfl
    rw [if_pos hb, hv, hord, if_neg Bool.false_ne_true, State.answerDup_eq, hd, State.respond_refused _ (by decide) h.other, hbelow,
      if_pos rfl, Bool.true_and, if_pos rfl]
    refine Responded.answered (u := u.onFab fun f => { f with dups := satAdd 32 f.dups 1 }) ?_ hnext ?_ rfl
    · rw [hmet']
      rfl
    · exact (State.pathTo_congr rfl rfl rfl rfl (fun _ => rfl) _).trans hpath
  · have hbelow : below = false := Bool.not_eq_true _ ▸ hb
    have hput : u.putOff p 9 0 0 0 = u.sendPkt (u.response p 9 [] 0 0) := if_neg h.other
    rw [if_neg hb, if_neg hb, hput, hbelow, if_neg Bool.false_ne_true, Bool.false_and, if_neg Bool.false_ne_true]
    exact Responded.answered hmet' hnext hpath rfl

end

/-- Settles O32: a duplicate and a gap are answered alone; a token that is late goes; the oldest sum is read, added to and written;
a held request's cases. -/
theorem homeNumbers : Obligations.HomeNumbers := by
  refine ⟨?_, ?_, ?_, ?_⟩
  · intro r hr q s hk p x kept first below had hw hn howed hmute
    have hop : p.op ≠ 1 := by
      have hne : ∀ r' ∈ (tlRows false []).drop 1, r'.1 ≠ 1 := by simp [tlRows]
      exact hne r hr
    have hans := had.answered hop hw hn howed hmute (if r.1 = 0x20 then false else false) (if r.1 = 1 ∨ r.1 = 2 then [] else [])
    have hfirst : s.firstValue p = first := by
      unfold State.firstValue first
      cases kept.find? fun v => v.1 == p.wseq <;> rfl
    refine ⟨_, had.exec_eq (List.mem_of_mem_drop hr) hk, ?_⟩
    generalize State.proposals _ = t at hans ⊢
    obtain ⟨hhbm, htiles, hstep, htier, harrive⟩ := hans.memory
    have hsent := hans.sent
    rw [hfirst] at hsent
    refine ⟨hhbm, htiles, hstep, htier, harrive, hans.next, fun hb => ?_, fun hb => ?_, hsent⟩
    · exact hans.dups_eq.trans (if_pos hb)
    · exact hans.dups_eq.trans (if_neg (by rw [show wBelow p.wseq (s.sender p.src).next = false from hb]; exact Bool.false_ne_true))
  · intro k s x hx hlate
    have hk : x.1 = k.toNat := by simpa using List.find?_some hx
    rw [exec_tokenExpiry, execTokenExpiry, hx]
    dsimp only
    rw [if_neg (by omega), hk]
    rfl
  · intro s e l hl hold
    have hexec : exec .combineFlush s = .next (s.combineOut e) := by
      rw [exec_combineFlush, execCombineFlush, hl]
      exact if_neg (by omega)
    refine ⟨hexec, fun hin ha hv hw hp hf => ⟨_, hexec, ?_⟩⟩
    have hn : atomSize e.ty = 4 ∨ atomSize e.ty = 8 := by
      unfold atomSize
      split
      · exact .inr rfl
      · exact .inl rfl
    have hst := State.combineOut_sound (SoundHbm.of_atom hn hin ha hw hv hf) fun b h1 h2 => by
      have hq : b / 64 = e.addr / 64 := by rcases hn with h | h <;> rw [h] at ha h2 <;> omega
      rw [State.unitAt, hq]
      exact hp
    have hlen := length_toBytes (atomSize e.ty) (atomOp e.op e.ty (field (Tbl.getList 0 s.hbm.bytes e.addr (atomSize e.ty)) 0 (atomSize e.ty)) e.val)
    refine ⟨?_, fun b hb => ?_, ?_, ?_⟩
    · have := hst.getList
      rwa [hlen] at this
    · exact hst.get_ne (by rw [hlen]; exact hb)
    · rw [hst.only]
    · rw [hst.only]
  · intro i s h hi s1 st s2
    have hst : st = s.refusedWith i h := rfl
    have hs2 : s2 = s.releasing i h := rfl
    rw [exec_homeQueueRelease, execHomeQueueRelease, hst, hs2]
    refine ⟨fun hn => ⟨fun hd => ?_, fun hd hor => ?_, fun hd h0 b hb => ⟨fun hw => ?_, fun hw => ?_⟩⟩, fun w hw => ?_⟩
    · rw [State.release_of_dup hi hn hd]
      rfl
    · rw [(State.release_of_ready hi hn hd).1 hor]
    · rw [((State.release_of_ready hi hn hd).2 h0 b hb).1 hw]
    · rw [((State.release_of_ready hi hn hd).2 h0 b hb).2 hw]
      rfl
    · rw [State.release_of_hold hi hw]
      rfl

end Sys2Proof.Machine
end

section
/-! The requester: responses, waits and limits (R484 to R487, R489, R502). -/

namespace Sys2Proof.Machine

/-! ### A response that matches a request -/

/-- A response that matches a request of this device's own, sent and not yet answered (R484). -/
structure Matches (s : State) (p : Pkt) (r : Req) : Prop where
  arrives : s.Arrives p
  numbered : s.fab.numbered = true
  dst : p.dst = s.fab.device
  version : p.version = 1
  kind : p.kind = 2
  found : (s.fab.reqs.find? fun r =>
    r.pkt.dst == p.src && r.pkt.reqId == p.reqId && r.pkt.op == p.op && r.tries ≠ 0 && !r.dead) = some r

/-- The state in which a matching response takes effect. -/
def State.answeredBy (s : State) (p : Pkt) : State := (s.packetHeard p).onPeer p.src fun q => { q with timeouts := 0 }

/-- Whether a request carries the rows of a drain. -/
def Req.drains (r : Req) : Bool := match r.why with | .drain _ _ => true | _ => false

theorem Req.drains_eq_true {r : Req} : r.drains = true ↔ ∃ t i, r.why = .drain t i := by
  unfold Req.drains
  split
  · next t i h => exact iff_of_true rfl ⟨t, i, h⟩
  · next h => exact iff_of_false Bool.false_ne_true fun ⟨t, i, hw⟩ => h t i hw

section
variable {s : State} {p : Pkt} {r : Req} (h : Matches s p r)
include h

theorem Matches.dst_eq : r.pkt.dst = p.src := by
  have := List.find?_some h.found
  simp only [Bool.and_eq_true, beq_iff_eq] at this
  exact this.1.1.1.1

theorem Matches.exec_eq : exec (.tlResponse p) s = .next (
    let u := s.answeredBy p
    if p.status = 0xA then u.newEpoch p.src p.srcEpoch
    else if (p.status = 5 || (p.status = 3 && p.aux ≠ 0 && !r.drains)) = true then
      if r.hold.isSome then u
      else if p.status = 5 then u.holdReq r (s.now + 8 * (p.aux % 65536)) (bits p.aux 31 16) (bit p.flags 2) 0
      else u.holdReq r (s.now + 8 * p.aux) 0 false (8 * p.aux)
    else if p.status = 9 then if r.hold.isSome then u else u.goBack p.src
    else ((if pktFetches r.pkt && good p.status then u.onPeer p.src fun q => { q with rseq := r.pkt.wseq } else u).complete
      r p.status p.data).pump p.src) := by
  have hfab : (s.packetIn p).fab = s.fab := rfl
  rw [exec_tlResponse, execTlResponse, rxPacket_eq, if_neg (by rw [h.arrives.room]; exact Bool.false_ne_true),
    if_neg (by simp [hfab, h.numbered, h.dst, h.version, h.kind, h.arrives.whole]), hfab, h.found]
  dsimp only
  simp only [apply_ite Host.Outcome.next]
  rfl

end

theorem mem_holdReq {s : State} {r : Req} {till token busy : Nat} {hasToken : Bool} {q : Req}
    (hq : q ∈ (s.holdReq r till token hasToken busy).fab.reqs) :
    (q.num = r.num → q.hold = some till) ∧
      (q.pkt.dst = r.pkt.dst → r.num < q.num → q.pkt.wseq ≠ 0 → q.dead = false → q.hold ≠ none) := by
  obtain ⟨x, _, rfl⟩ := List.mem_map.1 hq
  dsimp only
  by_cases hx : x.num = r.num
  · rw [if_pos hx]
    exact ⟨fun _ => rfl, fun _ _ _ _ => nofun⟩
  · rw [if_neg hx]
    split
    · exact ⟨fun h => absurd h hx, fun _ _ _ _ => nofun⟩
    · next hno =>
      refine ⟨fun h => absurd h hx, fun hd hn hw hdead hh => hno ?_⟩
      simp [hd, hn, hw, hdead, hh]

/-! ### A wait that passes -/

/-- What sends a request again changes: the requests, with their waits kept, what is known of peers but for their timeouts, ports, and what is sent. -/
structure Resent (s t : State) : Prop where
  kept : t = { s with fab := { s.fab with peers := t.fab.peers, reqs := t.fab.reqs }
                      ports := t.ports, txWait := t.txWait, sent := t.sent, obs := t.obs }
  timeouts : ∀ d, (t.peer d).timeouts = (s.peer d).timeouts
  waits : ∀ q ∈ t.fab.reqs, ∃ q0 ∈ s.fab.reqs, q0.num = q.num ∧ q0.wait = q.wait

theorem Resent.trans {s t u : State} (hst : Resent s t) (htu : Resent t u) : Resent s u where
  kept := by rw [htu.kept, hst.kept]
  timeouts d := (htu.timeouts d).trans (hst.timeouts d)
  waits q hq := by
    obtain ⟨q1, hq1, hn1, hw1⟩ := htu.waits q hq
    obtain ⟨q0, hq0, hn0, hw0⟩ := hst.waits q1 hq1
    exact ⟨q0, hq0, hn0.trans hn1, hw0.trans hw1⟩

theorem State.fab_sendOn (s : State) (p cls len : Nat) (x : Sent) : (s.sendOn p cls len x).fab = s.fab := by
  unfold State.sendOn
  split
  · rfl
  · split <;> rfl

theorem State.timeouts_onPeer (s : State) (d : Nat) {f : Peer → Peer} (hf : ∀ q, (f q).timeouts = q.timeouts) (e : Nat) :
    ((s.onPeer d f).peer e).timeouts = (s.peer e).timeouts := by
  by_cases he : e = d
  · subst he
    exact (congrArg Peer.timeouts (Tbl.get_upd_self s.fab.peers e f)).trans (hf _)
  · exact congrArg Peer.timeouts (Tbl.get_upd_ne he s.fab.peers f)

theorem State.sendPkt_resent (s : State) (p : Pkt) : Resent s (s.sendPkt p) := by
  have hr := s.sendPkt_responded p
  refine ⟨by rw [hr], fun d => ?_, fun q hq => ⟨q, ?_, rfl, rfl⟩⟩
  · unfold State.sendPkt
    split
    · rw [State.peer, State.fab_sendOn]
      apply State.timeouts_onPeer
      exact fun _ => rfl
    · rfl
  · rw [hr] at hq
    exact hq

/-- A change of requests that keeps their numbers and waits. -/
theorem State.onReqs_resent (s : State) {f : Req → Req} (hf : ∀ q, (f q).num = q.num ∧ (f q).wait = q.wait) :
    Resent s { s with fab := { s.fab with reqs := s.fab.reqs.map f } } where
  kept := rfl
  timeouts _ := rfl
  waits q hq := by
    obtain ⟨x, hx, rfl⟩ := List.mem_map.1 hq
    exact ⟨x, hx, (hf x).1.symm, (hf x).2.symm⟩

theorem State.obs_resent (s : State) (o : Observe) : Resent s { s with obs := o } := ⟨rfl, fun _ => rfl, fun q hq => ⟨q, hq, rfl, rfl⟩⟩

theorem State.transmit_resent (s : State) (r : Req) : Resent s (s.transmit r) := by
  unfold State.transmit
  extract_lets flags x pkt upd
  have hupd (path t : Nat) : Resent s (upd s path t) := State.onReqs_resent s fun q => by
    split <;> exact ⟨rfl, rfl⟩
  clear_value upd
  split
  · split
    · exact hupd _ _
    · exact ((hupd _ _).trans (State.sendPkt_resent _ pkt)).trans (State.obs_resent _ _)
  · exact hupd _ _

/-- The state in which a wait that has passed is counted. -/
def State.resentAfter (s : State) (num : Nat) (r : Req) : State :=
  ((s.transmit r).onFab fun f => { f with reqs := f.reqs.map fun q =>
    if q.num = num then { q with wait := max q.wait (min 1000000 (2 * q.wait)) } else q }).onPeer r.pkt.dst fun p =>
      { p with timeouts := p.timeouts + 1 }

theorem execRtoExpiry_eq {s : State} {num : Nat} {r : Req} (hr : s.req num = some r) (hd : r.pkt.dst ≠ selfDev) (hh : r.hold = none)
    (hrt : r.routeHold = false) (hdead : r.dead = false) (hlate : r.sentAt + r.wait ≤ s.now) :
    exec (.rtoExpiry num) s = .next (if s.fab.pathFail ≤ (s.peer r.pkt.dst).timeouts + 1 then
      (s.resentAfter num r).pathDown r.pkt.dst else s.resentAfter num r) ∧
    ((s.resentAfter num r).peer r.pkt.dst).timeouts = (s.peer r.pkt.dst).timeouts + 1 ∧
    (s.resentAfter num r).fab.pathsDown = s.fab.pathsDown ∧
    (∀ q ∈ (s.resentAfter num r).fab.reqs, q.num = num →
      ∃ q0 ∈ s.fab.reqs, q0.num = num ∧ q.wait = max q0.wait (min 1000000 (2 * q0.wait))) ∧
    s.resentAfter num r = { s with
      fab := (s.resentAfter num r).fab, ports := (s.resentAfter num r).ports, txWait := (s.resentAfter num r).txWait
      sent := (s.resentAfter num r).sent, obs := (s.resentAfter num r).obs } := by
  have h := s.transmit_resent r
  have hpeer : ((s.resentAfter num r).peer r.pkt.dst).timeouts = (s.peer r.pkt.dst).timeouts + 1 := by
    rw [← h.timeouts]
    exact congrArg Peer.timeouts (Tbl.get_upd_self (s.transmit r).fab.peers r.pkt.dst fun p => { p with timeouts := p.timeouts + 1 })
  have hfail : (s.resentAfter num r).fab.pathFail = s.fab.pathFail := by
    unfold State.resentAfter
    generalize s.transmit r = t at h
    rw [h.kept]
    rfl
  refine ⟨?_, hpeer, ?_, fun q hq hn => ?_, ?_⟩
  · rw [exec_rtoExpiry, execRtoExpiry, hr]
    dsimp only
    rw [if_neg (by simp [hd, hh, hrt, hdead]; omega), ← hpeer, ← hfail]
    rfl
  · unfold State.resentAfter
    generalize s.transmit r = t at h
    rw [h.kept]
    rfl
  · obtain ⟨x, hx, rfl⟩ := List.mem_map.1 hq
    obtain ⟨q0, hq0, hn0, hw0⟩ := h.waits x hx
    by_cases hxn : x.num = num
    · rw [if_pos hxn]
      exact ⟨q0, hq0, hn0.trans hxn, by rw [hw0]⟩
    · rw [if_neg hxn] at hn
      exact absurd hn hxn
  · unfold State.resentAfter
    generalize s.transmit r = t at h
    rw [h.kept]
    rfl

/-- Settles O33: a matching response is taken by its status; a wait that passes sends again, keeps the waits and counts. -/
theorem requester : Obligations.Requester := by
  constructor
  · intro p s r ha hnum hdst hver hkind hr s1
    have h : Matches s p r := ⟨ha, hnum, hdst, hver, hkind, hr⟩
    have hs1 : s1 = s.answeredBy p := rfl
    rw [h.exec_eq, hs1]
    dsimp only
    refine ⟨fun hst => ?_, fun hst hh => ?_, fun hst ha hd hh => ?_, fun hst hh => ?_, fun hst => ?_⟩
    · rw [if_pos hst]
    · refine ⟨_, ?_, rfl, fun q hq hn => (mem_holdReq hq).1 hn, fun q hq hd => (mem_holdReq hq).2 (hd.trans h.dst_eq.symm)⟩
      rw [h.exec_eq]
      simp [hst, hh]
    · have hdr : r.drains = false := by
        rw [← Bool.not_eq_true, Req.drains_eq_true]
        exact fun ⟨t, i, hw⟩ => hd t i hw
      simp [hst, ha, hdr, hh]
    · simp [hst, hh]
    · have hno : (p.status = 5 || (p.status = 3 && p.aux ≠ 0 && !r.drains)) = false := by
        obtain h | ⟨h3, hor⟩ : (p.status ≠ 5 ∧ p.status ≠ 3) ∨ (p.status = 3 ∧ (p.aux = 0 ∨ ∃ t i, r.why = .drain t i)) := by
          by_cases h3 : p.status = 3
          · exact .inr (by simpa [h3] using hst)
          · exact .inl ⟨fun h5 => by simp [h5] at hst, h3⟩
        · simp [h.1, h.2]
        · rw [← Req.drains_eq_true] at hor
          rcases hor with ha | hd
          · simp [h3, ha]
          · simp [h3, hd]
      rw [hno, if_neg (by rcases hst with h | h | h | h | h | h | h | ⟨h, _⟩ <;> rw [h] <;> decide), if_neg Bool.false_ne_true,
        if_neg (by rcases hst with h | h | h | h | h | h | h | ⟨h, _⟩ <;> rw [h] <;> decide)]
  · intro num s r hr
    refine ⟨fun till hh h0 hlate hrt => ?_, fun hd hh hrt hdead hlate hfew => ?_, fun hd hh hrt hdead hlate hmany => ?_,
      fun f hf hd hdead hlate => ?_⟩
    · rw [exec_retryAfterExpiry, execRetryAfterExpiry, hr]
      dsimp only
      rw [hh]
      exact if_neg (by simp [h0, hrt]; omega)
    · obtain ⟨hx, ht, -, hw, hk⟩ := execRtoExpiry_eq hr hd hh hrt hdead hlate
      exact ⟨_, hx.trans (by rw [if_neg (by omega)]), ht, hw, hk⟩
    · obtain ⟨hx, -, hp, -, hk⟩ := execRtoExpiry_eq hr hd hh hrt hdead hlate
      exact ⟨_, hx.trans (by rw [if_pos hmany]), _, rfl, hp, hk⟩
    · rw [exec_reachTimeout, execReachTimeout, hr]
      dsimp only
      rw [hf]
      exact if_neg (by simp [hd, hdead]; omega)

end Sys2Proof.Machine
end

section
/-! The ports: what a change of one port leaves, and the frames that are not the device's own traffic (R529 to R562). -/

namespace Sys2Proof.Machine

/-! ### A change of one port -/

section
variable {s : State} {p : Nat}

theorem State.port_onPort_self (hp : p < s.ports.length) (f : Port → Port) : (s.onPort p f).port p = f (s.port p) :=
  nth_setAt_self hp f {}

theorem State.port_onPort_ne {j : Nat} (h : j ≠ p) (f : Port → Port) : (s.onPort p f).port j = s.port j :=
  nth_setAt_ne h s.ports f {}

theorem PortOnly.refl (s : State) (p : Nat) : PortOnly s s p := ⟨rfl, fun _ _ => rfl⟩

theorem PortOnly.trans {t u : State} (hst : PortOnly s t p) (htu : PortOnly t u p) : PortOnly s u p where
  rest := by rw [htu.rest, hst.rest]
  others j hj := (htu.others j hj).trans (hst.others j hj)

theorem State.onPort_portOnly (s : State) (p : Nat) (f : Port → Port) : PortOnly s (s.onPort p f) p :=
  ⟨rfl, fun _ hj => State.port_onPort_ne hj f⟩

/-- A change of a port's record says what the record becomes. -/
theorem State.onPort_congr {f g : Port → Port} (h : f (s.port p) = g (s.port p)) : s.onPort p f = s.onPort p g := by
  have hl : setAt s.ports p f = setAt s.ports p g := by
    apply List.ext_getElem (by simp only [setAt_length])
    intro i hi _
    simp only [setAt_length] at hi
    simp only [setAt, List.getElem_modify]
    split
    · next hpi =>
      subst hpi
      have hx : s.port p = s.ports[p] := List.getD_eq_getElem _ _ hi
      rwa [hx] at h
    · rfl
  rw [State.onPort, hl]
  rfl

theorem State.onPort_onPort (s : State) (p : Nat) (f g : Port → Port) : (s.onPort p f).onPort p g = s.onPort p (g ∘ f) := by
  simp only [State.onPort, setAt, List.modify_modify_eq]

/-- A change of a port that keeps what the host has set keeps the port's addresses and what it accepts. -/
theorem State.cfg_onPort (s : State) (p : Nat) {f : Port → Port} (hf : ∀ x, (f x).cfg = x.cfg) (j : Nat) :
    ((s.onPort p f).port j).cfg = (s.port j).cfg := by
  by_cases hj : j = p
  · subst hj
    by_cases hlt : j < s.ports.length
    · rw [State.port_onPort_self hlt, hf]
    · have hno (l : List Port) (hl : ¬ j < l.length) : nth l j {} = {} := List.getD_eq_default _ _ (by omega)
      rw [State.port, State.port, hno _ hlt, hno _ (by rwa [State.onPort, setAt_length])]
  · rw [State.port_onPort_ne hj]

end

section
variable {s : State} {p : Nat} (len : Nat)

theorem State.cfg_rxCount (j : Nat) : ((s.rxCount p len).port j).cfg = (s.port j).cfg := by
  unfold State.rxCount
  apply State.cfg_onPort
  exact fun _ => rfl

theorem State.mac_rxCount : (s.rxCount p len).mac p = s.mac p := by unfold State.mac; rw [State.cfg_rxCount]

theorem State.ipv4s_rxCount : (s.rxCount p len).ipv4s p = s.ipv4s p := by unfold State.ipv4s; rw [State.cfg_rxCount]

theorem State.ipv6s_rxCount : (s.rxCount p len).ipv6s p = s.ipv6s p := by
  unfold State.ipv6s
  rw [State.cfg_rxCount, State.mac_rxCount]

theorem State.addressed_rxCount : (s.rxCount p len).addressed p = s.addressed p := by unfold State.addressed; rw [State.cfg_rxCount]

end

/-! ### Frames sent -/

/-- A frame outside the classes goes out at once where nothing of the port waits and the link is not in direct mode (R551). -/
theorem State.sendOn_sent {s : State} {p cls : Nat} (hl : (s.port p).link = 2) (hd : (s.port p).direct = false)
    (hw : ∀ w ∈ s.txWait, w.1 ≠ p) (hp : (s.port p).paused = []) (len : Nat) (x : Sent) :
    (s.sendOn p cls len x).sent = s.sent ++ [x] := by
  have hb : s.txBlocked p cls len = false := by
    have hany : (s.txWait.any fun w => w.1 == p && (w.2.1 == cls || (s.port p).direct)) = false := by
      refine List.any_eq_false.2 fun w hm => ?_
      simp [hw w hm]
    unfold State.txBlocked
    simp only [hp, Port.replayFull, hd, List.any_nil, Bool.false_and, Bool.false_or, Bool.or_false]
    rw [hd] at hany
    simpa only [Bool.or_false] using hany
  unfold State.sendOn
  rw [if_neg (by simp [hl]), if_neg (by rw [hb]; exact Bool.false_ne_true)]
  rfl

theorem State.lldpDue_onPort (s : State) (p : Nat) {f : Port → Port} (hf : ∀ x, (f x).lldpDue = x.lldpDue) (j : Nat) :
    ((s.onPort p f).port j).lldpDue = (s.port j).lldpDue := by
  by_cases hj : j = p
  · subst hj
    by_cases hlt : j < s.ports.length
    · rw [State.port_onPort_self hlt, hf]
    · have hno (l : List Port) (hl : ¬ j < l.length) : nth l j {} = {} := List.getD_eq_default _ _ (by omega)
      rw [State.port, State.port, hno _ hlt, hno _ (by rwa [State.onPort, setAt_length])]
  · rw [State.port_onPort_ne hj]

/-- What is sent on a port touches no other port, and keeps when its next LLDPDU is due. -/
theorem State.sendOn_ports (s : State) (p cls len : Nat) (x : Sent) (j : Nat) :
    (j ≠ p → (s.sendOn p cls len x).port j = s.port j) ∧ ((s.sendOn p cls len x).port j).lldpDue = (s.port j).lldpDue := by
  unfold State.sendOn
  split
  · exact ⟨fun _ => rfl, rfl⟩
  · split
    · exact ⟨fun _ => rfl, rfl⟩
    · refine ⟨fun hj => State.port_onPort_ne hj _, ?_⟩
      have hput (x : Port) : (x.put s.now len).lldpDue = x.lldpDue := by
        unfold Port.put
        dsimp only
        split <;> rfl
      exact State.lldpDue_onPort _ _ hput j

/-- A row that changes one port's record. -/
theorem does_onPort {i : Instr} {s : State} {p : Nat} {y : Port} (hp : p < s.ports.length)
    (h : exec i s = .next (s.onPort p fun _ => y)) : Does i s fun t => PortOnly s t p ∧ t.port p = y :=
  ⟨_, h, s.onPort_portOnly p _, State.port_onPort_self hp _⟩

/-- A change of a port's record, with what the record becomes. -/
theorem next_onPort {s : State} {p : Nat} {f : Port → Port} {y : Port} (h : f (s.port p) = y) :
    (Host.Outcome.next (s.onPort p f) : Out) = .next (s.onPort p fun _ => y) :=
  congrArg _ (State.onPort_congr h)

/-- A row that changes one port's record, after which what waits there may go out. -/
theorem does_txDrain {i : Instr} {s : State} {p : Nat} {y : Port} (hp : p < s.ports.length)
    (h : exec i s = .next ((s.onPort p fun _ => y).txDrain p)) :
    Does i s fun t => ∃ u : State, t = u.txDrain p ∧ PortOnly s u p ∧ u.port p = y :=
  ⟨_, h, _, rfl, s.onPort_portOnly p _, State.port_onPort_self hp _⟩

theorem next_txDrain {s : State} {p : Nat} {f : Port → Port} {y : Port} (h : f (s.port p) = y) :
    (Host.Outcome.next ((s.onPort p f).txDrain p) : Out) = .next ((s.onPort p fun _ => y).txDrain p) := by
  rw [State.onPort_congr (g := fun _ => y) h]

theorem State.rxCount_onPort {s : State} {p : Nat} (hp : p < s.ports.length) (len : Nat) (f : Port → Port) :
    (s.rxCount p len).onPort p f = s.onPort p fun _ => f ((s.rxCount p len).port p) := by
  unfold State.rxCount
  rw [State.onPort_onPort]
  refine State.onPort_congr ?_
  rw [State.port_onPort_self hp]
  rfl

/-- An LLDPDU that goes out sets when the next is due, and touches no other port (R555). -/
theorem State.lldp_sent {s : State} {p : Nat} (hp : p < s.ports.length) {len : Nat} {x : Sent} :
    let u := ((s.onPort p fun x => { x with lldpDue := s.now + 5000000000 }).draw 10).2
    ((u.sendOn p 8 len x).port p).lldpDue = s.now + 5000000000 ∧
    (∀ j, j ≠ p → (u.sendOn p 8 len x).port j = s.port j) ∧
    u.sendOn p 8 len x = { s with ports := (u.sendOn p 8 len x).ports, txWait := (u.sendOn p 8 len x).txWait
                                  sent := (u.sendOn p 8 len x).sent, freeIx := (u.sendOn p 8 len x).freeIx } := by
  intro u
  have hq : u.port p = { s.port p with lldpDue := s.now + 5000000000 } := State.port_onPort_self hp _
  refine ⟨?_, fun j hj => ?_, ?_⟩
  · rw [(u.sendOn_ports p 8 len x p).2, hq]
  · exact ((u.sendOn_ports p 8 len x j).1 hj).trans (State.port_onPort_ne hj _)
  · obtain ⟨_, _, _, _, h⟩ := sendsOnly_iff.1 (State.sendOn_sendsOnly u p 8 len x)
    rw [h]
    rfl

/-- Settles O34: each row changes its port, or answers from it. -/
theorem portFrames : Obligations.PortFrames := by
  intro p s hlen x
  have hp : p.val < s.ports.length := by rw [hlen]; exact p.isLt
  refine ⟨fun f hf => ?_, fun f hf ha => ?_, fun f sender target hr => ?_, fun f h target hi hr => ?_, fun f h body hi hr => ?_,
    fun c q hl => ?_, fun c n hl h3 h6 => ?_, fun c hc => ?_, fun hl hdue => ?_, fun len hl => ?_, fun b len hl => ?_, fun b hb hlate => ?_⟩
  · refine does_onPort hp ?_
    rw [exec_frameDiscard, execFrameDiscard, if_pos (by rw [hf]; rfl)]
    exact next_onPort rfl
  · refine does_onPort hp ?_
    rw [exec_frameDiscard, execFrameDiscard, if_neg (by rw [hf]; decide), if_neg (by rw [ha]; decide)]
    exact next_onPort rfl
  · rw [exec_arpRequest, execArpRequest, if_neg (by rw [hr]; decide)]
    dsimp only
    rw [State.ipv4s_rxCount, State.mac_rxCount]
    exact ⟨fun hm => if_neg (by simp [hm]), fun hm => if_pos (by simp [hm])⟩
  · rw [exec_neighborSolicitation, execNeighborSolicitation, hi]
    dsimp only
    rw [if_neg (by rw [hr]; decide), State.ipv6s_rxCount, State.mac_rxCount]
    exact ⟨fun hm => if_neg (by simp [hm]), fun hm => if_pos (by simp [hm])⟩
  · rw [exec_icmpEchoRequest, execIcmpEchoRequest, hi]
    dsimp only
    rw [if_neg (by rw [hr]; decide), State.addressed_rxCount, State.mac_rxCount]
    exact ⟨fun hm => if_neg (by simp [hm]), fun hm => if_pos (by simp [hm])⟩
  · refine does_txDrain hp ?_
    rw [exec_pfcReceive, execPfcReceive, if_neg (not_not.2 hl)]
    refine next_txDrain ?_
    simp only [List.foldl_cons, List.foldl_nil]
    by_cases hq : q = 0
    · rw [if_pos hq, if_pos hq, List.append_nil]
    · rw [if_neg hq, if_neg hq]
  · have hc : (decide (3 ≤ c.val) && decide (c.val ≤ 6)) = true := by simp [h3, h6]
    have hset : s.onPort p.val (fun x => { x with cnt := { x.cnt with pfcRx := satAdd 32 x.cnt.pfcRx 1 } }) =
        s.onPort p.val fun _ => { x with cnt := { x.cnt with pfcRx := satAdd 32 x.cnt.pfcRx 1 } } := State.onPort_congr rfl
    refine ⟨_, by rw [exec_pfcReceive, execPfcReceive, if_neg (not_not.2 hl)], ?_⟩
    simp only [List.foldl_cons, List.foldl_nil, hc, if_true]
    rw [hset]
    rfl
  · refine does_txDrain hp ?_
    rw [exec_pfcPauseExpiry, execPfcPauseExpiry, if_pos]
    · exact next_txDrain rfl
    · obtain ⟨e, hm, he, hle⟩ := hc
      exact List.any_eq_true.2 ⟨e, hm, by simp [he, hle]⟩
  · obtain ⟨h1, h2, h3⟩ := State.lldp_sent (s := s) hp
    refine ⟨_, by rw [exec_lldpTransmit, execLldpTransmit]; exact if_neg (by simp [show (s.port p.val).link = 2 from hl]; exact hdue),
      h1, h2, h3, ?_⟩
    intro hd hw hpa
    have hq := State.port_onPort_self hp fun x => { x with lldpDue := s.now + 5000000000 }
    have htlv : (s.onPort p.val fun x => { x with lldpDue := s.now + 5000000000 }).lldpTlv p.val = s.lldpTlv p.val := by
      unfold State.lldpTlv
      rw [hq]
      rfl
    rw [← htlv]
    refine State.sendOn_sent (s := ((s.onPort p.val fun x => { x with lldpDue := s.now + 5000000000 }).draw 10).2) ?_ ?_ hw ?_ _ _
    · exact (congrArg Port.link hq).trans hl
    · exact (congrArg Port.direct hq).trans hd
    · exact (congrArg Port.paused hq).trans hpa
  · refine does_onPort hp ?_
    rw [exec_lldpReceive, execLldpReceive, if_neg (not_not.2 hl)]
    exact congrArg _ (State.rxCount_onPort hp len _)
  · refine does_onPort hp ?_
    rw [exec_lldpReceive, execLldpReceive, if_neg (not_not.2 hl)]
    exact congrArg _ (State.rxCount_onPort hp len _)
  · refine does_onPort hp ?_
    rw [exec_lldpNeighborExpiry, execLldpNeighborExpiry, show (s.port p.val).nbr = some b from hb]
    exact (if_pos hlate).trans (next_onPort rfl)

end Sys2Proof.Machine
end

section
/-! Links of the ports: bring-up, training, lane faults and direct mode (R528, R539 to R550, R559). -/

namespace Sys2Proof.Machine

/-! ### What sending leaves of the links -/

/-- From `s` to `t` at most counts and the frames kept for replay have changed of the ports. -/
structure LinksKept (s t : State) : Prop where
  port : ∀ j, t.port j = { s.port j with
  cnt := (t.port j).cnt, unacked := (t.port j).unacked, txSeq := (t.port j).txSeq, frameTimes := (t.port j).frameTimes }

theorem LinksKept.refl (s : State) : LinksKept s s := ⟨fun _ => rfl⟩

theorem LinksKept.trans {s t u : State} (hst : LinksKept s t) (htu : LinksKept t u) : LinksKept s u :=
  ⟨fun j => by rw [htu.port j, hst.port j]⟩

theorem LinksKept.of_ports {s t : State} (h : t.ports = s.ports) : LinksKept s t :=
  ⟨fun j => by rw [State.port, h]; rfl⟩

theorem Port.put_kept (x : Port) (now len : Nat) : x.put now len = { x with
    cnt := (x.put now len).cnt, unacked := (x.put now len).unacked, txSeq := (x.put now len).txSeq
    frameTimes := (x.put now len).frameTimes } := by
  unfold Port.put
  dsimp only
  split <;> rfl

theorem State.sendOn_linksKept (s : State) (p cls len : Nat) (x : Sent) : LinksKept s (s.sendOn p cls len x) := by
  unfold State.sendOn
  split
  · exact .refl s
  · split
    · exact .of_ports rfl
    · refine ⟨fun j => ?_⟩
      by_cases hj : j = p
      · subst hj
        by_cases hlt : j < s.ports.length
        · have hport : ((s.onPort j fun q => q.put s.now len).send x).port j = (s.port j).put s.now len :=
            State.port_onPort_self hlt _
          rw [hport]
          exact Port.put_kept ..
        · have hno (l : List Port) (hl : ¬ j < l.length) : nth l j {} = {} := List.getD_eq_default _ _ (by omega)
          have hport : ((s.onPort j fun q => q.put s.now len).send x).port j = s.port j :=
            (hno _ (by rw [State.send, State.onPort, setAt_length]; exact hlt)).trans (hno _ hlt).symm
          rw [hport]
      · have hport : ((s.onPort p fun q => q.put s.now len).send x).port j = s.port j := State.port_onPort_ne hj _
        rw [hport]

theorem State.sendMsg_linksKept (s : State) (x : Sent) : LinksKept s (s.sendMsg x) := by
  unfold State.sendMsg
  split
  · exact State.sendOn_linksKept ..
  · exact State.sendOn_linksKept ..
  · dsimp only
    refine LinksKept.trans ?_ (State.sendOn_linksKept ..)
    exact .of_ports rfl
  · exact .of_ports rfl

theorem LinksKept.foldl {α : Type} {f : State → α → State} (hf : ∀ s a, LinksKept s (f s a)) (l : List α) (s : State) :
    LinksKept s (l.foldl f s) :=
  foldl_related .refl .trans hf l s

theorem State.raise_linksKept (s : State) (ev : Event) : LinksKept s (s.raise ev) := by
  unfold State.raise
  split_ifs
  · exact .of_ports rfl
  · dsimp only
    refine LinksKept.trans ?_ (LinksKept.foldl State.sendMsg_linksKept _ _)
    exact .of_ports rfl

theorem State.finish_linksKept (s : State) (c : PendCmd) (status : Nat) (payload : Bytes) : LinksKept s (s.finish c status payload) := by
  obtain ⟨cmds, freeIx, pay, h⟩ := s.finish_eq c status payload
  rw [h]
  unfold State.answer
  dsimp only
  split
  · refine LinksKept.trans ?_ (State.sendMsg_linksKept ..)
    exact .of_ports rfl
  · exact .of_ports rfl

theorem State.resetEnds_linksKept (s : State) (p status : Nat) : LinksKept s (s.resetEnds p status) :=
  LinksKept.foldl (fun _ _ => State.finish_linksKept ..) _ _

theorem State.resetEnds_halterOnly (s : State) (p status : Nat) : HalterOnly s (s.resetEnds p status) :=
  foldl_related HalterOnly.refl HalterOnly.trans (fun _ _ => State.finish_halterOnly ..) _ s

/-! ### A bring-up that ends -/

theorem State.onPort_const (s : State) (p : Nat) (f : Port → Port) : s.onPort p f = s.onPort p fun _ => f (s.port p) :=
  State.onPort_congr rfl


theorem map_zipIdx_fst {α β : Type} (g : α → β) (l : List α) : (l.zipIdx.map fun e => g e.1) = l.map g := by
  rw [show (fun e : α × Nat => g e.1) = g ∘ Prod.fst from rfl, ← List.map_map, List.zipIdx_map_fst]

/-- No lane is retired as a bring-up ends where no lane set has failed in it (R543). -/
theorem State.endBringUp_of_clean {s : State} {p : Nat} (hp : p < s.ports.length) (hf : (s.port p).failed = []) :
    s.endBringUp p = s.onPort p fun x => { x with lanes := x.lanes.map fun e => { e with badUps := 0 } } := by
  unfold State.endBringUp
  extract_lets sets f bad u
  have hbad (l : Nat) : bad l = false := by
    unfold bad f
    rw [hf, Bool.and_eq_false_iff]
    by_cases hany : (sets.any fun x => x.contains l) = true
    · obtain ⟨x, hx, hl⟩ := List.any_eq_true.1 hany
      exact .inr (List.all_eq_false.2 ⟨x, hx, by rw [hl]; simp⟩)
    · exact .inl (Bool.eq_false_iff.2 hany)
  have hu : u = s.onPort p fun x => { x with lanes := x.lanes.map fun e => { e with badUps := 0 } } := by
    refine State.onPort_congr ?_
    simp only [hbad, Bool.false_eq_true, if_false]
    congr 1
    exact map_zipIdx_fst (fun e : Lane => { e with badUps := 0 }) _
  refine (List.foldl_fixed' (fun l => if_neg ?_) _).trans hu
  have hzero : (nth ((s.port p).lanes.map fun e : Lane => { e with badUps := 0 }) l {}).badUps = 0 := by
    unfold nth
    rw [List.getD_eq_getElem?_getD, List.getElem?_map]
    cases (s.port p).lanes[l]? <;> rfl
  rw [hu, State.port_onPort_self hp, hzero]
  decide

/-! ### The rows -/

section
variable {p : PortIx} {s : State}

/-- A port tries a lane set, or fails (R539 to R542). -/
theorem execLinkBringUp_eq (sh2 : Bool) (hx : (s.port p.val).link < 2) (ht : (s.port p.val).trying = none) (hr : s.boot.rails = true)
    (hf : bit s.pwr.force 4 = false) (hb : s.boot.bootSel = 2 → p.val < 2) {u : State}
    (hu : u = if (s.port p.val).link = 0 then s.onPort p.val fun x =>
        { x with link := 1, typeNow := x.cfg.type, directEn := x.cfg.direct = 1 && !x.fell, peerSh2 := sh2, setIx := 0
                 passes := 0, failed := [] } else s) :
    (∀ l, (u.laneSets p.val)[(u.port p.val).setIx]? = some l →
      exec (.linkBringUp p sh2) s = .next (u.onPort p.val fun x => { x with trying := some l })) ∧
    ((u.laneSets p.val)[(u.port p.val).setIx]? = none → exec (.linkBringUp p sh2) s = .next (u.portFailed p.val)) := by
  have hno : (decide (2 ≤ (s.port p.val).link) || (s.port p.val).trying.isSome || !s.boot.rails || bit s.pwr.force 4 ||
      (decide (s.boot.bootSel = 2) && decide (2 ≤ p.val))) = false := by
    rw [ht, hr, hf]
    have : ¬ (s.boot.bootSel = 2 ∧ 2 ≤ p.val) := fun ⟨h1, h2⟩ => by
      have := hb h1
      omega
    simpa using ⟨Nat.le_of_lt_succ hx, fun h => by have := hb h; omega⟩
  subst hu
  rw [exec_linkBringUp, execLinkBringUp]
  have hif : ¬ (decide ((s.port p.val).link ≥ 2) || (s.port p.val).trying.isSome || !s.boot.rails || bit s.pwr.force 4 ||
      (decide (s.boot.bootSel = 2) && decide (2 ≤ p.val))) = true := by
    rw [show decide ((s.port p.val).link ≥ 2) = decide (2 ≤ (s.port p.val).link) from rfl, hno]
    exact Bool.false_ne_true
  constructor
  · intro l hl
    refine (if_neg hif).trans ?_
    dsimp only
    rw [hl]
  · intro hl
    refine (if_neg hif).trans ?_
    dsimp only
    rw [hl]

/-- The link of a port after its record has changed. -/
theorem State.link_onPort_ite (hp : p.val < s.ports.length) (f : Port → Port) (j : Nat) :
    ((s.onPort p.val f).port j).link = if j = p.val then (f (s.port p.val)).link else (s.port j).link := by
  split
  · next h => rw [h, State.port_onPort_self hp]
  · next h => rw [State.port_onPort_ne h]

/-- What training leaves: the link is up on its set, and what sending changes has changed. -/
structure Trained (s t : State) (p : Nat) (l : List Nat) (direct : Bool) : Prop where
  port : (t.port p).link = 2 ∧ (t.port p).inUse = l ∧ (t.port p).trying = none ∧ (t.port p).retraining = false ∧
    (t.port p).direct = direct
  flash : t.flash = s.flash
  links : ∀ j, (t.port j).link = if j = p then 2 else (s.port j).link

theorem Trained.after {s t u : State} {p : Nat} {l : List Nat} {direct : Bool} (h : Trained s t p l direct) (hk : LinksKept t u)
    (hf : u.flash = t.flash) : Trained s u p l direct where
  port := by
    rw [hk.port p]
    exact h.port
  flash := hf.trans h.flash
  links j := by
    rw [hk.port j]
    exact h.links j

theorem execLinkTrained_trained (hp : p.val < s.ports.length) (delay : Nat) {l : List Nat} (ht : (s.port p.val).trying = some l)
    (hc : (s.port p.val).retraining = true ∨ (s.port p.val).failed = []) :
    Does (.linkTrained p delay) s fun t =>
      Trained s t p.val l ((s.port p.val).directWanted && decide (delay ≤ 250)) := by
  refine ⟨_, by rw [exec_linkTrained, execLinkTrained, ht], ?_⟩
  dsimp only
  set x := s.port p.val
  set u := s.onPort p.val fun x => { x with
    link := 2, inUse := l, trying := none, retraining := false, trained := true, lldpDue := s.now
    direct := x.directWanted && decide (delay ≤ 250) } with hu
  have h1 : Trained s u p.val l (x.directWanted && decide (delay ≤ 250)) := by
    refine ⟨?_, rfl, fun j => ?_⟩
    · rw [hu, State.port_onPort_self hp]
      exact ⟨rfl, rfl, rfl, rfl, rfl⟩
    · rw [hu, State.link_onPort_ite hp]
  have h2 : Trained s (if x.retraining = true then u.report 2 5 0x270 p.val else u.endBringUp p.val) p.val l
      (x.directWanted && decide (delay ≤ 250)) := by
    split
    · rw [State.report_eq]
      exact h1.after (.of_ports rfl) rfl
    · next hr =>
      have hlen : p.val < u.ports.length := by rw [hu, State.onPort, setAt_length]; exact hp
      have hfail : (u.port p.val).failed = [] := by
        rw [hu, State.port_onPort_self hp]
        exact hc.resolve_left hr
      rw [State.endBringUp_of_clean hlen hfail]
      refine ⟨?_, h1.flash, fun j => ?_⟩
      · rw [State.port_onPort_self hlen]
        exact h1.port
      · rw [State.link_onPort_ite hlen]
        split
        · exact h1.port.1
        · next hj => rw [h1.links j, if_neg hj]
  generalize (if x.retraining = true then u.report 2 5 0x270 p.val else u.endBringUp p.val) = v at h2
  have h3 : Trained s (if (x.directWanted && decide (250 < delay)) = true then v.fallbackEvent p.val else v) p.val l
      (x.directWanted && decide (delay ≤ 250)) := by
    split
    · exact h2.after (State.raise_linksKept ..) (by rw [State.fallbackEvent, v.raise_halterOnly])
    · exact h2
  generalize (if (x.directWanted && decide (250 < delay)) = true then v.fallbackEvent p.val else v) = w at h3
  exact h3.after (State.resetEnds_linksKept ..) (by rw [w.resetEnds_halterOnly])

theorem State.port_linkDown (hp : p.val < s.ports.length) (k : Nat) : (s.linkDown p.val k).port p.val = { s.port p.val with
    link := k, inUse := [], direct := false, trying := none, retraining := false, setIx := 0, passes := 0
    failed := [], unacked := [], txSeq := 0, replayTimes := [], frameTimes := [], uncorrTimes := []
    paused := [], rxHeld := [], rxPaused := [] } :=
  State.port_onPort_self hp _

theorem State.link_linkDown (hp : p.val < s.ports.length) (k : Nat) : ((s.linkDown p.val k).port p.val).link = k :=
  congrArg Port.link (State.port_linkDown hp k)

/-- A lane that is retired takes its link down (R544). -/
theorem State.retireLane_retired (hp : p.val < s.ports.length) (hl : (s.port p.val).link = 2) {l : Nat}
    (hb : bit (Tbl.get 0 s.flash.lanes p.val) l = false) :
    ((s.retireLane p.val l).port p.val).link = 0 ∧
    (s.retireLane p.val l).flash = { s.flash with lanes := Tbl.upd 0 s.flash.lanes p.val (· ||| 2 ^ l) } := by
  unfold State.retireLane
  rw [if_neg (by rw [hb]; exact Bool.false_ne_true)]
  extract_lets flash u w v
  have hv : v = u.linkDown p.val := if_neg (by rw [show u.port p.val = s.port p.val from rfl, hl]; decide)
  have hk := (v.report 3 5 0x30 (p.val + 256 * l)).raise_linksKept { code := 0x30, payload := [p.val, l, w] }
  have hh := (v.report 3 5 0x30 (p.val + 256 * l)).raise_halterOnly { code := 0x30, payload := [p.val, l, w] }
  have hr := v.report_eq 3 5 0x30 (p.val + 256 * l) 0 0 0
  constructor
  · rw [hk.port]
    dsimp only
    rw [hr, hv]
    exact State.link_linkDown (s := u) hp 0
  · rw [hh, hr, hv]
    rfl

/-- A link that loses its lock for less than the fourth time in 60 s retrains on the lanes that it uses (R543). -/
theorem State.retrain_again {lane : Option Nat}
    (hn : (((s.port p.val).retrainTimes.filter fun t => s.now < t + 60000000000) ++ [s.now]).length < 4) :
    s.retrain p.val lane = (State.linkDown (s.onPort p.val fun x => { x with
      retrains := satAdd 16 x.retrains 1
      retrainTimes := ((s.port p.val).retrainTimes.filter fun t => s.now < t + 60000000000) ++ [s.now] }) p.val 1).onPort p.val fun y =>
        { y with trying := some (s.port p.val).inUse, retraining := true } := by
  unfold State.retrain
  extract_lets x ts u
  have hd : decide (4 ≤ ts.length) = false := decide_eq_false (Nat.not_le.2 hn)
  rw [hd]

/-- What a retrain leaves (R543, R546). -/
theorem State.retrain_retraining (hp : p.val < s.ports.length) {lane : Option Nat}
    (hn : (((s.port p.val).retrainTimes.filter fun t => s.now < t + 60000000000) ++ [s.now]).length < 4) :
    let t := s.retrain p.val lane
    (t.port p.val).link = 1 ∧ (t.port p.val).trying = some (s.port p.val).inUse ∧ (t.port p.val).retraining = true ∧
    (t.port p.val).retrains = satAdd 16 (s.port p.val).retrains 1 ∧ (t.port p.val).lanes = (s.port p.val).lanes ∧
    (∀ w ∈ t.txWait, w.1 ≠ p.val) ∧ t = { s with ports := t.ports, txWait := t.txWait } := by
  rw [State.retrain_again hn]
  have hport := State.port_onPort_self hp fun x => { x with
    retrains := satAdd 16 x.retrains 1
    retrainTimes := ((s.port p.val).retrainTimes.filter fun t => s.now < t + 60000000000) ++ [s.now] }
  set u := s.onPort p.val fun x => { x with
    retrains := satAdd 16 x.retrains 1
    retrainTimes := ((s.port p.val).retrainTimes.filter fun t => s.now < t + 60000000000) ++ [s.now] } with hu
  have hlen : p.val < u.ports.length := by rw [hu, State.onPort, setAt_length]; exact hp
  have hdown := State.port_linkDown hlen 1
  have hlen' : p.val < (u.linkDown p.val 1).ports.length := by
    rw [State.linkDown, State.txDiscard, State.onPort, setAt_length]
    exact hlen
  dsimp only
  rw [State.port_onPort_self hlen', hdown, hport]
  refine ⟨rfl, rfl, rfl, rfl, rfl, fun w hw => ?_, rfl⟩
  have := (List.mem_filter.1 hw).2
  simpa using this

end

/-- Settles O35: each row's branch, and what it makes of the port's record. -/
theorem portLinks : Obligations.PortLinks := by
  intro p s hlen x
  have hp : p.val < s.ports.length := by rw [hlen]; exact p.isLt
  refine ⟨?_, ?_, ?_, ?_, ?_, ?_, ?_, ?_, ?_, ?_, ?_⟩
  · intro sh2 l hl ht hr hf hb y hset
    have hu : s.onPort p.val (fun _ => y) = if (s.port p.val).link = 0 then s.onPort p.val fun x =>
        { x with link := 1, typeNow := x.cfg.type, directEn := x.cfg.direct = 1 && !x.fell, peerSh2 := sh2, setIx := 0
                 passes := 0, failed := [] } else s := by
      rw [if_pos hl]
      symm
      exact State.onPort_const ..
    have hy : (s.onPort p.val fun _ => y).port p.val = y := State.port_onPort_self hp _
    refine does_onPort hp ?_
    rw [(execLinkBringUp_eq sh2 (by rw [show (s.port p.val).link = 0 from hl]; decide) ht hr hf hb hu).1 l (by rw [hy]; exact hset),
      State.onPort_onPort]
    exact next_onPort rfl
  · intro sh2 l hl ht hr hf hb hset
    have hu : s = if (s.port p.val).link = 0 then s.onPort p.val fun x =>
        { x with link := 1, typeNow := x.cfg.type, directEn := x.cfg.direct = 1 && !x.fell, peerSh2 := sh2, setIx := 0
                 passes := 0, failed := [] } else s := by
      rw [if_neg (by rw [show (s.port p.val).link = 1 from hl]; decide)]
    refine does_onPort hp ?_
    rw [(execLinkBringUp_eq sh2 (by rw [show (s.port p.val).link = 1 from hl]; decide) ht hr hf hb hu).1 l hset]
    exact next_onPort rfl
  · intro sh2 hl ht hr hf hb hset
    have hu : s = if (s.port p.val).link = 0 then s.onPort p.val fun x =>
        { x with link := 1, typeNow := x.cfg.type, directEn := x.cfg.direct = 1 && !x.fell, peerSh2 := sh2, setIx := 0
                 passes := 0, failed := [] } else s := by
      rw [if_neg (by rw [show (s.port p.val).link = 1 from hl]; decide)]
    exact (execLinkBringUp_eq sh2 (by rw [show (s.port p.val).link = 1 from hl]; decide) ht hr hf hb hu).2 hset
  · intro delay l ht hc
    obtain ⟨t, hx, ⟨h1, h2, h3, h4, h5⟩, hflash, hlinks⟩ := execLinkTrained_trained hp delay ht hc
    exact ⟨t, hx, h1, h2, h3, h4, h5, hflash, hlinks⟩
  · intro l ht hre y n
    have hx : exec (.linkTrainFail p) s = .next (
        if x.setIx + 1 < n then s.onPort p.val fun _ => y
        else if x.passes + 1 < 4 then s.onPort p.val fun _ => { y with setIx := 0, passes := x.passes + 1 }
        else (s.onPort p.val fun _ => y).portFailed p.val) := by
      have hy : s.onPort p.val (fun x => { x with trying := none, failed := x.failed.filter (· ≠ l) ++ [l], setIx := x.setIx + 1 }) =
          s.onPort p.val fun _ => y := State.onPort_congr rfl
      rw [exec_linkTrainFail, execLinkTrainFail, show (s.port p.val).trying = some l from ht]
      dsimp only
      rw [if_neg (by rw [show (s.port p.val).retraining = false from hre]; exact Bool.false_ne_true), hy, State.onPort_onPort]
      simp only [apply_ite Host.Outcome.next]
      rfl
    refine ⟨fun h => does_onPort hp ?_, fun h1 h2 => does_onPort hp ?_, fun h1 h2 => ?_⟩
    · rw [hx, if_pos h]
    · rw [hx, if_neg (by omega), if_pos (by omega)]
    · rw [hx, if_neg (by omega), if_neg (by omega)]
  · intro ht hre
    obtain ⟨l, hl⟩ := Option.ne_none_iff_exists'.1 ht
    rw [exec_linkTrainFail, execLinkTrainFail, show (s.port p.val).trying = some l from hl]
    exact if_pos hre
  · intro l hl hm hn
    set u := s.onPort p.val fun x => { x with lanes := setAt x.lanes l.val fun e => { e with lockLoss := satAdd 16 e.lockLoss 1 } } with hu
    have hport : u.port p.val = { x with lanes := setAt x.lanes l.val fun e => { e with lockLoss := satAdd 16 e.lockLoss 1 } } :=
      State.port_onPort_self hp _
    have hlen : p.val < u.ports.length := by rw [hu, State.onPort, setAt_length]; exact hp
    have hx : exec (.laneLossOfLock p l) s = .next (u.retrain p.val (some l.val)) := by
      rw [exec_laneLossOfLock, execLaneLossOfLock, if_neg (by
        simp [show (s.port p.val).link = 2 from hl, show l.val ∈ (s.port p.val).inUse from hm])]
    obtain ⟨h1, h2, h3, h4, h5, h6, h7⟩ := State.retrain_retraining (lane := some l.val) hlen (by
      rw [hport, List.length_append]
      exact Nat.succ_lt_succ hn)
    rw [hport] at h2 h4 h5
    exact ⟨_, hx, h1, h2, h3, h4, h5, h6, by rw [h7]; rfl⟩
  · intro l errs symbols words hl hd hm
    have hx : exec (.laneSerWindow p l errs symbols words) s = .next (
        if symbols < 1000 * errs then (s.onPort p.val fun _ => { x with
            lanes := setAt x.lanes l.val (fun e => { e with symErr := satAdd 32 e.symErr errs })
            cnt := { x.cnt with fecCorrected := satAdd 32 x.cnt.fecCorrected words } }).retireLane p.val l.val
        else s.onPort p.val fun _ => { x with
            lanes := setAt x.lanes l.val (fun e => { e with symErr := satAdd 32 e.symErr errs })
            cnt := { x.cnt with fecCorrected := satAdd 32 x.cnt.fecCorrected words } }) := by
      rw [exec_laneSerWindow, execLaneSerWindow, if_neg (by simp [show (s.port p.val).link = 2 from hl,
        show (s.port p.val).direct = false from hd, show l.val ∈ (s.port p.val).inUse from hm])]
      dsimp only
      rw [State.onPort_const]
    refine ⟨fun h => does_onPort hp ?_, fun h hb => ⟨_, hx.trans (by rw [if_pos h]), ?_⟩⟩
    · rw [hx, if_neg (by omega)]
    · set u := s.onPort p.val fun _ => { x with
        lanes := setAt x.lanes l.val (fun e => { e with symErr := satAdd 32 e.symErr errs })
        cnt := { x.cnt with fecCorrected := satAdd 32 x.cnt.fecCorrected words } } with hu
      have hlen : p.val < u.ports.length := by rw [hu, State.onPort, setAt_length]; exact hp
      obtain ⟨hlink, hflash⟩ := State.retireLane_retired (s := u) hlen (by rw [hu, State.port_onPort_self hp]; exact hl) hb
      rw [hflash]
      refine ⟨?_, hlink, fun j hj => Tbl.get_upd_ne hj s.flash.lanes (· ||| 2 ^ l.val)⟩
      refine (congrArg (bit · l.val) (Tbl.get_upd_self s.flash.lanes p.val (· ||| 2 ^ l.val))).trans ?_
      simp [bit, Nat.testBit_or, Nat.testBit_two_pow_self]
  · intro l hl hd ts y
    have hx : exec (.uncorrectableCodeword p l) s = .next (if 10 < ts.length then
        (s.onPort p.val fun _ => y).retrain p.val (some l.val) else s.onPort p.val fun _ => y) := by
      rw [exec_uncorrectableCodeword, execUncorrectableCodeword,
        if_neg (by simp [show (s.port p.val).link = 2 from hl, show (s.port p.val).direct = false from hd])]
      have hy : s.onPort p.val (fun x => { x with uncorrTimes := ts, cnt := { x.cnt with fecUncorr := satAdd 32 x.cnt.fecUncorr 1 } }) =
          s.onPort p.val fun _ => y := State.onPort_congr rfl
      rw [← hy]
    exact ⟨fun h => does_onPort hp (by rw [hx, if_neg (by omega)]), fun h => by rw [hx, if_pos h]⟩
  · intro seq hl hd hu keep again rs hfew hn
    obtain ⟨u, hmem, hseq⟩ := hu
    have hany : ((s.port p.val).unacked.any fun u => u.1 == seq.val) = true := List.any_eq_true.2 ⟨u, hmem, by simp [hseq]⟩
    have hno : (again.any fun u => decide (8 ≤ u.2.2)) = false := List.any_eq_false.2 fun u hu => by
      have := hn u hu
      simp; omega
    have hx : exec (.directReplay p seq) s = .next (s.onPort p.val fun x => { x with
        unacked := keep ++ again, replayTimes := rs, frameTimes := (s.port p.val).frameTimes.filter fun t => s.now < t + 1000000000
        cnt := { x.cnt with replays := satAdd 32 x.cnt.replays again.length } }) := by
      rw [exec_directReplay, execDirectReplay, if_neg (by simp [show (s.port p.val).link = 2 from hl, show (s.port p.val).direct = true from hd, hany])]
      refine if_neg ?_
      rw [Bool.or_eq_true, not_or]
      exact ⟨by rw [decide_eq_true_eq]; exact Nat.not_lt.2 hfew, by rw [Bool.not_eq_true]; exact hno⟩
    refine ⟨_, hx, s.onPort_portOnly .., ?_⟩
    rw [State.port_onPort_self hp]
    exact ⟨rfl, rfl, hd⟩
  · intro seq hl hd hu
    obtain ⟨u, hmem, hseq⟩ := hu
    have hany : ((s.port p.val).unacked.any fun u => u.1 == seq.val) = true := List.any_eq_true.2 ⟨u, hmem, by simp [hseq]⟩
    refine does_txDrain hp ?_
    rw [exec_directModeAck, execDirectModeAck, if_neg (by simp [show (s.port p.val).link = 2 from hl, show (s.port p.val).direct = true from hd, hany])]
    exact next_txDrain rfl

end Sys2Proof.Machine
end

section
/-! Time: pulses, sources, clocks and PTP (R705, R714, R718 to R725). -/

namespace Sys2Proof.Machine

/-! ### A P-state brought to its target -/

/-- From `s` to `t` at most the power state, without what forces P5. -/
structure ForceKept (s t : State) : Prop where
  only : PwrOnly s t
  force : t.pwr.force = s.pwr.force

theorem ForceKept.refl (s : State) : ForceKept s s := ⟨.refl s, rfl⟩

theorem ForceKept.trans {s t u : State} (hst : ForceKept s t) (htu : ForceKept t u) : ForceKept s u :=
  ⟨hst.only.trans htu.only, htu.force.trans hst.force⟩

theorem State.onPr_forceKept (s : State) (g : Nat) (f : PwrRegion → PwrRegion) : ForceKept s (s.onPr g f) := ⟨rfl, rfl⟩

theorem State.setVolts_forceKept (s : State) (ps : Nat) : ForceKept s (s.setVolts ps) :=
  foldl_related ForceKept.refl ForceKept.trans (fun _ _ => State.onPr_forceKept ..) _ s

theorem State.announce_forceKept (s : State) (ps wait : Nat) : ForceKept s (s.announce ps wait) := by
  unfold State.announce
  extract_lets up groups c u
  have hu : ForceKept s u := ⟨rfl, rfl⟩
  split
  · exact hu.trans (State.setVolts_forceKept ..)
  · exact hu

theorem State.retarget_forceKept (s : State) (forced : Bool) : ForceKept s (s.retarget forced) := by
  unfold State.retarget
  extract_lets t cur pending soon
  by_cases hsame : t = pending
  · rw [if_pos hsame]
    exact .refl s
  rw [if_neg hsame]
  by_cases hcur : t = cur
  · rw [if_pos hcur]
    split
    · exact ForceKept.trans (t := s.onPwr fun p => { p with change := none }) ⟨rfl, rfl⟩ (State.setVolts_forceKept ..)
    · exact .refl s
  rw [if_neg hcur]
  by_cases hwait : (t < cur && if pending = cur then soon else t < pending) = true
  · rw [if_pos hwait]
    exact .refl s
  · rw [if_neg hwait]
    exact State.announce_forceKept ..

theorem State.forceOn_forced (s : State) (k : Nat) : PwrOnly s (s.forceOn k) ∧ bit (s.forceOn k).pwr.force k = true := by
  have h := State.retarget_forceKept (s.onPwr fun p => { p with force := p.force ||| 2 ^ k }) true
  refine ⟨PwrOnly.trans (t := s.onPwr fun p => { p with force := p.force ||| 2 ^ k }) rfl h.only, ?_⟩
  unfold State.forceOn
  rw [h.force]
  simp [State.onPwr, bit, Nat.testBit_or, Nat.testBit_two_pow_self]

/-! ### The loss of the reference clock -/

/-- Every port but a failed one goes down (R546, R705). -/
theorem State.link_allDown (s : State) (hs : s.ports.length = 18) (n : Nat) (hn : n ≤ 18) :
    let t := (List.range n).foldl (fun s p => if (s.port p).link = 3 then s else s.linkDown p) s
    t.ports.length = 18 ∧ ∀ j, (t.port j).link = if j < n ∧ (s.port j).link ≠ 3 then 0 else (s.port j).link := by
  induction n with
  | zero => exact ⟨hs, fun j => by simp⟩
  | succ n ih =>
    obtain ⟨hlen, hl⟩ := ih (by omega)
    intro t
    have ht : t = let u := (List.range n).foldl (fun s p => if (s.port p).link = 3 then s else s.linkDown p) s
        if (u.port n).link = 3 then u else u.linkDown n := by
      unfold t
      rw [List.range_succ, List.foldl_append]
      rfl
    generalize (List.range n).foldl (fun s p => if (s.port p).link = 3 then s else s.linkDown p) s = u at *
    have hn' : n < u.ports.length := by omega
    rw [ht]
    dsimp only
    split
    · next h3 =>
      have hs3 : (s.port n).link = 3 := by simpa using (hl n).symm.trans h3
      refine ⟨hlen, fun j => (hl j).trans ?_⟩
      by_cases hj : j = n
      · rw [hj, hs3]
        simp
      · exact if_congr (and_congr_left' (by omega)) rfl rfl
    · next h3 =>
      have hs3 : (s.port n).link ≠ 3 := fun h => h3 ((hl n).trans (by simp [h]))
      refine ⟨by rw [State.linkDown, State.txDiscard, State.onPort, setAt_length]; exact hlen, fun j => ?_⟩
      by_cases hj : j = n
      · subst hj
        rw [if_pos ⟨by omega, hs3⟩]
        exact congrArg Port.link (State.port_onPort_self hn' _)
      · refine (congrArg Port.link (State.port_onPort_ne hj _)).trans ((hl j).trans ?_)
        exact if_congr (and_congr_left' (by omega)) rfl rfl

/-- From `s` to `t` at most the ports and the frames that wait. -/
def PortsOnly (s t : State) : Prop := t = { s with ports := t.ports, txWait := t.txWait }

theorem PortsOnly.refl (s : State) : PortsOnly s s := rfl

theorem PortsOnly.trans {s t u : State} (hst : PortsOnly s t) (htu : PortsOnly t u) : PortsOnly s u := by
  rw [PortsOnly, htu, hst]

theorem State.linkDown_portsOnly (s : State) (p k : Nat) : PortsOnly s (s.linkDown p k) := rfl

theorem State.allDown_portsOnly (s : State) (n : Nat) :
    PortsOnly s ((List.range n).foldl (fun s p => if (s.port p).link = 3 then s else s.linkDown p) s) :=
  foldl_related PortsOnly.refl PortsOnly.trans (fun u p => by
    by_cases h : (u.port p).link = 3
    · rw [if_pos h]
      exact .refl u
    · rw [if_neg h]
      exact u.linkDown_portsOnly p 0) _ s

/-- The loss of the reference clock where it is not known yet (R705). -/
theorem does_refclkLoss (s : State) (hs : s.ports.length = 18) (hr : s.boot.rails = true) (hf : bit s.pwr.force 4 = false) :
    Does .refclkLoss s fun t => t.time.refclk = false ∧ bit t.pwr.force 4 = true ∧
      ∀ j, j < 18 → (t.port j).link = if (s.port j).link = 3 then 3 else 0 := by
  have hdown := (State.link_allDown (s.onTime fun t => { t with refclk := false }) hs 18 le_rfl).2
  have honly := (s.onTime fun t => { t with refclk := false }).allDown_portsOnly 18
  have hno : ¬ (!(s.onTime fun t => { t with refclk := false }).boot.rails ||
      bit (s.onTime fun t => { t with refclk := false }).pwr.force 4) = true := by
    rw [show (s.onTime fun t => { t with refclk := false }).boot.rails = true from hr,
      show bit (s.onTime fun t => { t with refclk := false }).pwr.force 4 = false from hf]
    decide
  refine ⟨_, by rw [exec_refclkLoss, execRefclkLoss]; exact if_neg hno, ?_⟩
  generalize List.foldl _ _ (List.range 18) = u at hdown honly ⊢
  obtain ⟨hpwr, hforce⟩ := u.forceOn_forced 4
  have hk := ((u.forceOn 4).report 5 0xB 0x74 0).raise_linksKept { code := 0x74, payload := [((u.forceOn 4).report 5 0xB 0x74 0).now] }
  have hh := ((u.forceOn 4).report 5 0xB 0x74 0).raise_halterOnly { code := 0x74, payload := [((u.forceOn 4).report 5 0xB 0x74 0).now] }
  have hrep := (u.forceOn 4).report_eq 5 0xB 0x74 0 0 0 0
  refine ⟨?_, ?_, fun j hj => ?_⟩
  · rw [hh, hrep, hpwr, honly]
    rfl
  · rw [hh, hrep]
    exact hforce
  · rw [hk.port]
    have hport : ((u.forceOn 4).report 5 0xB 0x74 0).port j = u.port j := by rw [hrep, hpwr]; rfl
    rw [hport]
    refine (hdown j).trans ?_
    by_cases h3 : (s.port j).link = 3
    · rw [if_pos h3]
      exact (if_neg fun h => h.2 h3).trans h3
    · rw [if_neg h3]
      exact if_pos ⟨hj, h3⟩

/-- Outside RUNNING a large offset is removed by a step (R720). -/
theorem State.servo_steps {s : State} {o : Int} (hst : s.time.st ≠ 2) (hj : s.hal.job ≠ 2) (ho : 1000000 < o.natAbs) :
    (s.servo o).time.steps = satAdd 16 s.time.steps 1 ∧
    (s.servo o).time.ns = (((s.time.ns : Int) - o) % (2 ^ 64 : Nat)).toNat ∧ (s.servo o).time.st = 1 := by
  have hx : s.servo o = State.timeStep (s.onTime fun t =>
      { t with offset := signed 32 (unsigned 32 o), heard := t.ns, st := if t.st = 2 then 2 else 1 }) o :=
    if_pos (by simp [State.onTime, hj, ho])
  have hst1 : (if s.time.st = 2 then 2 else 1) = 1 := if_neg hst
  rw [hx]
  unfold State.timeStep
  extract_lets u v
  have hh := v.raise_halterOnly { code := 0x73, payload := [unsigned 64 (-o)] }
  rw [hh]
  exact ⟨rfl, rfl, hst1⟩

/-- Settles O36: a pulse's branches; a loss that is told changes only what says so; PTP's messages change their port. -/
theorem sharedTime : Obligations.SharedTime := by
  refine ⟨?_, ?_, ?_, ?_, ?_, ?_, ?_, ?_, ?_⟩
  · intro s sub c pps
    have hx : exec (.ppsInEdge sub) s = .next (
        if (pps ∧ s.time.st = 2) ∧ 1000000 < (ppsOffset c).natAbs then
          { s with time := { s.time with capture := c, rejects := satAdd 16 s.time.rejects 1 } }
        else if pps then State.servo { s with time := { s.time with capture := c, lastPps := some s.time.ns } } (ppsOffset c)
        else { s with time := { s.time with capture := c, lastPps := some s.time.ns } }) := by
      have hpps : (decide (s.time.src = 2) || decide (s.time.src = 3)) = decide pps := (Bool.decide_or _ _).symm
      rw [exec_ppsInEdge, execPpsInEdge, hpps]
      simp only [apply_ite Host.Outcome.next, Bool.and_eq_true, decide_eq_true_eq]
      rfl
    refine ⟨fun h1 h2 h3 => ⟨_, hx, ?_⟩, fun h => ⟨_, hx, ?_⟩, fun h1 h2 => ?_, fun h1 h2 h3 h4 => ⟨_, hx, ?_⟩⟩
    · rw [if_pos ⟨⟨h1, h2⟩, h3⟩]
    · rw [if_neg fun hc => h hc.1.1, if_neg h]
    · rw [hx, if_neg (by rintro ⟨⟨-, h⟩, h'⟩; rcases h2 with h2 | h2 <;> omega), if_pos h1]
    · rw [if_neg fun hc => h2 hc.1.2, if_pos h1]
      exact State.servo_steps (s := { s with time := { s.time with capture := c, lastPps := some s.time.ns } }) h2 h3 h4
  · intro s h0 hst hl
    refine ⟨_, by rw [exec_timeSourceSilence, execTimeSourceSilence, if_neg (by simp [h0]; exact ⟨fun h => hst.resolve_left h, hl⟩)], ?_⟩
    have hh := State.raise_halterOnly (s.onTime fun t => { t with st := 3, good := 0, holdovers := satAdd 16 t.holdovers 1 })
      { code := 0x71, payload := [s.time.src, unsigned 32 s.time.rate] }
    generalize State.raise (s.onTime _) _ = t at hh ⊢
    rw [hh]
    exact ⟨rfl, rfl⟩
  · intro s ho h8
    rw [exec_ppsOutEdge, execPpsOutEdge, if_neg (by simp [ho]; exact h8)]
  · intro s a ho ha hl
    rw [exec_ppsOutFall, execPpsOutFall, ha]
    exact if_neg (by simp [ho]; exact hl)
  · exact does_refclkLoss
  · intro s
    rw [exec_refclkReturn]
    rfl
  · intro s ht
    refine ⟨_, by rw [exec_timeclkLoss, execTimeclkLoss, if_neg (by simp [ht])], ?_⟩
    have hh := State.raise_halterOnly (s.onTime fun t => { t with timeclkOk := false }) { code := 0x72, payload := [s.now - s.time.timeclkSince] }
    generalize State.raise (s.onTime _) _ = t at hh ⊢
    rw [hh]
    exact ⟨rfl, rfl⟩
  · intro s h1 h2
    rw [exec_timeclkReturn, execTimeclkReturn, if_neg (by simp [h1, h2])]
    rfl
  · intro p s hlen hl hp x on
    have hlt : p.val < s.ports.length := by rw [hlen]; exact p.isLt
    have hport (len : Nat) : (s.rxCount p.val len).port p.val = { s.port p.val with cnt := { (s.port p.val).cnt with
        rxFrames := satAdd 64 (s.port p.val).cnt.rxFrames 1, rxBytes := satAdd 64 (s.port p.val).cnt.rxBytes len } } :=
      State.port_onPort_self hlt _
    have hlink (len : Nat) : ((s.rxCount p.val len).port p.val).link = 2 := by rw [hport]; exact hl
    have hptp (len : Nat) : ((s.rxCount p.val len).port p.val).ptp = x := by rw [hport]
    have hbit (len : Nat) : bit (s.rxCount p.val len).time.ptpPorts p.val = true := hp
    have hon (len d : Nat) (hd : on d) : ¬ (decide (((s.rxCount p.val len).port p.val).link ≠ 2) ||
        !bit (s.rxCount p.val len).time.ptpPorts p.val || decide (d ≠ (s.rxCount p.val len).time.ptpDomain)) = true := by
      rw [hlink, hbit, show d = (s.rxCount p.val len).time.ptpDomain from hd]
      simp
    refine ⟨fun len => ⟨fun m d sub u hd => ?_, fun q o d sub u hd hx => ?_, fun q o d sub u hd hx => does_onPort hlt ?_,
      fun q d sub u hd hx hz => ?_⟩, fun hx => ?_, fun hx => ?_⟩
    · rw [exec_ptpEventMessage]
      unfold execPtpEventMessage
      rw [if_pos hl]
      refine if_pos ?_
      have hd' : d ≠ (s.rxCount p.val len).time.ptpDomain := hd
      rw [decide_eq_true hd', Bool.or_true]
    · rw [exec_ptpEventMessage, execPtpEventMessage, if_pos hl]
      refine (if_neg (hon len d hd)).trans ?_
      rw [hptp, if_neg (not_not.2 hx)]
      rfl
    · rw [exec_ptpEventMessage, execPtpEventMessage, if_pos hl]
      refine (if_neg (hon len d hd)).trans ?_
      rw [hptp, if_neg (not_not.2 hx), if_pos rfl]
      refine (congrArg _ (State.rxCount_onPort hlt len _)).trans ?_
      rw [hptp]
      rfl
    · rw [exec_ptpEventMessage, execPtpEventMessage, if_pos hl]
      refine (if_neg (hon len d hd)).trans ?_
      rw [hptp, if_pos (by simp [hx]; exact hz)]
      rfl
    · rw [exec_ptpIntervalTimer, execPtpIntervalTimer, if_neg (by simp [hl, hp])]
      refine (if_neg (not_not.2 hx)).trans ?_
      have hseq : (s.onPtp p.val fun y => { y with syncSeq := (y.syncSeq + 1) % 65536 }) =
          s.onPort p.val fun y => { y with ptp := { y.ptp with syncSeq := (x.syncSeq + 1) % 65536 } } := State.onPort_congr rfl
      rw [hseq]
    · rw [exec_ptpIntervalTimer, execPtpIntervalTimer, if_neg (by simp [hl, hp])]
      exact if_neg (not_not.2 hx)

end Sys2Proof.Machine
end

section
/-! Acceptance of Halter's commands (R567, R572, R573, R575 to R577, R588). -/

namespace Sys2Proof.Machine

/-- Every command of a session is taken by the one operation that accepts commands. -/
theorem exec_eq_command {c : Instr} {h : Hdr} {code modes : Nat} {observe : Bool} (hc : commandOf c = some (h, code, modes, observe)) :
    ∃ run : PendCmd → State → State, ∀ s, exec c s = .next (s.command h code modes observe run) := by
  unfold commandOf at hc
  split at hc
  case h_57 h' code' =>
    split at hc
    · cases hc
    · next hk =>
      cases hc
      exact ⟨_, fun s => if_neg hk⟩
  all_goals cases hc
  all_goals exact ⟨_, fun s => rfl⟩

section
variable {s : State} {h : Hdr} {code modes : Nat} {observe : Bool} {run : PendCmd → State → State}

theorem State.command_closed (hx : s.session h.session = none) :
    s.command h code modes observe run = { s.rxCount h.port h.len with hal := { s.hal with authFails := satAdd 16 s.hal.authFails 1 } } := by
  unfold State.command
  rw [hx]
  rfl

theorem State.command_kept {x : Session} (hx : s.session h.session = some x) {r : Reply}
    (hr : (x.replies.find? fun r => r.seq == h.seq) = some r) :
    s.command h code modes observe run = (s.heardFrom h).reject h r.code r.status r.payload := by
  unfold State.command
  simp only [hx, hr]

/-- What becomes of a command whose number has no reply yet. -/
theorem State.command_new {x : Session} (hx : s.session h.session = some x)
    (hr : (x.replies.find? fun r => r.seq == h.seq) = none) :
    s.command h code modes observe run =
      if h.seq + 1024 ≤ x.high then (s.heardFrom h).reject h code 9
      else if (h.mailbox = code / 256 && 64 ≤ s.mailboxUsed (code / 256)) = true then
        State.reject ((s.heardFrom h).draw 32).2 h code 5 (toBytes 4 (1 + ((s.heardFrom h).draw 32).1 % 1000000))
      else if h.mailbox ≠ code / 256 then (s.accept h).answer (hdrCmd h code s.now) 2
      else if (!observe && !x.control) = true then (s.accept h).answer (hdrCmd h code s.now) 8
      else if (!bit modes s.hal.job) = true then (s.accept h).answer (hdrCmd h code s.now) 7
      else run (hdrCmd h code s.now) (s.accept h) := by
  unfold State.command
  simp only [hx, hr]
  rfl

theorem State.heardFrom_halterOnly (s : State) (h : Hdr) : HalterOnly s (s.heardFrom h) := rfl

theorem State.accept_halterOnly (s : State) (h : Hdr) : HalterOnly s (s.accept h) := rfl

theorem State.reject_halterOnly (s : State) (h : Hdr) (code status : Nat) (payload : Bytes) :
    HalterOnly s (s.reject h code status payload) := State.sendMsg_halterOnly ..

end

/-- Settles O37: every command goes through the one operation that accepts, whose refusals answer and change nothing else. -/
theorem halterAcceptance : Obligations.HalterAcceptance := by
  intro c h code modes observe hc s used cmd
  obtain ⟨run, hrun⟩ := exec_eq_command hc
  refine ⟨fun hx => ?_, fun x hx => ⟨fun r hr => ?_, fun hr => ?_⟩⟩
  · rw [hrun, State.command_closed hx]
  · refine ⟨_, hrun s, ?_⟩
    rw [State.command_kept hx hr]
    exact ⟨(s.heardFrom_halterOnly h).trans (State.reject_halterOnly ..), rfl⟩
  have hnew := State.command_new (code := code) (modes := modes) (observe := observe) (run := run) hx hr
  have hacc (st : Nat) : HalterOnly s ((s.accept h).answer cmd st) := (s.accept_halterOnly h).trans (State.answer_halterOnly ..)
  refine ⟨fun h1 => ⟨_, hrun s, ?_⟩, fun h1 h2 h3 => ⟨_, hrun s, ?_⟩, fun h1 h2 => ⟨_, hrun s, ?_⟩, fun h1 h2 h3 h4 h5 => ⟨_, hrun s, ?_⟩,
    fun h1 h2 h3 h4 h5 => ⟨_, hrun s, ?_⟩⟩
  · rw [hnew, if_pos h1]
    exact ⟨(s.heardFrom_halterOnly h).trans (State.reject_halterOnly ..), rfl⟩
  · rw [hnew, if_neg (by omega), if_pos (by simp [h2]; exact h3)]
    refine ⟨HalterOnly.trans (t := ((s.heardFrom h).draw 32).2) rfl (State.reject_halterOnly ..), _, ?_, ?_, rfl⟩
    · omega
    · have := Nat.mod_lt ((s.heardFrom h).draw 32).1 (show 0 < 1000000 by decide)
      omega
  · rw [hnew, if_neg (by omega), if_neg (by simp [h2]), if_pos h2]
    exact ⟨hacc 2, rfl⟩
  · rw [hnew, if_neg (by omega), if_neg (by simp; exact fun _ => h3), if_neg (not_not.2 h2), if_pos (by simp [h4, h5])]
    exact ⟨hacc 8, rfl⟩
  · rw [hnew, if_neg (by omega), if_neg (by simp; exact fun _ => h3), if_neg (not_not.2 h2),
      if_neg (by rcases h4 with h | h <;> simp [h]), if_pos (by simp [h5])]
    exact ⟨hacc 7, rfl⟩

end Sys2Proof.Machine
end

section
/-! Sessions, their exchange and their events (R562, R566, R568 to R570, R572, R586 to R602, R786 to R793). -/

namespace Sys2Proof.Machine

/-! ### An accepted command -/

section
variable {s : State} {h : Hdr} {code modes : Nat} {observe : Bool}

/-- An accepted command is carried out. -/
theorem Accepted.command_eq (ha : Accepted s h code modes observe) (run : PendCmd → State → State) :
    s.command h code modes observe run = run (hdrCmd h code s.now) (s.accept h) := by
  obtain ⟨⟨x, hx, hr, hhigh, hrole⟩, hbox, hroom, hmode⟩ := ha
  rw [State.command_new hx hr, if_neg (by omega), if_neg (by simp; exact fun _ => hroom), if_neg (not_not.2 hbox),
    if_neg (by rcases hrole with h | h <;> simp [h]), if_neg (by simp [hmode])]

/-- What an accepted command does is what its row gives to the operation that accepts. -/
theorem Accepted.exec_eq {c : Instr} {run : PendCmd → State → State} (ha : Accepted s h code modes observe)
    (hc : exec c s = .next (s.command h code modes observe run)) : exec c s = .next (run (hdrCmd h code s.now) (s.accept h)) := by
  rw [hc, ha.command_eq]

end

/-! ### What an event leaves of Halter's state -/

/-- From `s` to `t` messages of Halter have been sent, and of its own state at most the sessions and the events held and lost have
changed. -/
structure EventsOnly (s t : State) : Prop where
  halter : HalterOnly s t
  hal : t.hal = { s.hal with sessions := t.hal.sessions, eventsLost := t.hal.eventsLost, heldEvents := t.hal.heldEvents }

theorem EventsOnly.refl (s : State) : EventsOnly s s := ⟨.refl s, rfl⟩

theorem EventsOnly.trans {s t u : State} (hst : EventsOnly s t) (htu : EventsOnly t u) : EventsOnly s u :=
  ⟨hst.halter.trans htu.halter, by rw [htu.hal, hst.hal]⟩

theorem SendsOnly.eventsOnly {s t : State} (h : SendsOnly s t) : EventsOnly s t :=
  ⟨h.halterOnly, by rw [h]⟩

theorem State.raise_eventsOnly (s : State) (ev : Event) : EventsOnly s (s.raise ev) := by
  refine ⟨s.raise_halterOnly ev, ?_⟩
  unfold State.raise
  split_ifs
  · rfl
  · dsimp only
    rw [SendsOnly.foldl State.sendMsg_sendsOnly]

/-! ### What records of the log that go out with events leave -/

/-- From `s` to `t` at most Halter's state, the log and what sending changes. -/
def TellsOnly (s t : State) : Prop :=
  t = { s with hal := t.hal, err := t.err, ports := t.ports, txWait := t.txWait, sent := t.sent, freeIx := t.freeIx }

theorem TellsOnly.refl (s : State) : TellsOnly s s := rfl

theorem TellsOnly.trans {s t u : State} (hst : TellsOnly s t) (htu : TellsOnly t u) : TellsOnly s u := by
  rw [TellsOnly, htu, hst]

theorem HalterOnly.tellsOnly {s t : State} (h : HalterOnly s t) : TellsOnly s t := by
  rw [TellsOnly, h]

theorem State.pushLogN_tellsOnly (n : Nat) (s : State) : TellsOnly s (s.pushLogN n) := by
  induction n generalizing s with
  | zero => exact .refl s
  | succ n ih =>
    unfold State.pushLogN
    split
    · exact .refl s
    · next x _ =>
      dsimp only
      split
      · exact .refl s
      · refine TellsOnly.trans ?_ (ih _)
        refine TellsOnly.trans ?_ (State.sendMsg_sendsOnly _ _).halterOnly.tellsOnly
        rfl

theorem State.pushLog_tellsOnly (s : State) : TellsOnly s s.pushLog := State.pushLogN_tellsOnly ..

theorem State.deliverHeld_tellsOnly (s : State) (n : Nat) : TellsOnly s (s.deliverHeld n) := by
  unfold State.deliverHeld
  split
  · exact .refl s
  · dsimp only
    refine TellsOnly.trans ?_ (SendsOnly.foldl State.sendMsg_sendsOnly _ _).halterOnly.tellsOnly
    rfl

theorem State.openSession_tellsOnly (s : State) (x : Exchange) (control : Bool) (port addr : Nat) :
    TellsOnly s (s.openSession x control port addr) := by
  unfold State.openSession
  extract_lets slot k n u
  have hu : TellsOnly s u := rfl
  clear_value u
  split
  · exact hu.trans ((State.deliverHeld_tellsOnly ..).trans (State.pushLog_tellsOnly _))
  · exact hu

theorem State.sendOpen_sendsOnly (s : State) (port addr exch step flags : Nat) (body : Bytes) :
    SendsOnly s (s.sendOpen port addr exch step flags body) :=
  SendsOnly.foldl (fun _ _ => State.sendMsg_sendsOnly ..) _ s

theorem State.raiseHeld_halterOnly (s : State) (ev : Event) : HalterOnly s (s.raiseHeld ev) := by
  unfold State.raiseHeld
  split
  · rfl
  · exact State.raise_halterOnly ..

/-! ### The exchange -/

theorem slice_append (a b c : Bytes) : slice (a ++ (b ++ c)) a.length b.length = b := by simp [slice]

/-- A HELLO that opens an exchange (R568, R788). -/
theorem does_hello {port addr exch flags : Nat} {body : List Byte} {s : State} (hst : s.boot.stage = .ready) (hb : body.length = 1216)
    (he : exch ≠ 0) (hf : flags < 4) (hp : port < 2) (hn : (s.boot.exchanges.find? fun x => x.num == exch) = none) :
    (s.boot.exchanges.length < 2 → Does (.hello port addr exch flags body) s fun t => ∃ x : Exchange,
      x.num = exch ∧ x.flags = flags ∧ x.hello = body ∧ x.session = s.hal.nextSession ∧ x.offered = none ∧
      slice x.offer 32 4 = toBytes 4 s.hal.nextSession ∧
      t = { s.rxCount port (openLen addr body) with
                   freeIx := t.freeIx, hal := { s.hal with nextSession := s.hal.nextSession + 1 }
                   boot := { s.boot with exchanges := s.boot.exchanges ++ [x], signing := s.boot.signing ++ [(0, exch)] } }) ∧
    (2 ≤ s.boot.exchanges.length → exec (.hello port addr exch flags body) s =
      .next ((s.rxCount port (openLen addr body)).sendOpen port addr exch 4 flags ([5, 0, 0, 0] ++ toBytes 4 1000000))) := by
  have hboot : (s.rxCount port (openLen addr body)).boot = s.boot := rfl
  have hno : ¬ (decide ((s.rxCount port (openLen addr body)).boot.stage ≠ .ready) || decide (body.length ≠ 1216) || decide (exch = 0) ||
      decide (4 ≤ flags) || decide (2 ≤ port)) = true := by
    rw [hboot, hst, hb]
    simp only [ne_eq, not_true_eq_false, decide_false, he, Bool.or_self, Bool.false_or, Bool.or_eq_true, decide_eq_true_eq]
    omega
  constructor
  · intro hlen
    refine ⟨_, by rw [exec_hello, execHello, if_neg hno, hboot, hn]; exact if_neg (by omega), ?_⟩
    dsimp only
    refine ⟨_, rfl, rfl, rfl, rfl, rfl, ?_, rfl⟩
    have hslice := slice_append ((((s.rxCount port (openLen addr body)).draws 8 32).1).map (BitVec.ofNat 8)) (toBytes 4 s.hal.nextSession)
    rw [length_toBytes, List.length_map, show ((s.rxCount port (openLen addr body)).draws 8 32).1.length = 32 by simp [State.draws]] at hslice
    simp only [List.append_assoc]
    exact hslice _
  · intro hlen
    rw [exec_hello, execHello, if_neg hno, hboot, hn]
    exact if_pos hlen

/-- A signature that is made sends its OFFER (R786, R788). -/
theorem does_offerSigned {s : State} {n : Nat} {l : List (Nat × Nat)} {x : Exchange} (hs : s.boot.signing = (0, n) :: l)
    (hx : (s.boot.exchanges.find? fun x => x.num == n) = some x) :
    let sig := slice (Config.idSign (sha256 (x.hello ++ x.offer))) 0 16224
    Does .offerSigned s fun t => t.boot.signing = l ∧ (∀ y ∈ t.boot.exchanges, y.num = n → y.offered = some s.now) ∧
      SendsOnly { s with boot := t.boot } t ∧
      t = State.sendOpen { s with boot := t.boot } x.port x.addr n 2 x.flags (x.offer ++ sig) := by
  intro sig
  set u := State.onExchange (s.onBoot fun b => { b with signing := l }) n fun x => { x with offer := x.offer ++ sig, offered := some s.now } with hu
  have hexec : exec .offerSigned s = .next (u.sendOpen x.port x.addr n 2 x.flags (x.offer ++ sig)) := by
    rw [exec_offerSigned]
    unfold execOfferSigned
    split
    · next m t h =>
      rw [hs] at h
      cases h
      dsimp only
      split
      · next h2 => exact absurd (hx.symm.trans h2) nofun
      · next y h2 =>
        cases hx.symm.trans h2
        rfl
    · next h => exact absurd hs (h _ _)
  have hsend := u.sendOpen_sendsOnly x.port x.addr n 2 x.flags (x.offer ++ sig)
  have hboot : (u.sendOpen x.port x.addr n 2 x.flags (x.offer ++ sig)).boot = u.boot := by rw [hsend]
  have hsame : { s with boot := u.boot } = u := rfl
  refine ⟨_, hexec, ?_, fun y hy hn => ?_, ?_, ?_⟩
  · rw [hboot]
    rfl
  · rw [hboot] at hy
    obtain ⟨z, hz, rfl⟩ := List.mem_map.1 hy
    by_cases hzn : z.num = n
    · rw [if_pos hzn]
    · rw [if_neg hzn] at hn
      exact absurd hn hzn
  · rw [hboot, hsame]
    exact hsend
  · rw [hboot, hsame]

/-- The key that a FINISH proves (R791): the owner's, of the role that the session asks for. -/
def State.ownerKey (s : State) (control : Bool) : Bytes := 
  match s.flash.owner with | some o => if control then o.1 else o.2 | none => []

section
variable {port addr exch flags : Nat} {body : List Byte} {s : State} {x : Exchange}

/-- The status of a CONFIRM of exchange `x` (R791). -/
def State.confirmStatus (s : State) (x : Exchange) (flags : Nat) (body : List Byte) : Nat :=
  s.finishStatus (bit flags 0) (bit flags 1) (body.take 32 == hmac x.keys.2.2.1 (sha256 (x.hello ++ x.offer)))
    (slice body 32 32 == hmac (s.ownerKey (bit flags 0)) (sha256 (x.hello ++ x.offer))) ((slice body 32 32).all (· == 0))

/-- The state in which a CONFIRM is answered: its exchange is over. -/
def State.confirming (s : State) (port addr exch : Nat) (body : List Byte) : State :=
  (s.rxCount port (openLen addr body)).onBoot fun b => { b with exchanges := b.exchanges.filter (·.num ≠ exch) }

/-- What a CONFIRM with CLAIM makes of the owner (R792). -/
def Exchange.claimed (x : Exchange) (body : List Byte) (i : Nat) : Bytes :=
  List.zipWith (· ^^^ ·) (slice body (64 + i) 32) (slice x.keys.2.2.2 i 32)

theorem execConfirm_eq (hx : (s.boot.exchanges.find? fun x => x.num == exch && x.offered.isSome) = some x) (hf : flags < 4)
    (hb : body.length = (if bit flags 1 then 128 else 64)) :
    exec (.confirm port addr exch flags body) s = .next (
      let st := s.confirmStatus x flags body
      let s1 := s.confirming port addr exch body
      if st ≠ 0 then s1.authFail.sendOpen port addr exch 4 flags ([BitVec.ofNat 8 st, 0, 0, 0] ++ List.replicate 32 0)
      else
        let s2 := if bit flags 1 then
            State.raiseHeld { s1 with flash := { s1.flash with owner := some (x.claimed body 0, x.claimed body 32) } }
              { code := 0x94, payload := [fromBytes (sha256 (x.claimed body 0 ++ x.claimed body 32))] }
          else s1
        (s2.sendOpen port addr exch 4 flags ([0, 0, 0, 0] ++ hmac x.keys.2.2.1 (sha256 (x.hello ++ x.offer) ++ [1]))).openSession x
          (bit flags 0) port addr) := by
  rw [exec_confirm, execConfirm, show ((s.rxCount port (openLen addr body)).boot.exchanges.find? fun x =>
    x.num == exch && x.offered.isSome) = some x from hx]
  dsimp only
  rw [if_neg (by rw [hb]; simp; omega)]
  simp only [apply_ite Host.Outcome.next]
  rfl

end

/-! ### The end of a session -/

theorem State.session_closeSession (s : State) (n : Nat) : (s.closeSession n).session n = none := by
  unfold State.closeSession
  split
  · next h => exact h
  · refine List.find?_eq_none.2 fun x hx => ?_
    simpa using (List.mem_filter.1 hx).2

theorem State.closeSession_eq {s : State} {n : Nat} {x : Session} (hx : s.session n = some x) :
    s.closeSession n = { s with hal := { s.hal with
      sessions := s.hal.sessions.filter (·.num ≠ n)
      heldEvents := s.hal.heldEvents ++ if x.control then ((x.events.map (·.ev)).filter fun e => evClass e.code ≤ 1) ++ x.waiting else [] } } := by
  unfold State.closeSession
  rw [hx]
  rfl

/-- A request for a decision is created, and told (R591). -/
theorem State.decisions_request (s : State) (req : Request) (code : Nat) (payload : List Nat) :
    HalterOnly s (s.request req code payload) ∧ (s.request req code payload).hal.decisions =
      s.hal.decisions ++ [{ num := s.hal.nextDecision, req := req, created := s.now }] := by
  unfold State.request
  extract_lets n base h
  have hr := State.raise_eventsOnly { s with hal := h } { code := code, payload := payload, decision := n }
  exact ⟨HalterOnly.trans (t := { s with hal := h }) rfl hr.halter, by rw [hr.hal]⟩

/-- Settles O38: each row's branch; what a session's events leave of the device. -/
theorem halterSessions : Obligations.HalterSessions := by
  refine ⟨?_, ?_, ?_, ?_, ?_, ?_, ?_, ?_, ?_⟩
  · intro port addr exch flags body s h1 h2 h3 h4 h5 h6
    exact does_hello h1 h2 h3 h4 h5 h6
  · intro s n l x hs hx
    exact does_offerSigned hs hx
  · intro port addr exch flags body s x hx hf hb k th2 owner st s1
    have hexec := execConfirm_eq (port := port) (addr := addr) hx hf hb
    have hst : s.confirmStatus x flags body = st := rfl
    have hs1 : s.confirming port addr exch body = s1 := rfl
    rw [hst, hs1] at hexec
    refine ⟨fun h => ?_, fun h h1 => ?_, fun h h1 => ⟨_, hexec, ?_⟩⟩
    · rw [hexec]
      dsimp only
      rw [if_pos h]
    · rw [hexec]
      dsimp only
      rw [if_neg (not_not.2 h), if_neg (by rw [h1]; exact Bool.false_ne_true)]
    · dsimp only
      rw [if_neg (not_not.2 h), if_pos h1, State.openSession_tellsOnly, State.sendOpen_sendsOnly, State.raiseHeld_halterOnly]
      rfl
  · intro s exch
    refine ⟨_, by rw [exec_exchangeTimeout, execExchangeTimeout], rfl, fun x => ?_⟩
    refine List.mem_filter.trans (and_congr_right fun _ => ?_)
    cases hx : x.offered with
    | none => simp [hx]
    | some a =>
      simp [hx]
      tauto
  · intro h s
    refine ⟨fun hx => ?_, fun x hx => ?_, fun ha => ?_, fun ha => ?_, fun w i ha => ?_, fun code hk ha => ?_⟩
    · rw [exec_eventAck, execEventAck, hx]
    · rw [exec_eventAck, execEventAck, hx]
      rfl
    · exact ha.exec_eq (by rw [exec_nop, execNop]; rfl)
    · exact ⟨_, ha.exec_eq (by rw [exec_sessionClose, execSessionClose]; rfl), State.session_closeSession .., rfl⟩
    · exact ha.exec_eq (c := .eventSubscribe h w i) (by rw [exec_eventSubscribe, execEventSubscribe]; rfl)
    · exact ha.exec_eq (by rw [exec_halterUnknownCode, execHalterUnknownCode, if_neg (by rw [hk]; exact Bool.false_ne_true)]; rfl)
  · intro s n num x e hx he hl
    rw [exec_eventRetransmit, execEventRetransmit, hx]
    dsimp only
    rw [he]
    exact if_neg (by omega)
  · intro s n x hx hl
    refine ⟨_, by rw [exec_sessionIdle, execSessionIdle, hx]; exact if_neg (by omega), State.session_closeSession .., ?_⟩
    rw [State.closeSession_eq hx]
    refine ⟨rfl, rfl, fun hc e he hcl => ?_, fun hc => ?_⟩
    · dsimp only
      rw [if_pos hc]
      refine List.mem_append_right _ (List.mem_append_left _ (List.mem_filter.2 ⟨List.mem_map_of_mem he, by simpa using hcl⟩))
    · dsimp only
      rw [hc, if_neg Bool.false_ne_true, List.append_nil]
  · intro s port len
    rw [exec_halterMessageDiscard]
    rfl
  · intro s hp hn hl hd
    refine ⟨_, ?_, s.decisions_request .logDrain 0x85 [s.err.ring.length]⟩
    rw [exec_logDrainRequest, execLogDrainRequest]
    refine if_neg ?_
    have hany : (s.hal.decisions.any fun d => d.req.func == 5) = false := List.any_eq_false.2 fun d hm => by simpa using hd d hm
    rw [hany, hp]
    simp; omega

end Sys2Proof.Machine
end

section
/-! Modes and decisions (R590 to R597, R639, R642). -/

namespace Sys2Proof.Machine

/-! ### Modes -/

/-- In PULL no record goes out by itself (R742). -/
theorem State.pushLog_of_pull {s : State} (h : s.hal.pull = true) : s.pushLog = s := by
  unfold State.pushLog
  unfold State.pushLogN
  split
  · rfl
  · exact if_pos (by rw [h]; rfl)

/-- From `s` to `t` an answer has gone out: of Halter's own state at most the sessions have changed. -/
theorem State.answer_hal (s : State) (c : PendCmd) (status : Nat) (payload : Bytes) :
    (s.answer c status payload).hal = { s.hal with sessions := (s.answer c status payload).hal.sessions } := by
  unfold State.answer
  dsimp only
  split
  · rw [State.sendMsg_sendsOnly]
    rfl
  · rfl

section
variable {s : State} {h : Hdr}

/-- A mode is set, and nothing waits to be settled by it (R590, R594). -/
theorem exec_modeSet_of_none {f : Nat} (ha : Accepted s h 4 15 false) (hf : f < 7) (h5 : f ≠ 5) (b : Bool)
    (hd : b = true ∨ ∀ d ∈ s.hal.decisions, d.req.func ≠ f) :
    exec (.modeSet h f b) s = .next ((State.extend { s.accept h with hal := { (s.accept h).hal with
        mode := if b then s.hal.mode ||| 2 ^ f else if bit s.hal.mode f then s.hal.mode - 2 ^ f else s.hal.mode } } 7 4
      (sha256 [BitVec.ofNat 8 f, BitVec.ofNat 8 (b2n b)])).answer (hdrCmd h 4 s.now) 0 [BitVec.ofNat 8 (b2n (bit s.hal.mode f))]) := by
  rw [ha.exec_eq (c := .modeSet h f b) (by rw [exec_modeSet, execModeSet]; rfl), if_neg (by omega)]
  dsimp only
  rw [if_neg h5]
  have hfold (u : State) (hu : u.hal.decisions = s.hal.decisions) (b : Bool) (hd : b = true ∨ ∀ d ∈ s.hal.decisions, d.req.func ≠ f) :
      (if b = true then u else (u.hal.decisions.filter fun d => d.req.func == f).foldl
        (fun (s : State) d => (s.dropDecision d.num).hardware d.req) u) = u := by
    rcases hd with rfl | hd
    · exact if_pos rfl
    · have hnil : (u.hal.decisions.filter fun d => d.req.func == f) = [] :=
        List.filter_eq_nil_iff.2 fun d hm => by simpa using hd d (hu ▸ hm)
      rw [hnil, List.foldl_nil, ite_self]
  rw [hfold ((s.accept h).onHal fun y => { y with
    mode := if b then y.mode ||| 2 ^ f else if bit y.mode f then y.mode - 2 ^ f else y.mode
    pull := if f = 5 then b else y.pull }) rfl b hd]
  simp only [h5, if_false]
  rfl

/-- Log draining is set host-assisted: it waits for the host, in PULL (R597, R742). -/
theorem does_modeSet_drain (ha : Accepted s h 4 15 false) :
    Does (.modeSet h 5 true) s fun t => t.hal.pull = true ∧ bit t.hal.mode 5 = true := by
  refine ⟨_, ha.exec_eq (c := .modeSet h 5 true) (by rw [exec_modeSet, execModeSet]; rfl), ?_⟩
  rw [if_neg (by decide)]
  dsimp only
  rw [State.pushLog_of_pull rfl, State.answer_hal]
  have hmode : bit ((s.accept h).hal.mode ||| 2 ^ 5) 5 = true := by
    rw [bit, Nat.testBit_or, Nat.testBit_two_pow_self, Bool.or_true]
  exact ⟨rfl, hmode⟩

end

/-! ### Decisions -/

section
variable {s : State} {h : Hdr}

/-- A command that names a pending request settles it as the request's choice says (R592, R595). -/
theorem State.settleReq_named {d : Decision} (hd : s.named h.decision = some d) (c : PendCmd) (act : State → Request → Option State) {t : State}
    (ht : act ((s.accept h).dropDecision d.num) d.req = some t) : (s.accept h).settleReq h c act = t.answer c 0 := by
  unfold State.settleReq
  rw [show (s.accept h).named h.decision = some d from hd]
  dsimp only
  rw [ht]

theorem State.settleReq_expired (hd : s.named h.decision = none) (c : PendCmd) (act : State → Request → Option State) :
    (s.accept h).settleReq h c act = (s.accept h).answer c 0xB := by
  unfold State.settleReq
  rw [show (s.accept h).named h.decision = none from hd]

end

/-- Settles O39: MODE_SET sets its bit; a decision's choice is the named request's own; a deadline takes the hardware's. -/
theorem halterDecisions : Obligations.HalterDecisions := by
  intro h s A
  refine ⟨?_, ?_, ?_, ?_, ?_, ?_, ?_⟩
  · intro f ha hf h5 ok
    exact ⟨exec_modeSet_of_none ha hf h5 true (.inl rfl), fun hd => exec_modeSet_of_none ha hf h5 false (.inr hd)⟩
  · exact does_modeSet_drain
  · intro f b ha hf
    rw [ha.exec_eq (c := .modeSet h f b) (by rw [exec_modeSet, execModeSet]; rfl)]
    exact congrArg _ (if_pos hf)
  · intro d hd D done
    refine ⟨?_, ?_, ?_, ?_, ?_, ?_, ?_, ?_⟩
    · intro ha m off hr
      refine ⟨?_, ?_, ?_⟩
      · rw [ha.exec_eq (c := .repairDecide h .shadow) (by rw [exec_repairDecide, execRepairDecide]; rfl),
          State.settleReq_named hd _ _ (by rw [hr])]
      · rw [ha.exec_eq (c := .repairDecide h .retire) (by rw [exec_repairDecide, execRepairDecide]; rfl),
          State.settleReq_named hd _ _ (by rw [hr])]
      · rw [ha.exec_eq (c := .repairDecide h .leave) (by rw [exec_repairDecide, execRepairDecide]; rfl),
          State.settleReq_named hd _ _ (by rw [hr])]
    · intro ha m hr
      constructor
      · rw [ha.exec_eq (c := .repairDecide h .mapOut) (by rw [exec_repairDecide, execRepairDecide]; rfl),
          State.settleReq_named hd _ _ (by rw [hr])]
      · rw [ha.exec_eq (c := .repairDecide h .leave) (by rw [exec_repairDecide, execRepairDecide]; rfl),
          State.settleReq_named hd _ _ (by rw [hr])]
    · intro ha g k u hr
      rw [ha.exec_eq (c := .spareDecide h u) (by rw [exec_spareDecide, execSpareDecide]; rfl), State.settleReq_named hd _ _ (by rw [hr])]
    · intro ha ws w hr hw hne
      rw [ha.exec_eq (c := .splitDecide h w) (by rw [exec_splitDecide, execSplitDecide]; rfl),
        State.settleReq_named hd _ _ (by rw [hr]; exact if_neg (by simpa [hw] using hne))]
      rfl
    · intro ha h0 dev p q k s1 hr hs1
      rw [ha.exec_eq (c := .routeSet h dev k) (by rw [exec_routeSet, execRouteSet]; rfl), if_neg h0,
        State.settleReq_named hd _ _ (by rw [hr]; exact (if_pos rfl).trans hs1)]
    · intro ha old b hr
      rw [ha.exec_eq (c := .leadDecide h b) (by rw [exec_leadDecide, execLeadDecide]; rfl), State.settleReq_named hd _ _ (by rw [hr])]
    · intro ha b hr
      rw [ha.exec_eq (c := .logDrainDecide h b) (by rw [exec_logDrainDecide, execLogDrainDecide]; rfl),
        State.settleReq_named hd _ _ (by rw [hr])]
      rfl
    · intro ha h0 p v hr c hp
      rw [ha.exec_eq (c := .tierMove h p false) (by rw [exec_tierMove, execTierMove]; rfl), if_neg h0,
        show (s.accept h).named h.decision = some d from hd]
      dsimp only
      rw [hr]
      dsimp only
      rw [if_pos (by simp)]
      exact congrArg _ (if_pos hp)
  · intro hn
    refine ⟨fun x ha => ?_, fun u ha => ?_, fun w ha => ?_, fun p b ha h0 => ?_⟩
    · rw [ha.exec_eq (c := .repairDecide h x) (by rw [exec_repairDecide, execRepairDecide]; rfl), State.settleReq_expired hn]
    · rw [ha.exec_eq (c := .spareDecide h u) (by rw [exec_spareDecide, execSpareDecide]; rfl), State.settleReq_expired hn]
    · rw [ha.exec_eq (c := .splitDecide h w) (by rw [exec_splitDecide, execSplitDecide]; rfl), State.settleReq_expired hn]
    · rw [ha.exec_eq (c := .tierMove h p b) (by rw [exec_tierMove, execTierMove]; rfl), if_neg h0,
        show (s.accept h).named h.decision = none from hn]
  · intro p ha h0 c
    rw [ha.exec_eq (c := .tierMove h p true) (by rw [exec_tierMove, execTierMove]; rfl), if_pos h0]
    exact ⟨fun hp => congrArg _ (if_pos hp), fun hp => congrArg _ (if_neg (by rw [Bool.eq_false_iff] at hp; exact hp))⟩
  · intro num d a hd hdl hl
    rw [exec_decisionDeadline, execDecisionDeadline, hd]
    dsimp only
    rw [hdl]
    exact if_neg (by omega)

end Sys2Proof.Machine
end

section
/-! Resources, pins, timers and the event controller (R604 to R617, R840 to R842). -/

namespace Sys2Proof.Machine

/-! ### Entries of the resource table -/

section
variable {s : State} {r : Nat}

theorem State.res_onRes_self (hr : r < s.hal.res.length) (f : ResOwn → ResOwn) : (s.onRes r f).res r = f (s.res r) :=
  nth_setAt_self hr f {}

theorem State.res_onRes_ne {q : Nat} (h : q ≠ r) (f : ResOwn → ResOwn) : (s.onRes r f).res q = s.res q :=
  nth_setAt_ne h s.hal.res f {}

theorem State.quiet_eq (s : State) (r : Nat) : s.quiet r = { s with hal := { s.hal with
    gpOut := (s.quiet r).hal.gpOut, gpLevel := (s.quiet r).hal.gpLevel, timers := (s.quiet r).hal.timers } } := by
  unfold State.quiet State.onHal
  dsimp only
  split_ifs <;> rfl

theorem bit_sub_two_pow {n k : Nat} (h : bit n k = true) : bit (n - 2 ^ k) k = false := by
  rw [bit, Nat.testBit_eq_decide_div_mod_eq, decide_eq_true_eq] at h
  rw [bit, Nat.testBit_eq_decide_div_mod_eq, decide_eq_false_iff_not]
  have hd : (n - 2 ^ k) / 2 ^ k = n / 2 ^ k - 1 := by simpa using Nat.sub_mul_div_of_le n (2 ^ k) 1 (by
    rw [Nat.mul_one]
    by_contra hlt
    rw [Nat.div_eq_of_lt (not_le.1 hlt)] at h
    exact absurd h (by decide))
  omega

/-- A pin that is no longer used is an input (R841). -/
theorem State.gpOut_quiet (hr : r < 8) : bit (s.quiet r).hal.gpOut r = false := by
  unfold State.quiet State.onHal
  dsimp only
  rw [if_pos hr]
  dsimp only
  split
  · next h => exact bit_sub_two_pow h
  · next h => exact Bool.eq_false_iff.2 h

/-- What becoming FREE leaves (R612, R841). -/
structure Freed (s t : State) (r : Nat) : Prop where
  owner : (t.res r).owner = 0
  draining : (t.res r).draining = false
  others : ∀ q, q ≠ r → t.res q = s.res q
  pin : r < 8 → bit t.hal.gpOut r = false
  hal : t.hal = { s.hal with res := t.hal.res, gpOut := t.hal.gpOut, gpLevel := t.hal.gpLevel, timers := t.hal.timers }
  rest : t = { s with hal := t.hal, flash := { s.flash with safety := t.flash.safety }, pwr := t.pwr }
  power : r ≠ 3 ∨ (s.res 3).owner ≠ 0x31 → t.pwr = s.pwr

theorem State.free_freed (hr : r < s.hal.res.length) : Freed s (s.free r) r := by
  unfold State.free
  extract_lets u flash v
  have hu : PwrOnly s u ∧ (r ≠ 3 ∨ (s.res 3).owner ≠ 0x31 → u.pwr = s.pwr) := by
    unfold u
    split
    · next h =>
      refine ⟨PwrOnly.trans (t := s.onPwr fun p => { p with gp3 := { p.gp3 with low := false } }) rfl ?_, fun hor => ?_⟩
      · exact PwrOnly.trans (t := State.onPwr _ _) rfl (State.retarget_forceKept ..).only
      · simp at h
        rcases hor with h3 | h3
        · exact absurd h.1 h3
        · exact absurd h.2 h3
    · exact ⟨.refl s, fun _ => rfl⟩
  have hv : v = { u with flash := { u.flash with safety := v.flash.safety } } := by
    unfold v
    split <;> rfl
  clear_value v u
  obtain ⟨huo, hup⟩ := hu
  have hq := v.quiet_eq r
  have hpin (hr8 : r < 8) := State.gpOut_quiet (s := v) hr8
  generalize v.quiet r = w at hq hpin
  have hwhal : w.hal = { s.hal with gpOut := w.hal.gpOut, gpLevel := w.hal.gpLevel, timers := w.hal.timers } := by
    rw [hq, hv, huo]
  have hres : w.hal.res = s.hal.res := by rw [hwhal]
  have hself := State.res_onRes_self (s := w) (by rwa [hres]) fun e =>
    { e with owner := 0, session := 0, grants := satAdd 16 e.grants 1, draining := false }
  refine ⟨?_, ?_, fun q hne => ?_, hpin, ?_, ?_, fun hor => ?_⟩
  · rw [hself]
  · rw [hself]
  · rw [State.res_onRes_ne hne, State.res, hres]
    rfl
  · rw [State.onRes, State.onHal]
    dsimp only
    rw [hwhal]
  · rw [State.onRes, State.onHal, hq, hv, huo]
  · have hpw : (w.onRes r fun e => { e with owner := 0, session := 0, grants := satAdd 16 e.grants 1, draining := false }).pwr = u.pwr := by
      rw [State.onRes, State.onHal, hq, hv]
    rw [hpw, hup hor]

end

/-! ### What an answer leaves of the resources -/

/-- From `s` to `t` messages of Halter have been sent, and of its own state at most the sessions and the commands that wait have
changed. -/
structure RepliesOnly (s t : State) : Prop where
  halter : HalterOnly s t
  hal : t.hal = { s.hal with sessions := t.hal.sessions, cmds := t.hal.cmds }

theorem RepliesOnly.refl (s : State) : RepliesOnly s s := ⟨.refl s, rfl⟩

theorem RepliesOnly.trans {s t u : State} (hst : RepliesOnly s t) (htu : RepliesOnly t u) : RepliesOnly s u :=
  ⟨hst.halter.trans htu.halter, by rw [htu.hal, hst.hal]⟩

theorem RepliesOnly.res {s t : State} (h : RepliesOnly s t) (q : Nat) : t.res q = s.res q := by
  rw [State.res, h.hal]
  rfl

theorem State.accept_repliesOnly (s : State) (h : Hdr) : RepliesOnly s (s.accept h) := ⟨rfl, rfl⟩

theorem State.answer_repliesOnly (s : State) (c : PendCmd) (status : Nat) (payload : Bytes) :
    RepliesOnly s (s.answer c status payload) :=
  ⟨State.answer_halterOnly .., by rw [State.answer_hal]⟩

theorem State.pend_repliesOnly (s : State) (c : PendCmd) : RepliesOnly s (s.pend c) :=
  RepliesOnly.trans (t := s.onHal fun h => { h with cmds := h.cmds ++ [c] }) ⟨rfl, rfl⟩ (State.answer_repliesOnly ..)

theorem State.finish_repliesOnly (s : State) (c : PendCmd) (status : Nat) (payload : Bytes) : RepliesOnly s (s.finish c status payload) := by
  obtain ⟨cmds, freeIx, pay, h⟩ := s.finish_eq c status payload
  rw [h]
  exact RepliesOnly.trans (t := { s with hal := { s.hal with cmds := cmds }, freeIx := freeIx }) ⟨rfl, rfl⟩ (State.answer_repliesOnly ..)

/-- A command that has its reply waits no more. -/
theorem State.cmds_finish (s : State) (c : PendCmd) (status : Nat) (payload : Bytes) : (s.finish c status payload).hal.cmds =
    s.hal.cmds.filter fun q => !(q.session == c.session && q.seq == c.seq) := by
  unfold State.finish
  rw [State.answer_hal]
  dsimp only
  split <;> rfl

/-! ### The rows of the resources -/

section
variable {s : State} {h : Hdr}

/-- The slot of the session that a command comes from. -/
def State.slotIn (s : State) (h : Hdr) : Nat := match s.session h.session with | some x => x.slot | none => 0

theorem State.session_onSession (s : State) {n m : Nat} {f : Session → Session} (hf : ∀ x, (f x).num = x.num) :
    (s.onSession n f).session m = (s.session m).map fun x => if x.num = n then f x else x := by
  unfold State.session State.onSession
  dsimp only
  rw [List.find?_map]
  congr 1
  refine congrArg (fun p => List.find? p s.hal.sessions) (funext fun x => ?_)
  dsimp only [Function.comp_apply]
  split
  · rw [hf]
  · rfl

theorem State.slotIn_accept (s : State) (h : Hdr) : (s.accept h).slotIn h = s.slotIn h := by
  have hsess : (s.accept h).session h.session = ((s.session h.session).map fun x =>
      if x.num = h.session then { x with lastMsg := s.now, port := h.port, addr := h.addr } else x).map fun x =>
      if x.num = h.session then { x with high := max x.high h.seq } else x := by
    rw [State.accept, State.session_onSession, State.heardFrom, State.session_onSession]
    · rfl
    all_goals exact fun _ => rfl
  unfold State.slotIn
  rw [hsess]
  cases s.session h.session with
  | none => rfl
  | some x =>
    dsimp only [Option.map_some]
    split_ifs <;> rfl

/-- A resource of the table that nobody holds goes to a session (R609). -/
theorem State.acquire_pin {r : Nat} (hr : r < 8) (hfree : (s.res r).owner = 0) (hnone : s.heldBy 1 = []) (slot : Nat) :
    s.acquire 1 slot [r] = (0, s.onRes r fun e => { e with
      owner := 1, session := slot, grants := satAdd 16 e.grants 1, preempts := e.preempts, draining := false }) := by
  have hmeets : s.meets 1 slot r = 0 := by simp [State.meets, hfree]
  have hgrant : s.grant 1 slot r = s.onRes r fun e => { e with
      owner := 1, session := slot, grants := satAdd 16 e.grants 1, preempts := e.preempts, draining := false } := by
    unfold State.grant
    rw [if_neg (by simp [hfree]), hmeets]
    rfl
  have hmay : mayHoldAll 1 [r] = true := by simp [mayHoldAll, mayHold, hr]
  unfold State.acquire
  rw [if_neg (by simp [hnone, hmay, knownOwner]), if_neg (by simp [hmeets])]
  simp only [List.foldl_cons, List.foldl_nil, hgrant]
  rfl

theorem Accepted.exec_resAcquire {o : BitVec 8} {rs : List Nat} (ha : Accepted s h 0xC 15 false) :
    exec (.resAcquire h o rs) s = .next (((s.accept h).acquire o.toNat (s.slotIn h) rs).2.answer (hdrCmd h 0xC s.now)
      ((s.accept h).acquire o.toNat (s.slotIn h) rs).1) := by
  rw [ha.exec_eq (c := .resAcquire h o rs) (run := fun c s => (s.acquire o.toNat (s.slotIn h) rs).2.answer c
    (s.acquire o.toNat (s.slotIn h) rs).1) (by rw [Machine.exec_resAcquire, execResAcquire]; rfl), s.slotIn_accept h]

theorem Accepted.exec_resRelease {r : Nat} (ha : Accepted s h 0xD 15 false) (hr : r < 20) (how : (s.res r).owner ≠ 0)
    (hs : (s.res r).owner = 1 ∨ (s.res r).owner = 2 → (s.res r).session = s.slotIn h) :
    (r < 16 → exec (.resRelease h r) s = .next ((((s.accept h).pend (hdrCmd h 0xD s.now)).free r).finish (hdrCmd h 0xD s.now) 0)) ∧
    (16 ≤ r → (s.res r).draining = true →
      exec (.resRelease h r) s = .next ((s.accept h).pend { hdrCmd h 0xD s.now with args := [r] })) ∧
    (16 ≤ r → (s.res r).draining = false → s.hal.job ≠ 2 → exec (.resRelease h r) s =
      .next (((s.accept h).pend { hdrCmd h 0xD s.now with args := [r] }).onRes r fun e => { e with draining := true })) := by
  have hres : (s.accept h).res r = s.res r := (s.accept_repliesOnly h).res r
  have hslot := s.slotIn_accept h
  rw [ha.exec_eq (c := .resRelease h r) (run := fun c s =>
    if 20 ≤ r || (s.res r).owner = 0 then s.answer c 2
    else if ((s.res r).owner = 1 || (s.res r).owner = 2) && (s.res r).session ≠ s.slotIn h then s.answer c 8
    else if 16 ≤ r then
      if (s.res r).draining then s.pend { c with args := [r] }
      else if s.hal.job = 2 && ((s.heldBy (s.res r).owner).filter fun q => !(s.res q).draining).length = 1 then
        (s.draw 32).2.answer c 5 (toBytes 4 (1 + (s.draw 32).1 % 1000000))
      else (s.pend { c with args := [r] }).onRes r fun e => { e with draining := true }
    else ((s.pend c).free r).finish c 0) (by rw [Machine.exec_resRelease, execResRelease]; rfl)]
  dsimp only
  rw [hslot, hres, if_neg (by simp [how]; omega), if_neg (by simp; tauto)]
  refine ⟨fun h16 => ?_, fun h16 hd => ?_, fun h16 hd hj => ?_⟩
  · rw [if_neg (by omega)]
  · rw [if_pos h16, if_pos hd]
  · rw [if_pos h16, if_neg (by rw [hd]; exact Bool.false_ne_true), if_neg]
    have : (s.accept h).hal.job ≠ 2 := hj
    simp [this]

theorem Accepted.exec_gpioSet {pay : List Byte} (ha : Accepted s h 0xF 15 false) (hlen : pay.length = 8) (hz : field pay 3 5 = 0)
    (hown : ∀ r, r < 8 → bit (field pay 0 1) r = true → (s.res r).owner = 1 ∧ (s.res r).session = s.slotIn h) :
    exec (.gpioSet h pay) s = .next (((s.accept h).onHal fun y => { y with
      gpOut := (y.gpOut &&& (255 ^^^ field pay 0 1)) ||| (field pay 1 1 &&& field pay 0 1)
      gpLevel := (y.gpLevel &&& (255 ^^^ field pay 0 1)) ||| (field pay 2 1 &&& field pay 0 1) }).answer (hdrCmd h 0xF s.now) 0) := by
  rw [ha.exec_eq (c := .gpioSet h pay) (run := fun c s =>
    if pay.length ≠ 8 || field pay 3 5 ≠ 0 then s.answer c 2
    else if (List.range 8).any fun r => bit (field pay 0 1) r && !((s.res r).owner = 1 && (s.res r).session = s.slotIn h) then s.answer c 8
    else (s.onHal fun y => { y with
      gpOut := (y.gpOut &&& (255 ^^^ field pay 0 1)) ||| (field pay 1 1 &&& field pay 0 1)
      gpLevel := (y.gpLevel &&& (255 ^^^ field pay 0 1)) ||| (field pay 2 1 &&& field pay 0 1) }).answer c 0)
    (by rw [Machine.exec_gpioSet, execGpioSet]; rfl)]
  rw [if_neg (by simp [hlen, hz]), s.slotIn_accept h, if_neg]
  rw [Bool.not_eq_true]
  refine List.any_eq_false.2 fun r hr => ?_
  rw [(s.accept_repliesOnly h).res]
  have := hown r (List.mem_range.1 hr)
  cases hb : bit (field pay 0 1) r
  · simp
  · simp [this hb]

theorem Accepted.exec_timerSet {k ns : Nat} (ha : Accepted s h 0x11 15 false) (hk : k < 8) (how : (s.res (8 + k)).owner = 2)
    (hs : (s.res (8 + k)).session = s.slotIn h) :
    exec (.timerSet h k ns) s = .next (((s.accept h).onHal fun y => { y with
      timers := Tbl.set 0 y.timers k (if ns = 0 then 0 else s.now + ns + 1) }).answer (hdrCmd h 0x11 s.now) 0) := by
  rw [ha.exec_eq (c := .timerSet h k ns) (run := fun c s =>
    if 8 ≤ k then s.answer c 2
    else if (s.res (8 + k)).owner ≠ 2 || (s.res (8 + k)).session ≠ s.slotIn h then s.answer c 8
    else (s.onHal fun y => { y with timers := Tbl.set 0 y.timers k (if ns = 0 then 0 else s.now + ns + 1) }).answer c 0)
    (by rw [Machine.exec_timerSet, execTimerSet]; rfl)]
  rw [if_neg (by omega), s.slotIn_accept h, (s.accept_repliesOnly h).res, if_neg (by simp [how, hs])]
  rfl

/-- Commands that have their replies wait no more, and what Halter holds beside them is as it was. -/
theorem State.foldl_finish (l : List PendCmd) (status : Nat) (s : State) :
    RepliesOnly s (l.foldl (fun (s : State) c => s.finish c status) s) ∧
    ∀ c ∈ (l.foldl (fun (s : State) c => s.finish c status) s).hal.cmds, c ∈ s.hal.cmds ∧ c ∉ l := by
  induction l generalizing s with
  | nil => exact ⟨.refl s, fun c hc => ⟨hc, List.not_mem_nil⟩⟩
  | cons d l ih =>
    obtain ⟨h1, h2⟩ := ih (s.finish d status)
    refine ⟨(State.finish_repliesOnly ..).trans h1, fun c hc => ?_⟩
    obtain ⟨hm, hn⟩ := h2 c hc
    rw [State.cmds_finish] at hm
    obtain ⟨hm, hk⟩ := List.mem_filter.1 hm
    refine ⟨hm, fun hcl => ?_⟩
    rcases List.mem_cons.1 hcl with rfl | hcl
    · simp at hk
    · exact hn hcl

end

/-! ### The event controller and the cores -/

section
variable {s : State} {k : Nat}

/-- A line that is asserted wakes its core, and changes nothing else (R608). -/
theorem State.wakeCore_eq (s : State) (k : Nat) : s.wakeCore k = { s with hal := { s.hal with cores := (s.wakeCore k).hal.cores } } := by
  unfold State.wakeCore
  split <;> rfl

theorem State.core_onCore_self (hk : k < s.hal.cores.length) (f : CoreSt → CoreSt) : (s.onCore k f).core k = f (s.core k) :=
  nth_setAt_self hk f {}

theorem State.core_onCore_ne {j : Nat} (h : j ≠ k) (f : CoreSt → CoreSt) : (s.onCore k f).core j = s.core j :=
  nth_setAt_ne h s.hal.cores f {}

/-- A source's entry of the event controller changes, and a core may wake. -/
theorem State.onEvc_wakeCore (s : State) {n : Nat} (hn : n < s.hal.evc.length) (f : EvcRoute → EvcRoute) (k : Nat) (d : EvcRoute) :
    let t := (s.onHal fun h => { h with evc := setAt h.evc n f }).wakeCore k
    nth t.hal.evc n d = f (nth s.hal.evc n d) ∧ (∀ j, j ≠ n → nth t.hal.evc j d = nth s.hal.evc j d) ∧
      t = { s with hal := { s.hal with evc := t.hal.evc, cores := t.hal.cores } } := by
  dsimp only
  have ht := State.wakeCore_eq (s.onHal fun h => { h with evc := setAt h.evc n f }) k
  generalize State.wakeCore _ _ = t at ht ⊢
  refine ⟨?_, fun j hj => ?_, ?_⟩
  · rw [ht]
    exact nth_setAt_self hn f d
  · rw [ht]
    exact nth_setAt_ne hj s.hal.evc f d
  · rw [ht]
    rfl

/-- A record of a unit beyond Groom's changes the log alone. -/
theorem State.report_err (s : State) (cls : Nat) {unit : Nat} (hu : 0xB < unit) (code inst : Nat) :
    s.report cls unit code inst = { s with err := (s.report cls unit code inst).err } := by
  have hg : (decide (9 ≤ unit) && decide (unit ≤ 0xB)) = false := by simp; omega
  unfold State.report
  rw [hg]
  rfl

end

/-- Settles O40: the rows' branches; what FREE leaves of the table; a source's entry and the core that it may wake. -/
theorem halterResources : Obligations.HalterResources := by
  refine ⟨?_, ?_, ?_, ?_, ?_⟩
  · intro h s A slot
    refine ⟨?_, ?_, ?_, ?_, ?_, ?_, ?_, ?_⟩
    · intro owner res ha
      exact ha.exec_resAcquire
    · intro r ha hr hfree hnone hlen
      refine ⟨_, ha.exec_resAcquire, ?_⟩
      rw [show (1 : BitVec 8).toNat = 1 from rfl, State.acquire_pin (s := s.accept h) hr hfree hnone]
      dsimp only
      set f : ResOwn → ResOwn := fun e =>
        { e with owner := 1, session := s.slotIn h, grants := satAdd 16 e.grants 1, preempts := e.preempts, draining := false } with hf
      have hans := ((s.accept h).onRes r f).answer_repliesOnly (hdrCmd h 0xC s.now) 0 []
      have hlt : r < (s.accept h).hal.res.length := by
        rw [show (s.accept h).hal.res.length = 20 from hlen]
        omega
      refine ⟨HalterOnly.trans (t := (s.accept h).onRes r f) rfl hans.halter, ?_, ?_, ?_, fun q hq => ?_⟩
      · rw [hans.res, State.res_onRes_self hlt]
      · rw [hans.res, State.res_onRes_self hlt]
        rfl
      · rw [hans.res, State.res_onRes_self hlt]
        rfl
      · rw [hans.res, State.res_onRes_ne hq]
        rfl
    · intro r ha hr how hsess hlen
      refine ⟨_, (ha.exec_resRelease (by omega) how hsess).1 hr, ?_⟩
      have hv := (s.accept_repliesOnly h).trans ((s.accept h).pend_repliesOnly (hdrCmd h 0xD s.now))
      generalize (s.accept h).pend (hdrCmd h 0xD s.now) = v at hv ⊢
      have hlt : r < v.hal.res.length := by
        rw [hv.hal, hlen]
        omega
      have hw := State.free_freed hlt
      generalize v.free r = w at hw ⊢
      have ht := w.finish_repliesOnly (hdrCmd h 0xD s.now) 0 []
      generalize w.finish (hdrCmd h 0xD s.now) 0 [] = t at ht ⊢
      refine ⟨?_, fun q hq => ?_, fun h8 => ?_, fun hor => ?_⟩
      · rw [ht.res, hw.owner]
      · rw [ht.res, hw.others q hq, hv.res]
      · rw [ht.hal]
        exact hw.pin h8
      · have hpwr := hw.power (by rwa [hv.res])
        rw [HalterOnly, ht.halter, hw.rest, hpwr, hv.halter]
    · intro r ha h16 h20 how hjob hlen
      have hown : (s.res r).owner ≠ 0 := by omega
      have hne : (s.res r).owner = 1 ∨ (s.res r).owner = 2 → (s.res r).session = s.slotIn h := by omega
      obtain ⟨-, hd, hnd⟩ := ha.exec_resRelease h20 hown hne
      have hv := (s.accept_repliesOnly h).trans ((s.accept h).pend_repliesOnly { hdrCmd h 0xD s.now with args := [r] })
      have hcmd : State.pendingOf ((s.accept h).pend { hdrCmd h 0xD s.now with args := [r] }) 0xD ≠ [] := by
        refine List.ne_nil_of_mem (a := { hdrCmd h 0xD s.now with args := [r] }) (List.mem_filter.2 ⟨?_, by simp [hdrCmd]⟩)
        rw [State.pend, State.answer_hal]
        exact List.mem_append_right _ (List.mem_singleton.2 rfl)
      generalize (s.accept h).pend { hdrCmd h 0xD s.now with args := [r] } = v at *
      by_cases hdr : (s.res r).draining = true
      · exact ⟨v, hd h16 hdr, hv.halter, by rw [hv.res, hdr], by rw [hv.res], hcmd⟩
      · have hlt : r < v.hal.res.length := by
          rw [hv.hal, hlen]
          exact h20
        refine ⟨_, hnd h16 (Bool.eq_false_iff.2 hdr) (hjob.resolve_right hdr), hv.halter.trans rfl, ?_, ?_, hcmd⟩
        · rw [State.res_onRes_self hlt]
        · rw [State.res_onRes_self hlt, hv.res]
    · intro ha
      exact ha.exec_eq (c := .resQuery h) (by rw [exec_resQuery, execResQuery]; rfl)
    · intro pay ha hlen hz hown
      refine ⟨_, ha.exec_gpioSet hlen hz hown, ?_⟩
      set u := (s.accept h).onHal fun y => { y with
        gpOut := (y.gpOut &&& (255 ^^^ field pay 0 1)) ||| (field pay 1 1 &&& field pay 0 1)
        gpLevel := (y.gpLevel &&& (255 ^^^ field pay 0 1)) ||| (field pay 2 1 &&& field pay 0 1) } with hu
      have ht := u.answer_repliesOnly (hdrCmd h 0xF s.now) 0 []
      exact ⟨HalterOnly.trans (t := u) rfl ht.halter, by rw [ht.hal]; rfl, by rw [ht.hal]; rfl⟩
    · intro inputs ha
      exact ha.exec_eq (c := .gpioGet h inputs) (by rw [exec_gpioGet, execGpioGet]; rfl)
    · intro k ns ha hk how hs
      refine ⟨_, ha.exec_timerSet hk how hs, ?_⟩
      set u := (s.accept h).onHal fun y => { y with timers := Tbl.set 0 y.timers k (if ns = 0 then 0 else s.now + ns + 1) } with hu
      have ht := u.answer_repliesOnly (hdrCmd h 0x11 s.now) 0 []
      refine ⟨HalterOnly.trans (t := u) rfl ht.halter, ?_, fun j hj => ?_⟩
      · rw [ht.hal]
        exact Tbl.get_set_self ..
      · rw [ht.hal]
        exact Tbl.get_set_ne hj ..
  · intro r s hd hlen
    have hw := State.free_freed (s := s) (r := r.val) (by rw [hlen]; exact r.isLt)
    refine ⟨_, by rw [exec_resReleaseDone, execResReleaseDone, if_neg (by rw [hd]; decide)], ?_⟩
    obtain ⟨ht, hc⟩ := State.foldl_finish (((s.free r.val).pendingOf 0xD).filter fun c => c.args == [r.val]) 0 (s.free r.val)
    refine ⟨by rw [ht.res, hw.owner], by rw [ht.res, hw.draining], fun q hq => by rw [ht.res, hw.others q hq], fun c hm ha => ?_⟩
    obtain ⟨hm, hcode⟩ := List.mem_filter.1 hm
    obtain ⟨hin, hout⟩ := hc c hm
    exact hout (List.mem_filter.2 ⟨List.mem_filter.2 ⟨hin, hcode⟩, by simp [ha]⟩)
  · intro i s hlen
    refine ⟨_, by rw [exec_evcSourceAssert, execEvcSourceAssert], ?_⟩
    exact s.onEvc_wakeCore (by rw [hlen]; exact i.isLt) _ _ _
  · intro n v s hlen d
    refine ⟨fun h1 h2 => ⟨_, by rw [exec_evcRouteWrite, execEvcRouteWrite, if_neg (by simp [h2]; omega)], ?_⟩, fun hor => ?_⟩
    · exact s.onEvc_wakeCore (by rw [hlen]; exact n.isLt) _ _ _
    · rw [exec_evcRouteWrite, execEvcRouteWrite]
      exact if_pos (by simpa using hor)
  · intro k s hlen
    have hk : k.val < s.hal.cores.length := by rw [hlen]; exact k.isLt
    have hlen' : k.val < (s.onCore k.val fun c => { c with st := 0 }).hal.cores.length := by
      rw [State.onCore, State.onHal, setAt_length]
      exact hk
    refine ⟨fun h0 h4 hst hl hb => ⟨s.onCore k.val fun c => { c with st := 2 }, ?_, rfl,
      State.core_onCore_self hk _, fun j hj => State.core_onCore_ne hj _⟩, fun hst hl => ?_⟩
    · rw [exec_corePowerDown, execCorePowerDown, if_neg (by simp [h0, h4, hst, hl, hb])]
    refine ⟨⟨s.onCore k.val fun c => { c with st := 0 }, ?_, rfl, State.core_onCore_self hk _,
      fun j hj => State.core_onCore_ne hj _⟩, ?_⟩
    · rw [exec_coreWake, execCoreWake, if_neg (by simp [hst, hl])]
      rfl
    refine ⟨_, by rw [exec_coreWake, execCoreWake, if_neg (by simp [hst, hl])]; rfl, ?_⟩
    rw [State.report_err _ _ (by decide)]
    refine ⟨?_, rfl⟩
    refine (State.core_onCore_self (s := ((s.onCore k.val fun c => { c with st := 0 }).draw 16).2) hlen' _).trans ?_
    rw [show ((s.onCore k.val fun c => { c with st := 0 }).draw 16).2.core k.val = { s.core k.val with st := 0 } from
      State.core_onCore_self hk _]

end Sys2Proof.Machine
end

section
/-! The job (R54, R241, R242, R364, R367, R370, R579 to R581): its load, its orders, its end, the Tandem area and a snapshot. -/

namespace Sys2Proof.Machine

/-! ### What a job's start asks of power and of the coolant -/

/-- From `s` to `t` at most the power controller's state, that of Groom, and what has been sent to the tray. -/
def DemandOnly (s t : State) : Prop := t = { s with pwr := t.pwr, heat := t.heat, sent := t.sent }

theorem DemandOnly.refl (s : State) : DemandOnly s s := rfl

theorem DemandOnly.trans {s t u : State} (hst : DemandOnly s t) (htu : DemandOnly t u) : DemandOnly s u := by
  rw [DemandOnly, htu, hst]

theorem PwrOnly.demandOnly {s t : State} (h : PwrOnly s t) : DemandOnly s t := by
  rw [DemandOnly, h]

theorem DemandOnly.hal {s t : State} (h : DemandOnly s t) : t.hal = s.hal := by
  rw [h]

theorem DemandOnly.step {s t : State} (h : DemandOnly s t) : t.step = s.step := by
  rw [h]

theorem State.wantRegion_demandOnly (s : State) (g : Nat) (a : Bool) : DemandOnly s (s.wantRegion g a) := by
  unfold State.wantRegion
  dsimp only
  split_ifs <;> rfl

theorem State.wantTiles_demandOnly (s : State) : DemandOnly s s.wantTiles :=
  foldl_related DemandOnly.refl DemandOnly.trans (fun s g => s.wantRegion_demandOnly g false) _ s

theorem State.activity_demandOnly (s : State) (on : Bool) : DemandOnly s (s.activity on) := by
  unfold State.activity
  refine .trans (t := s.onHeat _) rfl (foldl_related DemandOnly.refl DemandOnly.trans (fun s g => ?_) _ _)
  split
  · exact s.wantRegion_demandOnly g true
  · rfl

theorem State.jobStarted_demandOnly (s : State) : DemandOnly s s.jobStarted := by
  have ha (u : State) : DemandOnly u (if u.heat.warmAct then u.activity false else u) := by
    split
    · exact u.activity_demandOnly false
    · exact .refl u
  exact .trans (t := s.onHeat _) rfl (.trans (ha _) rfl)

/-! ### The end of a job -/

/-- From `s` to `t` at most the tiles and the states of the step, the reduction, the fabric and Halter, and what sending changes. -/
def JobOnly (s t : State) : Prop :=
  t = { s with step := t.step, red := t.red, fab := t.fab, hal := t.hal, ports := t.ports, txWait := t.txWait
               sent := t.sent, freeIx := t.freeIx, tiles := t.tiles }

theorem JobOnly.trans {s t u : State} (hst : JobOnly s t) (htu : JobOnly t u) : JobOnly s u := by
  rw [JobOnly, htu, hst]

/-- What the end of a job leaves of the state: the Tandem area, and no queue and no record of a tile (R579). -/
structure JobEnds (s t : State) : Prop where
  only : JobOnly s t
  views : t.step.viewA = s.step.viewA ∧ t.step.viewU = s.step.viewU ∧ t.step.enabled = s.step.enabled ∧
    t.step.active = s.step.active ∧ t.step.committed = s.step.committed
  tiles : ∀ k, k < 192 → (t.tile k).pn.main = [] ∧ (t.tile k).mxq = []

theorem State.tile_endTiles (s : State) {k : Nat} (h : k < 192) : (s.endTiles.tile k).pn.main = [] ∧ (s.endTiles.tile k).mxq = [] := by
  have hs := (State.foldl_stopTile_stops (List.range 192) s).stopped k (List.mem_range.2 h)
  unfold State.endTiles
  dsimp only
  generalize (List.range 192).foldl (fun s t => s.stopTile t) s = u at hs ⊢
  rw [State.tile_allTiles _ _ h]
  exact ⟨rfl, hs.mxq⟩

theorem State.endTiles_only (s : State) : s.endTiles = { s with tiles := s.endTiles.tiles, freeIx := s.endTiles.freeIx } := by
  unfold State.endTiles
  rw [State.allTiles_tilesOnly, (State.foldl_stopTile_stops (List.range 192) s).only]

theorem State.tile_clearCounts (s : State) {k : Nat} (h : k < 192) :
    s.clearCounts.tile k = { s.tile k with posts := [], comp := 0 } := by
  unfold State.clearCounts
  rw [State.tile_allTiles _ _ h]
  rfl

theorem State.shipEnd_only (s : State) (x : Ship) (status : Nat) : s.shipEnd x status = { s with
    step := { s.step with ship := (s.shipEnd x status).step.ship }, fab := (s.shipEnd x status).fab, hal := (s.shipEnd x status).hal
    ports := (s.shipEnd x status).ports, txWait := (s.shipEnd x status).txWait, sent := (s.shipEnd x status).sent
    freeIx := (s.shipEnd x status).freeIx } := by
  unfold State.shipEnd
  extract_lets pay u
  have h := State.finish_halterOnly { u with fab := { u.fab with reqs := u.fab.reqs.map fun r =>
    if r.why = .snapshot then { r with why := .nobody } else r } } x.cmd status pay
  generalize State.finish _ x.cmd status pay = t at h
  rw [h]
  rfl

/-- What a cancelled JOB_STOP and a cancelled SNAPSHOT_SHIP leave. -/
theorem State.cancelJob_only (s : State) : s.cancelJob = { s with
    step := { s.step with ship := s.cancelJob.step.ship }, fab := s.cancelJob.fab, hal := s.cancelJob.hal
    ports := s.cancelJob.ports, txWait := s.cancelJob.txWait, sent := s.cancelJob.sent, freeIx := s.cancelJob.freeIx } := by
  obtain ⟨u, hu, hc⟩ : ∃ u : State, u = { s with step := { s.step with ship := u.step.ship }, fab := u.fab, hal := u.hal
                                                 ports := u.ports, txWait := u.txWait, sent := u.sent, freeIx := u.freeIx } ∧
      HalterOnly u s.cancelJob := by
    unfold State.cancelJob
    split
    · next x _ =>
      refine ⟨_, ?_, (State.finishAll_jobKept _ 0x10A 0xD []).1⟩
      exact s.shipEnd_only x 0xD
    · exact ⟨s, rfl, (State.finishAll_jobKept s 0x10A 0xD []).1⟩
  generalize s.cancelJob = t at hc
  rw [hc, hu]

/-- The sequencers end, then the counts are cleared, then what waits is cancelled. -/
theorem JobEnds.of {s t u v : State} (h1 : t = { s with tiles := t.tiles, freeIx := t.freeIx })
    (ht : ∀ k, k < 192 → (t.tile k).pn.main = [] ∧ (t.tile k).mxq = []) (h2 : JobOnly t u)
    (hs : u.step = { t.step with drainCount := 0, ended := false, counted := [], held := none, actionable := none
                                 requested := false, withheld := false })
    (hu : ∀ k, k < 192 → u.tile k = { t.tile k with posts := [], comp := 0 })
    (h3 : v = { u with step := { u.step with ship := v.step.ship }, fab := v.fab, hal := v.hal, ports := v.ports
                       txWait := v.txWait, sent := v.sent, freeIx := v.freeIx }) : JobEnds s v := by
  have hv : v.step = { u.step with ship := v.step.ship } := by rw [h3]
  have htst : t.step = s.step := by rw [h1]
  have htile : v.tiles = u.tiles := by rw [h3]
  refine ⟨.trans (t := u) (.trans (t := t) ?_ h2) ?_, ?_, fun k hk => ?_⟩
  · rw [h1]
    rfl
  · rw [h3]
    rfl
  · rw [hv, hs, htst]
    exact ⟨rfl, rfl, rfl, rfl, rfl⟩
  · have hv : v.tile k = u.tile k := by rw [State.tile, State.tile, htile]
    rw [hv, hu k hk]
    exact ht k hk

theorem State.clearCounts_jobOnly (s : State) : JobOnly s s.clearCounts := by
  have h := s.clearCounts_tilesOnly
  generalize s.clearCounts = t at h
  rw [h]
  rfl

theorem State.clearCounts_step (s : State) : s.clearCounts.step = { s.step with
    drainCount := 0, ended := false, counted := [], held := none, actionable := none, requested := false, withheld := false } := by
  have h := s.clearCounts_tilesOnly
  generalize s.clearCounts = t at h
  rw [h]

theorem State.endJob_ends (s : State) : JobEnds s s.endTiles.clearCounts.cancelJob :=
  .of s.endTiles_only (fun _ => s.tile_endTiles) (State.clearCounts_jobOnly _) (State.clearCounts_step _)
    (fun _ => State.tile_clearCounts _) (State.cancelJob_only _)

/-! ### The load -/

/-- The state in which a job has been loaded, before Rein powers on its regions. -/
def State.jobCleared (s : State) (program : Bytes) (mb : Nat) (tiles : List Nat) : State :=
  s.endTiles.clearCounts.cancelJob.onStep fun x =>
    { x with program := program, tileSet := tiles, mbCount := mb, st := 0, attempt := 0, written := [], firstCopies := 0
             committed := if s.hal.job == 0 then 0 else x.committed, repeats := if s.hal.job == 0 then 0 else x.repeats
             repeating := none, stopping := false, afterSwap := false, drained := false }

theorem State.jobCleared_step (s : State) (program : Bytes) (mb : Nat) (tiles : List Nat) {x : Step}
    (hx : x = (s.jobCleared program mb tiles).step) :
    x.tileSet = tiles ∧ x.mbCount = mb ∧ x.program = program ∧ x.st = 0 ∧ x.viewA = s.step.viewA ∧ x.viewU = s.step.viewU ∧
      x.enabled = s.step.enabled ∧ x.active = s.step.active ∧ x.committed = if s.hal.job = 0 then 0 else s.step.committed := by
  obtain ⟨hA, hU, he, hact, hcom⟩ := s.endJob_ends.views
  simp only [hx, State.jobCleared, State.onStep, hA, hU, he, hact, hcom, beq_iff_eq, and_self]

theorem State.loadJob_step (s : State) (program : Bytes) (mb : Nat) (tiles : List Nat) :
    (s.loadJob program mb tiles).step = (s.jobCleared program mb tiles).step ∧ (s.loadJob program mb tiles).hal.job = 1 := by
  have hw (u : State) : u.wantTiles.step = u.step ∧ u.wantTiles.hal = u.hal := ⟨u.wantTiles_demandOnly.step, u.wantTiles_demandOnly.hal⟩
  have hp (u : State) : u.phasesZero.step = u.step := (State.phasesZero_pwrOnly u).demandOnly.step
  unfold State.loadJob
  extract_lets fresh a b c
  have hb : b.step = (s.jobCleared program mb tiles).step := rfl
  have hc : c.step = b.step := hp (b.onPwr _)
  clear_value c
  rw [(hw _).1, (hw _).2]
  exact ⟨hc.trans hb, rfl⟩

/-! ### The orders -/

theorem State.startJob_started {s : State} (h : s.hal.job = 1) :
    s.startJob.hal.job = 2 ∧ s.startJob.step.st = 1 ∧ s.startJob.step.attempt = 0 ∧ s.startJob.step.written = [] := by
  unfold State.startJob
  rw [if_neg (not_not.2 h)]
  extract_lets u
  have hu : u.hal.job = 2 ∧ u.step.st = 1 ∧ u.step.attempt = 0 ∧ u.step.written = [] := ⟨rfl, rfl, rfl, rfl⟩
  clear_value u
  have hd : DemandOnly u u.jobStarted.phasesZero.wantTiles :=
    (u.jobStarted_demandOnly.trans (State.phasesZero_pwrOnly _).demandOnly).trans (State.wantTiles_demandOnly _)
  generalize u.jobStarted.phasesZero.wantTiles = v at hd
  have ht := v.startAll_tilesOnly
  generalize v.startAll = w at ht
  rw [show w.hal = u.hal by rw [ht, hd], show w.step = u.step by rw [ht, hd]]
  exact hu

theorem State.follow_eq (s : State) (st : Nat) : s.follow st = { s with red := (s.follow st).red } := by
  unfold State.follow
  split <;> rfl

theorem State.halt_follow {s : State} (h : s.hal.job = 2) (st : Nat) :
    (s.follow st).halt = { s.follow st with hal := { s.hal with job := 3, jobSince := s.now } } := by
  have he := s.follow_eq st
  generalize s.follow st = t at he ⊢
  have hh : t.hal = s.hal := by rw [he]
  have hn : t.now = s.now := by
    rw [he]
    rfl
  rw [State.halt, if_pos (by rw [hh, h]), State.setJob, hh, hn]

theorem HalterOnly.step {s t : State} (h : HalterOnly s t) : t.step = s.step := by
  rw [h]

theorem HalterOnly.red {s t : State} (h : HalterOnly s t) : t.red = s.red := by
  rw [h]

theorem HalterOnly.tile {s t : State} (h : HalterOnly s t) (k : Nat) : t.tile k = s.tile k := by
  rw [h]
  rfl

/-- Settles O41: the end of a job keeps the Tandem area, and what starts one asks only for power and flow. -/
theorem halterJob : Obligations.HalterJob := by
  intro h s A
  refine ⟨?_, ?_, ?_, ?_, ?_, ?_, ?_, ?_, ?_, ?_⟩
  · intro l tiles mb b s1 ha h1 h2 hne hnd hslot hl
    refine (ha.exec_eq (c := .programLoad h l tiles mb) (by rw [exec_programLoad, execProgramLoad]; rfl)).trans ?_
    have hs : (tiles.map (·.val)).any (fun t => ((s.accept h).slotOf t).isNone) = false := by
      simp only [List.any_eq_false, List.mem_map]
      rintro _ ⟨k, hk, rfl⟩
      have := hslot k hk
      change ¬ (s.slotOf k.val).isNone = true
      simp [Option.isSome_iff_ne_none] at this ⊢
      exact this
    dsimp only
    rw [if_neg, show (s.accept h).loadData l.src l.len l.check = _ from hl]
    rw [hs]
    simp [hnd, hne]
    omega
  · intro c q mb ts hp hc
    refine ⟨_, by rw [exec_programLoadDone, execProgramLoadDone, hp]; dsimp only; rw [hc], ?_⟩
    obtain ⟨hstep, hjob⟩ := s.loadJob_step c.data mb ts
    obtain ⟨h1, h2, h3, h4, h5, h6, h7, h8, h9⟩ := s.jobCleared_step c.data mb ts hstep
    generalize s.loadJob c.data mb ts = t at hjob h1 h2 h3 h4 h5 h6 h7 h8 h9 ⊢
    rw [State.finish_job, (State.finish_halterOnly ..).step]
    exact ⟨hjob, h1, h2, h3, h4, h5, h6, h7, h8, h9, rfl⟩
  · intro pay a u n ha h1 h2 hva hvu ho
    refine (ha.exec_eq (c := .tandemSet h pay a u n) (by rw [exec_tandemSet, execTandemSet]; rfl)).trans ?_
    dsimp only
    rw [if_neg]
    · rfl
    · rw [show (s.accept h).viewOk = s.viewOk from rfl, hva, hvu, ho]
      simp
      omega
  · intro ha
    have he := ha.exec_eq (c := .jobStart h) (by rw [exec_jobStart, execJobStart]; rfl)
    refine ⟨fun ⟨ht, hb⟩ => he.trans ?_, fun hor => he.trans ?_⟩
    · rw [if_neg (by rw [show (s.accept h).topLead = s.topLead from rfl, ht]; simp; exact hb)]
      rfl
    · rw [if_pos (by simp; exact hor)]
  · intro ha ht
    refine ⟨_, ha.exec_eq (c := .jobStop h) (by rw [exec_jobStop, execJobStop]; rfl), ?_⟩
    dsimp only
    rw [if_neg (by rw [show (s.accept h).topLead = s.topLead from rfl, ht]; decide)]
    generalize hu : (((s.accept h).pend (hdrCmd h 0x10A s.now)).onRed fun r => { r with stopping := true }) = u
    have hp := ((s.accept_repliesOnly h).trans (State.pend_repliesOnly _ (hdrCmd h 0x10A s.now))).hal
    have hc : ((s.accept h).pend (hdrCmd h 0x10A s.now)).hal.cmds = s.hal.cmds ++ [hdrCmd h 0x10A s.now] := by
      rw [State.pend, State.answer_hal]
      rfl
    have hred : u.red.stopping = true := by rw [← hu]; rfl
    have hhal : u.hal = ((s.accept h).pend (hdrCmd h 0x10A s.now)).hal := by rw [← hu]; rfl
    have ht := u.toMembers_fabOnly 12 [1]
    generalize u.toMembers 12 [1] = t at ht
    have hth : t.hal = u.hal := by rw [ht]
    refine ⟨by rw [ht.red, hred], ?_, ?_⟩
    · rw [State.pendingOf, hth, hhal, hc, List.filter_append]
      rfl
    · rw [hth, hhal, hp]
  · intro ha ht hat
    have he := ha.exec_eq (c := .jobRetry h) (by rw [exec_jobRetry, execJobRetry]; rfl)
    refine ⟨fun ⟨o, ho, hc⟩ => he.trans ?_, fun ⟨o, ho, hc⟩ => he.trans ?_⟩
    all_goals have hd : (s.accept h).red.deciding = some o := ho
    · rw [if_pos (by simp [hd, hc])]
    · dsimp only
      rw [if_neg (by simp [hd, hc, show (s.accept h).topLead = true from ht]; exact hat), if_pos]
      · rfl
      · rw [(State.toMembers_fabOnly ..).red]
        simp [State.onRed, hd]
  · intro ha ht hat hd
    have hd : (s.accept h).red.deciding = none := hd
    refine ⟨_, ha.exec_eq (c := .jobRetry h) (by rw [exec_jobRetry, execJobRetry]; rfl), ?_⟩
    dsimp only
    rw [if_neg (by simp [hd, show (s.accept h).topLead = true from ht]; exact hat), if_neg]
    · rw [(State.toMembers_fabOnly ..).red]
      rfl
    · rw [(State.toMembers_fabOnly ..).red]
      simp [State.onRed, hd]
  · intro ha
    refine ⟨_, ha.exec_eq (c := .jobUnload h) (by rw [exec_jobUnload, execJobUnload]; rfl), ?_⟩
    have hv := (s.accept h).endJob_ends
    generalize (s.accept h).endTiles.clearCounts.cancelJob = v at hv
    obtain ⟨hA, hU, _, hact, _⟩ := hv.views
    refine ⟨State.answer_job .., ?_⟩
    dsimp only
    rw [(State.answer_halterOnly ..).step, (State.answer_halterOnly ..).red]
    refine ⟨rfl, rfl, rfl, hA, hU, hact, fun k hk => ?_⟩
    rw [(State.answer_halterOnly ..).tile]
    exact hv.tiles k hk
  · intro p o q u ht hr
    have he := (exec_jobOrderReceived s p o).trans (ledgerRow_takes hr ht)
    have hu : MemOnly s u := ht.heard_memOnly rfl
    have hfa : u.fromAbove p.src = s.fromAbove p.src := by simp only [State.fromAbove, hu.red, hu.device]
    have hjob : u.hal.job = s.hal.job := by rw [hu.1]
    have hfol (st : Nat) : (u.follow st).hal.job = s.hal.job := by
      rw [u.follow_eq st]
      exact hjob
    rw [show s.heard (ledPkt p 12 [jobOrderNum o]) = u from rfl] at he
    refine ⟨fun ha => he.trans ?_, fun ha => ?_⟩
    · rw [if_pos (hfa.trans ha)]
    · rw [if_neg (by rw [hfa, ha]; decide)] at he
      refine ⟨?_, ?_, ?_, ?_⟩
      · rintro rfl hj
        exact ⟨_, he, State.startJob_started ((hfol 1).trans hj)⟩
      · rintro rfl hj
        refine he.trans ?_
        dsimp only
        rw [if_pos (hjob.trans hj)]
        rfl
      · rintro rfl hj
        refine ⟨_, he, ?_⟩
        dsimp only
        rw [if_pos ((hfol 1).trans hj), (State.jobStarted_demandOnly _).hal]
        rfl
      · rintro rfl hj
        exact ⟨_, he, by rw [← hu.now]; exact State.halt_follow (hjob.trans hj) 5⟩
  · intro off len dst key at_ ha hs hl he h1 h2 hd hk hat
    refine ⟨_, ha.exec_eq (c := .snapshotShip h off len dst key at_) (by rw [exec_snapshotShip, execSnapshotShip]; rfl), ?_⟩
    have hsh : (s.accept h).step.ship = none := hs
    dsimp only
    have hst : (s.accept h).stepNo = s.stepNo := rfl
    have hv : (decide ((s.accept h).step.viewA ≤ off) && decide (off + len ≤ (s.accept h).step.viewA + 65536 *
      (s.accept h).step.units)) = true := by
      simpa using ⟨h1, h2⟩
    have hen : (s.accept h).step.enabled = true := he
    rw [if_neg (by simp [hsh]), if_neg (by simp [hl, hd, hv, hen, hst]; omega)]
    have hp := (s.accept_halterOnly h).trans (State.pend_repliesOnly (s.accept h) (hdrCmd h 0x110 s.now)).halter
    generalize (s.accept h).pend (hdrCmd h 0x110 s.now) = v at hp ⊢
    refine ⟨?_, by rw [State.onStep, hp.step]⟩
    rw [hp]
    rfl

end Sys2Proof.Machine
end

section
/-! Memory and registers reached from the host (R17 to R19, R62, R245, R526, R582, R584): MEM_READ, MEM_WRITE, CTL_READ, and the
words that are written. -/

namespace Sys2Proof.Machine

/-! ### Words -/

theorem fromBytes_toBytes (n x : Nat) : fromBytes (toBytes n x) = x % 256 ^ n := by
  induction n generalizing x with
  | zero => simp [toBytes, fromBytes, Nat.mod_one]
  | succ n ih =>
    rw [toBytes, fromBytes, ih, BitVec.toNat_ofNat, pow_succ' 256 n]
    exact (Nat.mod_mul ..).symm

/-- A number of a field comes back from its bytes. -/
theorem field_toBytes {n x : Nat} (h : x < 256 ^ n) : field (toBytes n x) 0 n = x := by
  have hs : slice (toBytes n x) 0 n = toBytes n x := by simp [slice]
  rw [field, hs, fromBytes_toBytes, Nat.mod_eq_of_lt h]

/-- The bytes of a range within what has been read. -/
theorem slice_getList (t : Tbl Byte) {lo a n len : Nat} (ha : lo ≤ a) (hl : a + n ≤ lo + len) :
    slice (Tbl.getList 0 t lo len) (a - lo) n = Tbl.getList 0 t a n := by
  have h1 : len = (a - lo) + (n + (lo + len - (a + n))) := by omega
  have h2 : lo + (a - lo) = a := by omega
  have hlen (i k : Nat) : (Tbl.getList 0 t i k).length = k := by simp
  conv_lhs => rw [h1, Tbl.getList_add, Tbl.getList_add, h2]
  have := slice_append (Tbl.getList 0 t lo (a - lo)) (Tbl.getList 0 t a n) (Tbl.getList 0 t (a + n) (lo + len - (a + n)))
  rwa [hlen, hlen] at this

/-! ### What a session allows -/

theorem State.session_accept {s : State} {h : Hdr} {x : Session} (hx : s.session h.session = some x) :
    ∃ y, (s.accept h).session h.session = some y ∧ y.msgMax = x.msgMax := by
  have hsess : (s.accept h).session h.session = ((s.session h.session).map fun x =>
      if x.num = h.session then { x with lastMsg := (s.rxCount h.port h.len).now, port := h.port, addr := h.addr } else x).map fun x =>
      if x.num = h.session then { x with high := max x.high h.seq } else x := by
    rw [State.accept, State.session_onSession, State.heardFrom, State.session_onSession]
    · rfl
    · intro x; rfl
    · intro x; rfl
  rw [hsess, hx]
  exact ⟨_, rfl, by dsimp only; split_ifs <;> rfl⟩

/-! ### Reads and writes of sound memory -/

/-- A read for the host of sound memory gives the bytes that are there, and asks no other home. -/
theorem State.memFetch_sound {s : State} {a n : Nat} (h : SoundHbm s a n) (hc : s.fab.combining = [])
    (hp : ∀ b, a ≤ b → b < a + n → (s.unitAt b).poison = false) (session seq : Nat) :
    ∃ o, s.memFetch a n session seq = (Tbl.getList 0 s.hbm.bytes a n, false, { s with obs := o }) := by
  have hno : s.combineAt a n = s := if_pos (by rw [hc]; rfl)
  unfold State.memFetch
  rw [hno]
  dsimp only
  unfold State.places
  rw [List.foldl_map]
  have hlen : Tbl.getList 0 s.hbm.bytes a n = [] ++ Tbl.getList 0 s.hbm.bytes a (List.replicate n (0 : Byte)).length := by simp
  rw [hlen]
  refine foldl_blockCut_read (m := 65536) (by omega) (s := s) (lo := a) (hi := a + n) (fun acc o p hlo hhi hne => ?_) n a _ [] s.obs
    (by simp) le_rfl (by simp)
  have hpos := List.length_pos_of_ne_nil hne
  have hpart := h.part hlo hhi hpos
  obtain ⟨o', ho'⟩ := State.getSpan_sound (s := { s with obs := o }) (SoundHbm.congr hpart rfl) hpos
    fun b hb1 hb2 => hp b (by omega) (by omega)
  refine ⟨o', ?_⟩
  dsimp only
  rw [hpart.storage, hpart.phys hpos]
  dsimp only
  rw [ho']
  rfl

theorem State.claim_of_reqs_nil {s : State} (h : s.fab.reqs = []) (n : Nat) (w : Purpose) : s.claim n w = s := by
  unfold State.claim
  rw [h]
  conv_rhs => rw [show s = { s with fab := { s.fab with reqs := s.fab.reqs } } from rfl, h]
  rfl

theorem State.memWaits_of_reqs_nil {s : State} (h : s.fab.reqs = []) (n : Nat) : s.memWaits n = [] := by
  rw [State.memWaits, h]
  rfl

/-- MEM_WRITE of sound memory: the bytes are stored and the command answered. -/
theorem State.doMemWrite_sound {s : State} {a : Nat} {data : Bytes} (h : SoundHbm s a data.length) (hc : s.fab.combining = [])
    (hr : s.fab.reqs = []) (c : PendCmd) : ∃ t, Stored s t a data ∧ s.doMemWrite c a data = t.answer c 0 := by
  have hs := State.memWrite_stored h hc 0 false
  refine ⟨_, hs, ?_⟩
  have ht : (s.memWrite a data 0).fab = s.fab := by rw [hs.only]
  unfold State.doMemWrite
  extract_lets k u ws
  have hu : u = s.memWrite a data 0 := State.claim_of_reqs_nil (by rw [ht, hr]) ..
  have hws : ws = [] := State.memWaits_of_reqs_nil (by rw [hu, ht, hr]) _
  rw [if_pos (by rw [hws]; rfl), hu]

/-- MEM_READ of sound memory: the command is answered with its bytes. -/
theorem State.doMemRead_sound {s : State} {a n : Nat} (h : SoundHbm s (a / 4 * 4) (roundUp (a + n) 4 - a / 4 * 4))
    (hc : s.fab.combining = []) (hr : s.fab.reqs = [])
    (hp : ∀ b, a / 4 * 4 ≤ b → b < a / 4 * 4 + (roundUp (a + n) 4 - a / 4 * 4) → (s.unitAt b).poison = false) (c : PendCmd) :
    ∃ o, s.doMemRead c a n [] = State.answer { s with obs := o } c 0 (Tbl.getList 0 s.hbm.bytes a n) := by
  obtain ⟨o, ho⟩ := State.memFetch_sound h hc hp c.session c.seq
  refine ⟨o, ?_⟩
  have hno : s.rangeErrs a n [] = s := rfl
  unfold State.doMemRead
  dsimp only
  rw [hno, ho]
  dsimp only
  rw [State.memWaits_of_reqs_nil (s := { s with obs := o }) hr, if_neg (by decide), slice_getList _ (by omega) (by unfold roundUp; omega)]
  rfl

/-! ### Writes of a register -/

theorem execRegisterWrite_eq (o : BitVec 28) (v : BitVec 64) (s : State) (ho : o.toNat % 8 = 0) :
    execRegisterWrite o v s = .next (if s.regBad o.toNat v.toNat then s else s.regWrite o.toNat v.toNat) := by
  have hf : field (toBytes 8 v.toNat) 0 8 = v.toNat := field_toBytes (by have := v.isLt; omega)
  unfold execRegisterWrite State.ctlWrite
  rw [length_toBytes]
  dsimp only
  simp only [ho, show (8 : Nat) / 8 = 1 from rfl, show List.range 1 = [0] from rfl, List.any_cons, List.any_nil, Nat.mul_zero,
    Nat.add_zero, hf, List.foldl_cons, List.foldl_nil]
  cases s.regBad o.toNat v.toNat <;> rfl

/-- Settles O43: sound memory is read and written as it stands, and a write of a register is taken whole or not at all. -/
theorem halterMemory : Obligations.HalterMemory := by
  refine ⟨fun h s x hx hv hc => ?_, fun o v s => ⟨fun ho hb => ?_, fun ho hb => ?_, fun n hn ho hb => ?_, fun ho hlt => ?_⟩⟩
  · intro A
    obtain ⟨y, hy, hmax⟩ := State.session_accept hx
    have hv : A.step.enabled = false := hv
    have hviews (a n : Nat) : A.meetsActive a n = false ∧ A.meetsUpdate a n = false := by
      simp [State.meetsActive, State.meetsUpdate, hv]
    have hviews (a n : Nat) : A.meetsViews a n = false ∧ A.tandemRefuses a n = false := by
      simp [State.meetsViews, State.tandemRefuses, hviews]
    have hreach (a n : Nat) (hn : n ≠ 0) (hin : s.inHbm a n = true) : A.memReach a n = true := by
      simp [State.memReach, hn, show A.inHbm a n = true from hin]
    refine ⟨?_, ?_, ?_, ?_, ?_⟩
    · intro a data ha hl hne hin hrel hhold hfl hreq hch
      have hlen : data.length ≠ 0 := by simpa using hne
      obtain ⟨t, ht, heq⟩ := State.doMemWrite_sound (s := A) ⟨hin, hfl, hch, hv⟩ hc hreq (hdrCmd h 0x102 s.now)
      refine ⟨t.answer (hdrCmd h 0x102 s.now) 0, (ha.exec_eq (c := .memWrite h a data) (by rw [exec_memWrite, execMemWrite]; rfl)).trans ?_, ?_⟩
      · rw [show (s.accept h).session h.session = some y from hy]
        dsimp only
        rw [if_neg (by rw [show (s.accept h).memReach a data.length = true from hreach _ _ hlen hin, hmax]; simp; exact hl),
          if_neg (by rw [show (s.accept h).meetsViews a data.length = false from (hviews _ _).1]; simp),
          if_neg (by rw [show (s.accept h).tandemRefuses a data.length = false from (hviews _ _).2,
            show (s.accept h).relaying a data.length = false from hrel]; decide),
          if_neg (by rw [show (s.accept h).memHoldAt a data.length true = none from hhold]; decide)]
        exact congrArg _ heq
      · have hk := t.answer_halterOnly (hdrCmd h 0x102 s.now) 0 []
        generalize t.answer (hdrCmd h 0x102 s.now) 0 [] = u at hk
        have hb : u.hbm = t.hbm := by rw [hk]
        beta_reduce
        rw [hb]
        refine ⟨ht.getList, fun b hb => ht.get_ne hb, ?_, ?_⟩
        · rw [HalterOnly, hk, ht.only]
          rfl
        · rw [hk, ht.only]
          rfl
    · intro a n ha hl hn hin lo len hin' hrel hhold hfl hreq hch
      obtain ⟨o, ho⟩ := State.doMemRead_sound (s := A) (a := a) (n := n) ⟨hin', hfl, fun b h1 h2 => (hch b h1 h2).1, hv⟩ hc hreq
        (fun b h1 h2 => (hch b h1 h2).2) (hdrCmd h 0x101 s.now)
      refine ⟨State.answer { A with obs := o } (hdrCmd h 0x101 s.now) 0 (Tbl.getList 0 s.hbm.bytes a n),
        (ha.exec_eq (c := .memRead h a n []) (by rw [exec_memRead, execMemRead]; rfl)).trans ?_, ?_⟩
      · rw [show (s.accept h).session h.session = some y from hy]
        dsimp only
        rw [if_neg (by rw [show (s.accept h).memReach a n = true from hreach _ _ hn hin, hmax]; simp; exact hl),
          if_neg (by rw [show (s.accept h).relaying a n = false from hrel]; decide),
          if_neg (by rw [show (s.accept h).memHoldAt a n false = none from hhold]; decide)]
        exact congrArg _ ho
      · have hk := State.answer_halterOnly { A with obs := o } (hdrCmd h 0x101 s.now) 0 (Tbl.getList 0 s.hbm.bytes a n)
        refine ⟨?_, ?_, o, rfl⟩
        all_goals
          rw [hk]
          rfl
    · intro a data ha hl hne hin hrel hhold
      have hlen : data.length ≠ 0 := by simpa using hne
      refine (ha.exec_eq (c := .memWrite h a data) (by rw [exec_memWrite, execMemWrite]; rfl)).trans ?_
      rw [show (s.accept h).session h.session = some y from hy]
      dsimp only
      rw [if_neg (by rw [show (s.accept h).memReach a data.length = true from hreach _ _ hlen hin, hmax]; simp; exact hl),
        if_neg (by rw [show (s.accept h).meetsViews a data.length = false from (hviews _ _).1]; simp),
        if_neg (by rw [show (s.accept h).tandemRefuses a data.length = false from (hviews _ _).2,
          show (s.accept h).relaying a data.length = false from hrel]; decide),
        if_pos (c := ((s.accept h).memHoldAt _ _ _).isSome = true) (Option.isSome_iff_ne_none.2 hhold)]
    · intro a n ha hl hn hin hrel hhold
      refine (ha.exec_eq (c := .memRead h a n []) (by rw [exec_memRead, execMemRead]; rfl)).trans ?_
      rw [show (s.accept h).session h.session = some y from hy]
      dsimp only
      rw [if_neg (by rw [show (s.accept h).memReach a n = true from hreach _ _ hn hin, hmax]; simp; exact hl),
        if_neg (by rw [show (s.accept h).relaying a n = false from hrel]; decide),
        if_pos (c := ((s.accept h).memHoldAt _ _ _).isSome = true) (Option.isSome_iff_ne_none.2 hhold)]
    · intro o n ha hn hl hlt
      refine (ha.exec_eq (c := .ctlRead h o n) (by rw [exec_ctlRead, execCtlRead]; rfl)).trans ?_
      rw [show (s.accept h).session h.session = some y from hy]
      dsimp only
      rw [if_neg (by rw [hmax]; simp; omega)]
  · rw [exec_registerWrite, execRegisterWrite_eq o v s ho, if_pos hb]
  · rw [exec_registerWrite, execRegisterWrite_eq o v s ho, if_neg (by simp [hb])]
  · refine ⟨_, by rw [exec_registerWrite, execRegisterWrite_eq o v s (by omega), if_neg (by simp [hb]), State.regWrite,
      if_neg (by omega), if_neg (by simp; omega), if_neg (by simp; omega), if_pos (by simp; omega)], ?_⟩
    have hix : (o.toNat - 0xA1000) / 8 = n := by omega
    rw [hix]
    exact ⟨Tbl.get_set_self .., fun j hj => Tbl.get_set_ne hj _ _, rfl⟩
  · have hw : s.regWrite o.toNat v.toNat = s := by
      rw [State.regWrite, if_neg (by omega), if_neg (by simp; omega), if_neg (by simp; omega), if_neg (by simp; omega),
        if_neg (by omega)]
    rw [exec_registerWrite, execRegisterWrite_eq o v s ho, hw, ite_self]

end Sys2Proof.Machine
end

section
/-! What the host sets (R542): a refutation. A setting of one port is taken while the frame that carried the command is counted
at the port that brought it, so that the ports beside the one set are not all as they were. -/

namespace Sys2Proof.Machine

/-! ### A port's count of what it has received -/

/-- What a change of a port keeps of every port, it keeps of each. -/
theorem State.port_onPort_keeps {α : Type} (g : Port → α) (s : State) {p : Nat} {f : Port → Port} (hf : ∀ x, g (f x) = g x) (j : Nat) :
    g ((s.onPort p f).port j) = g (s.port j) := by
  by_cases hj : j = p
  · subst hj
    by_cases hl : j < s.ports.length
    · rw [State.port_onPort_self hl, hf]
    · have hs : s.onPort j f = s := by
        have : setAt s.ports j f = s.ports := List.modify_eq_self (by omega)
        rw [State.onPort, this]
      rw [hs]
  · rw [State.port_onPort_ne hj]

theorem Port.put_rxFrames (x : Port) (now len : Nat) : (x.put now len).cnt.rxFrames = x.cnt.rxFrames := by
  unfold Port.put
  dsimp only
  split <;> rfl

theorem State.sendOn_rxFrames (s : State) (p cls len : Nat) (x : Sent) (j : Nat) :
    ((s.sendOn p cls len x).port j).cnt.rxFrames = (s.port j).cnt.rxFrames := by
  unfold State.sendOn
  split_ifs
  · rfl
  · rfl
  · exact s.port_onPort_keeps (f := fun q => q.put s.now len) (fun y => y.cnt.rxFrames) (fun x => x.put_rxFrames ..) j

theorem State.answer_rxFrames (s : State) (c : PendCmd) (status : Nat) (payload : Bytes) (j : Nat) :
    ((s.answer c status payload).port j).cnt.rxFrames = (s.port j).cnt.rxFrames := by
  unfold State.answer
  dsimp only
  split
  · exact State.sendOn_rxFrames ..
  · rfl

/-- PORT_SET counts nothing itself: what has been received is what its own frame left. -/
theorem Accepted.portSet_rxFrames {s t : State} {h : Hdr} {pay : List Byte} (ha : Accepted s h 0x308 15 false)
    (ht : exec (.portSet h pay) s = .next t) (j : Nat) : (t.port j).cnt.rxFrames = ((s.accept h).port j).cnt.rxFrames := by
  have hx := ha.exec_eq (c := .portSet h pay) (by rw [exec_portSet, execPortSet]; rfl)
  obtain rfl := Host.Outcome.next.inj (hx.symm.trans ht)
  dsimp only
  split
  · exact State.answer_rxFrames ..
  split
  · exact State.answer_rxFrames ..
  rw [State.answer_rxFrames]
  split
  · unfold State.lldpSoon
    rw [State.port_onPort_keeps (fun y => y.cnt.rxFrames), State.port_onPort_keeps (fun y => y.cnt.rxFrames)]
    all_goals exact fun _ => rfl
  · rw [State.port_onPort_keeps (fun y => y.cnt.rxFrames)]
    exact fun _ => rfl

/-! ### The counterexample -/

/-- The state after reset with CONTROL session 1 open. -/
def oneSession : State := { State.reset with hal := { State.reset.hal with sessions := [{ num := 1, control := true }] } }

/-- The first command of session 1 to mailbox 3, in a frame at port 0. -/
def firstCmd : Hdr := { session := 1, seq := 1, mailbox := 3 }

/-- PORT_SET of parameter 0x0801 of port 1 to the value 0. -/
def setPort1 : List Byte := [0x01, 0x08, 1] ++ List.replicate 29 0

theorem oneSession_accepts : Accepted oneSession firstCmd 0x308 15 false where
  session := ⟨{ num := 1, control := true }, rfl, rfl, by decide, .inr rfl⟩
  mailbox := rfl
  room := by decide
  mode := rfl

/-- Refutes O48: with a session open, PORT_SET for port 1 comes in at port 0, which counts its frame. -/
theorem not_halterSettings : ¬ Obligations.HalterSettings := by
  intro hall
  obtain ⟨-, -, -, -, -, -, -, -, -, -, hset, -⟩ := hall firstCmd oneSession
  have hcfg : (oneSession.port (field setPort1 2 1)).cfg.set (field setPort1 0 2) (setPort1.drop 8) =
    some { (oneSession.port 1).cfg with type := 0 } := rfl
  obtain ⟨t, ht, b, -, hother, -, rfl⟩ := hset setPort1 _ oneSession_accepts rfl rfl (by decide) rfl (by decide) hcfg
  have hb : ((b.answer (hdrCmd firstCmd 0x308 oneSession.now) 0).port 0).cnt.rxFrames = 0 := by
    rw [State.answer_rxFrames, hother 0 (by decide)]
    rfl
  rw [oneSession_accepts.portSet_rxFrames ht] at hb
  exact absurd hb (by decide)

end Sys2Proof.Machine
end

section
/-! Notices of phases and their boosts (R315 to R317, R637, R638, R643 to R645). -/

namespace Sys2Proof.Machine

/-! ### What a change of a region's power state keeps -/

/-- What a change of one region's state keeps of every region's, it keeps of each. -/
theorem State.pr_onPr_keeps {α : Type} (v : PwrRegion → α) (s : State) {g : Nat} {f : PwrRegion → PwrRegion}
    (hf : ∀ x, v (f x) = v x) (j : Nat) : v ((s.onPr g f).pr j) = v (s.pr j) := by
  by_cases hj : j = g
  · subst hj
    by_cases hl : j < s.pwr.regions.length
    · rw [State.pr_onPr_self hl, hf]
    · have hs : s.onPr j f = s := by
        have : setAt s.pwr.regions j f = s.pwr.regions := List.modify_eq_self (by omega)
        rw [State.onPr, this]
      rw [hs]
  · rw [State.pr_onPr_ne hj]

/-- The phase, the count of notices and the notices of a region. -/
def PwrRegion.noticed (r : PwrRegion) : Nat × Nat × List Notice := (r.phase, r.hints, r.notices)

theorem State.retryDeferred_noticed (s : State) (d g : Nat) : ((s.retryDeferred d).pr g).noticed = (s.pr g).noticed := by
  refine foldl_related (R := fun s t : State => (t.pr g).noticed = (s.pr g).noticed) (fun _ => rfl) (fun h1 h2 => h2.trans h1)
    (fun s r => ?_) _ s
  refine s.pr_onPr_keeps PwrRegion.noticed (fun x => ?_) g
  split <;> rfl

theorem State.paceBy_noticed (s : State) (h power g : Nat) : ((s.paceBy h power).pr g).noticed = (s.pr g).noticed := by
  unfold State.paceBy
  exact s.pr_onPr_keeps PwrRegion.noticed (by exact fun _ => rfl) g

theorem State.endPhase_eq (s : State) (g : Nat) : ∃ learn, s.endPhase g =
    State.onPr { s with pwr := { s.pwr with learn := learn } } g fun r => { r with phaseSum := 0, phaseN := 0 } := by
  unfold State.endPhase
  dsimp only
  split_ifs
  · exact ⟨_, rfl⟩
  · exact ⟨s.pwr.learn, rfl⟩

theorem State.pr_enterPhase {s : State} {g : Nat} (hg : g < s.pwr.regions.length) (tag : Nat) :
    (s.enterPhase g tag).pr g = { s.pr g with phaseSum := 0, phaseN := 0, phase := tag } := by
  obtain ⟨learn, he⟩ := s.endPhase_eq g
  have hl : g < (s.endPhase g).pwr.regions.length := by
    rw [he, State.onPr, setAt_length]
    exact hg
  have hend : (s.endPhase g).pr g = { s.pr g with phaseSum := 0, phaseN := 0 } := by
    rw [he]
    exact State.pr_onPr_self hg _
  rw [State.enterPhase, State.pr_onPr_self hl, hend]

theorem State.length_enterPhase (s : State) (g tag : Nat) : (s.enterPhase g tag).pwr.regions.length = s.pwr.regions.length := by
  obtain ⟨learn, he⟩ := s.endPhase_eq g
  rw [State.enterPhase, he, State.onPr, setAt_length, State.onPr, setAt_length]

/-- A notice that falls due changes its region's phase, counts, and leaves the others as they wait. -/
theorem State.noticeDue_noticed {s : State} {g : Nat} (hg : g < s.pwr.regions.length) (n : Notice) :
    ((s.noticeDue g n).pr g).noticed = (n.tag, satAdd 32 (s.pr g).hints 1, (s.pr g).notices.erase n) := by
  unfold State.noticeDue
  extract_lets a b want c
  have hc : (c.pr g).noticed = (b.pr g).noticed := by
    unfold c
    split_ifs
    · exact b.paceBy_noticed ..
    · rfl
  rw [State.retryDeferred_noticed, hc]
  have hl : g < a.pwr.regions.length := by
    rw [s.length_enterPhase g n.tag]
    exact hg
  rw [show b.pr g = _ from State.pr_onPr_self hl _, show a.pr g = _ from State.pr_enterPhase hg n.tag]
  rfl

theorem State.noticeDue_pwrOnly (s : State) (g : Nat) (n : Notice) : PwrOnly s (s.noticeDue g n) := by
  unfold State.noticeDue
  extract_lets a b want c
  have ha : PwrOnly s a := by
    obtain ⟨learn, he⟩ := s.endPhase_eq g
    unfold a State.enterPhase
    rw [he]
    rfl
  have hb : PwrOnly a b := rfl
  have hc : PwrOnly b c := by
    unfold c
    split_ifs
    · rfl
    · rfl
  exact ((ha.trans hb).trans hc).trans (State.retryDeferred_pwrOnly ..)

/-! ### HINT -/

theorem latestDue_le {l : List Notice} {due : Nat} (h : ∀ n ∈ l, n.due ≤ due) (n : Notice) (hn : n.due = due) :
    (nth l (latestDue l) n).due ≤ due := by
  by_cases hi : latestDue l < l.length
  · rw [nth, List.getD_eq_getElem _ _ hi]
    exact h _ (List.getElem_mem hi)
  · rw [nth, List.getD_eq_default _ _ (by omega), hn]

/-- A notice beside fewer than four joins them. -/
theorem State.notice_of_room {s : State} {g : Nat} (h : (s.pr g).notices.length < 4) (t tag due : Nat) :
    s.notice g t tag due = s.onPr g fun r => { r with notices := r.notices ++ [{ tile := t, tag := tag, due := due
                                                                                 boost := (s.boostFor g tag due).1
                                                                                 boostAt := (s.boostFor g tag due).2 }] } :=
  if_pos h

/-- A notice beside four that are due no later is dropped. -/
theorem State.notice_dropped {s : State} {g due : Nat} (h : (s.pr g).notices.length = 4) (hd : ∀ n ∈ (s.pr g).notices, n.due ≤ due)
    (t tag : Nat) : s.notice g t tag due = s.dropHint t := by
  unfold State.notice
  dsimp only
  rw [if_neg (by omega), if_neg (Nat.not_lt.2 (latestDue_le hd _ rfl))]

theorem State.tile_retire (s : State) (k flop : Nat) : ∃ ops, (s.retire k flop).tile k = { s.tile k with ops := ops } :=
  ⟨_, State.tile_onTile_self ..⟩

/-- Settles O46: a notice joins its region's, or is dropped where four are due no later, and falls due into its phase. -/
theorem notices : Obligations.Notices := by
  refine ⟨fun k w s hlen hi hr => ?_, fun g s hlen => ⟨fun n hn => ?_, fun n hn => ?_, fun n hn hc => ?_, fun a ha hle => ?_⟩⟩
  · intro i due l hb h7 h31 h18
    have hbad : (i.bad [0] { vd := false, imm := true } || decide (bits i.imm 7 6 ≠ 0) || decide (bits i.imm 31 19 ≠ 0) ||
        decide (2000 < bits i.imm 18 8)) = false := by
      simp [hb, h7, h31, h18]
    have hx := vecRow_acts (i := i) (run := fun s => (s.notice (k.val / 12) k.val (bits i.imm 5 0)
      (s.now + 4 * bits i.imm 18 8)).retire k.val 0) (sram := .clean) (stalls := false) hi hr hbad
    refine ⟨fun hl => ⟨_, (exec_hint s k w).trans hx, ?_⟩, fun hl hdue => ⟨_, (exec_hint s k w).trans hx, ?_⟩⟩
    · have hg : k.val / 12 < (s.tickTile k.val).pwr.regions.length := by
        rw [show (s.tickTile k.val).pwr = s.pwr from rfl, hlen]
        omega
      rw [State.notice_of_room (by exact hl)]
      refine ⟨{ tile := k.val, tag := bits i.imm 5 0, due := s.now + 4 * bits i.imm 18 8
                boost := ((s.tickTile k.val).boostFor (k.val / 12) (bits i.imm 5 0) (s.now + 4 * bits i.imm 18 8)).1
                boostAt := ((s.tickTile k.val).boostFor (k.val / 12) (bits i.imm 5 0) (s.now + 4 * bits i.imm 18 8)).2 },
        rfl, rfl, rfl, ?_, ?_, ?_⟩
      · exact congrArg PwrRegion.notices (State.pr_onPr_self hg _)
      · obtain ⟨ops, hops⟩ := State.tile_retire ((s.tickTile k.val).onPr (k.val / 12) _) k.val 0
        rw [hops]
        change ((s.tickTile k.val).tile k.val).hintDrops = _
        rw [State.tickTile, State.tile_onTile_self]
      · obtain ⟨ops, hops⟩ := State.tile_retire ((s.tickTile k.val).onPr (k.val / 12) _) k.val 0
        rw [hops]
        change ((s.tickTile k.val).tile k.val).vreg = _
        rw [State.tickTile, State.tile_onTile_self]
    · rw [State.notice_dropped (by exact hl) (by exact hdue)]
      refine ⟨rfl, ?_⟩
      obtain ⟨ops, hops⟩ := State.tile_retire ((s.tickTile k.val).dropHint k.val) k.val 0
      rw [hops, State.dropHint, State.tile_onTile_self, State.tickTile, State.tile_onTile_self]
  · rw [exec_noticeDue, execNoticeDue, hn]
    have hp := s.noticeDue_pwrOnly g.val n
    dsimp only
    rw [show (s.noticeDue g.val n).obs = s.obs by rw [hp]]
  · have h := State.noticeDue_noticed (s := s) (g := g.val) (by rw [hlen]; exact g.isLt) n
    refine ⟨by rw [s.noticeDue_pwrOnly g.val n], congrArg (·.1) h, congrArg (·.2.1) h, congrArg (·.2.2) h⟩
  · refine ⟨_, by rw [exec_boostStart, execBoostStart, hn], rfl, fun j hj => State.pr_onPr_ne hj _, ?_⟩
    rw [State.pr_onPr_self (by rw [hlen]; exact g.isLt), hc]
  · refine ⟨_, by rw [exec_boostEnd, execBoostEnd, ha]; exact if_neg (by omega), rfl, fun j hj => State.pr_onPr_ne hj _, ?_⟩
    rw [State.pr_onPr_self (by rw [hlen]; exact g.isLt)]

end Sys2Proof.Machine
end

section
/-! Power (R619, R622, R625 to R629, R639, R641, R649 to R656, R711, R755, R781): samples, the interval, the fast limiter, P-states,
regions, phases and alerts. -/

namespace Sys2Proof.Machine

/-! ### What a change of P-state changes -/

/-- From `s` to `t` at most the regions and the change of P-state that is due. -/
def VoltsOnly (s t : State) : Prop := t = { s with pwr := { s.pwr with change := t.pwr.change, regions := t.pwr.regions } }

theorem VoltsOnly.refl (s : State) : VoltsOnly s s := rfl

theorem VoltsOnly.trans {s t u : State} (hst : VoltsOnly s t) (htu : VoltsOnly t u) : VoltsOnly s u := by
  rw [VoltsOnly, htu, hst]

theorem VoltsOnly.pwrOnly {s t : State} (h : VoltsOnly s t) : PwrOnly s t := by
  rw [PwrOnly, h]

theorem State.onPr_voltsOnly (s : State) (g : Nat) (f : PwrRegion → PwrRegion) : VoltsOnly s (s.onPr g f) := rfl

theorem State.setVolts_voltsOnly (s : State) (ps : Nat) : VoltsOnly s (s.setVolts ps) :=
  foldl_related VoltsOnly.refl VoltsOnly.trans (fun s g => s.onPr_voltsOnly g _) _ s

theorem State.announce_voltsOnly (s : State) (ps wait : Nat) : VoltsOnly s (s.announce ps wait) := by
  unfold State.announce
  extract_lets up groups c u
  have hu : VoltsOnly s u := rfl
  split
  · exact hu.trans (State.setVolts_voltsOnly ..)
  · exact hu

theorem State.retarget_voltsOnly (s : State) (forced : Bool) : VoltsOnly s (s.retarget forced) := by
  unfold State.retarget
  extract_lets t cur pending soon
  split
  · exact .refl s
  split
  · split
    · exact VoltsOnly.trans (t := s.onPwr fun p => { p with change := none }) rfl (State.setVolts_voltsOnly ..)
    · exact .refl s
  have ha (u : State) (hu : u = s ∨ u = s.announce t (if forced then 256 else 10000)) : VoltsOnly s u := by
    rcases hu with rfl | rfl
    · exact .refl _
    · exact s.announce_voltsOnly ..
  refine ha _ ?_
  split_ifs <;> simp

/-- A source that forces P5. -/
theorem State.forceOn_eq (s : State) (k : Nat) : VoltsOnly (s.onPwr fun p => { p with force := p.force ||| 2 ^ k }) (s.forceOn k) :=
  State.retarget_voltsOnly _ true

/-- A source that forces P5 no more. -/
theorem State.forceOff_eq (s : State) (k : Nat) :
    VoltsOnly (s.onPwr fun p => { p with force := if bit p.force k then p.force - 2 ^ k else p.force }) (s.forceOff k) :=
  State.retarget_voltsOnly _ false

theorem VoltsOnly.force {s t : State} (h : VoltsOnly s t) : t.pwr.force = s.pwr.force := by
  rw [h]

/-- A bit taken away leaves the others. -/
theorem bit_sub_two_pow_ne {n k j : Nat} (h : bit n k = true) (hj : j ≠ k) : bit (n - 2 ^ k) j = bit n j := by
  rw [bit, Nat.testBit_eq_decide_div_mod_eq, decide_eq_true_eq] at h
  have hmod : n % 2 ^ (k + 1) = n % 2 ^ k + 2 ^ k := by rw [Nat.mod_pow_succ, h, Nat.mul_one]
  have hle : 2 ^ k ≤ n := by have := Nat.mod_le n (2 ^ (k + 1)); omega
  rcases Nat.lt_or_gt_of_ne hj with hlt | hgt
  · have hx := Nat.testBit_two_pow_add_gt hlt (n - 2 ^ k)
    rw [Nat.add_sub_cancel' hle] at hx
    exact hx.symm
  · have hdiv : (n - 2 ^ k) / 2 ^ (k + 1) = n / 2 ^ (k + 1) := by
      have hn : n - 2 ^ k = n % 2 ^ k + 2 ^ (k + 1) * (n / 2 ^ (k + 1)) := by
        have := Nat.mod_add_div n (2 ^ (k + 1))
        omega
      have hlt : n % 2 ^ k < 2 ^ (k + 1) := lt_trans (Nat.mod_lt _ (by positivity)) (Nat.pow_lt_pow_right (by omega) (by omega))
      rw [hn, Nat.add_mul_div_left _ _ (by positivity), Nat.div_eq_of_lt hlt, Nat.zero_add]
    have hb (x : Nat) : bit x j = (x / 2 ^ (k + 1)).testBit (j - (k + 1)) := by
      rw [Nat.testBit_div_two_pow, bit]
      congr 1
      omega
    rw [hb, hb, hdiv]

/-- What forces P5 no more is cleared; every other source stays. -/
theorem State.forceOff_force (s : State) {k : Nat} (h : bit s.pwr.force k = true) :
    PwrOnly s (s.forceOff k) ∧ bit (s.forceOff k).pwr.force k = false ∧
      ∀ j, j ≠ k → bit (s.forceOff k).pwr.force j = bit s.pwr.force j := by
  have hv := s.forceOff_eq k
  have hf : (s.forceOff k).pwr.force = s.pwr.force - 2 ^ k := hv.force.trans (if_pos h)
  exact ⟨.trans (t := s.onPwr _) rfl hv.pwrOnly, by rw [hf]; exact bit_sub_two_pow h, fun j hj => by
    rw [hf]; exact bit_sub_two_pow_ne h hj⟩

/-- The regions after a change of each. -/
theorem State.pr_mapRegions (s : State) (f : PwrRegion → PwrRegion) {g : Nat} (hg : g < s.pwr.regions.length) :
    (s.onPwr fun p => { p with regions := p.regions.map f }).pr g = f (s.pr g) := by
  simp [State.pr, State.onPwr, nth, hg]

end Sys2Proof.Machine
end

section
/-! Power delivery (R619, R622, R625 to R629, R639, R641, R649 to R656, R711, R755, R781): the commands of Rein. -/

namespace Sys2Proof.Machine

/-! ### VIN -/

theorem State.measureStart_bootOnly (s : State) : s.measureStart = { s with boot := s.measureStart.boot } := by
  unfold State.measureStart
  rfl

/-- The rails that rise leave the device's state but for what a start counts and reports (R776, R777). -/
theorem State.tryRamp_eq (s : State) : ∃ e boot heat err,
    s.tryRamp = { s with flash := { s.flash with bootEpoch := e }, boot := boot, heat := heat, err := err } := by
  unfold State.tryRamp
  split
  · exact ⟨_, _, _, _, rfl⟩
  · exact ⟨s.flash.bootEpoch, s.boot, s.heat, s.err, rfl⟩

/-- The loss of VIN is recorded, and the device is reset (R781). -/
theorem State.vinLost_resets (s : State) : s.vinLost.flash.newLoss = true ∧
    s.vinLost.flash.powerLoss.length = s.flash.powerLoss.length + 1 ∧ s.vinLost.hal.job = 0 ∧ s.vinLost.tiles = [] := by
  unfold State.vinLost
  obtain ⟨e, boot, heat, err, h⟩ := State.tryRamp_eq (State.railsOff { s with flash :=
    { s.flash with powerLoss := s.flash.powerLoss ++ [{ time := s.now, a := s.pwr.vinMin, b := [s.boot.stage.code] }]
                   newLoss := true } })
  dsimp only
  rw [h]
  refine ⟨rfl, ?_, rfl, rfl⟩
  exact List.length_append ..

theorem execVinSample_ok {s : State} {mv : Nat} (hr : s.boot.rails = true) (hm : 1746 ≤ mv) (hf : bit s.pwr.force 2 = false) :
    execVinSample mv s = .next { s with
      pwr := { s.pwr with vinLowAt := none, vinOkAt := some (s.pwr.vinOkAt.getD s.now), vinMin := mv }
      boot := { s.boot with vinLossAt := none } } := by
  have h1 : ¬ mv < 1700 := by omega
  have h2 : ¬ mv < 1600 := by omega
  simp [execVinSample, hr, since, h1, h2, hm, hf, State.onPwr, State.onBoot]

theorem execVinSample_lost {s : State} {mv a : Nat} (hr : s.boot.rails = true) (hm : mv < 1600) (ha : s.boot.vinLossAt = some a)
    (hd : a + 5000 < s.now) : ∃ u : State, u.flash = s.flash ∧ execVinSample mv s = .next u.vinLost := by
  refine ⟨_, ?_, by rw [execVinSample, if_neg (by simp [hr])]; exact if_pos (by simp [since, hm, ha, hd, State.onBoot, State.onPwr])⟩
  rfl

theorem execVinSample_low {s : State} {mv a : Nat} (hr : s.boot.rails = true) (hm : 1600 ≤ mv) (hl : mv < 1700)
    (ha : s.pwr.vinLowAt = some a) (hd : a + 10000 < s.now) : Does (.vinSample mv) s fun t => bit t.pwr.force 2 = true := by
  have h1 : ¬ mv < 1600 := by omega
  have h2 : ¬ 1746 ≤ mv := by omega
  rw [Does, exec_vinSample, execVinSample, if_neg (by simp [hr])]
  extract_lets now u v past w ok
  have hv : v.boot.vinLossAt = none := if_neg (by simpa using h1)
  have hlow : v.pwr.vinLowAt = some a := by
    change since (decide (mv < 1700)) s.pwr.vinLowAt s.now = _
    simp [since, hl, ha]
  have hpast : past v.pwr.vinLowAt 10000 = true := by
    rw [hlow]
    exact decide_eq_true hd
  have hw : bit w.pwr.force 2 = true ∧ w.pwr.vinOkAt = none := by
    have hok : v.pwr.vinOkAt = none := if_neg (by simpa using h2)
    unfold w
    by_cases hb : bit v.pwr.force 2 = true
    · rw [if_neg (by simp [hb])]
      exact ⟨hb, hok⟩
    · rw [if_pos (by simp [hb, hpast]), State.raise_halterOnly]
      have h3 := v.forceOn_eq 2
      exact ⟨(v.forceOn_forced 2).2, by rw [h3]; exact hok⟩
  have hokf : ok = false := by
    unfold ok
    rw [hw.2]
  rw [if_neg (by rw [hv]; simp [past]), if_neg (by simp [hokf])]
  exact ⟨w, rfl, hw.1⟩

/-! ### Samples and P-states -/

theorem execPowerSample_eq (s : State) (vin vaux : Nat) (rs : List (Nat × Nat)) : ∃ t, execPowerSample vin vaux rs s = .next t ∧
    VoltsOnly (s.onPwr fun p => { p with
      us := ((vin + vaux) :: p.us).take 1000, outside := ((vin + vaux - sumOf (rs.map (·.1))) :: p.outside).take 1000
      energy := p.energy + (vin + vaux), ms := if p.msN + 1 = 1000 then ((p.msSum + (vin + vaux)) :: p.ms).take 1000 else p.ms
      msSum := if p.msN + 1 = 1000 then 0 else p.msSum + (vin + vaux), msN := if p.msN + 1 = 1000 then 0 else p.msN + 1 }) t :=
  ⟨_, rfl, foldl_related VoltsOnly.refl VoltsOnly.trans (fun s _ => s.onPr_voltsOnly _ _) _ _⟩

theorem execClockChange_due {s : State} {c : PChange} (hc : s.pwr.change = some c) (hw : c.waiting = []) (hat : c.at_ ≤ s.now) :
    ∃ t, execClockChange s = .next t ∧ VoltsOnly (s.onPwr fun p => { p with
      pstate := c.dest, change := none, changes := satAdd 32 p.changes 1
      lastUp := if c.dest < s.pwr.pstate then some s.now else p.lastUp }) t := by
  refine ⟨_, by rw [execClockChange, hc]; exact if_neg (by simp [hw]; exact hat), ?_⟩
  exact (State.setVolts_voltsOnly _ _).trans (State.retarget_voltsOnly _ false)

/-! ### The interval and the fast limiter -/

/-- In hardware mode Rein chooses the P-state and the weights alone (R639, R641). -/
theorem execReinInterval_hardware {s : State} (ha : s.assisted 3 = false) (hs : s.splitPending = false) :
    execReinInterval s = .next ((State.allot { s with
      pwr := { s.pwr with choice := s.choose s.pwr.budget, lastCap := s.pwr.sustEff, hostWeights := none } }
        (s.weights (max (s.choose s.pwr.budget) s.pwr.pstateTop)) s.pwr.budget).retarget) := by
  unfold execReinInterval
  extract_lets b ps ws now cap moved free asks u v use
  have hasks : asks = false := by
    unfold asks
    rw [ha]
    rfl
  have hv : v = { s with pwr := { s.pwr with choice := ps, lastCap := cap, hostWeights := none } } := by
    unfold v
    rw [hasks, if_neg (by decide), show u.assisted 3 = false from ha, if_neg (by decide)]
    rfl
  have huse : use = ws := by
    have hva : v.assisted 3 = false := by rw [hv]; exact ha
    have hvs : v.splitPending = false := by rw [hv]; exact hs
    have hvw : v.pwr.hostWeights = none := by rw [hv]
    unfold use
    rw [hvs, if_neg (by decide), hvw, hva]
    rfl
  rw [huse, hv]

section
variable {s : State} {amps : Nat}

theorem execFastLimiter_high (h : 99 * s.pwr.peakEff * 10 * s.pwr.us.length < 100 * sumOf s.pwr.us ∨ 7400 < amps) :
    execFastLimiter amps s = .next ((s.onPwr fun p => { p with
      limits := if p.engaged then p.limits else satAdd 16 p.limits 1, engaged := true, clearUs := 0 }).onPwr fun p =>
        { p with regions := p.regions.map fun r => if r.on then { r with pace := max 1 (r.pace - 1) } else r }) :=
  if_pos (by simpa using h)

theorem execFastLimiter_clear (h : ¬ (99 * s.pwr.peakEff * 10 * s.pwr.us.length < 100 * sumOf s.pwr.us ∨ 7400 < amps))
    (hc : s.pwr.clearUs + 1 < 10) :
    execFastLimiter amps s = .next { s with pwr := { s.pwr with clearUs := s.pwr.clearUs + 1 } } := by
  refine (if_neg (by simpa using h)).trans ((if_pos hc).trans ?_)
  simp only [State.onPwr, Nat.mod_eq_of_lt hc, hc, decide_true, Bool.and_true]

theorem execFastLimiter_slow (h : ¬ (99 * s.pwr.peakEff * 10 * s.pwr.us.length < 100 * sumOf s.pwr.us ∨ 7400 < amps))
    (hc : 10 ≤ s.pwr.clearUs + 1) :
    execFastLimiter amps s = .next ((s.onPwr fun p => { p with
      clearUs := (s.pwr.clearUs + 1) % 10, engaged := p.engaged && decide (s.pwr.clearUs + 1 < 10) }).onPwr fun p =>
        { p with regions := p.regions.map fun r => if r.pace < r.paceTop then { r with pace := r.pace + 1 } else r }) :=
  (if_neg (by simpa using h)).trans (if_neg (by omega))

end

/-! ### Alerts -/

/-- An alert forces P5, and is told (R655, R656). -/
theorem State.alert_forces (s : State) (src : Nat) (a : Alert) : (s.alert src a).boot = s.boot ∧
    (s.alert src a).pwr.gp3 = s.pwr.gp3 ∧ (s.alert src a).pwr.vr = s.pwr.vr ∧ bit (s.alert src a).pwr.force src = true := by
  unfold State.alert
  extract_lets u l v w
  have hu : u.boot = s.boot ∧ u.pwr.gp3 = s.pwr.gp3 ∧ u.pwr.vr = s.pwr.vr ∧ bit u.pwr.force src = true := by
    have hf := s.forceOn_eq src
    have hb := (s.forceOn_forced src).2
    have hr := (s.forceOn src).raise_halterOnly { code := 0x51, payload := [src, a.last] }
    rw [show u.boot = (s.forceOn src).boot by unfold u; rw [hr], show u.pwr = (s.forceOn src).pwr by unfold u; rw [hr]]
    refine ⟨?_, ?_, ?_, hb⟩
    all_goals
      rw [hf]
      rfl
  have hv : v.boot = s.boot ∧ v.pwr.gp3 = s.pwr.gp3 ∧ v.pwr.vr = s.pwr.vr ∧ bit v.pwr.force src = true := by
    simp only [v, State.onPwr]
    exact hu
  clear_value v
  split
  · have hr := w.raise_halterOnly { code := 0x52, payload := [w.pwr.peakEff] }
    rw [show (w.raise { code := 0x52, payload := [w.pwr.peakEff] }).boot = w.boot by rw [hr],
      show (w.raise { code := 0x52, payload := [w.pwr.peakEff] }).pwr = w.pwr by rw [hr]]
    simp only [w, State.onPwr]
    exact hv
  · exact hv

/-! ### Regions -/

theorem foldl_seedSlot (f : Nat → Nat) (l : List Nat) (s : State) : ∃ gens,
    l.foldl (fun s k => s.seedSlot (f k)) s = { s with seeds := s.seeds + l.length, gens := gens } := by
  induction l generalizing s with
  | nil => exact ⟨_, rfl⟩
  | cons k l ih =>
    obtain ⟨gens, h⟩ := ih (s.seedSlot (f k))
    refine ⟨gens, ?_⟩
    rw [List.foldl_cons, h, List.length_cons, Nat.add_comm l.length, ← Nat.add_assoc]
    rfl

theorem mem_tilesOf {k g : Nat} : k ∈ tilesOf g ↔ k / 12 = g := by
  rw [tilesOf, List.mem_map]
  refine ⟨fun ⟨j, hj, he⟩ => ?_, fun h => ⟨k % 12, List.mem_range.2 (Nat.mod_lt _ (by omega)), by omega⟩⟩
  have := List.mem_range.1 hj
  omega

theorem nodup_tilesOf (g : Nat) : (tilesOf g).Nodup := List.nodup_range.map fun a b h => by omega

/-- Each tile of a region has been changed, and no other. -/
theorem State.tile_foldl_tilesOf {f : Nat → Tile → Tile} (g : Nat) (s : State) (k : Nat) :
    ((tilesOf g).foldl (fun s t => s.onTile t (f t)) s).tile k = if k / 12 = g then f k (s.tile k) else s.tile k := by
  rw [State.tile_foldl_onTile f _ (nodup_tilesOf g)]
  simp only [mem_tilesOf]

section
variable {s : State} {g : Nat}

/-- A tile whose region powers off: what it held is lost, and its sequencer has stopped. -/
def Tile.off (x : Tile) : Tile :=
  { x.cleared with seq := .stopped, mxq := [], panq := [], fabq := [], rowBusy := false, vwait := [], unfenced := false }

/-- A region that powers off (R650). -/
def PwrRegion.offed (r : PwrRegion) : PwrRegion :=
  { r with on := false, ramping := false, wanted := none, deferred := false, vset := 0, boost := 0, allPhases := false
           boostEnd := none, activity := false, weight := 0, allow := 0, window := [], scaled := [], notices := [] }

theorem State.regionOff_eq (s : State) (g : Nat) : ∃ u, s.regionOff g = u.onPr g PwrRegion.offed ∧ TilesOnly s u ∧
    ∀ k, u.tile k = if k / 12 = g then (s.tile k).off else s.tile k :=
  ⟨_, rfl, State.foldl_onTile_tilesOnly (fun _ => Tile.off) (tilesOf g) s, State.tile_foldl_tilesOf (f := fun _ => Tile.off) g s⟩

theorem State.regionOff_off (hg : g < s.pwr.regions.length) :
    s.regionOff g = { s with pwr := (s.regionOff g).pwr, tiles := (s.regionOff g).tiles } ∧
      (((s.regionOff g).pr g).on, ((s.regionOff g).pr g).vset) = (false, 0) ∧
      (∀ j, j ≠ g → (s.regionOff g).pr j = s.pr j) ∧
      (∀ k, k / 12 = g → ((s.regionOff g).tile k).store = [] ∧ ((s.regionOff g).tile k).seq = .stopped ∧
        ((s.regionOff g).tile k).acc = []) ∧ ∀ k, k / 12 ≠ g → (s.regionOff g).tile k = s.tile k := by
  obtain ⟨u, hu, ho, ht⟩ := s.regionOff_eq g
  rw [hu]
  have hp : u.pwr = s.pwr := by rw [ho]
  have htile (k : Nat) : (u.onPr g PwrRegion.offed).tile k = u.tile k := rfl
  refine ⟨?_, ?_, fun j hj => ?_, fun k hk => ?_, fun k hk => ?_⟩
  · rw [ho]
    rfl
  · rw [State.pr_onPr_self (by rw [hp]; exact hg)]
    rfl
  · rw [State.pr_onPr_ne hj, State.pr, hp]
    rfl
  · rw [htile, ht, if_pos hk]
    exact ⟨rfl, rfl, rfl⟩
  · rw [htile, ht, if_neg hk]

/-- The state once a region's rails have risen: its slots seeded anew, its tiles cleared. -/
def State.regionUp (s : State) (g : Nat) : State :=
  ((tilesOf g).foldl (fun s t => s.onTile t Tile.cleared) ((List.range 13).foldl (fun s k => s.seedSlot (13 * g + k)) s)).onPr g fun r =>
    { r with ramping := false, on := true }

theorem State.regionUp_eq (hg : g < s.pwr.regions.length) :
    s.regionUp g = { s with pwr := (s.regionUp g).pwr, tiles := (s.regionUp g).tiles, seeds := s.seeds + 13, gens := (s.regionUp g).gens } ∧
      (s.regionUp g).pr g = { s.pr g with ramping := false, on := true } ∧ (∀ j, j ≠ g → (s.regionUp g).pr j = s.pr j) ∧
      ∀ k, (s.regionUp g).tile k = if k / 12 = g then (s.tile k).cleared else s.tile k := by
  obtain ⟨gens, hs⟩ := foldl_seedSlot (13 * g + ·) (List.range 13) s
  obtain ⟨u, hu, ho, ht⟩ : ∃ u : State, s.regionUp g = u.onPr g (fun r => { r with ramping := false, on := true }) ∧
      TilesOnly { s with seeds := s.seeds + 13, gens := gens } u ∧
      ∀ k, u.tile k = if k / 12 = g then (s.tile k).cleared else s.tile k := by
    refine ⟨_, rfl, ?_⟩
    rw [hs]
    exact ⟨State.foldl_onTile_tilesOnly (fun _ => Tile.cleared) (tilesOf g) _,
      State.tile_foldl_tilesOf (f := fun _ => Tile.cleared) g { s with seeds := s.seeds + 13, gens := gens }⟩
  rw [hu]
  have hp : u.pwr = s.pwr := by rw [ho]
  refine ⟨?_, ?_, fun j hj => ?_, fun k => ht k⟩
  · rw [ho]
    rfl
  · rw [State.pr_onPr_self (by rw [hp]; exact hg), State.pr, hp]
    rfl
  · rw [State.pr_onPr_ne hj, State.pr, hp]
    rfl

/-- A phase that faults for at most the second time within an hour is off for 1 ms (R653). -/
theorem State.phaseFault_first (hg : g < s.pwr.regions.length) {k : Nat} (hb : bit (Tbl.get 0 s.flash.phases g) k = false)
    (ho : ∀ e ∈ (s.pr g).off, e.1 ≠ k)
    (hf : ((Tbl.get [] (s.pr g).faults k).filter fun t => decide (s.now - t ≤ 3600000000000)).length < 2) :
    ∃ u : State, u = { s with err := u.err, heat := u.heat } ∧ s.phaseFault g k = u.onPr g fun r =>
      { r with off := Tbl.set 0 r.off k (s.now + 1000000)
               faults := Tbl.upd [] r.faults k fun l => (l.filter fun t => s.now - t ≤ 3600000000000) ++ [s.now] } := by
  have hany : ((s.pr g).off.any fun e => e.1 == k) = false := by simpa using ho
  refine ⟨s.report 2 9 0x260 g 0 k, s.report_eq .., ?_⟩
  have hp : (s.report 2 9 0x260 g 0 k).pwr = s.pwr := by rw [s.report_eq]
  unfold State.phaseFault
  dsimp only
  rw [if_neg (by simp [hb, hany]), if_neg]
  rw [State.pr_onPr_self (by rw [hp]; exact hg), Tbl.get_upd_self, State.pr, hp]
  simp only [List.length_append, List.length_singleton]
  change ¬ 3 ≤ ((Tbl.get [] (s.pr g).faults k).filter fun t => decide (s.now - t ≤ 3600000000000)).length + 1
  omega

end

/-! ### The statement -/

/-- Settles O44: what Rein does changes the power state alone, but where VIN or an alert reaches further. -/
theorem powerDelivery : Obligations.PowerDelivery := by
  refine ⟨fun s mv hr => ⟨fun hm hf => ?_, fun a hm ha hd => ?_, fun a hm hl ha hd => execVinSample_low hr hm hl ha hd⟩,
    fun s vin vaux rs => ?_, fun s hassist hsplit => ?_, fun s amps => ?_, fun s c hc hw hat => ?_, fun s hlow hown => ?_,
    fun s hlow => ?_, fun s status hlow => ?_, fun s gp3 => ?_, fun s b hb hst hdue => ?_, fun g s hlen => ?_⟩
  · exact (exec_vinSample s mv).trans (execVinSample_ok hr hm hf)
  · obtain ⟨u, hu, he⟩ := execVinSample_lost hr hm ha hd
    obtain ⟨h1, h2, h3, h4⟩ := u.vinLost_resets
    exact ⟨_, (exec_vinSample s mv).trans he, h1, by rw [h2, hu], h3, h4⟩
  · obtain ⟨t, ht, h⟩ := execPowerSample_eq s vin vaux rs
    refine ⟨t, (exec_powerSample s vin vaux rs).trans ht, ?_⟩
    rw [h]
    exact ⟨rfl, rfl, rfl, rfl⟩
  · exact (exec_reinInterval s).trans (execReinInterval_hardware hassist hsplit)
  · intro tooHigh
    refine ⟨fun h => ?_, fun h hc => ?_, fun h hc => ?_⟩
    · refine ⟨_, (exec_fastLimiter s amps).trans (execFastLimiter_high h), rfl, rfl, fun g hg => ?_, rfl⟩
      rw [State.pr_mapRegions _ _ (by exact hg)]
      exact apply_ite PwrRegion.pace ..
    · exact (exec_fastLimiter s amps).trans (execFastLimiter_clear h hc)
    · refine ⟨_, (exec_fastLimiter s amps).trans (execFastLimiter_slow h hc), rfl, ?_, fun g hg => ?_⟩
      · exact Bool.and_eq_false_iff.2 (.inr (by simpa using hc))
      · rw [State.pr_mapRegions _ _ (by exact hg)]
        exact apply_ite PwrRegion.pace ..
  · obtain ⟨t, ht, h⟩ := execClockChange_due hc hw hat
    refine ⟨t, (exec_clockChange s).trans ht, ?_⟩
    rw [h]
    exact ⟨rfl, rfl, rfl⟩
  · refine ⟨_, by rw [exec_regAlert, execRegAlert, if_neg (by simp [hlow, hown])], ?_⟩
    obtain ⟨h1, h2, -, h4⟩ := State.alert_forces { s.onPwr fun p => { p with gp3 := { p.gp3 with low := true, began := s.now } } with
      boot := { s.boot with gp3 := false } } 1 s.pwr.gp3
    exact ⟨congrArg (·.gp3) h1, congrArg (·.low) h2, congrArg (·.began) h2, h4⟩
  · refine ⟨_, by rw [exec_vrAlertFall, execVrAlertFall, if_neg (by simp [hlow])], ?_⟩
    obtain ⟨h1, -, h3, h4⟩ := State.alert_forces { s.onPwr fun p => { p with vr := { p.vr with low := true, began := s.now } } with
      boot := { s.boot with alertN := false } } 0 s.pwr.vr
    exact ⟨congrArg (·.alertN) h1, congrArg (·.low) h3, congrArg (·.began) h3, h4⟩
  · refine ⟨_, by rw [exec_vrAlertRise, execVrAlertRise]; exact if_neg (by simp [hlow]), ?_⟩
    beta_reduce
    rw [State.report_eq]
    exact ⟨rfl, rfl, rfl⟩
  · intro a src hlow hhigh hf
    obtain ⟨h1, h2, h3⟩ := s.forceOff_force (k := src) hf
    refine ⟨s.forceOff src, ?_, h2, h1, h3⟩
    rw [exec_alertForceEnd, execAlertForceEnd]
    refine if_neg ?_
    rw [show (if gp3 = true then s.pwr.gp3 else s.pwr.vr) = a from rfl, show (if gp3 = true then 1 else 0) = src from rfl]
    simp [hlow, hf, hhigh]
  · refine ⟨_, by rw [exec_budgetStale, execBudgetStale, hb]; exact if_neg (by simp [hst]; omega), ?_⟩
    have h := (s.onPwr fun p => { p with stale := true }).raise_halterOnly { code := 0x56, payload := [b, s.now - s.pwr.trayAt] }
    beta_reduce
    generalize State.raise _ _ = t at h
    have hp : t.pwr = { s.pwr with stale := true } := by rw [h]; rfl
    exact ⟨hp, by rw [HalterOnly, hp]; exact h⟩
  · have hg : g.val < s.pwr.regions.length := by rw [hlen]; exact g.isLt
    intro r
    refine ⟨fun c hc => ?_, fun k hb ho hf => ?_, fun k h0 hle => ?_, fun ha hn => ?_, fun hr hle => ?_, fun a ha hle => ?_, fun hoff => ?_, ?_⟩
    · refine ⟨_, by rw [exec_vlogicReport, execVlogicReport, State.onPwr, hc]; rfl, rfl⟩
    · obtain ⟨u, hu, he⟩ := State.phaseFault_first hg hb ho hf
      have hp : u.pwr = s.pwr := by rw [hu]
      refine ⟨_, by rw [exec_phaseCheck, execPhaseCheck, List.foldl_cons, List.foldl_nil, he], ?_, ?_, ?_, fun j hj => ?_⟩
      · rw [State.pr_onPr_self (by rw [hp]; exact hg), Tbl.get_set_self]
      · rw [hu]
        rfl
      · rw [hu]
        rfl
      · rw [State.pr_onPr_ne hj, State.pr, hp]
        rfl
    · refine ⟨_, by rw [exec_phaseReenable, execPhaseReenable]; exact if_neg (by simp; exact ⟨h0, hle⟩), rfl, ?_,
        fun j hj => State.pr_onPr_ne hj _⟩
      rw [State.pr_onPr_self hg, Tbl.get_set_self]
    · have hany : (List.range g.val).any s.admits = false := by simpa using hn
      refine ⟨_, by rw [exec_regionAdmitTest, execRegionAdmitTest, if_neg (by simp [ha, hany])], rfl, fun j hj => State.pr_onPr_ne hj _, ?_⟩
      rw [State.pr_onPr_self hg]
    · obtain ⟨hu, hp, hne, ht⟩ := State.regionUp_eq hg
      refine ⟨if (s.regionUp g.val).step.st = 1 && (s.regionUp g.val).hal.job = 2 then (s.regionUp g.val).startRegion g.val
        else s.regionUp g.val, ?_, ?_⟩
      · rw [exec_regionPowerOnDone, execRegionPowerOnDone]
        exact if_neg (by simp [show (s.pr g.val).ramping = true from hr]; exact hle)
      have hseeds : (s.regionUp g.val).seeds = s.seeds + 13 := by rw [hu]
      have hjob : (s.regionUp g.val).hal.job = s.hal.job := by rw [hu]
      split
      · next hj =>
        have hs := (s.regionUp g.val).startRegion_tilesOnly g.val
        have hpwr : ((s.regionUp g.val).startRegion g.val).pwr = (s.regionUp g.val).pwr := by rw [hs]
        have hpr (j : Nat) : ((s.regionUp g.val).startRegion g.val).pr j = (s.regionUp g.val).pr j := by
          rw [State.pr, hpwr]
          rfl
        refine ⟨(hpr _).trans hp, fun j hj => (hpr j).trans (hne j hj), ?_, fun hn => ?_⟩
        · rw [show ((s.regionUp g.val).startRegion g.val).seeds = (s.regionUp g.val).seeds by rw [hs], hseeds]
        · rw [hjob] at hj
          simp [hn] at hj
      · exact ⟨hp, hne, hseeds, fun _ => ht⟩
    · refine ⟨_, by rw [exec_regionDefer, execRegionDefer, show (s.pr g.val).wanted = some a from ha]; exact if_neg (by omega), ?_⟩
      dsimp only
      have h := (s.onPr g.val fun r => { r with wanted := none, deferred := true }).raise_halterOnly { code := 0x50, payload :=
        [g.val, (s.blocker g.val).getD (((List.range 16).find? s.ramps).getD 0),
          (s.onPr g.val fun r => { r with wanted := none, deferred := true }).amps
            ((s.blocker g.val).getD (((List.range 16).find? s.ramps).getD 0)) / 1000] }
      generalize State.raise _ _ = t at h
      have hp : t.pwr = (s.onPr g.val fun r => { r with wanted := none, deferred := true }).pwr := by rw [h]
      have hpr (j : Nat) : t.pr j = (s.onPr g.val fun r => { r with wanted := none, deferred := true }).pr j := by
        rw [State.pr, hp]
        rfl
      refine ⟨by rw [hpr, State.pr_onPr_self hg], by rw [HalterOnly, hp]; exact h, fun j hj => by rw [hpr, State.pr_onPr_ne hj]⟩
    · obtain ⟨ho, hr, hp, hs, hne⟩ := State.regionOff_off hg
      refine ⟨s.regionOff g.val, by rw [exec_regionPowerOff, execRegionPowerOff, if_pos hoff], congrArg (·.1) hr, congrArg (·.2) hr, ho, hp,
        fun k => ?_⟩
      split
      · next hk => exact hs k hk
      · next hk => exact hne k hk
    · refine ⟨_, by rw [exec_vminRead, execVminRead, State.vminRead], rfl, fun j hj => State.pr_onPr_ne hj _, ?_⟩
      rw [State.pr_onPr_self hg]

end Sys2Proof.Machine
end

section
/-! Heat and coolant (R668 to R673, R675 to R685, R687 to R689, R693, R694, R851). -/

namespace Sys2Proof.Machine

/-! ### What Groom's watch on the flow leaves -/

/-- From `s` to `t` Groom's state has changed at most by its watch on the flow and by the reports that it keeps, and the limit that
coolant sets is as it was. -/
structure WatchOnly (s t : State) : Prop where
  heat : t.heat = { s.heat with
    lowSince := t.heat.lowSince, clearSince := t.heat.clearSince, stop := t.heat.stop, stops := t.heat.stops
    groomLog := t.heat.groomLog, coolLow := t.heat.coolLow, okSince := t.heat.okSince }
  coolant : t.pwr.coolant = s.pwr.coolant
  rails : t.boot = s.boot

theorem WatchOnly.refl (s : State) : WatchOnly s s := ⟨rfl, rfl, rfl⟩

theorem WatchOnly.trans {s t u : State} (hst : WatchOnly s t) (htu : WatchOnly t u) : WatchOnly s u :=
  ⟨by rw [htu.heat, hst.heat], htu.coolant.trans hst.coolant, htu.rails.trans hst.rails⟩

theorem HalterOnly.watchOnly {s t : State} (h : HalterOnly s t) : WatchOnly s t := by
  rw [h]
  exact ⟨rfl, rfl, rfl⟩

theorem State.raise_watchOnly (s : State) (ev : Event) : WatchOnly s (s.raise ev) := (s.raise_halterOnly ev).watchOnly

theorem State.report_watchOnly (s : State) (cls unit code inst addr detail flags : Nat) :
    WatchOnly s (s.report cls unit code inst addr detail flags) := by
  unfold State.report
  extract_lets groom r
  split_ifs <;> exact ⟨rfl, rfl, rfl⟩

theorem State.requestRepeat_watchOnly (s : State) (cause : Nat) : WatchOnly s (s.requestRepeat cause) := by
  rw [s.requestRepeat_eq cause]
  exact ⟨rfl, rfl, rfl⟩

theorem VoltsOnly.watchOnly {s t : State} (h : VoltsOnly s t) : WatchOnly s t := by
  rw [h]
  exact ⟨rfl, rfl, rfl⟩

theorem State.coolStop_watchOnly (s : State) (cond flow : Nat) (rise : Int) : WatchOnly s (s.coolStop cond flow rise) := by
  unfold State.coolStop
  extract_lets u v w
  have hu : WatchOnly s u := ⟨rfl, rfl, rfl⟩
  have hv : WatchOnly u v := WatchOnly.trans (t := u.onPwr fun p => { p with force := p.force ||| 2 ^ 3 }) ⟨rfl, rfl, rfl⟩
    (u.forceOn_eq 3).watchOnly
  have hw : WatchOnly v w := ⟨rfl, rfl, rfl⟩
  have ht : WatchOnly w w.trayReq := ⟨rfl, rfl, rfl⟩
  exact hu.trans (hv.trans (hw.trans (ht.trans ((State.report_watchOnly ..).trans ((State.raise_watchOnly ..).trans
    (State.requestRepeat_watchOnly ..))))))

theorem State.watchFlow_watchOnly (s : State) : WatchOnly s s.watchFlow := by
  unfold State.watchFlow
  split
  · exact .refl s
  · extract_lets f low rise u long
    have hu : WatchOnly s u := ⟨rfl, rfl, rfl⟩
    clear_value u
    split
    · exact hu
    split
    · exact hu.trans (State.coolStop_watchOnly ..)
    split
    · exact hu.trans (State.coolStop_watchOnly ..)
    · exact hu

theorem State.coolEvents_watchOnly (s : State) : WatchOnly s s.coolEvents := by
  unfold State.coolEvents
  extract_lets q u
  split
  · exact .refl s
  split
  · exact WatchOnly.trans (t := s.onHeat fun h => { h with coolLow := true, okSince := none }) ⟨rfl, rfl, rfl⟩ (State.raise_watchOnly ..)
  split
  · exact .refl s
  split
  · exact ⟨rfl, rfl, rfl⟩
  have hu : WatchOnly s u := ⟨rfl, rfl, rfl⟩
  clear_value u
  split
  · split
    · exact hu.trans (WatchOnly.trans (t := u.onHeat fun h => { h with coolLow := false, okSince := none }) ⟨rfl, rfl, rfl⟩
        (State.raise_watchOnly ..))
    · exact hu
  · exact hu

/-! ### The coolant limit (R679) -/

/-- From `s` to `t` Groom's state has changed at most by its watch on the junctions. -/
structure JunctionOnly (s t : State) : Prop where
  heat : t.heat = { s.heat with wJunc := t.heat.wJunc, coolAt := t.heat.coolAt }
  pwr : t.pwr = s.pwr

theorem JunctionOnly.trans {s t u : State} (hst : JunctionOnly s t) (htu : JunctionOnly t u) : JunctionOnly s u :=
  ⟨by rw [htu.heat, hst.heat], htu.pwr.trans hst.pwr⟩

theorem HalterOnly.junctionOnly {s t : State} (h : HalterOnly s t) : JunctionOnly s t := by
  rw [h]
  exact ⟨rfl, rfl⟩

theorem State.junction_junctionOnly (s : State) : JunctionOnly s s.junction := by
  unfold State.junction
  extract_lets q t hot p w first u v
  have hu : JunctionOnly s u := ⟨rfl, rfl⟩
  have hv : JunctionOnly s v := ⟨rfl, rfl⟩
  clear_value u v
  split
  · split
    · exact hu.trans (u.raise_halterOnly _).junctionOnly
    · exact hu
  split
  · split
    · split
      · exact hv
      · exact hv.trans ⟨rfl, rfl⟩
    · exact hv
  · exact ⟨rfl, rfl⟩

theorem getD_limit (w none' : Nat) : (if w = none' then none else some w).getD none' = w := by
  split
  · next h => exact h.symm
  · rfl

/-- The coolant limit falls at once; a rise waits for 1 s (R679). -/
theorem State.coolLimit_eq (s : State) : s.coolLimit.heat = { s.heat with rise := s.coolLimit.heat.rise } ∧
    (min (s.heat.wFlow.getD 0xFFFF) (s.heat.wJunc.getD 0xFFFF) ≤ s.pwr.coolant.getD 0xFFFF →
      s.coolLimit.pwr.coolant.getD 0xFFFF = min (s.heat.wFlow.getD 0xFFFF) (s.heat.wJunc.getD 0xFFFF)) := by
  unfold State.coolLimit
  extract_lets new cur put
  have hput (w : Nat) : (put s w).heat = { s.heat with rise := (put s w).heat.rise } ∧ (put s w).pwr.coolant.getD 0xFFFF = w :=
    ⟨rfl, getD_limit w 0xFFFF⟩
  have hnew : min (s.heat.wFlow.getD 0xFFFF) (s.heat.wJunc.getD 0xFFFF) = new := rfl
  have hcur : s.pwr.coolant.getD 0xFFFF = cur := rfl
  rw [hnew, hcur]
  clear_value put new cur
  by_cases hle : new ≤ cur
  · rw [if_pos hle]
    exact ⟨(hput new).1, fun _ => (hput new).2⟩
  rw [if_neg hle]
  have hrise (u : State) (hu : (∃ w, u = put s w) ∨ ∃ x, u = s.onHeat fun h => { h with rise := x }) :
      u.heat = { s.heat with rise := u.heat.rise } := by
    rcases hu with ⟨w, rfl⟩ | ⟨x, rfl⟩
    · exact (hput w).1
    · rfl
  refine ⟨hrise _ ?_, fun h => absurd h hle⟩
  split
  · exact .inr ⟨_, rfl⟩
  · dsimp only
    split
    · exact .inl ⟨_, rfl⟩
    · exact .inr ⟨_, rfl⟩

/-! ### Site sensors -/

theorem accepts_fits {failed seen : Bool} {last x : Int} (h : accepts failed seen last x = true) :
    failed = false ∧ fitsSensor seen last x = true := by
  simpa [accepts] using h

section
variable (x : Site) (a b : Int) (now : Nat) (blind : Int)

/-- Both sensors accepted, close together, and the pair not suspect: nothing is reported. -/
theorem Site.convert_agree (ha : accepts x.failA x.seenA x.ta a = true) (hb : accepts x.failB x.seenB x.tb b = true)
    (hn : (a - b).natAbs ≤ 24) (hs : x.suspect = false) :
    (x.convert a b now blind).1.ctrl = max a b ∧ (x.convert a b now blind).1.st = 0 ∧
      (x.convert a b now blind).2 = (false, false, false) := by
  obtain ⟨-, hta⟩ := accepts_fits ha
  obtain ⟨-, htb⟩ := accepts_fits hb
  have hw : ¬ 24 < (a - b).natAbs := by omega
  simp [Site.convert, ha, hb, hs, hw, hta, htb]

theorem Site.convert_suspect (ha : accepts x.failA x.seenA x.ta a = true) (hb : accepts x.failB x.seenB x.tb b = true)
    (hn : 24 < (a - b).natAbs) (hs : x.suspect = true) :
    (x.convert a b now blind).1.ctrl = max a b + 12 ∧ (x.convert a b now blind).1.st = 1 := by
  simp [Site.convert, ha, hb, hs, hn]

theorem Site.convert_first (ha : accepts x.failA x.seenA x.ta a = true) (hb : accepts x.failB x.seenB x.tb b = false) :
    (x.convert a b now blind).1.ctrl = a + 12 ∧ (x.convert a b now blind).1.st = 2 := by
  simp [Site.convert, ha, hb]

theorem Site.convert_second (ha : accepts x.failA x.seenA x.ta a = false) (hb : accepts x.failB x.seenB x.tb b = true) :
    (x.convert a b now blind).1.ctrl = b + 12 ∧ (x.convert a b now blind).1.st = 2 := by
  simp [Site.convert, ha, hb]

theorem Site.convert_blind (ha : accepts x.failA x.seenA x.ta a = false) (hb : accepts x.failB x.seenB x.tb b = false) :
    (x.convert a b now blind).1.ctrl = blind + 24 ∧ (x.convert a b now blind).1.st = 3 ∧
      (x.convert a b now blind).1.rejA = (if fitsSensor x.seenA x.ta a then 0 else x.rejA + 1) ∧
      (x.convert a b now blind).1.rejB = if fitsSensor x.seenB x.tb b then 0 else x.rejB + 1 := by
  simp [Site.convert, ha, hb]

end

/-- What a conversion leaves: the site converted, and reports where a sensor fails or a pair becomes suspect. -/
theorem execSensorConversion_sites (q : Fin 214) (a b : Int) (s : State) (hlen : s.heat.sites.length = 214) :
    let r := (nth s.heat.sites q.val {}).convert a b s.now (s.heat.highest (siteNeighbours q.val))
    ∃ t, execSensorConversion q a b s = .next t ∧ nth t.heat.sites q.val {} = r.1 ∧
      (∀ j, j ≠ q.val → nth t.heat.sites j {} = nth s.heat.sites j {}) ∧
      (r.2 = (false, false, false) → t = { s with heat := { s.heat with sites := t.heat.sites } }) := by
  intro r
  unfold execSensorConversion
  extract_lets u v w
  have hu : u.heat.sites = setAt s.heat.sites q.val fun _ => r.1 := rfl
  have ht (t : State) (h : WatchOnly u t) : nth t.heat.sites q.val ({} : Site) = r.1 ∧
      ∀ j, j ≠ q.val → nth t.heat.sites j {} = nth s.heat.sites j {} := by
    rw [show t.heat.sites = u.heat.sites by rw [h.heat], hu]
    exact ⟨nth_setAt_self (by rw [hlen]; exact q.isLt) _ _, fun j hj => nth_setAt_ne hj _ _ _⟩
  have hv : WatchOnly u v := by
    unfold v
    split
    · exact (State.report_watchOnly ..).trans (State.raise_watchOnly ..)
    · exact .refl u
  have hw : WatchOnly v w := by
    unfold w
    split
    · exact (State.report_watchOnly ..).trans (State.raise_watchOnly ..)
    · exact .refl v
  refine ⟨_, rfl, ?_⟩
  split
  · next h =>
    obtain ⟨h1, h2⟩ := ht _ ((hv.trans hw).trans ((State.report_watchOnly ..).trans (State.raise_watchOnly ..)))
    refine ⟨h1, h2, fun hr => ?_⟩
    rw [hr] at h
    exact absurd h (by decide)
  · obtain ⟨h1, h2⟩ := ht w (hv.trans hw)
    refine ⟨h1, h2, fun hr => ?_⟩
    unfold w v
    rw [hr]
    rfl

/-! ### The tray -/

/-- What a report of the tray tells, and the sites. -/
def Heat.told (h : Heat) : Option Nat × Nat × Int × Int × Option Nat × Nat × List Site :=
  (h.lastSeq, h.missRun, h.inlet, h.outlet, h.trayFlow, h.status, h.sites)

theorem WatchOnly.told {s t : State} (h : WatchOnly s t) : t.heat.told = s.heat.told := by
  rw [h.heat]
  rfl

theorem State.clampBudget_watchOnly (s : State) (w source : Nat) : WatchOnly s (s.clampBudget w source).2 := by
  unfold State.clampBudget
  dsimp only
  split
  · exact .refl s
  · exact s.raise_watchOnly _

/-- A valid report replaces what the tray has told (R675, R676). -/
theorem execTrayReport_valid {s : State} {b : List Byte} (hl : b.length = 16) (hc : crc8 (b.take 15) = field b 15 1)
    (hs : s.heat.lastSeq ≠ some (field b 1 1)) : ∃ t, execTrayReport (some b) s = .next t ∧ t.heat.told =
      (some (field b 1 1), 0, signed 16 (field b 2 2), signed 16 (field b 4 2), some (field b 6 2), field b 10 1, s.heat.sites) := by
  rw [execTrayReport, if_neg (by simp [hl, hc, hs])]
  extract_lets u w c v z
  have hv : v.heat.told = u.heat.told := by
    unfold v
    split
    · rfl
    · exact (u.clampBudget_watchOnly w 1).told
  have hz : z.heat.told = v.heat.told := by
    unfold z
    split
    · split <;> rfl
    · rfl
  exact ⟨_, rfl, by rw [z.watchFlow_watchOnly.told, hz, hv]; rfl⟩

/-! ### The limit, the stop and the trip -/

/-- The coolant limit and the flows it was taken from (R679). -/
theorem execCoolantLimitUpdate_eq {s : State} (hr : s.boot.rails = true) : ∃ t, execCoolantLimitUpdate s = .next t ∧
    (∀ q, s.flow = some q → t.heat.flows = (s.now, q) :: s.heat.flows.filter (fun x => decide (s.now - x.1 < 100000000)) ∧
      t.heat.wFlow = some ({ s.heat with flows := t.heat.flows } : Heat).capacity) ∧
    (min (t.heat.wFlow.getD 0xFFFF) (t.heat.wJunc.getD 0xFFFF) ≤ s.pwr.coolant.getD 0xFFFF →
      t.pwr.coolant.getD 0xFFFF = min (t.heat.wFlow.getD 0xFFFF) (t.heat.wJunc.getD 0xFFFF)) := by
  rw [execCoolantLimitUpdate, if_neg (by simp [hr])]
  extract_lets u v
  have hu : u.heat = { s.heat with flows := u.heat.flows } ∧ u.pwr = s.pwr := by
    unfold u
    split <;> exact ⟨rfl, rfl⟩
  have hv : v.heat = { u.heat with wFlow := v.heat.wFlow } ∧ v.pwr = u.pwr := by
    unfold v
    split <;> exact ⟨rfl, rfl⟩
  have hvq (q : Nat) (hq : s.flow = some q) : u.heat.flows = (s.now, q) :: s.heat.flows.filter (fun x => decide (s.now - x.1 < 100000000)) ∧
      v.heat.wFlow = some u.heat.capacity := by
    have hf : u.heat.flows = (s.now, q) :: s.heat.flows.filter (fun x => decide (s.now - x.1 < 100000000)) := by
      unfold u
      rw [hq]
      rfl
    refine ⟨hf, ?_⟩
    unfold v
    rw [if_neg (by rw [hf]; simp)]
    rfl
  clear_value v u
  have hj := v.junction_junctionOnly
  obtain ⟨hc, hcool⟩ := v.junction.coolLimit_eq
  have hw := v.junction.coolLimit.coolEvents_watchOnly.trans (State.watchFlow_watchOnly _)
  refine ⟨_, rfl, fun q hq => ?_, ?_⟩
  · obtain ⟨h1, h2⟩ := hvq q hq
    rw [hw.heat, hc, hj.heat, hv.1]
    refine ⟨h1, ?_⟩
    rw [h2, hu.1]
  · rw [hw.heat, hc, hw.coolant]
    intro h
    exact hcool (by rw [hj.pwr, hv.2, hu.2]; exact h)

theorem State.forceOff_clear (s : State) (k : Nat) : bit (s.forceOff k).pwr.force k = false := by
  rw [(s.forceOff_eq k).force, State.onPwr]
  dsimp only
  split
  · next h => exact bit_sub_two_pow h
  · next h => exact Bool.eq_false_iff.2 h

theorem State.restart_heat (s : State) : s.restart.heat = s.heat ∧ s.restart.pwr = s.pwr := by
  unfold State.restart
  split
  · exact ⟨rfl, rfl⟩
  · rw [State.startAll_tilesOnly]
    exact ⟨rfl, rfl⟩

theorem execCoolantRestore_due {s : State} {a c : Nat} (ha : s.heat.stop = some a) (hc : s.heat.clearSince = some c)
    (hle : c + 1000000000 ≤ s.now) : ∃ t, execCoolantRestore s = .next t ∧ t.heat.stop = none ∧ bit t.pwr.force 3 = false := by
  rw [execCoolantRestore, ha, hc]
  dsimp only
  rw [if_neg (by omega)]
  generalize hu : (s.onHeat fun h => { h with stop := none, clearSince := none }) = u
  have hus : u.heat.stop = none := by
    rw [← hu]
    rfl
  have hv := (u.forceOff 3).trayReq.raise_halterOnly { code := 0x63, payload := [u.now - a] }
  obtain ⟨hr, hp⟩ := ((u.forceOff 3).trayReq.raise { code := 0x63, payload := [u.now - a] }).restart_heat
  refine ⟨_, rfl, ?_, ?_⟩
  · rw [hr, show State.heat _ = (u.forceOff 3).heat by rw [hv]; rfl, (u.forceOff_eq 3)]
    exact hus
  · rw [hp, show State.pwr _ = (u.forceOff 3).pwr by rw [hv]; rfl]
    exact u.forceOff_clear 3

theorem execThermalTrip_trips {s : State} {q : Fin 214} (h1 : 208 ≤ q.val) (h2 : q.val ≤ 212)
    (hh : 2 ≤ (nth s.heat.sites q.val {}).hotRun) (ht : s.boot.thermtrip = false) (hv : s.boot.vaux = true) :
    ∃ t, execThermalTrip q s = .next t ∧ t.boot.thermtrip = true ∧ t.boot.rails = false ∧ t.flash.newTrip = true ∧
      t.flash.trips.length = s.flash.trips.length + 1 ∧ (s.boot.rails = true → t.tiles = []) := by
  rw [execThermalTrip, if_neg (by simp [ht, hv]; omega)]
  extract_lets rd r fl u v w
  have hlen : u.flash.trips.length = s.flash.trips.length + 1 := List.length_append ..
  have hw : w.boot.thermtrip = true ∧ w.boot.rails = false ∧ w.flash = u.flash ∧ (s.boot.rails = true → w.tiles = []) := by
    unfold w
    split
    · exact ⟨rfl, rfl, rfl, fun _ => rfl⟩
    · next hb => exact ⟨rfl, Bool.eq_false_iff.2 hb, rfl, fun h => absurd h hb⟩
  obtain ⟨h3, h4, h5, h6⟩ := hw
  refine ⟨_, rfl, h3, h4, ?_, ?_, h6⟩
  · exact congrArg (·.newTrip) h5
  · exact (congrArg (·.trips.length) h5).trans hlen

theorem State.length_trayReq (s : State) : ∃ b : Bytes, s.trayReq = { s with sent := s.sent ++ [.tray b] } ∧ b.length = 8 ∧
    b.take 2 = [1, 1] ∧ field b 2 2 = s.heat.flowReq % 65536 ∧ nth b 7 0 = BitVec.ofNat 8 (crc8 (b.take 7)) := by
  refine ⟨_, rfl, ?_, ?_, ?_, ?_⟩
  · rfl
  · rfl
  · have hs : slice ([1, 1] ++ (toBytes 2 s.heat.flowReq ++ [BitVec.ofNat 8 s.heat.reason,
        BitVec.ofNat 8 (b2n s.heat.stop.isSome + 2 * b2n s.heat.tripAlarm), 0, BitVec.ofNat 8 (crc8 ([1, 1] ++
          toBytes 2 s.heat.flowReq ++ [BitVec.ofNat 8 s.heat.reason,
            BitVec.ofNat 8 (b2n s.heat.stop.isSome + 2 * b2n s.heat.tripAlarm), 0]))])) 2 2 = toBytes 2 s.heat.flowReq :=
      slice_append [1, 1] (toBytes 2 s.heat.flowReq) _
    exact (congrArg fromBytes hs).trans (fromBytes_toBytes 2 _)
  · rfl

/-! ### The warm floor (R688, R689) -/

theorem State.wantRegion_pwrOnly (s : State) (g : Nat) (a : Bool) : PwrOnly s (s.wantRegion g a) := by
  unfold State.wantRegion
  dsimp only
  split_ifs <;> rfl

theorem State.activity_heat (s : State) (on : Bool) :
    (s.activity on).heat = { s.heat with warmAct := on, warmNow := if on then min 5 s.heat.warmW else 0 } := by
  have hp := foldl_related PwrOnly.refl PwrOnly.trans
    (f := fun (s : State) g => if on then s.wantRegion g true else s.onPr g fun r => { r with activity := false })
    (fun s g => by
      split
      · exact s.wantRegion_pwrOnly g true
      · rfl) (List.range 16) (s.onHeat fun h => { h with warmAct := on, warmNow := if on then min 5 h.warmW else 0 })
  exact congrArg State.heat hp

/-- Each of the first regions has been changed, and no other. -/
theorem State.pr_foldl_onPr (f : PwrRegion → PwrRegion) (s : State) {n : Nat} (hn : n ≤ s.pwr.regions.length) (g : Nat) :
    ((List.range n).foldl (fun s g => s.onPr g f) s).pr g = if g < n then f (s.pr g) else s.pr g := by
  suffices h : ((List.range n).foldl (fun s g => s.onPr g f) s).pwr.regions.length = s.pwr.regions.length ∧
      ∀ g, ((List.range n).foldl (fun s g => s.onPr g f) s).pr g = if g < n then f (s.pr g) else s.pr g from h.2 g
  induction n with
  | zero => exact ⟨rfl, fun g => rfl⟩
  | succ n ih =>
    obtain ⟨hl, hp⟩ := ih (by omega)
    rw [List.range_succ, List.foldl_append, List.foldl_cons, List.foldl_nil]
    generalize (List.range n).foldl (fun s g => s.onPr g f) s = t at hl hp
    refine ⟨by rw [State.onPr, setAt_length, hl], fun g => ?_⟩
    by_cases hg : g = n
    · subst hg
      rw [State.pr_onPr_self (by omega), hp, if_neg (by omega), if_pos (by omega)]
    · rw [State.pr_onPr_ne hg, hp]
      simp only [show g < n + 1 ↔ g < n by omega]

/-- Idle activity that ends: no region is held on for it. -/
theorem State.activity_off (s : State) (hlen : s.pwr.regions.length = 16) :
    (s.activity false).heat = { s.heat with warmAct := false, warmNow := 0 } ∧
      s.activity false = { s with heat := (s.activity false).heat, pwr := (s.activity false).pwr } ∧
      ∀ g, g < 16 → (s.activity false).pr g = { s.pr g with activity := false } := by
  have hfold : s.activity false = (List.range 16).foldl (fun s g => s.onPr g fun r => { r with activity := false })
      (s.onHeat fun h => { h with warmAct := false, warmNow := 0 }) := rfl
  have hp := foldl_related PwrOnly.refl PwrOnly.trans (f := fun (s : State) g => s.onPr g fun r => { r with activity := false })
    (fun _ _ => rfl) (List.range 16) (s.onHeat fun h => { h with warmAct := false, warmNow := 0 })
  have hg := fun g => State.pr_foldl_onPr (fun r => { r with activity := false }) (s.onHeat fun h => { h with warmAct := false, warmNow := 0 })
    (n := 16) (by exact hlen.ge) g
  rw [hfold]
  generalize List.foldl _ _ _ = t at hp hg ⊢
  refine ⟨?_, ?_, fun g h => (hg g).trans (if_pos h)⟩
  all_goals
    rw [hp]
    rfl


section
variable {s : State} (hj : s.hal.job ≠ 2)
include hj

theorem execWarmFloorCheck_cold (h1 : s.heat.warm < 4 * (s.heat.warmFloor : Int))
    (h2 : s.heat.flowMinWarm < if s.heat.flowReq = 0 then s.heat.filtered else s.heat.flowReq) :
    ∃ t, execWarmFloorCheck s = .next t ∧
      t.heat.flowReq = max s.heat.flowMinWarm ((if s.heat.flowReq = 0 then s.heat.filtered else s.heat.flowReq) - 100) ∧
      t.heat.reason = 1 := by
  rw [execWarmFloorCheck, if_neg hj]
  extract_lets h w fl base u atMin v long z f
  have hu : u.heat.flowReq = max h.flowMinWarm (base - 100) ∧ u.heat.reason = 1 := by
    unfold u
    rw [if_pos (by simp only [Bool.and_eq_true, decide_eq_true_eq]; exact ⟨h1, h2⟩)]
    exact ⟨rfl, rfl⟩
  have hz : z.heat.flowReq = v.heat.flowReq ∧ z.heat.reason = v.heat.reason := by
    unfold z
    split
    · rw [v.activity_heat true]
      exact ⟨rfl, rfl⟩
    · exact ⟨rfl, rfl⟩
  have hn : ¬ fl + 20 < w := by
    have : w < fl := h1
    omega
  refine ⟨z, if_neg (by simp [hn]), hz.1.trans hu.1, hz.2.trans hu.2⟩

theorem execWarmFloorCheck_between (h1 : 4 * (s.heat.warmFloor : Int) ≤ s.heat.warm)
    (h2 : s.heat.warm ≤ 4 * (s.heat.warmFloor : Int) + 20) :
    execWarmFloorCheck s = .next { s with heat := { s.heat with belowSince := none } } := by
  rw [execWarmFloorCheck, if_neg hj]
  extract_lets h w fl base u atMin v long z f
  have hlt : ¬ w < fl := by
    have : fl ≤ w := h1
    omega
  have hn : ¬ fl + 20 < w := by
    have : w ≤ fl + 20 := h2
    omega
  have hu : u = s := if_neg (by simp [hlt])
  have hv : v = { s with heat := { s.heat with belowSince := none } } := by
    simp only [v, hu, State.onHeat, hlt, decide_false, Bool.false_and, Bool.false_eq_true, if_false]
  have hz : z = v := if_neg (by simp [long, hv])
  rw [if_neg (by simp [hn]), hz, hv]

theorem execWarmFloorCheck_warm (h1 : 4 * (s.heat.warmFloor : Int) + 20 < s.heat.warm) (h2 : s.heat.warmAct = false)
    (h3 : s.heat.flowReq ≠ 0) : ∃ t, execWarmFloorCheck s = .next t ∧
      t.heat.flowReq = if 1600 ≤ s.heat.flowReq + 100 then 0 else s.heat.flowReq + 100 := by
  rw [execWarmFloorCheck, if_neg hj]
  extract_lets h w fl base u atMin v long z f
  have hw : fl + 20 < w := h1
  have hlt : ¬ w < fl := by omega
  have hu : u = s := if_neg (by simp [hlt])
  have hv : v = { s with heat := { s.heat with belowSince := none } } := by
    simp only [v, hu, State.onHeat, hlt, decide_false, Bool.false_and, Bool.false_eq_true, if_false]
  have hz : z = v := if_neg (by simp [long, hv])
  have hf : f = s.heat.flowReq + 100 := by
    simp only [f, hz, hv]
  rw [if_pos (by simp [hw, hz, hv, h2, h3]), hf]
  refine ⟨_, rfl, ?_⟩
  split <;> rfl

end

/-! ### The statement -/

/-- Settles O47: a site follows its pair's state, and Groom's watches change only what each watches. -/
theorem heatAndCoolant : Obligations.HeatAndCoolant := by
  refine ⟨fun q a b s hlen => ?_, fun s => ?_, fun s b hl hc hs => ?_, fun s => ?_, fun s hr => ?_, fun s hp => ?_, fun s on hp => ?_,
    fun s a c ha hc hle => ?_, fun q s h1 h2 hh ht hv => ?_, fun s hj => ?_, fun s hw => ?_⟩
  · intro x okA okB
    obtain ⟨t, ht, hy, hne, hsame⟩ := execSensorConversion_sites q a b s hlen
    refine ⟨t, (exec_sensorConversion s q a b).trans ht, ?_⟩
    beta_reduce
    intro y
    rw [show y = _ from hy]
    refine ⟨hne, fun ha hb hn hs => ?_, fun ha hb hn hs => ?_, fun ha hb => ?_, fun ha hb => ?_, fun ha hb => ?_⟩
    · obtain ⟨h1, h2, h3⟩ := x.convert_agree a b s.now (s.heat.highest (siteNeighbours q.val)) ha hb hn hs
      exact ⟨h1, h2, hsame h3⟩
    · exact x.convert_suspect a b _ _ ha hb hn hs
    · exact x.convert_first a b _ _ ha hb
    · exact x.convert_second a b _ _ ha hb
    · exact x.convert_blind a b _ _ ha hb
  · rw [exec_trayReport, execTrayReport]
  · obtain ⟨t, ht, h⟩ := execTrayReport_valid hl hc hs
    exact ⟨t, (exec_trayReport s (some b)).trans ht, congrArg (·.1) h, congrArg (·.2.1) h, congrArg (·.2.2.1) h,
      congrArg (·.2.2.2.1) h, congrArg (·.2.2.2.2.1) h, congrArg (·.2.2.2.2.2.1) h, congrArg (·.2.2.2.2.2.2) h⟩
  · obtain ⟨b, hb, h⟩ := s.length_trayReq
    exact ⟨_, (exec_trayRequestRefresh s).trans rfl, b, hb, h⟩
  · obtain ⟨t, ht, h1, h2⟩ := execCoolantLimitUpdate_eq hr
    exact ⟨t, (exec_coolantLimitUpdate s).trans ht, fun q hq => (h1 q hq).symm, h2⟩
  · refine ⟨_, by rw [exec_flowPulse, execFlowPulse]; exact if_neg (by rcases hp with h | h <;> simp [h]), rfl, rfl⟩
  · rw [exec_pumpFailInput, execPumpFailInput, if_pos hp]
    rfl
  · obtain ⟨t, ht, h⟩ := execCoolantRestore_due ha hc hle
    exact ⟨t, (exec_coolantRestore s).trans ht, h⟩
  · obtain ⟨t, ht, h⟩ := execThermalTrip_trips h1 h2 hh ht hv
    exact ⟨t, (exec_thermalTrip s q).trans ht, h⟩
  · intro w fl base
    rw [Does, Does, exec_warmFloorCheck]
    exact ⟨fun h1 h2 => execWarmFloorCheck_cold hj h1 h2, fun h1 h2 => execWarmFloorCheck_between hj h1 h2,
      fun h1 h2 h3 => execWarmFloorCheck_warm hj h1 h2 h3⟩
  · intro fl
    rw [Does, exec_idleActivityAdjust, execIdleActivityAdjust]
    refine ⟨fun h => ?_, fun h h5 => ?_, fun h h5 hlen => ⟨s.activity false, ?_, ?_⟩⟩
    · rw [if_neg (by simp [hw])]
      exact if_pos h
    · rw [if_neg (by simp [hw])]
      exact (if_neg (by omega)).trans ((if_pos h).trans (if_neg (by omega)))
    · rw [if_neg (by simp [hw])]
      exact (if_neg (by omega)).trans ((if_pos h).trans (if_pos h5))
    · obtain ⟨h1, h2, h3⟩ := s.activity_off hlen
      exact ⟨h1, h2, h3⟩

end Sys2Proof.Machine
end

section
/-! The log and the observers (R588, R742, R745, R747, R764, R810, R811, R813 to R822, R825 to R831, R843). -/

namespace Sys2Proof.Machine

/-! ### What a write of this device's memory leaves of the observers -/

/-- What no access of memory reaches: from `s` to `t` the observers have changed at most by their counts of traffic, and the
time and flash are the same. -/
structure AccessKept (s t : State) : Prop where
  obs : t.obs = { s.obs with fabTx := t.obs.fabTx, fabRx := t.obs.fabRx, fabReqs := t.obs.fabReqs, homeReqs := t.obs.homeReqs
                             hbmRd := t.obs.hbmRd, hbmWr := t.obs.hbmWr }
  time : t.time = s.time
  flash : t.flash = s.flash

theorem AccessKept.refl (s : State) : AccessKept s s := ⟨rfl, rfl, rfl⟩

theorem AccessKept.trans {s t u : State} (hst : AccessKept s t) (htu : AccessKept t u) : AccessKept s u :=
  ⟨by rw [htu.obs, hst.obs], htu.time.trans hst.time, htu.flash.trans hst.flash⟩

theorem MemOnly.accessKept {s t : State} (h : MemOnly s t) : AccessKept s t := by
  rw [h.1]
  exact ⟨rfl, rfl, rfl⟩

theorem FabOnly.accessKept {s t : State} (h : FabOnly s t) : AccessKept s t := by
  rw [h]
  exact ⟨rfl, rfl, rfl⟩

theorem State.sendRun_accessKept (s : State) (addr : Nat) (b : Bytes) (lim key fmt flags aux2 : Nat) (pois : Bool) (why : Purpose) :
    AccessKept s (s.sendRun addr b lim key fmt flags aux2 pois why) :=
  foldl_related AccessKept.refl AccessKept.trans (fun _ _ => (State.sendReq_fabOnly ..).accessKept) _ s

theorem State.mendUnit_accessKept (s : State) (a b : Nat) : AccessKept s (s.mendUnit a b) := by
  unfold State.mendUnit
  extract_lets u bad
  have hu : AccessKept s u := ((s.decodeAt_memOnly a 64).trans (State.decodeAt_memOnly ..)).accessKept
  clear_value u
  split
  · exact hu.trans (State.putHbm_memOnly ..).accessKept
  · exact hu

theorem State.readEntry_accessKept (s : State) (p : Nat) : AccessKept s (s.readEntry p) := by
  unfold State.readEntry
  dsimp only
  split
  · exact .refl s
  · exact (s.mendUnit_accessKept ..).trans (State.mendUnit_accessKept ..)

theorem State.warm_accessKept (s : State) (p n : Nat) : AccessKept s (s.warm p n) := by
  unfold State.warm State.heatEntry
  dsimp only
  split_ifs <;> exact ⟨rfl, rfl, rfl⟩

theorem State.touch_accessKept (s : State) (p n : Nat) : AccessKept s (s.touch p n) :=
  (s.readEntry_accessKept p).trans (State.warm_accessKept ..)

theorem State.putSpan_accessKept (s : State) (sp : Nat) (b : Bytes) (fmt : Nat) (pois : Bool) : AccessKept s (s.putSpan sp b fmt pois) := by
  unfold State.putSpan
  extract_lets u
  have hu : AccessKept s u := by
    unfold u
    split
    · exact s.touch_accessKept ..
    · exact .refl s
  clear_value u
  refine hu.trans ?_
  split
  · next a _ =>
    have hv : AccessKept u ((unitCut b.length a b).foldl (fun s p => s.putHbm p.1 p.2 fmt pois (p.1 == a)) u) :=
      foldl_related AccessKept.refl AccessKept.trans (fun _ _ => (State.putHbm_memOnly ..).accessKept) _ u
    generalize (unitCut b.length a b).foldl (fun s p => s.putHbm p.1 p.2 fmt pois (p.1 == a)) u = v at hv
    dsimp only
    refine hv.trans ?_
    split
    · have hw : AccessKept v (v.markDirty (pageOf sp) (granOf sp)) := ⟨rfl, rfl, rfl⟩
      split
      · exact hw.trans (State.sendRun_accessKept ..)
      · exact hw
    · exact .refl v
  · exact ⟨rfl, rfl, rfl⟩
  · exact ⟨rfl, rfl, rfl⟩
  · next p home key _ =>
    extract_lets v e
    have hv : AccessKept u v := State.sendRun_accessKept ..
    split
    · exact hv.trans (State.sendRun_accessKept ..)
    · exact hv
  · exact ⟨rfl, rfl, rfl⟩
  · exact .refl u
  · exact .refl u

/-- A write while no view is enabled and nothing is combined. -/
theorem State.memWrite_accessKept {s : State} (hc : s.fab.combining = []) (hv : s.step.enabled = false) (a : Nat) (b : Bytes) (fmt : Nat)
    (pois : Bool) : AccessKept s (s.memWrite a b fmt pois) := by
  have hno : s.combineAt a b.length = s := if_pos (by rw [hc]; rfl)
  have hf : s.firstCopies a b.length = s := if_pos (by simp [State.meetsUpdate, hv])
  unfold State.memWrite State.rawWrite
  rw [hno, hf]
  exact foldl_related AccessKept.refl AccessKept.trans (fun _ _ => State.putSpan_accessKept ..) _ s

/-! ### Periscope -/

/-- What Periscope reads draws at most free values. -/
theorem State.peeks_eq (s : State) (sels : List Nat) : ∃ n, (s.peeks sels).2 = { s with freeIx := n } := by
  unfold State.peeks
  suffices h : ∀ (r : List Nat × State), (∃ n, r.2 = { s with freeIx := n }) → ∃ n, (sels.foldl (fun (r : List Nat × State) k =>
      match s.wasCleared k with
      | some v => (r.1 ++ [v], r.2)
      | none => let q := r.2.peek k; (r.1 ++ [q.1], q.2)) r).2 = { s with freeIx := n } from h ([], s) ⟨_, rfl⟩
  induction sels with
  | nil => exact fun r h => h
  | cons k sels ih =>
    intro r h
    refine ih _ ?_
    obtain ⟨n, hn⟩ := h
    beta_reduce
    split
    · exact ⟨n, hn⟩
    · dsimp only
      unfold State.peek
      rw [hn]
      split
      · split
        · exact ⟨n + 1, rfl⟩
        · exact ⟨n, rfl⟩
      · exact ⟨n + 1, rfl⟩

/-- A trigger whose sample would come too soon, or for which there is no room, is counted (R817). -/
theorem State.trigger_drops {s : State} {k : Nat} (hk : bit s.obs.triggers k = true) (hp : s.obs.pst ≠ 0)
    (hl : s.obs.lastSample ≠ some s.now) (hd : s.obs.pst = 2 ∨ ∃ a, s.obs.lastSample = some a ∧ s.now < a + 2000) :
    s.trigger k = s.dropTrigger := by
  unfold State.trigger
  dsimp only
  rw [if_neg (by simp [hp, hk])]
  cases hs : s.obs.lastSample with
  | none =>
    rcases hd with hd | ⟨a, ha, -⟩
    · exact if_pos hd
    · rw [hs] at ha
      exact absurd ha (by simp)
  | some t =>
    have ht : t ≠ s.now := fun h => hl (by rw [hs, h])
    dsimp only
    rw [if_neg (by simp [ht])]
    refine if_pos ?_
    rcases hd with hd | ⟨a, ha, hlt⟩
    · simp [hd]
    · rw [hs] at ha
      obtain rfl := Option.some.inj ha
      simp [hlt]

/-- A first sample is taken (R813 to R816). -/
theorem State.trigger_takes {s : State} {k : Nat} (hk : bit s.obs.triggers k = true) (hp : s.obs.pst = 1)
    (hl : s.obs.lastSample = none) (hc : s.fab.combining = []) (hv : s.step.enabled = false) :
    (s.trigger k).obs.samples = satAdd 32 s.obs.samples 1 ∧ (s.trigger k).obs.seq = (s.obs.seq + 1) % 2 ^ 32 ∧
      (s.trigger k).obs.droppedSince = 0 ∧ (s.trigger k).obs.lastSample = some s.now := by
  unfold State.trigger
  dsimp only
  rw [if_neg (by simp [hp, hk]), hl]
  dsimp only
  rw [if_neg (by omega)]
  unfold State.trigger.take
  extract_lets o v b t
  obtain ⟨n, hn⟩ := s.peeks_eq o.sels
  have ht : AccessKept v.2 t := State.memWrite_accessKept (by rw [hn]; exact hc) (by rw [hn]; exact hv) ..
  have hvo : v.2.obs = s.obs := by rw [hn]
  have hvt : v.2.time = s.time := by rw [hn]
  have hnow : t.now = s.now := by rw [State.now, ht.time, hvt]; rfl
  have hs : t.obs.samples = s.obs.samples := by rw [ht.obs, hvo]
  have hq : t.obs.seq = s.obs.seq := by rw [ht.obs, hvo]
  clear_value t
  refine ⟨?_, ?_, rfl, ?_⟩
  · rw [← hs]
    rfl
  · rw [← hq]
    rfl
  · rw [← hnow]
    rfl

theorem State.stopPeriscope_eq (s : State) : s.stopPeriscope = { s with
    hal := { s.hal with timers := s.stopPeriscope.hal.timers }, obs := { s.obs with pst := 0, triggers := 0 } } := by
  unfold State.stopPeriscope
  extract_lets u
  have hu : u = { s with hal := { s.hal with timers := u.hal.timers } } := by
    unfold u
    split <;> rfl
  clear_value u
  rw [hu]
  rfl

/-! ### Watchdogs -/

theorem ErrLog.report_watchdogs (e : ErrLog) (r : ErrRec) : (e.report r).watchdogs = e.watchdogs := by
  unfold ErrLog.report
  dsimp only
  split_ifs <;> rfl

theorem State.report_err_watchdogs (s : State) {unit : Nat} (hu : 0xB < unit) (cls code inst : Nat) :
    (s.report cls unit code inst).err.watchdogs = s.err.watchdogs := by
  have hg : (decide (9 ≤ unit) && decide (unit ≤ 0xB)) = false := by simp; omega
  unfold State.report
  rw [hg]
  exact ErrLog.report_watchdogs ..

/-- A core restarted by its watchdog (R747). -/
theorem State.watchdog_restarts {s : State} {k : Nat} (hk : k < s.hal.cores.length) :
    s.watchdog k = { s with hal := { s.hal with cores := (s.watchdog k).hal.cores }, err := (s.watchdog k).err } ∧
      (s.watchdog k).err.watchdogs = satAdd 16 s.err.watchdogs 1 ∧
      (s.watchdog k).core k = { s.core k with st := 0, starts := (s.core k).starts + 1, dogs :=
        ((s.core k).dogs.filter fun a => decide (s.now - a ≤ 3600000000000)) ++ [s.now] } ∧
      ∀ j, j ≠ k → (s.watchdog k).core j = s.core j :=
  ⟨rfl, rfl, State.core_onCore_self (s := { s with err := { s.err with watchdogs := satAdd 16 s.err.watchdogs 1 } }) hk _,
    fun _ hj => State.core_onCore_ne (s := { s with err := { s.err with watchdogs := satAdd 16 s.err.watchdogs 1 } }) hj _⟩

theorem execDorlenWatchdog_restarts {k : Fin 4} {s : State} (hlen : s.hal.cores.length = 5) (hb : bit s.flash.cores k.val = true) :
    let dogs := (s.core k.val).dogs.filter fun a => decide (s.now - a ≤ 3600000000000)
    ∃ t, execDorlenWatchdog k none s = .next t ∧
      t = { s with hal := { s.hal with cores := t.hal.cores }, err := t.err, flash := t.flash } ∧
      t.err.watchdogs = satAdd 16 s.err.watchdogs 1 ∧
      t.core k.val = { s.core k.val with st := 0, starts := (s.core k.val).starts + 1, dogs := dogs ++ [s.now] } ∧
      (∀ j, j ≠ k.val → t.core j = s.core j) ∧
      t.flash = { s.flash with cores := if 2 ≤ dogs.length then s.flash.cores - 2 ^ k.val else s.flash.cores } := by
  intro dogs
  obtain ⟨h1, h2, h3, h4⟩ := State.watchdog_restarts (s := s) (k := k.val) (by rw [hlen]; exact Nat.lt_succ_of_lt k.isLt)
  have hr := (s.watchdog k.val).report_err 2 (unit := 0xC) (by decide) 0x240 k.val
  have hw := (s.watchdog k.val).report_err_watchdogs (unit := 0xC) (by decide) 2 0x240 k.val
  have hx : execDorlenWatchdog k none s = .next (if 3 ≤ (((s.watchdog k.val).report 2 0xC 0x240 k.val).core k.val).dogs.length then
      State.report { (s.watchdog k.val).report 2 0xC 0x240 k.val with flash :=
        { ((s.watchdog k.val).report 2 0xC 0x240 k.val).flash with
          cores := ((s.watchdog k.val).report 2 0xC 0x240 k.val).flash.cores - 2 ^ k.val } } 3 0xC 0x241 k.val
      else (s.watchdog k.val).report 2 0xC 0x240 k.val) := by
    rw [execDorlenWatchdog, if_neg (by simp [hb])]
    exact (apply_ite Host.Outcome.next ..).symm
  generalize (s.watchdog k.val).report 2 0xC 0x240 k.val = u at hr hw hx
  have hcore (j : Nat) : u.core j = (s.watchdog k.val).core j := by
    rw [hr]
    rfl
  have hflash : u.flash = s.flash := by rw [hr, h1]
  have hu : u = { s with hal := { s.hal with cores := u.hal.cores }, err := u.err } := by
    rw [hr, h1]
  have hdogs : 3 ≤ (u.core k.val).dogs.length ↔ 2 ≤ dogs.length := by
    rw [hcore, h3]
    simp only [List.length_append, List.length_singleton]
    exact Nat.succ_le_succ_iff
  refine ⟨_, hx, ?_⟩
  by_cases hd : 2 ≤ dogs.length
  · rw [if_pos (hdogs.2 hd), if_pos hd]
    have hr2 := State.report_err { u with flash := { u.flash with cores := u.flash.cores - 2 ^ k.val } } 3 (unit := 0xC) (by decide)
      0x241 k.val
    have hw2 := State.report_err_watchdogs { u with flash := { u.flash with cores := u.flash.cores - 2 ^ k.val } } (unit := 0xC)
      (by decide) 3 0x241 k.val
    generalize State.report _ _ _ _ _ = t at hr2 hw2
    have hc2 (j : Nat) : t.core j = u.core j := by
      rw [hr2]
      rfl
    refine ⟨?_, by rw [hw2]; exact hw.trans h2, by rw [hc2, hcore, h3], fun j hj => by rw [hc2, hcore, h4 j hj], ?_⟩
    · rw [hr2, hu]
    · rw [hr2]
      dsimp only
      rw [hflash]
  · rw [if_neg (fun h => hd (hdogs.1 h)), if_neg hd]
    refine ⟨?_, hw.trans h2, by rw [hcore, h3], fun j hj => by rw [hcore, h4 j hj], hflash⟩
    rw [hu]

/-! ### Counters cleared (R810) -/

/-- A tile whose operation counters have been cleared. -/
def Tile.opsCleared (x : Tile) : Tile := { x with ops := {} }

theorem State.clearTileOps_eq (s : State) : s.clearTileOps = (List.range 192).foldl (fun s t => s.onTile t Tile.opsCleared)
    { s with obs := { s.obs with tilesWas := some (s.now, (List.range 192).map fun k => (s.tile k).ops) } } := rfl

theorem State.clearTileOps_clears (s : State) :
    s.clearTileOps = { s with tiles := s.clearTileOps.tiles, obs := { s.obs with
      tilesWas := some (s.now, (List.range 192).map fun k => (s.tile k).ops) } } ∧
    ∀ k, s.clearTileOps.tile k = if k < 192 then { s.tile k with ops := {} } else s.tile k := by
  have ho := State.foldl_onTile_tilesOnly (fun _ => Tile.opsCleared) (List.range 192)
    { s with obs := { s.obs with tilesWas := some (s.now, (List.range 192).map fun k => (s.tile k).ops) } }
  have ht := State.tile_foldl_onTile (fun _ => Tile.opsCleared) (List.range 192) List.nodup_range
    { s with obs := { s.obs with tilesWas := some (s.now, (List.range 192).map fun k => (s.tile k).ops) } }
  rw [State.clearTileOps_eq]
  refine ⟨ho, fun k => (ht k).trans ?_⟩
  simp only [List.mem_range]
  rfl

/-! ### The statement -/

/-- Settles O51: a clause each, from the equations of the ring, of the trigger and of the restart of a watched core. -/
theorem logsAndObservers : Obligations.LogsAndObservers := by
  refine ⟨fun s r q htr hat => ?_, fun h s => ?_, fun session seq s x c y hx hgap hc hy => ?_, fun k s hlen hb => ?_, fun s hlen => ?_,
    fun s => ?_, fun s => ?_, fun s r hr h0 hle => ?_, fun s up hp he => ?_⟩
  · rw [exec_traceRecordSent, execTraceRecordSent, htr]
    exact if_neg (by omega)
  · intro A
    refine ⟨fun pay n x ha hn hx => ?_, fun pay n ha hn => ?_, fun pay ha hop hlen hz => ?_, fun pay ha hop hok hres => ?_,
      fun pay ha hlen hz => ⟨fun h0 => ?_, fun h0 => ?_⟩⟩
    · intro rs mark
      obtain ⟨y, hy, hmax⟩ := State.session_accept hx
      refine (ha.exec_eq (c := .logRead h pay) (by rw [exec_logRead, execLogRead]; rfl)).trans ?_
      rw [hn]
      dsimp only
      rw [show (s.accept h).session h.session = some y from hy]
      dsimp only
      simp only [hmax]
      rfl
    · refine ⟨_, ha.exec_eq (c := .logAck h pay) (by rw [exec_logAck, execLogAck]; rfl), ?_⟩
      rw [hn]
      dsimp only
      have hk := State.answer_halterOnly { s.accept h with err := { (s.accept h).err with ring := (s.accept h).err.ring.filter fun r =>
        !(r.delivered && decide (r.seq ≤ n)) } } (hdrCmd h 0x202 s.now) 0 []
      generalize State.answer _ _ _ _ = t at hk
      have he : t.err = { s.err with ring := s.err.ring.filter fun r => !(r.delivered && decide (r.seq ≤ n)) } := by
        rw [hk]
        rfl
      refine ⟨he, ?_⟩
      rw [HalterOnly, he]
      exact hk
    · refine ⟨_, ha.exec_eq (c := .periscopeSet h pay) (by rw [exec_periscopeSet, execPeriscopeSet]; rfl), ?_⟩
      dsimp only
      rw [if_neg (by omega), if_neg (by simp [hop, hlen]; simpa using hz), if_neg (by omega)]
      have hstop := (s.accept h).stopPeriscope_eq
      have hk := (s.accept h).stopPeriscope.answer_halterOnly (hdrCmd h 0x204 s.now) 0 []
      generalize State.answer _ _ _ _ = t at hk
      have ho : t.obs = { s.obs with pst := 0, triggers := 0 } := by
        rw [hk, hstop]
        rfl
      refine ⟨?_, ho⟩
      rw [HalterOnly, hk, hstop]
      rfl
    · refine ⟨(ha.exec_eq (c := .periscopeSet h pay) (by rw [exec_periscopeSet, execPeriscopeSet]; rfl)).trans ?_, rfl, rfl⟩
      have hany : ((armRes pay).any fun r => decide (A.meets 0x10 0 r ≠ 0)) = false := by simpa using hres
      dsimp only
      rw [if_pos hop, if_neg (by rw [show (s.accept h).armOk pay = true from hok]; decide), if_neg]
      exact Bool.eq_false_iff.1 hany
    · refine (ha.exec_eq (c := .loupeReport h pay) (by rw [exec_loupeReport, execLoupeReport]; rfl)).trans ?_
      rw [if_neg (by simp [hlen, hz]), if_neg (by omega)]
      rfl
    · refine (ha.exec_eq (c := .loupeReport h pay) (by rw [exec_loupeReport, execLoupeReport]; rfl)).trans ?_
      rw [if_neg (by simp [hlen, hz]), if_pos h0]
  · intro d
    rw [exec_loupePass2, execLoupePass2, hx]
    dsimp only
    rw [if_neg (by omega)]
    have hc' (f : Observe → Observe) : ((s.onObs f).hal.cmds.find? fun c => c.session == session && c.seq == seq) = some c := hc
    have hy' (f : Observe → Observe) : (s.onObs f).session session = some y := hy
    rw [hc', hy']
    rfl
  · obtain ⟨t, ht, h⟩ := execDorlenWatchdog_restarts hlen hb
    exact ⟨t, (exec_dorlenWatchdog s k none).trans ht, h⟩
  · obtain ⟨h1, h2, h3, h4⟩ := State.watchdog_restarts (s := s) (k := 4) (by rw [hlen]; decide)
    have hr := (s.watchdog 4).report_err 2 (unit := 0xC) (by decide) 0x242 4
    refine ⟨_, by rw [exec_groomWatchdog, execGroomWatchdog], ?_⟩
    generalize (s.watchdog 4).report 2 0xC 0x242 4 = t at hr
    have hc (j : Nat) : t.core j = (s.watchdog 4).core j := by
      rw [hr]
      rfl
    refine ⟨by rw [hr, h1], by rw [hc, h3], by rw [hc, h3], fun j hj => by rw [hc, h4 j hj]⟩
  · exact ⟨_, exec_opsClearTiles s, s.clearTileOps_clears⟩
  · rw [exec_opsClearDevice, execOpsClearDevice]
    rfl
  · intro at_
    rw [exec_periscopeTimer, execPeriscopeTimer, hr]
    exact if_neg (by simp [h0]; omega)
  · have hx : exec (.periscopePin up) s = .next (s.trigger 1) :=
      (exec_periscopePin s up).trans (if_pos (by simp [hp, he]))
    refine ⟨fun hk => ?_, fun hk h2 hl => ?_, fun a hk h1 hl hlt hgt => ?_, fun hk h1 hl hc hv => ?_⟩
    · rw [hx, State.trigger_of_off hk]
    · rw [hx, State.trigger_drops hk (by omega) hl (.inl h2)]
      rfl
    · have hne : s.obs.lastSample ≠ some s.now := by
        rw [hl]
        simp
        omega
      rw [hx, State.trigger_drops hk (by omega) hne (.inr ⟨a, hl, hgt⟩)]
      rfl
    · exact ⟨_, hx, State.trigger_takes hk h1 hl hc hv⟩

end Sys2Proof.Machine
end

section
/-! Tables in memory (R327 to R329, R426 to R428, R440, R445, R452, R536, R583): what a load meets, what a page-table entry's
change leaves, and the pages of a command that names several. -/

namespace Sys2Proof.Machine

/-! ### Reads of memory -/

/-- From `s` to `t` memory has been read: no page has changed, and only the heat of the tier has. -/
structure ReadsOnly (s t : State) : Prop where
  access : AccessKept s t
  tier : t.tier = { s.tier with heat := t.tier.heat, heatOrder := t.tier.heatOrder }

theorem ReadsOnly.refl (s : State) : ReadsOnly s s := ⟨.refl s, rfl⟩

theorem ReadsOnly.trans {s t u : State} (hst : ReadsOnly s t) (htu : ReadsOnly t u) : ReadsOnly s u :=
  ⟨hst.access.trans htu.access, by rw [htu.tier, hst.tier]⟩

theorem MemOnly.readsOnly {s t : State} (h : MemOnly s t) : ReadsOnly s t :=
  ⟨h.accessKept, by rw [h.1]⟩

theorem FabOnly.readsOnly {s t : State} (h : FabOnly s t) : ReadsOnly s t :=
  ⟨h.accessKept, by rw [h]⟩

theorem State.mendUnit_readsOnly (s : State) (a b : Nat) : ReadsOnly s (s.mendUnit a b) := by
  unfold State.mendUnit
  extract_lets u bad
  have hu : ReadsOnly s u := ((s.decodeAt_memOnly a 64).trans (State.decodeAt_memOnly ..)).readsOnly
  clear_value u
  split
  · exact hu.trans (State.putHbm_memOnly ..).readsOnly
  · exact hu

theorem State.touch_readsOnly (s : State) (p n : Nat) : ReadsOnly s (s.touch p n) := by
  have h1 : ReadsOnly s (s.readEntry p) := by
    unfold State.readEntry
    dsimp only
    split
    · exact .refl s
    · exact (s.mendUnit_readsOnly ..).trans (State.mendUnit_readsOnly ..)
  refine h1.trans ?_
  unfold State.touch State.warm State.heatEntry
  dsimp only
  split_ifs <;> exact ⟨⟨rfl, rfl, rfl⟩, rfl⟩

theorem State.farRead_readsOnly (s : State) (home key n : Nat) : ReadsOnly s (s.farRead home key n).2.2 := by
  unfold State.farRead
  extract_lets lo len u d p
  have hu : ReadsOnly s u := foldl_related ReadsOnly.refl ReadsOnly.trans (fun _ _ => (State.sendReq_fabOnly ..).readsOnly) _ s
  exact hu.trans ⟨⟨rfl, rfl, rfl⟩, rfl⟩

theorem State.getSpan_readsOnly (s : State) (sp n : Nat) : ReadsOnly s (s.getSpan sp n).2.2 := by
  unfold State.getSpan
  extract_lets u
  have hu : ReadsOnly s u := by
    unfold u
    split
    · exact s.touch_readsOnly ..
    · exact .refl s
  clear_value u
  refine hu.trans ?_
  split
  · next a _ =>
    have hc (t : State) (a wr rd : Nat) : ReadsOnly t (t.countHbm a wr rd) := ⟨⟨rfl, rfl, rfl⟩, rfl⟩
    exact (u.decodeAt_memOnly a n).readsOnly.trans (foldl_related ReadsOnly.refl ReadsOnly.trans (fun _ _ => hc ..) _ _)
  · exact .refl u
  · exact .refl u
  · exact u.farRead_readsOnly ..
  · exact ⟨⟨rfl, rfl, rfl⟩, rfl⟩
  · exact u.farRead_readsOnly ..
  · exact .refl u

theorem State.sendUnits_readsOnly (s : State) (addr : Nat) (us : List MoveUnit) (lim key flags aux2 : Nat) (why : Purpose) :
    ReadsOnly s (s.sendUnits addr us lim key flags aux2 why) :=
  foldl_related ReadsOnly.refl ReadsOnly.trans (fun _ _ => (State.sendReq_fabOnly ..).readsOnly) _ s

theorem State.sendGranule_readsOnly (s : State) (p g : Nat) (why : Purpose) : ReadsOnly s (s.sendGranule p g why) :=
  (s.getSpan_readsOnly ..).trans (State.sendUnits_readsOnly ..)

theorem State.askOld_readsOnly (s : State) (p home key : Nat) : ReadsOnly s (s.askOld p home key) :=
  foldl_related ReadsOnly.refl ReadsOnly.trans (fun _ _ =>
    foldl_related ReadsOnly.refl ReadsOnly.trans (fun _ _ => (State.sendReq_fabOnly ..).readsOnly) _ _) _ s

theorem State.rawRead_readsOnly (s : State) (a n : Nat) : ReadsOnly s (s.rawRead a n).2.2 := by
  unfold State.rawRead
  suffices h : ∀ (l : List (Nat × Bytes)) (r : Bytes × Bool × State), ReadsOnly s r.2.2 → ReadsOnly s (l.foldl
      (fun (r : Bytes × Bool × State) p =>
        let q := r.2.2.getSpan (r.2.2.storage p.1 false) p.2.length
        (r.1 ++ q.1, r.2.1 || q.2.1, q.2.2)) r).2.2 from h _ _ (.refl s)
  intro l
  induction l with
  | nil => exact fun r h => h
  | cons p l ih => exact fun r h => ih _ (h.trans (State.getSpan_readsOnly ..))

/-! ### What a load meets -/

theorem State.firstCopies_accessKept (s : State) (a n : Nat) : AccessKept s (s.firstCopies a n) := by
  unfold State.firstCopies
  split
  · exact .refl s
  · extract_lets lo hi
    refine foldl_related AccessKept.refl AccessKept.trans (fun t i => ?_) _ s
    extract_lets u act st t1 o t2
    have h1 : AccessKept t t1 := ⟨rfl, rfl, rfl⟩
    have h2 : AccessKept t1 t2 := (State.getSpan_readsOnly ..).access.trans
      (foldl_related AccessKept.refl AccessKept.trans (fun _ _ => State.putSpan_accessKept ..) _ _)
    clear_value t2
    split
    · exact .refl t
    · split
      · exact h1
      · exact h1.trans (h2.trans ⟨rfl, rfl, rfl⟩)

theorem State.rawWrite_accessKept (s : State) (a : Nat) (b : Bytes) (fmt : Nat) (pois : Bool) :
    AccessKept s (s.rawWrite a b fmt pois) :=
  (s.firstCopies_accessKept ..).trans (foldl_related AccessKept.refl AccessKept.trans (fun _ _ => State.putSpan_accessKept ..) _ _)

theorem State.combineOut_accessKept (s : State) (e : Combine) : AccessKept s (s.combineOut e) := by
  unfold State.combineOut
  extract_lets fab u n r
  have hr : AccessKept s r.2.2 := AccessKept.trans (t := u) ⟨rfl, rfl, rfl⟩ (State.rawRead_readsOnly ..).access
  clear_value r
  split
  · exact hr
  · exact hr.trans (State.rawWrite_accessKept ..)

theorem State.combineAt_accessKept (s : State) (a n : Nat) : AccessKept s (s.combineAt a n) := by
  unfold State.combineAt
  split
  · exact .refl s
  · exact foldl_related AccessKept.refl AccessKept.trans (fun _ _ => State.combineOut_accessKept ..) _ s

theorem State.meetRange_accessKept (s : State) (a n : Nat) : AccessKept s (s.meetRange a n) :=
  (s.combineAt_accessKept a n).trans
    (foldl_related AccessKept.refl AccessKept.trans (fun _ _ => (State.decodeAt_memOnly ..).accessKept) _ _)

/-- What memory is there follows from flash alone. -/
theorem AccessKept.fixedHbm {s t : State} (h : AccessKept s t) (a n : Nat) : t.fixedHbm a n = s.fixedHbm a n := by
  unfold State.fixedHbm State.inHbm State.top State.service State.chanRec
  rw [h.flash]

/-! ### An entry of the page table -/

theorem State.onPage_tier (s : State) (p : Nat) (f : Page → Page) :
    (s.onPage p f).tier = { s.tier with pages := Tbl.upd {} s.tier.pages p f } := by
  unfold State.onPage
  dsimp only
  split
  · rfl
  · rw [((State.putHbm_memOnly ..).trans (State.putHbm_memOnly ..)).1]

theorem State.page_onPage_self (s : State) (p : Nat) (f : Page → Page) : (s.onPage p f).page p = f (s.page p) := by
  rw [State.page, State.onPage_tier]
  exact Tbl.get_upd_self ..

theorem State.page_onPage_ne {p q : Nat} (h : q ≠ p) (s : State) (f : Page → Page) : (s.onPage p f).page q = s.page q := by
  rw [State.page, State.onPage_tier]
  exact Tbl.get_upd_ne h ..

/-- A write of memory in which no cell has lost its charge is one of memory alone. -/
theorem State.putHbm_of_sound {s : State} (h : s.hbm.flips = []) (a : Nat) (b : Bytes) (fmt : Nat) (pois first : Bool) :
    s.putHbm a b fmt pois first = { s with hbm := (s.putHbm a b fmt pois first).hbm, obs := (s.putHbm a b fmt pois first).obs } ∧
    (s.putHbm a b fmt pois first).hbm.flips = [] := by
  have hd : s.decodeAt a b.length = s := by
    unfold State.decodeAt
    rw [h]
    rfl
  have hc : (s.cleanCell a).hbm.flips = [] := by
    unfold State.cleanCell
    rw [h]
    rfl
  unfold State.putHbm
  dsimp only
  rw [hd, ite_self]
  split
  · exact ⟨rfl, h⟩
  · exact ⟨rfl, hc⟩

/-- From `s` to `t` only memory, its counts, the pages and their moves have changed, and what is said to the host. -/
structure PagesOnly (s t : State) : Prop where
  halter : HalterOnly { s with tier := { s.tier with pages := t.tier.pages, moves := t.tier.moves }, hbm := t.hbm, obs := t.obs } t
  flips : t.hbm.flips = []

theorem PagesOnly.refl {s : State} (h : s.hbm.flips = []) : PagesOnly s s := ⟨rfl, h⟩

theorem PagesOnly.trans {s t u : State} (hst : PagesOnly s t) (htu : PagesOnly t u) : PagesOnly s u := by
  obtain ⟨h1, -⟩ := hst
  obtain ⟨h2, hf⟩ := htu
  rw [HalterOnly] at h1 h2
  refine ⟨?_, hf⟩
  rw [HalterOnly, h2, h1]

theorem HalterOnly.pagesOnly {s t : State} (h : HalterOnly s t) (hf : s.hbm.flips = []) : PagesOnly s t := by
  rw [HalterOnly] at h
  exact ⟨by rw [HalterOnly, h], by rw [h]; exact hf⟩

/-- A change of an entry, where no cell has lost its charge, changes the pages and memory alone. -/
theorem State.onPage_of_sound {s : State} (h : s.hbm.flips = []) (p : Nat) (f : Page → Page) :
    s.onPage p f = { s with tier := { s.tier with pages := Tbl.upd {} s.tier.pages p f }
                            hbm := (s.onPage p f).hbm, obs := (s.onPage p f).obs } ∧ (s.onPage p f).hbm.flips = [] := by
  unfold State.onPage
  dsimp only
  split
  · exact ⟨rfl, h⟩
  · generalize hu : ({ s with tier := { s.tier with pages := Tbl.upd {} s.tier.pages p f } } : State) = u
    have huf : u.hbm.flips = [] := by
      rw [← hu]
      exact h
    obtain ⟨h1, hf1⟩ := State.putHbm_of_sound huf (s.tier.tableBase + 16 * p) (pageBytes (f (s.page p))) 0 false true
    generalize u.putHbm (s.tier.tableBase + 16 * p) (pageBytes (f (s.page p))) 0 false true = v at h1 hf1
    obtain ⟨h2, hf2⟩ := State.putHbm_of_sound hf1 (u.tier.tableMirror + 16 * p) (pageBytes (f (s.page p))) 0 false true
    rw [show u.tier.tableMirror = s.tier.tableMirror by rw [← hu]] at h2 hf2
    generalize v.putHbm (s.tier.tableMirror + 16 * p) (pageBytes (f (s.page p))) 0 false true = w at h2 hf2
    refine ⟨?_, hf2⟩
    rw [h2, h1, ← hu]

theorem State.onPage_pagesOnly {s : State} (h : s.hbm.flips = []) (p : Nat) (f : Page → Page) : PagesOnly s (s.onPage p f) := by
  obtain ⟨h1, hf⟩ := State.onPage_of_sound h p f
  generalize s.onPage p f = t at h1 hf
  refine ⟨?_, hf⟩
  rw [HalterOnly, h1]

/-! ### Pins -/

theorem State.tierDone_halterOnly (s : State) (p : Nat) (evict : Bool) (status : Nat) : HalterOnly s (s.tierDone p evict status) :=
  (State.foldl_finish _ _ s).1.halter

theorem State.page_tierDone (s : State) (p : Nat) (evict : Bool) (status q : Nat) : (s.tierDone p evict status).page q = s.page q := by
  rw [State.page, s.tierDone_halterOnly p evict status]
  rfl

theorem State.keepPage_pagesOnly {s : State} (h : s.hbm.flips = []) (p : Nat) : PagesOnly s (s.keepPage p) := by
  unfold State.keepPage
  extract_lets next u
  have h1 := State.onPage_pagesOnly h p fun e => { e with st := 2 }
  have h2 : PagesOnly (s.onPage p fun e => { e with st := 2 }) ((s.onPage p fun e => { e with st := 2 }).dropMove p) := ⟨rfl, h1.flips⟩
  have hu : PagesOnly s u := (h1.trans h2).trans ((State.tierDone_halterOnly ..).pagesOnly h2.flips)
  clear_value next u
  split
  · exact hu.trans ((State.tierDone_halterOnly ..).pagesOnly hu.flips)
  · exact hu

theorem State.page_keepPage (s : State) (p q : Nat) : (s.keepPage p).page q = (s.onPage p fun e => { e with st := 2 }).page q := by
  unfold State.keepPage
  extract_lets next u
  have hu : u.page q = (s.onPage p fun e => { e with st := 2 }).page q := State.page_tierDone ..
  clear_value next u
  split
  · exact (State.page_tierDone ..).trans hu
  · exact hu

/-- A page with its pin set or cleared: one that is being evicted stays where it is pinned. -/
def Page.pinned (pin : Bool) (e : Page) : Page := { e with pin := pin, st := if pin = true ∧ e.st = 4 then 2 else e.st }

/-- The state with the pin of page `p` set or cleared. -/
def State.pinPage (pin : Bool) (s : State) (p : BitVec 21) : State :=
  (if pin && (s.page p.toNat).st = 4 then s.keepPage p.toNat else s).onPage p.toNat fun e => { e with pin := pin }

theorem State.pinPage_pagesOnly (pin : Bool) {s : State} (h : s.hbm.flips = []) (p : BitVec 21) : PagesOnly s (s.pinPage pin p) := by
  unfold State.pinPage
  split
  · have h1 := State.keepPage_pagesOnly h p.toNat
    exact h1.trans (State.onPage_pagesOnly h1.flips ..)
  · exact State.onPage_pagesOnly h ..

theorem State.page_pinPage_self (pin : Bool) (s : State) (p : BitVec 21) :
    (s.pinPage pin p).page p.toNat = (s.page p.toNat).pinned pin := by
  unfold State.pinPage
  rw [State.page_onPage_self]
  split
  · next h =>
    have h : pin = true ∧ (s.page p.toNat).st = 4 := by simpa using h
    rw [State.page_keepPage, State.page_onPage_self, Page.pinned, if_pos h]
  · next h =>
    have h : ¬ (pin = true ∧ (s.page p.toNat).st = 4) := by simpa using h
    rw [Page.pinned, if_neg h]

theorem State.page_pinPage_ne (pin : Bool) (s : State) {p : BitVec 21} {q : Nat} (h : q ≠ p.toNat) : (s.pinPage pin p).page q = s.page q := by
  unfold State.pinPage
  rw [State.page_onPage_ne h]
  split
  · rw [State.page_keepPage, State.page_onPage_ne h]
  · rfl

theorem Page.pinned_pinned (pin : Bool) (e : Page) : (e.pinned pin).pinned pin = e.pinned pin := by
  by_cases h : pin = true ∧ e.st = 4
  · simp [Page.pinned, h]
  · simp only [Page.pinned, if_neg h]

/-- Pins change the named pages, each once however often it is named. -/
theorem State.page_foldl_pinPage (pin : Bool) (ps : List (BitVec 21)) (s : State) (q : Nat) :
    (ps.foldl (State.pinPage pin) s).page q = if ∃ p ∈ ps, q = p.toNat then (s.page q).pinned pin else s.page q := by
  induction ps generalizing s with
  | nil => exact (if_neg (by simp)).symm
  | cons p ps ih =>
    rw [List.foldl_cons, ih]
    by_cases hq : q = p.toNat
    · subst hq
      rw [State.page_pinPage_self, Page.pinned_pinned, ite_self, if_pos ⟨p, List.mem_cons_self, rfl⟩]
    · rw [State.page_pinPage_ne pin s hq]
      simp only [List.mem_cons, exists_eq_or_imp, hq, false_or]

theorem State.foldl_pinPage_pagesOnly (pin : Bool) (ps : List (BitVec 21)) {s : State} (h : s.hbm.flips = []) :
    PagesOnly s (ps.foldl (State.pinPage pin) s) := by
  induction ps generalizing s with
  | nil => exact .refl h
  | cons p ps ih =>
    have h1 := State.pinPage_pagesOnly pin h p
    exact h1.trans (ih h1.flips)

/-! ### The buddy's pages -/

/-- What a canonical table lists at a key is what it reads there. -/
theorem Tbl.get_of_mem {α : Type} [DecidableEq α] {d : α} {e : Nat × α} : ∀ {t : Tbl α} {lo : Nat}, Tbl.wfFrom d lo t = true → e ∈ t →
    lo ≤ e.1 ∧ Tbl.get d t e.1 = e.2
  | (k, v) :: t, lo, h, he => by
    simp only [Tbl.wfFrom, Bool.and_eq_true, decide_eq_true_eq] at h
    obtain ⟨⟨hlo, -⟩, ht⟩ := h
    rcases List.mem_cons.1 he with rfl | he
    · exact ⟨hlo, if_pos rfl⟩
    · obtain ⟨h1, h2⟩ := Tbl.get_of_mem ht he
      exact ⟨by omega, by rw [Tbl.get, if_neg (by omega), h2]⟩

/-- What does not read as the default is listed. -/
theorem Tbl.mem_of_get_ne {α : Type} {d : α} {i : Nat} : ∀ {t : Tbl α}, Tbl.get d t i ≠ d → (i, Tbl.get d t i) ∈ t
  | [], h => absurd rfl h
  | (k, v) :: t, h => by
    rw [Tbl.get] at h ⊢
    split at h
    · next hk =>
      rw [if_pos hk, hk]
      exact List.mem_cons_self
    · next hk =>
      rw [if_neg hk]
      exact List.mem_cons_of_mem _ (Tbl.mem_of_get_ne h)

/-- The state with the copies of the named pages at their new homes. -/
def State.rehome (s : State) (pages : List (BitVec 21 × BitVec 64 × BitVec 32)) : State :=
  pages.foldl (fun (s : State) x => s.onPage x.1.toNat fun e => { e with home := x.2.1.toNat, key := x.2.2.toNat }) s

theorem State.page_rehome_ne {q : Nat} {pages : List (BitVec 21 × BitVec 64 × BitVec 32)} (h : ∀ x ∈ pages, q ≠ x.1.toNat) (s : State) :
    (s.rehome pages).page q = s.page q := by
  induction pages generalizing s with
  | nil => rfl
  | cons x pages ih =>
    rw [State.rehome, List.foldl_cons, ← State.rehome, ih fun y hy => h y (List.mem_cons_of_mem _ hy),
      State.page_onPage_ne (h x List.mem_cons_self)]

theorem State.page_rehome_mem {x : BitVec 21 × BitVec 64 × BitVec 32} {pages : List (BitVec 21 × BitVec 64 × BitVec 32)}
    (hd : (pages.map fun x => x.1.toNat).Nodup) (hx : x ∈ pages) (s : State) :
    (s.rehome pages).page x.1.toNat = { s.page x.1.toNat with home := x.2.1.toNat, key := x.2.2.toNat } := by
  induction pages generalizing s with
  | nil => cases hx
  | cons y pages ih =>
    obtain ⟨hy, hd⟩ := List.nodup_cons.1 hd
    have hmem {z : BitVec 21 × BitVec 64 × BitVec 32} (hz : z ∈ pages) : z.1.toNat ∈ pages.map fun x => x.1.toNat :=
      List.mem_map_of_mem (f := fun x : BitVec 21 × BitVec 64 × BitVec 32 => x.1.toNat) hz
    rw [State.rehome, List.foldl_cons, ← State.rehome]
    rcases List.mem_cons.1 hx with rfl | hx
    · rw [State.page_rehome_ne fun z hz he => hy (by dsimp only; rw [he]; exact hmem hz), State.page_onPage_self]
    · have hne : x.1.toNat ≠ y.1.toNat := fun he => hy (by dsimp only; rw [← he]; exact hmem hx)
      rw [ih hd hx, State.page_onPage_ne hne]

theorem State.reseedNext_reads (s : State) : (s.reseedNext).tier.pages = s.tier.pages ∧ s.reseedNext.tier.buddyDev = s.tier.buddyDev ∧
    s.reseedNext.tier.buddySt = s.tier.buddySt := by
  unfold State.reseedNext
  extract_lets old u
  have hr {v w : State} (h : ReadsOnly v w) : w.tier.pages = v.tier.pages ∧ w.tier.buddyDev = v.tier.buddyDev ∧
      w.tier.buddySt = v.tier.buddySt := by
    rw [h.tier]
    exact ⟨rfl, rfl, rfl⟩
  split
  · exact ⟨rfl, rfl, rfl⟩
  · split
    · next p e _ =>
      extract_lets v
      have hv : v.tier.pages = s.tier.pages ∧ v.tier.buddyDev = s.tier.buddyDev ∧ v.tier.buddySt = s.tier.buddySt := ⟨rfl, rfl, rfl⟩
      rw [← hv.1, ← hv.2.1, ← hv.2.2]
      clear_value v
      split
      · exact hr (foldl_related ReadsOnly.refl ReadsOnly.trans (fun _ _ => State.sendGranule_readsOnly ..) _ v)
      · split
        · exact hr (State.askOld_readsOnly ..)
        · exact ⟨rfl, rfl, rfl⟩
    · exact ⟨rfl, rfl, rfl⟩

theorem State.payOwed_of_nil {s : State} (ho : s.fab.owed = []) (hc : s.hal.cmds = []) : s.payOwed = s := by
  unfold State.payOwed State.payMem
  rw [ho]
  dsimp only [List.filter_nil, List.foldl_nil]
  rw [hc]
  rfl

/-- The pages with a buddy are the named ones. -/
theorem State.buddied_named {s : State} {pages : List (BitVec 21 × BitVec 64 × BitVec 32)} (hw : Tbl.wf {} s.tier.pages = true)
    (h : ∀ p, (s.page p).buddy = true ↔ ∃ x ∈ pages, x.1.toNat = p) :
    (((s.tier.pages.filter fun e => e.2.buddy).map fun e => e.1).all (pages.map fun x => x.1.toNat).contains) = true ∧
    ((pages.map fun x => x.1.toNat).all ((s.tier.pages.filter fun e => e.2.buddy).map fun e => e.1).contains) = true := by
  constructor
  · refine List.all_eq_true.2 fun p hp => List.contains_iff_mem.2 ?_
    obtain ⟨e, he, rfl⟩ := List.mem_map.1 hp
    obtain ⟨he, hb⟩ := List.mem_filter.1 he
    obtain ⟨x, hx, hxe⟩ := (h e.1).1 (by rw [State.page, (Tbl.get_of_mem hw he).2]; exact hb)
    exact List.mem_map.2 ⟨x, hx, hxe⟩
  · refine List.all_eq_true.2 fun p hp => List.contains_iff_mem.2 ?_
    obtain ⟨x, hx, rfl⟩ := List.mem_map.1 hp
    have hb : (Tbl.get {} s.tier.pages x.1.toNat).buddy = true := (h _).2 ⟨x, hx, rfl⟩
    have hm := Tbl.mem_of_get_ne (d := ({} : Page)) (i := x.1.toNat) (t := s.tier.pages) fun he => by
      rw [he] at hb
      cases hb
    exact List.mem_map.2 ⟨_, List.mem_filter.2 ⟨hm, hb⟩, rfl⟩

/-- The state whose pages' copies are at their new homes, with the buddy at which a re-seed begins. -/
def State.rebuddied (s : State) (dev : Nat) (pages : List (BitVec 21 × BitVec 64 × BitVec 32)) : State :=
  { s.rehome pages with tier := { (s.rehome pages).tier with buddyDev := dev, buddySt := 3, reseed := 0 } }

theorem State.rebuddied_reseeds (s : State) (dev : Nat) (pages : List (BitVec 21 × BitVec 64 × BitVec 32)) (c : PendCmd) :
    (∀ q, (((s.rebuddied dev pages).answer c 0).reseedNext).page q = (s.rehome pages).page q) ∧
    (((s.rebuddied dev pages).answer c 0).reseedNext).tier.buddyDev = dev ∧
    (((s.rebuddied dev pages).answer c 0).reseedNext).tier.buddySt = 3 := by
  have hk := (s.rebuddied dev pages).answer_halterOnly c 0 []
  generalize (s.rebuddied dev pages).answer c 0 [] = t at hk
  have ht : t.tier = { (s.rehome pages).tier with buddyDev := dev, buddySt := 3, reseed := 0 } := by
    rw [hk]
    rfl
  obtain ⟨h1, h2, h3⟩ := t.reseedNext_reads
  rw [ht] at h1 h2 h3
  refine ⟨fun q => ?_, h2, h3⟩
  rw [State.page, h1]
  rfl

/-- A new buddy: nothing is owed, and the copies go to their new homes. -/
theorem Accepted.tierBuddy {s : State} {h : Hdr} {dev : Nat} {pages : List (BitVec 21 × BitVec 64 × BitVec 32)}
    (ha : Accepted s h 0x10F 14 false) (hd : (pages.map fun x => x.1.toNat).Nodup) (hw : Tbl.wf {} s.tier.pages = true)
    (hp : ∀ p, (s.page p).buddy = true ↔ ∃ x ∈ pages, x.1.toNat = p)
    (hh : ∀ x ∈ pages, x.2.1 ≠ 0 ∧ s.homeOk x.2.1.toNat = true ∧ addrDev x.2.1.toNat = dev) (ho : s.fab.owed = []) (hc : s.hal.cmds = []) :
    ∃ u : State, (∀ q, u.page q = s.page q) ∧
      exec (.tierBuddy h dev pages) s = .next (((u.rebuddied dev pages).answer (hdrCmd h 0x10F s.now) 0).reseedNext) := by
  rw [ha.exec_eq (c := .tierBuddy h dev pages) (by rw [exec_tierBuddy, execTierBuddy]; rfl), if_neg]
  · dsimp only
    rw [State.payOwed_of_nil]
    · unfold State.rebuddied State.rehome
      refine ⟨_, fun q => ?_, rfl⟩
      rfl
    · change List.map _ s.fab.owed = []
      rw [ho]
      rfl
    · change List.map _ s.hal.cmds = []
      rw [hc]
      rfl
  · obtain ⟨hb, hn⟩ := State.buddied_named hw hp
    have hh : (pages.all fun x => decide (x.2.1 ≠ 0) && s.homeOk x.2.1.toNat && addrDev x.2.1.toNat == dev) = true := by
      refine List.all_eq_true.2 fun x hm => ?_
      obtain ⟨h1, h2, h3⟩ := hh x hm
      rw [decide_eq_true h1, h2, h3]
      simp
    intro hbad
    simp only [Bool.or_eq_true, Bool.not_eq_true', decide_eq_false_iff_not] at hbad
    rcases hbad with ((hbad | hbad) | hbad) | hbad
    · exact hbad hd
    · exact Bool.false_ne_true (hbad.symm.trans hb)
    · exact Bool.false_ne_true (hbad.symm.trans hn)
    · exact Bool.false_ne_true (hbad.symm.trans hh)

/-! ### The statement -/

/-- Settles O42: a clause each, from what the tables' loads read, and from the pages that a command names. -/
theorem halterTables : Obligations.HalterTables := by
  intro h s A
  refine ⟨fun l b s1 ha h64 hn hl => ?_, fun l f base mirror list buddy ha hl hf hb h1 h2 h3 h4 => ?_,
    fun c q src fsrc flen base mirror list buddy hp hc => ?_, fun p v ha => ?_, fun ps pin ha hps => ?_,
    fun first count ha hle => ?_, fun dev pages ha hd hw hpages hhome hod hcmds hreqs => ?_, fun pay l o ha hl hal hfix => ?_⟩
  · intro es
    have hx : exec (.tagTableLoad h l) s = .next _ := ha.exec_eq (c := .tagTableLoad h l) (by rw [exec_tagTableLoad, execTagTableLoad]; rfl)
    rw [if_neg (by simp [h64]; omega)] at hx
    dsimp only at hx
    rw [show (s.accept h).loadData l.src l.len l.check = (some b, s1) from hl] at hx
    dsimp only at hx
    refine ⟨fun hes => hx.trans ?_, fun hes => hx.trans ?_⟩
    · rw [if_neg (by rw [show _ = true from hes]; decide)]
      rfl
    · rw [if_pos (by rw [show _ = false from hes]; decide)]
  · intro B h5 h6 h7 h8
    refine (ha.exec_eq (c := .pageTableLoad h l f base mirror list buddy) (by rw [exec_pageTableLoad, execPageTableLoad]; rfl)).trans ?_
    dsimp only
    have hplaces : ((s.accept h).fixedHbm base (2 ^ 25) && (s.accept h).fixedHbm mirror (2 ^ 25) &&
        decide (base / 2 ^ 36 ≠ mirror / 2 ^ 36) && (decide (f.len = 0) || (s.accept h).inHbm list f.len)) = true := by
      rw [show (s.accept h).fixedHbm base (2 ^ 25) = true from h1, show (s.accept h).fixedHbm mirror (2 ^ 25) = true from h2,
        decide_eq_true h3]
      simpa using show f.len = 0 ∨ (s.accept h).inHbm list f.len = true from h4
    rw [if_neg]
    · have h6 : (decide (f.len = 0) || B.loadOk f) = true := by simpa using h6
      rw [hplaces, show ((s.accept h).meetRange l.src l.len).meetRange f.src f.len = B from rfl, h5, h6, h7, h8, hl]
      simp [hf]
      omega
  · refine ⟨_, by rw [exec_pageTableLoadDone, execPageTableLoadDone, hp]; dsimp only; rw [hc], ?_⟩
    dsimp only
    have hk := (State.finish_repliesOnly ((s.loadPages src fsrc flen base mirror list buddy).extend 5 0x107
          (sha256 (s.hbmBytes src (2 ^ 25) ++ s.hbmBytes fsrc flen))) c 0 []).halter
    generalize State.finish ((s.loadPages src fsrc flen base mirror list buddy).extend 5 0x107
          (sha256 (s.hbmBytes src (2 ^ 25) ++ s.hbmBytes fsrc flen))) c 0 [] = t at hk
    rw [hk]
    exact ⟨rfl, rfl, rfl, rfl, rfl, rfl, rfl, rfl⟩
  · intro e hv hok hm hplace
    have hx := ha.exec_eq (c := .pageSet h p v) (by rw [exec_pageSet, execPageSet]; rfl)
    have hbase : (s.accept h).frameBase e.1.frame = noFrame → e.1.st ≠ 2 := fun hf hst => (hplace hst).1 hf
    rw [if_neg] at hx
    · have hm : (s.accept h).moveOf p.toNat = none := hm
      rw [hm] at hx
      refine ⟨_, hx, ?_⟩
      dsimp only
      have ht := State.onPage_tier (s.accept h) p.toNat fun _ => e.1
      have hs : (s.accept h).hbm.flips = [] → PagesOnly (s.accept h) ((s.accept h).onPage p.toNat fun _ => e.1) :=
        fun hf => State.onPage_pagesOnly hf ..
      generalize (s.accept h).onPage p.toNat (fun _ => e.1) = u at ht hs
      generalize hv : State.onTier _ _ = w
      have hk := w.answer_halterOnly (hdrCmd h 0x108 s.now) 0 []
      generalize w.answer (hdrCmd h 0x108 s.now) 0 [] = t at hk
      have hw : w = { u with tier := { u.tier with dirty := w.tier.dirty, buddyEn := w.tier.buddyEn, buddySt := w.tier.buddySt
                                                   farOld := w.tier.farOld } } := by
        rw [← hv]
        rfl
      have hpage (q : Nat) : t.page q = Tbl.get {} (Tbl.upd {} s.tier.pages p.toNat fun _ => e.1) q := by
        rw [State.page, hk, hw]
        dsimp only
        rw [ht]
        rfl
      refine ⟨by rw [hpage, Tbl.get_upd_self], fun q hq => by rw [hpage, Tbl.get_upd_ne hq]; rfl, fun hf => ?_⟩
      obtain ⟨hs, -⟩ := hs hf
      rw [HalterOnly] at hk hs ⊢
      rw [hk, hw, hs]
      rfl
    · rw [show (s.accept h).pageOk (s.accept h).tier.buddyDev e.1 = true from hok, hv]
      intro hp
      obtain ⟨hst, hp⟩ := (by simpa using hp : e.1.st = 2 ∧ _)
      rcases hp with hp | ⟨a, b, hp⟩
      · exact hbase hp hst
      · exact (hplace hst).2 (a, b) hp.1 hp.2.1.1 hp.2.1.2 hp.2.2
  · have hx := ha.exec_eq (c := .tierPin h ps pin) (by rw [exec_tierPin, execTierPin]; rfl)
    rw [if_neg] at hx
    · change exec _ s = .next ((ps.foldl (State.pinPage pin) (s.accept h)).answer (hdrCmd h 0x10D s.now) 0) at hx
      have hp := State.page_foldl_pinPage pin ps (s.accept h)
      have hs : s.hbm.flips = [] → _ := fun hf => State.foldl_pinPage_pagesOnly (s := s.accept h) pin ps hf
      have hk := State.answer_halterOnly (ps.foldl (State.pinPage pin) (s.accept h)) (hdrCmd h 0x10D s.now) 0 []
      generalize ps.foldl (State.pinPage pin) (s.accept h) = u at hx hp hs hk
      generalize u.answer (hdrCmd h 0x10D s.now) 0 [] = t at hx hk
      refine ⟨t, hx, ?_⟩
      have hpage (q : Nat) : t.page q = u.page q := by
        rw [State.page, hk]
        rfl
      refine ⟨fun p hm => ?_, fun q hq => ?_, fun hf => ?_⟩
      · rw [hpage, hp, if_pos ⟨p, hm, rfl⟩]
        rfl
      · rw [hpage, hp, if_neg fun ⟨p, hm, he⟩ => hq p hm he]
        rfl
      · obtain ⟨hs, -⟩ := hs hf
        rw [HalterOnly] at hk hs ⊢
        rw [hk, hs]
        rfl
    · intro hany
      obtain ⟨p, hp, hb⟩ := List.any_eq_true.1 hany
      have hp := hps p hp
      rw [show (s.accept h).page p.toNat = s.page p.toNat from rfl] at hb
      cases pin
      · have hp : ((s.page p.toNat).st = 0 ∨ (s.page p.toNat).home ≠ 0) ∧ (s.page p.toNat).buddy = false := hp
        obtain ⟨h1, h2⟩ := hp
        simp [h2] at hb
        omega
      · have hp : (s.page p.toNat).stay = false := hp
        simp [hp] at hb
  · intro ps ks
    have hx := ha.exec_eq (c := .tierFlush h first count) (by rw [exec_tierFlush, execTierFlush]; rfl)
    rw [if_neg (by omega)] at hx
    change exec _ s = .next (if ks.isEmpty = true then (A.pend { hdrCmd h 0x10E s.now with args := ks }).finish (hdrCmd h 0x10E s.now) 0
      else ks.foldl (fun (s : State) k => if s.granDirty (k / 32) (k % 32) then s.writeBack (k / 32) (k % 32) else s)
        (A.pend { hdrCmd h 0x10E s.now with args := ks })) at hx
    clear_value ks
    refine ⟨fun hks => ?_, fun hks => ?_⟩
    · rw [hx, hks]
      rfl
    · rw [hx, if_neg (by simpa using hks)]
  · obtain ⟨u, hu, hx⟩ := ha.tierBuddy hd hw hpages hhome hod hcmds
    obtain ⟨h1, h2, h3⟩ := u.rebuddied_reseeds dev pages (hdrCmd h 0x10F s.now)
    refine ⟨_, hx, h2, h3, fun x hm => (h1 _).trans ?_, fun q hq => (h1 q).trans ?_⟩
    · rw [State.page_rehome_mem hd hm, hu]
    · rw [State.page_rehome_ne hq, hu]
  · intro B C h1 h2
    refine (ha.exec_eq (c := .pathTableLoad h pay l o) (by rw [exec_pathTableLoad, execPathTableLoad]; rfl)).trans ?_
    dsimp only
    rw [if_neg]
    · rfl
    · have hf : B.fixedHbm o (2 ^ 25) = true := (((s.accept h).meetRange_accessKept ..).fixedHbm ..).trans hfix
      have hall : ((B.partsIn l.src (2 ^ 25) 32).all fun i => pathRecOk (B.hbmBytes (l.src + 32 * i) 32)) = true := List.all_eq_true.2 h2
      rw [show (s.accept h).meetRange l.src l.len = B from rfl, h1, hf, hall, hl, hal]
      decide

end Sys2Proof.Machine
end

section
/-! Recovery, resets, quotes and images (R583, R588, R589, R756 to R758, R783 to R786, R794 to R796, R798 to R800). -/

namespace Sys2Proof.Machine

/-! ### A device reset -/

theorem State.cancelAll_halterOnly (s : State) : HalterOnly s s.cancelAll := (State.foldl_finish _ _ s).1.halter

/-- What a start sets: the boot state alone. -/
theorem State.startFrom_boot (s : State) (sel : Nat) : s.startFrom sel = { s with boot := (s.startFrom sel).boot } := by
  unfold State.startFrom
  extract_lets u v first
  have hv : v = { s with boot := v.boot } := by
    unfold v
    split <;> rfl
  clear_value first v
  rw [hv]
  rfl

theorem State.startFrom_bootSel (s : State) (sel : Nat) : (s.startFrom sel).boot.bootSel = sel := by
  unfold State.startFrom
  extract_lets u v first
  have hv : v.boot.bootSel = sel := by
    unfold v
    split <;> rfl
  clear_value first v
  exact hv

theorem State.startFrom_rails (s : State) (sel : Nat) : (s.startFrom sel).boot.rails = s.boot.rails := by
  unfold State.startFrom
  extract_lets u v first
  have hv : v.boot.rails = s.boot.rails := by
    unfold v
    split <;> rfl
  clear_value first v
  exact hv

/-- An image on trial is read first. -/
theorem State.startFrom_trial {s : State} {k : Nat} {b : Bool} (h : s.flash.trial = some (k, b)) (sel : Nat) :
    (s.startFrom sel).boot.stage = if sel = 3 then .boardTest else .reading k false := by
  unfold State.startFrom
  extract_lets u v first
  have hv : v.flash = s.flash := by
    unfold v
    split <;> rfl
  have hf : first = k := by
    unfold first
    rw [hv, h]
  clear_value v
  rw [hf]
  rfl

/-! ### Quotes and images -/

theorem State.quoteRead_foldl (l : List PendCmd) (s : State) : let t := l.foldl (fun (s : State) c => s.quoteRead c) s
    t.boot.signing.length = s.boot.signing.length + l.length ∧ t.boot.akReady = s.boot.akReady ∧ t.flash = s.flash := by
  induction l generalizing s with
  | nil => exact ⟨rfl, rfl, rfl⟩
  | cons c l ih =>
    obtain ⟨h1, h2, h3⟩ := ih (s.quoteRead c)
    refine ⟨h1.trans ?_, h2, h3⟩
    simp [State.quoteRead, State.onBoot, State.onHal]
    omega

theorem State.finishDoc_halterOnly (s : State) (c : PendCmd) (d : Doc) : HalterOnly s (s.finishDoc c d) := by
  unfold State.finishDoc
  split <;> exact State.finish_halterOnly ..

theorem Flash.image_putImage (s : State) (k : Nat) (i : Image) : (s.putImage k i).flash.image k = i := by
  unfold State.putImage Flash.image
  split <;> rfl

theorem Flash.image_putImage_staging (s : State) (f : Flash) (i : Image) :
    (s.putImage f.staging i).flash.image f.bootSlot = s.flash.image f.bootSlot := by
  unfold State.putImage Flash.image Flash.staging
  by_cases hb : f.bootSlot = 0
  · simp [hb]
  · simp [hb, show 1 - f.bootSlot = 0 by omega]

theorem HalterOnly.slotOf {s t : State} (h : HalterOnly s t) (i : Nat) : t.slotOf i = s.slotOf i := by
  rw [State.slotOf, h]
  rfl

theorem State.chan_onChan_self (s : State) (m : Nat) (f : Chan → Chan) : (s.onChan m f).chan m = f (s.chan m) :=
  Tbl.get_upd_self s.hbm.chans m f

theorem State.chan_onChan_ne {j m : Nat} (h : j ≠ m) (s : State) (f : Chan → Chan) : (s.onChan m f).chan j = s.chan j :=
  Tbl.get_upd_ne h s.hbm.chans f

/-! ### The end of a re-initialisation -/

/-- Of another unit than a tile, the reply is given where the unit's outcome is there. -/
theorem execFuncReinitDone_status {s : State} {session seq st : Nat} (cols : List (Fin 130)) {c : PendCmd}
    (hc : (s.hal.cmds.find? fun c => c.session == session && c.seq == seq && c.code == 0x14) = some c)
    (ha : ∀ t, c.args ≠ [1, t]) (hs : s.reinitStatus c = some st) : execFuncReinitDone session seq cols s = .next
      ((if c.args.head? = some 4 then { s with fab := { s.fab with reinit := false, cache := [] } } else s : State).finish c st) := by
  rw [execFuncReinitDone, hc]
  dsimp only
  split
  · next t h => exact absurd h (ha t)
  · rw [hs]

theorem State.cmds_pend (s : State) (c : PendCmd) : (s.pend c).hal.cmds = s.hal.cmds ++ [c] := by
  unfold State.pend
  rw [State.answer_hal]
  rfl

/-! ### The statement -/

/-- Settles O49: a clause each, from what a device reset rebuilds, and from the commands that wait. -/
theorem halterRecovery : Obligations.HalterRecovery := by
  refine ⟨fun h s => ?_, fun s session seq cols c hc => ?_, fun s a ha hle => ?_, fun s h0 h1 => ?_, fun s k l c x hsig hc hx => ?_,
    fun s written c l hp => ?_⟩
  · intro A
    refine ⟨fun pay ha hlen hz => ?_, fun sel ha => ?_, fun ha => ?_, fun pay ha hlen hz => ?_, fun pay b s1 ha hlen h0 hle hl => ?_,
      fun pay sel ha hlen h2 h0 hst => ?_⟩
    · intro k i c
      have hx := ha.exec_eq (c := .funcReinit h pay) (by rw [exec_funcReinit, execFuncReinit]; rfl)
      rw [if_neg (by simp [hlen, hz])] at hx
      have hpend (c : PendCmd) : HalterOnly s (A.pend c) := HalterOnly.trans (t := A) (State.accept_repliesOnly ..).halter (State.pend_repliesOnly ..).halter
      refine ⟨fun hk hi hs hj => ?_, fun hk hi hs hj => ?_, fun hk hi hb hf => ?_, fun hk hi hf hm => ?_, fun hk hi => ?_, fun hk => ?_⟩
      · rw [show field pay 0 1 = 1 from hk] at hx
        have hp := hpend { hdrCmd h 0x14 s.now with args := [1, i] }
        change exec _ s = .next (if 192 ≤ i then _ else if ((A.pend { hdrCmd h 0x14 s.now with args := [1, i] }).slotOf i).isNone
          then _ else if (A.pend { hdrCmd h 0x14 s.now with args := [1, i] }).hal.job = 2 then _ else
          (A.pend { hdrCmd h 0x14 s.now with args := [1, i] }).onTile i Tile.reinit) at hx
        have hjob : (A.pend { hdrCmd h 0x14 s.now with args := [1, i] }).hal.job = s.hal.job := by
          rw [(State.pend_repliesOnly A _).hal]
          rfl
        generalize A.pend { hdrCmd h 0x14 s.now with args := [1, i] } = u at hp hx hjob
        have hslot : (u.slotOf i).isNone = false := by
          rw [hp.slotOf]
          simpa using hs
        rw [HalterOnly] at hp
        have htile (j : Nat) : u.tile j = s.tile j := by
          rw [hp]
          rfl
        rw [if_neg (by omega), if_neg (by rw [hslot]; decide), if_neg (by omega)] at hx
        refine ⟨_, hx, by rw [State.tile_onTile_self, htile], fun j hj => by rw [State.tile_onTile_ne u hj, htile], ?_⟩
        rw [HalterOnly, hp]
        rfl
      · have hcc : c = { hdrCmd h 0x14 s.now with args := [1, i] } := by
          unfold c
          rw [hk]
        have hp := hpend { hdrCmd h 0x14 s.now with args := [1, i] }
        rw [show field pay 0 1 = 1 from hk] at hx
        change exec _ s = .next (if 192 ≤ i then _ else if ((A.pend { hdrCmd h 0x14 s.now with args := [1, i] }).slotOf i).isNone
          then _ else if (A.pend { hdrCmd h 0x14 s.now with args := [1, i] }).hal.job = 2 then _ else _) at hx
        have hjob : (A.pend { hdrCmd h 0x14 s.now with args := [1, i] }).hal.job = s.hal.job := by
          rw [(State.pend_repliesOnly A _).hal]
          rfl
        have hslot : ((A.pend { hdrCmd h 0x14 s.now with args := [1, i] }).slotOf i).isNone = false := by
          rw [hp.slotOf]
          simpa using hs
        rw [if_neg (by omega), if_neg (by rw [hslot]; decide), if_pos (by omega)] at hx
        rw [hx, hcc]
      · rw [show field pay 0 1 = 2 from hk] at hx
        have hcc : c = { hdrCmd h 0x14 s.now with args := [2, i] } := by
          unfold c
          rw [hk]
        have hp := hpend { hdrCmd h 0x14 s.now with args := [2, i] }
        change exec _ s = .next (if 18 ≤ i then _ else
          if ((A.pend { hdrCmd h 0x14 s.now with args := [2, i] }).portReset i).2 then
            ((A.pend { hdrCmd h 0x14 s.now with args := [2, i] }).portReset i).1 else _) at hx
        have hr : (A.pend { hdrCmd h 0x14 s.now with args := [2, i] }).portReset i =
            ((A.pend { hdrCmd h 0x14 s.now with args := [2, i] }).linkDown i, true) := by
          refine if_neg ?_
          rw [hp]
          simp [hb, hf]
        rw [if_neg (by omega), hr, if_pos rfl] at hx
        rw [hx, hcc]
      · rw [show field pay 0 1 = 3 from hk] at hx
        have hp := hpend { hdrCmd h 0x14 s.now with args := [3, i] }
        change exec _ s = .next (if 96 ≤ i then _ else if ((A.pend { hdrCmd h 0x14 s.now with args := [3, i] }).chan i).failing ||
          ((A.pend { hdrCmd h 0x14 s.now with args := [3, i] }).chanRec i).mappedOut
          then _ else (A.pend { hdrCmd h 0x14 s.now with args := [3, i] }).onChan i fun x => 
            { x with retrain := some (x.retrain.getD ((A.pend { hdrCmd h 0x14 s.now with args := [3, i] }).now + 2000000)) }) at hx
        generalize A.pend { hdrCmd h 0x14 s.now with args := [3, i] } = u at hp hx
        rw [HalterOnly] at hp
        have hchan (j : Nat) : u.chan j = s.chan j := by
          rw [hp]
          rfl
        have hrec : (u.chanRec i).mappedOut = false := by
          rw [← hm, hp]
          rfl
        have hnow : u.now = s.now := by
          rw [hp]
          rfl
        rw [if_neg (by omega), if_neg (by rw [hchan, hf, hrec]; decide), hnow] at hx
        refine ⟨_, hx, ?_, fun j hj => ?_, ?_⟩
        · rw [← hchan]
          exact u.chan_onChan_self i _
        · rw [← hchan]
          exact State.chan_onChan_ne hj u _
        · rw [HalterOnly, hp]
          rfl
      · have hcc : c = { hdrCmd h 0x14 s.now with args := [4, i] } := by
          unfold c
          rw [hk]
        rw [show field pay 0 1 = 4 from hk] at hx
        dsimp only at hx
        rw [if_neg (not_not.2 hi)] at hx
        rw [hx, hcc]
        have hf : (A.pend { hdrCmd h 0x14 s.now with args := [4, i] }).fab = A.fab := by
          rw [(State.pend_repliesOnly A _).halter]
        rw [hf]
        rfl
      · have hk : field pay 0 1 = 0 ∨ 4 < field pay 0 1 := hk
        rw [hx]
        split
        · omega
        · omega
        · omega
        · omega
        · rfl
    · refine ⟨_, ha.exec_eq (c := .devReset h sel) (by rw [exec_devReset, execDevReset]; rfl), ?_⟩
      have hk := ((s.accept h).answer_halterOnly (hdrCmd h 0x15 s.now) 0 []).trans (State.cancelAll_halterOnly _)
      generalize ((s.accept h).answer (hdrCmd h 0x15 s.now) 0 []).cancelAll = u at hk
      rw [HalterOnly] at hk
      have hb := u.deviceReset.startFrom_boot sel.toNat
      have hs := u.deviceReset.startFrom_bootSel sel.toNat
      have hr := u.deviceReset.startFrom_rails sel.toNat
      generalize u.deviceReset.startFrom sel.toNat = t at hb hs hr
      rw [hk] at hb
      refine ⟨by rw [hb]; rfl, by rw [hb]; rfl, by rw [hb]; rfl, by rw [hb]; rfl, by rw [hb]; rfl, by rw [hb]; rfl, by rw [hb]; rfl,
        hr, hs, by rw [hb]; rfl, by rw [hb]; rfl⟩
    · refine ⟨_, ha.exec_eq (c := .trayPowerCycle h) (by rw [exec_trayPowerCycle, execTrayPowerCycle]; rfl), ?_⟩
      dsimp only
      have hk := (s.accept h).answer_halterOnly (hdrCmd h 0x16 s.now) 0 []
      generalize (s.accept h).answer (hdrCmd h 0x16 s.now) 0 [] = u at hk
      rw [HalterOnly] at hk
      rw [HalterOnly, hk]
      exact ⟨rfl, rfl⟩
    · intro c
      have hpend (c : PendCmd) : (A.pend c).boot = s.boot := by
        rw [(State.pend_repliesOnly A c).halter]
        rfl
      have hx := ha.exec_eq (c := .quote h pay) (by rw [exec_quote, execQuote]; rfl)
      rw [if_neg (by simp [hlen, hz])] at hx
      refine ⟨fun hd hak => ?_, fun hd hak => ?_, fun hd => ?_⟩
      · rw [hx, if_neg (not_not.2 hd)]
        exact congrArg _ (if_neg (by rw [show Boot.akReady _ = s.boot.akReady from congrArg Boot.akReady (hpend c), hak]; decide))
      · rw [hx, if_neg (not_not.2 hd)]
        exact congrArg _ (if_pos (by rw [show Boot.akReady _ = s.boot.akReady from congrArg Boot.akReady (hpend c), hak]))
      · rw [hx, if_pos hd]
    · have hx := ha.exec_eq (c := .fwStage h pay) (by rw [exec_fwStage, execFwStage]; rfl)
      rw [if_neg (by simp [hlen, h0]; omega)] at hx
      dsimp only at hx
      rw [show (s.accept h).loadData (field pay 0 8) (field pay 8 4) (field pay 16 8) = (some b, s1) from hl] at hx
      refine ⟨_, hx, Flash.image_putImage .., fun he => ?_⟩
      have hm : { hdrCmd h 0x207 s.now with data := b } ∈ State.pendingOf (s1.pend { hdrCmd h 0x207 s.now with data := b }) 0x207 := by
        rw [State.pendingOf, State.cmds_pend]
        simp [hdrCmd]
      rw [show State.pendingOf (s1.pend { hdrCmd h 0x207 s.now with data := b }) 0x207 = [] from he] at hm
      cases hm
    · have hx := ha.exec_eq (c := .fwActivate h pay sel) (by rw [exec_fwActivate, execFwActivate]; rfl)
      rw [if_neg (by rw [show (s.accept h).flash = s.flash from rfl, hst]; simp [hlen, h0]; omega)] at hx
      have hk := ((s.accept h).answer_halterOnly (hdrCmd h 0x208 s.now) 0 []).trans (State.cancelAll_halterOnly _)
      change exec _ s = .next (State.startFrom (State.deviceReset { ((s.accept h).answer (hdrCmd h 0x208 s.now) 0).cancelAll with
        flash := { ((s.accept h).answer (hdrCmd h 0x208 s.now) 0).cancelAll.flash with
          trial := some (s.flash.staging, bit (field pay 0 1) 0) } }) sel.toNat) at hx
      generalize ((s.accept h).answer (hdrCmd h 0x208 s.now) 0).cancelAll = u at hk hx
      generalize hu : State.deviceReset _ = v at hx
      have hf : v.flash = { s.flash with trial := some (s.flash.staging, bit (field pay 0 1) 0) } := by
        rw [← hu, hk]
        rfl
      have hb := v.startFrom_boot sel.toNat
      have hr := v.startFrom_rails sel.toNat
      have hst := State.startFrom_trial (s := v) (by rw [hf]) sel.toNat
      refine ⟨_, hx, by rw [hb]; exact hf, by rw [hb, ← hu]; rfl, by rw [hr, ← hu]; rfl, hst.trans ?_⟩
      by_cases h3 : sel = 3
      · rw [if_pos h3, if_pos (by rw [h3]; rfl)]
      · rw [if_neg h3, if_neg fun h : sel.toNat = 3 => h3 (BitVec.eq_of_toNat_eq h)]
  · refine ⟨fun p hargs hl => ?_, fun p hargs hl => ?_, fun i hargs hj => ?_, fun hargs hr => ?_⟩
    · refine (exec_funcReinitDone ..).trans ((execFuncReinitDone_status cols hc (by simp [hargs]) (st := 0) ?_).trans ?_)
      · rw [State.reinitStatus, hargs]
        exact if_pos hl
      · rw [hargs]
        rfl
    · refine (exec_funcReinitDone ..).trans ((execFuncReinitDone_status cols hc (by simp [hargs]) (st := 0xC) ?_).trans ?_)
      · rw [State.reinitStatus, hargs]
        exact (if_neg (by omega)).trans (if_pos hl)
      · rw [hargs]
        rfl
    · rw [exec_funcReinitDone, execFuncReinitDone, hc]
      dsimp only
      rw [hargs]
      refine if_neg fun h => ?_
      simp only [Bool.and_eq_true, decide_eq_true_eq, Bool.not_eq_true', Bool.and_eq_false_iff, decide_eq_false_iff_not] at h
      rcases hj with hj | ⟨h4, hd⟩
      · exact hj h.1
      · rcases h.2 with h | h
        · exact h h4
        · rw [hd] at h
          cases h
    · refine (exec_funcReinitDone ..).trans ((execFuncReinitDone_status cols hc (by simp [hargs]) (st := 0) ?_).trans ?_)
      · rw [State.reinitStatus, hargs]
        exact if_pos (by rw [hr]; rfl)
      · rw [hargs]
        rfl
  · refine ⟨_, by rw [exec_powerCycleTimeout, execPowerCycleTimeout, ha]; exact if_neg (by omega), ?_⟩
    rfl
  · have hx : exec .akReady s = _ := (exec_akReady s).trans (if_neg (by simp [h0, h1]))
    refine ⟨_, hx, ?_⟩
    obtain ⟨h1, h2, h3⟩ := State.quoteRead_foldl (s.pendingOf 0x206) (s.onBoot fun b => { b with akReady := true })
    exact ⟨h2, h1, h3⟩
  · intro d
    have hx' : (s.onBoot fun b => { b with signing := l }).session c.session = some x := hx
    have hex : exec .quoteSigned s = .next (((s.onBoot fun b => { b with signing := l }).onSession c.session fun x =>
        { x with quote := some d, nextQuote := d.id + 1 }).finishDoc c d) := by
      rw [exec_quoteSigned, execQuoteSigned, hsig]
      change (match s.hal.cmds.find? fun c => c.code == 0x206 && c.session * 2 ^ 32 + c.seq == k with
        | none => Host.Outcome.next (s.onBoot fun b => { b with signing := l })
        | some c => _) = _
      rw [hc]
      dsimp only
      rw [hx']
      rfl
    refine ⟨_, hex, ?_, _, rfl, fun y hy => ?_⟩
    · rw [State.finishDoc_halterOnly]
      rfl
    · rw [State.session_onSession _ (f := fun x => { x with quote := some d, nextQuote := d.id + 1 }) fun _ => rfl, hx'] at hy
      obtain rfl := Option.some.inj hy
      have hnum : x.num = c.session := by
        have := List.find?_some hx
        simpa using this
      dsimp only
      rw [if_pos hnum]
      exact ⟨rfl, rfl⟩
  · refine ⟨fun hi => ?_, fun hi hw => ?_, fun hi hw => ?_⟩
    · rw [exec_fwStageDone, execFwStageDone, hp]
      exact if_pos hi
    · rw [exec_fwStageDone, execFwStageDone, hp]
      dsimp only
      rw [if_neg (not_not.2 hi), if_pos (by rw [hw]; rfl)]
    · refine ⟨_, by rw [exec_fwStageDone, execFwStageDone, hp]; dsimp only; rw [if_neg (not_not.2 hi), if_neg (by rw [hw]; decide)], ?_⟩
      beta_reduce
      rw [State.finish_halterOnly]
      exact ⟨Flash.image_putImage .., Flash.image_putImage_staging ..⟩

end Sys2Proof.Machine
end

section
/-! The start (R41, R614, R688, R715, R755, R757, R768 to R781, R801 to R803, R846). -/

namespace Sys2Proof.Machine

/-! ### The rails -/

/-- The rails rise, the start is counted, and Groom hands its reports over. -/
theorem State.tryRamp_ramps {s : State} (h : (s.boot.stage = .checked && s.boot.rstN && s.boot.pwrgd && !s.boot.thermtrip &&
    s.boot.vaux) = true) : s.tryRamp.boot.stage = .ramped ∧ s.tryRamp.boot.rails = true ∧ s.tryRamp.boot.rampAt = s.now ∧
    s.tryRamp.flash = { s.flash with bootEpoch := (s.flash.bootEpoch + 1) % 256 } ∧ s.tryRamp.heat.groomLog = [] := by
  unfold State.tryRamp
  rw [if_pos h]
  exact ⟨rfl, rfl, rfl, rfl, rfl⟩

theorem State.tryRamp_stays {s : State} (h : (s.boot.stage = .checked && s.boot.rstN && s.boot.pwrgd && !s.boot.thermtrip &&
    s.boot.vaux) ≠ true) : s.tryRamp = s := if_neg h

/-- What an image says of itself, and the tiles, are as they were once the rails have risen. -/
theorem State.tryRamp_image (s : State) : s.tryRamp.boot.slot = s.boot.slot ∧ s.tryRamp.boot.svn = s.boot.svn ∧
    s.tryRamp.boot.build = s.boot.build ∧ s.tryRamp.tiles = s.tiles := by
  unfold State.tryRamp
  split
  · exact ⟨rfl, rfl, rfl, rfl⟩
  · exact ⟨rfl, rfl, rfl, rfl⟩

theorem State.tryRamp_stage {s : State} (h : s.boot.stage = .checked) : s.tryRamp.boot.stage =
    if s.boot.rstN && s.boot.pwrgd && !s.boot.thermtrip && s.boot.vaux then .ramped else .checked := by
  by_cases hc : (s.boot.rstN && s.boot.pwrgd && !s.boot.thermtrip && s.boot.vaux) = true
  · rw [if_pos hc]
    exact (State.tryRamp_ramps (by rw [h]; simpa using hc)).1
  · rw [if_neg hc, State.tryRamp_stays (by rw [h]; simpa using hc), h]

/-! ### A start -/

/-- A start from a strap: which slot it reads first, and what is sampled. -/
theorem State.startFrom_starts (s : State) (sel : BitVec 2) :
    (s.startFrom sel.toNat).boot.stage = (if sel = 3 then .boardTest else .reading (match s.flash.trial with
      | some r => r.1
      | none => if sel = 1 then 1 - s.flash.bootSlot else s.flash.bootSlot) false) ∧
    (s.startFrom sel.toNat).boot.cold = false ∧ (s.startFrom sel.toNat).boot.rstN = s.boot.rstN := by
  have h3 : sel = 3 ↔ sel.toNat = 3 := ⟨fun h => by rw [h]; rfl, fun h : sel.toNat = 3 => BitVec.eq_of_toNat_eq h⟩
  have h1 : sel = 1 ↔ sel.toNat = 1 := ⟨fun h => by rw [h]; rfl, fun h : sel.toNat = 1 => BitVec.eq_of_toNat_eq h⟩
  simp only [h3, h1]
  unfold State.startFrom
  extract_lets u v first
  have hv : v.boot.cold = false ∧ v.boot.rstN = s.boot.rstN ∧ v.flash = s.flash := by
    unfold v
    by_cases hc : u.boot.cold = true
    · rw [if_pos hc]
      exact ⟨rfl, rfl, rfl⟩
    · rw [if_neg hc]
      exact ⟨by simpa using hc, rfl, rfl⟩
  obtain ⟨hc, hr, hf⟩ := hv
  refine ⟨?_, hc, hr⟩
  unfold first
  rw [hf]
  rfl

/-- The state whose trial of slot `k` is given up. -/
def State.endTrial (s : State) (k : Nat) : State :=
  match s.flash.trial with
  | some t => if t.1 = k then { s with flash := { s.flash with trial := none } } else s
  | none => s

theorem State.endTrial_eq (s : State) (k : Nat) :
    s.endTrial k = { s with flash := { s.flash with trial := s.flash.trial.filter fun t => t.1 ≠ k } } := by
  unfold State.endTrial
  split
  · next t ht =>
    rw [ht, Option.filter_some]
    by_cases hk : t.1 = k
    · rw [if_pos hk, if_neg (by simpa using hk)]
    · rw [if_neg hk, if_pos (by simpa using hk), ← ht]
  · next ht =>
    rw [ht, Option.filter_none, ← ht]

/-- An image that fails its check: its cause is kept, its trial cleared, and the other slot is read, or the device stays
silent (R772, R801). -/
theorem execImageCheckDone_fails {s : State} {k : Nat} {second : Bool} (h : s.boot.stage = .reading k second)
    (hc : s.imageCause (s.flash.image k).bytes ≠ 0) :
    let causes := s.boot.failCauses ++ [(k, s.imageCause (s.flash.image k).bytes)]
    execImageCheckDone s = .next { s with
      flash := { s.flash with trial := s.flash.trial.filter fun t => t.1 ≠ k, causes := if second then causes else s.flash.causes }
      boot := { s.boot with failCauses := causes, stage := if second then .noImage else .reading (1 - k) true
                            fallback := if second then s.boot.fallback else true } } := by
  intro causes
  unfold execImageCheckDone
  rw [h]
  dsimp only
  rw [if_neg hc]
  change (if second = true then Host.Outcome.next (State.onBoot
      { (s.onBoot fun x => { x with failCauses := causes }).endTrial k with flash :=
        { ((s.onBoot fun x => { x with failCauses := causes }).endTrial k).flash with
          causes := ((s.onBoot fun x => { x with failCauses := causes }).endTrial k).boot.failCauses } }
      fun x => { x with stage := .noImage })
    else .next (State.onBoot ((s.onBoot fun x => { x with failCauses := causes }).endTrial k)
      fun x => { x with stage := .reading (1 - k) true, fallback := true })) = _
  rw [State.endTrial_eq]
  cases second <;> rfl

/-! ### READY -/

theorem State.trialReady_of_none {s : State} (h : s.flash.trial = none) : s.trialReady = s := by
  unfold State.trialReady
  rw [h]

/-- A trial in time becomes the boot slot, and the version below which no image starts may rise (R773, R801). -/
theorem State.trialReady_in_time {s : State} {c : Bool} (h : s.flash.trial = some (s.boot.slot, c))
    (ht : s.now ≤ s.boot.rampAt + 30000000000) : s.trialReady.flash.bootSlot = s.boot.slot ∧ s.trialReady.flash.trial = none ∧
    s.trialReady.flash.svnFloor = if c then max s.flash.svnFloor s.boot.svn else s.flash.svnFloor := by
  unfold State.trialReady
  rw [h]
  dsimp only
  rw [if_neg (by simp; omega)]
  by_cases hu : (c && decide (s.flash.svnFloor < s.boot.svn)) = true
  · obtain ⟨hc, hlt⟩ : c = true ∧ s.flash.svnFloor < s.boot.svn := by simpa using hu
    rw [if_pos hu, State.raiseHeld_halterOnly]
    dsimp only
    rw [if_pos hu, if_pos hc]
    exact ⟨rfl, rfl, by omega⟩
  · rw [if_neg hu]
    dsimp only
    rw [if_neg hu]
    refine ⟨rfl, rfl, ?_⟩
    by_cases hc : c = true
    · have hle : ¬ s.flash.svnFloor < s.boot.svn := by simpa [hc] using hu
      rw [if_pos hc]
      omega
    · rw [if_neg hc]

theorem State.trialReady_boot (s : State) : s.trialReady.boot = s.boot := by
  unfold State.trialReady
  split
  · split
    · rfl
    · extract_lets old up u
      split
      · rw [State.raiseHeld_halterOnly]
      · rfl
  · rfl

/-- From `s` to `t` flash and the start are as they were. -/
structure StartKept (s t : State) : Prop where
  flash : t.flash = s.flash
  boot : t.boot = s.boot

theorem StartKept.refl (s : State) : StartKept s s := ⟨rfl, rfl⟩

theorem StartKept.trans {s t u : State} (hst : StartKept s t) (htu : StartKept t u) : StartKept s u :=
  ⟨htu.flash.trans hst.flash, htu.boot.trans hst.boot⟩

theorem HalterOnly.startKept {s t : State} (h : HalterOnly s t) : StartKept s t := by
  rw [h]
  exact ⟨rfl, rfl⟩

/-- What is told at READY (R555, R689, R781, R802): the last part of `execReady`. -/
def State.tellReady (s : State) : State :=
  let s := (List.range 18).foldl (fun (s : State) p => s.onPort p fun x => { x with lldpDue := s.now }) s
  let b := s.boot
  let s := s.raiseHeld { code := 0x90, payload := [b.slot, b.svn, s.flash.svnFloor, b.readyMs, b.repairs] }
  let s := b.failCauses.foldl (fun (s : State) c => s.raiseHeld { code := 0x91, payload := [c.1, c.2] }) s
  let s := match s.flash.newLoss, s.flash.powerLoss.getLast? with
    | true, some r => s.raiseHeld { code := 0x93, payload := [r.time, r.a] ++ r.b }
    | _, _ => s
  match s.flash.newTrip, s.flash.trips.getLast? with
    | true, some r => s.raiseHeld { code := 0x68, payload := [r.time, r.a] ++ r.b }
    | _, _ => s

theorem State.onPort_startKept (s : State) (p : Nat) (f : Port → Port) : StartKept s (s.onPort p f) := ⟨rfl, rfl⟩

theorem State.tellReady_startKept (s : State) : StartKept s s.tellReady := by
  unfold State.tellReady
  extract_lets w b x y z
  have hw : StartKept s w := by
    unfold w
    refine foldl_related StartKept.refl StartKept.trans (fun t p => ?_) _ s
    exact t.onPort_startKept p _
  clear_value w
  have hx : StartKept w x := (State.raiseHeld_halterOnly ..).startKept
  have hy : StartKept x y := by
    unfold y
    exact foldl_related StartKept.refl StartKept.trans (fun t c => (State.raiseHeld_halterOnly ..).startKept) _ x
  clear_value x y
  have hz : StartKept y z := by
    unfold z
    split
    · exact (State.raiseHeld_halterOnly ..).startKept
    · exact .refl y
  have hall := ((hw.trans hx).trans hy).trans hz
  clear_value z
  split
  · exact hall.trans (State.raiseHeld_halterOnly ..).startKept
  · exact hall

theorem execReady_eq {s : State} (h : s.boot.stage = .trained) (hr : ∀ c ∈ s.hbm.chans, c.2.retiring = []) :
    exec .ready s = .next (let t := (s.onBoot fun b => { b with stage := .ready, readyMs := (s.now - b.rampAt) / 1000000 }).trialReady.tellReady
      { t with flash := { t.flash with newLoss := false, newTrip := false } }) := by
  rw [exec_ready]
  unfold execReady
  rw [if_neg]
  · rfl
  · simp [h]
    exact fun a b hm => by simpa using hr _ hm

/-! ### Training -/

/-- From `s` to `t` the rails are as they were. -/
def RailsKept (s t : State) : Prop := t.boot.rails = s.boot.rails

theorem RailsKept.refl (s : State) : RailsKept s s := rfl

theorem RailsKept.trans {s t u : State} (hst : RailsKept s t) (htu : RailsKept t u) : RailsKept s u := Eq.trans htu hst

theorem MemOnly.railsKept {s t : State} (h : MemOnly s t) : RailsKept s t := by
  rw [h.1]
  rfl

/-- Training builds the tile map from the retirement record. -/
theorem execHbmTrainingDone_trains {s : State} (h : s.boot.stage = .ramped) (full : List (ChanIx × Nat)) (cols : List (Fin 208 × Fin 130)) :
    Does (.hbmTrainingDone full cols) s fun t => t.boot.stage = .trained ∧ t.pkg = mapAtReset t.flash.slots :=
  ⟨_, (exec_hbmTrainingDone s full cols).trans (if_neg (by simp [h])), rfl, rfl⟩

/-- What training repairs leaves the rails as they are. -/
theorem execHbmTrainingDone_rails {s : State} (h : s.boot.stage = .ramped) : ∃ u, RailsKept s u ∧ exec (.hbmTrainingDone [] []) s =
    .next (State.onBoot { u with pkg := mapAtReset u.flash.slots } fun b => { b with stage := .trained }) := by
  rw [exec_hbmTrainingDone, execHbmTrainingDone, if_neg (by simp [h])]
  dsimp only [List.foldl_nil]
  refine ⟨_, ?_, rfl⟩
  refine foldl_related RailsKept.refl RailsKept.trans (fun t m =>
    foldl_related RailsKept.refl RailsKept.trans (fun u row => ?_) _ t) _ s
  split
  · exact RailsKept.trans (t := u.onChanRec m _) rfl (State.pageRetire_memOnly ..).railsKept
  · exact RailsKept.trans (t := (u.onChanRec m _).onChanRec m _) rfl (.trans (State.report_memOnly ..).railsKept rfl)

/-! ### The statement -/

/-- Settles O50: a clause each, from the equations of the start and of what raises the rails. -/
theorem startSequence : Obligations.StartSequence := by
  intro s
  refine ⟨fun hv => ?_, ⟨_, exec_vauxFall s, rfl, rfl, rfl, rfl, rfl, rfl⟩, fun sel => ?_, fun hv => ?_, exec_pwrgdRise s,
    fun hst hrst htrip hv => ?_, fun hr => ?_, fun hr => ?_, fun k second hst => ?_, fun hst => ?_, fun full cols hst => ?_,
    fun hst hret => ?_, fun hst hret => ?_, fun c htr hst hle => ?_⟩
  · exact ⟨_, (exec_vauxUp s).trans (if_neg (by simp [hv])), rfl, rfl, rfl, rfl, rfl, rfl, rfl⟩
  · intro first stage
    refine ⟨fun hst hc hr hn => ?_, fun hst hr hn => ?_, fun hst hr => ?_⟩
    · obtain ⟨h1, h2, h3⟩ := s.startFrom_starts sel
      exact ⟨_, (exec_bootSelSample s sel).trans (if_pos (by simp [hst, hc, hr, hn])), s.startFrom_bootSel _, h1, h2, s.startFrom_boot _⟩
    · have hx : exec (.rstNDeassert sel) s = .next ((s.onBoot fun b => { b with rstN := true }).startFrom sel.toNat) := by
        rw [exec_rstNDeassert, execRstNDeassert, if_neg (by rw [hr]; decide)]
        refine if_pos ?_
        change (decide (s.boot.stage = .waitSel) && !(s.boot.cold && decide (s.now < 400000))) = true
        rcases hn with hn | hn
        · simp [hst, hn]
        · simp [hst]
          omega
      obtain ⟨h1, -, h3⟩ := (s.onBoot fun b => { b with rstN := true }).startFrom_starts sel
      have hb := (s.onBoot fun b => { b with rstN := true }).startFrom_boot sel.toNat
      exact ⟨_, hx, State.startFrom_bootSel .., h1, h3, by rw [hb]; rfl⟩
    · rw [exec_rstNDeassert, execRstNDeassert, if_neg (by rw [hr]; decide)]
      refine if_neg ?_
      change (decide (s.boot.stage = .waitSel) && !(s.boot.cold && decide (s.now < 400000))) ≠ true
      simp [hst]
  · intro cool
    refine ⟨_, (exec_rstNAssert s).trans (if_neg (by rw [hv]; decide)), ?_⟩
    dsimp only
    split <;> exact ⟨rfl, rfl, rfl, rfl, rfl, rfl, rfl, rfl⟩
  · obtain ⟨h1, h2, h3, h4, h5⟩ := State.tryRamp_ramps (s := s.onBoot fun b => { b with pwrgd := true }) (by
      rw [show (s.onBoot fun b => { b with pwrgd := true }).boot = { s.boot with pwrgd := true } from rfl, hst, hrst, htrip, hv]
      rfl)
    exact ⟨_, exec_pwrgdRise s, h1, h2, h3, h4, h5⟩
  · have hx : exec .pwrgdFall s = .next (s.onBoot fun b => { b with pwrgd := false }).vinLost :=
      (exec_pwrgdFall s).trans (congrArg _ (if_pos hr))
    unfold State.vinLost at hx
    rw [State.tryRamp_stays] at hx
    · exact ⟨_, hx, rfl, rfl, rfl, rfl, rfl, rfl⟩
    · intro h
      simp [State.railsOff, State.onBoot, State.deviceReset, Boot.kept] at h
  · exact (exec_pwrgdFall s).trans (congrArg _ (if_neg (by rw [show (s.onBoot fun b => { b with pwrgd := false }).boot.rails = false from hr]; decide)))
  · intro b
    refine ⟨fun h0 => ?_, fun hne => ?_⟩
    · have hx : exec .imageCheckDone s = .next (s.onBoot fun x =>
          { x with stage := .checked, slot := k, svn := field b 4 4, build := field b 8 8 }).tryRamp := by
        rw [exec_imageCheckDone, execImageCheckDone, hst]
        exact if_pos h0
      obtain ⟨h1, h2, h3, h4⟩ := (s.onBoot fun x =>
          { x with stage := .checked, slot := k, svn := field b 4 4, build := field b 8 8 }).tryRamp_image
      have h5 := State.tryRamp_stage (s := s.onBoot fun x =>
          { x with stage := .checked, slot := k, svn := field b 4 4, build := field b 8 8 }) rfl
      exact ⟨_, hx, h1, h2, h3, h4, h5⟩
    · refine ⟨_, (exec_imageCheckDone s).trans (execImageCheckDone_fails hst hne), rfl, fun c hc => ?_, rfl, rfl, rfl⟩
      dsimp only
      rw [hc, Option.filter_some, if_neg (by simp)]
  · obtain ⟨u, hu, hx⟩ := execHbmTrainingDone_rails hst
    exact ⟨_, hx, rfl, rfl, hu⟩
  · exact execHbmTrainingDone_trains hst full cols
  · refine ⟨_, execReady_eq hst hret, ?_⟩
    have hk := State.tellReady_startKept (s.onBoot fun b => { b with stage := .ready, readyMs := (s.now - b.rampAt) / 1000000 }).trialReady
    have hb := State.trialReady_boot (s.onBoot fun b => { b with stage := .ready, readyMs := (s.now - b.rampAt) / 1000000 })
    dsimp only
    rw [hk.flash, hk.boot, hb]
    refine ⟨rfl, rfl, rfl, rfl, fun c htr hle => ?_, fun htr => ?_⟩
    · exact State.trialReady_in_time (s := s.onBoot fun b => { b with stage := .ready, readyMs := (s.now - b.rampAt) / 1000000 }) htr hle
    · rw [State.trialReady_of_none (by exact htr)]
      rfl
  · refine (exec_ready s).trans (if_pos ?_)
    obtain ⟨c, hc, hne⟩ := hret
    simp only [Bool.or_eq_true, List.any_eq_true]
    exact .inr ⟨c, hc, by simpa using hne⟩
  · have hx : exec .trialTimeout s = .next (State.onBoot (State.deviceReset { s with flash := { s.flash with trial := none } })
        fun b => { b with stage := .reading s.flash.bootSlot false, fallback := true, failCauses := [(s.boot.slot, 6)] }) := by
      rw [exec_trialTimeout, execTrialTimeout, htr]
      exact if_neg (by rcases hst with hst | hst <;> simp [hst] <;> omega)
    exact ⟨_, hx, rfl, rfl, rfl, rfl, rfl⟩

end Sys2Proof.Machine
end

section
/-! Write-back and the buddy (R443, R445, R448, R451 to R453). -/

namespace Sys2Proof.Machine

/-! ### What goes out of a window -/

/-- From `s` to `t` packets have gone out, and the same requests wait. -/
structure NumsKept (s t : State) : Prop where
  fab : FabOnly s t
  nums : t.fab.reqs.map (·.num) = s.fab.reqs.map (·.num)

theorem NumsKept.refl (s : State) : NumsKept s s := ⟨.refl s, rfl⟩

theorem NumsKept.trans {s t u : State} (hst : NumsKept s t) (htu : NumsKept t u) : NumsKept s u :=
  ⟨hst.fab.trans htu.fab, htu.nums.trans hst.nums⟩

theorem State.reqs_sendPkt (s : State) (p : Pkt) : (s.sendPkt p).fab.reqs = s.fab.reqs := by
  unfold State.sendPkt
  split
  · dsimp only
    rw [(State.sendOn_sendsOnly ..).fab]
    rfl
  · rfl

theorem State.transmit_numsKept (s : State) (r : Req) : NumsKept s (s.transmit r) := by
  refine ⟨s.transmit_fabOnly r, ?_⟩
  have hmap (f : Req → Req) (hf : ∀ q, (f q).num = q.num) (l : List Req) : (l.map f).map (·.num) = l.map (·.num) := by
    rw [List.map_map]
    exact List.map_congr_left fun q _ => hf q
  unfold State.transmit
  dsimp only
  split
  · split
    · exact hmap _ (fun q => by split <;> rfl) _
    · rw [State.reqs_sendPkt]
      exact hmap _ (fun q => by split <;> rfl) _
  · exact hmap _ (fun q => by split <;> rfl) _

theorem State.pump_numsKept (s : State) {d : Nat} (hd : d ≠ selfDev) : NumsKept s (s.pump d) := by
  unfold State.pump
  suffices h : ∀ (l : List Req) (x : State × Bool), (∀ r ∈ l, r.pkt.dst = d) → NumsKept s x.1 → NumsKept s
      (l.foldl (fun (x : State × Bool) r =>
        if x.2 then x
        else if r.routeHold then (x.1, true)
        else match r.hold with
          | some 0 => if x.1.outstanding d < 1024 then (x.1.emit r, false) else (x.1, true)
          | some _ => (x.1, true)
          | none => x) x).1 by
    refine h _ (s, false) (fun r hr => ?_) (.refl s)
    have := (List.mem_filter.1 hr).2
    simp only [Bool.and_eq_true, beq_iff_eq] at this
    exact this.1.1
  intro l
  induction l with
  | nil => exact fun x _ hx => hx
  | cons r l ih =>
    intro x hl hx
    refine ih _ (fun q hq => hl q (List.mem_cons_of_mem _ hq)) ?_
    have hemit : x.1.emit r = x.1.transmit r := if_neg (by rw [hl r List.mem_cons_self]; exact hd)
    beta_reduce
    split
    · exact hx
    · split
      · exact hx
      · split
        · split
          · rw [hemit]
            exact hx.trans (State.transmit_numsKept ..)
          · exact hx
        · exact hx
        · exact hx

theorem State.req_eq_none_iff (s : State) (num : Nat) : s.req num = none ↔ num ∉ s.fab.reqs.map (·.num) := by
  rw [State.req, List.find?_eq_none]
  simp only [beq_iff_eq, List.mem_map, not_exists, not_and]

/-! ### A request that has its response -/

theorem State.req_num {s : State} {num : Nat} {r : Req} (h : s.req num = some r) : r.num = num := by
  have := List.find?_some h
  simpa using this

/-- The state in which a request no longer waits. -/
def State.without (s : State) (num : Nat) : State := { s with fab := { s.fab with reqs := s.fab.reqs.filter (·.num ≠ num) } }

/-- A request that has its response, while nothing is owed and no command waits: the response's effect is all. -/
theorem State.reqDone_of_nil {s : State} {r : Req} {data : Bytes} {tier : Tier} (ho : s.fab.owed = []) (hc : s.hal.cmds = [])
    (he : (s.without r.num).reqEffect r 0 data = { s.without r.num with tier := tier }) :
    s.reqDone r 0 data = { s.without r.num with tier := tier } := by
  have hs : s.settle r 0 data = { s.without r.num with tier := tier } := by
    unfold State.settle
    dsimp only
    rw [show s.onFab (fun f => { f with reqs := f.reqs.filter (·.num ≠ r.num) }) = s.without r.num from rfl, he, if_neg]
    · unfold State.onFab State.without
      dsimp only
      rw [hc, ho, List.map_nil, List.map_nil]
      conv_rhs => rw [show s = { s with hal := { s.hal with cmds := s.hal.cmds }, fab := { s.fab with owed := s.fab.owed } } from rfl, hc, ho]
    · simp [State.without]
  exact (congrArg State.payOwed hs).trans (State.payOwed_of_nil (by exact ho) (by exact hc))

theorem State.req_without (s : State) (num : Nat) : (s.without num).req num = none := by
  rw [State.req_eq_none_iff]
  simp [State.without]

theorem State.flushed_of_nil {s : State} (hc : s.hal.cmds = []) (k : Nat) : s.flushed k = s := by
  unfold State.flushed State.pendingOf
  rw [hc]
  rfl

theorem State.granuleDone_of_nil {s : State} (hc : s.hal.cmds = []) (p g : Nat) : s.granuleDone p g = { s with
    tier := { s.tier with wbs := s.tier.wbs.filter (· ≠ (p, g)), wbGranules := satAdd 32 s.tier.wbGranules 1 } } :=
  State.flushed_of_nil (s := { s with
    tier := { s.tier with wbs := s.tier.wbs.filter (· ≠ (p, g)), wbGranules := satAdd 32 s.tier.wbGranules 1 } }) hc _

/-- A run of the last write of a granule is acknowledged. -/
theorem State.granuleWritten_last {s : State} {p g : Nat} (hw : s.tier.wbs.contains (p, g) = true)
    (hr : ∀ q ∈ s.fab.reqs, q.why ≠ .writeBack p g) (hm : s.moveOf p = none) (hc : s.hal.cmds = []) : s.granuleWritten p g = { s with
      tier := { s.tier with wbs := s.tier.wbs.filter (· ≠ (p, g)), wbGranules := satAdd 32 s.tier.wbGranules 1 } } := by
  have hany : (s.fab.reqs.any fun r => r.why == .writeBack p g) = false := by
    rw [List.any_eq_false]
    exact fun q hq => by simpa using hr q hq
  unfold State.granuleWritten
  rw [if_neg (by rw [hw, hany]; decide), State.granuleDone_of_nil hc]
  dsimp only
  rw [show State.moveOf { s with tier := { s.tier with wbs := s.tier.wbs.filter (· ≠ (p, g)), wbGranules := satAdd 32 s.tier.wbGranules 1 } } p = none
    from hm]

/-- A response of which only the tier tells: the request is gone, and its window goes on. -/
theorem State.req_complete {s : State} {num : Nat} {r : Req} {tier : Tier} (hr : s.req num = some r)
    (hd : r.pkt.dst ≠ selfDev) (hc : s.complete r 0 [] = { s.without r.num with tier := tier }) :
    ((s.complete r 0 []).pump r.pkt.dst).tier = tier ∧ ((s.complete r 0 []).pump r.pkt.dst).req num = none ∧
    ((s.complete r 0 []).pump r.pkt.dst).hbm = s.hbm := by
  rw [hc]
  obtain ⟨hf, hn⟩ := State.pump_numsKept { s.without r.num with tier := tier } hd
  generalize State.pump { s.without r.num with tier := tier } r.pkt.dst = t at hf hn
  refine ⟨by rw [hf], ?_, by rw [hf]; rfl⟩
  rw [State.req_eq_none_iff, hn, ← State.req_num hr]
  exact (State.req_eq_none_iff _ _).1 (s.req_without r.num)

/-! ### A granule that is written back -/

theorem State.sendBack_readsOnly (s : State) (p g r : Nat) : ReadsOnly s (s.sendBack p g r) := by
  unfold State.sendBack
  extract_lets e a q t
  have ht : ReadsOnly s t := (s.getSpan_readsOnly ..).trans (State.sendUnits_readsOnly ..)
  refine ht.trans (foldl_related ReadsOnly.refl ReadsOnly.trans (fun u i => ?_) _ t)
  exact ⟨⟨rfl, rfl, rfl⟩, rfl⟩

theorem State.flushed_halterOnly (s : State) (k : Nat) : HalterOnly s (s.flushed k) := by
  unfold State.flushed
  refine foldl_related HalterOnly.refl HalterOnly.trans (fun t c => ?_) _ s
  dsimp only
  split
  · exact State.finish_halterOnly ..
  · rfl

theorem State.granuleDone_tier (s : State) (p g : Nat) : (s.granuleDone p g).tier =
    { s.tier with wbs := s.tier.wbs.filter (· ≠ (p, g)), wbGranules := satAdd 32 s.tier.wbGranules 1 } := by
  unfold State.granuleDone
  rw [State.flushed_halterOnly]

/-- The state in which a granule begins to be written back. -/
def State.backing (s : State) (p g : Nat) : State :=
  { s with tier := { s.tier with dirty := Tbl.set 0 s.tier.dirty (32 * p + g) 0, wbs := s.tier.wbs.filter (· ≠ (p, g)) ++ [(p, g)] } }

/-- The runs of a granule that hold a unit to send. -/
def State.runsOf (s : State) (p g : Nat) : List Nat :=
  (List.range 32).filter fun r => s.runDirty (s.frameBase (s.page p).frame + 65536 * g + 2048 * r)

theorem State.writeBack_eq (s : State) (p g : Nat) : s.writeBack p g = if s.runsOf p g = [] then (s.backing p g).granuleDone p g
    else (s.runsOf p g).foldl (fun (s : State) r => s.sendBack p g r) (s.backing p g) := by
  have h : (s.backing p g).runsOf p g = s.runsOf p g := rfl
  rw [← h]
  unfold State.writeBack
  dsimp only
  split
  · next hr => exact (if_pos hr).symm
  · next hr => exact (if_neg hr).symm

theorem State.granDirty_backing (s : State) (p g : Nat) {t : State} (h : t.tier.dirty = (s.backing p g).tier.dirty) :
    t.granDirty p g = false := by
  rw [State.granDirty, h]
  simp [State.backing]

/-- A write-back of a granule with no run to send is over at once. -/
theorem State.writeBack_of_nil {s : State} {p g : Nat} (h : s.runsOf p g = []) : (s.writeBack p g).granDirty p g = false ∧
    (s.writeBack p g).tier.wbs = s.tier.wbs.filter (· ≠ (p, g)) ∧
    (s.writeBack p g).tier.wbGranules = satAdd 32 s.tier.wbGranules 1 := by
  have ht : (s.writeBack p g).tier = _ := (congrArg State.tier ((s.writeBack_eq p g).trans (if_pos h))).trans (State.granuleDone_tier ..)
  refine ⟨s.granDirty_backing p g (by rw [ht]), ?_, by rw [ht]; rfl⟩
  rw [ht]
  simp [State.backing]

/-- A write-back of a granule with runs to send waits for them. -/
theorem State.writeBack_of_ne_nil {s : State} {p g : Nat} (h : s.runsOf p g ≠ []) : (s.writeBack p g).granDirty p g = false ∧
    (s.writeBack p g).tier.wbs = s.tier.wbs.filter (· ≠ (p, g)) ++ [(p, g)] := by
  have hr : ReadsOnly (s.backing p g) (s.writeBack p g) := by
    rw [State.writeBack_eq, if_neg h]
    exact foldl_related ReadsOnly.refl ReadsOnly.trans (fun _ _ => State.sendBack_readsOnly ..) _ _
  exact ⟨s.granDirty_backing p g (by rw [hr.tier]), by rw [hr.tier]; rfl⟩

/-! ### A buddy that does not answer -/

/-- Whether a request writes to the buddy or re-seeds it. -/
def Req.toBuddy (r : Req) : Bool := match r.why with | .buddy _ => true | w => w.reseeds

theorem Req.toBuddy_of_buddy {r : Req} {p : Nat} (h : r.why = .buddy p) : r.toBuddy = true := by
  unfold Req.toBuddy
  rw [h]

theorem Req.of_toBuddy_false {r : Req} (h : r.toBuddy = false) : r.why.reseeds = false ∧ ∀ p, r.why ≠ .buddy p := by
  unfold Req.toBuddy at h
  split at h
  · cases h
  · next hne => exact ⟨h, fun p hp => hne p hp⟩

/-- Whether a request to the buddy has been out too long. -/
def Req.lateAt (r : Req) (now limit : Nat) : Bool := match r.why with
  | .buddy _ => r.born + limit ≤ now
  | w => w.reseeds && r.dead && r.born + limit ≤ now

theorem Req.lateAt_of {r : Req} {now limit : Nat} (h : (∃ p, r.why = .buddy p) ∨ (r.why.reseeds = true ∧ r.dead = true))
    (hb : r.born + limit ≤ now) : r.lateAt now limit = true := by
  unfold Req.lateAt
  split
  · exact decide_eq_true hb
  · next hne =>
    rcases h with ⟨p, hp⟩ | ⟨h1, h2⟩
    · exact absurd hp (hne p)
    · rw [h1, h2, decide_eq_true hb]
      rfl

/-! ### The statement -/

/-- Settles O26: a clause each, from the rules of a write-back and of a request that has its response. -/
theorem writeBack : Obligations.WriteBack := by
  refine ⟨fun s p g => ?_, fun s num p g r hr hw => ⟨?_, fun hc hq hm ho hcm hd => ?_⟩, fun s num p r hr hw hdead => ⟨?_, fun ho hcm hd => ?_⟩,
    fun s hst hlate => ?_, fun s src p off => ?_, fun s hst hre hreq => ?_⟩
  · intro e d runs hd hwb hb hh hst hage
    refine ⟨_, (exec_writebackAge s p g).trans (if_neg ?_), rfl, ?_⟩
    · have hd : Tbl.get 0 s.tier.dirty (32 * p.toNat + g.val) ≠ 0 := hd
      have hb : (s.page p.toNat).buddy = false := hb
      have hh : (s.page p.toNat).home ≠ 0 := hh
      have hage : ¬ s.now + 1 < Tbl.get 0 s.tier.dirty (32 * p.toNat + g.val) + 1000000 * s.tier.wbMs := Nat.not_lt.2 hage
      have hst : (s.page p.toNat).st = 2 ∨ (s.page p.toNat).st = 4 := hst
      simp only [hd, hwb, hb, hh, hage, decide_false, Bool.false_or, Bool.or_false, Bool.and_eq_true, decide_eq_true_eq]
      omega
    · by_cases hrs : runs = []
      · obtain ⟨h1, h2, h3⟩ := State.writeBack_of_nil (s := s) (p := p.toNat) (g := g.val) hrs
        exact ⟨h1, fun h => absurd hrs h, fun _ => ⟨h2, h3⟩⟩
      · obtain ⟨h1, h2⟩ := State.writeBack_of_ne_nil (s := s) (p := p.toNat) (g := g.val) hrs
        exact ⟨h1, fun _ => h2, fun h => absurd h hrs⟩
  · rw [exec_writebackAck, execWritebackAck, hr]
    dsimp only
    rw [hw]
  · have hx : exec (.writebackAck num) s = .next ((s.complete r 0 []).pump r.pkt.dst) := by
      rw [exec_writebackAck, execWritebackAck, hr]
      dsimp only
      rw [hw]
    have hcomp : s.complete r 0 [] = { s.without r.num with
        tier := { s.tier with wbs := s.tier.wbs.filter (· ≠ (p, g)), wbGranules := satAdd 32 s.tier.wbGranules 1 } } := by
      unfold State.complete
      rw [hw]
      refine State.reqDone_of_nil ho hcm ?_
      unfold State.reqEffect
      rw [hw]
      refine State.granuleWritten_last hc (fun q hm => ?_) hm hcm
      obtain ⟨hmem, hne⟩ := List.mem_filter.1 hm
      exact hq q hmem (by rw [State.req_num hr] at hne; simpa using hne)
    exact ⟨_, hx, State.req_complete hr hd hcomp⟩
  · rw [exec_buddyForwardAck, execBuddyForwardAck, hr]
    dsimp only
    rw [hw]
    exact if_neg (by rw [hdead]; decide)
  · have hx : exec (.buddyForwardAck num) s = .next ((s.complete r 0 []).pump r.pkt.dst) := by
      rw [exec_buddyForwardAck, execBuddyForwardAck, hr]
      dsimp only
      rw [hw]
      exact if_neg (by rw [hdead]; decide)
    have hcomp : s.complete r 0 [] = { s.without r.num with tier := s.tier } := by
      unfold State.complete
      rw [hw]
      refine State.reqDone_of_nil ho hcm ?_
      unfold State.reqEffect
      rw [hw]
      rfl
    obtain ⟨h1, h2, h3⟩ := State.req_complete hr hd hcomp
    exact ⟨_, hx, h2, h1, h3⟩
  · refine ⟨_, (exec_buddyTimeout s).trans (if_neg ?_), _, rfl, rfl, fun r hr => ?_, fun r hr p hw o ho => ?_⟩
    · obtain ⟨r, hr, hw, hb⟩ := hlate
      have hany : (s.fab.reqs.any fun r => r.lateAt s.now (1000000 * s.tier.buddyTimeout)) = true :=
        List.any_eq_true.2 ⟨r, hr, Req.lateAt_of hw hb⟩
      change ¬ (!(decide (s.tier.buddySt = 1) || decide (s.tier.buddySt = 3)) ||
        !(s.fab.reqs.any fun r => r.lateAt s.now (1000000 * s.tier.buddyTimeout))) = true
      rw [hany]
      rcases hst with hst | hst <;> simp [hst]
    · obtain ⟨q, hq, rfl⟩ := List.mem_map.1 (show r ∈ List.map (fun r : Req => if r.toBuddy then { r with why := .nobody } else r) _ from hr)
      by_cases hm : q.toBuddy = true
      · rw [if_pos hm]
        exact ⟨rfl, fun p => by simp⟩
      · rw [if_neg hm]
        exact Req.of_toBuddy_false (by simpa using hm)
    · obtain ⟨q, hq, rfl⟩ := List.mem_map.1 ho
      dsimp only
      intro hmem
      have hin : r.num ∈ (s.fab.reqs.filter Req.toBuddy).map (·.num) :=
        List.mem_map_of_mem (List.mem_filter.2 ⟨hr, Req.toBuddy_of_buddy hw⟩)
      have hno := (List.mem_filter.1 hmem).2
      exact Bool.false_ne_true ((congrArg not (List.contains_iff_mem.2 hin)).symm.trans hno)
  · intro own hw hown huniq
    rw [exec_buddyPoison, execBuddyPoison]
    have hiff (e : Nat × Page) (he : e ∈ s.tier.pages) : (e.2.buddy && decide (2 ≤ e.2.st) && addrDev e.2.home == src &&
        decide (addrOff e.2.home ≤ off.toNat) && decide (off.toNat < addrOff e.2.home + 2 ^ 21)) = true ↔ own e.1 := by
      have hg : s.page e.1 = e.2 := (Tbl.get_of_mem hw he).2
      unfold own
      rw [hg]
      simp [and_assoc]
    cases hf : s.tier.pages.find? fun e => e.2.buddy && decide (2 ≤ e.2.st) && addrDev e.2.home == src &&
        decide (addrOff e.2.home ≤ off.toNat) && decide (off.toNat < addrOff e.2.home + 2 ^ 21) with
    | none =>
      have hne : s.page p ≠ {} := fun h => by
        have := hown.1
        rw [h] at this
        cases this
      exact absurd ((hiff _ (Tbl.mem_of_get_ne hne)).2 hown) (by simpa using List.find?_eq_none.1 hf _ (Tbl.mem_of_get_ne hne))
    | some e =>
      have hm := List.mem_of_find?_eq_some hf
      have hs := List.find?_some hf
      have hp : e.1 = p := huniq _ ((hiff e hm).1 hs)
      have hg : s.page e.1 = e.2 := (Tbl.get_of_mem hw hm).2
      rw [← hp, hg]
  · have hbusy : (s.fab.reqs.any fun (r : Req) => r.why.reseeds) = false := by
      rw [List.any_eq_false]
      exact fun r hr => by rw [hreq r hr]; decide
    refine (exec_reseedDone s).trans (if_neg ?_)
    rw [hbusy]
    simp [hst]
    omega

end Sys2Proof.Machine
end

section
/-! Promotion and eviction of pages (R432 to R435, R437 to R439, R441, R613). -/

namespace Sys2Proof.Machine

/-! ### The end of an epoch -/

/-- A table whose entries are halved, those that come to 0 dropped. -/
theorem Tbl.get_halved {lo : Nat} {t : Tbl Nat} (h : Tbl.wfFrom 0 lo t = true) (p : Nat) :
    Tbl.get 0 ((t.map fun e => (e.1, e.2 / 2)).filter fun e => e.2 ≠ 0) p = Tbl.get 0 t p / 2 := by
  induction t generalizing lo with
  | nil => exact (Nat.zero_div 2).symm
  | cons e t ih =>
    obtain ⟨k, v⟩ := e
    simp only [Tbl.wfFrom, Bool.and_eq_true, decide_eq_true_eq] at h
    obtain ⟨-, ht⟩ := h
    rw [List.map_cons, List.filter_cons]
    by_cases hk : k = p
    · have hget : Tbl.get 0 ((k, v) :: t) p = v := if_pos hk
      have hrest : Tbl.get 0 t p = 0 := Tbl.get_of_lt ht (by omega)
      rw [hget]
      split
      · exact if_pos hk
      · next hv =>
        rw [ih ht, hrest]
        have hv : v / 2 = 0 := by simpa using hv
        omega
    · have hget : Tbl.get 0 ((k, v) :: t) p = Tbl.get 0 t p := if_neg hk
      rw [hget, ← ih ht]
      split
      · exact if_neg hk
      · rfl

/-! ### What is asked of a home -/

/-- Requests draw no free values. -/
theorem State.sendReq_freeIx (s : State) (dst op addr : Nat) (data : Bytes) (key aux flags aux2 : Nat) (why : Purpose) :
    (s.sendReq dst op addr data key aux flags aux2 why).freeIx = s.freeIx := by
  have hon (u : State) (p cls len : Nat) (x : Sent) : (u.sendOn p cls len x).freeIx = u.freeIx := by
    unfold State.sendOn
    split_ifs <;> rfl
  have hpkt (u : State) (p : Pkt) : (u.sendPkt p).freeIx = u.freeIx := by
    unfold State.sendPkt
    split
    · exact hon ..
    · rfl
  have htr (u : State) (r : Req) : (u.transmit r).freeIx = u.freeIx := by
    unfold State.transmit
    dsimp only
    split
    · split
      · rfl
      · exact hpkt ..
    · rfl
  unfold State.sendReq
  extract_lets p num st pkt blocked route r s1
  have h1 : s1.freeIx = s.freeIx := by
    unfold s1
    split <;> rfl
  clear_value s1 r blocked route
  split
  · exact h1
  · exact (htr ..).trans h1

/-- From `s` to `t` a home has been asked for what a page holds. -/
structure Asked (s t : State) : Prop where
  fab : FabOnly s t
  freeIx : t.freeIx = s.freeIx

theorem Asked.refl (s : State) : Asked s s := ⟨.refl s, rfl⟩

theorem Asked.trans {s t u : State} (hst : Asked s t) (htu : Asked t u) : Asked s u :=
  ⟨hst.fab.trans htu.fab, htu.freeIx.trans hst.freeIx⟩

theorem State.askGranule_asked (s : State) (p g : Nat) : Asked s (s.askGranule p g) :=
  foldl_related Asked.refl Asked.trans (fun _ _ => ⟨State.sendReq_fabOnly .., State.sendReq_freeIx ..⟩) _ s

/-! ### What waits for a granule -/

/-- From `s` to `t` memory has been written: the pages, which of them move, and the home's queue are as they were. -/
structure FillKept (s t : State) : Prop where
  pages : t.tier.pages = s.tier.pages
  moves : t.tier.moves.map (·.page) = s.tier.moves.map (·.page)
  promoted : t.tier.promoted = s.tier.promoted
  queue : t.fab.queue = s.fab.queue

theorem FillKept.refl (s : State) : FillKept s s := ⟨rfl, rfl, rfl, rfl⟩

theorem FillKept.trans {s t u : State} (hst : FillKept s t) (htu : FillKept t u) : FillKept s u :=
  ⟨htu.pages.trans hst.pages, htu.moves.trans hst.moves, htu.promoted.trans hst.promoted, htu.queue.trans hst.queue⟩

theorem CellOnly.fillKept {s t : State} (h : CellOnly s t) : FillKept s t := by
  refine ⟨?_, ?_, ?_, h.queue⟩ <;> rw [h.mem.1]

theorem FabCalm.fillKept {s t : State} (h : FabCalm s t) : FillKept s t := by
  refine ⟨?_, ?_, ?_, congrArg Prod.snd h.2⟩ <;> rw [h.1]

theorem State.mendUnit_fillKept (s : State) (a b : Nat) : FillKept s (s.mendUnit a b) := by
  unfold State.mendUnit
  extract_lets u bad
  have hu : FillKept s u := ((s.decodeAt_cellOnly a 64).trans (State.decodeAt_cellOnly ..)).fillKept
  clear_value u
  split
  · exact hu.trans (State.putHbm_cellOnly ..).fillKept
  · exact hu

theorem State.touch_fillKept (s : State) (p n : Nat) : FillKept s (s.touch p n) := by
  have h1 : FillKept s (s.readEntry p) := by
    unfold State.readEntry
    dsimp only
    split
    · exact .refl s
    · exact (s.mendUnit_fillKept ..).trans (State.mendUnit_fillKept ..)
  refine h1.trans ?_
  unfold State.touch State.warm State.heatEntry
  dsimp only
  split_ifs <;> exact ⟨rfl, rfl, rfl, rfl⟩

theorem State.sendRun_fillKept (s : State) (addr : Nat) (b : Bytes) (lim key fmt flags aux2 : Nat) (pois : Bool) (why : Purpose) :
    FillKept s (s.sendRun addr b lim key fmt flags aux2 pois why) :=
  foldl_related FillKept.refl FillKept.trans (fun _ _ => (State.sendReq_fabCalm ..).fillKept) _ s

theorem State.putSpan_fillKept (s : State) (sp : Nat) (b : Bytes) (fmt : Nat) (pois : Bool) : FillKept s (s.putSpan sp b fmt pois) := by
  unfold State.putSpan
  extract_lets u
  have hu : FillKept s u := by
    unfold u
    split
    · exact s.touch_fillKept ..
    · exact .refl s
  clear_value u
  refine hu.trans ?_
  split
  · next a _ =>
    have hv : FillKept u ((unitCut b.length a b).foldl (fun s p => s.putHbm p.1 p.2 fmt pois (p.1 == a)) u) :=
      foldl_related FillKept.refl FillKept.trans (fun _ _ => (State.putHbm_cellOnly ..).fillKept) _ u
    generalize (unitCut b.length a b).foldl (fun s p => s.putHbm p.1 p.2 fmt pois (p.1 == a)) u = v at hv
    dsimp only
    refine hv.trans ?_
    split
    · have hw : FillKept v (v.markDirty (pageOf sp) (granOf sp)) := ⟨rfl, rfl, rfl, rfl⟩
      split
      · exact hw.trans (State.sendRun_fillKept ..)
      · exact hw
    · exact .refl v
  · exact ⟨rfl, rfl, rfl, rfl⟩
  · exact ⟨rfl, rfl, rfl, rfl⟩
  · next p home key _ =>
    extract_lets v e
    have hv : FillKept u v := State.sendRun_fillKept ..
    split
    · exact hv.trans (State.sendRun_fillKept ..)
    · exact hv
  · next p _ =>
    refine ⟨rfl, ?_, rfl, rfl⟩
    dsimp only
    rw [List.map_map]
    exact List.map_congr_left fun m _ => by dsimp only [Function.comp]; split <;> rfl
  · exact .refl u
  · exact .refl u

/-- Where nothing waits at the home, what is held for a granule is written, and that is all. -/
theorem State.applyHeld_fillKept {s : State} (h : s.fab.queue = []) (p : Nat) (ok : Nat → Bool) (ws : List MoveUnit) :
    FillKept s (s.applyHeld p ok ws) := by
  have hserve (k : Nat) (t : State) (ht : t.fab.queue = []) : State.serveHeld p k ok t.fab.queue.length t = t := by
    rw [ht]
    rfl
  unfold State.applyHeld
  extract_lets u
  have hu : FillKept s u := by
    unfold u
    generalize ws.zipIdx = l
    suffices hl : ∀ t : State, FillKept s t → FillKept s (l.foldl (fun (s : State) w =>
        if ok (granOf w.1.1) then
          (State.serveHeld p w.2 ok s.fab.queue.length s).putSpan w.1.1 w.1.2.1 w.1.2.2.2 w.1.2.2.1
        else s) t) from hl s (.refl s)
    induction l with
    | nil => exact fun t ht => ht
    | cons w l ih =>
      intro t ht
      refine ih _ ?_
      beta_reduce
      split
      · rw [hserve _ t (ht.queue.trans h)]
        exact ht.trans (State.putSpan_fillKept ..)
      · exact ht
  rw [hserve _ u (hu.queue.trans h)]
  exact hu

theorem FillKept.page {s t : State} (h : FillKept s t) (q : Nat) : t.page q = s.page q := by
  rw [State.page, h.pages]
  rfl

theorem State.moveOf_eq_none_iff (s : State) (p : Nat) : s.moveOf p = none ↔ p ∉ s.tier.moves.map (·.page) := by
  rw [State.moveOf, List.find?_eq_none]
  simp only [beq_iff_eq, List.mem_map, not_exists, not_and]

theorem FillKept.moveOf {s t : State} (h : FillKept s t) {p : Nat} (hm : s.moveOf p = none) : t.moveOf p = none := by
  rw [State.moveOf_eq_none_iff, h.moves, ← State.moveOf_eq_none_iff]
  exact hm

/-! ### A page that leaves its frame -/

theorem State.moveOf_dropMove (s : State) (p : Nat) : (s.dropMove p).moveOf p = none := by
  rw [State.moveOf_eq_none_iff]
  simp [State.dropMove]

theorem HalterOnly.page {s t : State} (h : HalterOnly s t) (q : Nat) : t.page q = s.page q := by
  rw [State.page, h]
  rfl

theorem HalterOnly.moveOf {s t : State} (h : HalterOnly s t) (q : Nat) : t.moveOf q = s.moveOf q := by
  rw [State.moveOf, h]
  rfl

/-- Heat's order leaves the pages and the moves. -/
theorem State.heatEntry_tier (s : State) (p : Nat) :
    (s.heatEntry p).tier = { s.tier with heat := (s.heatEntry p).tier.heat, heatOrder := (s.heatEntry p).tier.heatOrder } ∧
    (s.heatEntry p).fab = s.fab := by
  unfold State.heatEntry
  dsimp only
  split <;> exact ⟨rfl, rfl⟩

theorem State.onPage_accessKept (s : State) (p : Nat) (f : Page → Page) : AccessKept s (s.onPage p f) := by
  unfold State.onPage
  dsimp only
  split
  · exact ⟨rfl, rfl, rfl⟩
  · exact AccessKept.trans (t := { s with tier := { s.tier with pages := Tbl.upd {} s.tier.pages p f } }) ⟨rfl, rfl, rfl⟩
      ((State.putHbm_memOnly ..).trans (State.putHbm_memOnly ..)).accessKept

theorem State.queue_onPage (s : State) (p : Nat) (f : Page → Page) : (s.onPage p f).fab.queue = s.fab.queue := by
  unfold State.onPage
  dsimp only
  split
  · rfl
  · exact ((State.putHbm_cellOnly ..).trans (State.putHbm_cellOnly ..)).queue

theorem AccessKept.now {s t : State} (h : AccessKept s t) : t.now = s.now := by
  rw [State.now, h.time]
  rfl

theorem State.page_of_pages_self {s t : State} {p : Nat} {f : Page → Page} (h : t.tier.pages = Tbl.upd {} s.tier.pages p f) :
    t.page p = f (s.page p) := by
  rw [State.page, h]
  exact Tbl.get_upd_self s.tier.pages p f

theorem State.page_of_pages_ne {s t : State} {p q : Nat} {f : Page → Page} (h : t.tier.pages = Tbl.upd {} s.tier.pages p f)
    (hq : q ≠ p) : t.page q = s.page q := by
  rw [State.page, h]
  exact Tbl.get_upd_ne hq s.tier.pages f

/-- A page without a frame: at its home, or nowhere. -/
def Page.out (e : Page) : Page := { e with st := if e.home = 0 then 0 else 1, frame := 0 }

theorem State.leaveFrame_tier (s : State) (p : Nat) : (s.leaveFrame p).tier.pages = Tbl.upd {} s.tier.pages p Page.out ∧
    (s.leaveFrame p).moveOf p = none ∧ (s.leaveFrame p).tier.promoted = s.tier.promoted ∧
    (s.leaveFrame p).tier.evicted = s.tier.evicted := by
  unfold State.leaveFrame
  extract_lets u
  have hu : u.tier.pages = Tbl.upd {} s.tier.pages p Page.out ∧ u.moveOf p = none ∧ u.tier.promoted = s.tier.promoted ∧
      u.tier.evicted = s.tier.evicted := by
    refine ⟨?_, State.moveOf_dropMove .., ?_, ?_⟩
    · exact congrArg Tier.pages (s.onPage_tier p Page.out)
    · have := congrArg Tier.promoted (s.onPage_tier p Page.out)
      exact this
    · have := congrArg Tier.evicted (s.onPage_tier p Page.out)
      exact this
  clear_value u
  obtain ⟨h1, h2, h3, h4⟩ := hu
  have ht := (State.heatEntry_tier { u with tier := { u.tier with dirty := Tbl.clear u.tier.dirty (32 * p) (32 * p + 32) } } p).1
  refine ⟨by rw [ht]; exact h1, ?_, by rw [ht]; exact h3, by rw [ht]; exact h4⟩
  rw [State.moveOf, ht]
  exact h2

theorem State.page_leaveFrame_self (s : State) (p : Nat) : (s.leaveFrame p).page p = (s.page p).out :=
  State.page_of_pages_self (s.leaveFrame_tier p).1

theorem State.page_leaveFrame_ne {p q : Nat} (h : q ≠ p) (s : State) : (s.leaveFrame p).page q = s.page q :=
  State.page_of_pages_ne (s.leaveFrame_tier p).1 h

/-- A promotion that is abandoned: nobody waits for its granules, the page leaves its frame, and what was held applies. -/
theorem State.abandonFill_leaves {s : State} {p : Nat} {m : Move} (hm : s.moveOf p = some m) (hq : s.fab.queue = []) :
    ∃ u : State, u.tier = s.tier ∧ FillKept (u.leaveFrame p) (s.abandonFill p) := by
  have hqueue (u : State) : (u.leaveFrame p).fab.queue = u.fab.queue := by
    unfold State.leaveFrame
    dsimp only
    rw [(State.heatEntry_tier ..).2]
    exact u.queue_onPage p Page.out
  unfold State.abandonFill
  rw [hm]
  dsimp only
  generalize hu : State.onFab s _ = u
  refine ⟨u, by rw [← hu]; rfl, State.applyHeld_fillKept ?_ ..⟩
  rw [hqueue, ← hu]
  exact hq

/-! ### A promotion -/

/-- A promotion begins: the page has its frame, and its first granule is asked for. -/
theorem State.startPromote_fills (s : State) (p i : Nat) :
    (s.startPromote p i).page p = { s.page p with st := 3, frame := i } ∧
    (∀ q, q ≠ p → (s.startPromote p i).page q = s.page q) ∧
    (s.startPromote p i).tier.moves = s.tier.moves ++ [{ page := p, began := s.now }] ∧
    (s.hbm.flips = [] → s.startPromote p i = { s with
      tier := (s.startPromote p i).tier, hbm := (s.startPromote p i).hbm, fab := (s.startPromote p i).fab
      ports := (s.startPromote p i).ports, txWait := (s.startPromote p i).txWait, sent := (s.startPromote p i).sent
      obs := (s.startPromote p i).obs }) := by
  unfold State.startPromote
  dsimp only
  have ht := s.onPage_tier p fun e => { e with st := 3, frame := i }
  have hs := fun hf => (State.onPage_of_sound (s := s) hf p fun e => { e with st := 3, frame := i }).1
  have hnow : (s.onPage p fun e => { e with st := 3, frame := i }).now = s.now := (s.onPage_accessKept p _).now
  generalize s.onPage p (fun e => { e with st := 3, frame := i }) = u at ht hs hnow
  have ha := (u.onTier fun x => { x with moves := x.moves ++ [{ page := p, began := u.now }] }).askGranule_asked p 0
  generalize State.askGranule _ p 0 = t at ha
  have htt : t.tier = { s.tier with pages := Tbl.upd {} s.tier.pages p fun e => { e with st := 3, frame := i }
                                    moves := s.tier.moves ++ [{ page := p, began := s.now }] } := by
    rw [ha.fab]
    unfold State.onTier
    dsimp only
    rw [ht, hnow]
  have hp : t.tier.pages = Tbl.upd {} s.tier.pages p fun e => { e with st := 3, frame := i } := by rw [htt]
  refine ⟨State.page_of_pages_self hp, fun q hq => State.page_of_pages_ne hp hq, by rw [htt], fun hf => ?_⟩
  have hfr := ha.freeIx
  have hfab := ha.fab
  rw [FabOnly] at hfab
  rw [hfab, hfr]
  unfold State.onTier
  dsimp only
  rw [hs hf]

/-! ### An eviction -/

theorem State.startEvict_clean {s : State} {v : Nat} (hd : s.dirtyGrans v = []) (next : Option Nat) :
    (s.startEvict v next).page v = { s.page v with st := 4 } ∧ (∀ q, q ≠ v → (s.startEvict v next).page q = s.page q) ∧
    (s.startEvict v next).tier.moves = s.tier.moves ++ [{ page := v, evict := true, began := s.now, next := next }] ∧
    (s.hbm.flips = [] → s.startEvict v next = { s with
      tier := (s.startEvict v next).tier, hbm := (s.startEvict v next).hbm, obs := (s.startEvict v next).obs }) := by
  have ht := s.onPage_tier v fun e => { e with st := 4 }
  have hs := fun hf => (State.onPage_of_sound (s := s) hf v fun e => { e with st := 4 }).1
  have hnow : (s.onPage v fun e => { e with st := 4 }).now = s.now := (s.onPage_accessKept v _).now
  unfold State.startEvict
  dsimp only
  generalize s.onPage v (fun e => { e with st := 4 }) = u at ht hs hnow
  generalize hw : ({ u with tier := { u.tier with moves := u.tier.moves ++
    [{ page := v, evict := true, began := u.now, next := next, forced := false }] } } : State) = w
  have hwt : w.tier = { s.tier with pages := Tbl.upd {} s.tier.pages v fun e => { e with st := 4 }
                                    moves := s.tier.moves ++ [{ page := v, evict := true, began := s.now, next := next }] } := by
    rw [← hw]
    dsimp only
    rw [ht, hnow]
  have hpass : w.evictPass v = w := by
    have hdw : w.dirtyGrans v = [] := by
      rw [← hd]
      unfold State.dirtyGrans State.granDirty
      rw [hwt]
    unfold State.evictPass
    dsimp only
    rw [hdw]
    rfl
  rw [hpass]
  have hp : w.tier.pages = Tbl.upd {} s.tier.pages v fun e => { e with st := 4 } := by rw [hwt]
  refine ⟨State.page_of_pages_self hp, fun q hq => State.page_of_pages_ne hp hq, by rw [hwt], fun hf => ?_⟩
  rw [← hw]
  dsimp only
  rw [hs hf]

theorem State.moveOf_keepPage (s : State) (p : Nat) : (s.keepPage p).moveOf p = none := by
  unfold State.keepPage
  extract_lets next u
  have hu : u.moveOf p = none := (State.tierDone_halterOnly ..).moveOf _ |>.trans (State.moveOf_dropMove ..)
  clear_value next u
  split
  · rw [(State.tierDone_halterOnly ..).moveOf, hu]
  · exact hu

/-! ### The statement -/

/-- Settles O25: a clause each, from the rules of a page that takes or leaves a frame. -/
theorem pageMoves : Obligations.PageMoves := by
  refine ⟨⟨fun s hw ht => ?_, fun s p i l hn has hp hi hsh hlt => ?_, fun s p m hm he hst => ⟨fun hb hf hask => ?_, fun hf => ?_⟩⟩,
    fun s p v hn1 hn2 has hp hv hi hsh hlt => ?_, fun s p m hm he => ⟨fun hst hd hwr => ?_, fun h => ?_⟩⟩
  · exact ⟨_, (exec_heatEpoch s).trans (if_neg (by omega)), rfl, fun p => Tbl.get_halved hw p⟩
  · have hx : exec .promote s = .next (s.startPromote p i) := by
      rw [exec_promote, execPromote, hn]
      dsimp only
      rw [if_neg (by rw [has]; decide), hp]
      dsimp only
      rw [hi]
      exact if_pos (by simp [State.mayMigrate, hsh, hlt])
    exact ⟨_, hx, rfl, s.startPromote_fills p i⟩
  · intro s1 s2
    have hx : exec (.promoteGranule p) s = if m.arrived + 1 < 32 then .next (s2.askGranule p.toNat (m.arrived + 1)) else
        .next ((((s2.onPage p.toNat fun e => { e with st := 2 }).dropMove p.toNat).onTier fun x =>
          { x with promoted := satAdd 32 x.promoted 1 }).tierDone p.toNat false 0) := by
      rw [exec_promoteGranule, execPromoteGranule]
      dsimp only
      rw [hm]
      exact if_neg (by simp [he, hb, hf, hst, hask])
    refine ⟨fun h => hx.trans (if_pos (by omega)), fun h => hx.trans (if_neg (by omega)), fun h hq =>
      ⟨_, hx.trans (if_neg (by omega)), ?_⟩⟩
    have hk : FillKept s1 s2 := State.applyHeld_fillKept (s := s1) hq ..
    clear_value s2
    have ht := s2.onPage_tier p.toNat fun e => { e with st := 2 }
    generalize s2.onPage p.toNat (fun e => { e with st := 2 }) = u at ht
    have hd := State.moveOf_dropMove u p.toNat
    have hdt := ((u.dropMove p.toNat).onTier fun x => { x with promoted := satAdd 32 x.promoted 1 }).tierDone_halterOnly p.toNat false 0
    generalize State.tierDone _ p.toNat false 0 = t at hdt
    have hpages : t.tier.pages = Tbl.upd {} s.tier.pages p.toNat fun e => { e with st := 2 } := by
      rw [hdt]
      exact (congrArg Tier.pages ht).trans (by dsimp only; rw [hk.pages]; rfl)
    refine ⟨State.page_of_pages_self hpages, ?_, ?_, fun q hq => State.page_of_pages_ne hpages hq⟩
    · rw [hdt.moveOf]
      exact hd
    · rw [hdt]
      exact congrArg (satAdd 32 · 1) ((congrArg Tier.promoted ht).trans hk.promoted)
  · have hx : exec (.promoteAbandon p) s = .next ((s.abandonFill p.toNat).tierDone p.toNat false 0xC) := by
      rw [exec_promoteAbandon, execPromoteAbandon]
      rw [hm]
      refine if_neg ?_
      rcases hf with hf | hf
      · simp [he, hst, hf]
      · simp [he, hst]
        omega
    refine ⟨hx, fun hq => ⟨_, hx, ?_⟩⟩
    have hdt := (s.abandonFill p.toNat).tierDone_halterOnly p.toNat false 0xC
    generalize State.tierDone _ p.toNat false 0xC = t at hdt
    obtain ⟨u, hu, hk⟩ := State.abandonFill_leaves hm hq
    obtain ⟨h1, h2, h3, -⟩ := u.leaveFrame_tier p.toNat
    have hpages : t.tier.pages = Tbl.upd {} s.tier.pages p.toNat Page.out := by
      rw [hdt]
      dsimp only
      rw [hk.pages, h1, hu]
    refine ⟨State.page_of_pages_self hpages, ?_, fun q hq => State.page_of_pages_ne hpages hq, ?_⟩
    · rw [hdt.moveOf]
      exact hk.moveOf h2
    · rw [hdt]
      dsimp only
      rw [hk.promoted, h3, hu]
  · have hx : exec .evict s = .next (s.startEvict v (some p)) := by
      rw [exec_evict, execEvict, hn1, hn2]
      dsimp only
      rw [if_neg (by rw [has]; decide), hp]
      dsimp only
      rw [hv]
      exact if_pos (by simp [State.mayMigrate, hsh, hlt, hi])
    exact ⟨hx, fun hd => ⟨_, hx, State.startEvict_clean hd (some p)⟩⟩
  · intro e s1 s2
    obtain ⟨h1, h2, h3, h4⟩ := s.leaveFrame_tier p.toNat
    have hs1 := (((s.leaveFrame p.toNat).onTier fun x => { x with evicted := satAdd 32 x.evicted 1 }).tierDone_halterOnly p.toNat true 0)
    have hs2 : HalterOnly ((s.leaveFrame p.toNat).onTier fun x => { x with evicted := satAdd 32 x.evicted 1 }) s2 := by
      unfold s2
      split
      · exact HalterOnly.trans hs1 (State.raise_halterOnly ..)
      · exact hs1
    have hx0 (hn : m.next = none) : exec (.evictDone p) s = .next s2 := by
      rw [exec_evictDone, execEvictDone]
      dsimp only
      rw [hm]
      dsimp only
      rw [if_neg (by simp [he, hst, hwr]), if_neg (by rw [hd]; decide), hn]
    have hx1 (q : Nat) (hn : m.next = some q) : exec (.evictDone p) s =
        if ((s2.page q).st = 1 && s2.openFrames.contains e.frame) = true then .next (s2.startPromote q e.frame) else .next s2 := by
      rw [exec_evictDone, execEvictDone]
      dsimp only
      rw [hm]
      dsimp only
      rw [if_neg (by simp [he, hst, hwr]), if_neg (by rw [hd]; decide), hn]
    clear_value s2
    have hpages : s2.tier.pages = Tbl.upd {} s.tier.pages p.toNat Page.out := by
      rw [hs2]
      exact h1
    refine ⟨State.page_of_pages_self hpages, ?_, fun q hq => State.page_of_pages_ne hpages hq, ?_, fun hn => ?_, fun q hn => ?_⟩
    · rw [hs2.moveOf]
      exact h2
    · rw [hs2]
      exact congrArg (satAdd 32 · 1) h4
    · exact hx0 hn
    · rw [hx1 q hn]
      by_cases hc : (s2.page q).st = 1 ∧ s2.openFrames.contains e.frame = true
      · rw [if_pos hc, if_pos (by rw [hc.1, hc.2]; rfl)]
      · rw [if_neg hc, if_neg (by simpa using hc)]
  · have hx : exec (.evictAbandon p) s = .next (s.keepPage p.toNat) := by
      rw [exec_evictAbandon, execEvictAbandon]
      rw [hm]
      refine if_neg ?_
      simp only [he, Bool.not_true, Bool.false_or, Bool.not_eq_true', Bool.not_eq_false, Bool.or_eq_true, Bool.and_eq_true,
        decide_eq_true_eq, or_assoc]
      exact h
    refine ⟨_, hx, ?_, s.moveOf_keepPage p.toNat, fun q hq => ?_, fun hf => ?_⟩
    · rw [State.page_keepPage, State.page_onPage_self]
    · rw [State.page_keepPage, State.page_onPage_ne hq]
    · have hk := (State.keepPage_pagesOnly hf p.toNat).halter
      rw [HalterOnly] at hk
      exact hk

end Sys2Proof.Machine
end

section
/-! The channels of HBM (R396, R400, R402, R404 to R407, R410 to R416, R418 to R420, R422). -/

namespace Sys2Proof.Machine

/-! ### The retirement record and the controllers -/

theorem State.chanRec_onChanRec_self (s : State) (m : Nat) (f : ChanRec → ChanRec) : (s.onChanRec m f).chanRec m = f (s.chanRec m) :=
  Tbl.get_upd_self s.flash.chans m f

theorem State.chanRec_onChanRec_ne {j m : Nat} (h : j ≠ m) (s : State) (f : ChanRec → ChanRec) :
    (s.onChanRec m f).chanRec j = s.chanRec j :=
  Tbl.get_upd_ne h s.flash.chans f

/-- From `s` to `t` no stack, no channel and nothing of flash has changed. -/
structure ChansKept (s t : State) : Prop where
  stk : t.hbm.stk = s.hbm.stk
  chans : t.hbm.chans = s.hbm.chans
  flash : t.flash = s.flash

theorem ChansKept.refl (s : State) : ChansKept s s := ⟨rfl, rfl, rfl⟩

theorem ChansKept.trans {s t u : State} (hst : ChansKept s t) (htu : ChansKept t u) : ChansKept s u :=
  ⟨htu.stk.trans hst.stk, htu.chans.trans hst.chans, htu.flash.trans hst.flash⟩

theorem FabOnly.chansKept {s t : State} (h : FabOnly s t) : ChansKept s t := by
  refine ⟨?_, ?_, ?_⟩ <;> rw [h]

theorem HalterOnly.chansKept {s t : State} (h : HalterOnly s t) : ChansKept s t := by
  refine ⟨?_, ?_, ?_⟩ <;> rw [h]

theorem State.report_chansKept (s : State) (cls unit code inst addr detail flags : Nat) :
    ChansKept s (s.report cls unit code inst addr detail flags) := by
  refine ⟨?_, ?_, ?_⟩ <;> rw [State.report_eq]

theorem ChansKept.chan {s t : State} (h : ChansKept s t) (m : Nat) : t.chan m = s.chan m := by
  rw [State.chan, h.chans]
  rfl

theorem ChansKept.chanRec {s t : State} (h : ChansKept s t) (m : Nat) : t.chanRec m = s.chanRec m := by
  rw [State.chanRec, h.flash]
  rfl

/-! ### Map-outs -/

theorem State.poisonChan_chansKept (s : State) (n k : Nat) : ChansKept s (s.poisonChan n k) := by
  unfold State.poisonChan
  refine foldl_related ChansKept.refl ChansKept.trans (fun t a => ?_) _ s
  dsimp only
  split
  · split
    · exact ⟨rfl, rfl, rfl⟩
    · exact ⟨rfl, rfl, rfl⟩
  · exact ⟨rfl, rfl, rfl⟩

/-- From `s` to `t` no channel has failed, and none has come back. -/
structure OutsKept (s t : State) : Prop where
  out : ∀ m, (s.chanRec m).mappedOut = true → (t.chanRec m).mappedOut = true
  works : ∀ m, (s.chan m).failing = false → (t.chan m).failing = false

theorem OutsKept.refl (s : State) : OutsKept s s := ⟨fun _ h => h, fun _ h => h⟩

theorem OutsKept.trans {s t u : State} (hst : OutsKept s t) (htu : OutsKept t u) : OutsKept s u :=
  ⟨fun m h => htu.out m (hst.out m h), fun m h => htu.works m (hst.works m h)⟩

theorem ChansKept.outsKept {s t : State} (h : ChansKept s t) : OutsKept s t :=
  ⟨fun m hm => by rw [h.chanRec]; exact hm, fun m hm => by rw [h.chan]; exact hm⟩

/-- A channel is mapped out for good. -/
theorem State.mapOut_outs (s : State) (n k : Nat) : OutsKept s (s.mapOut n k) ∧
    ((s.mapOut n k).chanRec (16 * n + k)).mappedOut = true ∧ ((s.mapOut n k).chan (16 * n + k)).failing = false := by
  unfold State.mapOut
  extract_lets m old sv j u v x hb w
  have hu : OutsKept s u := (s.poisonChan_chansKept n k).outsKept
  have hv : OutsKept u v ∧ (v.chanRec m).mappedOut = true ∧ (v.chan m).failing = false := by
    have hrec (i : Nat) : v.chanRec i = if i = m then { u.chanRec i with mappedOut := true } else u.chanRec i := by
      by_cases hi : i = m
      · rw [if_pos hi, hi]
        exact u.chanRec_onChanRec_self m fun r => { r with mappedOut := true }
      · rw [if_neg hi]
        exact State.chanRec_onChanRec_ne hi u fun r => { r with mappedOut := true }
    have hchan (i : Nat) : v.chan i = if i = m then { u.chan i with failing := false } else u.chan i := by
      by_cases hi : i = m
      · rw [if_pos hi, hi]
        exact (u.onChanRec m _).chan_onChan_self m fun c => { c with failing := false }
      · rw [if_neg hi]
        exact State.chan_onChan_ne hi (u.onChanRec m _) fun c => { c with failing := false }
    refine ⟨⟨fun i h => ?_, fun i h => ?_⟩, by rw [hrec, if_pos rfl], by rw [hchan, if_pos rfl]⟩
    · rw [hrec]
      split
      · rfl
      · exact h
    · rw [hchan]
      split
      · rfl
      · exact h
  obtain ⟨hv, hout, hworks⟩ := hv
  have hw : ChansKept v w := ⟨rfl, rfl, rfl⟩
  have hlast : ChansKept v (if j - 1 < 8 && 8 ≤ j then w.report 5 4 0x30B n else w) := by
    split
    · exact hw.trans (State.report_chansKept ..)
    · exact hw
  clear_value u v
  exact ⟨(hu.trans hv).trans hlast.outsKept, by rw [hlast.chanRec]; exact hout, by rw [hlast.chan]; exact hworks⟩

theorem State.foldl_mapOut_outs (n : Nat) (l : List Nat) (s : State) : let t := l.foldl (fun (s : State) k => s.mapOut n k) s
    OutsKept s t ∧ ∀ k ∈ l, (t.chanRec (16 * n + k)).mappedOut = true ∧ (t.chan (16 * n + k)).failing = false := by
  induction l generalizing s with
  | nil => exact ⟨.refl s, fun k hk => absurd hk List.not_mem_nil⟩
  | cons j l ih =>
    obtain ⟨hk, ho, hw⟩ := s.mapOut_outs n j
    obtain ⟨hk', hl⟩ := ih (s.mapOut n j)
    refine ⟨hk.trans hk', fun k hm => ?_⟩
    rcases List.mem_cons.1 hm with rfl | hm
    · exact ⟨hk'.out _ ho, hk'.works _ hw⟩
    · exact hl k hm

theorem State.endShrink_outsKept (s : State) (n top old : Nat) : OutsKept s (s.endShrink n top old) := by
  unfold State.endShrink
  extract_lets lo hi h gone tier u
  exact OutsKept.trans (t := u) ⟨fun _ h => h, fun _ h => h⟩ (State.raise_halterOnly ..).chansKept.outsKept

/-! ### What is fetched again -/

theorem State.endRestore_chansKept (s : State) : ChansKept s s.endRestore := by
  have hlost (t : State) (x : MapOut) : ChansKept t (t.lostChannel x) := by
    unfold State.lostChannel
    extract_lets us lost hb u
    split
    · exact .refl t
    · exact ChansKept.trans (t := u) ⟨rfl, rfl, rfl⟩ ((State.report_chansKept ..).trans (State.raise_halterOnly ..).chansKept)
  have hunits (t : State) (bad : List Nat) : ChansKept t (t.lostUnits bad) := by
    unfold State.lostUnits
    extract_lets hb u
    refine ChansKept.trans (t := u) ⟨rfl, rfl, rfl⟩ (foldl_related ChansKept.refl ChansKept.trans (fun v a => ?_) _ u)
    split
    · exact .refl v
    · exact ((State.report_chansKept ..).trans (State.raise_halterOnly ..).chansKept).trans ⟨rfl, rfl, rfl⟩
  unfold State.endRestore
  extract_lets busy u
  split
  · exact .refl s
  · have hu : ChansKept s u := foldl_related ChansKept.refl ChansKept.trans (fun t x => hlost t x) _ s
    clear_value u
    exact hu.trans (ChansKept.trans (t := { u with hbm := { u.hbm with restoring := false, mapped := [] } }) ⟨rfl, rfl, rfl⟩ (hunits ..))

theorem State.beginRestore_chansKept (s : State) : ChansKept s s.beginRestore := by
  unfold State.beginRestore
  extract_lets hb u
  refine ChansKept.trans (t := u) ⟨rfl, rfl, rfl⟩ (ChansKept.trans (foldl_related ChansKept.refl ChansKept.trans (fun t a => ?_) _ u)
    (State.endRestore_chansKept _))
  split
  · exact (State.sendReq_fabOnly ..).chansKept
  · exact .refl t

/-! ### A page that is retired -/

/-- From `s` to `t` page `pg` of channel `m` is retired, `l` wait behind it, and its report is made. -/
structure Retired (s t : State) (m pg target : Nat) (l : List Nat) : Prop where
  rest : t = { s with flash := t.flash, err := t.err, hbm := { s.hbm with chans := t.hbm.chans } }
  chan : t.chan m = { s.chan m with retiring := l }
  chanRec : t.chanRec m = { s.chanRec m with
    retired := (s.chanRec m).retired + 1, remap := (s.chanRec m).remap.filter (·.1 ≠ pg) ++ [(pg, target)] }

/-- The state in which a page has been retired (R404 to R407). -/
def State.retirePage (s : State) (m pg target : Nat) (l : List Nat) : State :=
  ((s.onChan m fun c => { c with retiring := l }).report 3 4 0x306 m ((s.onChan m fun c => { c with retiring := l }).chanAddr m
    (4096 * pg))).onChanRec m fun c =>
      { c with retired := c.retired + 1, remap := c.remap.filter (·.1 ≠ pg) ++ [(pg, target)] }

theorem State.retirePage_retired (s : State) (m pg target : Nat) (l : List Nat) : Retired s (s.retirePage m pg target l) m pg target l := by
  unfold State.retirePage
  have hu := State.chan_onChan_self s m fun c => { c with retiring := l }
  have hr : (s.onChan m fun c => { c with retiring := l }).chanRec m = s.chanRec m := rfl
  have hrest : s.onChan m (fun c => { c with retiring := l }) = { s with hbm := { s.hbm with
      chans := (s.onChan m fun c => { c with retiring := l }).hbm.chans } } := rfl
  generalize s.onChan m (fun c => { c with retiring := l }) = u at hu hr hrest
  have hl := u.report_logOnly 3 0x306 m (u.chanAddr m (4096 * pg)) 0 0 (unit := 4) (by omega)
  have hk := u.report_chansKept 3 4 0x306 m (u.chanAddr m (4096 * pg)) 0 0
  generalize u.report 3 4 0x306 m (u.chanAddr m (4096 * pg)) = v at hl hk
  refine ⟨?_, ?_, ?_⟩
  · unfold State.onChanRec
    dsimp only
    rw [hl, hrest]
  · exact (hk.chan m).trans hu
  · rw [State.chanRec_onChanRec_self, hk.chanRec, hr]

theorem execPageRetireDone_eq {m : ChanIx} {s : State} {pg : Nat} {l : List Nat} (hc : (s.chan m.val).retiring = pg :: l) :
    let n := m.val / 16
    let lower := (s.onChanRec m.val fun c => { c with retired := c.retired + 1 }).top n
    let target := chanCap / 4096 - 1 - (s.chanRec m.val).retired
    execPageRetireDone m s = .next (if lower < s.top n then
        if (s.beginShrink n lower).shrinkClear then ((s.beginShrink n lower).retirePage m.val pg target l).endShrink n lower (s.top n)
        else s.beginShrink n lower
      else s.retirePage m.val pg target l) := by
  intro n lower target
  unfold execPageRetireDone
  rw [hc]
  dsimp only
  by_cases hlt : lower < s.top n
  · rw [if_pos hlt, if_pos hlt, decide_eq_true hlt, Bool.true_and, if_pos hlt]
    cases (s.beginShrink n lower).shrinkClear <;> rfl
  · rw [if_neg hlt, if_neg hlt, decide_eq_false hlt, Bool.false_and, if_neg hlt]
    rfl

/-! ### The end of a relayout -/

/-- The state in which the channels that are due have been mapped out, and the stack's window answers again (R411 to R416). -/
def State.relay (u : State) (n : Nat) : State :=
  let due := u.dueChans n
  let v := due.foldl (fun (s : State) k => s.mapOut n k) (due.foldl (fun (s : State) k => s.poisonChan n k) u)
  let w := v.endShrink n (v.top n) (u.top n)
  { w with hbm := { w.hbm with stk := setAt w.hbm.stk n fun x => { x with relayout := false } } }

/-- The end of a relayout: after the last stack's, poisoned units are fetched again. -/
def State.relaid (u : State) (n : Nat) : State := if (u.relay n).relayoutDue then u.relay n else (u.relay n).beginRestore

theorem execRelayoutDone_eq {n : StackIx} {s : State} (hd : s.dueChans n.val ≠ [])
    (hj : s.hal.job = 2 → (nth s.hbm.stk n.val {}).relayout = true) : execRelayoutDone n s =
      if !(s.beginRelayout n.val).shrinkClear then .next (s.beginRelayout n.val) else .next ((s.beginRelayout n.val).relaid n.val) := by
  unfold execRelayoutDone
  rw [if_neg]
  · rfl
  · simpa [hd] using hj

theorem State.relay_relayout (u : State) (n : Nat) : (nth (u.relay n).hbm.stk n {}).relayout = false := by
  unfold State.relay
  extract_lets due v w
  by_cases hn : n < w.hbm.stk.length
  · dsimp only
    rw [nth_setAt_self hn]
  · have hnone : (setAt w.hbm.stk n fun x => { x with relayout := false })[n]? = none := by
      simp [setAt]
      omega
    simp [nth, hnone]

theorem State.relay_outs (u : State) (n : Nat) : ∀ k ∈ u.dueChans n,
    ((u.relay n).chanRec (16 * n + k)).mappedOut = true ∧ ((u.relay n).chan (16 * n + k)).failing = false := by
  unfold State.relay
  extract_lets due v w
  have hv : ∀ k ∈ due, (v.chanRec (16 * n + k)).mappedOut = true ∧ (v.chan (16 * n + k)).failing = false :=
    (State.foldl_mapOut_outs n due (due.foldl (fun (s : State) k => s.poisonChan n k) u)).2
  have hw : OutsKept v w := v.endShrink_outsKept ..
  clear_value v w
  intro k hk
  obtain ⟨ho, hf⟩ := hv k hk
  exact ⟨hw.out _ ho, hw.works _ hf⟩

theorem State.relaid_chansKept (u : State) (n : Nat) : ChansKept (u.relay n) (u.relaid n) := by
  unfold State.relaid
  split
  · exact .refl _
  · exact State.beginRestore_chansKept _

/-- `State.relay` in the statement's own words. -/
theorem State.relay_eq (u : State) (n : Nat) :
    let due := u.dueChans n
    let v := due.foldl (fun (s : State) k => s.mapOut n k) (due.foldl (fun (s : State) k => s.poisonChan n k) u)
    let w := v.endShrink n (v.top n) (u.top n)
    u.relay n = { w with hbm := { w.hbm with stk := setAt w.hbm.stk n fun x => { x with relayout := false } } } := rfl

/-- What `execRelayoutDone` gives once the stack's shrink has begun in `u`: it goes on, or the due channels are out and the window answers. -/
theorem relayoutDone_of_exec {n : StackIx} {s u x : State} (hr : u.relay n.val = x)
    (hx : exec (.relayoutDone n) s = if !u.shrinkClear then .next u else .next (u.relaid n.val)) :
    (u.shrinkClear = false → exec (.relayoutDone n) s = .next u) ∧
    (u.shrinkClear = true → Does (.relayoutDone n) s fun t => t = (if x.relayoutDue then x else x.beginRestore) ∧
      (nth t.hbm.stk n.val {}).relayout = false ∧
      ∀ k ∈ u.dueChans n.val, (t.chanRec (16 * n.val + k)).mappedOut = true ∧ (t.chan (16 * n.val + k)).failing = false) := by
  have hlay := u.relay_relayout n.val
  have houts := u.relay_outs n.val
  have ht := u.relaid_chansKept n.val
  have he : u.relaid n.val = if x.relayoutDue then x else x.beginRestore := by rw [State.relaid, hr]
  rw [hr] at hlay houts ht
  refine ⟨fun hcl => hx.trans (if_pos (by rw [hcl]; rfl)), fun hcl => ⟨_, hx.trans (if_neg (by rw [hcl]; decide)), he, ?_, fun k hk => ?_⟩⟩
  · rw [ht.stk]
    exact hlay
  · rw [ht.chanRec, ht.chan]
    exact houts k hk

/-! ### Temperature -/

/-- LEVEL after a reading (R419, R422). -/
theorem execHbmTempRead_reads (n : StackIx) (temp : BitVec 8) {s : State} (h : s.hbm.stk.length = 6) :
    let x := nth s.hbm.stk n.val {}
    Does (.hbmTempRead n temp) s fun t =>
      t = { s with hbm := { s.hbm with stk := t.hbm.stk } } ∧ (∀ j, j ≠ n.val → nth t.hbm.stk j {} = nth s.hbm.stk j {}) ∧
      (nth t.hbm.stk n.val {}).temp = temp.toInt ∧ (nth t.hbm.stk n.val {}).reports = (temp.toInt :: x.reports).take 10 ∧
      (nth t.hbm.stk n.val {}).level = if (s.hbm.tThrot : Int) ≤ temp.toInt && 1 < x.level then x.level - 1
        else if ((temp.toInt :: x.reports).take 10).length = 10 && ((temp.toInt :: x.reports).take 10).all (fun r => r ≤ (s.hbm.tThrot : Int) - 3) &&
          x.level < 8 then x.level + 1 else x.level := by
  intro x
  refine ⟨_, exec_hbmTempRead s n temp, ?_⟩
  dsimp only
  have hself := nth_setAt_self (l := s.hbm.stk) (i := n.val) (by have := n.isLt; omega)
  refine ⟨rfl, fun j hj => nth_setAt_ne hj .., ?_⟩
  rw [hself]
  exact ⟨rfl, rfl, rfl⟩

/-! ### Scrub -/

/-- A scrub of a channel in service reads the next chunk (R410). -/
theorem execScrubRead_next {m : ChanIx} {s : State} (hm : (s.chanRec m.val).mappedOut = false) (hf : (s.chan m.val).failing = false)
    (htop : s.chanAddr m.val (2048 * (s.chan m.val).scrub) % 2 ^ 36 < s.top (m.val / 16)) :
    let a := s.chanAddr m.val (2048 * (s.chan m.val).scrub)
    let u := s.onChan m.val fun x => { x with scrub := ((s.chan m.val).scrub + 1) % (chanCap / 2048) }
    exec (.scrubRead m []) s = .next (((u.countHbm a 0 8).readErrs a 2048 []).decodeAt a 2048) := by
  intro a u
  have hu : u.top (m.val / 16) = s.top (m.val / 16) := rfl
  have htop : a % 2 ^ 36 < u.top (m.val / 16) := by
    rw [hu]
    exact htop
  rw [exec_scrubRead, execScrubRead, hm, hf, if_neg (by decide)]
  extract_lets c a' u'
  have ha : a' = a := rfl
  have hv : u' = u := rfl
  rw [ha, hv, if_pos htop]

theorem State.countHbm_hbm (u : State) (a wr rd : Nat) : (u.countHbm a wr rd).hbm = u.hbm := rfl

theorem State.countHbm_chan (u : State) (a wr rd m : Nat) : (u.countHbm a wr rd).chan m = u.chan m := by
  unfold State.chan
  rw [u.countHbm_hbm]

/-- Where no cell has lost its charge a scrub only counts. -/
theorem State.scrub_of_no_flips {u : State} (a : Nat) (hfl : u.hbm.flips = []) :
    ((u.countHbm a 0 8).readErrs a 2048 []).decodeAt a 2048 = u.countHbm a 0 8 := by
  have hc : (u.countHbm a 0 8).hbm.flips = [] := hfl
  unfold State.readErrs State.decodeAt
  dsimp only [List.foldl_nil]
  rw [hc]
  rfl

/-! ### The statement -/

/-- Settles O24: a clause each, from the rules of a page that is retired and of a channel that is mapped out. -/
theorem hbmChannels : Obligations.HbmChannels := by
  refine ⟨fun m s => ?_, fun n temp s hlen => ?_, fun n s hdue hjob hlen => ?_⟩
  · intro c r n lower
    refine ⟨fun row l hc => ?_, fun pg l hc hlow => ?_, fun pg l hc hlow => ?_, fun cleared hm hf hr => ⟨fun h3 => ?_, fun h3 hcl => ?_⟩,
      fun a hc hcmds => ?_, fun hm hf hfl => ?_, exec_hbmRefresh s m [], fun e hm hlt htop => ?_⟩
    · have hx : exec (.rowShadowDone m) s = .next ((s.onChan m.val fun c => { c with shadowing := l }).onChanRec m.val fun c =>
          { c with shadows := c.shadows ++ [row] }) := by
        rw [exec_rowShadowDone, execRowShadowDone, show (s.chan m.val).shadowing = row :: l from hc]
      exact ⟨_, hx, rfl, s.chan_onChan_self m.val _, (s.onChan m.val _).chanRec_onChanRec_self m.val _⟩
    · have hv := s.retirePage_retired m.val pg (chanCap / 4096 - 1 - r.retired) l
      exact ⟨_, (exec_pageRetireDone s m).trans ((execPageRetireDone_eq hc).trans (congrArg _ (if_neg (Nat.not_lt.2 (Nat.le_of_eq hlow.symm))))),
        hv.rest, hv.chan, hv.chanRec⟩
    · intro u
      have hx := (exec_pageRetireDone s m).trans ((execPageRetireDone_eq hc).trans (congrArg _ (if_pos hlow)))
      refine ⟨fun hcl => hx.trans (congrArg _ (if_neg (by rw [show State.shrinkClear _ = false from hcl]; decide))), fun hcl =>
        ⟨_, hx.trans (congrArg _ (if_pos hcl)), _, rfl, ?_⟩⟩
      have hv := u.retirePage_retired m.val pg (chanCap / 4096 - 1 - r.retired) l
      exact ⟨hv.rest, hv.chan, hv.chanRec⟩
    · refine ⟨_, (exec_hbmInterfaceError s m cleared).trans ((if_neg ?_).trans (if_pos h3)), rfl, s.chan_onChan_self m.val _⟩
      rw [show (s.chanRec m.val).mappedOut = false from hm, show (s.chan m.val).failing = false from hf,
        show (s.chan m.val).retrain = none from hr]
      decide
    · refine ⟨_, (exec_hbmInterfaceError s m cleared).trans ((if_neg ?_).trans ((if_neg (Nat.not_le.2 h3)).trans (if_neg ?_))), rfl,
        s.chan_onChan_self m.val _⟩
      · rw [show (s.chanRec m.val).mappedOut = false from hm, show (s.chan m.val).failing = false from hf,
          show (s.chan m.val).retrain = none from hr]
        decide
      · rw [hcl]
        decide
    · have hhal (f : PendCmd → PendCmd) : ({ s.hal with cmds := s.hal.cmds.map f } : Halter) = s.hal := by
        rw [hcmds, List.map_nil, ← hcmds]
      have hx : exec (.channelRetrainDone m true) s = .next ((s.onChan m.val fun c => { c with retrain := none }).report 2 4 0x309 m.val) := by
        rw [exec_channelRetrainDone, execChannelRetrainDone, if_neg (by rw [show (s.chan m.val).retrain = some a from hc]; exact Bool.false_ne_true)]
        change Host.Outcome.next (State.report { s.onChan m.val (fun c => { c with retrain := none }) with
          hal := { s.hal with cmds := s.hal.cmds.map _ } } 2 4 0x309 m.val) = _
        rw [hhal]
        rfl
      have hu := s.chan_onChan_self m.val fun c => { c with retrain := none }
      have hrest : s.onChan m.val (fun c => { c with retrain := none }) = { s with hbm := { s.hbm with
        chans := (s.onChan m.val fun c => { c with retrain := none }).hbm.chans } } := rfl
      generalize s.onChan m.val (fun c => { c with retrain := none }) = u at hx hu hrest
      have hl := u.report_logOnly 2 0x309 m.val 0 0 0 (unit := 4) (by omega)
      have hk := u.report_chansKept 2 4 0x309 m.val 0 0 0
      generalize u.report 2 4 0x309 m.val = v at hx hl hk
      exact ⟨v, hx, by rw [hl, hrest], (hk.chan m.val).trans hu⟩
    · intro s1 htop
      have hfl : s1.hbm.flips = [] := hfl
      have hx := execScrubRead_next hm hf htop
      have hd := State.scrub_of_no_flips (s.chanAddr m.val (2048 * c.scrub)) hfl
      refine ⟨_, hx, hd, ?_, ?_, ?_⟩
      · rw [hd, State.countHbm_chan]
        exact s.chan_onChan_self m.val _
      · rw [hd, State.countHbm_hbm]
        rfl
      · rw [hd, State.countHbm_hbm]
        rfl
    · have hx : exec (.hbmRefresh m [e]) s = .next (s.disturb (s.chanAddr m.val (64 * e.unit)) e.flips) := by
        refine (exec_hbmRefresh s m [e]).trans (congrArg Host.Outcome.next (if_neg ?_))
        rw [show (s.chanRec m.val).mappedOut = false from hm]
        simp
        exact ⟨htop, hlt⟩
      exact ⟨_, hx, rfl, rfl⟩
  · intro x
    obtain ⟨t, ht, h1, h2, h3, h4, h5⟩ := execHbmTempRead_reads n temp hlen
    refine ⟨t, ht, h1, h2, h3, h4, fun hge hl => ?_, fun hge hl => ?_, fun hle h9 hall hl => ?_, fun hlt hgt => ?_⟩
    · have hge : (s.hbm.tThrot : Int) ≤ temp.toInt := hge
      rw [h5, if_pos (by simp [hge]; exact hl)]
    · have hge : (s.hbm.tThrot : Int) ≤ temp.toInt := hge
      have hno : ((temp.toInt :: x.reports).take 10).all (fun r => decide (r ≤ (s.hbm.tThrot : Int) - 3)) = false := by
        rw [List.take_succ_cons, List.all_cons, decide_eq_false (by omega), Bool.false_and]
      rw [h5, show (nth s.hbm.stk n.val {}).level = 1 from hl, hno]
      simp
    · have hlow : ¬ (s.hbm.tThrot : Int) ≤ temp.toInt := by omega
      have hyes : ((temp.toInt :: x.reports).take 10).all (fun r => decide (r ≤ (s.hbm.tThrot : Int) - 3)) = true := by
        rw [List.take_succ_cons, List.all_cons, decide_eq_true hle, Bool.true_and]
        exact List.all_eq_true.2 fun r hr => decide_eq_true (hall r hr)
      have hten : ((temp.toInt :: x.reports).take 10).length = 10 := by
        rw [List.length_take, List.length_cons]
        have : 9 ≤ x.reports.length := h9
        omega
      rw [h5, if_neg (by simp [hlow]), hyes, hten, if_pos (by simpa using hl)]
    · have hno : ((temp.toInt :: x.reports).take 10).all (fun r => decide (r ≤ (s.hbm.tThrot : Int) - 3)) = false := by
        rw [List.take_succ_cons, List.all_cons, decide_eq_false (by omega), Bool.false_and]
      rw [h5, if_neg (by simp; omega), hno, if_neg (by simp)]
  · intro u
    have hx : exec (.relayoutDone n) s = if !u.shrinkClear then .next u else .next (u.relaid n.val) :=
      (exec_relayoutDone s n).trans (execRelayoutDone_eq hdue hjob)
    clear_value u
    exact relayoutDone_of_exec (u.relay_eq n.val) hx

end Sys2Proof.Machine
end


section
/-!
Micro-batches and the commit (R249, R250, R252, R253, R861).

A commit is a packet, and the home that takes it may have to save another sender's context in memory. The unit there may be one whose
error is the failure too many of its channel (R399, R411): the device then asks for a repeat (R363), and the same packet that carried the
commit has set `requested`.
-/
namespace Sys2Proof.Machine

/-- A machine that runs a step and lets others write, with the contexts of 4,096 senders. A cell has lost its charge where a context is
saved; its row has had a corrected error, the row's spare is used up, and 64 pages of its channel are retired. -/
def worn : State :=
  { State.reset with
    hal := { State.reset.hal with job := 2 }
    step := { State.reset.step with st := 1 }
    fab := { State.reset.fab with numbered := true, regions := [(0, { perm := 10 })], senders := List.replicate 4096 (5, {}) }
    hbm := { State.reset.hbm with flips := [(0, [(0, 1)])], chans := [(0, { rowErrs := [(0, [0])] })] }
    flash := { State.reset.flash with chans := [(0, { repaired := [0], retired := 64 })] } }

/-- A request of device 7 with the number 1: this device holds no context of device 7. -/
def freshPkt : Pkt := { op := 0, src := 7, addr := 2 ^ 62, wseq := 1, step := 1 }

theorem worn_comes : worn.MsgComes (ledPkt freshPkt 6 [1]) 0 where
  src := by decide +kernel
  room := by decide +kernel
  numbered := rfl
  whole := rfl
  dst := by decide +kernel
  scope := by decide +kernel
  next := by decide +kernel
  order := by decide +kernel
  formed := by decide +kernel
  refusal := by decide +kernel

/-- Whether the device has asked for a repeat once `c` has run. -/
def requestedAfter (c : Instr) (s : State) : Bool :=
  match exec c s with
  | .next t => t.step.requested
  | _ => false

theorem worn_requests : requestedAfter (.commit freshPkt 1) worn = true := by decide +kernel

/-- Refutes O17: the commit's clause says that STEP keeps all but the held commit and its time, and a commit whose packet has the home save a
context at a failing unit has the device ask for a repeat as well. -/
theorem not_microBatches : ¬ Obligations.MicroBatches := by
  rintro ⟨-, hcommit⟩
  obtain ⟨hheld, -⟩ := hcommit freshPkt 1 worn (by decide +kernel) (by decide +kernel) (.inr worn_comes)
  obtain ⟨t, hx, -, ht, -⟩ := hheld (by decide +kernel)
  have hasked : t.step.requested = true := by
    have h := worn_requests
    rwa [requestedAfter, hx] at h
  have hkept : t.step.requested = false := by
    rw [ht]
    rfl
  rw [hasked] at hkept
  exact absurd hkept (by decide)

end Sys2Proof.Machine
end
